-- ==== Sys2Proof/Word.lean ====
section
/-! DEFINITION. The word types of Jorene (R10, R32, R37) and nothing else: every helper that a later
repair might have to mend stands in Decode.lean or under Machine/. -/

namespace Sys2Proof

/-- A general register: 64 bits (R10). -/
abbrev Word := BitVec 64

/-- One byte of memory. -/
abbrev Byte := BitVec 8

/-- A 16-bit instruction halfword (R32). -/
abbrev Half := BitVec 16

/-- A 5-bit register specifier: 0–23 are w0–w23, 24–31 are g0–g7. -/
abbrev Reg := BitVec 5

/-- A four-word parameter block read as one 128-bit value P (R56). -/
abbrev Block := BitVec 128

end Sys2Proof
end

