-- ==== Sys2Proof/Event.lean ====
section
/-! DEFINITION. The data that the events of the opcode table carry: who stores to a register (R98,
R263, R350), a Chairli flit (R383), the storage a soft error strikes (R147, R260, R267), and the
outcome of a trap check in general terms. Plain data only. -/

namespace Sys2Proof

/-- A requester of a register access: a thread by core and slot, the supervisor core of a die, or a
host function (0 is PF0, q + 1 is VF q+1). -/
inductive Who where
  | thread (core slot : Nat)
  | supervisor (die : Nat)
  | host (fn : Nat)
  deriving DecidableEq, Repr

/-- What a store to a register carries: 4 bytes or 8 (R98). -/
inductive Stored where
  | word (v : BitVec 32)
  | double (v : Word)
  deriving DecidableEq, Repr

/-- A launch record, as another package names it: the partition, and the record's number in its pool (R344). -/
structure RecordName where
  part : Nat
  ix : Nat
  deriving DecidableEq, Repr

/-- A Chairli flit as delivered: header fields of R383, its payload, the port and wavelength it came
in on, and whether its CRC and its tag were right (R385). -/
structure Flit where
  typ : Nat
  tcm : Bool := false
  nar : Bool := false
  dst : Nat := 0
  src : Nat := 0
  qs : Nat := 0
  qd : Nat := 0
  seq : Nat := 0
  hdl : Nat := 0
  off : Nat := 0
  len : Nat := 0
  aux : Nat := 0
  payload : List Byte := []
  port : Nat := 0
  wave : Nat := 0
  /-- R385: the counter with which it was encrypted: 2^24·WRAP + SEQ. It is not among its bytes. -/
  nonce : Nat := 0
  crcOk : Bool := true
  tagOk : Bool := true
  deriving DecidableEq, Repr

/-- Storage that a soft error can strike (R147, R227, R260, R267). -/
inductive Site where
  | memory (pa : Nat)                 -- a 64-bit word of package memory or its L2 line
  | scratch (core off : Nat)
  | register (core slot phys : Nat)   -- physical code: 0–95 window, 96.. globals
  | channel (core ch pos : Nat)
  | coreControl (core : Nat)          -- tag counts, frame records, weft buffers
  | accumulator (core row col : Nat)
  | bstack (core slice off : Nat)
  | clusterObject (cluster off : Nat)
  | clusterQueue (cluster : Nat)
  | recordState (cluster record : Nat)
  deriving DecidableEq, Repr

/-- A TDISP or SPDM reply is data for the requester; a request names what it asks (R360, R361). -/
structure SpdmRequest where
  index : Nat := 0
  nonce : Nat := 0
  deriving DecidableEq, Repr

end Sys2Proof
end

