-- ==== Sys2Proof/Syntax.lean ====
section
/-! DEFINITION. The instructions and events of Jorene and the KX4: one constructor for each row of the
opcode table. The first 265 are instruction words (R32–R47); the rest are the indivisible steps of the
device that no instruction word names (95_what_each_step_holds), each with the data that says where it
happens. -/

namespace Sys2Proof

/-- One step of the device: an instruction of a thread, or an event of an engine, a link or the host. -/
inductive Instr where
  /-- R38: Short form: copies register s into d -/
  | shortMvReg (d s : Reg)
  /-- R38: Short form: writes the sign-extended imm5 into d -/
  | shortMvImm (d : Reg) (i : BitVec 5)
  /-- R38: Short form: adds register s to d, wrapping -/
  | shortAddReg (d s : Reg)
  /-- R38: Short form: adds the sign-extended imm5 to d -/
  | shortAddImm (d : Reg) (i : BitVec 5)
  /-- R38: Short form: subtracts register s from d -/
  | shortSubReg (d s : Reg)
  /-- R38: Short form: subtracts the sign-extended imm5 from d -/
  | shortSubImm (d : Reg) (i : BitVec 5)
  /-- R38: Short form: ANDs register s into d -/
  | shortAndReg (d s : Reg)
  /-- R38: Short form: ANDs the sign-extended imm5 into d -/
  | shortAndImm (d : Reg) (i : BitVec 5)
  /-- R38: Short form: ORs register s into d -/
  | shortOrReg (d s : Reg)
  /-- R38: Short form: ORs the sign-extended imm5 into d -/
  | shortOrImm (d : Reg) (i : BitVec 5)
  /-- R38: Short form: XORs register s into d -/
  | shortXorReg (d s : Reg)
  /-- R38: Short form: XORs the sign-extended imm5 into d -/
  | shortXorImm (d : Reg) (i : BitVec 5)
  /-- R38: Short form: shifts d left by s[5:0] -/
  | shortShlReg (d s : Reg)
  /-- R38: Short form: shifts d left by the zero-extended imm5 -/
  | shortShlImm (d : Reg) (i : BitVec 5)
  /-- R38: Short form: shifts d right logically by s[5:0] -/
  | shortShrReg (d s : Reg)
  /-- R38: Short form: shifts d right logically by imm5 -/
  | shortShrImm (d : Reg) (i : BitVec 5)
  /-- R38: Short form: shifts d right arithmetically by s[5:0] -/
  | shortSraReg (d s : Reg)
  /-- R38: Short form: shifts d right arithmetically by imm5 -/
  | shortSraImm (d : Reg) (i : BitVec 5)
  /-- R38: Short form: writes the signed minimum of d and register s to d -/
  | shortMinReg (d s : Reg)
  /-- R38: Short form: writes the signed minimum of d and imm5 to d -/
  | shortMinImm (d : Reg) (i : BitVec 5)
  /-- R38: Short form: writes the signed maximum of d and register s to d -/
  | shortMaxReg (d s : Reg)
  /-- R38: Short form: writes the signed maximum of d and imm5 to d -/
  | shortMaxImm (d : Reg) (i : BitVec 5)
  /-- R38: Short form: sets d to 1 if d < s signed, else 0 -/
  | shortSltReg (d s : Reg)
  /-- R38: Short form: sets d to 1 if d < imm5 signed, else 0 -/
  | shortSltImm (d : Reg) (i : BitVec 5)
  /-- R38: Short form: multiplies d by register s, low 64 bits -/
  | shortMulReg (d s : Reg)
  /-- R38: Short form: multiplies d by imm5, low 64 bits -/
  | shortMulImm (d : Reg) (i : BitVec 5)
  /-- R39: Short form: loads the doubleword at the address in s into d -/
  | shortLdReg (d s : Reg)
  /-- R39: Short form: loads the doubleword at d + 8·imm5 into d -/
  | shortLdOff (d : Reg) (i : BitVec 5)
  /-- R39: Short form: stores register s at the address in d -/
  | shortStReg (d s : Reg)
  /-- R39: Short form: stores the sign-extended imm5 at the address in d -/
  | shortStImm (d : Reg) (i : BitVec 5)
  /-- R39: Sets SKC to n when register s is zero -/
  | skz (s : Reg) (n : BitVec 2)
  /-- R39: Sets SKC to n when register s is non-zero -/
  | skzN (s : Reg) (n : BitVec 2)
  /-- R70: Writes a + b to d -/
  | add (d a b : Reg)
  /-- R70: Writes a − b to d -/
  | sub (d a b : Reg)
  /-- R70: Writes a AND b to d -/
  | and (d a b : Reg)
  /-- R70: Writes a OR b to d -/
  | or (d a b : Reg)
  /-- R70: Writes a XOR b to d -/
  | xor (d a b : Reg)
  /-- R70: Writes a AND NOT b to d -/
  | andn (d a b : Reg)
  /-- R70: Shifts a left by b[5:0] -/
  | shl (d a b : Reg)
  /-- R70: Shifts a right logically by b[5:0] -/
  | shr (d a b : Reg)
  /-- R70: Shifts a right arithmetically by b[5:0] -/
  | sra (d a b : Reg)
  /-- R70: Rotates a left by b[5:0] -/
  | rol (d a b : Reg)
  /-- R70: Writes the signed minimum of a and b -/
  | min (d a b : Reg)
  /-- R70: Writes the signed maximum of a and b -/
  | max (d a b : Reg)
  /-- R70: Writes the unsigned minimum of a and b -/
  | minu (d a b : Reg)
  /-- R70: Writes the unsigned maximum of a and b -/
  | maxu (d a b : Reg)
  /-- R70: Writes 1 if a < b signed, else 0 -/
  | slt (d a b : Reg)
  /-- R70: Writes 1 if a < b unsigned, else 0 -/
  | sltu (d a b : Reg)
  /-- R70: Writes 1 if a = b, else 0 -/
  | seq (d a b : Reg)
  /-- R70: Writes the low 64 bits of a·b -/
  | mul (d a b : Reg)
  /-- R70: Writes the high 64 bits of the signed product -/
  | mulh (d a b : Reg)
  /-- R70: Writes the high 64 bits of the unsigned product -/
  | mulhu (d a b : Reg)
  /-- R71: Writes the signed quotient on the shared divider, never trapping -/
  | div (d a b : Reg)
  /-- R71: Writes the unsigned quotient -/
  | divu (d a b : Reg)
  /-- R71: Writes the signed remainder -/
  | rem (d a b : Reg)
  /-- R71: Writes the unsigned remainder -/
  | remu (d a b : Reg)
  /-- R70: Counts leading zero bits of a -/
  | clz (d a : Reg)
  /-- R70: Counts trailing zero bits of a -/
  | ctz (d a : Reg)
  /-- R70: Counts the one bits of a -/
  | popc (d a : Reg)
  /-- R70: Reverses the bytes of a -/
  | bswap (d a : Reg)
  /-- R70: Reverses the bits of a -/
  | brev (d a : Reg)
  /-- R70: Sign-extends the low 8, 16 or 32 bits of a, per the width code in b -/
  | sext (d a : Reg) (w : BitVec 2)
  /-- R70: Zero-extends the low 8, 16 or 32 bits of a, per the width code in b -/
  | zext (d a : Reg) (w : BitVec 2)
  /-- R72: Writes a + SignExt(imm) -/
  | addi (d a : Reg) (i : BitVec 15)
  /-- R72: Writes a AND SignExt(imm) -/
  | andi (d a : Reg) (i : BitVec 15)
  /-- R72: Writes a OR ZeroExt(imm) -/
  | ori (d a : Reg) (i : BitVec 15)
  /-- R72: Writes a XOR ZeroExt(imm) -/
  | xori (d a : Reg) (i : BitVec 15)
  /-- R73: Shifts a left by the immediate count -/
  | shli (d a : Reg) (n : BitVec 6)
  /-- R73: Shifts a right logically by the immediate count -/
  | shri (d a : Reg) (n : BitVec 6)
  /-- R73: Shifts a right arithmetically by the immediate count -/
  | srai (d a : Reg) (n : BitVec 6)
  /-- R73: Rotates a left by the immediate count -/
  | roli (d a : Reg) (n : BitVec 6)
  /-- R74: Writes 1 if a < k signed -/
  | slti (d a : Reg) (k : BitVec 13)
  /-- R74: Writes 1 if a < sign-extended k unsigned -/
  | sltui (d a : Reg) (k : BitVec 13)
  /-- R74: Writes 1 if a = k -/
  | seqi (d a : Reg) (k : BitVec 13)
  /-- R76: Writes the sign-extended inline literal word to d -/
  | lit (d : Reg) (e : BitVec 32)
  /-- R76: Writes the zero-extended inline literal word to d -/
  | litZ (d : Reg) (e : BitVec 32)
  /-- R76: Replaces the high half of d with the inline literal word -/
  | litH (d : Reg) (e : BitVec 32)
  /-- R77: Writes a if register c is non-zero, else b -/
  | sel (d a b c : Reg)
  /-- R77: Writes a if register c is zero, else b -/
  | selN (d a b c : Reg)
  /-- R78: Suppresses the next n instructions when a = b -/
  | skipEq (a b : Reg) (n : BitVec 2)
  /-- R78: Suppresses the next n instructions when a ≠ b -/
  | skipNe (a b : Reg) (n : BitVec 2)
  /-- R78: Suppresses the next n instructions when a < b signed -/
  | skipLt (a b : Reg) (n : BitVec 2)
  /-- R78: Suppresses the next n instructions when a ≥ b signed -/
  | skipGe (a b : Reg) (n : BitVec 2)
  /-- R78: Suppresses the next n instructions when a < b unsigned -/
  | skipLtu (a b : Reg) (n : BitVec 2)
  /-- R78: Suppresses the next n instructions when a ≥ b unsigned -/
  | skipGeu (a b : Reg) (n : BitVec 2)
  /-- R79: Writes a + (b shifted by the index scale) without accessing memory -/
  | lea (d : Reg) (s : BitVec 2) (a b : Reg)
  /-- R79: Writes the instruction address plus 2·disp -/
  | leaPc (d : Reg) (i : BitVec 14)
  /-- R80: Branches when a = b -/
  | bEq (a b : Reg) (i : BitVec 12)
  /-- R80: Branches when a ≠ b -/
  | bNe (a b : Reg) (i : BitVec 12)
  /-- R80: Branches when a < b signed -/
  | bLt (a b : Reg) (i : BitVec 12)
  /-- R80: Branches when a ≥ b signed -/
  | bGe (a b : Reg) (i : BitVec 12)
  /-- R80: Branches when a < b unsigned -/
  | bLtu (a b : Reg) (i : BitVec 12)
  /-- R80: Branches when a ≥ b unsigned -/
  | bGeu (a b : Reg) (i : BitVec 12)
  /-- R80: Branches when register a is zero -/
  | bz (a : Reg) (i : BitVec 15)
  /-- R80: Branches when register a is non-zero -/
  | bnz (a : Reg) (i : BitVec 15)
  /-- R82: Jumps by a 25-bit halfword displacement -/
  | j (i : BitVec 25)
  /-- R82: Slides the window by one block, writes the link word and jumps -/
  | call8 (i : BitVec 25)
  /-- R82: Slides the window by two blocks, writes the link word and jumps -/
  | call16 (i : BitVec 25)
  /-- R83: Jumps to the address in register a -/
  | jr (a : Reg)
  /-- R83: Calls the address in register a with a one-block slide -/
  | callr8 (a : Reg)
  /-- R83: Calls the address in register a with a two-block slide -/
  | callr16 (a : Reg)
  /-- R13: Slides the window back by the slide in the link word and returns -/
  | ret
  /-- R81: Decrements register a and branches while the result is non-zero -/
  | loop (a : Reg) (i : BitVec 15)
  /-- R105: Loads a sign-extended byte -/
  | ldB (d a : Reg) (o : BitVec 8) (L : BitVec 4)
  /-- R105: Loads a sign-extended halfword -/
  | ldH (d a : Reg) (o : BitVec 8) (L : BitVec 4)
  /-- R105: Loads a sign-extended word -/
  | ldW (d a : Reg) (o : BitVec 8) (L : BitVec 4)
  /-- R105: Loads a doubleword -/
  | ldD (d a : Reg) (o : BitVec 8) (L : BitVec 4)
  /-- R105: Loads a zero-extended byte -/
  | ldBu (d a : Reg) (o : BitVec 8) (L : BitVec 4)
  /-- R105: Loads a zero-extended halfword -/
  | ldHu (d a : Reg) (o : BitVec 8) (L : BitVec 4)
  /-- R105: Loads a zero-extended word -/
  | ldWu (d a : Reg) (o : BitVec 8) (L : BitVec 4)
  /-- R105: Stores the low byte of d -/
  | stB (d a : Reg) (o : BitVec 8) (L : BitVec 4)
  /-- R105: Stores the low halfword of d -/
  | stH (d a : Reg) (o : BitVec 8) (L : BitVec 4)
  /-- R105: Stores the low word of d -/
  | stW (d a : Reg) (o : BitVec 8) (L : BitVec 4)
  /-- R105: Stores the doubleword d -/
  | stD (d a : Reg) (o : BitVec 8) (L : BitVec 4)
  /-- R106: Loads from a + (b scaled), size given by sz -/
  | ldx (d : Reg) (s : BitVec 2) (a b : Reg) (z : BitVec 3) (L : BitVec 4)
  /-- R106: Stores d to a + (b scaled), size given by sz -/
  | stx (d : Reg) (s : BitVec 2) (a b : Reg) (z : BitVec 3) (L : BitVec 4)
  /-- R110: Loads two doublewords into an even register pair, writing only after both succeed -/
  | ldp (d a : Reg) (o : BitVec 8) (L : BitVec 4)
  /-- R110: Loads four doublewords into a register quad -/
  | ldq (d a : Reg) (o : BitVec 8) (L : BitVec 4)
  /-- R110: Stores a register pair after checking every access -/
  | stp (d a : Reg) (o : BitVec 8) (L : BitVec 4)
  /-- R110: Stores a register quad after checking every access -/
  | stq (d a : Reg) (o : BitVec 8) (L : BitVec 4)
  /-- R111: Atomically swaps memory with b, returning the old value -/
  | amoSwap (d : Reg) (s : BitVec 3) (a b : Reg) (z : BitVec 1) (o : BitVec 2)
  /-- R111: Atomically adds b -/
  | amoAdd (d : Reg) (s : BitVec 3) (a b : Reg) (z : BitVec 1) (o : BitVec 2)
  /-- R111: Atomically ANDs b -/
  | amoAnd (d : Reg) (s : BitVec 3) (a b : Reg) (z : BitVec 1) (o : BitVec 2)
  /-- R111: Atomically ORs b -/
  | amoOr (d : Reg) (s : BitVec 3) (a b : Reg) (z : BitVec 1) (o : BitVec 2)
  /-- R111: Atomically XORs b -/
  | amoXor (d : Reg) (s : BitVec 3) (a b : Reg) (z : BitVec 1) (o : BitVec 2)
  /-- R111: Atomic signed minimum -/
  | amoMin (d : Reg) (s : BitVec 3) (a b : Reg) (z : BitVec 1) (o : BitVec 2)
  /-- R111: Atomic signed maximum -/
  | amoMax (d : Reg) (s : BitVec 3) (a b : Reg) (z : BitVec 1) (o : BitVec 2)
  /-- R111: Atomic unsigned minimum -/
  | amoMinu (d : Reg) (s : BitVec 3) (a b : Reg) (z : BitVec 1) (o : BitVec 2)
  /-- R111: Atomic unsigned maximum -/
  | amoMaxu (d : Reg) (s : BitVec 3) (a b : Reg) (z : BitVec 1) (o : BitVec 2)
  /-- R111: Atomic compare-and-swap with d as the expected value -/
  | amoCas (d : Reg) (s : BitVec 3) (a b : Reg) (z : BitVec 1) (o : BitVec 2)
  /-- R116: Waits for outstanding work and acts as an acquire, release or SC point at its scope -/
  | fence (s : BitVec 3) (o : BitVec 2)
  /-- R117: Waits until the thread's operations in the named engine queues are performed -/
  | qfence (a b : Reg)
  /-- R120: Prefetches a line into its home L2; never faults -/
  | pfL2 (a : Reg) (L : BitVec 4)
  /-- R120: Prefetches a line into the remote-data cache; never faults -/
  | pfRdc (a : Reg) (L : BitVec 4)
  /-- R120: Writes a dirty line to its memory stack and keeps it -/
  | cln (a : Reg) (L : BitVec 4)
  /-- R120: Discards this die's remote-data cache copy of a line -/
  | inv (a : Reg) (L : BitVec 4)
  /-- R120: Writes back and discards a line -/
  | flush (a : Reg) (L : BitVec 4)
  /-- R120: Stores 256 zero bytes to an aligned line -/
  | zln (a : Reg) (L : BitVec 4)
  /-- R118: Sequentially consistent word load announced on the SC network -/
  | ldScW (d a : Reg) (o : BitVec 8) (L : BitVec 4)
  /-- R118: Sequentially consistent doubleword load -/
  | ldScD (d a : Reg) (o : BitVec 8) (L : BitVec 4)
  /-- R118: Sequentially consistent word store -/
  | stScW (d a : Reg) (o : BitVec 8) (L : BitVec 4)
  /-- R118: Sequentially consistent doubleword store -/
  | stScD (d a : Reg) (o : BitVec 8) (L : BitVec 4)
  /-- R87: Has no effect -/
  | nop
  /-- R88: Sends a service request to the supervisor core and parks for the reply -/
  | trap (d : Reg) (n : BitVec 10)
  /-- R89: Waits for handler-mode work, then restores MODE and SKC and resumes at EPC -/
  | rte
  /-- R30: Waits for outstanding work, signals the join counter and frees the slot, or ends an inline child -/
  | done
  /-- R91: Removes the thread from issue until its yield set has issued or stopped -/
  | yield
  /-- R92: Reads a state register -/
  | mfs (d : Reg) (x : BitVec 12)
  /-- R92: Writes a state register field by field under its permissions -/
  | mts (a : Reg) (x : BitVec 12)
  /-- R15: Spills the oldest resident window block to memory -/
  | wspill
  /-- R15: Fills one window block from memory -/
  | wfill
  /-- R94: Reports SPILLED, DEPTH and free blocks -/
  | wstat (d : Reg)
  /-- R134: Parks until any named tag is ready -/
  | twany (d a : Reg)
  /-- R134: Parks until every named tag is ready -/
  | twall (d a : Reg)
  /-- R134: Returns the lowest ready named tag, or 64 -/
  | tffr (d a : Reg)
  /-- R134: Clears the named ready bits -/
  | tclr (a : Reg)
  /-- R136: Sends a message to a core's channel, waiting for room -/
  | chsnd (a b : Reg)
  /-- R136: Receives the head message of a channel, or counts messages -/
  | chrcv (d a : Reg)
  /-- R136: Tries to send without waiting and reports the outcome -/
  | chtry (d a b : Reg)
  /-- R140: Joins an aligned group of 2 cores into a gang -/
  | gang2
  /-- R140: Joins an aligned group of 4 cores into a gang -/
  | gang4
  /-- R140: Joins an aligned group of 8 cores into a gang -/
  | gang8
  /-- R142: Leaves the gang and resumes the member's own stream -/
  | disband
  /-- R96: Returns the next draw of the task's counter-based stream and advances SRCTR -/
  | rng (d : Reg)
  /-- R187: Floating-point vector add -/
  | vaddFp (d a b : Reg) (t : BitVec 2) (L : BitVec 4)
  /-- R187: Floating-point vector subtract -/
  | vsubFp (d a b : Reg) (t : BitVec 2) (L : BitVec 4)
  /-- R187: Floating-point vector multiply -/
  | vmulFp (d a b : Reg) (t : BitVec 2) (L : BitVec 4)
  /-- R187: Fused x·k + y with one rounding -/
  | vfma (d a b : Reg) (t : BitVec 2) (L : BitVec 4)
  /-- R187: Fused x·k − y with one rounding -/
  | vfms (d a b : Reg) (t : BitVec 2) (L : BitVec 4)
  /-- R188: Floating-point vector minimum -/
  | vminFp (d a b : Reg) (t : BitVec 2) (L : BitVec 4)
  /-- R188: Floating-point vector maximum -/
  | vmaxFp (d a b : Reg) (t : BitVec 2) (L : BitVec 4)
  /-- R188: Clears the sign of each element -/
  | vabs (a b : Reg) (t : BitVec 2) (L : BitVec 4)
  /-- R188: Inverts the sign of each element -/
  | vneg (a b : Reg) (t : BitVec 2) (L : BitVec 4)
  /-- R188: Floating-point equality compare -/
  | vceqFp (d a b : Reg) (t : BitVec 2) (L : BitVec 4)
  /-- R188: Floating-point less-than compare -/
  | vcltFp (d a b : Reg) (t : BitVec 2) (L : BitVec 4)
  /-- R188: Floating-point less-or-equal compare -/
  | vcle (d a b : Reg) (t : BitVec 2) (L : BitVec 4)
  /-- R189: Writes the once-rounded sum of the active elements -/
  | vsum (a b : Reg) (t : BitVec 2) (L : BitVec 4)
  /-- R189: Writes the largest active element -/
  | vmaxr (a b : Reg) (t : BitVec 2) (L : BitVec 4)
  /-- R187: Multiplies each element by a power of two -/
  | vscale (d a b : Reg) (t : BitVec 2) (L : BitVec 4)
  /-- R190: Integer vector add -/
  | vaddInt (d a b : Reg) (w : BitVec 2) (L : BitVec 4)
  /-- R190: Integer vector subtract -/
  | vsubInt (d a b : Reg) (w : BitVec 2) (L : BitVec 4)
  /-- R190: Integer vector multiply, low bits -/
  | vmulInt (d a b : Reg) (w : BitVec 2) (L : BitVec 4)
  /-- R190: Integer signed minimum -/
  | vminInt (d a b : Reg) (w : BitVec 2) (L : BitVec 4)
  /-- R190: Integer signed maximum -/
  | vmaxInt (d a b : Reg) (w : BitVec 2) (L : BitVec 4)
  /-- R190: Integer unsigned minimum -/
  | vminu (d a b : Reg) (w : BitVec 2) (L : BitVec 4)
  /-- R190: Integer unsigned maximum -/
  | vmaxu (d a b : Reg) (w : BitVec 2) (L : BitVec 4)
  /-- R190: Vector AND -/
  | vand (d a b : Reg) (w : BitVec 2) (L : BitVec 4)
  /-- R190: Vector OR -/
  | vor (d a b : Reg) (w : BitVec 2) (L : BitVec 4)
  /-- R190: Vector XOR -/
  | vxor (d a b : Reg) (w : BitVec 2) (L : BitVec 4)
  /-- R190: Vector shift left -/
  | vshl (d a b : Reg) (w : BitVec 2) (L : BitVec 4)
  /-- R190: Vector logical shift right -/
  | vshr (d a b : Reg) (w : BitVec 2) (L : BitVec 4)
  /-- R190: Vector arithmetic shift right -/
  | vsra (d a b : Reg) (w : BitVec 2) (L : BitVec 4)
  /-- R190: Integer equality compare -/
  | vceqInt (d a b : Reg) (w : BitVec 2) (L : BitVec 4)
  /-- R190: Integer signed less-than compare -/
  | vcltInt (d a b : Reg) (w : BitVec 2) (L : BitVec 4)
  /-- R190: Integer unsigned less-than compare -/
  | vcltu (d a b : Reg) (w : BitVec 2) (L : BitVec 4)
  /-- R191: Once-rounded reciprocal -/
  | vrcp (a b : Reg) (t : BitVec 2) (L : BitVec 4)
  /-- R191: Once-rounded reciprocal square root -/
  | vrsqrt (a b : Reg) (t : BitVec 2) (L : BitVec 4)
  /-- R191: Once-rounded square root -/
  | vsqrt (a b : Reg) (t : BitVec 2) (L : BitVec 4)
  /-- R191: Once-rounded 2^x -/
  | vexp2 (a b : Reg) (t : BitVec 2) (L : BitVec 4)
  /-- R191: Once-rounded log2 x -/
  | vlog2 (a b : Reg) (t : BitVec 2) (L : BitVec 4)
  /-- R191: Once-rounded tanh -/
  | vtanh (a b : Reg) (t : BitVec 2) (L : BitVec 4)
  /-- R191: Once-rounded logistic sigmoid -/
  | vsigm (a b : Reg) (t : BitVec 2) (L : BitVec 4)
  /-- R191: Once-rounded GELU -/
  | vgelu (a b : Reg) (t : BitVec 2) (L : BitVec 4)
  /-- R191: Once-rounded SiLU -/
  | vsilu (a b : Reg) (t : BitVec 2) (L : BitVec 4)
  /-- R191: Once-rounded division -/
  | vdiv (d a b : Reg) (t : BitVec 2) (L : BitVec 4)
  /-- R193: Copies elements, or broadcasts the scalar with SB -/
  | vmov (d a b : Reg) (L : BitVec 4)
  /-- R193: Broadcasts element 0 of S1 -/
  | vbcast (a b : Reg) (L : BitVec 4)
  /-- R194: Gathers elements by 32-bit indices -/
  | vgath (a b : Reg) (L : BitVec 4)
  /-- R194: Scatters elements by 32-bit indices -/
  | vscat (a b : Reg) (L : BitVec 4)
  /-- R193: Compresses active elements to the front -/
  | vcomp (a b : Reg) (L : BitVec 4)
  /-- R193: Expands consecutive elements into active positions -/
  | vexpd (a b : Reg) (L : BitVec 4)
  /-- R193: Inclusive running sum over active positions -/
  | vscan (a b : Reg) (L : BitVec 4)
  /-- R193: Reverses element order -/
  | vrev (a b : Reg) (L : BitVec 4)
  /-- R195: One bitonic compare-exchange step -/
  | vcmx (d a b : Reg) (L : BitVec 4)
  /-- R193: Merges S1 and S2 by the mask -/
  | vmrg (a b : Reg) (L : BitVec 4)
  /-- R195: Sorts N elements ascending -/
  | vbton (a b : Reg) (L : BitVec 4)
  /-- R193: Writes each element's stable rank -/
  | vrank (a b : Reg) (L : BitVec 4)
  /-- R192: Converts each active element between formats -/
  | vcvt (s : BitVec 3) (a b : Reg) (f : BitVec 3) (L : BitVec 4)
  /-- R179: Sets a cursor's address and stride -/
  | vcur (a b : Reg) (n : BitVec 3)
  /-- R179: Waits until at most a[3:0] vector commands of the thread are incomplete -/
  | vfence (a : Reg)
  /-- R179: Reads a cursor's address or stride -/
  | vstat (d a : Reg)
  /-- R196: Sends keyed records to target cores chosen by key hash -/
  | ksend (d a b : Reg) (L : BitVec 4)
  /-- R197: Sets the receive-and-accumulate descriptor and returns the old status -/
  | racc (d a : Reg) (L : BitVec 4)
  /-- R214: Accumulates a tile of A·B into FP32 accumulators from a parameter block -/
  | mma (L : BitVec 4) (p : Block)
  /-- R218: Scales, biases, activates, converts and stores or adds a tile of accumulators -/
  | mepi (a : Reg) (L : BitVec 4) (p : Block)
  /-- R222: Copies a B panel into the B-stack -/
  | mldb (a : Reg) (L : BitVec 4) (p : Block)
  /-- R223: Zeroes accumulator regions -/
  | mzero (b : Reg) (L : BitVec 4)
  /-- R223: Stores accumulator regions to local scratch -/
  | msave (a b : Reg) (L : BitVec 4)
  /-- R223: Reloads accumulator regions from local scratch -/
  | mrest (a b : Reg) (L : BitVec 4)
  /-- R224: Waits until at most a[3:0] matrix instructions of the thread are incomplete -/
  | mwait (a : Reg)
  /-- R242: Writes an argument word of an IDLE launch record -/
  | lpatch (d a b : Reg)
  /-- R242: Arms a launch record with a pool slot and enters it into the router -/
  | spawn (d a : Reg)
  /-- R243: Arms a record, or runs it inline as a call when the pool is full -/
  | spawnc (d a : Reg)
  /-- R246: Signals a join counter, waking waiters and arming a continuation at zero -/
  | jsig (d a b : Reg)
  /-- R246: Parks until a join counter is zero, with an optional limit -/
  | jwait (a b : Reg)
  /-- R250: Arrives at a barrier and returns the phase joined -/
  | barArr (d a : Reg)
  /-- R250: Parks until phase p has completed -/
  | barWait (a b : Reg)
  /-- R250: Parks until PHASE[0] differs from b[0] -/
  | barT1 (a b : Reg)
  /-- R250: Sets EXPECT and optionally resets counts -/
  | barSet (a b : Reg)
  /-- R250: Adds pending bytes to a barrier -/
  | barBytes (a b : Reg)
  /-- R250: Binds or unbinds a barrier to a membership set -/
  | barBind (a b : Reg)
  /-- R253: Reads a future cell, parking until it is full -/
  | ldf (d a : Reg)
  /-- R253: Fills an empty future cell and wakes its readers -/
  | stf (d a b : Reg)
  /-- R254: Increments a membership set's count -/
  | gjoin (d a : Reg)
  /-- R254: Decrements a membership set's count -/
  | gleave (d a : Reg)
  /-- R257: Binds a record to a scoreboard coordinate with a stencil mask -/
  | sbBind (d a b : Reg)
  /-- R257: Retires a scoreboard tile and releases satisfied bindings -/
  | sbRet (a : Reg)
  /-- R288: Releases the held loader slot and acquires the next filled slot -/
  | qpop (d a b : Reg)
  /-- R288: Hands the held storer slot to the pump and acquires a free slot -/
  | qpush (d a b : Reg)
  /-- R259: Takes the next entry of the core's static schedule table -/
  | schedNext (d : Reg)
  /-- R398: Sends a local buffer to a remote region as PUT flits -/
  | put (d a b : Reg) (L : BitVec 4)
  /-- R398: Requests a remote region into a local buffer -/
  | get (d a b : Reg) (L : BitVec 4)
  /-- R399: Remote atomic add on a doubleword -/
  | radd (d a b : Reg) (L : BitVec 4)
  /-- R399: Remote atomic compare-and-swap on a doubleword -/
  | rcas (d a b : Reg) (L : BitVec 4)
  /-- R382: Asks the lease controller for N wavelengths to a peer and parks for the result -/
  | lease (d a b : Reg)
  /-- R382: Sets leased wavelengths to a peer DRAINING -/
  | lrel (d a b : Reg)
  /-- R382: Reports the lease state towards a peer -/
  | lqry (d a : Reg)
  /-- R422: Posts a pricking of trigger entries in one arbiter operation -/
  | trgPost (d a b : Reg)
  /-- R423: Cancels the ARMED entries of a range -/
  | trgCancel (d a b : Reg)
  /-- R424: Adds to or sets a local counter, or sends a remote counter add -/
  | ctrAdd (d a b : Reg)
  /-- R425: Parks until a counter reaches b or reports an error -/
  | ctrWait (d a b : Reg)
  /-- R425: Reads a counter's VALUE or CST with an acquire -/
  | ctrRd (d a : Reg)
  /-- R432: Queues a bulk collective, or an abort, on a group -/
  | coll (d a b : Reg) (L : BitVec 4) (p : Block)
  /-- R430: Contributes a value to a group's small round -/
  | grpSt (d a b : Reg)
  /-- R430: Parks until round r completes and returns the result -/
  | grpLd (d a b : Reg)
  /-- R19: An instruction boundary with SKC non-zero fetches and suppresses one instruction and decrements SKC -/
  | suppressedInstruction
  /-- R24: A fault arriving after later issue is taken at the next boundary, or at once while waiting or parked, with DEF = 1 -/
  | deferredTrap (core slot : Nat)
  /-- R143: The gang-abort signal reaches a member, which takes cause 0x0B and discards its weft buffer -/
  | gangAbort (core slot : Nat)
  /-- R140: The row barrier completes when every core of the aligned group waits in a gang instruction, forming the gang or trapping on mismatch -/
  | gangFormation (core slot : Nat)
  /-- R215: The issue join of mma or mepi completes, comparing effective blocks and queuing or trapping every member -/
  | gangRowBarrierJoin (core slot : Nat)
  /-- R101: A request reaches its home, is checked against partition key and registration, and is performed or refused -/
  | homeAccess (req : Nat)
  /-- R131: An access from another requester reaches a core's bank port and is checked against WIN0–WIN3 -/
  | remoteScratchAccess (req : Nat)
  /-- R102: The data of a load, atomic or ld.sc returns and the destination is written -/
  | loadDataReturn (req : Nat)
  /-- R102: A store's acknowledgement arrives from its target -/
  | storeAcknowledgement (req : Nat)
  /-- R102: A target-side refusal or uncorrectable-data response arrives at the requester -/
  | errorResponse (req : Nat)
  /-- R128: An access to an unpinned frame writes it back and refills it for the current context -/
  | scratchFrameRefill (core frame : Nat)
  /-- R207: A matrix instruction touching an unpinned accumulator region writes it back and refills it -/
  | accRegionRefill (core region : Nat)
  /-- R88: The supervisor's reply to a service request is written to d and the thread resumes -/
  | serviceReply (core slot : Nat)
  /-- R291: A table walk for a TLB miss completes with a translation or a fault -/
  | pageWalk (die : Nat) (va : Word)
  /-- R317: The announcements of an SC window are delivered to every core, ordering and completing SC operations -/
  | scWindowDelivery (window : Nat)
  /-- R181: The vector unit starts a queued command's first strip -/
  | vectorCommandStart (core : Nat)
  /-- R182: A vector command completes, updating VSTAT and DERR -/
  | vectorCommandComplete (core : Nat)
  /-- R198: A ksend record reaches its target unit and is added into a bin or refused -/
  | ksendRecordApply (core : Nat)
  /-- R215: The sequencer starts the entry at the head of the matrix queue, in lockstep across a gang -/
  | matrixEntryStart (core : Nat)
  /-- R209: A matrix instruction completes, updating MSTAT and DERR -/
  | matrixEntryComplete (core : Nat)
  /-- R338: A cluster takes the head of its highest queue and reserves an eligible slot -/
  | dispatch (cluster : Nat)
  /-- R232: The record read returns and the slot is initialised with STATE RUNNING -/
  | dispatchComplete (core slot : Nat)
  /-- R335: Four clocks after entry the router queues the task or forwards it one hop downhill -/
  | routingDecision (cluster : Nat)
  /-- R336: A forwarded task reaches the receiver, which accepts it with a pool slot or refuses it -/
  | forwardArrival (fwd : Nat)
  /-- R336: The acceptance reaches the sender, which frees its pool slot -/
  | forwardAcceptance (fwd : Nat)
  /-- R336: A refused task returns to the sender to enter its router at the next boundary -/
  | forwardRefusal (fwd : Nat)
  /-- R339: A task waiting 2^16 clocks at its level moves up one priority level -/
  | taskAging (cluster level : Nat)
  /-- R330: Every router samples pressure and publishes P, FULL, D and DLOC -/
  | epochBoundary
  /-- R342: Every 1,024 clocks the gateway sends its partition's least DLOC to enabled peers -/
  | gradientAdvertSend
  /-- R342: A peer entry with no advert for 8,192 clocks loses LIVE -/
  | advertTimeout (part entry : Nat)
  /-- R343: A visitor forward gets no outcome within the response time; the task stays in flight and the host is told -/
  | visitorOutcomeUnknown (fwd : Nat)
  /-- R246: A jwait's limit passes while parked and the thread traps with cause 0x0E -/
  | jwaitTimeout (core slot : Nat)
  /-- R289: A qpop or qpush limit passes and the thread traps with cause 0x08 -/
  | queueWaitTimeout (core slot : Nat)
  /-- R237: A ROOTL write with PLACE = 0 arms a record into the cluster's router -/
  | rootlArm (who : Who) (cluster : Nat) (value : Word)
  /-- R237: A ROOTL write with PLACE = 1 dispatches a record on a named slot -/
  | rootlPlace (who : Who) (cluster : Nat) (value : Word)
  /-- R238: A SLOTCMD write frees a halted slot or one on an isolated core -/
  | slotcmdFree (who : Who) (cluster : Nat) (value : Word)
  /-- R245: A plain store to a join counter's COUNT, waking waiters when zero -/
  | joinCountStore (who : Who) (cluster idx : Nat) (value : Word)
  /-- R252: Writing 1 to FSTATE.FULL empties a future cell -/
  | futureEmpty (who : Who) (cluster idx : Nat)
  /-- R234: Writing SBCTL.CLR clears every retired bit unless a binding is valid -/
  | sbctlClear (who : Who) (cluster : Nat)
  /-- R144: A PREEMPT write with RESTORE = 0 stops dispatch to the named slots and starts their drain -/
  | preemptSave (who : Who) (core : Nat) (value : Word)
  /-- R144: Once the slots are drained the contexts are written and the slots suspended -/
  | preemptSaveComplete (core : Nat)
  /-- R145: A PREEMPT write with RESTORE = 1 reloads saved slots and re-forms gangs -/
  | preemptRestore (who : Who) (core : Nat) (value : Word)
  /-- R129: A write to SCTX switches the current scratch context or is refused -/
  | sctxWrite (who : Who) (core : Nat) (value : Word)
  /-- R275: A store to a start register queues a template copy on a channel, or is refused -/
  | btStart (core slot die channel : Nat) (value : Word)
  /-- R277: A copy row is performed at package scope and its barrier is decremented -/
  | copyRowPerformed (die channel : Nat)
  /-- R277: A copy completes: tag decremented, counter raised, next start taken -/
  | copyComplete (die channel : Nat)
  /-- R280: A copy meets a fault; the channel records ERR and discards its queue -/
  | copyFail (die channel : Nat)
  /-- R282: A store to the streamer post register accepts or refuses a gather/scatter request -/
  | streamerPost (core slot : Nat) (value : Word)
  /-- R283: A streamer row is performed at its destination and its owner counter incremented, or skipped -/
  | streamerRow (die : Nat)
  /-- R284: A streamer request completes, decrementing its tag and reporting skipped rows -/
  | streamerComplete (die : Nat)
  /-- R286: A QCTL store with EN = 1 subscribes a tile-pump queue -/
  | queueSubscribe (core slot queue : Nat) (value : Word)
  /-- R286: A QCTL store with EN = 0 ends a subscription once the pump is idle -/
  | queueUnsubscribe (core slot queue : Nat) (value : Word)
  /-- R287: A loader finishes writing a tile into its slot and increments P -/
  | pumpLoadTile (core queue : Nat)
  /-- R287: A storer finishes writing a slot back as a tile and increments D -/
  | pumpStoreTile (core queue : Nat)
  /-- R296: A TLBINV write starts dropping the named entries -/
  | tlbInvalidate (who : Who) (die : Nat) (value : Word)
  /-- R296: The invalidation ends and TLBST.BUSY returns to 0 -/
  | tlbInvalidateDone (die : Nat)
  /-- R301: Setting DPART.FENCE fences the die -/
  | dieFence (who : Who) (die : Nat)
  /-- R301: No supervisor heartbeat for 10 µs fences the die -/
  | heartbeatTimeout (die : Nat)
  /-- R302: Within 20 µs of a fence, outstanding requests to the die are answered -/
  | fenceResponse (die : Nat)
  /-- R298: The supervisor isolates a core under an armed policy -/
  | coreIsolate (core : Nat)
  /-- R300: The supervisor substitutes a spare for an isolated core once its slots are freed -/
  | spareSubstitute (core : Nat)
  /-- R172: A write setting FWCTL.EN enables a format window or is refused -/
  | formatWindowEnable (who : Who) (die win : Nat) (value : Word)
  /-- R172: A write clearing FWCTL.EN writes back and discards the container lines, then is acknowledged -/
  | formatWindowDisable (who : Who) (die win : Nat) (value : Word)
  /-- R98: A store to a memory-mapped register without behaviour of its own writes its permitted fields or is refused -/
  | registerWrite (who : Who) (addr : Word) (value : Stored)
  /-- R349: A host access through the memory window is performed at its home or completes with an error -/
  | hostMemoryAccess (fn : Nat) (isWrite : Bool) (off size : Nat) (data : List Byte)
  /-- R357: A PCFG write with EN = 1 starts creating a partition -/
  | partitionCreate (who : Who) (part : Nat) (value : Word)
  /-- R357: A PCFG write with EN = 0 destroys a partition -/
  | partitionDestroy (who : Who) (part : Nat) (value : Word)
  /-- R357: Keys, SRAM and memory are scrubbed and BUSY clears -/
  | partitionScrubDone (part : Nat)
  /-- R360: TDISP request moving a TDI to CONFIG_LOCKED -/
  | lockInterfaceRequest (part : Nat)
  /-- R360: TDISP request moving a TDI to RUN -/
  | startInterfaceRequest (part : Nat)
  /-- R360: TDISP request freeing slots, replacing keys, scrubbing and unlocking -/
  | stopInterfaceRequest (part : Nat)
  /-- R360: TDISP request returning the version -/
  | getTdispVersion (part : Nat)
  /-- R360: TDISP request returning capabilities -/
  | getTdispCapabilities (part : Nat)
  /-- R360: TDISP request returning the interface report -/
  | getDeviceInterfaceReport (part : Nat)
  /-- R360: TDISP request returning the TDI state -/
  | getDeviceInterfaceState (part : Nat)
  /-- R360: An IDE integrity failure puts the VF's TDI into ERROR -/
  | ideIntegrityFailure (part : Nat)
  /-- R360: A function-level reset of a VF puts its TDI into ERROR -/
  | functionLevelReset (part : Nat)
  /-- R361: SPDM certificate request answered by Zhevbilo -/
  | spdmCert (rq : SpdmRequest)
  /-- R361: SPDM challenge answered with an ML-DSA-87 signature -/
  | spdmChal (rq : SpdmRequest)
  /-- R361: SPDM signed measurement request -/
  | spdmMeas (rq : SpdmRequest)
  /-- R361: SPDM ML-KEM-1024 key exchange opening a secure session -/
  | spdmKeyEx (rq : SpdmRequest)
  /-- R386: The host pairs two partitions and Zhevbilo derives their link keys -/
  | partitionPairing (part peer remote : Nat)
  /-- R366: Deassertion of PERST# starts the ROM and the bring-up stages -/
  | perstDeassert
  /-- R367: Writing FWGO.GO verifies the image and proceeds to INIT or FAIL -/
  | fwgo (who : Who)
  /-- R366: INIT ends and the package enters READY -/
  | bootInitComplete (failedDies : BitVec 4)
  /-- R364: A host-commanded die reset brings a die from PS3 to PS0 and INIT -/
  | dieReset (die : Nat)
  /-- R364: A write to DPWR.TGT starts a power transition or is refused -/
  | powerStateCommand (who : Who) (die : Nat) (value : Word)
  /-- R364: A power transition completes, STATE := TGT and BUSY clears -/
  | powerTransitionDone (die : Nat)
  /-- R365: Every 100 µs TEMP is sampled and a trip is posted if armed -/
  | thermalSample (die : Nat) (temp : BitVec 16)
  /-- R365: At 110 °C junction the package drives THERM_TRIP_N low -/
  | thermTrip
  /-- R352: A write to GTBASE loads the global time count during READY -/
  | gtimeLoad (who : Who) (value : Word)
  /-- R347: A lane over its CRC threshold is remapped onto a spare -/
  | laneRepair (link : Nat)
  /-- R347: A die-to-die link goes down and traffic is rerouted through Selvedge -/
  | dieLinkDown (link : Nat)
  /-- R356: A CXL port goes down; its accesses answer uncorrectable and an event is posted -/
  | cxlPortDown (port : Nat)
  /-- R377: A store to MFREE pushes a free frame for migration -/
  | mfreePush (who : Who) (die : Nat) (value : Word)
  /-- R376: A PLIT write setting EN enables an optical port or is refused -/
  | portEnable (who : Who) (port : Nat) (value : Word)
  /-- R376: A PLIT write clearing EN puts every wavelength of the port into DRAINING -/
  | portDisable (who : Who) (port : Nat) (value : Word)
  /-- R391: A laser module fails; its TX slots become LOST and connections restripe and go back -/
  | laserFeedFailure (laser : Nat)
  /-- R391: A receiver detects loss of light on a lane, sets LOS and sends NAKs -/
  | lossOfLight (port wave : Nat)
  /-- R379: A feed is restored and LOST wavelengths become DARK -/
  | lightRestored (laser : Nat)
  /-- R379: A TRAINING wavelength locks at both ends and becomes LIT -/
  | wavelengthLock (port wave : Nat)
  /-- R379: A TRAINING wavelength with no lock in 2 µs returns to DARK -/
  | trainingTimeout (port wave : Nat)
  /-- R379: A DRAINING wavelength becomes DARK when drained or after 10 µs -/
  | wavelengthDrained (port wave : Nat)
  /-- R380: A receiver does not answer a lane request within FTO and the candidate is skipped -/
  | laneRequestTimeout
  /-- R394: A write of RCTL.V := 1 registers a region and sets PART, or is refused -/
  | regionRegister (who : Who) (entry : Nat) (value : Word)
  /-- R396: A write of RCTL.V := 0 sets DRAIN and refuses later flits -/
  | regionRevoke (who : Who) (entry : Nat) (value : Word)
  /-- R396: INFL reaches 0, V and DRAIN clear and the revoking store is acknowledged -/
  | regionRevokeDone (entry : Nat)
  /-- R404: A mode-3 leaf's count passes 2^T and its migration starts, stalling accesses -/
  | pageMigration (die : Nat) (va : Word)
  /-- R404: The frame copy ends; the leaf is rewritten to mode 0 and TLBs invalidated, or the migration fails -/
  | pageMigrationDone (die : Nat) (ok : Bool) (frame : List Byte)
  /-- R392: An evicted connection context is fetched and waiting sends and miss-buffer flits proceed -/
  | contextFetchComplete (part peer : Nat)
  /-- R437: When a connection has room the arbiter sends the head with the earliest deadline -/
  | fabricSend (part peer : Nat)
  /-- R388: 200 ns after the first unacknowledged delivery the receiver sends an ACK -/
  | ackTimer (part peer : Nat)
  /-- R388: An expected flit missing 2 µs after a later one arrived causes a NAK -/
  | nakGapTimeout (part peer : Nat)
  /-- R388: 20 µs without ACK progress makes the sender go back -/
  | goBackTimeout (part peer : Nat)
  /-- R401: A put, get, radd or rcas completes, decrementing its tag and raising its counter -/
  | remoteOpComplete (op : Nat)
  /-- R395: A PUT flit is checked against its region and written, or refused with ERR -/
  | putFlit (f : Flit)
  /-- R398: A get request is checked and answered with GETR flits -/
  | getq (f : Flit)
  /-- R398: A get response writes its bytes at the local destination -/
  | getr (f : Flit)
  /-- R399: A remote add is performed at the target home and answered with ATR -/
  | raddFlit (f : Flit)
  /-- R399: A remote compare-and-swap is performed at the target and answered with ATR -/
  | rcasFlit (f : Flit)
  /-- R399: An atomic response writes the old value to d -/
  | atr (f : Flit)
  /-- R402: FP32 adds from a remote mepi are performed at the target -/
  | fadd (f : Flit)
  /-- R403: A physical read for a remote page is checked and answered -/
  | pld (f : Flit)
  /-- R403: A physical write for a remote page is checked and performed -/
  | pst (f : Flit)
  /-- R400: An error response reports a refused flit to the sender as a deferred fault -/
  | errFlit (f : Flit)
  /-- R343: A visiting task record arrives at a gateway and is accepted into a pool slot or refused -/
  | vis (f : Flit)
  /-- R427: A TRG flit of subtype 0 adds its amount to a counter -/
  | trgCounterAdd (f : Flit)
  /-- R429: A child's small contribution arrives for the current round -/
  | trgSmallContribution (f : Flit)
  /-- R429: A small round result arrives from the parent and completes the round -/
  | trgSmallResult (f : Flit)
  /-- R433: A child's bulk chunk arrives and is combined -/
  | trgBulkChunkUp (f : Flit)
  /-- R433: A final bulk chunk arrives, is written to b and forwarded -/
  | trgBulkChunkDown (f : Flit)
  /-- R435: An abort request travels to the root, which aborts or drops it -/
  | trgAbortRequest (f : Flit)
  /-- R435: An abort decision arrives, ending the collective or completing the aborting coll -/
  | trgAbortDecision (f : Flit)
  /-- R433: A child's descriptor check arrives and a mismatch aborts the collective -/
  | trgDescriptorCheck (f : Flit)
  /-- R388: An acknowledgement frees acknowledged flits at the sender -/
  | ack (f : Flit)
  /-- R388: A negative acknowledgement makes the sender go back -/
  | nak (f : Flit)
  /-- R387: A pause or resume stops or restarts sending on named wavelengths -/
  | pause (f : Flit)
  /-- R381: A request for an RX lane is granted, possibly by revocation, or refused -/
  | lctlLaneRequest (f : Flit)
  /-- R380: A lane grant returns and the sender sets its wavelength TRAINING -/
  | lctlGrant (f : Flit)
  /-- R381: A receiver's revocation sets the sender's wavelength DRAINING -/
  | lctlRevocation (f : Flit)
  /-- R391: A receiver's loss notice makes the sender mark the wavelength LOST -/
  | lctlLossNotice (f : Flit)
  /-- R406: A time exchange with the parent slews GTIME -/
  | sync (f : Flit)
  /-- R406: Every 1 ms a package with a parent starts a SYNC exchange -/
  | timeSync
  /-- R406: No SYNC for 10 ms posts subkind 7 and GTIME runs free -/
  | timeSyncLost
  /-- R342: A gradient advert updates the peer entry's AD and AP -/
  | adv (f : Flit)
  /-- R411: A store to a counter's ADD adds to VALUE -/
  | counterAddStore (who : Who) (ctr : Nat) (value : Word)
  /-- R411: A write to a counter's VALUE sets it -/
  | counterSet (who : Who) (ctr : Nat) (value : Word)
  /-- R419: A fired entry ends DONE or FAILED and raises or marks its completion counter -/
  | triggerEntryComplete (entry : Nat)
  /-- R430: A store to GCON contributes a value to the group's round -/
  | groupContributionStore (who : Who) (group : Nat) (value : Word)
  /-- R45: A fetched word or halfword with a reserved major, func or field, or the halfword 0x0000, traps with cause 0x01 -/
  | undefinedEncoding (sub : Nat) (word : BitVec 32)
  /-- R147: A soft error corrupts a word of core, cluster, L2 or memory storage, leaving it correctable or uncorrectable -/
  | softError (site : Site) (uncorrectable : Bool)
  /-- R372: A die-to-die, UCIe or CXL link comes up, setting CXLCTL.UP where it applies and posting event 0x0C with B = 2 -/
  | linkUp (link : Nat)
  /-- R366: The host link finishes training and answers configuration requests, ending bring-up stage LINK -/
  | hostLinkUp
  /-- R145: A restore finishes reading the save area, re-forms gangs, makes the slots ready or parked and clears PREEMPT.BUSY -/
  | preemptRestoreComplete (core : Nat)
  /-- R344: A visitor's STATE change, or at its DONE its join signal, arrives at package HPEER and is applied to the record and the join counter there -/
  | visitorStateChange (name : RecordName) (state : Nat) (joina : Word) (done : Bool)
  /-- R371: Once the one-microsecond spacing has passed after PROD advanced, MSI-X vector 0 of the function is signalled -/
  | msixEventSignal (fn : Nat)
  deriving DecidableEq, Repr

end Sys2Proof
end

