-- ==== Sys2Proof/WellFormed.lean ====
section
/-! DEFINITION. Which terms of `Instr` stand for an instruction or an event of this device: operand
sub-fields that select an operation hold no reserved value (R43, R46, R47), and an event names a core,
slot, cluster, die, channel, window, port or function that the package has (R2, R9, R373). -/

namespace Sys2Proof

namespace Bound
/-- R2: logical cores of the package, numbered die × 256 + cluster × 32 + row × 8 + column. -/
def cores : Nat := 1024
/-- R28: thread slots of a core. -/
def slots : Nat := 4
/-- R2: clusters of the package, die × 8 + cluster. -/
def clusters : Nat := 32
/-- R2: compute dies. -/
def dies : Nat := 4
/-- R373: optical ports. -/
def ports : Nat := 32
/-- R373: wavelengths of one port. -/
def waves : Nat := 16
/-- R348: PF0 and the virtual functions. -/
def functions : Nat := 5
/-- R357: partitions. -/
def partitions : Nat := 4
end Bound

/-- The operands stand for an instruction word of R46 or an event of this package. -/
def Instr.wellFormed (i : Instr) : Bool :=
  match i with
  | .shortMvReg d s => !(d = 0 && s = 0)   -- R40: its halfword would be 0x0000, which is not an instruction
  | .shortMvImm _ _ => true
  | .shortAddReg _ _ => true
  | .shortAddImm _ _ => true
  | .shortSubReg _ _ => true
  | .shortSubImm _ _ => true
  | .shortAndReg _ _ => true
  | .shortAndImm _ _ => true
  | .shortOrReg _ _ => true
  | .shortOrImm _ _ => true
  | .shortXorReg _ _ => true
  | .shortXorImm _ _ => true
  | .shortShlReg _ _ => true
  | .shortShlImm _ _ => true
  | .shortShrReg _ _ => true
  | .shortShrImm _ _ => true
  | .shortSraReg _ _ => true
  | .shortSraImm _ _ => true
  | .shortMinReg _ _ => true
  | .shortMinImm _ _ => true
  | .shortMaxReg _ _ => true
  | .shortMaxImm _ _ => true
  | .shortSltReg _ _ => true
  | .shortSltImm _ _ => true
  | .shortMulReg _ _ => true
  | .shortMulImm _ _ => true
  | .shortLdReg _ _ => true
  | .shortLdOff _ _ => true
  | .shortStReg _ _ => true
  | .shortStImm _ _ => true
  | .skz _ _ => true
  | .skzN _ _ => true
  | .add _ _ _ => true
  | .sub _ _ _ => true
  | .and _ _ _ => true
  | .or _ _ _ => true
  | .xor _ _ _ => true
  | .andn _ _ _ => true
  | .shl _ _ _ => true
  | .shr _ _ _ => true
  | .sra _ _ _ => true
  | .rol _ _ _ => true
  | .min _ _ _ => true
  | .max _ _ _ => true
  | .minu _ _ _ => true
  | .maxu _ _ _ => true
  | .slt _ _ _ => true
  | .sltu _ _ _ => true
  | .seq _ _ _ => true
  | .mul _ _ _ => true
  | .mulh _ _ _ => true
  | .mulhu _ _ _ => true
  | .div _ _ _ => true
  | .divu _ _ _ => true
  | .rem _ _ _ => true
  | .remu _ _ _ => true
  | .clz _ _ => true
  | .ctz _ _ => true
  | .popc _ _ => true
  | .bswap _ _ => true
  | .brev _ _ => true
  | .sext _ _ w => w < 3
  | .zext _ _ w => w < 3
  | .addi _ _ _ => true
  | .andi _ _ _ => true
  | .ori _ _ _ => true
  | .xori _ _ _ => true
  | .shli _ _ _ => true
  | .shri _ _ _ => true
  | .srai _ _ _ => true
  | .roli _ _ _ => true
  | .slti _ _ _ => true
  | .sltui _ _ _ => true
  | .seqi _ _ _ => true
  | .lit _ _ => true
  | .litZ _ _ => true
  | .litH _ _ => true
  | .sel _ _ _ _ => true
  | .selN _ _ _ _ => true
  | .skipEq _ _ _ => true
  | .skipNe _ _ _ => true
  | .skipLt _ _ _ => true
  | .skipGe _ _ _ => true
  | .skipLtu _ _ _ => true
  | .skipGeu _ _ _ => true
  | .lea _ _ _ _ => true
  | .leaPc _ _ => true
  | .bEq _ _ _ => true
  | .bNe _ _ _ => true
  | .bLt _ _ _ => true
  | .bGe _ _ _ => true
  | .bLtu _ _ _ => true
  | .bGeu _ _ _ => true
  | .bz _ _ => true
  | .bnz _ _ => true
  | .j _ => true
  | .call8 _ => true
  | .call16 _ => true
  | .jr _ => true
  | .callr8 _ => true
  | .callr16 _ => true
  | .ret => true
  | .loop _ _ => true
  | .ldB _ _ _ _ => true
  | .ldH _ _ _ _ => true
  | .ldW _ _ _ _ => true
  | .ldD _ _ _ _ => true
  | .ldBu _ _ _ _ => true
  | .ldHu _ _ _ _ => true
  | .ldWu _ _ _ _ => true
  | .stB _ _ _ _ => true
  | .stH _ _ _ _ => true
  | .stW _ _ _ _ => true
  | .stD _ _ _ _ => true
  | .ldx _ _ _ _ z _ => z < 7
  | .stx _ _ _ _ z _ => z < 4
  | .ldp _ _ _ _ => true
  | .ldq _ _ _ _ => true
  | .stp _ _ _ _ => true
  | .stq _ _ _ _ => true
  | .amoSwap _ s _ _ _ _ => s < 6
  | .amoAdd _ s _ _ _ _ => s < 6
  | .amoAnd _ s _ _ _ _ => s < 6
  | .amoOr _ s _ _ _ _ => s < 6
  | .amoXor _ s _ _ _ _ => s < 6
  | .amoMin _ s _ _ _ _ => s < 6
  | .amoMax _ s _ _ _ _ => s < 6
  | .amoMinu _ s _ _ _ _ => s < 6
  | .amoMaxu _ s _ _ _ _ => s < 6
  | .amoCas _ s _ _ _ _ => s < 6
  | .fence s _ => s < 6
  | .qfence _ _ => true
  | .pfL2 _ _ => true
  | .pfRdc _ _ => true
  | .cln _ _ => true
  | .inv _ _ => true
  | .flush _ _ => true
  | .zln _ _ => true
  | .ldScW _ _ _ _ => true
  | .ldScD _ _ _ _ => true
  | .stScW _ _ _ _ => true
  | .stScD _ _ _ _ => true
  | .nop => true
  | .trap _ _ => true
  | .rte => true
  | .done => true
  | .yield => true
  | .mfs _ _ => true
  | .mts _ _ => true
  | .wspill => true
  | .wfill => true
  | .wstat _ => true
  | .twany _ _ => true
  | .twall _ _ => true
  | .tffr _ _ => true
  | .tclr _ => true
  | .chsnd _ _ => true
  | .chrcv _ _ => true
  | .chtry _ _ _ => true
  | .gang2 => true
  | .gang4 => true
  | .gang8 => true
  | .disband => true
  | .rng _ => true
  | .vaddFp _ _ _ t _ => t < 3
  | .vsubFp _ _ _ t _ => t < 3
  | .vmulFp _ _ _ t _ => t < 3
  | .vfma _ _ _ t _ => t < 3
  | .vfms _ _ _ t _ => t < 3
  | .vminFp _ _ _ t _ => t < 3
  | .vmaxFp _ _ _ t _ => t < 3
  | .vabs _ _ t _ => t < 3
  | .vneg _ _ t _ => t < 3
  | .vceqFp _ _ _ t _ => t < 3
  | .vcltFp _ _ _ t _ => t < 3
  | .vcle _ _ _ t _ => t < 3
  | .vsum _ _ t _ => t < 3
  | .vmaxr _ _ t _ => t < 3
  | .vscale _ _ _ t _ => t < 3
  | .vaddInt _ _ _ _ _ => true
  | .vsubInt _ _ _ _ _ => true
  | .vmulInt _ _ _ _ _ => true
  | .vminInt _ _ _ _ _ => true
  | .vmaxInt _ _ _ _ _ => true
  | .vminu _ _ _ _ _ => true
  | .vmaxu _ _ _ _ _ => true
  | .vand _ _ _ _ _ => true
  | .vor _ _ _ _ _ => true
  | .vxor _ _ _ _ _ => true
  | .vshl _ _ _ _ _ => true
  | .vshr _ _ _ _ _ => true
  | .vsra _ _ _ _ _ => true
  | .vceqInt _ _ _ _ _ => true
  | .vcltInt _ _ _ _ _ => true
  | .vcltu _ _ _ _ _ => true
  | .vrcp _ _ t _ => t < 3
  | .vrsqrt _ _ t _ => t < 3
  | .vsqrt _ _ t _ => t < 3
  | .vexp2 _ _ t _ => t < 3
  | .vlog2 _ _ t _ => t < 3
  | .vtanh _ _ t _ => t < 3
  | .vsigm _ _ t _ => t < 3
  | .vgelu _ _ t _ => t < 3
  | .vsilu _ _ t _ => t < 3
  | .vdiv _ _ _ t _ => t < 3
  | .vmov _ _ _ _ => true
  | .vbcast _ _ _ => true
  | .vgath _ _ _ => true
  | .vscat _ _ _ => true
  | .vcomp _ _ _ => true
  | .vexpd _ _ _ => true
  | .vscan _ _ _ => true
  | .vrev _ _ _ => true
  | .vcmx _ _ _ _ => true
  | .vmrg _ _ _ => true
  | .vbton _ _ _ => true
  | .vrank _ _ _ => true
  | .vcvt _ _ _ _ _ => true
  | .vcur _ _ _ => true
  | .vfence _ => true
  | .vstat _ _ => true
  | .ksend _ _ _ _ => true
  | .racc _ _ _ => true
  | .mma _ _ => true
  | .mepi _ _ _ => true
  | .mldb _ _ _ => true
  | .mzero _ _ => true
  | .msave _ _ _ => true
  | .mrest _ _ _ => true
  | .mwait _ => true
  | .lpatch _ _ _ => true
  | .spawn _ _ => true
  | .spawnc _ _ => true
  | .jsig _ _ _ => true
  | .jwait _ _ => true
  | .barArr _ _ => true
  | .barWait _ _ => true
  | .barT1 _ _ => true
  | .barSet _ _ => true
  | .barBytes _ _ => true
  | .barBind _ _ => true
  | .ldf _ _ => true
  | .stf _ _ _ => true
  | .gjoin _ _ => true
  | .gleave _ _ => true
  | .sbBind _ _ _ => true
  | .sbRet _ => true
  | .qpop _ _ _ => true
  | .qpush _ _ _ => true
  | .schedNext _ => true
  | .put _ _ _ _ => true
  | .get _ _ _ _ => true
  | .radd _ _ _ _ => true
  | .rcas _ _ _ _ => true
  | .lease _ _ _ => true
  | .lrel _ _ _ => true
  | .lqry _ _ => true
  | .trgPost _ _ _ => true
  | .trgCancel _ _ _ => true
  | .ctrAdd _ _ _ => true
  | .ctrWait _ _ _ => true
  | .ctrRd _ _ => true
  | .coll _ _ _ _ _ => true
  | .grpSt _ _ _ => true
  | .grpLd _ _ _ => true
  | .suppressedInstruction => true
  | .deferredTrap core slot => core < Bound.cores && slot < Bound.slots
  | .gangAbort core slot => core < Bound.cores && slot < Bound.slots
  | .gangFormation core slot => core < Bound.cores && slot < Bound.slots
  | .gangRowBarrierJoin core slot => core < Bound.cores && slot < Bound.slots
  | .homeAccess _ => true
  | .remoteScratchAccess _ => true
  | .loadDataReturn _ => true
  | .storeAcknowledgement _ => true
  | .errorResponse _ => true
  | .scratchFrameRefill core _ => core < Bound.cores
  | .accRegionRefill core _ => core < Bound.cores
  | .serviceReply core slot => core < Bound.cores && slot < Bound.slots
  | .pageWalk die _ => die < Bound.dies
  | .scWindowDelivery _ => true
  | .vectorCommandStart core => core < Bound.cores
  | .vectorCommandComplete core => core < Bound.cores
  | .ksendRecordApply core => core < Bound.cores
  | .matrixEntryStart core => core < Bound.cores
  | .matrixEntryComplete core => core < Bound.cores
  | .dispatch cluster => cluster < Bound.clusters
  | .dispatchComplete core slot => core < Bound.cores && slot < Bound.slots
  | .routingDecision cluster => cluster < Bound.clusters
  | .forwardArrival _ => true
  | .forwardAcceptance _ => true
  | .forwardRefusal _ => true
  | .taskAging cluster _ => cluster < Bound.clusters
  | .epochBoundary => true
  | .gradientAdvertSend => true
  | .advertTimeout part _ => part < Bound.partitions
  | .visitorOutcomeUnknown _ => true
  | .jwaitTimeout core slot => core < Bound.cores && slot < Bound.slots
  | .queueWaitTimeout core slot => core < Bound.cores && slot < Bound.slots
  | .rootlArm _ cluster _ => cluster < Bound.clusters
  | .rootlPlace _ cluster _ => cluster < Bound.clusters
  | .slotcmdFree _ cluster _ => cluster < Bound.clusters
  | .joinCountStore _ cluster _ _ => cluster < Bound.clusters
  | .futureEmpty _ cluster _ => cluster < Bound.clusters
  | .sbctlClear _ cluster => cluster < Bound.clusters
  | .preemptSave _ core _ => core < Bound.cores
  | .preemptSaveComplete core => core < Bound.cores
  | .preemptRestore _ core _ => core < Bound.cores
  | .sctxWrite _ core _ => core < Bound.cores
  | .btStart core slot die channel _ => core < Bound.cores && slot < Bound.slots && die < Bound.dies && channel < 64
  | .copyRowPerformed die channel => die < Bound.dies && channel < 64
  | .copyComplete die channel => die < Bound.dies && channel < 64
  | .copyFail die channel => die < Bound.dies && channel < 64
  | .streamerPost core slot _ => core < Bound.cores && slot < Bound.slots
  | .streamerRow die => die < Bound.dies
  | .streamerComplete die => die < Bound.dies
  | .queueSubscribe core slot queue _ => core < Bound.cores && slot < Bound.slots && queue < 8
  | .queueUnsubscribe core slot queue _ => core < Bound.cores && slot < Bound.slots && queue < 8
  | .pumpLoadTile core queue => core < Bound.cores && queue < 8
  | .pumpStoreTile core queue => core < Bound.cores && queue < 8
  | .tlbInvalidate _ die _ => die < Bound.dies
  | .tlbInvalidateDone die => die < Bound.dies
  | .dieFence _ die => die < Bound.dies
  | .heartbeatTimeout die => die < Bound.dies
  | .fenceResponse die => die < Bound.dies
  | .coreIsolate core => core < Bound.cores
  | .spareSubstitute core => core < Bound.cores
  | .formatWindowEnable _ die win _ => die < Bound.dies && win < 16
  | .formatWindowDisable _ die win _ => die < Bound.dies && win < 16
  | .registerWrite _ _ _ => true
  | .hostMemoryAccess fn _ _ _ _ => fn < Bound.functions
  | .partitionCreate _ part _ => part < Bound.partitions
  | .partitionDestroy _ part _ => part < Bound.partitions
  | .partitionScrubDone part => part < Bound.partitions
  | .lockInterfaceRequest part => part < Bound.partitions
  | .startInterfaceRequest part => part < Bound.partitions
  | .stopInterfaceRequest part => part < Bound.partitions
  | .getTdispVersion part => part < Bound.partitions
  | .getTdispCapabilities part => part < Bound.partitions
  | .getDeviceInterfaceReport part => part < Bound.partitions
  | .getDeviceInterfaceState part => part < Bound.partitions
  | .ideIntegrityFailure part => part < Bound.partitions
  | .functionLevelReset part => part < Bound.partitions
  | .spdmCert _ => true
  | .spdmChal _ => true
  | .spdmMeas _ => true
  | .spdmKeyEx _ => true
  | .partitionPairing part _ _ => part < Bound.partitions
  | .perstDeassert => true
  | .fwgo _ => true
  | .bootInitComplete _ => true
  | .dieReset die => die < Bound.dies
  | .powerStateCommand _ die _ => die < Bound.dies
  | .powerTransitionDone die => die < Bound.dies
  | .thermalSample die _ => die < Bound.dies
  | .thermTrip => true
  | .gtimeLoad _ _ => true
  | .laneRepair _ => true
  | .dieLinkDown _ => true
  | .cxlPortDown port => port < Bound.ports
  | .mfreePush _ die _ => die < Bound.dies
  | .portEnable _ port _ => port < Bound.ports
  | .portDisable _ port _ => port < Bound.ports
  | .laserFeedFailure _ => true
  | .lossOfLight port wave => port < Bound.ports && wave < Bound.waves
  | .lightRestored _ => true
  | .wavelengthLock port wave => port < Bound.ports && wave < Bound.waves
  | .trainingTimeout port wave => port < Bound.ports && wave < Bound.waves
  | .wavelengthDrained port wave => port < Bound.ports && wave < Bound.waves
  | .laneRequestTimeout => true
  | .regionRegister _ _ _ => true
  | .regionRevoke _ _ _ => true
  | .regionRevokeDone _ => true
  | .pageMigration die _ => die < Bound.dies
  | .pageMigrationDone die _ _ => die < Bound.dies
  | .contextFetchComplete part _ => part < Bound.partitions
  | .fabricSend part _ => part < Bound.partitions
  | .ackTimer part _ => part < Bound.partitions
  | .nakGapTimeout part _ => part < Bound.partitions
  | .goBackTimeout part _ => part < Bound.partitions
  | .remoteOpComplete _ => true
  | .putFlit _ => true
  | .getq _ => true
  | .getr _ => true
  | .raddFlit _ => true
  | .rcasFlit _ => true
  | .atr _ => true
  | .fadd _ => true
  | .pld _ => true
  | .pst _ => true
  | .errFlit _ => true
  | .vis _ => true
  | .trgCounterAdd _ => true
  | .trgSmallContribution _ => true
  | .trgSmallResult _ => true
  | .trgBulkChunkUp _ => true
  | .trgBulkChunkDown _ => true
  | .trgAbortRequest _ => true
  | .trgAbortDecision _ => true
  | .trgDescriptorCheck _ => true
  | .ack _ => true
  | .nak _ => true
  | .pause _ => true
  | .lctlLaneRequest _ => true
  | .lctlGrant _ => true
  | .lctlRevocation _ => true
  | .lctlLossNotice _ => true
  | .sync _ => true
  | .timeSync => true
  | .timeSyncLost => true
  | .adv _ => true
  | .counterAddStore _ _ _ => true
  | .counterSet _ _ _ => true
  | .triggerEntryComplete _ => true
  | .groupContributionStore _ _ _ => true
  | .undefinedEncoding _ _ => true
  | .softError _ _ => true
  | .linkUp _ => true
  | .hostLinkUp => true
  | .preemptRestoreComplete core => core < Bound.cores
  | .visitorStateChange _ _ _ _ => true
  | .msixEventSignal fn => fn < Bound.functions

end Sys2Proof
end

