-- ==== Sys2Proof/Decode.lean ====
section
/-! DEFINITION. The decoder of R32–R48, total on any bytes and rejecting by name, the encoder written
from the same tables, and the bit-field helpers both use. -/

namespace Sys2Proof

/-! ### Fields of a 32-bit word (R41) -/

/-- Bits [6:1]: the major opcode (R41). -/
def fMajor (w : BitVec 32) : Nat := (w.extractLsb' 1 6).toNat
/-- Bits [11:7]. -/
def fD (w : BitVec 32) : Reg := w.extractLsb' 7 5
/-- Bits [16:12]. -/
def fA (w : BitVec 32) : Reg := w.extractLsb' 12 5
/-- Bits [21:17]. -/
def fB (w : BitVec 32) : Reg := w.extractLsb' 17 5
/-- Bits [25:22] of format T. -/
def fL (w : BitVec 32) : BitVec 4 := w.extractLsb' 22 4
/-- Bits [20:17] of format M. -/
def fLm (w : BitVec 32) : BitVec 4 := w.extractLsb' 17 4
/-- Bits [31:26] of format T. -/
def fFunc (w : BitVec 32) : BitVec 6 := w.extractLsb' 26 6
/-- Bits [31:24] of format M. -/
def fOff (w : BitVec 32) : BitVec 8 := w.extractLsb' 24 8
/-- Bits [23:21] of format M. -/
def fSz (w : BitVec 32) : BitVec 3 := w.extractLsb' 21 3

/-! ### Refusals (R40, R43, R45) -/

/-- Why bytes are not an instruction. -/
inductive DecodeError where
  /-- Fewer bytes than the instruction has. -/
  | short
  /-- R40, R45: the halfword 0x0000 or a reserved major (SUB 0). -/
  | reservedMajor
  /-- R43: a reserved func or selecting sub-field (SUB 1). -/
  | reservedFunc
  /-- R43: a reserved field that is not zero (SUB 2). -/
  | reservedField
  deriving DecidableEq, Repr

/-- R45, R43: the SUB code of the trap of cause 0x01. -/
def DecodeError.sub : DecodeError → Nat
  | .short => 0
  | .reservedMajor => 0
  | .reservedFunc => 1
  | .reservedField => 2

/-- R43: the instruction, if its reserved fields are zero. -/
def clear (ok : Bool) (i : Instr) : Except DecodeError Instr :=
  if ok then .ok i else .error .reservedField

/-- R43: a selecting sub-field that must not hold a reserved value; checked before reserved fields (R48). -/
def selected (ok : Bool) (r : Except DecodeError Instr) : Except DecodeError Instr :=
  if ok then r else .error .reservedFunc

/-! ### The func tables (R46)
A `noncomputable` decoder builds a constructor past the 244th, which Lean's code generator cannot represent;
the kernel evaluates it like any other. -/

/-- R46, major 0x00. -/
def decodeAlu (w : BitVec 32) : Except DecodeError Instr :=
  match (fFunc w).toNat with
  | 0 => clear (fL w == 0) (.add (fD w) (fA w) (fB w))
  | 1 => clear (fL w == 0) (.sub (fD w) (fA w) (fB w))
  | 2 => clear (fL w == 0) (.and (fD w) (fA w) (fB w))
  | 3 => clear (fL w == 0) (.or (fD w) (fA w) (fB w))
  | 4 => clear (fL w == 0) (.xor (fD w) (fA w) (fB w))
  | 5 => clear (fL w == 0) (.andn (fD w) (fA w) (fB w))
  | 6 => clear (fL w == 0) (.shl (fD w) (fA w) (fB w))
  | 7 => clear (fL w == 0) (.shr (fD w) (fA w) (fB w))
  | 8 => clear (fL w == 0) (.sra (fD w) (fA w) (fB w))
  | 9 => clear (fL w == 0) (.rol (fD w) (fA w) (fB w))
  | 10 => clear (fL w == 0) (.min (fD w) (fA w) (fB w))
  | 11 => clear (fL w == 0) (.max (fD w) (fA w) (fB w))
  | 12 => clear (fL w == 0) (.minu (fD w) (fA w) (fB w))
  | 13 => clear (fL w == 0) (.maxu (fD w) (fA w) (fB w))
  | 14 => clear (fL w == 0) (.slt (fD w) (fA w) (fB w))
  | 15 => clear (fL w == 0) (.sltu (fD w) (fA w) (fB w))
  | 16 => clear (fL w == 0) (.seq (fD w) (fA w) (fB w))
  | 17 => clear (fL w == 0) (.mul (fD w) (fA w) (fB w))
  | 18 => clear (fL w == 0) (.mulh (fD w) (fA w) (fB w))
  | 19 => clear (fL w == 0) (.mulhu (fD w) (fA w) (fB w))
  | 20 => clear (fL w == 0) (.div (fD w) (fA w) (fB w))
  | 21 => clear (fL w == 0) (.divu (fD w) (fA w) (fB w))
  | 22 => clear (fL w == 0) (.rem (fD w) (fA w) (fB w))
  | 23 => clear (fL w == 0) (.remu (fD w) (fA w) (fB w))
  | 24 => clear (fB w == 0 && fL w == 0) (.clz (fD w) (fA w))
  | 25 => clear (fB w == 0 && fL w == 0) (.ctz (fD w) (fA w))
  | 26 => clear (fB w == 0 && fL w == 0) (.popc (fD w) (fA w))
  | 27 => clear (fB w == 0 && fL w == 0) (.bswap (fD w) (fA w))
  | 28 => clear (fB w == 0 && fL w == 0) (.brev (fD w) (fA w))
  | 29 => selected (fB w < 3) (clear (fL w == 0) (.sext (fD w) (fA w) (w.extractLsb' 17 2)))
  | 30 => selected (fB w < 3) (clear (fL w == 0) (.zext (fD w) (fA w) (w.extractLsb' 17 2)))
  | _ => .error .reservedFunc

/-- R46, major 0x01. -/
def decodeAddi (w : BitVec 32) : Except DecodeError Instr :=
  .ok (.addi (fD w) (fA w) (w.extractLsb' 17 15))

/-- R46, major 0x02. -/
def decodeAndi (w : BitVec 32) : Except DecodeError Instr :=
  .ok (.andi (fD w) (fA w) (w.extractLsb' 17 15))

/-- R46, major 0x03. -/
def decodeOri (w : BitVec 32) : Except DecodeError Instr :=
  .ok (.ori (fD w) (fA w) (w.extractLsb' 17 15))

/-- R46, major 0x04. -/
def decodeXori (w : BitVec 32) : Except DecodeError Instr :=
  .ok (.xori (fD w) (fA w) (w.extractLsb' 17 15))

/-- R46, major 0x05. -/
def decodeShiftImm (w : BitVec 32) : Except DecodeError Instr :=
  match (w.extractLsb' 29 3).toNat with
  | 0 => clear (w.extractLsb' 23 3 == 0 && w.extractLsb' 26 3 == 0) (.shli (fD w) (fA w) (w.extractLsb' 17 6))
  | 1 => clear (w.extractLsb' 23 3 == 0 && w.extractLsb' 26 3 == 0) (.shri (fD w) (fA w) (w.extractLsb' 17 6))
  | 2 => clear (w.extractLsb' 23 3 == 0 && w.extractLsb' 26 3 == 0) (.srai (fD w) (fA w) (w.extractLsb' 17 6))
  | 3 => clear (w.extractLsb' 23 3 == 0 && w.extractLsb' 26 3 == 0) (.roli (fD w) (fA w) (w.extractLsb' 17 6))
  | _ => .error .reservedFunc

/-- R46, major 0x06. -/
def decodeCmpImm (w : BitVec 32) : Except DecodeError Instr :=
  match (w.extractLsb' 30 2).toNat with
  | 0 => .ok (.slti (fD w) (fA w) (w.extractLsb' 17 13))
  | 1 => .ok (.sltui (fD w) (fA w) (w.extractLsb' 17 13))
  | 2 => .ok (.seqi (fD w) (fA w) (w.extractLsb' 17 13))
  | _ => .error .reservedFunc

/-- R46, major 0x07. -/
def decodeLit (w : BitVec 32) (e : BitVec 32) : Except DecodeError Instr :=
  match (fFunc w).toNat with
  | 0 => clear (fA w == 0 && fB w == 0 && fL w == 0) (.lit (fD w) e)
  | 1 => clear (fA w == 0 && fB w == 0 && fL w == 0) (.litZ (fD w) e)
  | 2 => clear (fA w == 0 && fB w == 0 && fL w == 0) (.litH (fD w) e)
  | _ => .error .reservedFunc

/-- R46, major 0x08. -/
def decodeSel (w : BitVec 32) : Except DecodeError Instr :=
  match (w.extractLsb' 31 1).toNat with
  | 0 => clear (fL w == 0) (.sel (fD w) (fA w) (fB w) (w.extractLsb' 26 5))
  | 1 => clear (fL w == 0) (.selN (fD w) (fA w) (fB w) (w.extractLsb' 26 5))
  | _ => .error .reservedFunc

/-- R46, major 0x09. -/
def decodeSkip (w : BitVec 32) : Except DecodeError Instr :=
  match (fFunc w).toNat with
  | 0 => clear (w.extractLsb' 9 3 == 0 && fL w == 0) (.skipEq (fA w) (fB w) (w.extractLsb' 7 2))
  | 1 => clear (w.extractLsb' 9 3 == 0 && fL w == 0) (.skipNe (fA w) (fB w) (w.extractLsb' 7 2))
  | 2 => clear (w.extractLsb' 9 3 == 0 && fL w == 0) (.skipLt (fA w) (fB w) (w.extractLsb' 7 2))
  | 3 => clear (w.extractLsb' 9 3 == 0 && fL w == 0) (.skipGe (fA w) (fB w) (w.extractLsb' 7 2))
  | 4 => clear (w.extractLsb' 9 3 == 0 && fL w == 0) (.skipLtu (fA w) (fB w) (w.extractLsb' 7 2))
  | 5 => clear (w.extractLsb' 9 3 == 0 && fL w == 0) (.skipGeu (fA w) (fB w) (w.extractLsb' 7 2))
  | _ => .error .reservedFunc

/-- R46, major 0x0A. -/
def decodeLea (w : BitVec 32) : Except DecodeError Instr :=
  match (w.extractLsb' 31 1).toNat with
  | 0 => selected (w.extractLsb' 28 3 == 0) (clear (fL w == 0) (.lea (fD w) (w.extractLsb' 26 2) (fA w) (fB w)))
  | 1 => selected (w.extractLsb' 26 5 == 0) (.ok (.leaPc (fD w) (w.extractLsb' 12 14)))
  | _ => .error .reservedFunc

/-- R46, major 0x10. -/
def decodeBranch (w : BitVec 32) : Except DecodeError Instr :=
  match (w.extractLsb' 17 3).toNat with
  | 0 => .ok (.bEq (fA w) (fD w) (w.extractLsb' 20 12))
  | 1 => .ok (.bNe (fA w) (fD w) (w.extractLsb' 20 12))
  | 2 => .ok (.bLt (fA w) (fD w) (w.extractLsb' 20 12))
  | 3 => .ok (.bGe (fA w) (fD w) (w.extractLsb' 20 12))
  | 4 => .ok (.bLtu (fA w) (fD w) (w.extractLsb' 20 12))
  | 5 => .ok (.bGeu (fA w) (fD w) (w.extractLsb' 20 12))
  | _ => .error .reservedFunc

/-- R46, major 0x11. -/
def decodeBranchZero (w : BitVec 32) : Except DecodeError Instr :=
  match (fD w).toNat with
  | 0 => .ok (.bz (fA w) (w.extractLsb' 17 15))
  | 1 => .ok (.bnz (fA w) (w.extractLsb' 17 15))
  | _ => .error .reservedFunc

/-- R46, major 0x12. -/
def decodeJ (w : BitVec 32) : Except DecodeError Instr :=
  .ok (.j (w.extractLsb' 7 25))

/-- R46, major 0x13. -/
def decodeCall8 (w : BitVec 32) : Except DecodeError Instr :=
  .ok (.call8 (w.extractLsb' 7 25))

/-- R46, major 0x14. -/
def decodeCall16 (w : BitVec 32) : Except DecodeError Instr :=
  .ok (.call16 (w.extractLsb' 7 25))

/-- R46, major 0x15. -/
def decodeJump (w : BitVec 32) : Except DecodeError Instr :=
  match (fFunc w).toNat with
  | 0 => clear (fD w == 0 && fB w == 0 && fL w == 0) (.jr (fA w))
  | 1 => clear (fD w == 0 && fB w == 0 && fL w == 0) (.callr8 (fA w))
  | 2 => clear (fD w == 0 && fB w == 0 && fL w == 0) (.callr16 (fA w))
  | 3 => clear (fD w == 0 && fA w == 0 && fB w == 0 && fL w == 0) (.ret)
  | _ => .error .reservedFunc

/-- R46, major 0x16. -/
def decodeLoop (w : BitVec 32) : Except DecodeError Instr :=
  match (fD w).toNat with
  | 0 => .ok (.loop (fA w) (w.extractLsb' 17 15))
  | _ => .error .reservedFunc

/-- R46, major 0x18. -/
def decodeLoad (w : BitVec 32) : Except DecodeError Instr :=
  match (fSz w).toNat with
  | 0 => .ok (.ldB (fD w) (fA w) (fOff w) (fLm w))
  | 1 => .ok (.ldH (fD w) (fA w) (fOff w) (fLm w))
  | 2 => .ok (.ldW (fD w) (fA w) (fOff w) (fLm w))
  | 3 => .ok (.ldD (fD w) (fA w) (fOff w) (fLm w))
  | 4 => .ok (.ldBu (fD w) (fA w) (fOff w) (fLm w))
  | 5 => .ok (.ldHu (fD w) (fA w) (fOff w) (fLm w))
  | 6 => .ok (.ldWu (fD w) (fA w) (fOff w) (fLm w))
  | _ => .error .reservedFunc

/-- R46, major 0x19. -/
def decodeStore (w : BitVec 32) : Except DecodeError Instr :=
  match (fSz w).toNat with
  | 0 => .ok (.stB (fD w) (fA w) (fOff w) (fLm w))
  | 1 => .ok (.stH (fD w) (fA w) (fOff w) (fLm w))
  | 2 => .ok (.stW (fD w) (fA w) (fOff w) (fLm w))
  | 3 => .ok (.stD (fD w) (fA w) (fOff w) (fLm w))
  | _ => .error .reservedFunc

/-- R46, major 0x1A. -/
def decodeIndexed (w : BitVec 32) : Except DecodeError Instr :=
  match (w.extractLsb' 31 1).toNat with
  | 0 => selected (w.extractLsb' 28 3 < 7) (.ok (.ldx (fD w) (w.extractLsb' 26 2) (fA w) (fB w) (w.extractLsb' 28 3) (fL w)))
  | 1 => selected (w.extractLsb' 28 3 < 4) (.ok (.stx (fD w) (w.extractLsb' 26 2) (fA w) (fB w) (w.extractLsb' 28 3) (fL w)))
  | _ => .error .reservedFunc

/-- R46, major 0x1B. -/
def decodeGroup (w : BitVec 32) : Except DecodeError Instr :=
  match (fSz w).toNat with
  | 0 => .ok (.ldp (fD w) (fA w) (fOff w) (fLm w))
  | 1 => .ok (.ldq (fD w) (fA w) (fOff w) (fLm w))
  | 2 => .ok (.stp (fD w) (fA w) (fOff w) (fLm w))
  | 3 => .ok (.stq (fD w) (fA w) (fOff w) (fLm w))
  | _ => .error .reservedFunc

/-- R46, major 0x1C. -/
def decodeAmo (w : BitVec 32) : Except DecodeError Instr :=
  match (w.extractLsb' 28 4).toNat with
  | 0 => selected (w.extractLsb' 25 3 < 6) (.ok (.amoSwap (fD w) (w.extractLsb' 25 3) (fA w) (fB w) (w.extractLsb' 22 1) (w.extractLsb' 23 2)))
  | 1 => selected (w.extractLsb' 25 3 < 6) (.ok (.amoAdd (fD w) (w.extractLsb' 25 3) (fA w) (fB w) (w.extractLsb' 22 1) (w.extractLsb' 23 2)))
  | 2 => selected (w.extractLsb' 25 3 < 6) (.ok (.amoAnd (fD w) (w.extractLsb' 25 3) (fA w) (fB w) (w.extractLsb' 22 1) (w.extractLsb' 23 2)))
  | 3 => selected (w.extractLsb' 25 3 < 6) (.ok (.amoOr (fD w) (w.extractLsb' 25 3) (fA w) (fB w) (w.extractLsb' 22 1) (w.extractLsb' 23 2)))
  | 4 => selected (w.extractLsb' 25 3 < 6) (.ok (.amoXor (fD w) (w.extractLsb' 25 3) (fA w) (fB w) (w.extractLsb' 22 1) (w.extractLsb' 23 2)))
  | 5 => selected (w.extractLsb' 25 3 < 6) (.ok (.amoMin (fD w) (w.extractLsb' 25 3) (fA w) (fB w) (w.extractLsb' 22 1) (w.extractLsb' 23 2)))
  | 6 => selected (w.extractLsb' 25 3 < 6) (.ok (.amoMax (fD w) (w.extractLsb' 25 3) (fA w) (fB w) (w.extractLsb' 22 1) (w.extractLsb' 23 2)))
  | 7 => selected (w.extractLsb' 25 3 < 6) (.ok (.amoMinu (fD w) (w.extractLsb' 25 3) (fA w) (fB w) (w.extractLsb' 22 1) (w.extractLsb' 23 2)))
  | 8 => selected (w.extractLsb' 25 3 < 6) (.ok (.amoMaxu (fD w) (w.extractLsb' 25 3) (fA w) (fB w) (w.extractLsb' 22 1) (w.extractLsb' 23 2)))
  | 9 => selected (w.extractLsb' 25 3 < 6) (.ok (.amoCas (fD w) (w.extractLsb' 25 3) (fA w) (fB w) (w.extractLsb' 22 1) (w.extractLsb' 23 2)))
  | _ => .error .reservedFunc

/-- R46, major 0x1D. -/
def decodeFence (w : BitVec 32) : Except DecodeError Instr :=
  match (w.extractLsb' 31 1).toNat with
  | 0 => selected (w.extractLsb' 26 3 < 6) (clear (fD w == 0 && fA w == 0 && fB w == 0 && fL w == 0) (.fence (w.extractLsb' 26 3) (w.extractLsb' 29 2)))
  | 1 => selected (w.extractLsb' 26 5 == 0) (clear (fD w == 0 && fL w == 0) (.qfence (fA w) (fB w)))
  | _ => .error .reservedFunc

/-- R46, major 0x1E. -/
def decodeCache (w : BitVec 32) : Except DecodeError Instr :=
  match (fFunc w).toNat with
  | 0 => clear (fD w == 0 && fB w == 0) (.pfL2 (fA w) (fL w))
  | 1 => clear (fD w == 0 && fB w == 0) (.pfRdc (fA w) (fL w))
  | 2 => clear (fD w == 0 && fB w == 0) (.cln (fA w) (fL w))
  | 3 => clear (fD w == 0 && fB w == 0) (.inv (fA w) (fL w))
  | 4 => clear (fD w == 0 && fB w == 0) (.flush (fA w) (fL w))
  | 5 => clear (fD w == 0 && fB w == 0) (.zln (fA w) (fL w))
  | _ => .error .reservedFunc

/-- R46, major 0x1F. -/
def decodeSc (w : BitVec 32) : Except DecodeError Instr :=
  match (fSz w).toNat with
  | 0 => .ok (.ldScW (fD w) (fA w) (fOff w) (fLm w))
  | 1 => .ok (.ldScD (fD w) (fA w) (fOff w) (fLm w))
  | 2 => .ok (.stScW (fD w) (fA w) (fOff w) (fLm w))
  | 3 => .ok (.stScD (fD w) (fA w) (fOff w) (fLm w))
  | _ => .error .reservedFunc

/-- R46, major 0x20. -/
def decodeSystem (w : BitVec 32) : Except DecodeError Instr :=
  match (fFunc w).toNat with
  | 0 => clear (fD w == 0 && fA w == 0 && fB w == 0 && fL w == 0) (.nop)
  | 1 => clear (fL w == 0) (.trap (fD w) (w.extractLsb' 12 10))
  | 2 => clear (fD w == 0 && fA w == 0 && fB w == 0 && fL w == 0) (.rte)
  | 3 => clear (fD w == 0 && fA w == 0 && fB w == 0 && fL w == 0) (.done)
  | 4 => clear (fD w == 0 && fA w == 0 && fB w == 0 && fL w == 0) (.yield)
  | _ => .error .reservedFunc

/-- R46, major 0x21. -/
def decodeStateReg (w : BitVec 32) : Except DecodeError Instr :=
  match (w.extractLsb' 29 3).toNat with
  | 0 => clear (fA w == 0) (.mfs (fD w) (w.extractLsb' 17 12))
  | 1 => clear (fD w == 0) (.mts (fA w) (w.extractLsb' 17 12))
  | _ => .error .reservedFunc

/-- R46, major 0x22. -/
def decodeWindow (w : BitVec 32) : Except DecodeError Instr :=
  match (fFunc w).toNat with
  | 0 => clear (fD w == 0 && fA w == 0 && fB w == 0 && fL w == 0) (.wspill)
  | 1 => clear (fD w == 0 && fA w == 0 && fB w == 0 && fL w == 0) (.wfill)
  | 2 => clear (fA w == 0 && fB w == 0 && fL w == 0) (.wstat (fD w))
  | _ => .error .reservedFunc

/-- R46, major 0x23. -/
def decodeTags (w : BitVec 32) : Except DecodeError Instr :=
  match (fFunc w).toNat with
  | 0 => clear (fB w == 0 && fL w == 0) (.twany (fD w) (fA w))
  | 1 => clear (fB w == 0 && fL w == 0) (.twall (fD w) (fA w))
  | 2 => clear (fB w == 0 && fL w == 0) (.tffr (fD w) (fA w))
  | 3 => clear (fD w == 0 && fB w == 0 && fL w == 0) (.tclr (fA w))
  | _ => .error .reservedFunc

/-- R46, major 0x24. -/
def decodeChannels (w : BitVec 32) : Except DecodeError Instr :=
  match (fFunc w).toNat with
  | 0 => clear (fD w == 0 && fL w == 0) (.chsnd (fA w) (fB w))
  | 1 => clear (fB w == 0 && fL w == 0) (.chrcv (fD w) (fA w))
  | 2 => clear (fL w == 0) (.chtry (fD w) (fA w) (fB w))
  | _ => .error .reservedFunc

/-- R46, major 0x25. -/
def decodeGang (w : BitVec 32) : Except DecodeError Instr :=
  match (fFunc w).toNat with
  | 0 => clear (fD w == 0 && fA w == 0 && fB w == 0 && fL w == 0) (.gang2)
  | 1 => clear (fD w == 0 && fA w == 0 && fB w == 0 && fL w == 0) (.gang4)
  | 2 => clear (fD w == 0 && fA w == 0 && fB w == 0 && fL w == 0) (.gang8)
  | 3 => clear (fD w == 0 && fA w == 0 && fB w == 0 && fL w == 0) (.disband)
  | _ => .error .reservedFunc

/-- R46, major 0x26. -/
def decodeRng (w : BitVec 32) : Except DecodeError Instr :=
  match (fFunc w).toNat with
  | 0 => clear (fA w == 0 && fB w == 0 && fL w == 0) (.rng (fD w))
  | _ => .error .reservedFunc

/-- R46, major 0x28. -/
def decodeVecFp (w : BitVec 32) : Except DecodeError Instr :=
  match (w.extractLsb' 28 4).toNat with
  | 0 => selected (w.extractLsb' 26 2 < 3) (.ok (.vaddFp (fD w) (fA w) (fB w) (w.extractLsb' 26 2) (fL w)))
  | 1 => selected (w.extractLsb' 26 2 < 3) (.ok (.vsubFp (fD w) (fA w) (fB w) (w.extractLsb' 26 2) (fL w)))
  | 2 => selected (w.extractLsb' 26 2 < 3) (.ok (.vmulFp (fD w) (fA w) (fB w) (w.extractLsb' 26 2) (fL w)))
  | 3 => selected (w.extractLsb' 26 2 < 3) (.ok (.vfma (fD w) (fA w) (fB w) (w.extractLsb' 26 2) (fL w)))
  | 4 => selected (w.extractLsb' 26 2 < 3) (.ok (.vfms (fD w) (fA w) (fB w) (w.extractLsb' 26 2) (fL w)))
  | 5 => selected (w.extractLsb' 26 2 < 3) (.ok (.vminFp (fD w) (fA w) (fB w) (w.extractLsb' 26 2) (fL w)))
  | 6 => selected (w.extractLsb' 26 2 < 3) (.ok (.vmaxFp (fD w) (fA w) (fB w) (w.extractLsb' 26 2) (fL w)))
  | 7 => selected (w.extractLsb' 26 2 < 3) (clear (fD w == 0) (.vabs (fA w) (fB w) (w.extractLsb' 26 2) (fL w)))
  | 8 => selected (w.extractLsb' 26 2 < 3) (clear (fD w == 0) (.vneg (fA w) (fB w) (w.extractLsb' 26 2) (fL w)))
  | 9 => selected (w.extractLsb' 26 2 < 3) (.ok (.vceqFp (fD w) (fA w) (fB w) (w.extractLsb' 26 2) (fL w)))
  | 10 => selected (w.extractLsb' 26 2 < 3) (.ok (.vcltFp (fD w) (fA w) (fB w) (w.extractLsb' 26 2) (fL w)))
  | 11 => selected (w.extractLsb' 26 2 < 3) (.ok (.vcle (fD w) (fA w) (fB w) (w.extractLsb' 26 2) (fL w)))
  | 12 => selected (w.extractLsb' 26 2 < 3) (clear (fD w == 0) (.vsum (fA w) (fB w) (w.extractLsb' 26 2) (fL w)))
  | 13 => selected (w.extractLsb' 26 2 < 3) (clear (fD w == 0) (.vmaxr (fA w) (fB w) (w.extractLsb' 26 2) (fL w)))
  | 14 => selected (w.extractLsb' 26 2 < 3) (.ok (.vscale (fD w) (fA w) (fB w) (w.extractLsb' 26 2) (fL w)))
  | _ => .error .reservedFunc

/-- R46, major 0x29. -/
def decodeVecInt (w : BitVec 32) : Except DecodeError Instr :=
  match (w.extractLsb' 28 4).toNat with
  | 0 => .ok (.vaddInt (fD w) (fA w) (fB w) (w.extractLsb' 26 2) (fL w))
  | 1 => .ok (.vsubInt (fD w) (fA w) (fB w) (w.extractLsb' 26 2) (fL w))
  | 2 => .ok (.vmulInt (fD w) (fA w) (fB w) (w.extractLsb' 26 2) (fL w))
  | 3 => .ok (.vminInt (fD w) (fA w) (fB w) (w.extractLsb' 26 2) (fL w))
  | 4 => .ok (.vmaxInt (fD w) (fA w) (fB w) (w.extractLsb' 26 2) (fL w))
  | 5 => .ok (.vminu (fD w) (fA w) (fB w) (w.extractLsb' 26 2) (fL w))
  | 6 => .ok (.vmaxu (fD w) (fA w) (fB w) (w.extractLsb' 26 2) (fL w))
  | 7 => .ok (.vand (fD w) (fA w) (fB w) (w.extractLsb' 26 2) (fL w))
  | 8 => .ok (.vor (fD w) (fA w) (fB w) (w.extractLsb' 26 2) (fL w))
  | 9 => .ok (.vxor (fD w) (fA w) (fB w) (w.extractLsb' 26 2) (fL w))
  | 10 => .ok (.vshl (fD w) (fA w) (fB w) (w.extractLsb' 26 2) (fL w))
  | 11 => .ok (.vshr (fD w) (fA w) (fB w) (w.extractLsb' 26 2) (fL w))
  | 12 => .ok (.vsra (fD w) (fA w) (fB w) (w.extractLsb' 26 2) (fL w))
  | 13 => .ok (.vceqInt (fD w) (fA w) (fB w) (w.extractLsb' 26 2) (fL w))
  | 14 => .ok (.vcltInt (fD w) (fA w) (fB w) (w.extractLsb' 26 2) (fL w))
  | 15 => .ok (.vcltu (fD w) (fA w) (fB w) (w.extractLsb' 26 2) (fL w))
  | _ => .error .reservedFunc

/-- R46, major 0x2A. -/
def decodeVecSpecial (w : BitVec 32) : Except DecodeError Instr :=
  match (w.extractLsb' 28 4).toNat with
  | 0 => selected (w.extractLsb' 26 2 < 3) (clear (fD w == 0) (.vrcp (fA w) (fB w) (w.extractLsb' 26 2) (fL w)))
  | 1 => selected (w.extractLsb' 26 2 < 3) (clear (fD w == 0) (.vrsqrt (fA w) (fB w) (w.extractLsb' 26 2) (fL w)))
  | 2 => selected (w.extractLsb' 26 2 < 3) (clear (fD w == 0) (.vsqrt (fA w) (fB w) (w.extractLsb' 26 2) (fL w)))
  | 3 => selected (w.extractLsb' 26 2 < 3) (clear (fD w == 0) (.vexp2 (fA w) (fB w) (w.extractLsb' 26 2) (fL w)))
  | 4 => selected (w.extractLsb' 26 2 < 3) (clear (fD w == 0) (.vlog2 (fA w) (fB w) (w.extractLsb' 26 2) (fL w)))
  | 5 => selected (w.extractLsb' 26 2 < 3) (clear (fD w == 0) (.vtanh (fA w) (fB w) (w.extractLsb' 26 2) (fL w)))
  | 6 => selected (w.extractLsb' 26 2 < 3) (clear (fD w == 0) (.vsigm (fA w) (fB w) (w.extractLsb' 26 2) (fL w)))
  | 7 => selected (w.extractLsb' 26 2 < 3) (clear (fD w == 0) (.vgelu (fA w) (fB w) (w.extractLsb' 26 2) (fL w)))
  | 8 => selected (w.extractLsb' 26 2 < 3) (clear (fD w == 0) (.vsilu (fA w) (fB w) (w.extractLsb' 26 2) (fL w)))
  | 9 => selected (w.extractLsb' 26 2 < 3) (.ok (.vdiv (fD w) (fA w) (fB w) (w.extractLsb' 26 2) (fL w)))
  | _ => .error .reservedFunc

/-- R46, major 0x2B. -/
def decodeVecMove (w : BitVec 32) : Except DecodeError Instr :=
  match (fFunc w).toNat with
  | 0 => .ok (.vmov (fD w) (fA w) (fB w) (fL w))
  | 1 => clear (fD w == 0) (.vbcast (fA w) (fB w) (fL w))
  | 2 => clear (fD w == 0) (.vgath (fA w) (fB w) (fL w))
  | 3 => clear (fD w == 0) (.vscat (fA w) (fB w) (fL w))
  | 4 => clear (fD w == 0) (.vcomp (fA w) (fB w) (fL w))
  | 5 => clear (fD w == 0) (.vexpd (fA w) (fB w) (fL w))
  | 6 => clear (fD w == 0) (.vscan (fA w) (fB w) (fL w))
  | 7 => clear (fD w == 0) (.vrev (fA w) (fB w) (fL w))
  | 8 => .ok (.vcmx (fD w) (fA w) (fB w) (fL w))
  | 9 => clear (fD w == 0) (.vmrg (fA w) (fB w) (fL w))
  | 10 => clear (fD w == 0) (.vbton (fA w) (fB w) (fL w))
  | 11 => clear (fD w == 0) (.vrank (fA w) (fB w) (fL w))
  | _ => selected (w.extractLsb' 29 3 == 7) (clear (w.extractLsb' 10 2 == 0) (.vcvt (w.extractLsb' 7 3) (fA w) (fB w) (w.extractLsb' 26 3) (fL w)))

/-- R46, major 0x2C. -/
def decodeVecControl (w : BitVec 32) : Except DecodeError Instr :=
  match (fFunc w).toNat with
  | 0 => clear (w.extractLsb' 10 2 == 0 && fL w == 0) (.vcur (fA w) (fB w) (w.extractLsb' 7 3))
  | 1 => clear (fD w == 0 && fB w == 0 && fL w == 0) (.vfence (fA w))
  | 2 => clear (fB w == 0 && fL w == 0) (.vstat (fD w) (fA w))
  | _ => .error .reservedFunc

/-- R46, major 0x2D. -/
def decodeKeyed (w : BitVec 32) : Except DecodeError Instr :=
  match (fFunc w).toNat with
  | 0 => .ok (.ksend (fD w) (fA w) (fB w) (fL w))
  | 1 => clear (fB w == 0) (.racc (fD w) (fA w) (fL w))
  | _ => .error .reservedFunc

/-- R46, major 0x30. -/
def decodeMma (w : BitVec 32) (p : Block) : Except DecodeError Instr :=
  match (fFunc w).toNat with
  | 0 => clear (fD w == 0 && fA w == 0 && fB w == 0) (.mma (fL w) p)
  | _ => .error .reservedFunc

/-- R46, major 0x31. -/
def decodeMepi (w : BitVec 32) (p : Block) : Except DecodeError Instr :=
  match (fFunc w).toNat with
  | 0 => clear (fD w == 0 && fB w == 0) (.mepi (fA w) (fL w) p)
  | _ => .error .reservedFunc

/-- R46, major 0x32. -/
def decodeMatrixGroup (w : BitVec 32) (p : Block) : Except DecodeError Instr :=
  match (fFunc w).toNat with
  | 0 => clear (fD w == 0 && fB w == 0) (.mldb (fA w) (fL w) p)
  | 1 => clear (fD w == 0 && fA w == 0) (.mzero (fB w) (fL w))
  | 2 => clear (fD w == 0) (.msave (fA w) (fB w) (fL w))
  | 3 => clear (fD w == 0) (.mrest (fA w) (fB w) (fL w))
  | 4 => clear (fD w == 0 && fB w == 0 && fL w == 0) (.mwait (fA w))
  | _ => .error .reservedFunc

/-- R46, major 0x34. -/
def decodeLaunch (w : BitVec 32) : Except DecodeError Instr :=
  match (fFunc w).toNat with
  | 0 => clear (fL w == 0) (.lpatch (fD w) (fA w) (fB w))
  | 1 => clear (fB w == 0 && fL w == 0) (.spawn (fD w) (fA w))
  | 2 => clear (fB w == 0 && fL w == 0) (.spawnc (fD w) (fA w))
  | _ => .error .reservedFunc

/-- R46, major 0x35. -/
def decodeJoin (w : BitVec 32) : Except DecodeError Instr :=
  match (fFunc w).toNat with
  | 0 => clear (fL w == 0) (.jsig (fD w) (fA w) (fB w))
  | 1 => clear (fD w == 0 && fL w == 0) (.jwait (fA w) (fB w))
  | _ => .error .reservedFunc

/-- R46, major 0x36. -/
def decodeBarrier (w : BitVec 32) : Except DecodeError Instr :=
  match (fFunc w).toNat with
  | 0 => clear (fB w == 0 && fL w == 0) (.barArr (fD w) (fA w))
  | 1 => clear (fD w == 0 && fL w == 0) (.barWait (fA w) (fB w))
  | 2 => clear (fD w == 0 && fL w == 0) (.barT1 (fA w) (fB w))
  | 3 => clear (fD w == 0 && fL w == 0) (.barSet (fA w) (fB w))
  | 4 => clear (fD w == 0 && fL w == 0) (.barBytes (fA w) (fB w))
  | 5 => clear (fD w == 0 && fL w == 0) (.barBind (fA w) (fB w))
  | _ => .error .reservedFunc

/-- R46, major 0x37. -/
noncomputable def decodeFutures (w : BitVec 32) : Except DecodeError Instr :=
  match (fFunc w).toNat with
  | 0 => clear (fB w == 0 && fL w == 0) (.ldf (fD w) (fA w))
  | 1 => clear (fL w == 0) (.stf (fD w) (fA w) (fB w))
  | 2 => clear (fB w == 0 && fL w == 0) (.gjoin (fD w) (fA w))
  | 3 => clear (fB w == 0 && fL w == 0) (.gleave (fD w) (fA w))
  | 4 => clear (fL w == 0) (.sbBind (fD w) (fA w) (fB w))
  | 5 => clear (fD w == 0 && fB w == 0 && fL w == 0) (.sbRet (fA w))
  | _ => .error .reservedFunc

/-- R46, major 0x38. -/
noncomputable def decodeQueues (w : BitVec 32) : Except DecodeError Instr :=
  match (fFunc w).toNat with
  | 0 => clear (fL w == 0) (.qpop (fD w) (fA w) (fB w))
  | 1 => clear (fL w == 0) (.qpush (fD w) (fA w) (fB w))
  | 2 => clear (fA w == 0 && fB w == 0 && fL w == 0) (.schedNext (fD w))
  | _ => .error .reservedFunc

/-- R46, major 0x3A. -/
noncomputable def decodeRemote (w : BitVec 32) : Except DecodeError Instr :=
  match (fFunc w).toNat with
  | 0 => .ok (.put (fD w) (fA w) (fB w) (fL w))
  | 1 => .ok (.get (fD w) (fA w) (fB w) (fL w))
  | 2 => .ok (.radd (fD w) (fA w) (fB w) (fL w))
  | 3 => .ok (.rcas (fD w) (fA w) (fB w) (fL w))
  | _ => .error .reservedFunc

/-- R46, major 0x3B. -/
noncomputable def decodeLease (w : BitVec 32) : Except DecodeError Instr :=
  match (fFunc w).toNat with
  | 0 => clear (fL w == 0) (.lease (fD w) (fA w) (fB w))
  | 1 => clear (fL w == 0) (.lrel (fD w) (fA w) (fB w))
  | 2 => clear (fB w == 0 && fL w == 0) (.lqry (fD w) (fA w))
  | _ => .error .reservedFunc

/-- R46, major 0x3C. -/
noncomputable def decodeTriggers (w : BitVec 32) : Except DecodeError Instr :=
  match (fFunc w).toNat with
  | 0 => clear (fL w == 0) (.trgPost (fD w) (fA w) (fB w))
  | 1 => clear (fL w == 0) (.trgCancel (fD w) (fA w) (fB w))
  | 2 => clear (fL w == 0) (.ctrAdd (fD w) (fA w) (fB w))
  | 3 => clear (fL w == 0) (.ctrWait (fD w) (fA w) (fB w))
  | 4 => clear (fB w == 0 && fL w == 0) (.ctrRd (fD w) (fA w))
  | _ => .error .reservedFunc

/-- R46, major 0x3D. -/
noncomputable def decodeCollective (w : BitVec 32) (p : Block) : Except DecodeError Instr :=
  match (fFunc w).toNat with
  | 0 => .ok (.coll (fD w) (fA w) (fB w) (fL w) p)
  | 1 => clear (fL w == 0) (.grpSt (fD w) (fA w) (fB w))
  | 2 => clear (fL w == 0) (.grpLd (fD w) (fA w) (fB w))
  | _ => .error .reservedFunc

/-- R44–R46: a 32-bit word with its literal word and its parameter block (zero where it has none). -/
noncomputable def decodeWord (w e : BitVec 32) (p : Block) : Except DecodeError Instr :=
  match fMajor w with
  | 0 => decodeAlu w
  | 1 => decodeAddi w
  | 2 => decodeAndi w
  | 3 => decodeOri w
  | 4 => decodeXori w
  | 5 => decodeShiftImm w
  | 6 => decodeCmpImm w
  | 7 => decodeLit w e
  | 8 => decodeSel w
  | 9 => decodeSkip w
  | 10 => decodeLea w
  | 16 => decodeBranch w
  | 17 => decodeBranchZero w
  | 18 => decodeJ w
  | 19 => decodeCall8 w
  | 20 => decodeCall16 w
  | 21 => decodeJump w
  | 22 => decodeLoop w
  | 24 => decodeLoad w
  | 25 => decodeStore w
  | 26 => decodeIndexed w
  | 27 => decodeGroup w
  | 28 => decodeAmo w
  | 29 => decodeFence w
  | 30 => decodeCache w
  | 31 => decodeSc w
  | 32 => decodeSystem w
  | 33 => decodeStateReg w
  | 34 => decodeWindow w
  | 35 => decodeTags w
  | 36 => decodeChannels w
  | 37 => decodeGang w
  | 38 => decodeRng w
  | 40 => decodeVecFp w
  | 41 => decodeVecInt w
  | 42 => decodeVecSpecial w
  | 43 => decodeVecMove w
  | 44 => decodeVecControl w
  | 45 => decodeKeyed w
  | 48 => decodeMma w p
  | 49 => decodeMepi w p
  | 50 => decodeMatrixGroup w p
  | 52 => decodeLaunch w
  | 53 => decodeJoin w
  | 54 => decodeBarrier w
  | 55 => decodeFutures w
  | 56 => decodeQueues w
  | 58 => decodeRemote w
  | 59 => decodeLease w
  | 60 => decodeTriggers w
  | 61 => decodeCollective w p
  | _ => .error .reservedMajor

/-- R37–R40: a halfword with bit 0 clear. -/
def decodeHalf (h : Half) : Except DecodeError Instr :=
  if h = 0 then .error .reservedMajor else
  match (h.extractLsb' 1 4).toNat, (h.extractLsb' 15 1).toNat with
  | 0, 0 => .ok (.shortMvReg (h.extractLsb' 5 5) (h.extractLsb' 10 5))
  | 0, 1 => .ok (.shortMvImm (h.extractLsb' 5 5) (h.extractLsb' 10 5))
  | 1, 0 => .ok (.shortAddReg (h.extractLsb' 5 5) (h.extractLsb' 10 5))
  | 1, 1 => .ok (.shortAddImm (h.extractLsb' 5 5) (h.extractLsb' 10 5))
  | 2, 0 => .ok (.shortSubReg (h.extractLsb' 5 5) (h.extractLsb' 10 5))
  | 2, 1 => .ok (.shortSubImm (h.extractLsb' 5 5) (h.extractLsb' 10 5))
  | 3, 0 => .ok (.shortAndReg (h.extractLsb' 5 5) (h.extractLsb' 10 5))
  | 3, 1 => .ok (.shortAndImm (h.extractLsb' 5 5) (h.extractLsb' 10 5))
  | 4, 0 => .ok (.shortOrReg (h.extractLsb' 5 5) (h.extractLsb' 10 5))
  | 4, 1 => .ok (.shortOrImm (h.extractLsb' 5 5) (h.extractLsb' 10 5))
  | 5, 0 => .ok (.shortXorReg (h.extractLsb' 5 5) (h.extractLsb' 10 5))
  | 5, 1 => .ok (.shortXorImm (h.extractLsb' 5 5) (h.extractLsb' 10 5))
  | 6, 0 => .ok (.shortShlReg (h.extractLsb' 5 5) (h.extractLsb' 10 5))
  | 6, 1 => .ok (.shortShlImm (h.extractLsb' 5 5) (h.extractLsb' 10 5))
  | 7, 0 => .ok (.shortShrReg (h.extractLsb' 5 5) (h.extractLsb' 10 5))
  | 7, 1 => .ok (.shortShrImm (h.extractLsb' 5 5) (h.extractLsb' 10 5))
  | 8, 0 => .ok (.shortSraReg (h.extractLsb' 5 5) (h.extractLsb' 10 5))
  | 8, 1 => .ok (.shortSraImm (h.extractLsb' 5 5) (h.extractLsb' 10 5))
  | 9, 0 => .ok (.shortMinReg (h.extractLsb' 5 5) (h.extractLsb' 10 5))
  | 9, 1 => .ok (.shortMinImm (h.extractLsb' 5 5) (h.extractLsb' 10 5))
  | 10, 0 => .ok (.shortMaxReg (h.extractLsb' 5 5) (h.extractLsb' 10 5))
  | 10, 1 => .ok (.shortMaxImm (h.extractLsb' 5 5) (h.extractLsb' 10 5))
  | 11, 0 => .ok (.shortSltReg (h.extractLsb' 5 5) (h.extractLsb' 10 5))
  | 11, 1 => .ok (.shortSltImm (h.extractLsb' 5 5) (h.extractLsb' 10 5))
  | 12, 0 => .ok (.shortMulReg (h.extractLsb' 5 5) (h.extractLsb' 10 5))
  | 12, 1 => .ok (.shortMulImm (h.extractLsb' 5 5) (h.extractLsb' 10 5))
  | 13, 0 => .ok (.shortLdReg (h.extractLsb' 5 5) (h.extractLsb' 10 5))
  | 13, 1 => .ok (.shortLdOff (h.extractLsb' 5 5) (h.extractLsb' 10 5))
  | 14, 0 => .ok (.shortStReg (h.extractLsb' 5 5) (h.extractLsb' 10 5))
  | 14, 1 => .ok (.shortStImm (h.extractLsb' 5 5) (h.extractLsb' 10 5))
  | 15, 0 => clear (h.extractLsb' 7 3 == 0) (.skz (h.extractLsb' 10 5) (h.extractLsb' 5 2))
  | 15, 1 => clear (h.extractLsb' 7 3 == 0) (.skzN (h.extractLsb' 10 5) (h.extractLsb' 5 2))
  | _, _ => .error .reservedMajor

/-! ### Framing (R32, R33) -/

/-- R32, R33: the words of one instruction: a halfword, a 32-bit word, a word and its literal word, or a
word and its parameter block. -/
inductive Parcel where
  | half (h : Half)
  | word (w : BitVec 32)
  | lit (w e : BitVec 32)
  | block (w : BitVec 32) (p : Block)
  deriving DecidableEq, Repr

/-- R33: total length in bytes. -/
def Parcel.length : Parcel → Nat
  | .half _ => 2
  | .word _ => 4
  | .lit _ _ => 8
  | .block _ _ => 20

/-- R33: bytes of inline words that follow a 32-bit word. -/
def inlineBytes (w : BitVec 32) : Nat :=
  match fMajor w with
  | 0x07 => 4
  | 0x30 => 16
  | 0x31 => 16
  | 0x32 => if fFunc w = 0 then 16 else 0
  | 0x3D => if fFunc w = 0 then 16 else 0
  | _ => 0

/-- Little-endian: the first byte is the least significant. -/
def ofBytes16 (b0 b1 : Byte) : Half := b1 ++ b0
/-- R32: the lower address holds bits [15:0]. -/
def ofBytes32 (b0 b1 b2 b3 : Byte) : BitVec 32 := b3 ++ b2 ++ b1 ++ b0

/-- R56: W0 in P[31:0]. -/
def blockOfWords (w0 w1 w2 w3 : BitVec 32) : Block := w3 ++ w2 ++ w1 ++ w0

/-- R33: a 32-bit word and the bytes after it. -/
def frameWord (w : BitVec 32) (rest : List Byte) : Option Parcel :=
  match inlineBytes w, rest with
  | 0, _ => some (.word w)
  | 4, c0 :: c1 :: c2 :: c3 :: _ => some (.lit w (ofBytes32 c0 c1 c2 c3))
  | 16, c0 :: c1 :: c2 :: c3 :: d0 :: d1 :: d2 :: d3 :: e0 :: e1 :: e2 :: e3 ::
      f0 :: f1 :: f2 :: f3 :: _ =>
    some (.block w (blockOfWords (ofBytes32 c0 c1 c2 c3) (ofBytes32 d0 d1 d2 d3)
      (ofBytes32 e0 e1 e2 e3) (ofBytes32 f0 f1 f2 f3)))
  | _, _ => none

/-- R32, R33: the words at the head of the bytes, if all are there. -/
def frame : List Byte → Option Parcel
  | b0 :: b1 :: rest =>
    if (ofBytes16 b0 b1).extractLsb' 0 1 = 0 then some (.half (ofBytes16 b0 b1)) else
    match rest with
    | b2 :: b3 :: rest => frameWord (ofBytes32 b0 b1 b2 b3) rest
    | _ => none
  | _ => none

/-- R32–R48: what the words of one instruction stand for. -/
noncomputable def decodeParcel : Parcel → Except DecodeError Instr
  | .half h => decodeHalf h
  | .word w => decodeWord w 0 0
  | .lit w e => decodeWord w e 0
  | .block w p => decodeWord w 0 p

/-- R32–R48: the instruction at the head of the bytes and its length in bytes. -/
noncomputable def decode (bs : List Byte) : Except DecodeError (Instr × Nat) :=
  match frame bs with
  | some p =>
    match decodeParcel p with
    | .ok i => .ok (i, p.length)
    | .error e => .error e
  | none => .error .short

/-! ### The encoder, from the same tables -/

/-- The two bytes of a halfword, low byte first. -/
def halfBytes (h : Half) : List Byte := [h.extractLsb' 0 8, h.extractLsb' 8 8]
/-- The four bytes of a word, low byte first. -/
def wordBytes (w : BitVec 32) : List Byte :=
  [w.extractLsb' 0 8, w.extractLsb' 8 8, w.extractLsb' 16 8, w.extractLsb' 24 8]
/-- R56: the four words of a parameter block. -/
def blockBytes (p : Block) : List Byte :=
  wordBytes (p.extractLsb' 0 32) ++ wordBytes (p.extractLsb' 32 32) ++
  wordBytes (p.extractLsb' 64 32) ++ wordBytes (p.extractLsb' 96 32)

/-- R32, R33, R56: an instruction's words in memory. -/
def Parcel.bytes : Parcel → List Byte
  | .half h => halfBytes h
  | .word w => wordBytes w
  | .lit w e => wordBytes w ++ wordBytes e
  | .block w p => wordBytes w ++ blockBytes p

/-- The words of an instruction (R37, R41, R46); an event has no encoding. -/
def encodeParcel : Instr → Option Parcel
  | .shortMvReg d s => some (.half (0#1 ++ s ++ d ++ 0#5))
  | .shortMvImm d i => some (.half (1#1 ++ i ++ d ++ 0#5))
  | .shortAddReg d s => some (.half (0#1 ++ s ++ d ++ 2#5))
  | .shortAddImm d i => some (.half (1#1 ++ i ++ d ++ 2#5))
  | .shortSubReg d s => some (.half (0#1 ++ s ++ d ++ 4#5))
  | .shortSubImm d i => some (.half (1#1 ++ i ++ d ++ 4#5))
  | .shortAndReg d s => some (.half (0#1 ++ s ++ d ++ 6#5))
  | .shortAndImm d i => some (.half (1#1 ++ i ++ d ++ 6#5))
  | .shortOrReg d s => some (.half (0#1 ++ s ++ d ++ 8#5))
  | .shortOrImm d i => some (.half (1#1 ++ i ++ d ++ 8#5))
  | .shortXorReg d s => some (.half (0#1 ++ s ++ d ++ 10#5))
  | .shortXorImm d i => some (.half (1#1 ++ i ++ d ++ 10#5))
  | .shortShlReg d s => some (.half (0#1 ++ s ++ d ++ 12#5))
  | .shortShlImm d i => some (.half (1#1 ++ i ++ d ++ 12#5))
  | .shortShrReg d s => some (.half (0#1 ++ s ++ d ++ 14#5))
  | .shortShrImm d i => some (.half (1#1 ++ i ++ d ++ 14#5))
  | .shortSraReg d s => some (.half (0#1 ++ s ++ d ++ 16#5))
  | .shortSraImm d i => some (.half (1#1 ++ i ++ d ++ 16#5))
  | .shortMinReg d s => some (.half (0#1 ++ s ++ d ++ 18#5))
  | .shortMinImm d i => some (.half (1#1 ++ i ++ d ++ 18#5))
  | .shortMaxReg d s => some (.half (0#1 ++ s ++ d ++ 20#5))
  | .shortMaxImm d i => some (.half (1#1 ++ i ++ d ++ 20#5))
  | .shortSltReg d s => some (.half (0#1 ++ s ++ d ++ 22#5))
  | .shortSltImm d i => some (.half (1#1 ++ i ++ d ++ 22#5))
  | .shortMulReg d s => some (.half (0#1 ++ s ++ d ++ 24#5))
  | .shortMulImm d i => some (.half (1#1 ++ i ++ d ++ 24#5))
  | .shortLdReg d s => some (.half (0#1 ++ s ++ d ++ 26#5))
  | .shortLdOff d i => some (.half (1#1 ++ i ++ d ++ 26#5))
  | .shortStReg d s => some (.half (0#1 ++ s ++ d ++ 28#5))
  | .shortStImm d i => some (.half (1#1 ++ i ++ d ++ 28#5))
  | .skz s n => some (.half (0#1 ++ s ++ 0#3 ++ n ++ 30#5))
  | .skzN s n => some (.half (1#1 ++ s ++ 0#3 ++ n ++ 30#5))
  | .add d a b => some (.word (0#10 ++ b ++ a ++ d ++ 1#7))
  | .sub d a b => some (.word (16#10 ++ b ++ a ++ d ++ 1#7))
  | .and d a b => some (.word (32#10 ++ b ++ a ++ d ++ 1#7))
  | .or d a b => some (.word (48#10 ++ b ++ a ++ d ++ 1#7))
  | .xor d a b => some (.word (64#10 ++ b ++ a ++ d ++ 1#7))
  | .andn d a b => some (.word (80#10 ++ b ++ a ++ d ++ 1#7))
  | .shl d a b => some (.word (96#10 ++ b ++ a ++ d ++ 1#7))
  | .shr d a b => some (.word (112#10 ++ b ++ a ++ d ++ 1#7))
  | .sra d a b => some (.word (128#10 ++ b ++ a ++ d ++ 1#7))
  | .rol d a b => some (.word (144#10 ++ b ++ a ++ d ++ 1#7))
  | .min d a b => some (.word (160#10 ++ b ++ a ++ d ++ 1#7))
  | .max d a b => some (.word (176#10 ++ b ++ a ++ d ++ 1#7))
  | .minu d a b => some (.word (192#10 ++ b ++ a ++ d ++ 1#7))
  | .maxu d a b => some (.word (208#10 ++ b ++ a ++ d ++ 1#7))
  | .slt d a b => some (.word (224#10 ++ b ++ a ++ d ++ 1#7))
  | .sltu d a b => some (.word (240#10 ++ b ++ a ++ d ++ 1#7))
  | .seq d a b => some (.word (256#10 ++ b ++ a ++ d ++ 1#7))
  | .mul d a b => some (.word (272#10 ++ b ++ a ++ d ++ 1#7))
  | .mulh d a b => some (.word (288#10 ++ b ++ a ++ d ++ 1#7))
  | .mulhu d a b => some (.word (304#10 ++ b ++ a ++ d ++ 1#7))
  | .div d a b => some (.word (320#10 ++ b ++ a ++ d ++ 1#7))
  | .divu d a b => some (.word (336#10 ++ b ++ a ++ d ++ 1#7))
  | .rem d a b => some (.word (352#10 ++ b ++ a ++ d ++ 1#7))
  | .remu d a b => some (.word (368#10 ++ b ++ a ++ d ++ 1#7))
  | .clz d a => some (.word (12288#15 ++ a ++ d ++ 1#7))
  | .ctz d a => some (.word (12800#15 ++ a ++ d ++ 1#7))
  | .popc d a => some (.word (13312#15 ++ a ++ d ++ 1#7))
  | .bswap d a => some (.word (13824#15 ++ a ++ d ++ 1#7))
  | .brev d a => some (.word (14336#15 ++ a ++ d ++ 1#7))
  | .sext d a w => some (.word (3712#13 ++ w ++ a ++ d ++ 1#7))
  | .zext d a w => some (.word (3840#13 ++ w ++ a ++ d ++ 1#7))
  | .addi d a i => some (.word (i ++ a ++ d ++ 3#7))
  | .andi d a i => some (.word (i ++ a ++ d ++ 5#7))
  | .ori d a i => some (.word (i ++ a ++ d ++ 7#7))
  | .xori d a i => some (.word (i ++ a ++ d ++ 9#7))
  | .shli d a n => some (.word (0#9 ++ n ++ a ++ d ++ 11#7))
  | .shri d a n => some (.word (64#9 ++ n ++ a ++ d ++ 11#7))
  | .srai d a n => some (.word (128#9 ++ n ++ a ++ d ++ 11#7))
  | .roli d a n => some (.word (192#9 ++ n ++ a ++ d ++ 11#7))
  | .slti d a k => some (.word (0#2 ++ k ++ a ++ d ++ 13#7))
  | .sltui d a k => some (.word (1#2 ++ k ++ a ++ d ++ 13#7))
  | .seqi d a k => some (.word (2#2 ++ k ++ a ++ d ++ 13#7))
  | .lit d e => some (.lit (0#20 ++ d ++ 15#7) e)
  | .litZ d e => some (.lit (16384#20 ++ d ++ 15#7) e)
  | .litH d e => some (.lit (32768#20 ++ d ++ 15#7) e)
  | .sel d a b c => some (.word (0#1 ++ c ++ 0#4 ++ b ++ a ++ d ++ 17#7))
  | .selN d a b c => some (.word (1#1 ++ c ++ 0#4 ++ b ++ a ++ d ++ 17#7))
  | .skipEq a b n => some (.word (0#10 ++ b ++ a ++ 0#3 ++ n ++ 19#7))
  | .skipNe a b n => some (.word (16#10 ++ b ++ a ++ 0#3 ++ n ++ 19#7))
  | .skipLt a b n => some (.word (32#10 ++ b ++ a ++ 0#3 ++ n ++ 19#7))
  | .skipGe a b n => some (.word (48#10 ++ b ++ a ++ 0#3 ++ n ++ 19#7))
  | .skipLtu a b n => some (.word (64#10 ++ b ++ a ++ 0#3 ++ n ++ 19#7))
  | .skipGeu a b n => some (.word (80#10 ++ b ++ a ++ 0#3 ++ n ++ 19#7))
  | .lea d s a b => some (.word (0#4 ++ s ++ 0#4 ++ b ++ a ++ d ++ 21#7))
  | .leaPc d i => some (.word (32#6 ++ i ++ d ++ 21#7))
  | .bEq a b i => some (.word (i ++ 0#3 ++ a ++ b ++ 33#7))
  | .bNe a b i => some (.word (i ++ 1#3 ++ a ++ b ++ 33#7))
  | .bLt a b i => some (.word (i ++ 2#3 ++ a ++ b ++ 33#7))
  | .bGe a b i => some (.word (i ++ 3#3 ++ a ++ b ++ 33#7))
  | .bLtu a b i => some (.word (i ++ 4#3 ++ a ++ b ++ 33#7))
  | .bGeu a b i => some (.word (i ++ 5#3 ++ a ++ b ++ 33#7))
  | .bz a i => some (.word (i ++ a ++ 35#12))
  | .bnz a i => some (.word (i ++ a ++ 163#12))
  | .j i => some (.word (i ++ 37#7))
  | .call8 i => some (.word (i ++ 39#7))
  | .call16 i => some (.word (i ++ 41#7))
  | .jr a => some (.word (0#15 ++ a ++ 43#12))
  | .callr8 a => some (.word (512#15 ++ a ++ 43#12))
  | .callr16 a => some (.word (1024#15 ++ a ++ 43#12))
  | .ret => some (.word (201326635#32))
  | .loop a i => some (.word (i ++ a ++ 45#12))
  | .ldB d a o L => some (.word (o ++ 0#3 ++ L ++ a ++ d ++ 49#7))
  | .ldH d a o L => some (.word (o ++ 1#3 ++ L ++ a ++ d ++ 49#7))
  | .ldW d a o L => some (.word (o ++ 2#3 ++ L ++ a ++ d ++ 49#7))
  | .ldD d a o L => some (.word (o ++ 3#3 ++ L ++ a ++ d ++ 49#7))
  | .ldBu d a o L => some (.word (o ++ 4#3 ++ L ++ a ++ d ++ 49#7))
  | .ldHu d a o L => some (.word (o ++ 5#3 ++ L ++ a ++ d ++ 49#7))
  | .ldWu d a o L => some (.word (o ++ 6#3 ++ L ++ a ++ d ++ 49#7))
  | .stB d a o L => some (.word (o ++ 0#3 ++ L ++ a ++ d ++ 51#7))
  | .stH d a o L => some (.word (o ++ 1#3 ++ L ++ a ++ d ++ 51#7))
  | .stW d a o L => some (.word (o ++ 2#3 ++ L ++ a ++ d ++ 51#7))
  | .stD d a o L => some (.word (o ++ 3#3 ++ L ++ a ++ d ++ 51#7))
  | .ldx d s a b z L => some (.word (0#1 ++ z ++ s ++ L ++ b ++ a ++ d ++ 53#7))
  | .stx d s a b z L => some (.word (1#1 ++ z ++ s ++ L ++ b ++ a ++ d ++ 53#7))
  | .ldp d a o L => some (.word (o ++ 0#3 ++ L ++ a ++ d ++ 55#7))
  | .ldq d a o L => some (.word (o ++ 1#3 ++ L ++ a ++ d ++ 55#7))
  | .stp d a o L => some (.word (o ++ 2#3 ++ L ++ a ++ d ++ 55#7))
  | .stq d a o L => some (.word (o ++ 3#3 ++ L ++ a ++ d ++ 55#7))
  | .amoSwap d s a b z o => some (.word (0#4 ++ s ++ o ++ z ++ b ++ a ++ d ++ 57#7))
  | .amoAdd d s a b z o => some (.word (1#4 ++ s ++ o ++ z ++ b ++ a ++ d ++ 57#7))
  | .amoAnd d s a b z o => some (.word (2#4 ++ s ++ o ++ z ++ b ++ a ++ d ++ 57#7))
  | .amoOr d s a b z o => some (.word (3#4 ++ s ++ o ++ z ++ b ++ a ++ d ++ 57#7))
  | .amoXor d s a b z o => some (.word (4#4 ++ s ++ o ++ z ++ b ++ a ++ d ++ 57#7))
  | .amoMin d s a b z o => some (.word (5#4 ++ s ++ o ++ z ++ b ++ a ++ d ++ 57#7))
  | .amoMax d s a b z o => some (.word (6#4 ++ s ++ o ++ z ++ b ++ a ++ d ++ 57#7))
  | .amoMinu d s a b z o => some (.word (7#4 ++ s ++ o ++ z ++ b ++ a ++ d ++ 57#7))
  | .amoMaxu d s a b z o => some (.word (8#4 ++ s ++ o ++ z ++ b ++ a ++ d ++ 57#7))
  | .amoCas d s a b z o => some (.word (9#4 ++ s ++ o ++ z ++ b ++ a ++ d ++ 57#7))
  | .fence s o => some (.word (0#1 ++ o ++ s ++ 59#26))
  | .qfence a b => some (.word (512#10 ++ b ++ a ++ 59#12))
  | .pfL2 a L => some (.word (0#6 ++ L ++ 0#5 ++ a ++ 61#12))
  | .pfRdc a L => some (.word (1#6 ++ L ++ 0#5 ++ a ++ 61#12))
  | .cln a L => some (.word (2#6 ++ L ++ 0#5 ++ a ++ 61#12))
  | .inv a L => some (.word (3#6 ++ L ++ 0#5 ++ a ++ 61#12))
  | .flush a L => some (.word (4#6 ++ L ++ 0#5 ++ a ++ 61#12))
  | .zln a L => some (.word (5#6 ++ L ++ 0#5 ++ a ++ 61#12))
  | .ldScW d a o L => some (.word (o ++ 0#3 ++ L ++ a ++ d ++ 63#7))
  | .ldScD d a o L => some (.word (o ++ 1#3 ++ L ++ a ++ d ++ 63#7))
  | .stScW d a o L => some (.word (o ++ 2#3 ++ L ++ a ++ d ++ 63#7))
  | .stScD d a o L => some (.word (o ++ 3#3 ++ L ++ a ++ d ++ 63#7))
  | .nop => some (.word (65#32))
  | .trap d n => some (.word (16#10 ++ n ++ d ++ 65#7))
  | .rte => some (.word (134217793#32))
  | .done => some (.word (201326657#32))
  | .yield => some (.word (268435521#32))
  | .mfs d x => some (.word (0#3 ++ x ++ 0#5 ++ d ++ 67#7))
  | .mts a x => some (.word (1#3 ++ x ++ a ++ 67#12))
  | .wspill => some (.word (69#32))
  | .wfill => some (.word (67108933#32))
  | .wstat d => some (.word (32768#20 ++ d ++ 69#7))
  | .twany d a => some (.word (0#15 ++ a ++ d ++ 71#7))
  | .twall d a => some (.word (512#15 ++ a ++ d ++ 71#7))
  | .tffr d a => some (.word (1024#15 ++ a ++ d ++ 71#7))
  | .tclr a => some (.word (1536#15 ++ a ++ 71#12))
  | .chsnd a b => some (.word (0#10 ++ b ++ a ++ 73#12))
  | .chrcv d a => some (.word (512#15 ++ a ++ d ++ 73#7))
  | .chtry d a b => some (.word (32#10 ++ b ++ a ++ d ++ 73#7))
  | .gang2 => some (.word (75#32))
  | .gang4 => some (.word (67108939#32))
  | .gang8 => some (.word (134217803#32))
  | .disband => some (.word (201326667#32))
  | .rng d => some (.word (0#20 ++ d ++ 77#7))
  | .vaddFp d a b t L => some (.word (0#4 ++ t ++ L ++ b ++ a ++ d ++ 81#7))
  | .vsubFp d a b t L => some (.word (1#4 ++ t ++ L ++ b ++ a ++ d ++ 81#7))
  | .vmulFp d a b t L => some (.word (2#4 ++ t ++ L ++ b ++ a ++ d ++ 81#7))
  | .vfma d a b t L => some (.word (3#4 ++ t ++ L ++ b ++ a ++ d ++ 81#7))
  | .vfms d a b t L => some (.word (4#4 ++ t ++ L ++ b ++ a ++ d ++ 81#7))
  | .vminFp d a b t L => some (.word (5#4 ++ t ++ L ++ b ++ a ++ d ++ 81#7))
  | .vmaxFp d a b t L => some (.word (6#4 ++ t ++ L ++ b ++ a ++ d ++ 81#7))
  | .vabs a b t L => some (.word (7#4 ++ t ++ L ++ b ++ a ++ 81#12))
  | .vneg a b t L => some (.word (8#4 ++ t ++ L ++ b ++ a ++ 81#12))
  | .vceqFp d a b t L => some (.word (9#4 ++ t ++ L ++ b ++ a ++ d ++ 81#7))
  | .vcltFp d a b t L => some (.word (10#4 ++ t ++ L ++ b ++ a ++ d ++ 81#7))
  | .vcle d a b t L => some (.word (11#4 ++ t ++ L ++ b ++ a ++ d ++ 81#7))
  | .vsum a b t L => some (.word (12#4 ++ t ++ L ++ b ++ a ++ 81#12))
  | .vmaxr a b t L => some (.word (13#4 ++ t ++ L ++ b ++ a ++ 81#12))
  | .vscale d a b t L => some (.word (14#4 ++ t ++ L ++ b ++ a ++ d ++ 81#7))
  | .vaddInt d a b w L => some (.word (0#4 ++ w ++ L ++ b ++ a ++ d ++ 83#7))
  | .vsubInt d a b w L => some (.word (1#4 ++ w ++ L ++ b ++ a ++ d ++ 83#7))
  | .vmulInt d a b w L => some (.word (2#4 ++ w ++ L ++ b ++ a ++ d ++ 83#7))
  | .vminInt d a b w L => some (.word (3#4 ++ w ++ L ++ b ++ a ++ d ++ 83#7))
  | .vmaxInt d a b w L => some (.word (4#4 ++ w ++ L ++ b ++ a ++ d ++ 83#7))
  | .vminu d a b w L => some (.word (5#4 ++ w ++ L ++ b ++ a ++ d ++ 83#7))
  | .vmaxu d a b w L => some (.word (6#4 ++ w ++ L ++ b ++ a ++ d ++ 83#7))
  | .vand d a b w L => some (.word (7#4 ++ w ++ L ++ b ++ a ++ d ++ 83#7))
  | .vor d a b w L => some (.word (8#4 ++ w ++ L ++ b ++ a ++ d ++ 83#7))
  | .vxor d a b w L => some (.word (9#4 ++ w ++ L ++ b ++ a ++ d ++ 83#7))
  | .vshl d a b w L => some (.word (10#4 ++ w ++ L ++ b ++ a ++ d ++ 83#7))
  | .vshr d a b w L => some (.word (11#4 ++ w ++ L ++ b ++ a ++ d ++ 83#7))
  | .vsra d a b w L => some (.word (12#4 ++ w ++ L ++ b ++ a ++ d ++ 83#7))
  | .vceqInt d a b w L => some (.word (13#4 ++ w ++ L ++ b ++ a ++ d ++ 83#7))
  | .vcltInt d a b w L => some (.word (14#4 ++ w ++ L ++ b ++ a ++ d ++ 83#7))
  | .vcltu d a b w L => some (.word (15#4 ++ w ++ L ++ b ++ a ++ d ++ 83#7))
  | .vrcp a b t L => some (.word (0#4 ++ t ++ L ++ b ++ a ++ 85#12))
  | .vrsqrt a b t L => some (.word (1#4 ++ t ++ L ++ b ++ a ++ 85#12))
  | .vsqrt a b t L => some (.word (2#4 ++ t ++ L ++ b ++ a ++ 85#12))
  | .vexp2 a b t L => some (.word (3#4 ++ t ++ L ++ b ++ a ++ 85#12))
  | .vlog2 a b t L => some (.word (4#4 ++ t ++ L ++ b ++ a ++ 85#12))
  | .vtanh a b t L => some (.word (5#4 ++ t ++ L ++ b ++ a ++ 85#12))
  | .vsigm a b t L => some (.word (6#4 ++ t ++ L ++ b ++ a ++ 85#12))
  | .vgelu a b t L => some (.word (7#4 ++ t ++ L ++ b ++ a ++ 85#12))
  | .vsilu a b t L => some (.word (8#4 ++ t ++ L ++ b ++ a ++ 85#12))
  | .vdiv d a b t L => some (.word (9#4 ++ t ++ L ++ b ++ a ++ d ++ 85#7))
  | .vmov d a b L => some (.word (0#6 ++ L ++ b ++ a ++ d ++ 87#7))
  | .vbcast a b L => some (.word (1#6 ++ L ++ b ++ a ++ 87#12))
  | .vgath a b L => some (.word (2#6 ++ L ++ b ++ a ++ 87#12))
  | .vscat a b L => some (.word (3#6 ++ L ++ b ++ a ++ 87#12))
  | .vcomp a b L => some (.word (4#6 ++ L ++ b ++ a ++ 87#12))
  | .vexpd a b L => some (.word (5#6 ++ L ++ b ++ a ++ 87#12))
  | .vscan a b L => some (.word (6#6 ++ L ++ b ++ a ++ 87#12))
  | .vrev a b L => some (.word (7#6 ++ L ++ b ++ a ++ 87#12))
  | .vcmx d a b L => some (.word (8#6 ++ L ++ b ++ a ++ d ++ 87#7))
  | .vmrg a b L => some (.word (9#6 ++ L ++ b ++ a ++ 87#12))
  | .vbton a b L => some (.word (10#6 ++ L ++ b ++ a ++ 87#12))
  | .vrank a b L => some (.word (11#6 ++ L ++ b ++ a ++ 87#12))
  | .vcvt s a b f L => some (.word (7#3 ++ f ++ L ++ b ++ a ++ 0#2 ++ s ++ 87#7))
  | .vcur a b n => some (.word (0#10 ++ b ++ a ++ 0#2 ++ n ++ 89#7))
  | .vfence a => some (.word (512#15 ++ a ++ 89#12))
  | .vstat d a => some (.word (1024#15 ++ a ++ d ++ 89#7))
  | .ksend d a b L => some (.word (0#6 ++ L ++ b ++ a ++ d ++ 91#7))
  | .racc d a L => some (.word (1#6 ++ L ++ 0#5 ++ a ++ d ++ 91#7))
  | .mma L p => some (.block (0#6 ++ L ++ 97#22) p)
  | .mepi a L p => some (.block (0#6 ++ L ++ 0#5 ++ a ++ 99#12) p)
  | .mldb a L p => some (.block (0#6 ++ L ++ 0#5 ++ a ++ 101#12) p)
  | .mzero b L => some (.word (1#6 ++ L ++ b ++ 101#17))
  | .msave a b L => some (.word (2#6 ++ L ++ b ++ a ++ 101#12))
  | .mrest a b L => some (.word (3#6 ++ L ++ b ++ a ++ 101#12))
  | .mwait a => some (.word (2048#15 ++ a ++ 101#12))
  | .lpatch d a b => some (.word (0#10 ++ b ++ a ++ d ++ 105#7))
  | .spawn d a => some (.word (512#15 ++ a ++ d ++ 105#7))
  | .spawnc d a => some (.word (1024#15 ++ a ++ d ++ 105#7))
  | .jsig d a b => some (.word (0#10 ++ b ++ a ++ d ++ 107#7))
  | .jwait a b => some (.word (16#10 ++ b ++ a ++ 107#12))
  | .barArr d a => some (.word (0#15 ++ a ++ d ++ 109#7))
  | .barWait a b => some (.word (16#10 ++ b ++ a ++ 109#12))
  | .barT1 a b => some (.word (32#10 ++ b ++ a ++ 109#12))
  | .barSet a b => some (.word (48#10 ++ b ++ a ++ 109#12))
  | .barBytes a b => some (.word (64#10 ++ b ++ a ++ 109#12))
  | .barBind a b => some (.word (80#10 ++ b ++ a ++ 109#12))
  | .ldf d a => some (.word (0#15 ++ a ++ d ++ 111#7))
  | .stf d a b => some (.word (16#10 ++ b ++ a ++ d ++ 111#7))
  | .gjoin d a => some (.word (1024#15 ++ a ++ d ++ 111#7))
  | .gleave d a => some (.word (1536#15 ++ a ++ d ++ 111#7))
  | .sbBind d a b => some (.word (64#10 ++ b ++ a ++ d ++ 111#7))
  | .sbRet a => some (.word (2560#15 ++ a ++ 111#12))
  | .qpop d a b => some (.word (0#10 ++ b ++ a ++ d ++ 113#7))
  | .qpush d a b => some (.word (16#10 ++ b ++ a ++ d ++ 113#7))
  | .schedNext d => some (.word (32768#20 ++ d ++ 113#7))
  | .put d a b L => some (.word (0#6 ++ L ++ b ++ a ++ d ++ 117#7))
  | .get d a b L => some (.word (1#6 ++ L ++ b ++ a ++ d ++ 117#7))
  | .radd d a b L => some (.word (2#6 ++ L ++ b ++ a ++ d ++ 117#7))
  | .rcas d a b L => some (.word (3#6 ++ L ++ b ++ a ++ d ++ 117#7))
  | .lease d a b => some (.word (0#10 ++ b ++ a ++ d ++ 119#7))
  | .lrel d a b => some (.word (16#10 ++ b ++ a ++ d ++ 119#7))
  | .lqry d a => some (.word (1024#15 ++ a ++ d ++ 119#7))
  | .trgPost d a b => some (.word (0#10 ++ b ++ a ++ d ++ 121#7))
  | .trgCancel d a b => some (.word (16#10 ++ b ++ a ++ d ++ 121#7))
  | .ctrAdd d a b => some (.word (32#10 ++ b ++ a ++ d ++ 121#7))
  | .ctrWait d a b => some (.word (48#10 ++ b ++ a ++ d ++ 121#7))
  | .ctrRd d a => some (.word (2048#15 ++ a ++ d ++ 121#7))
  | .coll d a b L p => some (.block (0#6 ++ L ++ b ++ a ++ d ++ 123#7) p)
  | .grpSt d a b => some (.word (16#10 ++ b ++ a ++ d ++ 123#7))
  | .grpLd d a b => some (.word (32#10 ++ b ++ a ++ d ++ 123#7))
  | .suppressedInstruction => none
  | .deferredTrap _ _ => none
  | .gangAbort _ _ => none
  | .gangFormation _ _ => none
  | .gangRowBarrierJoin _ _ => none
  | .homeAccess _ => none
  | .remoteScratchAccess _ => none
  | .loadDataReturn _ => none
  | .storeAcknowledgement _ => none
  | .errorResponse _ => none
  | .scratchFrameRefill _ _ => none
  | .accRegionRefill _ _ => none
  | .serviceReply _ _ => none
  | .pageWalk _ _ => none
  | .scWindowDelivery _ => none
  | .vectorCommandStart _ => none
  | .vectorCommandComplete _ => none
  | .ksendRecordApply _ => none
  | .matrixEntryStart _ => none
  | .matrixEntryComplete _ => none
  | .dispatch _ => none
  | .dispatchComplete _ _ => none
  | .routingDecision _ => none
  | .forwardArrival _ => none
  | .forwardAcceptance _ => none
  | .forwardRefusal _ => none
  | .taskAging _ _ => none
  | .epochBoundary => none
  | .gradientAdvertSend => none
  | .advertTimeout _ _ => none
  | .visitorOutcomeUnknown _ => none
  | .jwaitTimeout _ _ => none
  | .queueWaitTimeout _ _ => none
  | .rootlArm _ _ _ => none
  | .rootlPlace _ _ _ => none
  | .slotcmdFree _ _ _ => none
  | .joinCountStore _ _ _ _ => none
  | .futureEmpty _ _ _ => none
  | .sbctlClear _ _ => none
  | .preemptSave _ _ _ => none
  | .preemptSaveComplete _ => none
  | .preemptRestore _ _ _ => none
  | .sctxWrite _ _ _ => none
  | .btStart _ _ _ _ _ => none
  | .copyRowPerformed _ _ => none
  | .copyComplete _ _ => none
  | .copyFail _ _ => none
  | .streamerPost _ _ _ => none
  | .streamerRow _ => none
  | .streamerComplete _ => none
  | .queueSubscribe _ _ _ _ => none
  | .queueUnsubscribe _ _ _ _ => none
  | .pumpLoadTile _ _ => none
  | .pumpStoreTile _ _ => none
  | .tlbInvalidate _ _ _ => none
  | .tlbInvalidateDone _ => none
  | .dieFence _ _ => none
  | .heartbeatTimeout _ => none
  | .fenceResponse _ => none
  | .coreIsolate _ => none
  | .spareSubstitute _ => none
  | .formatWindowEnable _ _ _ _ => none
  | .formatWindowDisable _ _ _ _ => none
  | .registerWrite _ _ _ => none
  | .hostMemoryAccess _ _ _ _ _ => none
  | .partitionCreate _ _ _ => none
  | .partitionDestroy _ _ _ => none
  | .partitionScrubDone _ => none
  | .lockInterfaceRequest _ => none
  | .startInterfaceRequest _ => none
  | .stopInterfaceRequest _ => none
  | .getTdispVersion _ => none
  | .getTdispCapabilities _ => none
  | .getDeviceInterfaceReport _ => none
  | .getDeviceInterfaceState _ => none
  | .ideIntegrityFailure _ => none
  | .functionLevelReset _ => none
  | .spdmCert _ => none
  | .spdmChal _ => none
  | .spdmMeas _ => none
  | .spdmKeyEx _ => none
  | .partitionPairing _ _ _ => none
  | .perstDeassert => none
  | .fwgo _ => none
  | .bootInitComplete _ => none
  | .dieReset _ => none
  | .powerStateCommand _ _ _ => none
  | .powerTransitionDone _ => none
  | .thermalSample _ _ => none
  | .thermTrip => none
  | .gtimeLoad _ _ => none
  | .laneRepair _ => none
  | .dieLinkDown _ => none
  | .cxlPortDown _ => none
  | .mfreePush _ _ _ => none
  | .portEnable _ _ _ => none
  | .portDisable _ _ _ => none
  | .laserFeedFailure _ => none
  | .lossOfLight _ _ => none
  | .lightRestored _ => none
  | .wavelengthLock _ _ => none
  | .trainingTimeout _ _ => none
  | .wavelengthDrained _ _ => none
  | .laneRequestTimeout => none
  | .regionRegister _ _ _ => none
  | .regionRevoke _ _ _ => none
  | .regionRevokeDone _ => none
  | .pageMigration _ _ => none
  | .pageMigrationDone _ _ _ => none
  | .contextFetchComplete _ _ => none
  | .fabricSend _ _ => none
  | .ackTimer _ _ => none
  | .nakGapTimeout _ _ => none
  | .goBackTimeout _ _ => none
  | .remoteOpComplete _ => none
  | .putFlit _ => none
  | .getq _ => none
  | .getr _ => none
  | .raddFlit _ => none
  | .rcasFlit _ => none
  | .atr _ => none
  | .fadd _ => none
  | .pld _ => none
  | .pst _ => none
  | .errFlit _ => none
  | .vis _ => none
  | .trgCounterAdd _ => none
  | .trgSmallContribution _ => none
  | .trgSmallResult _ => none
  | .trgBulkChunkUp _ => none
  | .trgBulkChunkDown _ => none
  | .trgAbortRequest _ => none
  | .trgAbortDecision _ => none
  | .trgDescriptorCheck _ => none
  | .ack _ => none
  | .nak _ => none
  | .pause _ => none
  | .lctlLaneRequest _ => none
  | .lctlGrant _ => none
  | .lctlRevocation _ => none
  | .lctlLossNotice _ => none
  | .sync _ => none
  | .timeSync => none
  | .timeSyncLost => none
  | .adv _ => none
  | .counterAddStore _ _ _ => none
  | .counterSet _ _ _ => none
  | .triggerEntryComplete _ => none
  | .groupContributionStore _ _ _ => none
  | .undefinedEncoding _ _ => none
  | .softError _ _ => none
  | .linkUp _ => none
  | .hostLinkUp => none
  | .preemptRestoreComplete _ => none
  | .visitorStateChange _ _ _ _ => none
  | .msixEventSignal _ => none

/-- The bytes of an instruction, none for an event. -/
def encode (i : Instr) : List Byte :=
  match encodeParcel i with
  | some p => p.bytes
  | none => []

/-- The `n` low bytes of `w`, low byte first. -/
def natBytes : Nat → Nat → List Byte
  | 0, _ => []
  | n + 1, w => BitVec.ofNat 8 w :: natBytes n (w / 256)

/-- The decoder on an instruction word numbered as the opcode table numbers its bits, followed by zeros
up to the longest instruction (20 bytes, R33). -/
noncomputable def decodeTableWord (nbits w : Nat) : Option Instr :=
  match decode (natBytes 20 (w % 2 ^ nbits)) with
  | .ok (i, _) => some i
  | .error _ => none

end Sys2Proof
end

