-- ==== Sys2Proof/Config.lean ====
section
/-! DEFINITION. What the spec leaves open: free values with no body, which nothing can evaluate or prove a
value of, and the fixed facts of an implementation that no rule gives. -/

namespace Sys2Proof.Config

/-- Log 2: the n-th free value a run takes, wherever the spec says a value results and not which one. -/
opaque freeValue : Nat → BitVec 64

/-- Log 3: the correctly rounded result of a special function (first argument, R191) at a code, where the
model's interval arithmetic does not decide the rounding; formats, TCM, rounding mode and random word follow. -/
opaque special : Nat → Nat → Bool → Nat → Nat → Nat → BitVec 32

/-- Log 4: SHA3-512 (R361, R367), which the spec names and does not define. -/
opaque sha3 : List Byte → List Byte
/-- Log 4: whether a signature of ML-DSA-87 (R361, R367) by a public key (first argument) over a message is valid. -/
opaque signed : List Byte → List Byte → List Byte → Bool
/-- Log 4: what the fuses hold (R361, R367): the digest of the public key of images, and the minimum security version. -/
opaque fusedKey : List Byte
opaque fusedVersion : Nat

/-- Log 4: the build number of an image and the firmware-defined service numbers of its service table; the
spec gives neither a layout (R368). -/
opaque imageBuild : List Byte → BitVec 32
opaque imageServices : List Byte → List Nat

/-- Log 4: the bytes of an SPDM reply (R361, R362) by kind, index, nonce and what it binds or measures. -/
opaque spdmReply : Nat → Nat → Nat → List Byte → List Byte

/-- Log 4: AES-256-GCM (R385): the payload encrypted (or decrypted) and the tag, by key, IV, additional data and payload. -/
opaque gcmText : BitVec 256 → Nat → List Byte → List Byte → List Byte
opaque gcmTag : BitVec 256 → Nat → List Byte → List Byte → BitVec 96
/-- Log 4: an exchange of two packages (R386), by its number: whether the peer's identity passes the check, and the link key
that it yields from a label and this side's seed. -/
opaque exchangePasses : Nat → Bool
opaque linkKey : Nat → Nat → Nat → BitVec 256

/-- Log 57: the memory device on a CXL port (R355), in blocks of 1 GiB, 0 for none. -/
opaque cxlDevice : Nat → Nat

/-- Log 58: the mean power of a millisecond (R351), by its number, in 0.1 W. -/
opaque power : Nat → BitVec 16

/-- Log 5: the reply of a firmware-defined service (R88, R368), by number, requester, TASKIX and operand. -/
opaque serviceReply : Nat → Nat → BitVec 64 → BitVec 64 → BitVec 64

/-- Log 49: a byte of a second-tier line that is read under another key than it was written under (R358): its address, the
key of the write, the key of the read, and the line as it was written. -/
opaque deciphered : Nat → Nat → Nat → List Byte → Byte

end Sys2Proof.Config
end

