-- ==== Sys2Proof/Machine/Tab.lean ====
section
/-! DEFINITION. Sparse tables keyed by a number, strictly rising, and the byte memory built on them: one
canonical form, so that equal contents are equal data. -/

namespace Sys2Proof.Machine

/-- The first value listed under a key. -/
def lookKey {α : Type} (k : Nat) : List (Nat × α) → Option α
  | [] => none
  | (j, v) :: r => if k = j then some v else lookKey k r

/-- Lists a value under a key, keeping rising keys rising. -/
def putKey {α : Type} (k : Nat) (v : α) : List (Nat × α) → List (Nat × α)
  | [] => [(k, v)]
  | (j, u) :: r =>
    if k < j then (k, v) :: (j, u) :: r
    else if k = j then (k, v) :: r
    else (j, u) :: putKey k v r

/-- Lists nothing under a key. -/
def delKey {α : Type} (k : Nat) : List (Nat × α) → List (Nat × α)
  | [] => []
  | (j, u) :: r => if k = j then delKey k r else (j, u) :: delKey k r

/-- Keys strictly rising. -/
def risingKeys {α : Type} : List (Nat × α) → Bool
  | [] => true
  | [_] => true
  | (j, _) :: (k, v) :: r => decide (j < k) && risingKeys ((k, v) :: r)

/-- A sparse table; what an unlisted key holds is said by the reader of it. -/
structure Tab (α : Type) where
  cells : List (Nat × α) := []
  deriving DecidableEq, Repr

/-- What a key holds, with the value of an unlisted key. -/
def Tab.get {α : Type} (t : Tab α) (dflt : α) (k : Nat) : α := (lookKey k t.cells).getD dflt
/-- What is listed under a key. -/
def Tab.find {α : Type} (t : Tab α) (k : Nat) : Option α := lookKey k t.cells
/-- The table with a value listed under a key. -/
def Tab.put {α : Type} (t : Tab α) (k : Nat) (v : α) : Tab α := ⟨putKey k v t.cells⟩
/-- The table with nothing listed under a key. -/
def Tab.del {α : Type} (t : Tab α) (k : Nat) : Tab α := ⟨delKey k t.cells⟩
/-- The listed keys. -/
def Tab.keys {α : Type} (t : Tab α) : List Nat := t.cells.map Prod.fst
/-- A table that lists nothing. -/
def Tab.empty {α : Type} : Tab α := ⟨[]⟩

/-- Every listed value changed in place. -/
def Tab.each {α : Type} (t : Tab α) (f : Nat → α → α) : Tab α := ⟨t.cells.map (fun c => (c.1, f c.1 c.2))⟩
/-- The table with the keys that satisfy a test. -/
def Tab.only {α : Type} (t : Tab α) (p : Nat → Bool) : Tab α := ⟨t.cells.filter (fun c => p c.1)⟩

/-- Bytes by address in one canonical form: rising addresses, no entry equal to what an unlisted address
reads as. -/
structure Memory where
  cells : List Host.Cell := []
  deriving DecidableEq, Repr

/-- What a byte that nothing has written reads as: zero, for the spec gives no contents of memory at reset (DESIGN
CHOICE, log 1). -/
def Memory.unlisted : Byte := 0

/-- One byte. -/
def Memory.read (m : Memory) (a : Nat) : Byte := (lookKey a m.cells).getD Memory.unlisted

/-- Writes one byte, keeping the canonical form. -/
def Memory.write (m : Memory) (a : Nat) (b : Byte) : Memory :=
  if b = Memory.unlisted then ⟨delKey a m.cells⟩ else ⟨putKey a b m.cells⟩

/-- The canonical form. -/
def Memory.wf (m : Memory) : Bool :=
  risingKeys m.cells && m.cells.all (fun c => c.2 ≠ Memory.unlisted)

/-- `n` bytes at rising addresses. -/
def Memory.readBytes (m : Memory) (a : Nat) : Nat → List Byte
  | 0 => []
  | n + 1 => m.read a :: m.readBytes (a + 1) n

/-- Writes bytes at rising addresses. -/
def Memory.writeBytes (m : Memory) (a : Nat) : List Byte → Memory
  | [] => m
  | b :: r => (m.write a b).writeBytes (a + 1) r

/-- R98, R105: a little-endian number. -/
def leNat : List Byte → Nat
  | [] => 0
  | b :: r => b.toNat + 256 * leNat r

/-- The `n` low bytes of a number, least significant first. -/
def leBytes : Nat → Nat → List Byte
  | 0, _ => []
  | n + 1, w => BitVec.ofNat 8 w :: leBytes n (w / 256)

/-- `n` bytes read as one little-endian number. -/
def Memory.readNat (m : Memory) (a n : Nat) : Nat := leNat (m.readBytes a n)

/-- Writes the low `n` bytes of a number, little-endian. -/
def Memory.writeNat (m : Memory) (a n v : Nat) : Memory := m.writeBytes a (leBytes n v)

/-- The listed bytes of `[a, a + n)`, moved to start at `b`. -/
def shiftCells (a b n : Nat) (cs : List Host.Cell) : List Host.Cell :=
  (cs.filter (fun c => a ≤ c.1 && c.1 < a + n)).map (fun c => (c.1 - a + b, c.2))

/-- Copies `n` bytes from `src` at `a` over `dst` at `b`, all read before any is written. -/
def Memory.blit (src : Memory) (a : Nat) (dst : Memory) (b n : Nat) : Memory :=
  ⟨dst.cells.filter (fun c => c.1 < b) ++ shiftCells a b n src.cells ++
    dst.cells.filter (fun c => b + n ≤ c.1)⟩

/-- Zeroes `n` bytes. -/
def Memory.zero (m : Memory) (a n : Nat) : Memory :=
  ⟨m.cells.filter (fun c => c.1 < a || a + n ≤ c.1)⟩

end Sys2Proof.Machine
end

