-- ==== Sys2Proof/Machine/State.lean ====
section
/-! DEFINITION. The state of one package as plain data: threads, cores, clusters, dies, Selvedge, memory,
and what is in flight between them. Every piece that the spec names is here; fields that are the model's own
(the agenda, the free-value counter, the requests in flight as data) say so. -/

namespace Sys2Proof.Machine

/-! ### Why a step can stop -/

/-- A stop of the whole machine. No rule of the spec stops the device; this one is raised for a state of the
model that no run reaches. -/
inductive Fault where
  /-- Raised by `step` for an agenda entry that names a core or slot the package does not have; safe. -/
  | noSuchSlot
  deriving DecidableEq, Repr

/-- An instruction the model gives no meaning. -/
inductive Refusal where
  /-- An instruction that has no meaning in the model yet, by its mnemonic; safe. -/
  | notModelled (mnemonic : String)
  deriving DecidableEq, Repr

/-! ### The thread (R10–R31) -/

/-- R22: what a trap reports. -/
structure Trap where
  code : BitVec 8
  sub : BitVec 8 := 0
  eval : Word := 0
  deriving DecidableEq, Repr

/-- R24: a fault that waits for the next instruction boundary. -/
structure Deferred where
  trap : Trap
  fpc : Word
  /-- Program order of the faulting instruction. -/
  order : Nat
  /-- R89: the instruction issued in handler mode. -/
  handler : Bool := false
  deriving DecidableEq, Repr

/-- R28: the states of a slot; `reserved` is a free slot that a dispatch has taken (R338). -/
inductive Life where
  | free | reserved | ready | parked | suspended | halted
  deriving DecidableEq, Repr

/-- R28, R456: what a parked thread waits for, with the operands it had read. `d` is a physical register
code. -/
inductive Wait where
  /-- R88: the reply of a service request, which carries number, value, TASKIX and COREID with the slot. -/
  | service (n : Nat) (value taskix : Word) (coreid : Nat) (d : Nat)
  | tagAny (mask : Word) (d : Nat)
  | tagAll (mask : Word) (d : Nat)
  | chsnd (core ch : Nat) (narrow : Bool) (value : Word)
  | chrcv (ch : Nat) (d : Nat)
  | gang (g : Nat)
  /-- R215: the row-barrier join of mma (false) or mepi (true). -/
  | rowJoin (epilogue : Bool) (block : Block) (a : Word) (look : Nat)
  /-- R246: `limit` clocks at most, `used` counted so far; `addr` is the counter's address. -/
  | jwait (cluster idx : Nat) (addr : Word) (limit used : Nat)
  | barWait (cluster idx : Nat) (phase : BitVec 32)
  | barT1 (cluster idx : Nat) (bit : Bool)
  | ldf (cluster idx : Nat) (d : Nat)
  | qpop (queue : Nat) (d : Nat) (limit used : Nat)
  | qpush (queue : Nat) (d : Nat) (limit used : Nat)
  /-- R382: a lease request in flight. -/
  | lease (peer : Nat) (d : Nat)
  /-- R430: a contribution not yet recorded. -/
  | grpSt (group : Nat) (value : Word) (d : Nat)
  | grpLd (group : Nat) (round : Word) (d : Nat)
  | ctrWait (ctr : Nat) (bound : Word) (d : Nat)
  deriving DecidableEq, Repr

/-- R117: the engine queue a long-latency instruction belongs to. -/
inductive FlightKind where
  | memory | sc | vector | matrix | fabric | collective
  deriving DecidableEq, Repr

/-- R50–R52: a long-latency instruction that is not complete. -/
structure Flight where
  id : Nat
  kind : FlightKind
  /-- Further instructions it lets issue, none for L = 15. -/
  left : Option Nat
  /-- Physical register codes it still reads and writes. -/
  srcs : List Nat := []
  dests : List Nat := []
  /-- R89: issued in handler mode. -/
  handler : Bool := false
  pc : Word := 0
  order : Nat := 0
  /-- R24: an instruction has issued since. -/
  later : Bool := false
  deriving DecidableEq, Repr

/-- R85: what the leader of a gang decided for a control instruction. -/
structure Outcome where
  suppressed : Bool := false
  taken : Bool := false
  target : Word := 0
  slide : Nat := 0
  deriving DecidableEq, Repr

/-- R141: a forwarded instruction in a member's weft buffer. -/
structure Forwarded where
  pc : Word
  word : BitVec 32
  instr : Instr
  length : Nat
  outcome : Option Outcome
  /-- R142, R143: where the leader's stream goes on. -/
  next : Word := 0
  /-- R49: the leader suppressed the instruction and made none of its checks. -/
  unchecked : Bool := false
  deriving DecidableEq, Repr

/-- R176: a vector cursor. -/
structure Cursor where
  addr : BitVec 32 := 0
  stride : BitVec 16 := 0
  deriving DecidableEq, Repr

/-- R161: the exception conditions that commands record. -/
structure Cond where
  nv : Bool := false
  dz : Bool := false
  of : Bool := false
  uf : Bool := false
  uz : Bool := false
  /-- R147, R228: an uncorrectable datum was read. -/
  ue : Bool := false
  deriving DecidableEq, Repr

/-- R332, R343: an armed task held by a cluster's router or queue. -/
structure Task where
  recIx : Nat
  pri : Nat := 0
  /-- R247: a held continuation, by its join counter; it has no pool slot. -/
  contOf : Option Nat := none
  /-- Clock at which it entered the router, or its current level (R339). -/
  since : Nat := 0
  /-- R343: accepted from another package: HPEER and the carried copy of the record. -/
  visitor : Option (Nat × List Byte) := none
  cost : Nat := 0
  deriving DecidableEq, Repr

/-- One thread slot. Registers are held by physical code: 0–95 the window registers (R12), 96 is g0 and always
reads zero (R10), 97–99 are g1–g3, 100–103 the task-mode g4–g7 and 104–107 the handler-mode copies (R11). -/
structure Thread where
  life : Life := .free
  wait : Option Wait := none
  /-- Order in which waits were parked (R137). -/
  parkedAt : Nat := 0
  pc : Word := 0
  regs : Vector Word 108 := Vector.replicate 108 0
  /-- R147: registers whose word is uncorrectable, by code. -/
  badRegs : List Nat := []
  -- STATUS (R18)
  pskc : BitVec 3 := 0
  skc : BitVec 3 := 0
  gang : Bool := false
  pmode : Bool := false
  rm : BitVec 3 := 0
  tcm : Bool := false
  mode : Bool := false
  -- CAUSE (R20)
  causeMult : Bool := false
  causeDef : Bool := false
  causeSub : BitVec 8 := 0
  causeCode : BitVec 8 := 0
  -- R21
  epc : Word := 0
  eval : Word := 0
  hvec : Word := 0
  fpc : Word := 0
  wsp : Word := 0
  spilled : Nat := 0
  wb : Nat := 0
  depth : Nat := 0
  -- registers of other chapters
  seed : Word := 0
  srctr : Word := 0
  taskix : Word := 0
  joina : Word := 0
  inl : Bool := false
  recIx : Nat := 0
  /-- The model's own: a number that no other dispatch has, which a saved context keeps. -/
  run : Nat := 0
  /-- R344: the task is a visitor, with the package that holds its record. -/
  visitor : Option Nat := none
  /-- R338: the task whose record is being read for this reserved slot. -/
  dispatching : Option Task := none
  gangIx : Nat := 0
  gangSz : Nat := 1
  cursors : Vector Cursor 8 := Vector.replicate 8 {}
  vcond : Cond := {}
  mcond : Cond := {}
  -- what is in flight for the thread
  flights : List Flight := []
  /-- R102: requests of stores not yet acknowledged, with a mark for those of handler mode (R89). -/
  unacked : List (Nat × Bool) := []
  deferred : List Deferred := []
  weft : List Forwarded := []
  /-- R143: the gang-abort signal has arrived, with the trapping member's core id. -/
  abort : Option Nat := none
  /-- R91: slots that must issue or stop before this one issues again; none when not yielding. -/
  yieldSet : List Nat := []
  yielding : Bool := false
  /-- R270: the acquire epoch A. -/
  acqEpoch : BitVec 32 := 0
  /-- R23, R26: the cause reported by the trap that halted the slot. -/
  haltCause : Option Trap := none
  /-- R144: the save area that holds the context of a suspended slot. -/
  savedAt : Option Nat := none
  /-- R403: instruction bytes fetched from another package, by address. -/
  fetchBuf : List (Nat × Byte) := []
  deriving DecidableEq, Repr

/-! ### The core (R123–R147) -/

/-- R135: a channel message. -/
structure Message where
  value : Word
  sender : Nat
  narrow : Bool := false
  tcm : Bool := false
  bad : Bool := false
  deriving DecidableEq, Repr

/-- R127, R207: who owns a scratch frame or an accumulator region. `ctx` is none for a frame with no owner
(R300). -/
structure Frame where
  ctx : Option (BitVec 8) := some 0
  base : Word := 0
  dirty : Bool := false
  deriving DecidableEq, Repr

/-- R285–R290: a tile-pump queue. -/
structure Pump where
  qring : Word := 0
  qaddr : Word := 0
  qshape : Word := 0
  en : Bool := false
  role : Bool := false
  fail : Bool := false
  slot : Nat := 0
  nt : Nat := 0
  p : Nat := 0
  /-- C of a loader, D of a storer. -/
  c : Nat := 0
  held : Bool := false
  /-- The address of the QCTL store that subscribed, and the task it ran for (R287). -/
  fpc : Word := 0
  taskix : Word := 0
  /-- R117: the dispatch whose thread subscribed. -/
  run : Nat := 0
  order : Nat := 0
  /-- R89: the subscribing store was made in handler mode. -/
  handler : Bool := false
  /-- R290: paused by a save. -/
  paused : Bool := false
  /-- Requests of the tile in hand to other packages. -/
  reqs : List Nat := []
  /-- R286: the stores of EN = 0 that wait for the pump to be idle: thread and request number, none for the host, and
  the word stored. -/
  ending : List (Option (Nat × Nat) × Word) := []
  deriving DecidableEq, Repr

/-- R187–R196: the operation of a queued vector command, by its number in its table. -/
inductive Vop where
  /-- R187. -/
  | float (k : Nat)
  /-- R190. -/
  | int (k : Nat)
  /-- R191. -/
  | fn (k : Nat)
  /-- R193. -/
  | move (k : Nat)
  /-- R192, by source format code. -/
  | cvt (src : Nat)
  /-- R196. -/
  | ksend
  /-- R197. -/
  | racc
  deriving DecidableEq, Repr

/-- R180, R198: a command in the vector queue, with every operand read at issue. -/
structure VCmd where
  slot : Nat
  flight : Nat
  op : Vop
  /-- Type, width or destination format. -/
  fmt : Nat
  /-- The stream word, the mask and the scalar register. -/
  sw : Word
  mask : Word
  scalar : Word
  rm : BitVec 3
  tcm : Bool
  seed : Word
  taskix : Word
  srctr : Word
  cursors : Vector Cursor 8
  /-- R199: records of a ksend still on their way, and the lowest refused one with its target. -/
  away : Nat := 0
  refused : Option (Nat × Nat) := none
  /-- R186: uncorrectable elements that a ksend has read, as role and element. -/
  used : List (Nat × Nat) := []
  /-- R197: the code of the register that racc writes. -/
  dest : Nat := 96
  pc : Word
  order : Nat
  deriving DecidableEq, Repr

/-- R198: a ksend record on its way to a target core: the sending core and the number of its ksend, the record's number,
key and values. -/
structure KeyRecord where
  sender : Nat
  flight : Nat := 0
  index : Nat
  key : Word
  values : List Nat
  deriving DecidableEq, Repr

/-- R208: an entry of the matrix queue, with its effective block. -/
structure MEntry where
  slot : Nat
  flight : Nat
  /-- 0 mma, 1 mepi, 2 mldb, 3 mzero, 4 msave, 5 mrest. -/
  op : Nat
  block : Block
  a : Word
  rm : BitVec 3
  tcm : Bool
  seed : Word
  taskix : Word
  srctr : Word
  pc : Word
  order : Nat
  gang : Nat
  gangIx : Nat
  /-- R215: the number of the gang's joint instruction, which its members share. -/
  join : Nat := 0
  /-- The first instruction word (R226). -/
  word : BitVec 32 := 0
  started : Bool := false
  /-- R225, R226: it was started before it was parked and recorded. -/
  begun : Bool := false
  /-- R225: the group at which a parked instruction resumes. -/
  next : Nat := 0
  /-- R222: loads from other packages that an mldb waits for. -/
  reqs : List Nat := []
  /-- R209: what its finished groups have met and DERR and MSTAT take when it completes: source, row, column and k of
  each substitution, and the conditions. -/
  subs : List (Nat × Nat × Nat × Nat) := []
  cond : Cond := {}
  deriving DecidableEq, Repr

/-- R228: the first uncorrectable datum of a core's engines. -/
structure DataError where
  v : Bool := false
  mult : Bool := false
  src : Nat := 0
  slot : Nat := 0
  row : Nat := 0
  col : Nat := 0
  kix : Nat := 0
  deriving DecidableEq, Repr

/-- One logical core. -/
structure Core where
  last : Nat := 0
  /-- R147: the core has stopped issuing. -/
  stopped : Bool := false
  iso : Bool := false
  subst : Bool := false
  /-- R265: physical column; none for the core's own. -/
  pcol : Option Nat := none
  scratch : Memory := {}
  /-- Offsets of 64-bit scratch words that are uncorrectable. -/
  scratchBad : List Nat := []
  sctxBase : Word := 0
  sctx : BitVec 8 := 0
  frames : Vector Frame 24 := Vector.replicate 24 {}
  accFrames : Vector Frame 4 := Vector.replicate 4 {}
  -- PREEMPT (R129)
  preSave : Word := 0
  preRestore : Bool := false
  preSlots : BitVec 4 := 0
  preBusy : Bool := false
  cerr : Nat := 0
  win : Vector Word 4 := Vector.replicate 4 0
  tagCount : Vector Nat 64 := Vector.replicate 64 0
  tagReady : BitVec 64 := BitVec.allOnes 64
  chan : Vector (List Message) 8 := Vector.replicate 8 []
  /-- R146: messages in the spill queue of each channel and the head's index. -/
  spillN : Vector Nat 8 := Vector.replicate 8 0
  spillHead : Vector Nat 8 := Vector.replicate 8 0
  /-- R146: channels deliver into the spill queues while the core is suspended. -/
  spilling : Bool := false
  /-- The physical address of the save area that holds the spill queues. -/
  spillArea : Nat := 0
  -- R197
  raccDesc : Word := 0
  raccCount : BitVec 32 := 0
  raccNv : Bool := false
  raccOf : Bool := false
  vq : List VCmd := []
  /-- R181: the head of the queue has started. -/
  vqStarted : Bool := false
  mq : List MEntry := []
  /-- R226: matrix entries recorded by a save, by slot. -/
  recorded : List MEntry := []
  bstack : Memory := {}
  bstackBad : List Nat := []
  /-- R206, R207: the accumulators, row-major: element (i, c) at 512·i + 4·c. -/
  acc : Memory := {}
  /-- Offsets of uncorrectable accumulator elements. -/
  accBad : List Nat := []
  derr : DataError := {}
  -- R258
  scht : Word := 0
  schLen : Nat := 0
  schCur : Nat := 0
  pumps : Vector Pump 8 := Vector.replicate 8 {}
  /-- R198: ksend records on their way to this core. -/
  ksends : List KeyRecord := []
  deriving DecidableEq, Repr

/-! ### The cluster (R229–R260) -/

/-- R249. -/
structure Barrier where
  phase : BitVec 32 := 0
  under : Bool := false
  ovf : Bool := false
  bound : Bool := false
  set : Nat := 0
  arrived : Nat := 0
  expect : Nat := 1
  bytes : Nat := 0
  deriving DecidableEq, Repr

/-- R252. -/
structure FutureCell where
  value : Word := 0
  full : Bool := false
  deriving DecidableEq, Repr

/-- R245. -/
structure JoinCounter where
  count : Nat := 0
  under : Bool := false
  crec : Nat := 0
  cen : Bool := false
  cq : Bool := false
  cfail : Bool := false
  deriving DecidableEq, Repr

/-- R255: a valid binding. -/
structure Binding where
  v : Bool := true
  mask : BitVec 24
  recIx : Nat
  deriving DecidableEq, Repr

/-- R336: a task on its way between two clusters. -/
structure Forward where
  id : Nat
  task : Task
  src : Nat
  dst : Nat
  /-- 0 on its way, 1 accepted, 2 refused. -/
  stage : Nat := 0
  deriving DecidableEq, Repr

/-- R341, R342: one of the eight peer entries of a partition. -/
structure PeerEntry where
  en : Bool := false
  live : Bool := false
  ap : Nat := 0xFFFF
  ad : Nat := 0xFF
  peer : BitVec 12 := 0
  /-- Clock of the last advert. -/
  at_ : Nat := 0
  deriving DecidableEq, Repr

/-- R326: what the host and the supervisor core set of a router. -/
structure RouterSet where
  hyst : Nat := 0
  tstay : Nat := 1
  tlow : Nat := 1
  gcost : Word := 0x1004040401010101
  pbias : Nat := 0
  pen : Bool := false
  fen : Bool := false
  deriving DecidableEq, Repr

/-- One cluster, numbered die × 8 + cluster. -/
structure Cluster where
  lrBase : Word := 0
  lrCount : Nat := 0
  used : Nat := 0
  cerr : Nat := 0
  hcst : BitVec 8 := 0
  bars : Tab Barrier := {}
  cells : Tab FutureCell := {}
  joins : Tab JoinCounter := {}
  sets : Tab Nat := {}
  /-- Row y of the retired bits. -/
  retired : Tab Word := {}
  /-- Bindings, key 64·y + x. -/
  binds : Tab Binding := {}
  /-- R260: base offsets of poisoned objects. -/
  poisoned : List Nat := []
  /-- R260: the cluster neither dispatches nor accepts tasks. -/
  stopped : Bool := false
  /-- R335: tasks that have entered the router and are not yet decided. -/
  entering : List Task := []
  /-- R338: the four queues, oldest first, by priority. -/
  queues : Vector (List Task) 4 := Vector.replicate 4 []
  -- the router block (R324–R337)
  set : RouterSet := {}
  /-- R326: the clock of the latest write to these, and what they held at its start. -/
  setAt : Nat := 0
  was : RouterSet := {}
  gcntOut : Nat := 0
  gcntIn : Nat := 0
  /-- R326: GTHR, GCOST and PEN as they hold in this epoch. -/
  hystEff : Nat := 0
  tstayEff : Nat := 1
  tlowEff : Nat := 1
  gcostEff : Word := 0x1004040401010101
  penEff : Bool := false
  /-- R338: the clock of the cluster's latest dispatch or routing decision. -/
  ranAt : Option Nat := none
  /-- R342: Nb(7), the gateway's entry that the last boundary took, by its number. -/
  nb7 : Option (Nat × PeerEntry) := none
  /-- R326: the cluster has published since its reset. -/
  published : Bool := false
  /-- R330: published at the last epoch boundary: pressure, FULL, D and DLOC. -/
  pubP : Nat := 0
  pubFull : Bool := false
  pubD : Nat := 0xFF
  pubDloc : Nat := 0xFF
  deriving DecidableEq, Repr

/-! ### The die (R261–R302) -/

/-- R268, R270: a line of the remote-data cache. -/
structure RdcLine where
  bytes : Vector Byte 256
  epoch : BitVec 32
  deriving DecidableEq, Repr

/-- R291, R292: a leaf translation held by the TLBs, by its first page number. -/
structure TlbEntry where
  entry : Word
  /-- log2 of the page size: 18, 31 or 44. -/
  bits : Nat
  deriving DecidableEq, Repr

/-- R171: a container line that an L2 holds. `hidden` are the uncorrectable words of the memory at its addresses, which
the window hides. -/
structure HeldLine where
  bytes : Vector Byte 256
  dirty : Bool := false
  hidden : List Nat := []
  deriving DecidableEq, Repr

/-- R169: a format window. -/
structure FormatWindow where
  fwctl : Word := 0
  fwlen : Word := 0
  fwpk : Word := 0
  fwsc : Word := 0
  deriving DecidableEq, Repr

/-- R275: a start that a channel has accepted. -/
structure Copy where
  tpl : Nat
  core : Nat
  slot : Nat
  taskix : Word
  /-- R117: the dispatch whose thread started it, none for an entry. -/
  run : Option Nat := none
  tag : Option Nat
  src : Word
  dst : Word
  rlen : Nat
  rows1 : Nat
  sstr : Word
  dstr : Word
  bar : Word
  ctr : Option Nat
  wme : Bool
  pc : Word
  order : Nat
  /-- R89: the start was stored in handler mode. -/
  handler : Bool := false
  deriving DecidableEq, Repr

/-- R272, R279: a block-transfer channel; the head of `copies` is active. -/
structure Channel where
  copies : List Copy := []
  row : Nat := 0
  /-- R278: bytes of the row in hand that are written. -/
  col : Nat := 0
  /-- Requests of the row in hand to other packages, and bytes read for it. -/
  reqs : List Nat := []
  bytes : Option (List Byte) := none
  err : Bool := false
  ecause : BitVec 8 := 0
  esub : BitVec 4 := 0
  eaddr : Word := 0
  /-- R278, R279: the watermark that the latest copy ended with. -/
  wm : Word := 0
  deriving DecidableEq, Repr

/-- R281–R284: a gather/scatter request. -/
structure StreamReq where
  core : Nat
  slot : Nat
  taskix : Word
  /-- R117: the dispatch whose thread posted it. -/
  run : Nat := 0
  tag : Option Nat
  idx : Nat
  scatter : Bool
  n : Nat
  cnt : Nat
  rl : Nat
  lb : Nat
  tb : Nat
  nc : Nat
  cb : Nat
  next : Nat := 0
  /-- The first skipped row: its trap. -/
  skipped : Option Trap := none
  pc : Word
  order : Nat
  /-- R89: the request was posted in handler mode. -/
  handler : Bool := false
  deriving DecidableEq, Repr

/-- R369: a violation log entry, word 3 as V and SEQ. -/
structure Violation where
  w0 : Word := 0
  w1 : Word := 0
  w2 : Word := 0
  v : Bool := false
  seq : Nat := 0
  deriving DecidableEq, Repr

/-- R404: a migration in progress. -/
structure Migration where
  va : Word
  frame : Nat
  peer : Nat
  srcPa : Nat
  /-- The frame has been taken and its copy has begun; until then outstanding accesses are waited for. -/
  begun : Bool := true
  /-- The bytes that have arrived. -/
  bytes : List Byte := []
  deriving DecidableEq, Repr

/-- One compute die. -/
structure Die where
  fenced : Bool := false
  part : Nat := 0
  /-- R264, R291: the root of the die's page tables. -/
  ptBase : Word := 0
  ptEn : Bool := false
  /-- R296: the invalidation in progress. -/
  tlbInv : Option Word := none
  /-- R296: writes to TLBINV that wait for the invalidation in progress, oldest first. -/
  tlbWait : List Word := []
  spol : BitVec 3 := 0
  spares : Nat := 32
  /-- R300: rows whose spare is used, by row number 0–31. -/
  spareUsed : List Nat := []
  rdcEpoch : BitVec 32 := 0
  /-- R268: by line number for lines of this package, by 2^44·(peer + 1) + line number for those of a peer. -/
  rdc : Tab RdcLine := {}
  tlb : Tab TlbEntry := {}
  fw : Vector FormatWindow 16 := Vector.replicate 16 {}
  /-- R171: container lines held by the L2, by line number (address / 256). -/
  container : Tab HeldLine := {}
  channels : Tab Channel := {}
  /-- R273: template words, key 8·t + word. -/
  templates : Tab Word := {}
  streams : List StreamReq := []
  vlog : Vector Violation 64 := Vector.replicate 64 {}
  vSeq : Nat := 0
  vLost : Nat := 0
  -- R364, R365
  pwrBusy : Bool := false
  pwrState : BitVec 2 := 0
  pwrTgt : BitVec 2 := 0
  tripped : Bool := false
  trArm : Bool := false
  ttrip : BitVec 16 := 0
  tmax : BitVec 16 := 0
  temp : BitVec 16 := 0
  /-- R366: the die's firmware runs (bring-up of the die is over). -/
  live : Bool := true
  /-- R302: requests outstanding to the die have been answered. -/
  answered : Bool := false
  /-- R267: corrected errors of the die's L2. -/
  cerr : Nat := 0
  /-- R404: access counts of mode-3 leaves, by page number. -/
  counts : Tab Nat := {}
  /-- R404: the pages of the migration monitor, the least recently used first. -/
  monitor : List Nat := []
  migrations : List Migration := []
  /-- R377: free frames for migration. -/
  freeFrames : List Nat := []
  deriving DecidableEq, Repr

/-! ### Selvedge (R346–R372) -/

/-- R351, R357, R360: one partition. -/
structure Partition where
  en : Bool := false
  tdi : BitVec 2 := 0
  busy : Bool := false
  /-- R357: what ends when BUSY clears: 0 nothing, 1 create, 2 destroy, 3 stop. -/
  work : Nat := 0
  dies : BitVec 4 := 0
  facc0 : Word := 0
  facc1 : BitVec 5 := 0
  strBase : Nat := 0
  strLimit : Nat := 0
  strEn : Bool := false
  /-- Number of keys drawn so far: names the current memory key and fabric key seed. -/
  keyGen : Nat := 0
  deriving DecidableEq, Repr

/-- R351, R371: an event ring of a function. -/
structure EventRing where
  base : Word := 0
  log2 : Nat := 0
  prod : BitVec 32 := 0
  cons : BitVec 32 := 0
  lost : Nat := 0
  /-- MSI-X vector 0 is to be signalled. -/
  signal : Bool := false
  /-- Clock of the last signal. -/
  signalled : Nat := 0
  deriving DecidableEq, Repr

/-- R361: replies of the SPDM responder and TDISP, seen by the host. -/
structure HostReply where
  kind : Nat
  status : Nat
  data : List Byte := []
  deriving DecidableEq, Repr

/-- Registers and stores of Selvedge. -/
structure Package where
  peer : BitVec 12 := 0
  parts : Vector Partition 4 :=
    #v[{ en := true, dies := 0xF }, {}, {}, {}]
  cxlWays : BitVec 2 := 0
  cxlUp : BitVec 8 := 0
  cxlPres : BitVec 8 := 0
  cxlBlocks : BitVec 16 := 0
  pwr : BitVec 16 := 0
  pmax : BitVec 16 := 0
  stage : BitVec 8 := 0x01
  ecode : BitVec 16 := 0
  fwlen : Nat := 0
  /-- R361, R362: the digest field of the image that passed VERIFY, and what the slot-1 key of this boot was drawn from. -/
  digest : List Byte := []
  slotKey : Word := 0
  /-- R349: the chunk buffers of the staging window. -/
  staging : Memory := {}
  hmwin : Vector (BitVec 12) 5 := Vector.replicate 5 0
  rings : Vector EventRing 5 := Vector.replicate 5 {}
  /-- R352: what loads of GTBASE and time exchanges have added to the count, in ns. -/
  gtOffset : Int := 0
  /-- R352: a correction still to be slewed, in ns. -/
  gtSlew : Int := 0
  /-- R366: a dispatch has happened since READY. -/
  dispatched : Bool := false
  /-- R368: security version, build number and service numbers of the running image. -/
  secVersion : BitVec 32 := 0
  build : BitVec 32 := 0
  services : List Nat := []
  /-- PERST# has been deasserted (R366). -/
  perst : Bool := false
  /-- R365: THERM_TRIP_N is driven low. -/
  thermTripN : Bool := false
  /-- R365: MSI-X vector 1 of PF0 signalled, so many times. -/
  msix1 : Nat := 0
  /-- R346, R347: links that are up: 0–5 die pairs, 8–11 UCIe. -/
  linksUp : BitVec 16 := 0xF3F
  spareLanes : Tab Nat := {}
  /-- R341: entry i of partition q at 8·q + i. -/
  peers : Vector PeerEntry 32 := Vector.replicate 32 {}
  replies : List HostReply := []
  /-- R348: the host link answers configuration requests. -/
  hostLink : Bool := false
  /-- R361: open SPDM sessions. -/
  sessions : Nat := 0
  /-- R349, R365: completions of host accesses: 0 success, 1 Unsupported Request, 2 Completer Abort. -/
  hostStatus : Nat := 0
  hostData : Word := 0
  deriving DecidableEq, Repr

/-! ### In flight -/

/-- R101, R102: what a request brings back. -/
inductive Resp where
  | data (bytes : List Byte)
  | done
  | err (t : Trap)
  deriving DecidableEq, Repr

/-- A leaf as an access uses it (R292). -/
structure Leaf where
  pa : Nat
  key : Nat
  mode : Nat
  peer : Nat
  t : Nat
  w : Bool
  x : Bool
  deriving DecidableEq, Repr

/-- Where an access goes once its issuing core has checked it (R101). -/
inductive Target where
  | mem (l : Leaf)
  /-- A page of mode 1–3 (R293). -/
  | far (l : Leaf)
  | scratch (core off : Nat)
  /-- A register of the spaces 0xF2–0xF4. -/
  | reg
  deriving DecidableEq, Repr

/-- What a request does at its target. -/
inductive ReqOp where
  | load (signed : Bool)
  | store (data : List Byte)
  /-- R402: FP32 adds of an epilogue. -/
  | fadd (code : Nat)
  /-- R403: instruction bytes of a line. -/
  | fetch
  deriving DecidableEq, Repr

/-- R101, R315: a thread's access on its way: `k` parts of `n` bytes at `va + 8·i`. -/
structure Request where
  id : Nat
  tid : Nat
  op : ReqOp
  va : Word
  n : Nat
  k : Nat := 1
  pc : Word
  order : Nat
  dests : List Nat := []
  /-- The access goes to another core's scratchpad (R131) or to memory. -/
  remoteScratch : Bool := false
  /-- R101: where each part goes, as the issuing core translated it. -/
  tgts : List Target := []
  /-- Made by an engine for the thread; no instruction waits for it at issue. -/
  engine : Bool := false
  resp : Option Resp := none
  /-- R295: pages that its translation had to walk for. -/
  walks : Nat := 0
  /-- Parts answered by another package so far, by part number. -/
  parts : Tab (List Byte) := {}
  sent : Bool := false
  deriving DecidableEq, Repr

/-- R28, R31, R144: what a saved context keeps beside the words of its save area: the thread as it was suspended, with its
wait and its matrix instructions, its queues, and its matrix entries. -/
structure SavedContext where
  area : Nat
  /-- The thread that it was saved from. -/
  tid : Nat
  thread : Thread
  pumps : List (Nat × Pump) := []
  /-- Its recorded matrix entries. -/
  entries : List MEntry := []
  deriving DecidableEq, Repr

/-- R316: an announced operation of the SC network. -/
structure ScOp where
  tid : Nat
  window : Nat
  flight : Nat
  /-- 0 fence.sc, 1 ld.sc, 2 st.sc. -/
  kind : Nat
  va : Word := 0
  n : Nat := 0
  data : List Byte := []
  dest : Nat := 96
  pc : Word := 0
  order : Nat := 0
  deriving DecidableEq, Repr

/-- The model's own: what moves next. -/
inductive Action where
  /-- The event happens. -/
  | event (i : Instr)
  /-- The slot issues its next instruction. -/
  | issue (core slot : Nat)
  /-- The package clock advances. -/
  | pass (clocks : Nat)
  deriving DecidableEq, Repr

/-! ### The fabric (R373–R407) -/

/-- R379: the states of a wavelength. -/
inductive Light where
  | dark | training | lit | draining | lost
  deriving DecidableEq, Repr

/-- R374, R379: a wavelength of a port on transmit. -/
structure TxSlot where
  light : Light := .dark
  base : Bool := false
  /-- Partition and peer of the lease that holds it. -/
  lease : Option (Nat × Nat) := none
  /-- Clock at which it took its state. -/
  since : Nat := 0
  /-- R387: the receiver has paused it. -/
  paused : Bool := false
  deriving DecidableEq, Repr

/-- R374, R387, R393: a wavelength of a port on receive. -/
structure RxLane where
  assigned : Bool := false
  /-- The sender's partition and peer number, none for a base wavelength. -/
  lease : Option (Nat × Nat) := none
  los : Bool := false
  /-- R391: the clock at which it lost its light. -/
  losAt : Nat := 0
  /-- R379, R381: the receiver has revoked it; it stays assigned until its sender's wavelength is DARK. -/
  revoked : Bool := false
  /-- R380, R381: the partition and peer of the lease that takes it over then. -/
  heir : Option (Nat × Nat) := none
  pauseSent : Bool := false
  /-- R387: the input buffer: flits that have arrived and wait, 64 at most. -/
  input : List Flit := []
  /-- R393: the miss buffer, 32 flits at most. -/
  miss : List Flit := []
  deriving DecidableEq, Repr

/-- R373, R376: an optical port. -/
structure Port where
  pmap : Vector Word 4 := Vector.replicate 4 0
  en : Bool := false
  pos : Nat := 0
  base : BitVec 16 := 0
  txf : BitVec 16 := 0
  tx : Vector TxSlot 16 := Vector.replicate 16 {}
  rx : Vector RxLane 16 := Vector.replicate 16 {}
  deriving DecidableEq, Repr

/-- A sequenced flit with the operation it belongs to. -/
structure Outbound where
  flit : Flit
  op : Option Nat := none
  deriving DecidableEq, Repr

/-- R386: the keys of a connection or of a pair of packages, one per direction. -/
structure LinkKeys where
  send : BitVec 256 := 0
  receive : BitVec 256 := 0
  deriving DecidableEq, Repr

/-- R388, R392: one end of a connection. -/
structure Conn where
  /-- Next SEQ to send and the wraps of the counter (R385). -/
  seq : Nat := 0
  wrap : Nat := 0
  /-- The e of the last ACK(e) received. -/
  acked : Nat := 0
  expected : Nat := 0
  rwrap : Nat := 0
  /-- Sent and not acknowledged, oldest first. -/
  sent : List Outbound := []
  /-- R388: the flits that a go-back has yet to resend, in order. -/
  again : List Outbound := []
  /-- Responses, records and page accesses that wait to be sent. -/
  urgent : List Outbound := []
  /-- R388: flits that arrived out of order, each with the clock of its arrival. -/
  early : List (Flit × Nat) := []
  /-- R405: a flit at its turn whose target makes it wait, with its region. -/
  held : Option (Flit × Option Nat) := none
  /-- R388: deliveries not yet acknowledged, with the clock of the first. -/
  fresh : Nat := 0
  freshAt : Nat := 0
  /-- R388: the clock at which a later flit arrived before the expected one. -/
  gapAt : Option Nat := none
  /-- Clock of the last ACK progress, or of the oldest unacknowledged flit. -/
  progress : Nat := 0
  goBacks : Nat := 0
  /-- R387: the wavelength last used, as 16·port + λ. -/
  stripe : Nat := 0
  /-- R392: the context is in Selvedge's cache, and when it was last used. -/
  cached : Bool := false
  used : Nat := 0
  /-- R385: the counter of unsequenced flits, and its wraps. -/
  usend : Nat := 0
  uwrap : Nat := 0
  /-- R386, R392. -/
  keys : LinkKeys := {}
  /-- R392: its backing holds it. -/
  stored : Bool := false
  deriving DecidableEq, Repr

/-- Where local bytes of a remote operation lie: of a core's scratchpad or of memory. -/
structure Span where
  start : Nat
  len : Nat
  core : Option Nat
  addr : Nat
  key : Nat := 0
  /-- R403: a page of another package: the virtual address of the first byte, and its leaf. -/
  far : Option (Word × Leaf) := none
  deriving DecidableEq, Repr

/-- What a remote operation is. -/
inductive OpKind where
  | put | get | radd | rcas
  /-- R424, R427: a counter add, and the flits of groups and collectives. -/
  | trg
  /-- R403: a page access of a thread or an engine. -/
  | page
  deriving DecidableEq, Repr

/-- Whom a remote operation serves. -/
inductive Owner where
  | thread (tid flight : Nat)
  /-- R424: a remote counter add, by its number among the thread's unacknowledged stores. -/
  | store (tid id : Nat)
  | entry (e : Nat)
  | request (id part : Nat)
  /-- R433: a chunk of a group's collective, by sequence number: up, or down to a child slot. -/
  | coll (group seq chunk : Nat) (child : Option Nat)
  /-- R418: the counter raised at the target behind an entry's operation, of a partition. -/
  | after (part : Nat)
  /-- R404: the copy of a frame by a die. -/
  | frame (die : Nat)
  | none
  deriving DecidableEq, Repr

/-- R397–R403: a remote operation. -/
structure RemoteOp where
  id : Nat
  kind : OpKind
  owner : Owner
  part : Nat
  peer : Nat
  core : Nat := 0
  /-- Handle and offset of the remote address. -/
  hdl : Nat := 0
  off : Nat := 0
  len : Nat := 0
  nar : Bool := false
  tcm : Bool := false
  tag : Option Nat := none
  ctr : Option Nat := none
  /-- R418: the counter raised at the target. -/
  rctr : Option Nat := none
  /-- R399: register d, addend or expected value, and new value. -/
  d : Nat := 96
  x : Word := 0
  y : Word := 0
  spans : List Span := []
  /-- Flits other than PUT, ready made. -/
  flits : List Flit := []
  /-- Next flit to send and how many there are. -/
  next : Nat := 0
  count : Nat := 0
  /-- Flits sent, by SEQ and offset, and those of them acknowledged. -/
  seqs : List (Nat × Nat) := []
  acks : Nat := 0
  /-- Bytes a get has received. -/
  got : Nat := 0
  /-- R398: a top-code mismatch stopped the writes. -/
  stopped : Bool := false
  /-- The reply of a get or an atomic is complete. -/
  answered : Bool := false
  /-- R400: kind and offset of the refused flit with the lowest offset. -/
  refused : Option (Nat × Nat) := none
  /-- R389: its connection failed. -/
  failed : Bool := false
  /-- A fault of its local side, after issue. -/
  fault : Option Trap := none
  /-- R403: its accesses to local bytes that lie on other packages, by request. -/
  subs : List Nat := []
  /-- R437: the deadline, in GTIME ns. -/
  deadline : Nat := 0
  pc : Word := 0
  order : Nat := 0
  deriving DecidableEq, Repr

/-- R394: a registration entry. -/
structure Region where
  base : Word := 0
  len : Nat := 0
  v : Bool := false
  drain : Bool := false
  rd : Bool := false
  wr : Bool := false
  at_ : Bool := false
  tcm : Bool := false
  /-- R396: it has been revoked and not registered again. -/
  revoked : Bool := false
  part : Nat := 0
  anyp : Bool := false
  peer : Nat := 0
  infl : Nat := 0
  /-- R396: the thread whose revoking store waits to be acknowledged. -/
  waiter : Option (Nat × Nat) := none
  deriving DecidableEq, Repr

/-- R380, R382: a request that the lease controller carries out. -/
structure LeaseJob where
  /-- The parked thread, or none for an entry. -/
  tid : Option Nat
  entry : Option Nat
  part : Nat
  peer : Nat
  rel : Bool
  n : Nat
  min : Nat
  nt : Bool
  /-- The controller has taken it up. -/
  begun : Bool := false
  /-- Port under consideration. -/
  port : Nat := 0
  /-- 0 choose, 1 asked for a lane, 2 waits for a victim to go DARK, 3 waits for its wavelengths. -/
  phase : Nat := 0
  wave : Nat := 0
  victim : Option (Nat × Nat) := none
  since : Nat := 0
  /-- Wavelengths it set TRAINING. -/
  lit : List (Nat × Nat) := []
  revoked : Nat := 0
  /-- R382: reasons met: a plane holds X, QMAX stopped it, candidates asked and answered. -/
  plane : Bool := false
  capped : Bool := false
  asked : Nat := 0
  answered : Nat := 0
  deriving DecidableEq, Repr

/-- Chairli (R373–R407). -/
structure Fabric where
  ports : Vector Port 32 := Vector.replicate 32 {}
  fto : Nat := 100
  retry : Nat := 8
  root : Bool := false
  en : Bool := false
  ccbase : Word := 0
  rtbase : Word := 0
  tsync : Bool := false
  parent : Nat := 0
  qmax : Vector Nat 4 := Vector.replicate 4 0
  floor : Vector Nat 4 := Vector.replicate 4 0
  /-- R386: paired partition, by 4096·q + X. -/
  pairs : Tab Nat := {}
  /-- R392, by 4096·q + X. -/
  conns : Tab Conn := {}
  ops : List RemoteOp := []
  regs : Tab Region := {}
  jobs : List LeaseJob := []
  /-- R380: RX-lane requests of other packages that wait for the controller. -/
  laneRequests : List Flit := []
  /-- R380, R381: requests that have been granted a lane which must go DARK first: the request, and the port and λ of that
  lane. -/
  laneWaits : List (Flit × Nat × Nat) := []
  /-- R386: keys of the pairings, by 4096·q + X, and of the pairs of packages, by peer. -/
  keys : Tab LinkKeys := {}
  pairKeys : Tab LinkKeys := {}
  /-- R385: the counters of LCTL and SYNC flits, by peer, with their wraps: 2^24·WRAP + SEQ. -/
  pairSent : Tab Nat := {}
  /-- R406: clock of the last SYNC received and of the last sent; the loss was posted. -/
  syncAt : Nat := 0
  syncSent : Nat := 0
  syncLost : Bool := false
  /-- R384, R378: flits discarded and counted; R385: integrity failures. -/
  discards : Nat := 0
  integrity : Nat := 0
  /-- R342: the cluster that each partition last advertised, and when. -/
  advCluster : Vector Nat 4 := Vector.replicate 4 0
  advAt : Nat := 0
  deriving DecidableEq, Repr

/-! ### Triggers, counters and collectives (R408–R437) -/

/-- R408. -/
structure Counter where
  value : Word := 0
  err : Bool := false
  sat : Bool := false
  cfail : Bool := false
  fent : Nat := 0
  armed : Nat := 0
  deriving DecidableEq, Repr

/-- R409. -/
structure Ranges where
  en : Bool := false
  gbase : Nat := 0
  glim : Nat := 0
  cbase : Nat := 0
  clim : Nat := 0
  ebase : Nat := 0
  elim : Nat := 0
  deriving DecidableEq, Repr

/-- R413: a trigger entry. State: 0 FREE, 1 ARMED, 2 FIRED, 3 DONE, 4 FAILED, 5 CANCELLED. -/
structure TEntry where
  w0 : Word := 0
  w1 : Word := 0
  opa : Word := 0
  opb : Word := 0
  part : Nat := 0
  die : Nat := 0
  sub : BitVec 8 := 0
  cause : BitVec 8 := 0
  tcm : Bool := false
  late : Bool := false
  state : Nat := 0
  eval : Word := 0
  ftime : Word := 0
  res : Word := 0
  /-- R422: the physical addresses of a PUT or GET. -/
  spans : List Span := []
  core : Nat := 0
  /-- The operation has been started, and how it ended, when it has. -/
  started : Bool := false
  ended : Option (Option Trap) := none
  deriving DecidableEq, Repr

/-- R431–R436: a bulk collective that a package has accepted and not ended. -/
structure Coll where
  seq : Nat
  kind : Nat
  op : Nat
  fmt : Nat
  len : Nat
  dl : Nat
  cen : Bool
  ctr : Nat
  /-- P[119:108] as the descriptor check compares it. -/
  ctl : Nat
  part : Nat
  /-- The thread that queued it, or the entry. -/
  tid : Option Nat := none
  /-- R117: the dispatch of that thread. -/
  run : Option Nat := none
  entry : Option Nat := none
  srcs : List Span := []
  dsts : List Span := []
  core : Nat := 0
  started : Bool := false
  /-- R433: chunks that each child has sent, by 2^20·slot + chunk. -/
  chunks : Tab (List Byte) := {}
  /-- R433 step 1: child slots whose check matched. -/
  checked : List Nat := []
  /-- Chunks combined and sent up, and final chunks written to b and sent down. -/
  up : Nat := 0
  wrote : Nat := 0
  down : Nat := 0
  /-- Bytes of final chunks that the parent has sent. -/
  fed : Nat := 0
  /-- R436: peers of tree edges whose connection has failed. -/
  lost : List Nat := []
  /-- A local fault befell it behind the commit. -/
  bad : Bool := false
  /-- R403: its accesses to bytes of a or b that lie on other packages, by request. -/
  subs : List Nat := []
  /-- R435: this package cannot go on and has asked for an abort. -/
  halted : Bool := false
  committed : Bool := false
  /-- Final chunks not yet forwarded. -/
  finals : Tab (List Byte) := {}
  deriving DecidableEq, Repr

/-- R434: CRES. -/
structure CollResult where
  seq : Nat := 0
  late : Bool := false
  status : Nat := 0xFF
  deriving DecidableEq, Repr

/-- R435: a coll of kind 3 that waits for its decision: who asked, and the register. -/
structure AbortWait where
  tid : Nat
  flight : Nat
  seq : Nat
  d : Nat
  deriving DecidableEq, Repr

/-- R430: who waits to contribute to a full round: a store, by its thread and number, an entry, or the host. -/
inductive Contributor where
  | store (tid id : Nat)
  | entry (e : Nat)
  | host
  deriving DecidableEq, Repr

/-- R428: a group. -/
structure Group where
  en : Bool := false
  root : Bool := false
  op : Nat := 0
  cmask : BitVec 8 := 0
  localN : Nat := 0
  parent : Nat := 0
  kids : Vector Nat 8 := Vector.replicate 8 0
  epoch : BitVec 32 := 0
  /-- R429: local contributions in the order accepted, and those of child slots. -/
  locals : List Word := []
  arrived : Tab Word := {}
  /-- R429: the up step of this round has been made. -/
  upDone : Bool := false
  gres : Word := 0
  /-- R430: contributions that wait for the next round. -/
  waiting : List (Word × Contributor) := []
  next : BitVec 32 := 0
  cres : Vector CollResult 4 := Vector.replicate 4 {}
  colls : List Coll := []
  /-- R433: collectives that have ended here and whose final chunks are still on their way down. -/
  tails : List Coll := []
  aborts : List AbortWait := []
  /-- Flits of tree edges that the collective in hand has not yet taken. -/
  inbox : List Flit := []
  /-- R433: the sequence number that each child slot last announced. -/
  kidSeq : Tab Nat := {}
  /-- R435: the child from which an aborter's request came, by aborter. -/
  paths : Tab Nat := {}
  /-- R435, R436: collectives that were over before this package queued them, with the status they end with. -/
  doomed : List (Nat × Nat) := []
  deriving DecidableEq, Repr

/-- Counters, entries and groups. -/
structure Triggers where
  ranges : Vector Ranges 4 := Vector.replicate 4 {}
  counters : Tab Counter := {}
  entries : Tab TEntry := {}
  groups : Tab Group := {}
  /-- R417: fired entries not yet started, by partition. -/
  queues : Vector (List Nat) 4 := Vector.replicate 4 []
  deriving DecidableEq, Repr

/-! ### The whole package -/

/-- One package and what the model keeps beside it. -/
structure State where
  /-- The model's own: the thread that the instruction in hand belongs to, core × 4 + slot. -/
  cur : Nat := 0
  /-- The first word of the instruction in hand, zero-extended (R22). -/
  ir : BitVec 32 := 0
  /-- R85: the leader's outcome, while a follower executes a forwarded control instruction. -/
  fwd : Option Outcome := none
  /-- The model's own: the instruction in hand waits at issue. -/
  stalled : Bool := false
  /-- The model's own: what moves next; when empty, `step` chooses. -/
  agenda : List Action := []
  /-- R316: package clocks since package reset. -/
  clock : Nat := 0
  /-- The model's own: how far the clock in hand has come in the orders of R340 and R412. -/
  phase : Nat := 0
  /-- R330: number of the epoch (of 64 clocks) whose boundary is the next to be carried out. -/
  epoch : Nat := 0
  /-- The model's own: how many free values have been taken. -/
  free : Nat := 0
  /-- The model's own: instructions issued so far (program order). -/
  order : Nat := 0
  threads : Tab Thread := {}
  cores : Tab Core := {}
  clusters : Tab Cluster := {}
  dies : Tab Die := {}
  pkg : Package := {}
  fab : Fabric := {}
  trg : Triggers := {}
  mem : Memory := {}
  /-- R104, R267, R355: word addresses (multiples of 8) whose data is uncorrectable, or poisoned in a second-tier
  device. -/
  memBad : List Nat := []
  /-- R356, R358: the key under which runs of second-tier lines were last written: first line, line past the last, and the
  key as 2^32 · partition + its KEYGEN; the first run that holds a line counts. -/
  tierKeys : List (Nat × Nat × Nat) := []
  /-- R101: accesses on their way. -/
  reqs : List Request := []
  nextId : Nat := 0
  forwards : List Forward := []
  scOps : List ScOp := []
  /-- R28, R144: contexts that are saved and not yet restored. -/
  contexts : List SavedContext := []
  /-- R146: messages that a save found beyond the 256 entries of a spill queue, by save area and channel (log 46). -/
  spillExcess : List (Nat × List (List Message)) := []
  /-- Flits sent on the optical ports, oldest first. -/
  wire : List Flit := []
  deriving DecidableEq, Repr

/-- The machine right after package reset (R351, R352, R366): BOOT.STAGE is ROM, no thread slot is occupied,
every field is at its reset value. -/
def State.reset : State := {}

end Sys2Proof.Machine
end

