-- ==== Sys2Proof/Machine/Home.lean ====
section
/-! DEFINITION. The bytes of package memory at their home: the die that homes an address (R266), the L2 as the
lines of format windows show it (R169–R172, R267), and the words that are uncorrectable (R104). Every requester,
the page-table walker and the write-back of frames among them, reaches memory through these operations. -/

namespace Sys2Proof.Machine

/-! ### Dies -/

def State.die (s : State) (d : Nat) : Die := s.dies.get {} d
def State.setDie (s : State) (d : Nat) (x : Die) : State := { s with dies := s.dies.put d x }
def State.modDie (s : State) (d : Nat) (f : Die → Die) : State := s.setDie d (f (s.die d))

/-! ### Free values -/

/-- The next free value (DESIGN CHOICE, log 2). -/
def State.freeWord (s : State) : Word := Config.freeValue s.free
def State.took (s : State) : State := { s with free := s.free + 1 }

/-- Bits [hi:lo] of a number. -/
def bits (x hi lo : Nat) : Nat := x / 2 ^ lo % 2 ^ (hi + 1 - lo)

/-! ### Homes (R266) -/

/-- The die that homes a physical address of package memory. -/
def homeDie (pa : Nat) : Option Nat := if pa < 0x18000000000 then some (pa / 0x6000000000) else none
/-- R266: the second tier. -/
def inTier2 (pa : Nat) : Bool := 0x100000000000 ≤ pa && pa ≤ 0x2FFFFFFFFFFF
def hasHome (pa : Nat) : Bool := (homeDie pa).isSome || inTier2 pa

/-- R301, R363: a die whose memory answers with uncorrectable data. -/
def State.dead (s : State) (d : Nat) : Bool := (s.die d).fenced || (s.die d).pwrState = 3

/-- R363: the cores and clusters of a die have a clock. -/
def State.clocked (s : State) (d : Nat) : Bool := (s.die d).pwrState = 0

/-- R355: the port that serves a second-tier offset, and whether the address is served at all. -/
def State.tier2Served (s : State) (pa : Nat) : Bool :=
  let o := pa - 0x100000000000
  let port := o / 4096 % 2 ^ s.pkg.cxlWays.toNat
  o / 2 ^ 30 < s.pkg.cxlBlocks.toNat && s.pkg.cxlUp.getLsbD port

/-- R301, R322, R355: the home of an address is fenced, without power or not served: it answers with uncorrectable data and
takes no write. -/
def State.lost (s : State) (pa : Nat) : Bool :=
  match homeDie pa with
  | some d => s.dead d
  | none => inTier2 pa && !s.tier2Served pa
/-- Some byte of a run has a lost home, which changes at multiples of 4 KiB alone (R266, R355). -/
def State.lostIn (s : State) (pa n : Nat) : Bool :=
  decide (0 < n) && (List.range ((pa + n - 1) / 4096 - pa / 4096 + 1)).any (fun i => s.lost ((pa / 4096 + i) * 4096))

/-- The words of `[pa, pa + n)` that are uncorrectable: the first bad byte. -/
def firstBad (bad : List Nat) (pa n : Nat) : Option Nat :=
  (List.range (n / 8 + 2)).findSome? (fun i =>
    let w := pa / 8 * 8 + 8 * i
    if w < pa + n && bad.contains w then some (max w pa) else none)

/-! ### Format windows (R169–R172) -/

def FormatWindow.en (w : FormatWindow) : Bool := w.fwctl.getLsbD 63
def FormatWindow.fmt (w : FormatWindow) : Nat := bits w.fwctl.toNat 62 60
def FormatWindow.cbase (w : FormatWindow) : Nat := bits w.fwctl.toNat 56 8 * 256
def FormatWindow.blocks (w : FormatWindow) : Nat := bits w.fwlen.toNat 31 0
def FormatWindow.pbase (w : FormatWindow) : Nat := bits w.fwpk.toNat 56 8 * 256
def FormatWindow.sbase (w : FormatWindow) : Nat := bits w.fwsc.toNat 56 8 * 256

/-- The enabled window of a die whose container range holds an address. -/
def Die.windowAt (x : Die) (pa : Nat) : Option FormatWindow :=
  x.fw.toList.find? (fun w => w.en && w.cbase ≤ pa && pa < w.cbase + 8448 * w.blocks)

/-- R170: the storage of the container line at `pa`: where it lies and how long it is. -/
def FormatWindow.storage (w : FormatWindow) (pa : Nat) : Nat × Nat :=
  let o := pa / 256 * 256 - w.cbase
  let b := o / 8448
  let j := o % 8448
  if j ≥ 8192 then (w.sbase + 256 * b, 256)
  else if w.fmt = 1 then (w.pbase + 6144 * b + j / 4 * 3, 192)
  else (w.pbase + 8192 * b + j, 256)

/-- Four 6-bit containers from three packed bytes. -/
def unpack6 : List Byte → List Byte
  | x :: y :: z :: r =>
    let w := leNat [x, y, z]
    BitVec.ofNat 8 (w % 64) :: BitVec.ofNat 8 (w / 64 % 64) :: BitVec.ofNat 8 (w / 4096 % 64) ::
      BitVec.ofNat 8 (w / 262144 % 64) :: unpack6 r
  | _ => []
/-- Three packed bytes from four containers; bits [7:6] are discarded. -/
def pack6 : List Byte → List Byte
  | a :: b :: c :: d :: r =>
    leBytes 3 (a.toNat % 64 + b.toNat % 64 * 64 + c.toNat % 64 * 4096 + d.toNat % 64 * 262144) ++ pack6 r
  | _ => []

/-- R171: a fill of the container line at `pa`. -/
def State.fillContainer (s : State) (w : FormatWindow) (pa : Nat) : List Byte :=
  let (a, n) := w.storage pa
  if n = 192 then unpack6 (s.mem.readBytes a n) else s.mem.readBytes a n

/-- R171: the storage bytes behind word i of a container line of `n` storage bytes. -/
def storageWord (n i : Nat) : Nat × Nat := if n = 192 then (6 * i, 6) else (8 * i, 8)

/-- R171: the words of a container line that a fill marks as uncorrectable. -/
def State.badContainer (s : State) (w : FormatWindow) (pa : Nat) : List Nat :=
  let (a, n) := w.storage pa
  ((List.range 32).filter (fun i =>
    (firstBad s.memBad (a + (storageWord n i).1) (storageWord n i).2).isSome)).map (fun i => pa / 256 * 256 + 8 * i)

/-- R171, R267: the write-back of a dirty container line; a word that is uncorrectable in L2 stays so in
storage. -/
def State.writeContainer (s : State) (w : FormatWindow) (pa : Nat) (line : List Byte) : State :=
  let (a, n) := w.storage pa
  let bad := ((List.range 32).filter (fun i => s.memBad.contains (pa / 256 * 256 + 8 * i))).flatMap (fun i =>
    let (o, k) := storageWord n i
    [(a + o) / 8 * 8, (a + o + k - 1) / 8 * 8])
  { s with mem := s.mem.writeBytes a (if n = 192 then pack6 line else line)
           memBad := s.memBad.filter (fun b => b < a || a + n ≤ b) ++ bad.eraseDups }

/-- A list of bytes as a line. -/
def toLine (l : List Byte) : Vector Byte 256 := Vector.ofFn (fun i => l.getD i.val 0)

/-- R120, R172: writes back (and perhaps discards) the container line at `pa`. -/
def State.cleanContainer (s : State) (d : Nat) (pa : Nat) (keep : Bool) : State :=
  match (s.die d).windowAt pa, (s.die d).container.find (pa / 256) with
  | some w, some l =>
    let s := if l.dirty then s.writeContainer w pa l.bytes.toList else s
    if keep then s.modDie d (fun x => { x with container := x.container.put (pa / 256) { l with dirty := false } })
    else
      let s := { s with memBad := s.memBad.filter (fun b => b / 256 ≠ pa / 256) ++ l.hidden }
      s.modDie d (fun x => { x with container := x.container.del (pa / 256) })
  | _, _ => s

/-- R267, R171: room for line `k` in its set of 16 ways. Lines of no window hold what memory holds, so that only
container lines are kept as data; one of a full set of them, a free choice, is written back and evicted. The model
evicts a container line at no other time (DESIGN CHOICE, log 44). -/
def State.l2Room (s : State) (d k : Nat) : State :=
  let set := (s.die d).container.keys.filter (fun j => j % 24576 = k % 24576 && j ≠ k)
  if set.length < 16 then s
  else (s.cleanContainer d (256 * set.getD (s.freeWord.toNat % set.length) 0) false).took

/-- R171: the line of a window at `pa` is held by the L2 of die `d`: filled from storage, with the words that are
uncorrectable there marked and those of the memory that the window hides set aside, unless it is held already. -/
def State.fillLine (s : State) (d : Nat) (w : FormatWindow) (pa : Nat) : State :=
  match (s.die d).container.find (pa / 256) with
  | some _ => s
  | none =>
    let s := s.l2Room d (pa / 256)
    let hid := s.memBad.filter (fun b => b / 256 = pa / 256)
    { s with memBad := s.memBad.filter (fun b => b / 256 ≠ pa / 256) ++ s.badContainer w pa }.modDie d (fun x =>
      { x with container := x.container.put (pa / 256) { bytes := toLine (s.fillContainer w pa), hidden := hid } })

/-- The bytes of a container line that the L2 holds. -/
def Die.lineBytes (x : Die) (pa : Nat) : List Byte :=
  match x.container.find (pa / 256) with
  | some l => l.bytes.toList
  | none => []
/-- R171: bytes written into a container line that the L2 holds. -/
def Die.writeLine (x : Die) (pa : Nat) (l : Vector Byte 256) : Die :=
  let hid := ((x.container.find (pa / 256)).map HeldLine.hidden).getD []
  { x with container := x.container.put (pa / 256) { bytes := l, dirty := true, hidden := hid } }

/-! ### Bytes at their home -/

/-- The window that holds an address of package memory, with its die. -/
def State.windowOf (s : State) (pa : Nat) : Option (Nat × FormatWindow) :=
  match homeDie pa with
  | some d => ((s.die d).windowAt pa).map (fun w => (d, w))
  | none => none

/-! ### Keys of the second tier (R356, R358) -/

/-- R351, R357: one partition by its number. -/
def Package.part (p : Package) (q : Nat) : Partition := if h : q < 4 then p.parts[q] else {}
def State.part (s : State) (q : Nat) : Partition := s.pkg.part q

/-- R356: the address lies in the enabled range of a partition. -/
def State.inStr (s : State) (q pa : Nat) : Bool :=
  let p := s.part q
  let b := (pa - 0x100000000000) / 2 ^ 30
  p.strEn && p.strBase ≤ b && b ≤ p.strLimit

/-- R356: the partition whose range holds a second-tier address. -/
def State.strOwner (s : State) (pa : Nat) : Option Nat := (List.range 4).find? (fun q => s.inStr q pa)

/-- R358: the memory key of a partition, by its number. -/
def State.keyOf (s : State) (q : Nat) : Nat := 2 ^ 32 * q + (s.part q).keyGen

/-- R358: the key under which a second-tier line was last written; none for one that nothing has written. -/
def State.keyAt (s : State) (pa : Nat) : Option Nat :=
  (s.tierKeys.find? (fun k => k.1 ≤ pa / 256 && pa / 256 < k.2.1)).map (fun k => k.2.2)

/-- R358: the line at `pa` as its present owner's key shows it: what it holds when it was written under that key, bytes that
nothing constrains when it was written under another (DESIGN CHOICE, log 49). -/
def State.tierLine (s : State) (pa : Nat) : List Byte :=
  let a := pa / 256 * 256
  let l := s.mem.readBytes a 256
  match s.keyAt pa, s.strOwner pa with
  | some k, some q =>
    if k = s.keyOf q then l else (List.range 256).map (fun i => Config.deciphered (a + i) k (s.keyOf q) l)
  | _, _ => l

/-- R358: runs of second-tier lines are written under a key. -/
def State.sealLines (s : State) (lo hi key : Nat) : State := { s with tierKeys := (lo, hi, key) :: s.tierKeys }

/-- R356, R358: a write to a second-tier line: the line is encrypted anew as a whole under its owner's key. -/
def State.tierWrite (s : State) (pa : Nat) (bs : List Byte) : State :=
  match s.strOwner pa with
  | none => { s with mem := s.mem.writeBytes pa bs }
  | some q =>
    if s.keyAt pa = some (s.keyOf q) then { s with mem := s.mem.writeBytes pa bs }
    else
      let l := s.tierLine pa
      { s.sealLines (pa / 256) (pa / 256 + 1) (s.keyOf q) with
        mem := (s.mem.writeBytes (pa / 256 * 256) l).writeBytes pa bs }

/-- Reads bytes of one line at the home; a container line is filled into the L2 (R171), and a second-tier line is decrypted
with its owner's key (R356). -/
def State.homeRead (s : State) (pa n : Nat) : State × List Byte :=
  match s.windowOf pa with
  | some (d, w) =>
    let s := s.fillLine d w pa
    (s, (((s.die d).lineBytes pa).drop (pa % 256)).take n)
  | none => (s, if inTier2 pa then ((s.tierLine pa).drop (pa % 256)).take n else s.mem.readBytes pa n)

/-- Replaces bytes of a list from a position on. -/
def overlay (l : List Byte) (i : Nat) (bs : List Byte) : List Byte := l.take i ++ bs ++ l.drop (i + bs.length)

/-- R104: words written whole lose their error. -/
def State.healMem (s : State) (pa n : Nat) : State :=
  { s with memBad := s.memBad.filter (fun w => !(pa ≤ w && w + 8 ≤ pa + n)) }

/-- Writes bytes of one line at the home (R104, R171, R356); a home that is lost takes no write (R322). -/
def State.homeWrite (s : State) (pa : Nat) (bs : List Byte) : State :=
  if s.lost pa then s
  else match s.windowOf pa with
  | some (d, w) =>
    ((s.fillLine d w pa).healMem pa bs.length).modDie d (fun x =>
      x.writeLine pa (toLine (overlay (x.lineBytes pa) (pa % 256) bs)))
  | none =>
    if inTier2 pa then (s.healMem pa bs.length).tierWrite pa bs
    else { s.healMem pa bs.length with mem := s.mem.writeBytes pa bs }

/-- Splits a range at line boundaries: position, length, with `fuel` pieces at most. -/
def linePieces : Nat → Nat → Nat → List (Nat × Nat)
  | 0, _, _ => []
  | fuel + 1, a, n =>
    if n = 0 then []
    else
      let m := min n (256 - a % 256)
      (a, m) :: linePieces fuel (a + m) (n - m)

/-- Any run of bytes at its home, line by line. -/
def State.homeReadAll (s : State) (pa n : Nat) : State × List Byte :=
  (linePieces (n / 256 + 2) pa n).foldl (fun acc p =>
    let (s, bs) := acc.1.homeRead p.1 p.2
    (s, acc.2 ++ bs)) (s, [])
def State.homeWriteAll (s : State) (pa : Nat) (bs : List Byte) : State :=
  (linePieces (bs.length / 256 + 2) pa bs.length).foldl
    (fun s p => s.homeWrite p.1 ((bs.drop (p.1 - pa)).take p.2)) s

/-- R267, R171: the lines of a run that lie in a format window are held by the L2, so that their words carry the marks
of storage. -/
def State.homeTouch (s : State) (pa n : Nat) : State :=
  (linePieces (n / 256 + 2) pa n).foldl (fun s p =>
    match s.windowOf p.1 with
    | some (d, w) => s.fillLine d w p.1
    | none => s) s

/-- R104, R171, R301: the first byte of `[pa, pa + n)` that its home reads as uncorrectable, with the lines of a window
filled. -/
def State.badAt (s : State) (pa n : Nat) : Option Nat :=
  if s.lost pa then some pa else firstBad (s.homeTouch pa n).memBad pa n
/-- The uncorrectable words of a run of whole words. -/
def State.badWords (s : State) (pa n : Nat) : List Nat :=
  let bad := (s.homeTouch pa n).memBad.filter (fun w => pa ≤ w && w < pa + n)
  if s.lostIn pa n then (List.range (n / 8)).filterMap (fun i =>
    let w := pa + 8 * i
    if s.lost w || bad.contains w then some w else none)
  else bad

/-- R104, R147: words are marked as uncorrectable, but those of a lost home, which takes no write. -/
def State.markBad (s : State) (ws : List Nat) : State :=
  { s with memBad := s.memBad ++ (ws.filter (fun w => !s.memBad.contains w && !s.lost w)).eraseDups }

/-- What the home holds at `[pa, pa + n)`, as a number; a line that only this read fills is not kept. -/
def State.homeNat (s : State) (pa n : Nat) : Nat := leNat (s.homeReadAll pa n).2
/-- The low `n` bytes of a number, written at the home. -/
def State.putNat (s : State) (pa n v : Nat) : State := s.homeWriteAll pa (leBytes n v)

/-- A run of bytes is not plain memory: it meets the container range of an enabled window, the second tier or a lost home. -/
def State.meetsWindow (s : State) (pa n : Nat) : Bool :=
  inTier2 pa || inTier2 (pa + n) || s.lostIn pa n || s.dies.cells.any (fun d => d.2.fw.toList.any (fun w => w.en && w.cbase < pa + n && pa < w.cbase + 8448 * w.blocks))

/-- R128, R207: `n` bytes of an SRAM, from `a` on, are written to memory at `pa`. -/
def State.writeBack (s : State) (m : Memory) (a pa n : Nat) : State :=
  if s.meetsWindow pa n then s.homeWriteAll pa (m.readBytes a n) else { s.healMem pa n with mem := m.blit a s.mem pa n }
/-- R128, R207: `n` bytes of memory at `pa` refill an SRAM from `a` on. -/
def State.refill (s : State) (pa : Nat) (m : Memory) (a n : Nat) : State × Memory :=
  if s.meetsWindow pa n then
    let r := s.homeReadAll pa n
    (r.1, m.writeBytes a r.2)
  else (s, s.mem.blit pa m a n)

end Sys2Proof.Machine
end

