-- ==== Sys2Proof/Machine/Ops.lean ====
section
/-! DEFINITION. The named operations on the state: access to threads, cores, clusters and dies, general
registers (R10–R12), free values, events (R371), traps (R22–R27), parking and waking, and how an instruction
ends. -/

namespace Sys2Proof.Machine

/-- One outcome of an instruction or event. -/
abbrev Out := Host.Outcome State Fault Refusal

/-! ### Places -/

def coreOf (tid : Nat) : Nat := tid / 4
def slotOf (tid : Nat) : Nat := tid % 4
def tidOf (core slot : Nat) : Nat := core * 4 + slot
/-- COREID[9:8] (R124). -/
def dieOf (core : Nat) : Nat := core / 256
/-- die·8 + cluster (R234). -/
def clusterOf (core : Nat) : Nat := core / 32

def State.thread (s : State) (t : Nat) : Thread := s.threads.get {} t
def State.setThread (s : State) (t : Nat) (x : Thread) : State := { s with threads := s.threads.put t x }
def State.modThread (s : State) (t : Nat) (f : Thread → Thread) : State := s.setThread t (f (s.thread t))
/-- The thread of the instruction in hand. -/
def State.me (s : State) : Thread := s.thread s.cur
def State.setMe (s : State) (x : Thread) : State := s.setThread s.cur x
def State.modMe (s : State) (f : Thread → Thread) : State := s.setMe (f s.me)
def State.core (s : State) (c : Nat) : Core := s.cores.get {} c
def State.setCore (s : State) (c : Nat) (x : Core) : State := { s with cores := s.cores.put c x }
def State.modCore (s : State) (c : Nat) (f : Core → Core) : State := s.setCore c (f (s.core c))
def State.cluster (s : State) (c : Nat) : Cluster := s.clusters.get {} c
def State.setCluster (s : State) (c : Nat) (x : Cluster) : State :=
  { s with clusters := s.clusters.put c x }
def State.modCluster (s : State) (c : Nat) (f : Cluster → Cluster) : State := s.setCluster c (f (s.cluster c))
def State.modPkg (s : State) (f : Package → Package) : State := { s with pkg := f s.pkg }

/-- The core of the instruction in hand. -/
def State.myCore (s : State) : Nat := coreOf s.cur
def State.myDie (s : State) : Nat := dieOf s.myCore
def State.myCluster (s : State) : Nat := clusterOf s.myCore

def State.modPart (s : State) (q : Nat) (f : Partition → Partition) : State :=
  if h : q < 4 then { s with pkg := { s.pkg with parts := s.pkg.parts.set q (f s.pkg.parts[q]) } } else s
/-- R264, R357: the partition that owns a die, if it is enabled. -/
def State.owner (s : State) (d : Nat) : Option Nat :=
  let q := (s.die d).part
  if (s.part q).en && (s.part q).dies.getLsbD d then some q else none
/-- R356, R357: an address of memory that no enabled partition owns. -/
def State.unowned (s : State) (pa : Nat) : Bool :=
  match homeDie pa with
  | some d => (s.owner d).isNone
  | none => inTier2 pa && (s.strOwner pa).isNone
/-- The partition of a thread. -/
def State.partOf (s : State) (tid : Nat) : Nat := (s.die (dieOf (coreOf tid))).part

/-! ### General registers (R10–R12) -/

/-- The physical code of a specifier: R12 for w0–w23, R11 for g4–g7. -/
def Thread.code (t : Thread) (r : Reg) : Nat :=
  let n := r.toNat
  if n < 24 then (8 * t.wb + n) % 96
  else if n < 28 then 72 + n
  else if t.mode then 76 + n
  else 72 + n

/-- R10: code 96 is g0 and reads zero. -/
def Thread.readCode (t : Thread) (k : Nat) : Word :=
  if k = 96 then 0 else if h : k < 108 then t.regs[k] else 0

/-- R10: a write to g0 is discarded. R147: a write of the whole register clears its error. -/
def Thread.writeCode (t : Thread) (k : Nat) (v : Word) : Thread :=
  if k = 96 then t
  else if h : k < 108 then { t with regs := t.regs.set k v, badRegs := t.badRegs.filter (· ≠ k) }
  else t

def Thread.rd (t : Thread) (r : Reg) : Word := t.readCode (t.code r)
def Thread.wr (t : Thread) (r : Reg) (v : Word) : Thread := t.writeCode (t.code r) v
/-- The value of a register of the thread in hand. -/
def State.rd (s : State) (r : Reg) : Word := s.me.rd r
/-- Writes a register of the thread in hand. -/
def State.wr (s : State) (r : Reg) (v : Word) : State := s.modMe (fun t => t.wr r v)

/-! ### Time and events -/

/-- R352: the global time count in ns; a package clock is 5/12 ns (R3), and a slewed correction never steps
back. -/
def State.gtime (s : State) : Word := BitVec.ofInt 64 (s.pkg.gtOffset + (s.clock * 5 / 12 : Nat))

/-- Saturating 32-bit count. -/
def sat32 (n : Nat) : Nat := min n 0xFFFFFFFF

/-- R371: one record into one ring, or counted as lost. -/
def State.ringPut (s : State) (f : Nat) (w0 a b : Nat) : State :=
  if h : f < 5 then
    let r := s.pkg.rings[f]
    if r.log2 = 0 || (r.prod - r.cons).toNat ≥ 2 ^ r.log2 then
      { s with pkg := { s.pkg with rings := s.pkg.rings.set f { r with lost := sat32 (r.lost + 1) } } }
    else
      let at_ := r.base.toNat + 32 * (r.prod.toNat % 2 ^ r.log2)
      let w := w0 + (r.prod.toNat % 0x10000) * 0x10000
      let s := s.homeWriteAll at_ (leBytes 8 w ++ leBytes 8 s.gtime.toNat ++ leBytes 8 a ++ leBytes 8 b)
      { s with pkg := { s.pkg with rings := s.pkg.rings.set f { r with prod := r.prod + 1, signal := true } } }
  else s

/-- R371, R372: an event of a die, or of Selvedge when `die` is none. -/
def State.postEvent (s : State) (die : Option Nat) (kind : Nat) (a b : Word) : State :=
  match die with
  | none => s.ringPut 0 (kind + 0x400) a.toNat b.toNat
  | some d =>
    let q := (s.die d).part
    let w0 := kind + d * 0x100 + q * 0x1000
    let tdi := (s.part q).tdi
    if (s.owner d).isSome && (tdi = 1 || tdi = 2) then
      (s.ringPut (q + 1) w0 a.toNat b.toNat).ringPut 0 w0 0 0
    else s.ringPut 0 w0 a.toNat b.toNat

/-! ### Traps (R22–R27) -/

/-- Why an instruction does not complete now: it traps, it waits at issue (R123) or its thread parks
(R28). -/
inductive Stop where
  | trap (t : Trap)
  | wait
  | park (w : Wait)
  deriving DecidableEq, Repr

/-- R124: COREID[11:0]. -/
def coreid (tid : Nat) : Nat := slotOf tid * 1024 + coreOf tid

/-- Members of a thread's gang, itself included (R140). -/
def State.gangOf (s : State) (tid : Nat) : List Nat :=
  let t := s.thread tid
  if t.gang then
    (List.range t.gangSz).map (fun j => tidOf (coreOf tid - t.gangIx + j) (slotOf tid))
  else [tid]

/-- R140, R142: two threads are members of one gang. A member that a disband has reached is in it no longer, though it may
have formed another one since. -/
def State.sameGang (s : State) (a b : Nat) : Bool :=
  (s.thread a).gang && (s.thread b).gang && slotOf a = slotOf b && (s.thread a).gangSz = (s.thread b).gangSz &&
    coreOf a - (s.thread a).gangIx = coreOf b - (s.thread b).gangIx

/-- R141: the thread is a follower. -/
def Thread.follows (t : Thread) : Bool := t.gang && t.gangIx ≠ 0
/-- R141: the leader of a follower's gang. -/
def Thread.leaderOf (t : Thread) (tid : Nat) : Nat := tidOf (coreOf tid - t.gangIx) (slotOf tid)

/-- R91: a yield that has not ended. -/
def Thread.yields (t : Thread) : Bool := t.yielding && !t.yieldSet.isEmpty
/-- R91: the thread, or the leader whose stream it follows while both are in the gang, is removed by a yield. -/
def State.yieldHolds (s : State) (tid : Nat) : Bool :=
  let t := s.thread tid
  if t.follows then s.sameGang tid (t.leaderOf tid) && (s.thread (t.leaderOf tid)).yields else t.yields

/-- R24, R143: the first instruction that a thread has not issued: for a ready follower the head of its weft
buffer. A follower's PC follows the leader's stream, so with an empty buffer it names what the leader would forward
next. -/
def State.boundaryPc (s : State) (tid : Nat) : Word :=
  let t := s.thread tid
  if t.gang && t.gangIx ≠ 0 && t.life = .ready then
    match t.weft with
    | f :: _ => f.pc
    | [] => t.pc
  else t.pc

/-- R27, R143: the gang of a trapping member disbands; every other member has the abort signal pending, the first that
reached it. The trapping member takes its own cause, whatever signal is pending. -/
def State.breakGang (s : State) (tid : Nat) : State :=
  let t := s.thread tid
  if t.gang then
    let s := (s.gangOf tid).foldl (fun s m =>
      if m = tid || !s.sameGang tid m then s
      else s.modThread m (fun u => { u with pc := s.boundaryPc m, abort := some (u.abort.getD (coreOf tid)) })) s
    s.modThread tid (fun u => { u with gang := false, gangIx := 0, gangSz := 1, weft := [], abort := none })
  else s

/-- A request that a thread waits for at issue, and that the thread gives up: no instruction, store or engine of it
awaits the answer. -/
def State.dropWaits (s : State) (tid : Nat) : State :=
  { s with reqs := s.reqs.filter (fun r =>
      !(r.tid = tid && r.dests.isEmpty && !r.engine && (s.thread tid).unacked.all (fun u => u.1 ≠ r.id))) }

/-- R20: the CAUSE that a trap would write. -/
def Trap.causeWord (t : Trap) (defr mult : Bool) : Word :=
  BitVec.ofNat 64 (t.code.toNat + t.sub.toNat * 256 + (if defr then 0x10000 else 0) + (if mult then 0x20000 else 0))

/-- R26, R372: a trap in handler mode halts the slot; its registers keep the values of the first trap, and the event
carries the CAUSE of the second. -/
def State.halt (s : State) (tid : Nat) (t : Trap) (defr mult : Bool := false) : State :=
  let s := (s.breakGang tid).dropWaits tid
  let s := s.modThread tid (fun u => { u with life := .halted, wait := none, haltCause := some t })
  s.postEvent (some (dieOf (coreOf tid))) 0x01 (BitVec.ofNat 64 (coreid tid))
    (t.causeWord defr mult)

/-- R23: the registers that a trap writes. -/
def Thread.trapped (u : Thread) (t : Trap) (fpc resume : Word) (defr mult : Bool) : Thread :=
  { u with
    life := .ready, wait := none
    causeMult := mult, causeDef := defr, causeSub := t.sub, causeCode := t.code
    epc := resume, fpc := fpc, eval := t.eval
    pmode := u.mode, pskc := u.skc, skc := 0, mode := true, pc := u.hvec }

/-- R23: taking a trap at an instruction boundary. -/
def State.takeTrap (s : State) (tid : Nat) (t : Trap) (fpc resume : Word) (defr mult : Bool) : State :=
  if (s.thread tid).mode then s.halt tid t defr mult
  else
    ((s.breakGang tid).dropWaits tid).modThread tid (·.trapped t fpc resume defr mult)

/-- R23, R89: the return from a trap, at one instruction boundary. -/
def State.returnFromTrap (s : State) (tid : Nat) : State :=
  s.modThread tid (fun u => { u with mode := u.pmode, skc := u.pskc, pc := u.epc })

/-- R24: a fault that arrives after its instruction, issued in handler mode or not, has had an effect. -/
def State.deferFault (s : State) (tid : Nat) (t : Trap) (fpc : Word) (order : Nat) (handler : Bool) : State :=
  s.modThread tid (fun u => { u with
    deferred := u.deferred ++ [{ trap := t, fpc := fpc, order := order, handler := handler }] })

/-- R89: the pending faults that the thread takes at its next boundary: in handler mode those of instructions issued
there; the others wait for rte. -/
def Thread.due (t : Thread) : List Deferred := if t.mode then t.deferred.filter (·.handler) else t.deferred

/-- The cause-0x01, SUB 4 trap of the instruction in hand (R22: EVAL is its first word). -/
def State.badOperand (s : State) : Stop := .trap { code := 0x01, sub := 4, eval := s.ir.zeroExtend 64 }
/-- The cause-0x01, SUB 3 trap of the instruction in hand (R353). -/
def State.notAccepted (s : State) : Stop := .trap { code := 0x01, sub := 3, eval := s.ir.zeroExtend 64 }
/-- The cause-0x02 trap of the instruction in hand. -/
def State.privileged (s : State) : Stop := .trap { code := 0x02, eval := s.ir.zeroExtend 64 }

/-! ### How an instruction ends -/

/-- R33: the PC after an instruction of `len` bytes. -/
def State.advance (s : State) (len : Nat) : State :=
  s.modMe (fun t => { t with pc := t.pc + BitVec.ofNat 64 len })

/-- R28: the thread in hand parks at the instruction it has issued. -/
def State.park (s : State) (w : Wait) : State :=
  { s.modMe (fun t => { t with life := .parked, wait := some w, parkedAt := s.order }) with
    order := s.order + 1 }

/-- An instruction of `len` bytes ends: its effect and the PC's advance, its trap, its wait or its parking. -/
def State.finish (s : State) (len : Nat) : Except Stop State → Out
  | .ok s' => .next (s'.advance len)
  | .error (.trap t) => .next (s.takeTrap s.cur t s.me.pc s.me.pc false false)
  | .error .wait => .next { s with stalled := true }
  | .error (.park w) => .next (s.park w)

/-- The same for an instruction that has set the PC itself. -/
def State.finishAt (s : State) : Except Stop State → Out
  | .ok s' => .next s'
  | .error (.trap t) => .next (s.takeTrap s.cur t s.me.pc s.me.pc false false)
  | .error .wait => .next { s with stalled := true }
  | .error (.park w) => .next (s.park w)

/-- R28: a parked thread's awaited event arrives; its instruction (of 4 bytes) completes with a value for the
register of code `d`. -/
def State.unpark (s : State) (tid : Nat) (d : Nat) (v : Word) : State :=
  s.modThread tid (fun t => { t.writeCode d v with life := .ready, wait := none, pc := t.pc + 4 })

/-- A parked thread's instruction ends in a precise trap (R289, R246). -/
def State.trapParked (s : State) (tid : Nat) (t : Trap) : State :=
  s.takeTrap tid t (s.thread tid).pc (s.thread tid).pc false false

/-- The thread is parked on a core (R28). -/
def Thread.waits (t : Thread) : Option Wait := if t.life = .parked then t.wait else none

/-- Listed thread numbers. -/
def State.tids (s : State) : List Nat := s.threads.keys

/-- Parked threads whose wait satisfies `p`, in the order in which they parked. -/
def insertBy {α : Type} (le : α → α → Bool) (x : α) : List α → List α
  | [] => [x]
  | y :: r => if le x y then x :: y :: r else y :: insertBy le x r
def sortBy {α : Type} (le : α → α → Bool) : List α → List α
  | [] => []
  | x :: r => insertBy le x (sortBy le r)
def State.parkedWith (s : State) (p : Nat → Wait → Bool) : List Nat :=
  let l := s.tids.filter (fun t => match (s.thread t).waits with | some w => p t w | none => false)
  sortBy (fun a b => (s.thread a).parkedAt ≤ (s.thread b).parkedAt) l

/-! ### Flights (R50–R53) -/

/-- A long-latency instruction of the thread in hand is now in flight. L = 15 never limits issue (R51). -/
def State.launch (s : State) (kind : FlightKind) (look : Nat) (srcs dests : List Nat) : State :=
  { s.modMe (fun t =>
      { t with flights := t.flights ++ [{ id := s.nextId, kind := kind
                                          left := if look = 15 then none else some look
                                          srcs := srcs, dests := dests, handler := t.mode
                                          pc := t.pc, order := s.order }] }) with
    nextId := s.nextId + 1 }

/-- R50: the instruction is complete. -/
def State.land (s : State) (tid id : Nat) : State :=
  s.modThread tid (fun t => { t with flights := t.flights.filter (fun f => f.id ≠ id) })

/-- R116: nothing long-latency is outstanding and every store has been acknowledged. -/
def Thread.drained (t : Thread) : Bool := t.flights.isEmpty && t.unacked.isEmpty

/-- The flight with a number. -/
def Thread.flight (t : Thread) (id : Nat) : Option Flight := t.flights.find? (fun f => f.id = id)

/-- R116: a flight of handler mode (R89). -/
def Thread.flightHandler (t : Thread) (id : Nat) : Bool :=
  match t.flight id with
  | some f => f.handler
  | none => t.mode

/-- R24, R89: a fault comes back from an instruction in flight: precise while nothing has issued since, deferred
otherwise, and deferred until rte when task mode issued it and the thread is in handler mode. -/
def State.flightFault (s : State) (tid id : Nat) (t : Trap) : State :=
  match (s.thread tid).flight id with
  | none => s
  | some f =>
    let s := s.land tid id
    if f.later || ((s.thread tid).mode && !f.handler) then s.deferFault tid t f.pc f.order f.handler
    else s.takeTrap tid t f.pc f.pc false false

/-- R22: causes whose traps are always precise. -/
def alwaysPrecise (code : BitVec 8) : Bool :=
  code = 0x01 || code = 0x02 || code = 0x03 || code = 0x06 || code = 0x07 || code = 0x08 || code = 0x0B ||
    code = 0x0C || code = 0x0E || code = 0x0F

/-- R24, R101: the instruction in hand, of `len` bytes and L = `look`, which writes the registers of codes `dests`, has
failed a check. With L = 0 or an always precise cause its trap is taken now; otherwise the fault is on its way back. -/
def State.fail (s : State) (len look : Nat) (dests : List Nat) (t : Trap) : Out :=
  if look = 0 || alwaysPrecise t.code then .next (s.takeTrap s.cur t s.me.pc s.me.pc false false)
  else
    let r : Request := { id := s.nextId, tid := s.cur, op := .load false, va := t.eval, n := 0, pc := s.me.pc
                         order := s.order, dests := dests, resp := some (.err t) }
    .next (({ s.launch .memory look [] dests with reqs := s.reqs ++ [r] }).advance len)

/-- An instruction of `len` bytes and L = `look` ends. -/
def State.finishWith (s : State) (len look : Nat) (dests : List Nat) : Except Stop State → Out
  | .ok s' => .next (s'.advance len)
  | .error (.trap t) => s.fail len look dests t
  | .error .wait => .next { s with stalled := true }
  | .error (.park w) => .next (s.park w)

end Sys2Proof.Machine
end

