-- ==== Sys2Proof/Machine/Operands.lean ====
section
/-! DEFINITION. Operand forms and the arithmetic of the scalar pipeline (R38, R41, R66–R83). -/

namespace Sys2Proof.Machine

/-! ### Arithmetic on 64 bits (R70, R71) -/

/-- R70: counts use b[5:0]. -/
def shlW (a b : Word) : Word := a <<< (b.toNat % 64)
def shrW (a b : Word) : Word := a >>> (b.toNat % 64)
def sraW (a b : Word) : Word := a.sshiftRight (b.toNat % 64)
def rolW (a b : Word) : Word := a.rotateLeft (b.toNat % 64)
def minS (a b : Word) : Word := if a.slt b then a else b
def maxS (a b : Word) : Word := if a.slt b then b else a
def minU (a b : Word) : Word := if a.ult b then a else b
def maxU (a b : Word) : Word := if a.ult b then b else a
/-- 1 or 0. -/
def flag (p : Bool) : Word := if p then 1 else 0
def sltW (a b : Word) : Word := flag (a.slt b)
def sltuW (a b : Word) : Word := flag (a.ult b)
def seqW (a b : Word) : Word := flag (a == b)
/-- R70: the high 64 bits of the exact product. -/
def mulhW (a b : Word) : Word := BitVec.ofInt 64 (a.toInt * b.toInt / 2 ^ 64)
def mulhuW (a b : Word) : Word := BitVec.ofNat 64 (a.toNat * b.toNat / 2 ^ 64)
/-- R71: division never traps. -/
def divW (a b : Word) : Word :=
  if b = 0 then BitVec.allOnes 64 else BitVec.ofInt 64 (Int.tdiv a.toInt b.toInt)
def divuW (a b : Word) : Word := if b = 0 then BitVec.allOnes 64 else BitVec.ofNat 64 (a.toNat / b.toNat)
def remW (a b : Word) : Word := if b = 0 then a else BitVec.ofInt 64 (Int.tmod a.toInt b.toInt)
def remuW (a b : Word) : Word := if b = 0 then a else BitVec.ofNat 64 (a.toNat % b.toNat)

/-- The lowest set bit among bits `i, i+1, … , i+n−1`, or `i + n`. -/
def lowestSet (a : Word) : Nat → Nat → Nat
  | i, 0 => i
  | i, n + 1 => if a.getLsbD i then i else lowestSet a (i + 1) n
/-- How many of the bits below `n` are 1. -/
def countOnes {w : Nat} (a : BitVec w) : Nat → Nat
  | 0 => 0
  | n + 1 => countOnes a n + (if a.getLsbD n then 1 else 0)
/-- Bits in reverse order. -/
def brevW (a : Word) : Word := a.reverse
def ctzW (a : Word) : Word := BitVec.ofNat 64 (lowestSet a 0 64)
def clzW (a : Word) : Word := BitVec.ofNat 64 (lowestSet (brevW a) 0 64)
def popcW (a : Word) : Word := BitVec.ofNat 64 (countOnes a 64)
/-- R70: bytes in reverse order. -/
def bswapW (a : Word) : Word :=
  a.extractLsb' 0 8 ++ a.extractLsb' 8 8 ++ a.extractLsb' 16 8 ++ a.extractLsb' 24 8 ++
  a.extractLsb' 32 8 ++ a.extractLsb' 40 8 ++ a.extractLsb' 48 8 ++ a.extractLsb' 56 8
/-- R70: the width code 0, 1 or 2 names 8, 16 or 32 bits. -/
def sextW (w : BitVec 2) (a : Word) : Word :=
  match w.toNat with
  | 0 => (a.extractLsb' 0 8).signExtend 64
  | 1 => (a.extractLsb' 0 16).signExtend 64
  | _ => (a.extractLsb' 0 32).signExtend 64
def zextW (w : BitVec 2) (a : Word) : Word :=
  match w.toNat with
  | 0 => (a.extractLsb' 0 8).zeroExtend 64
  | 1 => (a.extractLsb' 0 16).zeroExtend 64
  | _ => (a.extractLsb' 0 32).zeroExtend 64

/-- R78: the six conditions. -/
def cond (k : Nat) (a b : Word) : Bool :=
  match k with
  | 0 => a == b
  | 1 => a != b
  | 2 => a.slt b
  | 3 => !a.slt b
  | 4 => a.ult b
  | _ => !a.ult b

/-! ### Address forms (R41, R79, R105, R106) -/

/-- R41: a displacement in halfwords. -/
def halfwords {n : Nat} (i : BitVec n) : Word := i.signExtend 64 <<< 1
/-- R79, R106: base and scaled index. -/
def scaled (a b : Word) (ss : BitVec 2) : Word := a + (b <<< ss.toNat)
/-- R105: base and offset in units of the access size. -/
def offset (a : Word) (n : Nat) (o : BitVec 8) : Word := a + BitVec.ofNat 64 n * o.signExtend 64

/-! ### Common endings -/

/-- Writes d and advances by the instruction's length. -/
def State.ends (s : State) (len : Nat) (d : Reg) (v : Word) : Out := s.finish len (.ok (s.wr d v))
/-- A three-register instruction. -/
def State.alu (s : State) (d : Reg) (x y : Word) (f : Word → Word → Word) : Out := s.ends 4 d (f x y)
/-- R37: the destination is also the first source. -/
def State.short (s : State) (d : Reg) (x : Word) (f : Word → Word → Word) : Out := s.ends 2 d (f (s.rd d) x)
/-- R78, R19: SKC takes n + 1 when the condition holds. -/
def State.skip (s : State) (len : Nat) (holds : Bool) (n : BitVec 2) : Out :=
  s.finish len (.ok (if holds then s.modMe (fun t => { t with skc := n.zeroExtend 3 + 1 }) else s))

/-! ### State registers as words (R18, R20, R21, R233) -/

/-- R18: STATUS as a word. -/
def Thread.status (t : Thread) : Word :=
  BitVec.ofNat 64 ((if t.mode then 1 else 0) + (if t.tcm then 4 else 0) + t.rm.toNat * 8 +
    (if t.pmode then 256 else 0) + (if t.gang then 512 else 0) + t.skc.toNat * 1024 + t.pskc.toNat * 8192)
/-- R20: CAUSE as a word. -/
def Thread.cause (t : Thread) : Word :=
  BitVec.ofNat 64 (t.causeCode.toNat + t.causeSub.toNat * 256 + (if t.causeDef then 0x10000 else 0) +
    (if t.causeMult then 0x20000 else 0))
/-- R21: WDEPTH as a word. -/
def Thread.wdepth (t : Thread) : Word := BitVec.ofNat 64 (t.depth + t.wb * 16 + t.spilled * 256)
/-- R233: LAUNCH as a word. -/
def Thread.launchWord (t : Thread) : Word := BitVec.ofNat 64 (t.recIx + (if t.inl then 0x10000 else 0))

end Sys2Proof.Machine
end

