-- ==== Sys2Proof/Machine/Mem.lean ====
section
/-! DEFINITION. Memory as every requester reaches it: address spaces (R97), translation (R291–R296), homes and
the checks at them (R101, R266, R356, R359), uncorrectable data (R104), the violation log (R369, R370), format
windows (R169–R172), scratchpads with their frames and windows (R125–R131), the remote-data cache
(R268–R270) and watermarks (R278). -/

namespace Sys2Proof.Machine

/-! ### Requesters -/

/-- Who makes an access (R131, R369). -/
inductive Rq where
  | thread (tid : Nat)
  /-- An engine that acts for a core (R303). -/
  | engine (core : Nat)
  | fabric (peer : Nat)
  | host (fn : Nat)
  deriving DecidableEq, Repr

/-- R369: the source kind. -/
def Rq.kind : Rq → Nat
  | .thread _ => 0
  | .engine _ => 1
  | .fabric _ => 2
  | .host _ => 3
/-- R131: the requester id. -/
def Rq.id : Rq → Nat
  | .thread t => coreOf t
  | .engine c => c
  | .fabric _ => 0
  | .host _ => 0
def Rq.peer : Rq → Nat
  | .fabric p => p
  | _ => 0

/-- What an access does. -/
inductive Acc where
  | load | store | atomic | fetch
  /-- R118: ld.sc and st.sc. -/
  | scLoad | scStore
  /-- R120: zln; and cln, inv, flush. -/
  | zero | cache
  /-- R199, R369: a record of ksend. -/
  | record
  deriving DecidableEq, Repr

/-- R101: the accesses that need write permission. -/
def Acc.writes : Acc → Bool
  | .store | .atomic | .scStore | .zero => true
  | _ => false
/-- R369: 0 load, 1 store, 2 atomic, 3 record. -/
def Acc.code : Acc → Nat
  | .store | .scStore | .zero => 1
  | .atomic => 2
  | .record => 3
  | _ => 0

/-- What an access that reached its target brings back. -/
inductive Did (α : Type) where
  | ok (s : State) (v : α)
  | err (s : State) (t : Trap)
  /-- It waits (R278, R363). -/
  | wait
  deriving Repr

/-- The instruction that makes the access ends with what the access brought back. -/
def Did.bind {α β : Type} : Did α → (State → α → Did β) → Did β
  | .ok s v, f => f s v
  | .err s t, _ => .err s t
  | .wait, _ => .wait

/-! ### The violation log (R103, R369, R370) -/

/-- The lowest entry with V = 0. -/
def freeEntry (log : Vector Violation 64) : Option Nat :=
  (List.range 64).find? (fun i => if h : i < 64 then !log[i].v else false)

/-- R369: the partition that owns the target of an access logged at a die: of second-tier memory the one whose range holds it,
and where no range does the die's own (DESIGN CHOICE, log 59: no partition owns that target). -/
def State.targetPart (s : State) (d addr : Nat) : Nat :=
  if inTier2 addr then (s.strOwner addr).getD (s.die d).part else (s.die d).part

/-- R369, R370. -/
def State.logViolation (s : State) (d : Nat) (addr : Nat) (rq : Rq) (key resp : Nat) (acc : Acc) : State :=
  let x := s.die d
  match freeEntry x.vlog with
  | none => s.setDie d { x with vLost := sat32 (x.vLost + 1) }
  | some i =>
    let what := if rq.kind = 1 && acc.writes then 3 else acc.code
    let w1 := rq.id + rq.peer * 2 ^ 10 + key * 2 ^ 22 + s.targetPart d addr * 2 ^ 24 + rq.kind * 2 ^ 26 +
      resp * 2 ^ 28 + what * 2 ^ 32
    let e : Violation := { w0 := BitVec.ofNat 64 addr, w1 := BitVec.ofNat 64 w1, w2 := s.gtime
                           v := true, seq := x.vSeq }
    let log := if h : i < 64 then x.vlog.set i e else x.vlog
    (s.setDie d { x with vlog := log, vSeq := (x.vSeq + 1) % 0x10000 }).postEvent (some d) 0x09
      (BitVec.ofNat 64 d) (BitVec.ofNat 64 x.vSeq)

/-! ### Homes (R266) -/

/-- R359: whether the key carried may reach the target; PF0 matches any unlocked partition. -/
def State.keyMay (s : State) (rq : Rq) (key owner : Nat) : Bool :=
  match rq with
  | .host 0 => (s.part owner).tdi = 0
  | _ => owner = key

/-- R101, R356, R359, R301: the checks at the home of physical bytes. `eva` is what EVAL would hold. -/
def State.homeCheck (s : State) (rq : Rq) (acc : Acc) (pa key : Nat) (eva : Word) : Did Unit :=
  let mismatch : Trap := { code := 0x05, sub := 3, eval := eva }
  let dead : Trap := { code := 0x0D, sub := 0, eval := eva }
  match homeDie pa with
  | some d =>
    if s.dead d then .err s dead
    else match s.owner d with
      | none => .err (s.logViolation d pa rq key 1 acc) mismatch
      | some q =>
        if s.keyMay rq key q then .ok s () else .err (s.logViolation d pa rq key 1 acc) mismatch
  | none =>
    if inTier2 pa then
      if (match rq with
          | .host 0 => (List.range 4).any (fun q => s.inStr q pa && (s.part q).tdi = 0)
          | _ => s.inStr key pa) then
        if s.tier2Served pa then .ok s () else .err s dead
      -- R103: the log of the die from which the access comes (DESIGN CHOICE, log 36): no die homes the second tier
      else .err (s.logViolation (dieOf rq.id) pa rq key 1 acc) mismatch
    else .err s { code := 0x04, sub := 1, eval := eva }

/-- R356: poisoned data from a second-tier device is reported. -/
def State.poisonMet (s : State) (pa : Nat) : State :=
  if inTier2 pa then
    s.postEvent none 0x0C (BitVec.ofNat 64 (16 + (pa - 0x100000000000) / 4096 % 2 ^ s.pkg.cxlWays.toNat)) 3
  else s

/-- R104: a load at the home. -/
def State.homeLoad (s : State) (rq : Rq) (acc : Acc) (pa n key : Nat) (eva : Word) : Did (List Byte) :=
  (s.homeCheck rq acc pa key eva).bind fun s _ =>
    let (s, bs) := s.homeReadAll pa n
    match firstBad s.memBad pa n with
    | some b => .err (s.poisonMet pa) { code := 0x0D, eval := eva + BitVec.ofNat 64 (b - pa) }
    | none => .ok s bs

/-- R104: a store of part of an uncorrectable word does not write. -/
def State.homeStore (s : State) (rq : Rq) (acc : Acc) (pa key : Nat) (bs : List Byte) (eva : Word) : Did Unit :=
  (s.homeCheck rq acc pa key eva).bind fun s _ =>
    let s := s.homeTouch pa bs.length
    let partly := s.memBad.filter (fun w => w < pa + bs.length && pa < w + 8 &&
      !(pa ≤ w && w + 8 ≤ pa + bs.length))
    match partly with
    | w :: _ => .err (s.poisonMet pa) { code := 0x0D, eval := eva + BitVec.ofNat 64 (max w pa - pa) }
    | [] => .ok (s.homeWriteAll pa bs) ()

/-! ### Translation (R291–R296) -/

/-- R292: the fields of a leaf entry for an address. -/
def leafOf (e va nbits : Nat) : Leaf :=
  { pa := bits e 47 18 * 2 ^ 18 + va % 2 ^ nbits, key := bits e 9 8, mode := bits e 7 6, peer := bits e 63 52
    t := bits e 13 10, w := bits e 1 1 = 1, x := bits e 2 2 = 1 }

/-- R292, R294: a leaf whose reserved bits are zero and whose frame is aligned. -/
def leafFormed (e nbits : Nat) : Bool :=
  bits e 51 48 = 0 && bits e 17 14 = 0 && bits e 5 4 = 0 && (bits e 47 18 * 2 ^ 18) % 2 ^ nbits = 0
/-- R294: a mode-0 leaf names no peer, and the address it gives has a home. -/
def Leaf.lies (l : Leaf) : Bool := l.mode ≠ 0 || (l.peer = 0 && hasHome l.pa)

/-- R292: a table entry's reserved bits are zero. -/
def tableValid (e : Nat) : Bool := bits e 63 48 = 0 && bits e 15 1 = 0

/-- What a walk gives. -/
inductive Walk where
  | leaf (e nbits : Nat)
  /-- No valid entry (R294); `report` is the entry when the walk failed on a reserved bit or alignment. -/
  | fault (report : Option Nat)
  | uncorrectable
  /-- R357, R359: the home of the table word at `pa` refuses the walker, which carries `key` once a leaf has given one. -/
  | refused (pa key : Nat)
  deriving DecidableEq, Repr

/-- R359: the partition that owns the memory at an address. -/
def State.ownerAt (s : State) (pa : Nat) : Option Nat :=
  match homeDie pa with
  | some d => s.owner d
  | none => if inTier2 pa then s.strOwner pa else none

/-- R359: what a walk gives once its leaf is known: the walker's accesses carry the key of the page that they translate, and
the home of each table word that was read compares it. -/
def State.keyedWalk (s : State) (key : Nat) (leaf : Walk) : List Nat → Walk
  | [] => leaf
  | a :: r => if s.ownerAt a = some key then s.keyedWalk key leaf r else .refused a key

/-- R291, R267, R301: one table read, through the home L2, and what follows; `levels` says how many tables may follow, with the index position
and page size of each; `seen` are the words read before. A home that no enabled partition owns refuses the read (R357). -/
def State.walkFrom (s : State) (va : Nat) (seen : List Nat) : List Nat → Nat → Walk
  | [], _ => .fault none
  | nbits :: rest, base =>
    let at_ := base + 8 * bits va (nbits + 12) nbits
    if s.lost at_ then .uncorrectable
    else if s.unowned at_ then .refused at_ 0
    else if (s.badAt at_ 8).isSome then .uncorrectable
    else
      let e := s.homeNat at_ 8
      if bits e 0 0 = 0 then .fault none
      else if bits e 3 3 = 1 then
        if !leafFormed e nbits then .fault (some e)
        else if (leafOf e va nbits).lies then s.keyedWalk (leafOf e va nbits).key (.leaf e nbits) (seen ++ [at_])
        else .fault none
      else match rest with
        | [] => .fault none
        | _ => if tableValid e then s.walkFrom va (seen ++ [at_]) rest (bits e 47 16 * 2 ^ 16) else .fault (some e)

/-- R291: at most three tables, of 16 TiB, 2 GiB and 256 KiB entries. -/
def State.walk (s : State) (d va : Nat) : Walk :=
  let x := s.die d
  if x.ptEn then s.walkFrom va [] [44, 31, 18] (x.ptBase.toNat) else .fault none

/-- The key of a TLB entry: page number and page size. -/
def tlbKey (va nbits : Nat) : Nat := va / 2 ^ nbits * 64 + nbits

/-- R295, R296: a translation held by the die's TLBs. -/
def State.tlbHit (s : State) (d va : Nat) : Option (Nat × Nat) :=
  [18, 31, 44].findSome? (fun n =>
    match (s.die d).tlb.find (tlbKey va n) with
    | some e => some (e.entry.toNat, n)
    | none => none)

/-- R291, R294: the leaf of a translated address, from a TLB or a walk. -/
def State.translate (s : State) (d : Nat) (va : Word) : Except Trap Leaf :=
  let a := bits va.toNat 56 0
  if !(s.die d).ptEn then .error { code := 0x04, sub := 1, eval := va }
  else match s.tlbHit d a with
  | some (e, n) => if (leafOf e a n).lies then .ok (leafOf e a n) else .error { code := 0x04, sub := 1, eval := va }
  | none =>
    match s.walk d a with
    | .leaf e n => .ok (leafOf e a n)
    | .fault _ => .error { code := 0x04, sub := 1, eval := va }
    | .uncorrectable => .error { code := 0x0D, eval := va }
    | .refused _ _ => .error { code := 0x05, sub := 3, eval := va }

/-- R294: a walk that fails on a reserved bit or alignment is reported; R103: one whose table read is refused enters the log
of the home. -/
def State.reportWalk (s : State) (d : Nat) (va : Word) : State :=
  if (s.die d).ptEn && (s.tlbHit d (bits va.toNat 56 0)).isNone then
    match s.walk d (bits va.toNat 56 0) with
    | .fault (some e) => s.postEvent (some d) 0x06 va (BitVec.ofNat 64 e)
    | .refused pa key => s.logViolation ((homeDie pa).getD d) pa (.engine (256 * d)) key 1 .load
    | _ => s
  else s

/-- R294: the report of a translation fault of an instruction, at the address that EVAL names; a fault that comes
before the walk reports nothing. -/
def State.reportFault (s : State) (d : Nat) (t : Trap) : State :=
  if ((t.code = 0x04 && t.sub = 1) || (t.code = 0x05 && t.sub = 3)) && t.eval.toNat / 2 ^ 56 ≤ 1 then s.reportWalk d t.eval
  else s

/-! ### Spaces (R97–R101) -/

/-- VA[63:56]. -/
def space (va : Word) : Nat := va.toNat / 2 ^ 56

/-- R97: whether a space accepts the kind of access. -/
def accepts (sp : Nat) (acc : Acc) (n : Nat) (single : Bool) : Bool :=
  if sp ≤ 1 then true
  else if sp = 0xF0 || sp = 0xF1 then
    match acc with
    | .scLoad | .scStore | .fetch => false
    | _ => true
  else if sp = 0xF2 || sp = 0xF3 || sp = 0xF4 then
    match acc with
    | .load | .store => single && (n = 4 || n = 8)
    | _ => false
  else false

/-- R97–R101, R107: the checks made at the issuing core, in their order, for `n` bytes. `single` is false for
pairs, quads and block transfers. In the register spaces 0xF2–0xF4 the alignment is checked here and the register's own
bits and offset where it is decoded, after it (DEDUCED, log 47). -/
def State.resolve (s : State) (tid : Nat) (acc : Acc) (va : Word) (n : Nat) (single : Bool := true) :
    Except Trap Target :=
  let a := va.toNat
  let sp := space va
  let bad (sub : BitVec 8) : Except Trap Target := .error { code := 0x04, sub := sub, eval := va }
  let aligned (t : Except Trap Target) : Except Trap Target :=
    if n ≤ 8 && a % n ≠ 0 then .error { code := 0x03, eval := va } else t
  if !accepts sp acc n single then bad 0
  else if sp = 0xF0 then
    if bits a 55 20 ≠ 0 || bits a 19 0 ≥ 0x60000 then bad 1
    else aligned (.ok (.scratch (coreOf tid) (bits a 19 0)))
  else if sp = 0xF1 then
    if bits a 55 42 ≠ 0 || bits a 31 20 ≠ 0 || bits a 19 0 ≥ 0x60000 then bad 1
    else aligned (.ok (.scratch (bits a 41 32) (bits a 19 0)))
  else if sp ≥ 0xF2 then aligned (.ok .reg)
  else aligned <|
    match s.translate (dieOf (coreOf tid)) va with
    | .error t => .error t
    | .ok l =>
      if acc.writes && !l.w then .error { code := 0x05, sub := 1, eval := va }
      else if acc = .atomic && l.mode ≠ 0 then .error { code := 0x05, sub := 1, eval := va }
      else if l.mode = 0 then .ok (.mem l) else .ok (.far l)

/-! ### Scratchpads (R125–R131) -/

/-- The first byte past the scratchpad. -/
def scratchSize : Nat := 0x60000

/-- R128: writes back frame `f` if dirty and refills it for the current context. -/
def State.swapFrame (s : State) (c f : Nat) : State :=
  if h : f < 24 then
    let x := s.core c
    let fr := x.frames[f]
    let a := 0x4000 * f
    -- write-back, poisoned words included (R147)
    let s := if fr.ctx.isSome && fr.dirty then
        (s.writeBack x.scratch a (fr.base.toNat + a) 0x4000).markBad
          ((x.scratchBad.filter (fun w => a ≤ w && w < a + 0x4000)).map (· + fr.base.toNat))
      else s
    let b := x.sctxBase.toNat + a
    let (s, scratch) := s.refill b x.scratch a 0x4000
    let bad := x.scratchBad.filter (fun w => w < a || a + 0x4000 ≤ w) ++
      (s.badWords b 0x4000).map (fun w => w - x.sctxBase.toNat)
    s.setCore c
      { x with scratch := scratch, scratchBad := bad
               frames := x.frames.set f { ctx := some x.sctx, base := x.sctxBase, dirty := false } }
  else s

/-- R127: pinned when its owner is the current context. -/
def Core.pinned (x : Core) (f : Nat) : Bool :=
  if h : f < 24 then x.frames[f].ctx = some x.sctx else true

/-- R128: an access to a frame that is not pinned waits until it is; `w` marks it dirty. -/
def State.pinFrame (s : State) (c f : Nat) (w : Bool) : State :=
  let s := if (s.core c).pinned f then s else s.swapFrame c f
  if w then s.modCore c (fun x =>
    if h : f < 24 then { x with frames := x.frames.set f { x.frames[f] with dirty := true } } else x)
  else s

/-- The frames of a run of scratch bytes, pinned. -/
def State.pinRange (s : State) (c off n : Nat) (w : Bool) : State :=
  if n = 0 then s
  else (List.range ((off + n - 1) / 0x4000 - off / 0x4000 + 1)).foldl
    (fun s i => s.pinFrame c (off / 0x4000 + i) w) s

/-- R131: some window accepts the access. -/
def Core.windowAccepts (x : Core) (rq : Rq) (acc : Acc) (off n : Nat) : Bool :=
  x.win.toList.any (fun w =>
    let v := w.toNat
    bits v 63 63 = 1 && bits v 19 8 * 256 ≤ off && off + n ≤ bits v 31 20 * 256 + 256 &&
    (match acc with
     | .atomic => bits v 62 62 = 1 && bits v 60 60 = 1
     | .store | .zero => bits v 62 62 = 1
     | _ => bits v 61 61 = 1) &&
    (match rq with
     | .fabric _ => bits v 51 42 = 0
     | _ => rq.id &&& bits v 51 42 = bits v 41 32 &&& bits v 51 42))

/-- R131, R299, R301, R363: whether an access of a requester to a core's scratchpad passes. -/
def State.scratchCheck (s : State) (rq : Rq) (own : Bool) (acc : Acc) (c off n : Nat) (eva : Word) : Did Unit :=
  let x := s.core c
  let d := dieOf c
  if own && !(s.die d).fenced then .ok s ()
  else
    if (s.die d).pwrState ≠ 0 && !(s.die d).fenced then .wait
    else if !x.iso && !(s.die d).fenced && x.windowAccepts rq acc off n then .ok s ()
    else .err (s.logViolation d (0xF1 * 2 ^ 56 + c * 2 ^ 32 + off) rq 0 2 acc) { code := 0x09, eval := eva }

/-- Reads scratch bytes of a core. -/
def State.scratchLoad (s : State) (rq : Rq) (own : Bool) (c off n : Nat) (eva : Word) : Did (List Byte) :=
  (s.scratchCheck rq own .load c off n eva).bind fun s _ =>
    let s := s.pinRange c off n false
    match firstBad (s.core c).scratchBad off n with
    | some b => .err s { code := 0x0D, eval := eva + BitVec.ofNat 64 (b - off) }
    | none => .ok s ((s.core c).scratch.readBytes off n)

/-- Puts bytes into a core's scratchpad; whole words written lose their error. -/
def State.scratchPut (s : State) (c off : Nat) (bs : List Byte) : State :=
  (s.pinRange c off bs.length true).modCore c (fun x =>
    { x with scratch := x.scratch.writeBytes off bs
             scratchBad := x.scratchBad.filter (fun w => !(off ≤ w && w + 8 ≤ off + bs.length)) })

/-- Writes scratch bytes of a core. -/
def State.scratchStore (s : State) (rq : Rq) (own : Bool) (acc : Acc) (c off : Nat) (bs : List Byte) (eva : Word) :
    Did Unit :=
  (s.scratchCheck rq own acc c off bs.length eva).bind fun s _ =>
    let s := s.pinRange c off bs.length true
    let partly := (s.core c).scratchBad.filter (fun w => w < off + bs.length && off < w + 8 &&
      !(off ≤ w && w + 8 ≤ off + bs.length))
    match partly with
    | w :: _ => .err s { code := 0x0D, eval := eva + BitVec.ofNat 64 (max w off - off) }
    | [] => .ok (s.scratchPut c off bs) ()

/-! ### Watermarks (R278) -/

/-- The bytes of a copy's destination not yet written, after `col` bytes of row `row`: from and to, as scratch (core,
offset) or as an address. -/
def Copy.unwritten (c : Copy) (row col : Nat) : Option (Option Nat × Nat × Nat) :=
  if c.wme then
    let lo := c.dst.toNat + c.rlen * row + col
    let hi := c.dst.toNat + c.rlen * (c.rows1 + 1)
    if space c.dst = 0xF0 then some (some c.core, bits lo 55 0, bits hi 55 0)
    else if space c.dst = 0xF1 then some (some (bits c.dst.toNat 41 32), bits lo 31 0, bits hi 31 0)
    else some (none, lo, hi)
  else none

/-- The unwritten watched ranges of a channel: the active copy from its row, queued copies whole. -/
def Channel.watched (c : Channel) : List (Option Nat × Nat × Nat) :=
  match c.copies with
  | [] => []
  | a :: r => (a.unwritten c.row c.col).toList ++ r.filterMap (·.unwritten 0 0)

/-- R278: the addresses from `lo` to `hi`, page by page as a die translates them, have a byte in `[pa, pa + n)` of the
memory of this package, or of a peer. -/
def State.pagesTouch (s : State) (d lo hi : Nat) (peer : Option Nat) (pa n : Nat) : Bool :=
  decide (lo < hi) && (List.range (hi / 2 ^ 18 - lo / 2 ^ 18 + 1)).any (fun k =>
    let p := (lo / 2 ^ 18 + k) * 2 ^ 18
    match s.translate d (BitVec.ofNat 64 p) with
    | .ok l => peer = (if l.mode = 0 then none else some l.peer) && decide (l.pa + (max lo p - p) < pa + n) && decide (pa < l.pa + (min hi (p + 2 ^ 18) - p))
    | .error _ => false)

/-- R278: some watched range of a kind of place satisfies a test of its die, start and end. -/
def State.someWatch (s : State) (place : Option Nat) (p : Nat → Nat → Nat → Bool) : Bool :=
  s.dies.cells.any (fun d => d.2.channels.cells.any (fun c => c.2.watched.any (fun w =>
    w.1 = place && p d.1 w.2.1 w.2.2)))
/-- R278: an access of another requester to `[a, a + n)` waits: in scratch of a core, or at a physical address. -/
def State.watched (s : State) (place : Option Nat) (a n : Nat) : Bool :=
  s.someWatch place (fun d lo hi => match place with
    | some _ => decide (a < hi) && decide (lo < a + n)
    | none => s.pagesTouch d lo hi none a n)
/-- R278: the same for the memory of a peer. -/
def State.watchedFar (s : State) (peer a n : Nat) : Bool :=
  s.someWatch none (fun d lo hi => s.pagesTouch d lo hi (some peer) a n)

/-! ### The remote-data cache (R268–R270) -/

/-- The key of a line: a line of this package, or of a peer (R268). -/
def rdcKey (l : Leaf) : Nat := if l.mode = 0 then l.pa / 256 else 2 ^ 44 * (l.peer + 1) + l.pa / 256

/-- R268: lines that die `d` may hold: homed elsewhere and not through mode 1. -/
def cacheable (d : Nat) (l : Leaf) : Bool :=
  if l.mode = 0 then decide (homeDie l.pa ≠ some d) else l.mode ≠ 1

/-- R270: a line that serves a thread with acquire epoch `e`. -/
def State.rdcUsable (s : State) (d : Nat) (l : Leaf) (e : BitVec 32) : Option RdcLine :=
  match (s.die d).rdc.find (rdcKey l) with
  | some x => if e.toNat ≤ x.epoch.toNat then some x else none
  | none => none

/-- R268: room for a line in its set of 16 ways, of 8,192; which way of a full set goes is a free choice. -/
def State.rdcRoom (s : State) (d k : Nat) : State :=
  let set := (s.die d).rdc.keys.filter (fun j => j % 8192 = k % 8192 && j ≠ k)
  if set.length < 16 then s
  else (s.modDie d (fun x => { x with rdc := x.rdc.del (set.getD (s.freeWord.toNat % set.length) 0) })).took

/-- R270: records a line with its fill epoch. -/
def State.rdcKeep (s : State) (d : Nat) (l : Leaf) (line : List Byte) (e : BitVec 32) : State :=
  (s.rdcRoom d (rdcKey l)).modDie d (fun x => { x with rdc := x.rdc.put (rdcKey l) { bytes := toLine line, epoch := e } })
/-- R270: a line whose miss is sent and answered in this clock. -/
def State.rdcFill (s : State) (d : Nat) (l : Leaf) (line : List Byte) : State :=
  s.rdcKeep d l line (s.die d).rdcEpoch
/-- R108, R270: a line of another package that is on its way is not kept: bytes of it change, or the epochs start
afresh. -/
def State.rdcForsake (s : State) (d : Nat) (p : RemoteOp → Bool) : State :=
  { s with fab := { s.fab with ops := s.fab.ops.map (fun (o : RemoteOp) =>
      if o.kind = .page && dieOf o.core = d && p o then { o with stopped := false } else o) } }

/-- R269: a store that hits updates the copy. -/
def State.rdcUpdate (s : State) (d : Nat) (l : Leaf) (bs : List Byte) : State :=
  s.modDie d (fun x =>
    match x.rdc.find (rdcKey l) with
    | some y =>
      let y := { y with bytes := toLine (overlay y.bytes.toList (l.pa % 256) bs) }
      { x with rdc := x.rdc.put (rdcKey l) y }
    | none => x)

/-- R112, R120: discards this die's copy of a line. -/
def State.rdcDrop (s : State) (d : Nat) (l : Leaf) : State :=
  s.modDie d (fun x => { x with rdc := x.rdc.del (rdcKey l) })
/-- R306: the copy of a line of another package goes, and one on its way to the die is not kept. -/
def State.rdcForget (s : State) (d : Nat) (l : Leaf) : State :=
  (s.rdcDrop d l).rdcForsake d (fun o => o.peer = l.peer && o.off / 256 = l.pa / 256)
/-- R278, R320: no die keeps a copy of the lines from `pa` on that a watching copy has written, so that an access that waited
for its watermark finds the copied bytes (DESIGN CHOICE, log 62). `peer` is none for memory of this package. -/
def State.rdcForgetAll (s : State) (peer : Option Nat) (pa n : Nat) : State :=
  (List.range ((pa + n - 1) / 256 - pa / 256 + 1)).foldl (fun s i =>
    let l : Leaf := { pa := (pa / 256 + i) * 256, key := 0, mode := if peer.isNone then 0 else 2, peer := peer.getD 0
                      t := 0, w := false, x := false }
    s.dies.keys.foldl (fun s d => if peer.isNone then s.rdcDrop d l else s.rdcForget d l) s) s

/-- R270: an acquire of package or system scope by a thread: E := E + 1, A := E; at the wrap every line is
dropped and every A becomes 0. -/
def State.acquire (s : State) (tid : Nat) : State :=
  let d := dieOf (coreOf tid)
  let e := (s.die d).rdcEpoch + 1
  if e = 0 then
    let s := (s.modDie d (fun x => { x with rdcEpoch := 0, rdc := {} })).rdcForsake d (fun _ => true)
    s.tids.foldl (fun s t => if dieOf (coreOf t) = d then s.modThread t (fun u => { u with acqEpoch := 0 }) else s) s
  else (s.modDie d (fun x => { x with rdcEpoch := e })).modThread tid (fun u => { u with acqEpoch := e })

/-- A thread's load of a mode-0 page: from the copy, or from the home with a new fill (R269, R270). -/
def State.cachedLoad (s : State) (tid : Nat) (acc : Acc) (l : Leaf) (n : Nat) (eva : Word) : Did (List Byte) :=
  let d := dieOf (coreOf tid)
  let home := s.homeLoad (.thread tid) acc l.pa n l.key eva
  if cacheable d l then
    match s.rdcUsable d l (s.thread tid).acqEpoch with
    | some x => .ok s ((x.bytes.toList.drop (l.pa % 256)).take n)
    | none =>
      home.bind fun s bs =>
        let a := l.pa / 256 * 256
        if (firstBad s.memBad a 256).isSome then .ok s bs
        else
          let (s, line) := s.homeReadAll a 256
          .ok (s.rdcFill d l line) bs
  else home

/-- R404: the page of a virtual address. -/
def pageOf (va : Word) : Nat := bits va.toNat 56 18

/-- R404: a migration of the page is in progress on a die of the partition. -/
def State.migrating (s : State) (q : Nat) (va : Word) : Bool :=
  (List.range 4).any (fun d => (s.die d).part = q && (s.die d).migrations.any (fun m => pageOf m.va = pageOf va))

/-- R404: a translated access through a 256 KiB leaf of mode 3 counts; the count is the die's, in a monitor of 64 pages
from which the least recently used leaves. -/
def State.countAccess (s : State) (d : Nat) (va : Word) (l : Leaf) : State :=
  if l.mode = 3 && ((s.tlbHit d (bits va.toNat 56 0)).map Prod.snd).getD
      (match s.walk d (bits va.toNat 56 0) with | .leaf _ n => n | _ => 0) = 18 then
    s.modDie d (fun x =>
      let k := bits va.toNat 56 18
      let older := x.monitor.filter (fun j => j ≠ k)
      let gone := older.take (older.length - 63)
      let cells := x.counts.only (fun j => !gone.contains j)
      { x with monitor := older.drop gone.length ++ [k], counts := cells.put k (cells.get 0 k + 1) })
  else s

/-! ### Whole accesses by a thread -/

/-- A load at a target that this package holds. -/
def State.loadAt (s : State) (tid : Nat) (acc : Acc) (tgt : Target) (va : Word) (n : Nat) : Did (List Byte) :=
  match tgt with
  | .mem l =>
    if s.watched none l.pa n then .wait else s.cachedLoad tid acc l n va
  | .scratch c off =>
    if s.watched (some c) off n then .wait
    else s.scratchLoad (.thread tid) (c = coreOf tid) c off n va
  | _ => .wait

/-- R269: a store at a target that this package holds; the die's copy follows the home. -/
def State.storeAt (s : State) (tid : Nat) (acc : Acc) (tgt : Target) (va : Word) (bs : List Byte) : Did Unit :=
  match tgt with
  | .mem l =>
    if s.watched none l.pa bs.length then .wait
    else (s.homeStore (.thread tid) acc l.pa l.key bs va).bind fun s _ =>
      .ok (if cacheable (dieOf (coreOf tid)) l then s.rdcUpdate (dieOf (coreOf tid)) l bs else s) ()
  | .scratch c off =>
    if s.watched (some c) off bs.length then .wait
    else s.scratchStore (.thread tid) (c = coreOf tid) acc c off bs va
  | _ => .wait

/-- R111–R113: an atomic at its home: reads, combines and perhaps writes as one action. -/
def State.atomicAt (s : State) (tid : Nat) (tgt : Target) (va : Word) (n : Nat)
    (f : Nat → Option Nat) : Did Nat :=
  match tgt with
  | .mem l =>
    if s.watched none l.pa n then .wait
    else
      let s := s.rdcDrop (dieOf (coreOf tid)) l
      (s.homeLoad (.thread tid) .atomic l.pa n l.key va).bind fun s bs =>
        match f (leNat bs) with
        | some v => .ok (s.homeWriteAll l.pa (leBytes n v)) (leNat bs)
        | none => .ok s (leNat bs)
  | .scratch c off =>
    if s.watched (some c) off n then .wait
    else
      (s.scratchCheck (.thread tid) (c = coreOf tid) .atomic c off n va).bind fun s _ =>
        (s.scratchLoad (.thread tid) true c off n va).bind fun s bs =>
          match f (leNat bs) with
          | some v => .ok (s.scratchPut c off (leBytes n v)) (leNat bs)
          | none => .ok s (leNat bs)
  | _ => .wait

/-! ### Accesses in flight (R101, R102) -/

/-- The access that a request makes at its issuing core. -/
def ReqOp.acc : ReqOp → Acc
  | .load _ => .load
  | .store _ => .store
  | .fadd _ => .store
  | .fetch => .load
/-- R101: where the parts of a request go. -/
def State.targetsOf (s : State) (r : Request) : List Target :=
  (List.range r.k).filterMap (fun i =>
    match s.resolve r.tid r.op.acc (r.va + BitVec.ofNat 64 (8 * i)) r.n (r.k = 1) with
    | .ok t => some t
    | .error _ => none)
/-- R295: the pages that an access of `k` parts of `n` bytes at `va` has to walk for. -/
def State.missesOf (s : State) (tid : Nat) (va : Word) (k : Nat) : Nat :=
  (((List.range k).map (fun i => va + BitVec.ofNat 64 (8 * i))).filter (fun a =>
    decide (space a ≤ 1) && (s.tlbHit (dieOf (coreOf tid)) (bits a.toNat 56 0)).isNone)).map (fun a => a.toNat / 2 ^ 18)
    |>.eraseDups.length
/-- R295: the walks in flight at a die: those of the accesses that have not been delivered to their targets. A walk of an access
that is performed as it issues ends with it (DESIGN CHOICE, log 18). -/
def State.walksOut (s : State) (d : Nat) : Nat :=
  (s.reqs.filter (fun r => dieOf (coreOf r.tid) = d && !r.sent && r.resp.isNone)).foldl (fun n r => n + r.walks) 0
/-- R295: the walker holds 512 walks, and has no room for `n` more. -/
def State.walkerFull (s : State) (tid n : Nat) : Bool := decide (0 < n) && decide (s.walksOut (dieOf (coreOf tid)) + n > 512)

/-- An access of a thread leaves for its target. -/
def State.request (s : State) (r : Request) : State :=
  { s with
    reqs := s.reqs ++ [{ r with id := s.nextId, tgts := s.targetsOf r, walks := s.missesOf r.tid r.va r.k }]
    nextId := s.nextId + 1 }
/-- The request with a number. -/
def State.req (s : State) (id : Nat) : Option Request := s.reqs.find? (fun r => r.id = id)
/-- A request changed in place. -/
def State.modReq (s : State) (id : Nat) (f : Request → Request) : State :=
  { s with reqs := s.reqs.map (fun r => if r.id = id then f r else r) }
/-- A request that is over. -/
def State.dropReq (s : State) (id : Nat) : State := { s with reqs := s.reqs.filter (fun r => r.id ≠ id) }
/-- Requests that are over. -/
def State.dropReqs (s : State) (ids : List Nat) : State :=
  if ids.isEmpty then s else { s with reqs := s.reqs.filter (fun r => !ids.contains r.id) }
/-- The request among `ids` that asks for the bytes at `va`. -/
def State.askOf (s : State) (ids : List Nat) (va : Word) : Option Request :=
  s.reqs.find? (fun r => ids.contains r.id && r.va = va)
/-- R102: a store whose acknowledgement is outstanding. -/
def State.requestStore (s : State) (r : Request) (handler : Bool := (s.thread r.tid).mode) : State :=
  (s.modThread r.tid (fun t => { t with unacked := t.unacked ++ [(s.nextId, handler)] })).request r

/-- An instruction that waits at issue for an access to another package: the answer, once it is there. -/
def State.retry (s : State) (r : Request) : State × Option Resp :=
  match s.reqs.find? (fun q => q.tid = r.tid && q.pc = r.pc && q.va = r.va && q.n = r.n && q.dests.isEmpty && !q.engine &&
      (s.thread r.tid).unacked.all (fun u => u.1 ≠ q.id)) with
  | some q =>
    match q.resp with
    | some a => (s.dropReq q.id, some a)
    | none => (s, none)
  | none => (s.request r, none)

/-! ### Order (R102, R116, R119, R306, R312, R315) -/

/-- The home of memory that a target lies at: a die, Selvedge or a peer. -/
def Target.home : Target → Option Nat
  | .mem l => some ((homeDie l.pa).getD 4)
  | .far l => some (16 + l.peer)
  | _ => none
/-- Two targets of `n` and `m` bytes share a byte of a scratchpad. -/
def Target.meets (t : Target) (n : Nat) (u : Target) (m : Nat) : Bool :=
  match t, u with
  | .scratch c a, .scratch d b => c = d && decide (a < b + m) && decide (b < a + n)
  | _, _ => false
def Target.isFar : Target → Bool
  | .far _ => true
  | _ => false

/-- R306, R315: an access of the thread's die that left before number `before` has not reached a home of these targets, or
one of the thread itself a scratchpad byte of theirs. -/
def State.behind (s : State) (tid before n : Nat) (tgts : List Target) : Bool :=
  s.reqs.any (fun r => r.id < before && r.resp.isNone && !r.sent &&
    ((dieOf (coreOf r.tid) = dieOf (coreOf tid) &&
        r.tgts.any (fun t => t.home.isSome && tgts.any (fun u => u.home = t.home))) ||
      (r.tid = tid && r.tgts.any (fun t => tgts.any (fun u => t.meets r.n u n)))))

/-- R119, R311: an ld.sc or st.sc of the thread in hand is not complete; its later accesses come after it. -/
def State.scPending (s : State) : Bool := s.me.flights.any (fun f => f.kind = .sc)

/-- The access writes. -/
def ReqOp.writes : ReqOp → Bool
  | .store _ => true
  | .fadd _ => true
  | _ => false

/-- R116, R312: what a release of package or system scope waits for: the thread's long-latency instructions, the
acknowledgements of its stores, and those of its die's stores to other packages, whose bytes a load of the thread may have
found in the die's copy. -/
def State.settled (s : State) (tid : Nat) : Bool :=
  (s.thread tid).drained && !s.reqs.any (fun r => dieOf (coreOf r.tid) = dieOf (coreOf tid) && !r.engine && r.op.writes &&
    r.resp.isNone && r.tgts.any Target.isFar)

/-! ### Fetch (R35, R99) -/

/-- R35: one halfword of an instruction of a thread. A page of another package waits for its bytes
(R403), which then stand in the thread's fetch buffer. -/
def State.fetchHalf (s : State) (tid : Nat) (va : Word) : Did (List Byte) :=
  if space va > 1 then .err s { code := 0x04, sub := 2, eval := va }
  else
    let d := dieOf (coreOf tid)
    match s.translate d va with
    | .error t => .err (s.reportFault d t) (if t.code = 0x04 then { t with sub := 2 } else t)
    | .ok l =>
      if !l.x then .err s { code := 0x05, sub := 2, eval := va }
      else if l.mode ≠ 0 then
        match lookKey va.toNat (s.thread tid).fetchBuf, lookKey (va.toNat + 1) (s.thread tid).fetchBuf with
        | some a, some b => .ok s [a, b]
        | _, _ =>
          match s.rdcUsable d l (s.thread tid).acqEpoch with
          | some x =>
            if l.mode = 1 || s.migrating (s.partOf tid) va then .wait
            else .ok (s.countAccess d va l) ((x.bytes.toList.drop (l.pa % 256)).take 2)
          | none => .wait
      else
        match s.homeLoad (.thread tid) .fetch l.pa 2 l.key va with
        | .err s t => .err s { t with eval := va }
        | r => r

end Sys2Proof.Machine
end

