-- ==== Sys2Proof/Machine/Objects.lean ====
section
/-! DEFINITION. Cluster objects and launch records (R229–R257), the router and its gradient (R324–R339), and
the waking of threads parked on objects. Every operation here is one operation of an object arbiter (R235). -/

namespace Sys2Proof.Machine

/-! ### Launch records (R229–R231) -/

/-- R229: the physical address of record r in the table of a cluster. -/
def State.recAddr (s : State) (c r : Nat) : Nat := (s.cluster c).lrBase.toNat + 256 * r
/-- A 64-bit word of a record. -/
def State.recWord (s : State) (c r off : Nat) : Word := BitVec.ofNat 64 (s.homeNat (s.recAddr c r + off) 8)
def State.setRecWord (s : State) (c r off : Nat) (v : Word) : State :=
  s.putNat (s.recAddr c r + off) 8 v.toNat
/-- R260, R301, R357: the STATE word of a record is uncorrectable, or its home refuses it. -/
def State.stateBad (s : State) (c r : Nat) : Bool :=
  (s.badAt (s.recAddr c r + 0xC0) 8).isSome || s.unowned (s.recAddr c r + 0xC0)
/-- R231: STATE. R260: an uncorrectable STATE word counts as not IDLE. -/
def State.recState (s : State) (c r : Nat) : Nat := if s.stateBad c r then 7 else (s.recWord c r 0xC0).toNat % 8
/-- R231: STATE is written. R260: an uncorrectable STATE word keeps its error, and the record is not used again until the
host rewrites it. -/
def State.setRecState (s : State) (c r v : Nat) : State :=
  if s.stateBad c r then s else s.setRecWord c r 0xC0 (BitVec.ofNat 64 v)
/-- R240: a malformed record. -/
def State.malformed (s : State) (c r : Nat) : Bool :=
  let w := (s.recWord c r 0x30).toNat
  (s.recWord c r 0x00).getLsbD 0 || (s.recWord c r 0x08).getLsbD 0 ||
  (s.recWord c r 0x10).toNat % 64 ≠ 0 || bits w 7 3 ≠ 0 || bits w 63 24 ≠ 0 ||
  s.recWord c r 0x38 ≠ 0

/-! ### The router (R324–R335) -/

/-- The task of record r as a router holds it. -/
def State.taskOf (s : State) (c r : Nat) (contOf : Option Nat) : Task :=
  let w := (s.recWord c r 0x30).toNat
  { recIx := r, pri := w % 4, cost := bits w 23 8, contOf := contOf, since := s.clock }

/-- R326: what is set of a router in a clock: a write takes effect in the clock after it. -/
def Cluster.now (x : Cluster) (clock : Nat) : RouterSet := if x.setAt = clock then x.was else x.set

/-- R324: infinite pressure. -/
def State.infinite (s : State) (c : Nat) : Bool :=
  ((s.cluster c).now s.clock).fen || (s.cluster c).stopped || (s.die (c / 8)).fenced

/-- R324: queued cost. -/
def Cluster.queuedCost (x : Cluster) : Nat :=
  x.queues.toList.foldl (fun n q => q.foldl (fun n t => n + max 1 t.cost) n) 0
/-- R324: the live pressure PL; the infinite pressure is not part of it (R325). -/
def State.livePressure (s : State) (c : Nat) : Nat :=
  min 0xFFFE ((s.cluster c).queuedCost + ((s.cluster c).now s.clock).pbias)
/-- R325: the pressure that a boundary samples. -/
def State.samplePressure (s : State) (c : Nat) : Nat := if s.infinite c then 0xFFFF else s.livePressure c

/-- R327: the neighbour on a mesh or die port. -/
def neighbour (c p : Nat) : Option Nat :=
  let d := c / 8
  let k := c % 8
  match p with
  | 0 => if k % 4 = 0 then none else some (c - 1)
  | 1 => if k % 4 = 3 then none else some (c + 1)
  | 2 => if k / 4 = 0 then none else some (c - 4)
  | 3 => if k / 4 = 1 then none else some (c + 4)
  | _ =>
    let others := [0, 1, 2, 3].filter (· ≠ d)
    match others[p - 4]? with
    | some e => some (e * 8 + k)
    | none => none

/-- R326: the link cost of a port in this epoch. -/
def Cluster.portCost (x : Cluster) (p : Nat) : Nat := bits x.gcostEff.toNat (8 * p + 7) (8 * p)

/-- R342: the LIVE gateway entry with the least advertised distance. -/
def State.gatewayBest (s : State) (q : Nat) : Option (Nat × PeerEntry) :=
  let es := (List.range 8).filterMap (fun i =>
    if h : 8 * q + i < 32 then
      let e := s.pkg.peers[8 * q + i]
      if e.en && e.live then some (i, e) else none
    else none)
  (sortBy (fun a b => a.2.ad < b.2.ad || (a.2.ad = b.2.ad && a.1 ≤ b.1)) es).head?

/-- What a port's neighbour has published: P, D, DLOC and FULL (R330, R342); 0xFFFF before the first boundary after a reset
of either (R326). -/
def State.portPub (s : State) (c p : Nat) : Nat × Nat × Nat × Bool :=
  let none_ : Nat × Nat × Nat × Bool := (0xFFFF, 255, 255, false)
  let x := s.cluster c
  if p = 7 then
    match x.nb7 with
    | some (_, e) => (e.ap, e.ad, 255, false)
    | none => none_
  else match neighbour c p with
    | some n =>
      let y := s.cluster n
      if x.published && y.published then (y.pubP, y.pubD, y.pubDloc, y.pubFull) else none_
    | none => none_

/-- R328: a port is live: cost, partition, published pressure; port 7 needs PEN and a live advert. -/
def State.portLive (s : State) (c p : Nat) : Bool :=
  let x := s.cluster c
  x.portCost p ≠ 0 && (s.portPub c p).1 ≠ 0xFFFF &&
  (if p = 7 then x.penEff && x.nb7.isSome
   else match neighbour c p with
     | none => false
     | some n => s.owner (n / 8) = s.owner (c / 8) && (s.owner (n / 8)).isSome)

/-- Least of a list, 255 for none (R330). -/
def least255 (l : List Nat) : Nat := l.foldl min 255

/-- R330: what a cluster publishes at an epoch boundary. -/
def State.epochOf (s : State) (c : Nat) : Nat × Bool × Nat × Nat :=
  let x := s.cluster c
  let p := s.samplePressure c
  let full := x.used = 256
  if p = 0xFFFF then (p, full, 255, 255)
  else if p < x.tlowEff then (p, full, 0, 0)
  else
    let loc := least255 (((List.range 7).filter (s.portLive c)).map
      (fun i => (s.portPub c i).2.2.1 + x.portCost i))
    let dist := least255 (((List.range 8).filter (s.portLive c)).map
      (fun i => (s.portPub c i).2.1 + x.portCost i))
    (p, full, dist, loc)

/-- R333: the home of a tile as HOMEj. -/
def State.tileHome (s : State) (core : Nat) (addr len : Word) : Nat :=
  let here := s.pkg.peer.toNat
  let v := 0x8000
  if addr = 0 || len = 0 then 0
  else if space addr ≤ 1 then
    match s.translate (dieOf core) addr with
    | .error _ => 0
    | .ok l =>
      if l.mode ≠ 0 then v + l.peer * 4
      else match homeDie l.pa with
        | some d => v + here * 4 + d
        | none => v + 0x4000 + here * 4
  else if space addr = 0xF1 then v + here * 4 + bits addr.toNat 41 40
  else if space addr = 0xF0 then v + here * 4 + dieOf core
  else 0

/-- R333: the routing area written at arming. -/
def State.writeRouting (s : State) (core c r : Nat) : State :=
  let home (j : Nat) : Nat := s.tileHome core (s.recWord c r (0x80 + 16 * j)) (s.recWord c r (0x88 + 16 * j))
  let s1 := s.setRecWord c r 0xE0 16
  let s1 := s1.setRecWord c r 0xE8 (BitVec.ofNat 64
    (home 0 + home 1 * 2 ^ 16 + home 2 * 2 ^ 32 + home 3 * 2 ^ 48))
  let s1 := s1.setRecWord c r 0xF0 (s.pkg.peer.zeroExtend 64)
  s1.setRecWord c r 0xF8 0

/-- R332: a task enters the router of a cluster. -/
def State.enterRouter (s : State) (c : Nat) (t : Task) : State :=
  s.modCluster c (fun x => { x with entering := x.entering ++ [{ t with since := s.clock }] })

/-- An armed record enters the router of its cluster; `core` is the core whose act arms it. -/
def State.armInto (s : State) (core c r : Nat) (contOf : Option Nat) : State :=
  (s.writeRouting core c r).enterRouter c (s.taskOf c r contOf)

/-- A word of a task's record: of the carried copy for a visitor (R344), else at its home. -/
def State.taskWord (s : State) (c : Nat) (t : Task) (off : Nat) : Word :=
  match t.visitor with
  | some (_, copy) => BitVec.ofNat 64 (leNat ((copy.drop off).take 8))
  | none => s.recWord c t.recIx off
def State.setTaskWord (s : State) (c : Nat) (t : Task) (off : Nat) (v : Word) : State × Task :=
  match t.visitor with
  | some (p, copy) => (s, { t with visitor := some (p, overlay copy off (leBytes 8 v.toNat)) })
  | none => (s.setRecWord c t.recIx off v, t)

/-- R334: the pull weight of a move across a port. -/
def State.pull (s : State) (c : Nat) (t : Task) (p : Nat) : Nat :=
  let homes := (s.taskWord c t 0xE8).toNat
  let lens (keep : Nat → Bool) : Nat := (List.range 4).foldl (fun n j =>
    let h := bits homes (16 * j + 15) (16 * j)
    if bits h 15 15 = 1 && keep h then n + (s.taskWord c t (0x88 + 16 * j)).toNat else n) 0
  let here := s.pkg.peer.toNat
  if p < 4 then 0
  else if p < 7 then
    min 0xFFFF (lens (fun h => bits h 14 14 = 0 && bits h 13 2 = here && bits h 1 0 = c / 8) / 65536)
  else min 0xFFFF (4 * lens (fun h => bits h 13 2 = here) / 65536)

/-- R343: the record may cross packages. -/
def State.mayCross (s : State) (c : Nat) (t : Task) : Bool :=
  let j := s.taskWord c t 0x28
  let homes := (s.taskWord c t 0xE8).toNat
  (j = 0 || space j = 0xF2) && (List.range 4).all (fun i =>
    let h := bits homes (16 * i + 15) (16 * i)
    bits h 15 15 = 0 || bits h 13 2 ≠ s.pkg.peer.toNat || s.taskWord c t (0x88 + 16 * i) = 0)

/-- R335, R339: the task joins the tail of the queue of its priority. -/
def State.enqueue (s : State) (c : Nat) (t : Task) : State :=
  s.modCluster c (fun x =>
    if h : t.pri < 4 then
      { x with queues := x.queues.set t.pri (x.queues[t.pri] ++ [{ t with since := s.clock }]) }
    else x)

/-- R335: the decision for an entering task: the port it takes, if it moves. -/
def State.routeOf (s : State) (c : Nat) (t : Task) : Option Nat :=
  let x := s.cluster c
  let pl := s.livePressure c
  let ttl := bits (s.taskWord c t 0xE0).toNat 4 0
  if ttl = 0 || pl < x.tstayEff then none
  else
    let live := (List.range 8).filter (s.portLive c)
    let key (p : Nat) : Nat := (s.portPub c p).2.1 + x.portCost p
    match sortBy (fun a b => key a < key b || (key a = key b && a ≤ b)) live with
    | [] => none
    | best :: _ =>
      let n := s.portPub c best
      if n.2.1 < x.pubD && pl > n.1 + s.pull c t best + x.hystEff && !n.2.2.2 &&
          (best ≠ 7 || s.mayCross c t) then some best
      else none

/-! ### Join counters, barriers, cells, sets and the scoreboard -/

/-- R241: an acquire of package scope by a thread whose wait on an object completes. -/
def State.wake (s : State) (tid d : Nat) (v : Word) : State := (s.unpark tid d v).acquire tid

def State.join (s : State) (c i : Nat) : JoinCounter := (s.cluster c).joins.get {} i
def State.setJoin (s : State) (c i : Nat) (j : JoinCounter) : State :=
  s.modCluster c (fun x => { x with joins := x.joins.put i j })

/-- R239: the address of a join counter. -/
def joinAddr (c i : Nat) : Word := BitVec.ofNat 64 (0xF2 * 2 ^ 56 + c * 2 ^ 32 + 0x40000 + 0x10 * i)

/-- R246: every jwait parked on the counter completes. -/
def State.wakeJoin (s : State) (c i : Nat) : State :=
  (s.parkedWith (fun _ w => match w with | .jwait c' i' _ _ _ => c' = c && i' = i | _ => false)).foldl
    (fun s t => s.wake t 96 0) s

/-- R247: ArmContinuation; CEN is cleared in every case. -/
def State.armContinuation (s : State) (core c i : Nat) : State :=
  let j := s.join c i
  let r := j.crec
  if r < (s.cluster c).lrCount && s.recState c r = 0 && !s.malformed c r then
    (((s.setRecState c r 5).setJoin c i { j with cen := false, cq := true })).armInto core c r (some i)
  else
    (s.setJoin c i { j with cen := false, cfail := true }).postEvent (some (c / 8)) 0x03 (joinAddr c i)
      (BitVec.ofNat 64 r)

/-- R246: jsig as one arbiter operation; gives the count before. -/
def State.signalJoin (s : State) (core c i b : Nat) : State × Nat :=
  let j := s.join c i
  let j' := if b > j.count then { j with count := 0, under := true } else { j with count := j.count - b }
  let s := s.setJoin c i j'
  if j.count ≠ 0 && j'.count = 0 then
    let s := s.wakeJoin c i
    (if j'.cen then s.armContinuation core c i else s, j.count)
  else (s, j.count)

def State.bar (s : State) (c i : Nat) : Barrier := (s.cluster c).bars.get {} i
def State.setBar (s : State) (c i : Nat) (b : Barrier) : State :=
  s.modCluster c (fun x => { x with bars := x.bars.put i b })
def State.setCount (s : State) (c i : Nat) : Nat := (s.cluster c).sets.get 0 i

/-- R249: the effective expected count. -/
def State.barExpect (s : State) (c : Nat) (b : Barrier) : Nat := if b.bound then s.setCount c b.set else b.expect

/-- R250: bar.wait's condition by the half-range rule. -/
def phaseDone (phase p : BitVec 32) : Bool := 1 ≤ (phase - p).toNat && (phase - p).toNat ≤ 2 ^ 31

/-- R251: waits on the barrier whose condition now holds complete. -/
def State.wakeBar (s : State) (c i : Nat) : State :=
  let b := s.bar c i
  (s.parkedWith (fun _ w => match w with
    | .barWait c' i' p => c' = c && i' = i && phaseDone b.phase p
    | .barT1 c' i' bit => c' = c && i' = i && b.phase.getLsbD 0 ≠ bit
    | _ => false)).foldl (fun s t => s.wake t 96 0) s

/-- R251: phase advances, at most `fuel` of them. -/
def State.barAdvance (s : State) (c i : Nat) : Nat → State
  | 0 => s
  | fuel + 1 =>
    let b := s.bar c i
    let e := s.barExpect c b
    if 0 < e && e ≤ b.arrived && b.bytes = 0 then
      ((s.setBar c i { b with phase := b.phase + 1, arrived := b.arrived - e }).wakeBar c i).barAdvance c i fuel
    else s

/-- R251: applied after every operation on a barrier. -/
def State.barSettle (s : State) (c i : Nat) : State := s.barAdvance c i ((s.bar c i).arrived + 1)

/-- R250: an engine's decrement of a barrier's pending bytes. -/
def State.barDecrement (s : State) (c i n : Nat) : State :=
  let b := s.bar c i
  (s.setBar c i (if n > b.bytes then { b with bytes := 0, under := true } else { b with bytes := b.bytes - n })).barSettle c i

/-- R254: a change of a set's count is an operation on every barrier bound to it. -/
def State.changeSet (s : State) (c i n : Nat) : State :=
  let s := s.modCluster c (fun x => { x with sets := x.sets.put i n })
  ((s.cluster c).bars.cells.filter (fun b => b.2.bound && b.2.set = i)).foldl (fun s b => s.barSettle c b.1) s

def State.cell (s : State) (c i : Nat) : FutureCell := (s.cluster c).cells.get {} i
def State.setCell (s : State) (c i : Nat) (x : FutureCell) : State :=
  s.modCluster c (fun y => { y with cells := y.cells.put i x })
/-- R252: at least one thread is parked on the cell. -/
def State.cellWaited (s : State) (c i : Nat) : Bool :=
  !(s.parkedWith (fun _ w => match w with | .ldf c' i' _ => c' = c && i' = i | _ => false)).isEmpty
/-- R253: a fill wakes every parked reader with the value. -/
def State.fillCell (s : State) (c i : Nat) (v : Word) : State :=
  let s := s.setCell c i { value := v, full := true }
  (s.parkedWith (fun _ w => match w with | .ldf c' i' _ => c' = c && i' = i | _ => false)).foldl
    (fun s t => match (s.thread t).waits with
      | some (.ldf _ _ d) => s.wake t d v
      | _ => s) s

/-- R256: the offset that bit b of a stencil mask names, shifted by 2. -/
def stencil (b : Nat) : Nat × Nat := let n := if b < 12 then b else b + 1; (n % 5, n / 5)

def State.tileRetired (s : State) (c x y : Nat) : Bool := ((s.cluster c).retired.get 0 y).getLsbD x
/-- R256: a binding is satisfied. -/
def State.satisfied (s : State) (c x y : Nat) (m : BitVec 24) : Bool :=
  (List.range 24).all (fun b =>
    !m.getLsbD b ||
    (let (dx, dy) := stencil b
     x + dx < 2 || y + dy < 2 || x + dx - 2 > 63 || y + dy - 2 > 63 ||
       s.tileRetired c (x + dx - 2) (y + dy - 2)))
/-- R257: Release(x, y). -/
def State.release (s : State) (core c k : Nat) : State :=
  match (s.cluster c).binds.find k with
  | none => s
  | some b =>
    ((s.modCluster c (fun x => { x with binds := x.binds.put k { b with v := false } })).setRecState c b.recIx 1).armInto core c b.recIx none
/-- Releases every satisfied binding. -/
def State.releaseAll (s : State) (core c : Nat) : State :=
  ((s.cluster c).binds.cells.filter (fun b => b.2.v && s.satisfied c (b.1 % 64) (b.1 / 64) b.2.mask)).foldl
    (fun s b => s.release core c b.1) s

/-! ### Object addresses (R234, R239) -/

/-- The kinds of object an instruction names. -/
inductive ObjKind where
  | barrier | cell | join | set
  deriving DecidableEq, Repr

/-- Base offset, spacing and count of a kind (R234). -/
def ObjKind.layout : ObjKind → Nat × Nat × Nat
  | .barrier => (0x10000, 0x20, 256)
  | .cell => (0x20000, 0x10, 4096)
  | .join => (0x40000, 0x10, 4096)
  | .set => (0x60000, 8, 256)

/-- R239: the cluster and index of the object that an address names. -/
def objectAt (k : ObjKind) (a : Word) : Option (Nat × Nat) :=
  let v := a.toNat
  let (base, step, n) := k.layout
  let off := bits v 31 0
  if space a = 0xF2 && bits v 55 37 = 0 && base ≤ off && (off - base) % step = 0 && (off - base) / step < n then
    some (bits v 36 32, (off - base) / step)
  else none

/-- R239, R260: the checks on the object an instruction names. -/
def State.object (s : State) (k : ObjKind) (a : Word) : Except Stop (Nat × Nat) :=
  match objectAt k a with
  | none => .error (.trap { code := 0x04, sub := 1, eval := a })
  | some (c, i) =>
    if (s.die (c / 8)).part ≠ s.partOf s.cur then .error (.trap { code := 0x05, sub := 3, eval := a })
    else if (s.cluster c).poisoned.contains (bits a.toNat 31 0) then .error (.trap { code := 0x0D, eval := a })
    else .ok (c, i)

/-- R116, R241: the release fence of package scope that an instruction performs first waits at issue. -/
def State.released (s : State) : Except Stop Unit := if s.settled s.cur then .ok () else .error .wait

/-- R239: operand bits that must be zero. -/
def State.zeroBits (s : State) (x : Nat) : Except Stop Unit := if x = 0 then .ok () else .error s.badOperand

end Sys2Proof.Machine
end

