-- ==== Sys2Proof/Machine/Access.lean ====
section
/-! DEFINITION. Who may reach the registers of the spaces 0xF2–0xF4 (R98, R234, R263, R350, R351, R410), and how a
write that is refused is reported. -/

namespace Sys2Proof.Machine

/-- What a write to a register did: the state after it, and the cause and sub-cause of its refusal. -/
structure Wrote where
  s : State
  refused : Option (BitVec 8 × BitVec 8) := none

/-- R234, R263: a store to a register that the storer may not write. -/
def refuse51 (s : State) : Wrote := { s := s, refused := some (0x05, 1) }
def refuse53 (s : State) : Wrote := { s := s, refused := some (0x05, 3) }

def whoIsThread : Who → Bool
  | .thread _ _ => true
  | _ => false

/-- R349, R365: how the latest access of the host completed. -/
def State.hostAnswer (s : State) (status : Nat) : State := s.modPkg (fun p => { p with hostStatus := status })

/-- The writer is told: a thread by a late error response (R102), the host by its completion (R349). A thread's refused
register store enters no violation log, for R369 has no response kind for it (DESIGN CHOICE, log 36). -/
def Wrote.report (w : Wrote) (who : Who) (addr : Word) : State :=
  match w.refused, who with
  | none, .host _ => w.s.hostAnswer 0
  | some _, .host _ => w.s.hostAnswer 2
  | some (c, sub), .thread core slot =>
    let t := w.s.thread (tidOf core slot)
    w.s.deferFault (tidOf core slot) { code := c, sub := sub, eval := addr } t.pc w.s.order t.mode
  | _, _ => w.s

/-! ### Ranges of triggers (R409) -/

def Triggers.range (t : Triggers) (q : Nat) : Ranges := if h : q < 4 then t.ranges[q] else {}
/-- R409: an index lies in an enabled range. -/
def Ranges.hasCounter (r : Ranges) (c : Nat) : Bool := r.en && r.cbase ≤ c && c ≤ r.clim
def Ranges.hasEntry (r : Ranges) (e : Nat) : Bool := r.en && r.ebase ≤ e && e ≤ r.elim
def Ranges.hasGroup (r : Ranges) (g : Nat) : Bool := r.en && r.gbase ≤ g && g ≤ r.glim
/-- The partition whose ranges satisfy a test. -/
def State.rangeOwner (s : State) (f : Ranges → Bool) : Option Nat :=
  (List.range 4).find? (fun q => f (s.trg.range q))

/-! ### Whose a register is (R350) -/

/-- The number of an item of `step` bytes in `[base, base + n·step)`. -/
def slotIn (o base step n : Nat) : Option Nat :=
  if base ≤ o && o < base + step * n then some ((o - base) / step) else none

def State.region (s : State) (h : Nat) : Region := s.fab.regs.get {} h

/-- R357: the enabled partition whose PCFG names a die. -/
def State.holder (s : State) (d : Nat) : Option Nat :=
  (List.range 4).find? (fun q => (s.part q).en && (s.part q).dies.getLsbD d)

/-- The partition whose resource a register is, none for one of the package as a whole or of a die in no partition. -/
def State.resourcePart (s : State) (addr : Word) : Option Nat :=
  let a := addr.toNat
  let o := bits a 31 0
  if space addr = 0xF2 then s.holder (bits a 36 32 / 8)
  else if space addr = 0xF3 then s.holder (bits a 33 32)
  else
    slotIn o 0x40 0x20 4 <|> slotIn o 0x100 8 4 <|> slotIn o 0x140 8 4 <|>
    (slotIn o 0x200 8 4).bind s.holder <|> (slotIn o 0x220 8 4).bind s.holder <|> (slotIn o 0x600 8 4).bind s.holder <|>
    slotIn o 0x388 8 4 <|> slotIn o 0x440 0x40 4 <|>
    (slotIn o 0x200000 0x100 32).bind (fun c => s.holder (c / 8)) <|> slotIn o 0x202000 0x40 4 <|>
    slotIn o 0x300880 8 4 <|> (slotIn o 0x3008C0 8 4).bind s.holder <|>
    ((slotIn o 0x340000 0x20 4095).bind fun h =>
      if (s.region h).v || (s.region h).drain then some (s.region h).part else none) <|>
    ((slotIn o 0x400000 0x20 4096).bind fun c => s.rangeOwner (·.hasCounter c)) <|>
    slotIn o 0x420000 0x10 4 <|>
    ((slotIn o 0x500000 0x40 16384).bind fun e => s.rangeOwner (·.hasEntry e)) <|>
    ((slotIn o 0x600000 0x80 256).bind fun g => s.rangeOwner (·.hasGroup g))

/-- A router block of R326. -/
def isRouter (addr : Word) : Bool :=
  space addr = 0xF4 && (slotIn (bits addr.toNat 31 0) 0x200000 0x100 32).isSome
/-- DPWR and TSENS. -/
def isPower (addr : Word) : Bool := space addr = 0xF4 && (slotIn (bits addr.toNat 31 0) 0x200 8 8).isSome
/-- A registration entry (R394). -/
def isRegion (addr : Word) : Bool :=
  space addr = 0xF4 && (slotIn (bits addr.toNat 31 0) 0x340000 0x20 4095).isSome

/-- R351, R410, R394: registers of a partition that its VF may write. -/
def vfWrites (addr : Word) : Bool :=
  let o := bits addr.toNat 31 0
  if space addr = 0xF2 then true
  else if space addr = 0xF3 then o ≠ 0x08 && o ≠ 0x10 && o ≠ 0x28
  else (slotIn o 0x40 0x20 4).isSome || (slotIn o 0x388 8 4).isSome || (slotIn o 0x440 0x40 4).isSome ||
    isRouter addr || (slotIn o 0x202000 0x40 4).isSome || isRegion addr ||
    (slotIn o 0x400000 0x20 4096).isSome || (slotIn o 0x600000 0x80 256).isSome

/-- R349, R350, R360, R366: how a host access to a register is stopped: 0 not, 1 Unsupported Request, 2
Completer Abort. -/
def State.hostRefusal (s : State) (fn : Nat) (write : Bool) (addr : Word) : Nat :=
  let tdi (q : Nat) : BitVec 2 := (s.part q).tdi
  if s.pkg.stage = 0xFF && !(space addr = 0xF4 && bits addr.toNat 31 3 * 8 = 0x300) then 1
  else match fn with
  | 0 =>
    (match s.resourcePart addr with
     | some q =>
       if (tdi q = 1 || tdi q = 2) && !(isRouter addr && !write) && !isPower addr then 2 else 0
     | none => 0)
  | q + 1 =>
    if tdi q = 3 then 1
    else
      let mine := s.resourcePart addr = some q || (isRegion addr && (s.resourcePart addr).isNone)
      if mine && (!write || vfWrites addr) then 0 else 2

/-- R263, R326: the registers that a die's supervisor core may write. -/
def supervisorMay (d : Nat) (addr : Word) : Bool :=
  let a := addr.toNat
  (space addr = 0xF2 && bits a 36 32 / 8 = d) || (space addr = 0xF3 && bits a 33 32 = d) ||
  (match slotIn (bits a 31 0) 0x200000 0x100 32 with
   | some c => space addr = 0xF4 && c / 8 = d
   | none => false)

/-- R234, R261, R410: a thread's store to a cluster, die, counter, entry or group outside its partition. -/
def State.foreign (s : State) (tid : Nat) (addr : Word) : Bool :=
  (space addr = 0xF2 || space addr = 0xF3 || (space addr = 0xF4 && bits addr.toNat 31 0 ≥ 0x400000)) &&
    s.resourcePart addr != some (s.partOf tid)

/-- R349, R369: a host access refused at a die is logged there. -/
def State.refuseHost (s : State) (fn : Nat) (addr : Word) (acc : Acc) : State :=
  let log (d : Nat) : State := s.logViolation d addr.toNat (.host fn) (fn - 1) 5 acc
  (if space addr = 0xF2 then log (bits addr.toNat 36 32 / 8)
   else if space addr = 0xF3 then log (bits addr.toNat 33 32)
   else s).hostAnswer 2

/-- A write reaches a register: the requester's standing is checked, then the write acts. -/
def State.store (s : State) (who : Who) (addr : Word) (w : Wrote) : State :=
  match who with
  | .host fn =>
    (match s.hostRefusal fn true addr with
     | 0 => w.report who addr
     | 1 => s.hostAnswer 1
     | _ => s.refuseHost fn addr .store)
  | .supervisor d => if supervisorMay d addr then w.s else s
  | .thread core slot =>
    if s.foreign (tidOf core slot) addr then (refuse53 s).report who addr else w.report who addr

end Sys2Proof.Machine
end

