-- ==== Sys2Proof/Machine/Chairli.lean ====
section
/-! DEFINITION. The Chairli ports and connections as senders see them: wavelengths and routes (R373–R379, R387),
contexts (R392), flits and their counters (R383–R385), remote operations and their queues (R397, R398, R437). -/

namespace Sys2Proof.Machine

/-! ### Ports and wavelengths (R373, R374) -/

def Fabric.port (f : Fabric) (p : Nat) : Port := if h : p < 32 then f.ports[p] else {}
def State.port (s : State) (p : Nat) : Port := s.fab.port p
def State.modFab (s : State) (f : Fabric → Fabric) : State := { s with fab := f s.fab }
def State.modPort (s : State) (p : Nat) (f : Port → Port) : State :=
  s.modFab (fun b => if h : p < 32 then { b with ports := b.ports.set p (f b.ports[p]) } else b)
def Port.slot (x : Port) (k : Nat) : TxSlot := if h : k < 16 then x.tx[k] else {}
def Port.lane (x : Port) (k : Nat) : RxLane := if h : k < 16 then x.rx[k] else {}
def Port.modSlot (x : Port) (k : Nat) (f : TxSlot → TxSlot) : Port :=
  if h : k < 16 then { x with tx := x.tx.set k (f x.tx[k]) } else x
def Port.modLane (x : Port) (k : Nat) (f : RxLane → RxLane) : Port :=
  if h : k < 16 then { x with rx := x.rx.set k (f x.rx[k]) } else x
def State.modSlot (s : State) (p k : Nat) (f : TxSlot → TxSlot) : State := s.modPort p (fun x => x.modSlot k f)
def State.modLane (s : State) (p k : Nat) (f : RxLane → RxLane) : State := s.modPort p (fun x => x.modLane k f)

/-- R376: the peer at a position of a port's plane. -/
def Port.peerAt (x : Port) (j : Nat) : Option Nat :=
  let w := if h : j / 4 < 4 then x.pmap[j / 4].toNat else 0
  let e := bits w (16 * (j % 4) + 15) (16 * (j % 4))
  if bits e 15 15 = 1 then some (bits e 11 0) else none
/-- R373: the peer that λk of a port reaches. -/
def Port.reaches (x : Port) (k : Nat) : Option Nat := x.peerAt ((x.pos + k) % 16)
/-- R373: the peer whose λk a port receives. -/
def Port.hears (x : Port) (k : Nat) : Option Nat := x.peerAt ((x.pos + 16 - k % 16) % 16)

/-- R379: a state that holds a TX slot. -/
def Light.holds : Light → Bool
  | .dark => false
  | _ => true
/-- R374: TX slots held on a port. -/
def Port.txHeld (x : Port) : Nat := (x.tx.toList.filter (fun t => t.light.holds)).length
/-- R374: RX lanes assigned on a port. -/
def Port.rxHeld (x : Port) : Nat := (x.rx.toList.filter (fun r => r.assigned)).length

/-- All wavelengths of the package, by port and then λ. -/
def allWaves : List (Nat × Nat) := (List.range 32).flatMap (fun p => (List.range 16).map (fun k => (p, k)))

/-- Wavelengths that satisfy a test. -/
def State.waves (s : State) (f : Port → Nat → TxSlot → Bool) : List (Nat × Nat) :=
  (List.range 32).flatMap (fun p =>
    let x := s.port p
    ((List.range 16).filter (fun k => f x k (x.slot k))).map (fun k => (p, k)))

/-- R379: held(L) of the lease of a partition towards a peer. -/
def State.heldBy (s : State) (q x : Nat) : Nat :=
  (s.waves (fun _ _ t => t.lease = some (q, x) && (t.light = .training || t.light = .lit))).length
/-- R377: wavelengths held by a partition's leases. -/
def State.heldAll (s : State) (q : Nat) : Nat :=
  (s.waves (fun _ _ t => (t.lease.map Prod.fst) = some q && (t.light = .training || t.light = .lit))).length

/-! ### Routes (R378) -/

/-- R378: lit base wavelengths to a peer. -/
def State.baseTo (s : State) (x : Nat) : List (Nat × Nat) :=
  s.waves (fun p k t => p.en && t.light = .lit && t.base && p.reaches k = some x)
/-- R378: lit leased wavelengths of a partition to a peer. -/
def State.leasedTo (s : State) (q x : Nat) : List (Nat × Nat) :=
  s.waves (fun p k t => p.en && t.light = .lit && t.lease = some (q, x) && p.reaches k = some x)
/-- R378: items 1 and 2. -/
def State.directTo (s : State) (q x : Nat) : List (Nat × Nat) :=
  let l := s.leasedTo q x
  if l.isEmpty then s.baseTo x else l
/-- R378: the relay of a peer, if its route entry gives one. -/
def State.relayOf (s : State) (x : Nat) : Option Nat :=
  let e := s.homeNat (s.fab.rtbase.toNat + 8 * x) 8
  if bits e 63 63 = 1 && bits e 12 12 = 1 then some (bits e 11 0) else none
/-- R378: the wavelengths that carry flits of a partition to a peer, and whether a relay forwards them. -/
def State.paths (s : State) (q x : Nat) : List (Nat × Nat) × Bool :=
  let l := s.directTo q x
  if !l.isEmpty then (l, false)
  else match s.relayOf x with
    | some r => (s.directTo q r, true)
    | none => ([], false)

def connKey (q x : Nat) : Nat := 4096 * q + x
/-- R386: the partition of the peer that is paired with one of this package. -/
def State.pairOf (s : State) (q x : Nat) : Option Nat := s.fab.pairs.find (connKey q x)
/-- R378, R386: the peer can be reached by the partition. -/
def State.hasRoute (s : State) (q x : Nat) : Bool :=
  s.fab.en && (s.pairOf q x).isSome && !(s.paths q x).1.isEmpty

/-! ### Connections (R387, R388, R392) -/

def State.conn (s : State) (q x : Nat) : Conn := s.fab.conns.get {} (connKey q x)
def State.setConn (s : State) (q x : Nat) (c : Conn) : State :=
  s.modFab (fun b => { b with conns := b.conns.put (connKey q x) c })
def State.modConn (s : State) (q x : Nat) (f : Conn → Conn) : State := s.setConn q x (f (s.conn q x))

/-- The wavelength after the one last used, in rising order (R387). -/
def nextWave (l : List (Nat × Nat)) (last : Nat) : Option (Nat × Nat) :=
  match l.find? (fun w => w.1 * 16 + w.2 > last) with
  | some w => some w
  | none => l.head?

/-- R387: the wavelengths of a route that are not paused. -/
def State.openPaths (s : State) (q x : Nat) : List (Nat × Nat) :=
  (s.paths q x).1.filter (fun w => !((s.port w.1).slot w.2).paused)

/-- R383, R385: a sequenced flit leaves on its wavelength; it stays until acknowledged (R388). -/
def State.transmit (s : State) (q x : Nat) (o : Outbound) : State :=
  match nextWave (s.openPaths q x) (s.conn q x).stripe with
  | none => s
  | some (p, k) =>
    let c := s.conn q x
    let f := { o.flit with dst := x, src := s.pkg.peer.toNat, qs := q, qd := (s.pairOf q x).getD 0
                           seq := c.seq, port := p, wave := k, nonce := 2 ^ 24 * c.wrap + c.seq }
    let c' := { c with
      seq := (c.seq + 1) % 2 ^ 24, wrap := if c.seq + 1 = 2 ^ 24 then (c.wrap + 1) % 2 ^ 43 else c.wrap
      sent := c.sent ++ [{ o with flit := f }], stripe := p * 16 + k, used := s.clock
      progress := if c.sent.isEmpty then s.clock else c.progress }
    let s := { s.setConn q x c' with wire := s.wire ++ [f] }
    match o.op with
    | none => s
    | some id => s.modFab (fun b => { b with ops := b.ops.map (fun r =>
        if r.id = id then { r with seqs := r.seqs ++ [(f.seq, f.off)] } else r) })

/-- R384, R385: an unsequenced flit of a connection leaves, when there is a path. -/
def State.sendPlain (s : State) (q x : Nat) (f : Flit) : State :=
  match (s.paths q x).1.head? with
  | none => s
  | some (p, k) =>
    let c := s.conn q x
    let f := { f with dst := x, src := s.pkg.peer.toNat, qs := q, qd := (s.pairOf q x).getD 0
                      seq := if f.typ = 0x10 || f.typ = 0x11 then f.seq else c.usend, port := p, wave := k
                      nonce := 2 ^ 24 * c.uwrap + c.usend }
    { s.setConn q x { c with
        usend := (c.usend + 1) % 2 ^ 24
        uwrap := if c.usend + 1 = 2 ^ 24 then (c.uwrap + 1) % 2 ^ 43 else c.uwrap } with wire := s.wire ++ [f] }

/-- R378: the base wavelengths to the relay of a peer. -/
def State.relayPaths (s : State) (x : Nat) : List (Nat × Nat) :=
  match s.relayOf x with
  | some r => s.baseTo r
  | none => []

/-- R385, R386: a flit of the package pair leaves on the first of some wavelengths, under the pair's own counter; none when
there is no wavelength. -/
def State.sendOn (s : State) (x : Nat) (f : Flit) : List (Nat × Nat) → Option State
  | [] => none
  | (p, k) :: _ =>
    let n := s.fab.pairSent.get 0 x
    some { s.modFab (fun b => { b with pairSent := b.pairSent.put x ((n + 1) % 2 ^ 67) }) with
      wire := s.wire ++ [{ f with dst := x, src := s.pkg.peer.toNat, seq := n % 2 ^ 24, nonce := n, port := p, wave := k }] }

/-- R380: an LCTL flit, on any lit wavelength to the peer or through a relay. -/
def State.sendPair (s : State) (x : Nat) (f : Flit) : Option State :=
  s.sendOn x f (s.waves (fun p k t => p.en && t.light = .lit && p.reaches k = some x) ++ s.relayPaths x)
/-- R406: a SYNC flit, on a base wavelength to the peer or through a relay. -/
def State.sendSync (s : State) (x : Nat) (f : Flit) : Option State := s.sendOn x f (s.baseTo x ++ s.relayPaths x)

/-- A sequenced flit that waits to be sent ahead of the queues of R437. -/
def State.sendUrgent (s : State) (q x : Nat) (f : Flit) : State :=
  s.modConn q x (fun c => { c with urgent := c.urgent ++ [{ flit := f }] })

/-! ### Remote operations (R397–R401) -/

/-- A remote operation joins its queue. -/
def State.addOp (s : State) (o : RemoteOp) : State :=
  { s.modFab (fun b => { b with ops := b.ops ++ [{ o with id := s.nextId }] }) with nextId := s.nextId + 1 }
def State.op (s : State) (id : Nat) : Option RemoteOp := s.fab.ops.find? (fun o => o.id = id)
def State.modOp (s : State) (id : Nat) (f : RemoteOp → RemoteOp) : State :=
  s.modFab (fun b => { b with ops := b.ops.map (fun o => if o.id = id then f o else o) })
def State.dropOp (s : State) (id : Nat) : State :=
  s.modFab (fun b => { b with ops := b.ops.filter (fun o => o.id ≠ id) })

/-- R377, R437: the deadline of an operation issued now. -/
def State.ftoFromNow (s : State) : Nat := s.gtime.toNat + s.fab.fto * 1000

/-- The part of spans that covers `[a, a + n)`. -/
def spansAt (l : List Span) (a n : Nat) : List Span :=
  l.filterMap (fun p =>
    let lo := max p.start a
    let hi := min (p.start + p.len) (a + n)
    let n := lo - p.start
    if lo < hi then
      some { p with start := lo, len := hi - lo, addr := p.addr + n
                    far := p.far.map (fun w => (w.1 + BitVec.ofNat 64 n, { w.2 with pa := w.2.pa + n })) }
    else none)

/-- R278: local bytes of an operation that a copy still guards. -/
def State.spansWatched (s : State) (l : List Span) : Bool :=
  l.any (fun p => match p.far with
    | some (_, l) => s.watchedFar l.peer l.pa p.len
    | none => s.watched p.core p.addr p.len)

/-- R403: an access of an engine of a core to bytes of another package; its request is the next. -/
def State.askSpan (s : State) (core : Nat) (va : Word) (l : Leaf) (n : Nat) (op : ReqOp) : State :=
  { s with
    reqs := s.reqs ++ [{ id := s.nextId, tid := tidOf core 0, op := op, va := va, n := n, pc := 0, order := s.order
                         tgts := [.far l], engine := true }]
    nextId := s.nextId + 1 }

/-- R403: the one of the requests `ids` that reads the bytes at `va`. -/
def State.readOf (s : State) (ids : List Nat) (va : Word) : Option Request :=
  s.reqs.find? (fun r => ids.contains r.id && r.va = va && !r.op.writes)

/-- R403: the spans that lie on other packages and that none of the requests `ids` reads are asked for. -/
def State.askSpans (s : State) (core : Nat) (ids : List Nat) (l : List Span) : State × List Nat :=
  l.foldl (fun (st : State × List Nat) p => match p.far with
    | some (va, l) =>
      if (st.1.readOf st.2 va).isSome then st
      else (st.1.askSpan core va l p.len (.load false), st.2 ++ [st.1.nextId])
    | none => st) (s, ids)

/-- Reads local bytes of an operation for a core; `ids` are its requests to other packages. -/
def State.readSpans (s : State) (core : Nat) (eva : Word) (ids : List Nat) : List Span → Did (List Byte)
  | [] => .ok s []
  | p :: r =>
    let at_ := eva + BitVec.ofNat 64 p.start
    let got : Did (List Byte) :=
      match p.far, p.core with
      | some (va, _), _ =>
        (match s.readOf ids va with
         | some q => (match q.resp with
           | some (.data bs) => .ok (s.dropReq q.id) bs
           | some (.err t) => .err (s.dropReq q.id) t
           | _ => .wait)
         | none => .wait)
      | none, some c => s.scratchLoad (.engine core) (c = core) c p.addr p.len at_
      | none, none => s.homeLoad (.engine core) .load p.addr p.len p.key at_
    got.bind fun s bs => (s.readSpans core eva ids r).bind fun s rest => .ok s (bs ++ rest)

/-- R268: writes local bytes of an operation for a core, at the home and in no remote-data cache, `from_` being the offset of
the first; those of another package leave as requests, in order. -/
def State.writeSpans (s : State) (core : Nat) (eva : Word) (from_ : Nat) (bs : List Byte) : List Span → Did Unit
  | [] => .ok s ()
  | p :: r =>
    let at_ := eva + BitVec.ofNat 64 p.start
    let part := (bs.drop (p.start - from_)).take p.len
    let did : Did Unit :=
      match p.far, p.core with
      | some (va, l), _ => .ok (s.askSpan core va l part.length (.store part)) ()
      | none, some c => s.scratchStore (.engine core) (c = core) .store c p.addr part at_
      | none, none => s.homeStore (.engine core) .store p.addr p.key part at_
    did.bind fun s _ => s.writeSpans core eva from_ bs r

/-- R403: the requests of an operation that are answered are over; the first refusal among them. -/
def State.settleSubs (s : State) (ids : List Nat) : State × List Nat × Option Trap :=
  ids.foldl (fun (st : State × List Nat × Option Trap) i =>
    match (st.1.req i).bind Request.resp with
    | some (.err t) => (st.1.dropReq i, st.2.1, st.2.2.or (some t))
    | some _ => (st.1.dropReq i, st.2.1, st.2.2)
    | none => (st.1, (if (st.1.req i).isSome then st.2.1 ++ [i] else st.2.1), st.2.2)) (s, [], none)

/-- R101: the pages of `[va, va + n)` as an access of the thread reaches them, at most `fuel`. -/
def State.spansOf (s : State) (tid : Nat) (acc : Acc) (va : Word) (n : Nat) : Nat → Nat → Except Trap (List Span)
  | 0, _ => .ok []
  | fuel + 1, at_ =>
    if n ≤ at_ then .ok []
    else
      let a := va + BitVec.ofNat 64 at_
      let size := if space a ≤ 1 then 2 ^ 18 - a.toNat % 2 ^ 18 else n - at_
      let m := min (n - at_) size
      let span (p : Span) : Except Trap (List Span) :=
        match s.spansOf tid acc va n fuel (at_ + m) with
        | .ok r => .ok (p :: r)
        | .error t => .error t
      match s.resolve tid acc a 64 false with
      | .error t => .error t
      | .ok (.scratch c off) =>
        if off + m > scratchSize then
          .error { code := 0x04, sub := 1, eval := a + BitVec.ofNat 64 (scratchSize - off) }
        else span { start := at_, len := m, core := some c, addr := off }
      | .ok (.mem l) => span { start := at_, len := m, core := none, addr := l.pa, key := l.key }
      | .ok (.far l) => span { start := at_, len := m, core := none, addr := l.pa, key := l.key, far := some (a, l) }
      | .ok .reg => .error { code := 0x04, sub := 0, eval := a }

/-- Spans of a whole range. -/
def State.rangeSpans (s : State) (tid : Nat) (acc : Acc) (va : Word) (n : Nat) : Except Trap (List Span) :=
  s.spansOf tid acc va n (n / 2 ^ 18 + 3) 0

/-! ### The send arbiter (R437) -/

/-- R437: the queue an operation stands in: class, index. -/
def RemoteOp.queue (o : RemoteOp) : Nat × Nat :=
  match o.owner with
  | .coll g _ _ _ => (0, g)
  | .entry _ => (1, o.part)
  | .thread t _ => (2, t)
  | .store t _ => (2, t)
  | .after q => (1, q)
  | .request _ _ => (3, o.id)
  | .frame _ => (3, o.id)
  | .none => (3, o.id)
/-- Flits of it remain to be sent. -/
def RemoteOp.pending (o : RemoteOp) : Bool := o.next < o.count && !o.failed

/-- R437: the head of each queue. -/
def queueHeads : List (Nat × Nat) → List RemoteOp → List RemoteOp
  | _, [] => []
  | seen, o :: r =>
    if o.pending && !seen.contains o.queue then o :: queueHeads (o.queue :: seen) r else queueHeads seen r

/-- R437: the head to be sent next on a connection. -/
def State.nextOp (s : State) (q x : Nat) : Option RemoteOp :=
  let key (o : RemoteOp) : Nat × Nat × Nat := (o.deadline, o.queue.1, o.queue.2)
  let le (a b : RemoteOp) : Bool :=
    let (d, c, i) := key a
    let (d', c', i') := key b
    d < d' || (d = d' && (c < c' || (c = c' && i ≤ i')))
  (sortBy le ((queueHeads [] s.fab.ops).filter (fun o => o.part = q && o.peer = x))).head?

/-- The next flit of an operation: of a put it reads the source now (R398). -/
def State.nextFlit (s : State) (o : RemoteOp) : Did Flit :=
  match o.kind with
  | .put =>
    let n := min 256 (o.len - 256 * o.next)
    if s.spansWatched (spansAt o.spans (256 * o.next) n) then .wait
    else if 256 * o.next < o.len then
      (s.readSpans o.core o.x o.subs (spansAt o.spans (256 * o.next) n)).bind fun s bs =>
        .ok s { typ := 0x01, nar := o.nar, tcm := o.tcm, hdl := o.hdl, off := (o.off + 256 * o.next) % 2 ^ 40
                len := n - 1, payload := bs }
    else .ok s ((o.flits[0]?).getD { typ := 0x0C })
  | _ => .ok s ((o.flits[o.next]?).getD { typ := 0x0C })

end Sys2Proof.Machine
end

