-- ==== Sys2Proof/Machine/Control.lean ====
section
/-! DEFINITION. Branches, jumps, calls and returns (R13, R80–R86). In a gang the leader's outcome stands in
`State.fwd` while a follower executes the forwarded instruction (R85). -/

namespace Sys2Proof.Machine

/-- R85: the outcome that counts, the leader's in a follower. -/
def State.outcome (s : State) (own : Outcome) : Outcome := s.fwd.getD own

/-- The address of the instruction in hand plus 2·SignExt(disp) (R41). -/
def State.target {n : Nat} (s : State) (i : BitVec n) : Word := s.me.pc + halfwords i

/-- The PC of the thread in hand. -/
def State.goto (s : State) (pc : Word) : State := s.modMe (fun t => { t with pc := pc })

/-- R80: a branch. -/
def State.branch (s : State) (holds : Bool) (target : Word) : Out :=
  let o := s.outcome { taken := holds, target := target }
  .next (if o.taken && !o.suppressed then s.goto o.target else s.advance 4)

/-- R13: a call with slide `k`, made in the caller's window. -/
def State.call (s : State) (k : Nat) (target : Word) : Except Stop State :=
  let t := s.me
  if t.depth + k > 9 then .error (.trap { code := 0x06, eval := BitVec.ofNat 64 k })
  else
    let ra := t.pc + 4
    let link := (ra &&& ~~~1) ||| (if k = 2 then 1 else 0)
    .ok (s.setMe ({ t with wb := (t.wb + k) % 12, depth := t.depth + k, pc := target }.wr 23 link))

/-- R14: EVAL of a fill trap. -/
def fillEval (need spilled : Nat) : Word :=
  (if spilled < need then 1#64 <<< 63 else 0) ||| BitVec.ofNat 64 need

/-- R13: the slide that the link word in w23 gives. -/
def Thread.linkSlide (t : Thread) : Nat := 1 + (t.rd 23).toNat % 2

/-- R13: a return with slide `k`. -/
def State.unslide (s : State) (k : Nat) (target : Word) : Except Stop State :=
  let t := s.me
  if t.depth < k then .error (.trap { code := 0x07, eval := fillEval (k - t.depth) t.spilled })
  else .ok (s.setMe { t with wb := (t.wb + 12 - k) % 12, depth := t.depth - k, pc := target })

/-- R85: a call applied with the outcome that counts. -/
def State.calls (s : State) (k : Nat) (target : Word) : Out :=
  let o := s.outcome { taken := true, target := target, slide := k }
  if o.suppressed then .next (s.advance 4) else s.finishAt (s.call o.slide o.target)

/-- R83: a computed target must be even; checked before the window. -/
def State.evenTarget (s : State) (a : Word) : Except Stop Word :=
  match s.fwd with
  | some _ => .ok a
  | none => if a.getLsbD 0 then .error (.trap { code := 0x03, eval := a }) else .ok a

def execBEq (a b : Reg) (i : BitVec 12) (s : State) : Out := s.branch (cond 0 (s.rd a) (s.rd b)) (s.target i)
def execBNe (a b : Reg) (i : BitVec 12) (s : State) : Out := s.branch (cond 1 (s.rd a) (s.rd b)) (s.target i)
def execBLt (a b : Reg) (i : BitVec 12) (s : State) : Out := s.branch (cond 2 (s.rd a) (s.rd b)) (s.target i)
def execBGe (a b : Reg) (i : BitVec 12) (s : State) : Out := s.branch (cond 3 (s.rd a) (s.rd b)) (s.target i)
def execBLtu (a b : Reg) (i : BitVec 12) (s : State) : Out := s.branch (cond 4 (s.rd a) (s.rd b)) (s.target i)
def execBGeu (a b : Reg) (i : BitVec 12) (s : State) : Out := s.branch (cond 5 (s.rd a) (s.rd b)) (s.target i)
/-- R80. -/
def execBz (a : Reg) (i : BitVec 15) (s : State) : Out := s.branch (s.rd a == 0) (s.target i)
/-- R80. -/
def execBnz (a : Reg) (i : BitVec 15) (s : State) : Out := s.branch (s.rd a != 0) (s.target i)

/-- R81: a follower decrements its own register and takes the leader's way (R85). -/
def execLoop (a : Reg) (i : BitVec 15) (s : State) : Out :=
  let t := s.rd a - 1
  let o := s.outcome { taken := t != 0, target := s.target i }
  if o.suppressed then .next (s.advance 4)
  else if a = 24 then s.finishAt (.error s.badOperand)
  else .next (if o.taken then (s.wr a t).goto o.target else (s.wr a t).advance 4)

/-- R82. -/
def execJ (i : BitVec 25) (s : State) : Out := s.branch true (s.target i)
/-- R82. -/
def execCall8 (i : BitVec 25) (s : State) : Out := s.calls 1 (s.target i)
/-- R82. -/
def execCall16 (i : BitVec 25) (s : State) : Out := s.calls 2 (s.target i)

/-- R83. -/
def execJr (a : Reg) (s : State) : Out :=
  match s.evenTarget (s.rd a) with
  | .ok v => s.branch true v
  | .error e => s.finishAt (.error e)
/-- R83. -/
def execCallr8 (a : Reg) (s : State) : Out :=
  match s.evenTarget (s.rd a) with
  | .ok v => s.calls 1 v
  | .error e => s.finishAt (.error e)
/-- R83. -/
def execCallr16 (a : Reg) (s : State) : Out :=
  match s.evenTarget (s.rd a) with
  | .ok v => s.calls 2 v
  | .error e => s.finishAt (.error e)

/-- R13, R83. -/
def execRet (s : State) : Out :=
  let link := s.me.rd 23
  let o := s.outcome { taken := true, target := link &&& ~~~1, slide := s.me.linkSlide }
  if o.suppressed then .next (s.advance 4) else s.finishAt (s.unslide o.slide o.target)

/-- R85: what a leader forwards with a control instruction, decided from its own registers before it
executes; none for the other instructions. -/
def outcomeOf (i : Instr) (s : State) : Option Outcome :=
  let t := s.me
  let br (holds : Bool) (target : Word) : Option Outcome := some { taken := holds, target := target }
  match i with
  | .bEq a b i => br (cond 0 (t.rd a) (t.rd b)) (s.target i)
  | .bNe a b i => br (cond 1 (t.rd a) (t.rd b)) (s.target i)
  | .bLt a b i => br (cond 2 (t.rd a) (t.rd b)) (s.target i)
  | .bGe a b i => br (cond 3 (t.rd a) (t.rd b)) (s.target i)
  | .bLtu a b i => br (cond 4 (t.rd a) (t.rd b)) (s.target i)
  | .bGeu a b i => br (cond 5 (t.rd a) (t.rd b)) (s.target i)
  | .bz a i => br (t.rd a == 0) (s.target i)
  | .bnz a i => br (t.rd a != 0) (s.target i)
  | .loop a i => br (t.rd a - 1 != 0) (s.target i)
  | .j i => br true (s.target i)
  | .call8 i => some { taken := true, target := s.target i, slide := 1 }
  | .call16 i => some { taken := true, target := s.target i, slide := 2 }
  | .jr a => br true (t.rd a)
  | .callr8 a => some { taken := true, target := t.rd a, slide := 1 }
  | .callr16 a => some { taken := true, target := t.rd a, slide := 2 }
  | .ret => some { taken := true, target := t.rd 23 &&& ~~~1, slide := t.linkSlide }
  | _ => none

end Sys2Proof.Machine
end

