-- ==== Sys2Proof/Machine/Cluster.lean ====
section
/-! DEFINITION. The cluster instructions (R239–R259), the end of a task (R30, R244), root tasks and the
recovery of slots (R237, R238), and the register writes with an effect of their own in a cluster. -/

namespace Sys2Proof.Machine

/-- R234: the 0xF2 address of a cluster register. -/
def clusterReg (c off : Nat) : Word := BitVec.ofNat 64 (0xF2 * 2 ^ 56 + c * 2 ^ 32 + off)

/-! ### Launch (R242, R243) -/

/-- R242. -/
def execLpatch (d a b : Reg) (s : State) : Out :=
  s.finish 4 do
    let v := (s.rd a).toNat
    s.zeroBits (v / 2 ^ 19)
    s.released
    let c := s.myCluster
    let r := v % 0x10000
    if r ≥ (s.cluster c).lrCount then .ok (s.wr d 3)
    else if s.recState c r ≠ 0 then .ok (s.wr d 2)
    else .ok ((s.setRecWord c r (0x40 + 8 * bits v 18 16) (s.rd b)).wr d 0)

/-- R242: why a record cannot be armed, if it cannot: the status. -/
def State.armStatus (s : State) (c r : Nat) : Option Word :=
  if r ≥ (s.cluster c).lrCount then some 3
  else if s.recState c r ≠ 0 then some 2
  else if s.malformed c r then some 5
  else none

/-- R242: the record takes a pool slot, becomes ARMED and enters the router. -/
def State.arm (s : State) (core c r : Nat) : State :=
  ((s.modCluster c (fun x => { x with used := x.used + 1 })).setRecState c r 1).armInto core c r none

/-- R242. -/
def execSpawn (d a : Reg) (s : State) : Out :=
  s.finish 4 do
    let r := (s.rd a).toNat
    s.zeroBits (r / 0x10000)
    s.released
    let c := s.myCluster
    match s.armStatus c r with
    | some st => .ok (s.wr d st)
    | none =>
      if (s.cluster c).used ≥ 256 then .ok (s.wr d 1) else .ok ((s.arm s.myCore c r).wr d 0)

/-- R243: the record runs inline as a call of slide 2. -/
def State.inlineCall (s : State) (d : Reg) (c r : Nat) : Except Stop State :=
  let t := s.me
  if t.depth + 2 > 9 then .error (.trap { code := 0x06, eval := 2 })
  else
    let launch : Word := (if t.inl then 0x10000 else 0) ||| BitVec.ofNat 64 t.recIx
    let s := s.setRecState c r 4
    let s := s.setRecWord c r 0xC8 launch
    let s := s.setRecWord c r 0xD0 t.joina
    let s := s.setRecWord c r 0xD8 (d.zeroExtend 64)
    match s.call 2 (s.recWord c r 0x00) with
    | .error e => .error e
    | .ok s' =>
      let s' := (List.range 8).foldl
        (fun s' i => s'.wr (BitVec.ofNat 5 i) (s.recWord c r (0x40 + 8 * i))) s'
      .ok (s'.modMe (fun t => { t with recIx := r, inl := true, joina := s.recWord c r 0x28 }))

/-- R242, R243: arms the record, or runs it inline when the pool is full. -/
def execSpawnc (d a : Reg) (s : State) : Out :=
  s.finishAt do
    let r := (s.rd a).toNat
    s.zeroBits (r / 0x10000)
    s.released
    let c := s.myCluster
    match s.armStatus c r with
    | some st => .ok ((s.wr d st).advance 4)
    | none =>
      if (s.cluster c).used ≥ 256 then s.inlineCall d c r else .ok (((s.arm s.myCore c r).wr d 0).advance 4)

/-! ### Join counters (R246) -/

/-- R246. -/
def execJsig (d a b : Reg) (s : State) : Out :=
  s.finish 4 do
    s.zeroBits ((s.rd b).toNat / 2 ^ 32)
    let (c, i) ← s.object .join (s.rd a)
    s.released
    let (s', old) := s.signalJoin s.myCore c i (s.rd b).toNat
    .ok (s'.wr d (BitVec.ofNat 64 old))

/-- R246: completes at once when the count is zero; otherwise parks. -/
def execJwait (a b : Reg) (s : State) : Out :=
  s.finish 4 do
    s.zeroBits ((s.rd b).toNat / 2 ^ 32)
    let (c, i) ← s.object .join (s.rd a)
    if (s.join c i).count = 0 then .ok (s.acquire s.cur)
    else .error (.park (.jwait c i (s.rd a) (s.rd b).toNat 0))

/-! ### Barriers (R250) -/

/-- R250: d is the phase joined; an arrival past 0xFFFF is not counted. -/
def execBarArr (d a : Reg) (s : State) : Out :=
  s.finish 4 do
    let (c, i) ← s.object .barrier (s.rd a)
    s.released
    let b := s.bar c i
    let e := max 1 (s.barExpect c b)
    let v := b.phase + BitVec.ofNat 32 (b.arrived / e)
    let b' := if b.arrived ≥ 0xFFFF then { b with ovf := true } else { b with arrived := b.arrived + 1 }
    .ok (((s.setBar c i b').barSettle c i).wr d (v.zeroExtend 64))

/-- R250. -/
def execBarWait (a b : Reg) (s : State) : Out :=
  s.finish 4 do
    s.zeroBits ((s.rd b).toNat / 2 ^ 32)
    let (c, i) ← s.object .barrier (s.rd a)
    let p := (s.rd b).extractLsb' 0 32
    if phaseDone (s.bar c i).phase p then .ok (s.acquire s.cur) else .error (.park (.barWait c i p))

/-- R250. -/
def execBarT1 (a b : Reg) (s : State) : Out :=
  s.finish 4 do
    s.zeroBits ((s.rd b).toNat / 2)
    let (c, i) ← s.object .barrier (s.rd a)
    let bit := (s.rd b).getLsbD 0
    if (s.bar c i).phase.getLsbD 0 ≠ bit then .ok (s.acquire s.cur) else .error (.park (.barT1 c i bit))

/-- R250. -/
def execBarSet (a b : Reg) (s : State) : Out :=
  s.finish 4 do
    let v := (s.rd b).toNat
    s.zeroBits (v / 2 ^ 17)
    if v % 0x10000 = 0 then .error s.badOperand
    else
      let (c, i) ← s.object .barrier (s.rd a)
      let x := { s.bar c i with expect := v % 0x10000, bound := false }
      let x := if bits v 16 16 = 1 then { x with arrived := 0, bytes := 0, ovf := false, under := false } else x
      .ok ((s.setBar c i x).barSettle c i)

/-- R250: saturating, with OVF. -/
def execBarBytes (a b : Reg) (s : State) : Out :=
  s.finish 4 do
    let v := (s.rd b).toNat
    s.zeroBits (v / 2 ^ 28)
    let (c, i) ← s.object .barrier (s.rd a)
    s.released
    let x := s.bar c i
    let n := x.bytes + v
    .ok ((s.setBar c i (if n > 0xFFFFFFF then { x with bytes := 0xFFFFFFF, ovf := true }
      else { x with bytes := n })).barSettle c i)

/-- R250: binds the barrier to a set of its own cluster, or unbinds it; R260: a poisoned set traps as a poisoned barrier
does. -/
def execBarBind (a b : Reg) (s : State) : Out :=
  s.finish 4 do
    let v := (s.rd b).toNat
    s.zeroBits (v / 2 ^ 9)
    let (c, i) ← s.object .barrier (s.rd a)
    let x := s.bar c i
    let set := 0x60000 + 8 * (v % 256)
    if bits v 8 8 = 0 && (s.cluster c).poisoned.contains set then
      .error (.trap { code := 0x0D, eval := clusterReg c set })
    else .ok ((s.setBar c i (if bits v 8 8 = 1 then { x with bound := false }
      else { x with bound := true, set := v % 256 })).barSettle c i)

/-! ### Futures and sets (R253, R254) -/

/-- R253. -/
def execLdf (d a : Reg) (s : State) : Out :=
  s.finish 4 do
    let (c, i) ← s.object .cell (s.rd a)
    let x := s.cell c i
    if x.full then .ok ((s.wr d x.value).acquire s.cur) else .error (.park (.ldf c i (s.me.code d)))

/-- R253. -/
def execStf (d a b : Reg) (s : State) : Out :=
  s.finish 4 do
    let (c, i) ← s.object .cell (s.rd a)
    s.released
    if (s.cell c i).full then .ok (s.wr d 1) else .ok ((s.fillCell c i (s.rd b)).wr d 0)

/-- R254. -/
def execGjoin (d a : Reg) (s : State) : Out :=
  s.finish 4 do
    let (c, i) ← s.object .set (s.rd a)
    s.released
    let n := s.setCount c i
    if n = 0xFFFF then .ok (s.wr d (BitVec.allOnes 64))
    else .ok ((s.changeSet c i (n + 1)).wr d (BitVec.ofNat 64 n))

/-- R254. -/
def execGleave (d a : Reg) (s : State) : Out :=
  s.finish 4 do
    let (c, i) ← s.object .set (s.rd a)
    s.released
    let n := s.setCount c i
    .ok ((if n > 0 then s.changeSet c i (n - 1) else s).wr d (BitVec.ofNat 64 n))

/-! ### The scoreboard (R257) -/

/-- R257, R239, R260: the cluster that a scoreboard operand names, with its partition and poisoning checks at
the words of (x, y). -/
def State.scoreboard (s : State) (v : Word) (off : Nat) : Except Stop Nat :=
  let c := bits v.toNat 32 28
  if (s.die (c / 8)).part ≠ s.partOf s.cur then .error (.trap { code := 0x05, sub := 3, eval := v })
  else if (s.cluster c).poisoned.contains off then
    .error (.trap { code := 0x0D, eval := clusterReg c off })
  else .ok c

/-- R257. -/
def execSbBind (d a b : Reg) (s : State) : Out :=
  s.finish 4 do
    let v := (s.rd a).toNat
    s.zeroBits (v / 2 ^ 33)
    s.zeroBits ((s.rd b).toNat / 2 ^ 24)
    let r := v % 0x10000
    let x := bits v 21 16
    let y := bits v 27 22
    let c ← s.scoreboard (s.rd a) (0x80000 + 8 * (64 * y + x))
    match s.armStatus c r with
    | some st => .ok (s.wr d st)
    | none =>
      if ((s.cluster c).binds.find (64 * y + x)).any Binding.v then .ok (s.wr d 4)
      else if (s.cluster c).used ≥ 256 then .ok (s.wr d 1)
      else
        let m := (s.rd b).extractLsb' 0 24
        let s' := (s.modCluster c (fun z => { z with
          used := z.used + 1
          binds := z.binds.put (64 * y + x) { mask := m, recIx := r } })).setRecState c r 2
        let s' := if s'.satisfied c x y m then s'.release s.myCore c (64 * y + x) else s'
        .ok (s'.wr d 0)

/-- R257. -/
def execSbRet (a : Reg) (s : State) : Out :=
  s.finish 4 do
    let v := (s.rd a).toNat
    s.zeroBits (v % 0x10000)
    s.zeroBits (v / 2 ^ 33)
    let x := bits v 21 16
    let y := bits v 27 22
    let c ← s.scoreboard (s.rd a) (0x70000 + 8 * y)
    s.released
    let row := (s.cluster c).retired.get 0 y
    let s' := s.modCluster c (fun z => { z with retired := z.retired.put y (row ||| 1#64 <<< x) })
    .ok (s'.releaseAll s.myCore c)

/-! ### The static schedule table (R259) -/

/-- R259, R301, R357: the next entry of the core's table, or all ones. -/
def execSchedNext (d : Reg) (s : State) : Out :=
  s.finish 4 <|
    let x := s.core s.myCore
    if x.schCur < x.schLen then
      let a := x.scht.toNat + 8 * x.schCur
      if s.lost a then .error (.trap { code := 0x0D, eval := BitVec.ofNat 64 a })
      else if s.unowned a then .error (.trap { code := 0x05, sub := 3, eval := BitVec.ofNat 64 a })
      else if (s.badAt a 8).isSome then .error (.trap { code := 0x0D, eval := BitVec.ofNat 64 a })
      else .ok ((s.modCore s.myCore (fun x => { x with schCur := x.schCur + 1 })).wr d
        (BitVec.ofNat 64 (s.homeNat a 8)))
    else .ok (s.wr d (BitVec.allOnes 64))

/-! ### The end of a task (R30, R90, R244, R248) -/

/-- R142: a thread leaves its gang and resumes its own stream. -/
def State.leaveGang (s : State) (tid : Nat) : State :=
  s.modThread tid (fun t => { t with gang := false, gangIx := 0, gangSz := 1 })

/-- R344: the visitor whose own task, not an inline child of it, is running, with its home package. The record of an inline
child lies in the visited cluster, and so does the counter that its JOINA names (DEDUCED, log 32). -/
def Thread.guest (t : Thread) : Option Nat := if t.inl then none else t.visitor

/-- R244, R239: JOINA must be 0 or name a join counter; a visitor's names one of its home package (R344). -/
def State.checkJoina (s : State) : Except Stop Unit :=
  let t := s.me
  if t.joina = 0 then .ok ()
  else match t.guest with
    | some _ => if (objectAt .join t.joina).isSome then .ok ()
      else .error (.trap { code := 0x04, sub := 1, eval := t.joina })
    | none => match s.object .join t.joina with
      | .ok _ => .ok ()
      | .error e => .error e

/-- R344: a visitor's change of STATE, and at its DONE its join signal, on its way to the home package. The
spec gives the flit no layout: DESIGN CHOICE, log 6. -/
def State.sendVisitor (s : State) (q peer recIx state : Nat) (joina : Word) (done : Bool) : State :=
  s.sendUrgent q peer { typ := 0x0B, off := recIx, aux := 16 + state + (if done then 8 else 0), len := 7
                        payload := leBytes 8 joina.toNat }

/-- R248: the signal of DONE. -/
def State.signalDone (s : State) : State :=
  let t := s.me
  match t.guest with
  | some _ => s
  | none => match objectAt .join t.joina with
    | some (c, i) => (s.signalJoin s.myCore c i 1).1
    | none => s

/-- R244: an inline child ends and returns to its parent. -/
def State.doneInline (s : State) : Except Stop State := do
  let t := s.me
  let k := t.linkSlide
  if t.depth < k then .error (.trap { code := 0x07, eval := fillEval (k - t.depth) t.spilled })
  else
    s.checkJoina
    s.released
    let link := t.rd 23
    let c := s.myCluster
    let r := t.recIx
    let launch := s.recWord c r 0xC8
    let pj := s.recWord c r 0xD0
    let pd := (s.recWord c r 0xD8).extractLsb' 0 5
    let s := (s.signalDone).setRecState c r 0
    let s := s.modMe (fun t => { t with recIx := launch.toNat % 0x10000, inl := launch.getLsbD 16, joina := pj })
    let s ← s.unslide k (link &&& ~~~1)
    .ok (s.wr pd 1)

/-- R30, R244: the task ends and its slot is free. -/
def State.doneTask (s : State) : Except Stop State := do
  s.checkJoina
  s.released
  let t := s.me
  let s := s.signalDone
  let s := match t.visitor with
    | some p => s.sendVisitor (s.partOf s.cur) p t.recIx 0 t.joina true
    | none => s.setRecState s.myCluster t.recIx 0
  .ok (s.modMe (fun t => { t with life := .free, wait := none }))

/-- R30, R90, R244. -/
def execDone (s : State) : Out :=
  s.finishAt <|
    let s := if s.me.gang then s.leaveGang s.cur else s
    if s.me.inl then s.doneInline else s.doneTask

/-! ### Dispatch (R232, R338) -/

/-- R29, R232: a slot takes a task. -/
def State.startTask (s : State) (tid c : Nat) (t : Task) : State :=
  let w (off : Nat) : Word := s.taskWord c t off
  let regs := (List.range 8).foldl (fun (r : Vector Word 108) i =>
    if h : i < 108 then r.set i (w (0x40 + 8 * i)) else r) (Vector.replicate 108 0)
  let x : Thread := {
    life := .ready, pc := w 0x00 &&& ~~~1, regs := regs, tcm := (w 0x30).getLsbD 2
    hvec := w 0x08 &&& ~~~1, wsp := w 0x10 &&& ~~~63, seed := w 0x18, taskix := w 0x20
    joina := w 0x28, recIx := t.recIx, visitor := t.visitor.map Prod.fst
    acqEpoch := (s.thread tid).acqEpoch, run := s.nextId }
  let s := { s.setThread tid x with nextId := s.nextId + 1 }
  let s := match t.visitor with
    | some (p, _) => s.sendVisitor (s.partOf tid) p t.recIx 3 x.joina false
    | none => s.setRecState c t.recIx 3
  { s with pkg := { s.pkg with dispatched := true } }.acquire tid

/-- R144: the slots a running save names. -/
def Core.saving (x : Core) (slot : Nat) : Bool := x.preBusy && !x.preRestore && x.preSlots.getLsbD slot

/-- R338: a slot that dispatch may take. -/
def State.eligible (s : State) (core slot : Nat) : Bool :=
  let x := s.core core
  (s.thread (tidOf core slot)).life = .free && !x.iso && !(s.die (dieOf core)).fenced && !x.saving slot &&
  (s.owner (dieOf core)).isSome && (s.die (dieOf core)).pwrState = 0

/-- R338: how many slots of a core are occupied. -/
def State.occupied (s : State) (core : Nat) : Nat :=
  ((List.range 4).filter (fun k => (s.thread (tidOf core k)).life ≠ .free)).length

/-- R338: the core with fewest occupied slots among those with an eligible one, and its lowest eligible
slot. -/
def State.chooseSlot (s : State) (c : Nat) : Option (Nat × Nat) :=
  let cores := ((List.range 32).map (32 * c + ·)).filter (fun k => (List.range 4).any (s.eligible k))
  match sortBy (fun a b => s.occupied a < s.occupied b || (s.occupied a = s.occupied b && a ≤ b)) cores with
  | [] => none
  | k :: _ => ((List.range 4).find? (s.eligible k)).map (fun x => (k, x))

/-- R338: the head of the highest non-empty queue. -/
def Cluster.head (x : Cluster) : Option (Nat × Task × List Task) :=
  [3, 2, 1, 0].findSome? (fun l =>
    if h : l < 4 then
      match x.queues[l] with
      | t :: r => some (l, t, r)
      | [] => none
    else none)

/-- R338, R340: one dispatch: the task leaves its queue and a slot is reserved while its record is read. A clock has one
dispatch at most, before its routing decisions. -/
def execDispatch (c : Nat) (s : State) : Out :=
  if s.infinite c || !s.clocked (c / 8) || (s.cluster c).ranAt = some s.clock then .next s
  else match s.chooseSlot c, (s.cluster c).head with
  | some (core, slot), some (l, t, rest) =>
    let s := s.modCluster c (fun x => if h : l < 4 then { x with queues := x.queues.set l rest, ranAt := some s.clock } else x)
    .next (s.modThread (tidOf core slot) (fun u => { u with life := .reserved, dispatching := some t }))
  | _, _ => .next s

/-- R338, R260, R301, R355: the record of a task cannot be read. -/
def State.recordDead (s : State) (c : Nat) (t : Task) : Bool :=
  match t.visitor with
  | some _ => false
  | none =>
    let a := s.recAddr c t.recIx
    (s.badAt a 256).isSome || s.unowned a

/-- R247: a continuation's counter no longer holds it. -/
def State.clearCq (s : State) (c : Nat) (t : Task) : State :=
  match t.contOf with
  | some i => s.setJoin c i { s.join c i with cq := false }
  | none => s

/-- R337: the pool slot of a task is freed; a held continuation has none. -/
def State.freePool (s : State) (c : Nat) (t : Task) : State :=
  match t.contOf with
  | some _ => s
  | none => s.modCluster c (fun x => { x with used := x.used - 1 })

/-- R232, R338: the record read returns and the slot is initialised, or the task is dropped. -/
def execDispatchComplete (core slot : Nat) (s : State) : Out :=
  let tid := tidOf core slot
  let c := clusterOf core
  match (s.thread tid).dispatching with
  | none => .next s
  | some t =>
    let s := (s.clearCq c t).freePool c t
    if s.recordDead c t then
      let s := s.modThread tid (fun u => { u with life := .free, dispatching := none })
      .next (s.postEvent (some (c / 8)) 0x07 (BitVec.ofNat 64 t.recIx) (BitVec.ofNat 64 c))
    else .next (s.startTask tid c t)

/-! ### Root tasks and the recovery of slots (R237, R238) -/

def State.setHcst (s : State) (c : Nat) (v : BitVec 8) : State := s.modCluster c (fun x => { x with hcst := v })

/-- R237: a write to ROOTL. -/
def State.writeRootl (s : State) (who : Who) (c : Nat) (v : Word) : Wrote :=
  if whoIsThread who then refuse51 s
  else
    let n := v.toNat
    let r := n % 0x10000
    let stop (st : BitVec 8) : Wrote := { s := s.setHcst c st, refused := some (0x05, 1) }
    match s.armStatus c r with
    | some st => stop (st.extractLsb' 0 8)
    | none =>
      if bits n 31 31 = 0 then
        if (s.cluster c).used ≥ 256 then stop 1
        else { s := (s.arm (32 * c) c r).setHcst c 0 }
      else
        let core := 32 * c + bits n 20 16
        let slot := bits n 27 26
        if s.infinite c || !s.eligible core slot then stop 6
        else { s := (s.startTask (tidOf core slot) c { recIx := r }).setHcst c 0 }

/-- R238: the bytes that an abandoned instruction writes are old or new: the model takes the old ones (DEDUCED, log 29). What
copies, streams, pumps and started matrix entries have asked for is no instruction of the slot and goes on. -/
def State.abandon (s : State) (tid : Nat) : State :=
  { s with reqs := s.reqs.filter (fun r => r.tid ≠ tid || r.engine), scOps := s.scOps.filter (fun o => o.tid ≠ tid) }

/-- R238: a write to SLOTCMD. -/
def State.writeSlotcmd (s : State) (who : Who) (c : Nat) (v : Word) : Wrote :=
  if whoIsThread who then refuse51 s
  else
    let n := v.toNat
    let core := 32 * c + bits n 20 16
    let slot := bits n 27 26
    let tid := tidOf core slot
    let t := s.thread tid
    let occupiedLost := (s.core core).iso && (t.life = .ready || t.life = .parked)
    if bits n 33 32 = 1 && (t.life = .halted || occupiedLost) then
      let s := s.abandon tid
      let s := s.modCore core (fun x => { x with
        mq := x.mq.filter (fun e => e.slot ≠ slot || e.started)
        vqStarted := x.vqStarted && x.vq.head?.any (fun c => c.slot ≠ slot), vq := x.vq.filter (fun c => c.slot ≠ slot)
        recorded := x.recorded.filter (fun e => e.slot ≠ slot) })
      { s := (s.modThread tid (fun t => { t with
          life := .free, wait := none, flights := [], unacked := [], deferred := [], gang := false, gangIx := 0, gangSz := 1
          weft := [], abort := none, haltCause := none })).setHcst c 0 }
    else { s := s.setHcst c 7, refused := some (0x05, 1) }

/-- R237: a ROOTL write that arms (PLACE = 0). -/
def execRootlArm (who : Who) (cluster : Nat) (value : Word) (s : State) : Out :=
  .next (s.store who (clusterReg cluster 0x28)
    (s.writeRootl who cluster (value &&& ~~~(1#64 <<< 31))))
/-- R237: a ROOTL write that dispatches on a named slot (PLACE = 1). -/
def execRootlPlace (who : Who) (cluster : Nat) (value : Word) (s : State) : Out :=
  .next (s.store who (clusterReg cluster 0x28)
    (s.writeRootl who cluster (value ||| 1#64 <<< 31)))
/-- R238. -/
def execSlotcmdFree (who : Who) (cluster : Nat) (value : Word) (s : State) : Out :=
  .next (s.store who (clusterReg cluster 0x30)
    (s.writeSlotcmd who cluster value))

/-! ### Plain stores with an effect (R234, R245, R252) -/

/-- R245: a store to COUNT, refused while CQ = 1; zero wakes the waiters and arms nothing. -/
def State.writeCount (s : State) (c i : Nat) (v : Word) : Wrote :=
  let j := s.join c i
  if j.cq then refuse51 s
  else
    let j := { j with count := v.toNat % 2 ^ 32, under := j.under && !v.getLsbD 32 }
    let s := s.setJoin c i j
    { s := if j.count = 0 then s.wakeJoin c i else s }

/-- R252: writing 1 to FULL empties the cell. -/
def State.writeFstate (s : State) (c i : Nat) (v : Word) : State :=
  if v.getLsbD 0 then s.setCell c i { s.cell c i with full := false } else s

/-- R234: SBCTL.CLR, refused while a binding is valid. -/
def State.writeSbctl (s : State) (c : Nat) (v : Word) : Wrote :=
  if v.getLsbD 0 then
    if (s.cluster c).binds.cells.all (fun b => !b.2.v) then { s := s.modCluster c (fun x => { x with retired := {} }) }
    else refuse51 s
  else { s := s }

/-- R260: a store to a poisoned object writes nothing. -/
def State.unlessPoisoned (s : State) (c off : Nat) (w : Wrote) : Wrote :=
  if (s.cluster c).poisoned.contains off then { s := s, refused := some (0x0D, 0) } else w

/-- R245. -/
def execJoinCountStore (who : Who) (cluster idx : Nat) (value : Word) (s : State) : Out :=
  .next (s.store who (joinAddr cluster idx)
    (s.unlessPoisoned cluster (0x40000 + 0x10 * idx) (s.writeCount cluster idx value)))
/-- R252. -/
def execFutureEmpty (who : Who) (cluster idx : Nat) (s : State) : Out :=
  .next (s.store who (clusterReg cluster (0x20008 + 0x10 * idx))
    (s.unlessPoisoned cluster (0x20000 + 0x10 * idx) { s := s.writeFstate cluster idx 1 }))
/-- R234. -/
def execSbctlClear (who : Who) (cluster : Nat) (s : State) : Out :=
  .next (s.store who (clusterReg cluster 0x18)
    (s.writeSbctl cluster 1))

/-! ### Bounded waits (R246) -/

/-- R246: the limit of a parked jwait has passed. -/
def execJwaitTimeout (core slot : Nat) (s : State) : Out :=
  let tid := tidOf core slot
  match (s.thread tid).waits with
  | some (.jwait _ _ addr limit used) =>
    if limit ≠ 0 && used ≥ limit && s.clocked (dieOf core) then .next (s.trapParked tid { code := 0x0E, eval := addr })
    else .next s
  | _ => .next s

end Sys2Proof.Machine
end

