-- ==== Sys2Proof/Machine/CoreOps.lean ====
section
/-! DEFINITION. Tags, channels and gangs (R132–R143), and the boundary events of a thread (R24, R143). -/

namespace Sys2Proof.Machine

/-! ### Tags (R132–R134) -/

/-- A bit of TAGS. -/
def tagBit (t : Nat) : Word := 1#64 <<< t

/-- R134: tag waits of a core whose condition holds complete. -/
def State.wakeTags (s : State) (core : Nat) : State :=
  let r := (s.core core).tagReady
  (s.parkedWith (fun t w => coreOf t = core && (match w with
    | .tagAny m _ => r &&& m ≠ 0 || m = 0
    | .tagAll m _ => r &&& m = m
    | _ => false))).foldl (fun s t =>
      match (s.thread t).waits with
      | some (.tagAny m d) => s.unpark t d (r &&& m)
      | some (.tagAll m d) => s.unpark t d (r &&& m)
      | _ => s) s

/-- R132: the outstanding count of a tag. -/
def Core.tagOut (x : Core) (t : Nat) : Nat := if h : t < 64 then x.tagCount[t] else 0
/-- R132: one more copy would raise the count above 4,095. -/
def State.tagFull (s : State) (core t : Nat) : Bool := decide ((s.core core).tagOut t ≥ 4095)
/-- R132: a copy starts with a tag. -/
def State.tagStart (s : State) (core t : Nat) : State :=
  s.modCore core (fun x =>
    { x with tagCount := if h : t < 64 then x.tagCount.set t (x.tagCount[t] + 1) else x.tagCount
             tagReady := x.tagReady &&& ~~~tagBit t })
/-- R132: a copy with a tag completes. -/
def State.tagDone (s : State) (core t : Nat) : State :=
  (s.modCore core (fun x =>
    let n := x.tagOut t - 1
    { x with tagCount := if h : t < 64 then x.tagCount.set t n else x.tagCount
             tagReady := if n = 0 then x.tagReady ||| tagBit t else x.tagReady })).wakeTags core

/-- R134. -/
def execTwany (d a : Reg) (s : State) : Out :=
  s.finish 4 <|
    let m := s.rd a
    let r := (s.core s.myCore).tagReady
    if r &&& m ≠ 0 || m = 0 then .ok (s.wr d (r &&& m)) else .error (.park (.tagAny m (s.me.code d)))
/-- R134. -/
def execTwall (d a : Reg) (s : State) : Out :=
  s.finish 4 <|
    let m := s.rd a
    let r := (s.core s.myCore).tagReady
    if r &&& m = m then .ok (s.wr d (r &&& m)) else .error (.park (.tagAll m (s.me.code d)))
/-- R134: the lowest ready named tag, or 64. -/
def execTffr (d a : Reg) (s : State) : Out := s.ends 4 d (ctzW ((s.core s.myCore).tagReady &&& s.rd a))
/-- R134. -/
def execTclr (a : Reg) (s : State) : Out :=
  s.finish 4 (.ok (s.modCore s.myCore (fun x => { x with tagReady := x.tagReady &&& ~~~s.rd a })))

/-! ### Replies to a waiting context (R88, R382) -/

/-- R145: where a register of slot `k` lies in a save area, by code. -/
def savedReg (k code : Nat) : Nat :=
  0x400 * k + (if code < 96 then 0x100 + 8 * code
    else if code < 100 then 0x48 + 8 * (code - 97)
    else if code < 104 then 0x60 + 8 * (code - 100)
    else 0x80 + 8 * (code - 104))

/-- R456: a parked wait whose request is being carried out already. -/
def Wait.inFlight : Wait → Bool
  | .service _ _ _ _ _ => true
  | .lease _ _ => true
  | _ => false

/-- R88, R382: the saved context of a thread whose request is still being carried out. -/
def State.savedWait (s : State) (tid : Nat) : Option SavedContext :=
  s.contexts.find? (fun c => c.tid = tid && c.thread.wait.any Wait.inFlight)

/-- The instruction of a saved context that awaited a reply is over. -/
def State.contextGoes (s : State) (c : SavedContext) : State :=
  let t := { c.thread with pc := c.thread.pc + 4, wait := none }
  { s.putNat (c.area + 0x400 * slotOf c.tid) 8 t.pc.toNat with
    contexts := s.contexts.map (fun x => if x.area = c.area && x.tid = c.tid then { x with thread := t } else x) }

/-- R88, R382: a result reaches the saved context, or the parked thread, that waits for it. -/
def State.answer (s : State) (tid d : Nat) (v : Word) : State :=
  match s.savedWait tid with
  | some c =>
    let s := s.contextGoes c
    if d = 96 then s else s.putNat (c.area + savedReg (slotOf tid) d) 8 v.toNat
  | none => s.unpark tid d v

/-- R88, R382: what a thread waits for, parked or saved with its request in flight. -/
def State.awaits (s : State) (tid : Nat) : Option Wait :=
  match s.savedWait tid with
  | some c => c.thread.wait
  | none => (s.thread tid).waits

/-! ### Channels (R135–R138, R146) -/

def Core.channel (x : Core) (c : Nat) : List Message := if h : c < 8 then x.chan[c] else []
def Core.setChannel (x : Core) (c : Nat) (l : List Message) : Core :=
  if h : c < 8 then { x with chan := x.chan.set c l } else x
def Core.spilled (x : Core) (c : Nat) : Nat := if h : c < 8 then x.spillN[c] else 0
def Core.spillHeadAt (x : Core) (c : Nat) : Nat := if h : c < 8 then x.spillHead[c] else 0

/-- R145, R146: where entry i of a channel's spill queue lies. -/
def Core.spillAddr (x : Core) (c i : Nat) : Nat := x.spillArea + 0x2000 + 0x1000 * c + 16 * (i % 256)

/-- R145: the second word of a spill entry. -/
def Message.word (m : Message) : Nat := m.sender + (if m.narrow then 1024 else 0) + (if m.tcm then 2048 else 0)
def messageOf (value word : Nat) : Message :=
  { value := BitVec.ofNat 64 value, sender := word % 1024, narrow := word.testBit 10, tcm := word.testBit 11 }

/-- R145: the spill word of a channel in the save area. -/
def State.spillWord (s : State) (core c : Nat) : State :=
  let x := s.core core
  s.putNat (x.spillArea + 0x1030 + 8 * c) 8 (x.spilled c + x.spillHeadAt c * 512)

/-- R146, R147: a message joins the spill queue of a channel, an uncorrectable one with its mark. -/
def State.spillMessage (s : State) (core c : Nat) (m : Message) : State :=
  let x := s.core core
  let a := x.spillAddr c (x.spillHeadAt c + x.spilled c)
  let s := (s.putNat a 8 m.value.toNat).putNat (a + 8) 8 m.word
  let s := if m.bad then s.markBad [a] else s
  (s.setCore core { x with spillN := if h : c < 8 then x.spillN.set c (x.spillN[c] + 1) else x.spillN }).spillWord core c

/-- R145–R147: entry i of a channel's spill queue. -/
def State.spilledMessage (s : State) (core c i : Nat) : Message :=
  let a := (s.core core).spillAddr c i
  { messageOf (s.homeNat a 8) (s.homeNat (a + 8) 8) with
    bad := (s.badAt a 16).isSome }

/-- R146: a channel takes spilled messages while it has room, `fuel` at most. -/
def State.refillChannel (s : State) (core c : Nat) : Nat → State
  | 0 => s
  | fuel + 1 =>
    let x := s.core core
    if x.spilling || x.spilled c = 0 || (x.channel c).length ≥ 16 then s
    else
      let m := s.spilledMessage core c (x.spillHeadAt c)
      let y := x.setChannel c (x.channel c ++ [m])
      let y := { y with spillN := if h : c < 8 then y.spillN.set c (y.spillN[c] - 1) else y.spillN
                        spillHead := if h : c < 8 then y.spillHead.set c ((y.spillHead[c] + 1) % 256) else y.spillHead }
      (s.setCore core y).refillChannel core c fuel

/-- R299, R301: the core is isolated, or its die is fenced. -/
def State.coreLost (s : State) (core : Nat) : Bool := (s.core core).iso || (s.die (dieOf core)).fenced

/-- R136, R146, R299, R363: whether a core accepts one more message on a channel. -/
def State.chanRoom (s : State) (core c : Nat) : Bool :=
  let x := s.core core
  let d := s.die (dieOf core)
  if s.coreLost core || d.pwrState ≠ 0 then false
  else if x.spilling || x.spilled c ≠ 0 then x.spilled c < 256
  else (x.channel c).length < 16

/-- R136: what a receiver of a core finds at the head of a channel. -/
inductive Taken where
  | value (v : Word)
  /-- R136: the message stays. -/
  | mismatch (sender : Nat)
  /-- R147: the message is gone. -/
  | bad
  deriving DecidableEq, Repr
def takenBy (t : Thread) (m : Message) : Taken :=
  if m.bad then .bad
  else if m.narrow && m.tcm != t.tcm then .mismatch m.sender
  else .value m.value
def mismatchTrap (sender : Nat) : Trap := { code := 0x0A, eval := BitVec.ofNat 64 sender }
/-- R147. -/
def badMessageTrap (c : Nat) : Trap := { code := 0x0D, eval := BitVec.ofNat 64 (2 ^ 63 + c) }

/-- The head of a channel is removed. -/
def State.popChannel (s : State) (core c : Nat) : State :=
  (s.modCore core (fun x => x.setChannel c ((x.channel c).drop 1))).refillChannel core c 16

/-- R137: parked receivers of a channel take what is there, in the order of parking. -/
def State.serveReceivers (s : State) (core c : Nat) : State :=
  (s.parkedWith (fun t w => coreOf t = core && (match w with
    | .chrcv c' _ => c' = c
    | _ => false))).foldl (fun s t =>
      match (s.core core).channel c, (s.thread t).waits with
      | m :: _, some (.chrcv _ d) =>
        match takenBy (s.thread t) m with
        | .value v => (s.popChannel core c).unpark t d v
        | .mismatch id => s.trapParked t (mismatchTrap id)
        | .bad => (s.popChannel core c).trapParked t (badMessageTrap c)
      | _, _ => s) s

/-- R136: an accepted message. -/
def State.deliver (s : State) (core c : Nat) (m : Message) : State :=
  let x := s.core core
  if x.spilling || x.spilled c ≠ 0 then s.spillMessage core c m
  else (s.modCore core (fun x => x.setChannel c (x.channel c ++ [m]))).serveReceivers core c

/-- R135: the message a thread sends. -/
def State.messageFrom (s : State) (tid : Nat) (narrow : Bool) (v : Word) : Message :=
  { value := v, sender := coreOf tid, narrow := narrow, tcm := narrow && (s.thread tid).tcm }

/-- R136, R137: parked senders of a channel put their messages in while there is room, in the order in which they parked
(DESIGN CHOICE, log 8: R137 orders the arrivals of one clock alone). -/
def State.serveSenders (s : State) (core c : Nat) : State :=
  (s.parkedWith (fun _ w => match w with
    | .chsnd core' c' _ _ => core' = core && c' = c
    | _ => false)).foldl (fun s t =>
      match (s.thread t).waits with
      | some (.chsnd _ _ narrow v) =>
        if s.chanRoom core c then (s.deliver core c (s.messageFrom t narrow v)).unpark t 96 0 else s
      | _ => s) s

/-- R136: the destination word. -/
def State.chanDest (s : State) (a : Reg) : Except Stop (Nat × Nat × Bool) :=
  let v := (s.rd a).toNat
  if v / 2 ^ 14 ≠ 0 then .error s.badOperand else .ok (v % 1024, bits v 12 10, v.testBit 13)

/-- R136. -/
def execChsnd (a b : Reg) (s : State) : Out :=
  s.finish 4 do
    let (core, c, narrow) ← s.chanDest a
    if s.chanRoom core c then .ok (s.deliver core c (s.messageFrom s.cur narrow (s.rd b)))
    else .error (.park (.chsnd core c narrow (s.rd b)))

/-- R136: 0 accepted, 1 no room, 2 isolated. -/
def execChtry (d a b : Reg) (s : State) : Out :=
  s.finish 4 do
    let (core, c, narrow) ← s.chanDest a
    if s.coreLost core then .ok (s.wr d 2)
    else if s.chanRoom core c then
      .ok ((s.deliver core c (s.messageFrom s.cur narrow (s.rd b))).wr d 0)
    else .ok (s.wr d 1)

/-- R147: chrcv would take an uncorrectable message. -/
def State.headBad (s : State) (a : Reg) : Bool :=
  decide ((s.rd a).toNat < 8) && (match (s.core s.myCore).channel ((s.rd a).toNat % 8) with
    | m :: _ => m.bad
    | [] => false)

/-- R136, R147: an uncorrectable message is removed as its trap is taken. -/
def execChrcv (d a : Reg) (s : State) : Out :=
  let v := (s.rd a).toNat
  let core := s.myCore
  let c := v % 8
  if s.headBad a then
    .next (((s.popChannel core c).serveSenders core c).takeTrap s.cur (badMessageTrap c) s.me.pc s.me.pc false false)
  else s.finish 4 <|
    if v / 16 ≠ 0 then .error s.badOperand
    else if v ≥ 8 then .ok (s.wr d (BitVec.ofNat 64 ((s.core core).channel c).length))
    else match (s.core core).channel c with
    | [] => .error (.park (.chrcv c (s.me.code d)))
    | m :: _ =>
      match takenBy s.me m with
      | .value x => .ok (((s.popChannel core c).wr d x).serveSenders core c)
      | .mismatch id => .error (.trap (mismatchTrap id))
      | .bad => .error (.trap (badMessageTrap c))

/-! ### Gangs (R139–R143) -/

/-- R140: gang.G. -/
def State.gangOp (s : State) (g : Nat) : Out :=
  s.finish 4 (if s.me.gang then .error s.badOperand else .error (.park (.gang g)))
/-- R140. -/
def execGang2 (s : State) : Out := s.gangOp 2
/-- R140. -/
def execGang4 (s : State) : Out := s.gangOp 4
/-- R140. -/
def execGang8 (s : State) : Out := s.gangOp 8
/-- R142. -/
def execDisband (s : State) : Out := s.finish 4 (.ok (if s.me.gang then s.leaveGang s.cur else s))

/-- R140: the gang size that a thread waits for. -/
def Thread.gangWait (t : Thread) : Option Nat :=
  match t.waits with
  | some (.gang g) => some g
  | _ => none
/-- R140: the threads of the aligned group of a thread. -/
def groupOf (tid g : Nat) : List Nat :=
  let c := coreOf tid
  (List.range g).map (fun j => tidOf (c - c % g + j) (slotOf tid))

/-- R140: the row barrier of an aligned group. -/
def State.formGang (s : State) (tid : Nat) : Option State :=
  match (s.thread tid).gangWait with
  | none => none
  | some g =>
    let ms := groupOf tid g
    let waits := ms.map (fun m => (m, (s.thread m).gangWait))
    if waits.any (fun w => w.2.isNone) then none
    else
      match waits.find? (fun w => w.2 ≠ some g) with
      | some (y, gy) =>
        let all := (ms ++ (groupOf y (gy.getD 1)).filter (fun m => !ms.contains m)).filter
          (fun m => (s.thread m).gangWait.isSome)
        some (all.foldl (fun s' m =>
          let other := (all.find? (fun o => (s.thread o).gangWait ≠ (s.thread m).gangWait)).getD y
          s'.trapParked m { code := 0x0B, eval := BitVec.ofNat 64 (coreOf other) }) s)
      | none =>
        -- a follower discards its own PC: the leader's stream takes its place
        let pc := (s.thread (ms.headD tid)).pc + 4
        some (ms.foldl (fun s m =>
          s.modThread m (fun t => { t with
            life := .ready, wait := none, pc := pc, gang := true, gangSz := g
            gangIx := coreOf m % g, weft := [] })) s)

/-- R140. -/
def execGangFormation (core slot : Nat) (s : State) : Out := .next ((s.formGang (tidOf core slot)).getD s)

/-- R24, R143, R456: a thread at which a trap can be taken now: ready, or parked without effect. -/
def Thread.atBoundary (t : Thread) : Bool :=
  t.life = .ready || (match t.waits with
    | some w => !w.inFlight
    | none => false)

/-- R143: a member takes the gang abort. -/
def execGangAbort (core slot : Nat) (s : State) : Out :=
  let tid := tidOf core slot
  let t := s.thread tid
  match t.abort with
  | none => .next s
  | some c =>
    if !t.atBoundary || !s.clocked (dieOf core) then .next s
    else
      let pc := s.boundaryPc tid
      let s := s.modThread tid (fun t => { t with abort := none, gang := false, gangIx := 0, gangSz := 1, weft := [] })
      .next (s.takeTrap tid { code := 0x0B, eval := BitVec.ofNat 64 c } pc pc false false)

/-- The earliest deferred fault in program order. -/
def firstFault (l : List Deferred) : Option Deferred := (sortBy (fun a b => a.order ≤ b.order) l).head?

/-- R24, R89, R456: a pending deferred fault is taken. -/
def execDeferredTrap (core slot : Nat) (s : State) : Out :=
  let tid := tidOf core slot
  let t := s.thread tid
  match firstFault t.due with
  | none => .next s
  | some f =>
    if !t.atBoundary || !s.clocked (dieOf core) then .next s
    else
      let pc := s.boundaryPc tid
      -- a member that traps of itself reports no gang abort (R27)
      let s' := s.modThread tid (fun t => { t with
        deferred := if t.mode then t.deferred.filter (fun f => !f.handler) else [], abort := none })
      .next (s'.takeTrap tid f.trap f.fpc pc true (decide (t.due.length > 1)))

end Sys2Proof.Machine
end

