-- ==== Sys2Proof/Machine/Formats.lean ====
section
/-! DEFINITION. Number formats and arithmetic (R148–R168): every format decodes to an exact value and every
result is one rounding of an exact value. -/

namespace Sys2Proof.Machine

/-- R161: conditions raised by either of two roundings. -/
def Cond.or (a b : Cond) : Cond :=
  { nv := a.nv || b.nv, dz := a.dz || b.dz, of := a.of || b.of, uf := a.uf || b.uf, uz := a.uz || b.uz
    ue := a.ue || b.ue }

/-- R148, by code. -/
inductive Fmt where
  | f32 | bf16 | f16 | e4m3 | e5m2 | lns8 | lns6 | i32
  deriving DecidableEq, Repr

/-- R148: the 3-bit format code. -/
def fmtOf : Nat → Fmt
  | 0 => .f32
  | 1 => .bf16
  | 2 => .f16
  | 3 => .e4m3
  | 4 => .e5m2
  | 5 => .lns8
  | 6 => .lns6
  | _ => .i32
def Fmt.code : Fmt → Nat
  | .f32 => 0
  | .bf16 => 1
  | .f16 => 2
  | .e4m3 => 3
  | .e5m2 => 4
  | .lns8 => 5
  | .lns6 => 6
  | .i32 => 7

/-- R148: bytes of an element (an LNS6 value lies in an 8-bit container). -/
def Fmt.size : Fmt → Nat
  | .f32 => 4
  | .i32 => 4
  | .bf16 => 2
  | .f16 => 2
  | _ => 1
/-- R152. -/
def Fmt.isLog : Fmt → Bool
  | .lns8 => true
  | .lns6 => true
  | _ => false
/-- R150: fraction bits of a linear format. -/
def Fmt.frac : Fmt → Nat
  | .f32 => 23
  | .bf16 => 7
  | .f16 => 10
  | .e4m3 => 3
  | _ => 2
/-- R150: the exponent of the smallest subnormal. -/
def Fmt.low : Fmt → Int
  | .f32 => -149
  | .bf16 => -133
  | .f16 => -24
  | .e4m3 => -9
  | _ => -16
/-- R150: the code of the largest finite value of a linear format. -/
def Fmt.top : Fmt → Nat
  | .f32 => 0x7F7FFFFF
  | .bf16 => 0x7F7F
  | .f16 => 0x7BFF
  | .e4m3 => 0x7E
  | _ => 0x7B
/-- R150: the place of the sign. -/
def Fmt.signAt : Fmt → Nat
  | .f32 => 31
  | .i32 => 31
  | .bf16 => 15
  | .f16 => 15
  | .lns6 => 5
  | _ => 7
/-- R151: the canonical NaN; for a logarithmic format the top code. -/
def Fmt.nan : Fmt → Nat
  | .f32 => 0x7FC00000
  | .bf16 => 0x7FC0
  | .f16 => 0x7E00
  | .e4m3 => 0x7F
  | .e5m2 => 0x7E
  | .lns8 => 0x3F
  | .lns6 => 0x0F
  | .i32 => 0
/-- R150: a format with an infinity as overflow neighbour (R160). -/
def Fmt.overflows : Fmt → Bool
  | .f32 => true
  | .bf16 => true
  | .f16 => true
  | _ => false

/-- An exact value: (−1)^neg · m · 2^e, an infinity, or NaN. Zero keeps its sign (R149). -/
inductive Num where
  | nan
  | inf (neg : Bool)
  | fin (neg : Bool) (m : Nat) (e : Int)
  deriving DecidableEq, Repr

def Num.neg : Num → Num
  | .nan => .nan
  | .inf n => .inf (!n)
  | .fin n m e => .fin (!n) m e
def Num.isNan : Num → Bool
  | .nan => true
  | _ => false
def Num.negative : Num → Bool
  | .nan => false
  | .inf n => n
  | .fin n _ _ => n
def Num.isZero : Num → Bool
  | .fin _ 0 _ => true
  | _ => false

/-- R153: the product table. -/
def lnsT : Nat → Nat
  | 0 => 0x8000
  | 1 => 0x8B96
  | 2 => 0x9838
  | 3 => 0xA5FF
  | 4 => 0xB505
  | 5 => 0xC567
  | 6 => 0xD746
  | _ => 0xEAC1

/-- R153: Value(s, e). -/
def lnsValue (neg : Bool) (e : Int) : Num := .fin neg (lnsT (e % 8).toNat) (e / 8 - 15)

/-- R152: the logarithm in eighths, none for a zero code. -/
def Fmt.eighths (f : Fmt) (c : Nat) : Option Int :=
  match f with
  | .lns8 =>
    let l : Int := (BitVec.ofNat 7 c).toInt
    if l = -64 then none else some l
  | _ =>
    let l : Int := (BitVec.ofNat 5 c).toInt
    if l = -16 then none else some (2 * l)

/-- R154: the top code, either sign. -/
def Fmt.isTop (f : Fmt) (c : Nat) : Bool :=
  match f with
  | .lns8 => c % 128 = 63
  | _ => c % 32 = 15

/-- R150–R154: the value of a code. -/
def decodeNum (f : Fmt) (tcm : Bool) (c : Nat) : Num :=
  let neg := c.testBit f.signAt
  match f with
  | .i32 =>
    let v := (BitVec.ofNat 32 c).toInt
    .fin (decide (v < 0)) v.natAbs 0
  | .lns8 | .lns6 =>
    if tcm && f.isTop c then .nan
    else match f.eighths c with
      | none => .fin neg 0 0
      | some e => lnsValue neg e
  | _ =>
    let a := c % 2 ^ f.signAt
    if a > f.top then (if f ≠ .e4m3 && a = f.top + 1 then .inf neg else .nan)
    else
      let x := a / 2 ^ f.frac
      let m := a % 2 ^ f.frac
      if x = 0 then .fin neg m f.low else .fin neg (m + 2 ^ f.frac) (f.low + x - 1)

/-! ### Rounding (R159–R161) -/

/-- R159: whether the magnitude goes up from `lo` to `hi`, all three on one scale; `even` says that `lo` has the
even code. -/
def roundsUp (rm : Nat) (neg : Bool) (r x lo hi : Nat) (even : Bool) : Bool :=
  match rm with
  | 1 => false
  | 2 => !neg
  | 3 => neg
  | 4 => (x - lo) * 65536 / (hi - lo) + r ≥ 65536
  | _ => 2 * x > lo + hi || (2 * x = lo + hi && !even)

/-- Two dyadics on one scale. -/
def align (m : Nat) (e : Int) (n : Nat) (q : Int) : Nat × Nat :=
  if e ≤ q then (m, n * 2 ^ (q - e).toNat) else (m * 2 ^ (e - q).toNat, n)

/-- R159: the magnitude of a linear format: the code of the largest representable magnitude at or below
m·2^e, and the unit there. -/
def Fmt.floorCode (f : Fmt) (m : Nat) (e : Int) : Nat × Int :=
  let q := max (e + (Nat.log2 m : Int) - f.frac) f.low
  let k := if e ≤ q then m / 2 ^ (q - e).toNat else m * 2 ^ (e - q).toNat
  ((q - f.low).toNat * 2 ^ f.frac + k, q)

/-- The result sign put on a magnitude code. -/
def Fmt.signed (f : Fmt) (neg : Bool) (c : Nat) : Nat := if neg then c + 2 ^ f.signAt else c

/-- R159–R161: rounding a finite non-zero value into a linear format. -/
def roundLinear (f : Fmt) (rm r : Nat) (neg : Bool) (m : Nat) (e : Int) : Nat × Cond :=
  let (c, q) := f.floorCode m e
  let k := c - (q - f.low).toNat * 2 ^ f.frac
  let (x, lo) := align m e k q
  let unit := (align m e 1 q).2
  if c > f.top || (c = f.top && x ≠ lo) then
    let inf := f.overflows && (match rm with
      | 1 => false
      | 2 => !neg
      | 3 => neg
      | 4 => false
      | _ => c > f.top || 2 * (x - lo) ≥ unit)
    (f.signed neg (if inf then f.top + 1 else f.top), { of := true })
  else if x = lo then (f.signed neg c, { uz := decide (c = 0) })
  else
    let c' := if roundsUp rm neg r x lo (lo + unit) (c % 2 = 0) then c + 1 else c
    (f.signed neg c', { uz := decide (c' = 0) })

/-- R154: the largest finite logarithm in code units. -/
def Fmt.topLog (f : Fmt) (tcm : Bool) : Nat :=
  (match f with
   | .lns8 => 63
   | _ => 15) - (if tcm then 1 else 0)
/-- R152: the least finite logarithm, negated; one below it is the zero code. -/
def Fmt.botLog (f : Fmt) : Nat :=
  match f with
  | .lns8 => 63
  | _ => 15

/-- The magnitude whose logarithm, in code units, is i − botLog − 1; i = 0 is zero. -/
def Fmt.logMag (f : Fmt) (i : Nat) : Nat × Int :=
  if i = 0 then (0, 0)
  else
    let l : Int := (i : Int) - f.botLog - 1
    let e := match f with
      | .lns8 => l
      | _ => 2 * l
    (lnsT (e % 8).toNat, e / 8 - 15)

/-- m·2^e ≥ n·2^q. -/
def dyadicGe (m : Nat) (e : Int) (n : Nat) (q : Int) : Bool :=
  let p := align m e n q
  decide (p.1 ≥ p.2)

/-- The largest i ≤ n whose magnitude is at most m·2^e. -/
def Fmt.logFloor (f : Fmt) (m : Nat) (e : Int) : Nat → Nat
  | 0 => 0
  | n + 1 =>
    let v := f.logMag (n + 1)
    if dyadicGe m e v.1 v.2 then n + 1 else f.logFloor m e n

/-- The code, without its sign, of step i. -/
def Fmt.logCode (f : Fmt) (i : Nat) : Nat :=
  match f with
  | .lns8 => (i + 64) % 128
  | _ => (i + 16) % 32

/-- R159–R161: rounding a finite non-zero value into a logarithmic format. -/
def roundLog (f : Fmt) (tcm : Bool) (rm r : Nat) (neg : Bool) (m : Nat) (e : Int) : Nat × Cond :=
  let last := f.botLog + 1 + f.topLog tcm
  let i := f.logFloor m e last
  let lo := f.logMag i
  let s := min e (min lo.2 (f.logMag (i + 1)).2)
  let at_ (v : Nat × Int) : Nat := v.1 * 2 ^ (v.2 - s).toNat
  let x := m * 2 ^ (e - s).toNat
  if x = at_ lo then (f.signed neg (f.logCode i), { uz := decide (i = 0) })
  else if i = last then (f.signed neg (f.logCode i), { of := true })
  else
    let j := if roundsUp rm neg r x (at_ lo) (at_ (f.logMag (i + 1))) (i % 2 = 0) then i + 1 else i
    (f.signed neg (f.logCode j), { uz := decide (j = 0) })

/-- R159–R161: rounding a finite value into I32. -/
def roundInt (rm r : Nat) (neg : Bool) (m : Nat) (e : Int) : Nat × Cond :=
  let top := if neg then 2 ^ 31 else 2 ^ 31 - 1
  let lo := if e ≥ 0 then m * 2 ^ e.toNat else m / 2 ^ (-e).toNat
  let (x, u) := align m e 1 0
  let code (k : Nat) : Nat := if neg then (2 ^ 32 - k) % 2 ^ 32 else k
  if lo > top || (lo = top && x ≠ lo * u) then (code top, { of := true })
  else if x = lo * u then (code lo, {})
  else
    let k := if roundsUp rm neg r x (lo * u) ((lo + 1) * u) (lo % 2 = 0) then lo + 1 else lo
    (code k, { uz := decide (k = 0) })

/-- R159–R161: Round(format, x, mode); `r` is the 16-bit draw of R164. NaN in a linear format raises nothing
here: an invalid operation adds NV itself. -/
def roundNum (f : Fmt) (tcm : Bool) (rm r : Nat) (x : Num) : Nat × Cond :=
  match f with
  | .i32 =>
    match x with
    | .nan => (0, { nv := true })
    | .inf n => (if n then 0x80000000 else 0x7FFFFFFF, { nv := true })
    | .fin _ 0 _ => (0, {})
    | .fin n m e => roundInt rm r n m e
  | .lns8 | .lns6 =>
    match x with
    | .nan => (f.nan, { nv := !tcm })
    | .inf n => (if tcm then f.nan else f.signed n f.nan, { nv := true })
    | .fin n 0 _ => (f.signed n (f.logCode 0), {})
    | .fin n m e => roundLog f tcm rm r n m e
  | _ =>
    match x with
    | .nan => (f.nan, {})
    | .inf n =>
      if f = .e4m3 then (f.nan, { nv := true }) else (f.signed n (f.top + 1), {})
    | .fin n 0 _ => (f.signed n 0, {})
    | .fin n m e => roundLinear f rm r n m e

/-! ### Exact arithmetic (R156, R157, R188) -/

/-- A signed integer as a value; zero is +0, or −0 under toward −∞ (R159). -/
def ofScaled (rm : Nat) (v : Int) (e : Int) : Num :=
  if v = 0 then .fin (rm = 3) 0 0 else .fin (decide (v < 0)) v.natAbs e

/-- The signed integer of a finite value at a scale at or below its own. -/
def Num.at (x : Num) (s : Int) : Int :=
  match x with
  | .fin n m e => (if n then -1 else 1) * ((m * 2 ^ (e - s).toNat : Nat) : Int)
  | _ => 0
/-- The exponent of a finite value. -/
def Num.expo : Num → Int
  | .fin _ _ e => e
  | _ => 0

/-- R157, R188: the exact product, with the invalid mark of ∞ × 0. -/
def numMul (x y : Num) : Num × Bool :=
  match x, y with
  | .nan, _ => (.nan, false)
  | _, .nan => (.nan, false)
  | .inf a, y => if y.isZero then (.nan, true) else (.inf (a != y.negative), false)
  | x, .inf b => if x.isZero then (.nan, true) else (.inf (b != x.negative), false)
  | .fin a m e, .fin b n q => (.fin (a != b) (m * n) (e + q), false)

/-- R159, R188: the exact sum, with the invalid mark of ∞ − ∞. -/
def numAdd (rm : Nat) (x y : Num) : Num × Bool :=
  match x, y with
  | .nan, _ => (.nan, false)
  | _, .nan => (.nan, false)
  | .inf a, .inf b => if a = b then (.inf a, false) else (.nan, true)
  | .inf a, _ => (.inf a, false)
  | _, .inf b => (.inf b, false)
  | .fin a m e, .fin b n q =>
    if m = 0 && n = 0 then (.fin (if a = b then a else rm = 3) 0 0, false)
    else
      let s := min e q
      (ofScaled rm ((Num.fin a m e).at s + (Num.fin b n q).at s) s, false)

/-- R167, R189: the exact sum of a list; NV when infinities of both signs meet and no term is NaN. -/
def numSum (rm : Nat) (l : List Num) : Num × Bool :=
  if l.any Num.isNan then (.nan, false)
  else
    let pos := l.contains (.inf false)
    let neg := l.contains (.inf true)
    if pos && neg then (.nan, true)
    else if pos then (.inf false, false)
    else if neg then (.inf true, false)
    else
      let s := l.foldl (fun s x => min s x.expo) 0
      let v := l.foldl (fun v x => v + x.at s) 0
      if v = 0 && l.all Num.isZero then
        if l.all Num.negative then (.fin (!l.isEmpty) 0 0, false)
        else if l.any Num.negative then (.fin (rm = 3) 0 0, false)
        else (.fin false 0 0, false)
      else (ofScaled rm v s, false)

/-- R188: x < y on the extended line, −0 below +0 when `signedZero`. False when either is NaN. -/
def numLt (signedZero : Bool) (x y : Num) : Bool :=
  match x, y with
  | .nan, _ => false
  | _, .nan => false
  | .inf a, .inf b => a && !b
  | .inf a, _ => a
  | _, .inf b => !b
  | .fin a m e, .fin b n q =>
    if m = 0 && n = 0 then signedZero && a && !b
    else
      let s := min e q
      decide ((Num.fin a m e).at s < (Num.fin b n q).at s)
/-- R188: equality of values; +0 and −0 are equal. -/
def numEq (x y : Num) : Bool := !x.isNan && !y.isNan && !numLt false x y && !numLt false y x

/-- R156, R157: the product of two matrix or vector operands of one family. -/
def product (fa fb : Fmt) (tcm : Bool) (a b : Nat) : Num × Bool :=
  if fa.isLog && fb.isLog then
    if tcm && (fa.isTop a || fb.isTop b) then (.nan, false)
    else
      let neg := a.testBit fa.signAt != b.testBit fb.signAt
      match fa.eighths a, fb.eighths b with
      | some x, some y => (lnsValue neg (x + y), false)
      | _, _ => (.fin neg 0 0, false)
  else numMul (decodeNum fa tcm a) (decodeNum fb tcm b)

/-! ### Group totals and accumulation (R167, R168) -/

/-- A value times a power of two. -/
def Num.shift (x : Num) (k : Int) : Num :=
  match x with
  | .fin n m e => .fin n m (e + k)
  | x => x

/-- R167: the total of a depth group; the terms carry their invalid marks. -/
def groupTotal (rm : Nat) (ps : List (Num × Bool)) (ea eb : Nat) : Nat × Cond :=
  let mg := if rm = 4 then 0 else rm
  let xs := ps.map Prod.fst
  let quiet := ea = 0xFF || eb = 0xFF || ps.any (fun p => p.1.isNan && !p.2)
  let (v, bad) := numSum mg xs
  if ea = 0xFF || eb = 0xFF || v.isNan then
    (Fmt.f32.nan, { nv := !quiet && (bad || ps.any Prod.snd) })
  else if xs.all Num.isZero then
    (Fmt.f32.signed (xs.all Num.negative || mg = 3) 0, {})
  else roundNum .f32 false mg 0 (v.shift ((ea : Int) + eb - 254))

/-- R168: acc + G, nearest-even. -/
def accAdd (acc g : Nat) : Nat × Cond :=
  let (v, bad) := numAdd 0 (decodeNum .f32 false acc) (decodeNum .f32 false g)
  let (c, k) := roundNum .f32 false 0 0 v
  (c, { k with nv := k.nv || bad })

/-! ### The stochastic stream (R163, R164) -/

/-- R163. -/
def mix (z : Word) : Word :=
  let z := (z ^^^ (z >>> 30)) * 0xBF58476D1CE4E5B9
  let z := (z ^^^ (z >>> 27)) * 0x94D049BB133111EB
  z ^^^ (z >>> 31)
/-- R163: draw number c of a task. -/
def drawG (seed task c : Word) : Word :=
  let k := mix (seed + task * 0x9E3779B97F4A7C15)
  mix (k + (c + 1) * 0x9E3779B97F4A7C15)
/-- R164: r of position i. -/
def drawR (seed task c0 : Word) (i : Nat) : Nat := (drawG seed task (c0 + BitVec.ofNat 64 i)).toNat / 2 ^ 48

/-- R165: a conversion between formats. -/
def convert (src dst : Fmt) (tcm : Bool) (rm r c : Nat) : Nat × Cond :=
  roundNum dst tcm rm r (decodeNum src tcm c)

end Sys2Proof.Machine
end

