-- ==== Sys2Proof/Machine/Flags.lean ====
section
/-! DEFINITION. The sticky conditions of the vector and matrix units (R161, R186, R210) and the record of
uncorrectable data (R147, R227, R228): the device has no other flags. -/

namespace Sys2Proof.Machine

/-- An element as a command reads it: its value, zero when uncorrectable, and whether it was. -/
structure Elem where
  v : Nat
  bad : Bool
  deriving DecidableEq, Repr

/-- One element of a core's scratchpad. -/
def Core.elem (x : Core) (off size : Nat) : Elem :=
  if (firstBad x.scratchBad off size).isSome then ⟨0, true⟩ else ⟨x.scratch.readNat off size, false⟩

/-- R186: the W1C field of VSTAT and MSTAT. -/
def Cond.bits (c : Cond) : Nat :=
  (if c.nv then 2 else 0) + (if c.of then 4 else 0) + (if c.uz then 8 else 0) + (if c.dz then 16 else 0) +
  (if c.ue then 32 else 0)
/-- R186, R210: a write clears each bit written with 1. -/
def Cond.clear (c : Cond) (v : Word) : Cond :=
  { c with nv := c.nv && !v.getLsbD 1, of := c.of && !v.getLsbD 2, uz := c.uz && !v.getLsbD 3
           dz := c.dz && !v.getLsbD 4, ue := c.ue && !v.getLsbD 5 }

/-- R186: VSTAT of a thread, with the core's queue. -/
def vstatWord (t : Thread) (x : Core) (slot : Nat) : Word :=
  let qn := (x.vq.filter (fun c => c.slot = slot)).length
  BitVec.ofNat 64 (t.vcond.bits + (if qn ≠ 0 then 1024 else 0) + (if x.vq.isEmpty then 0 else 2048) + qn * 4096)
/-- R210: MSTAT of a thread. -/
def mstatWord (t : Thread) (x : Core) (slot : Nat) : Word :=
  let parked := (x.recorded.filter (fun e => e.slot = slot)).length
  let qn := (x.mq.filter (fun e => e.slot = slot)).length + parked
  let begun := x.recorded.any (fun e => e.slot = slot && (e.begun || e.started))
  BitVec.ofNat 64 (t.mcond.bits + (if begun then 512 else 0) + (if qn ≠ 0 then 1024 else 0) +
    (if x.mq.isEmpty then 0 else 2048) + qn * 4096)
/-- R228: DERR. -/
def DataError.word (e : DataError) : Word :=
  BitVec.ofNat 64 ((if e.v then 2 ^ 63 else 0) + (if e.mult then 2 ^ 62 else 0) + e.src * 2 ^ 59 +
    e.slot * 2 ^ 57 + e.row * 2 ^ 50 + e.col * 2 ^ 40 + e.kix * 2 ^ 27)

/-- R228: a substitution; the supervisor is told with its place (R147, R372). -/
def State.substituted (s : State) (core slot src row col kix : Nat) : State :=
  let s := s.modCore core (fun x =>
    { x with derr := if x.derr.v then { x.derr with mult := true }
        else { v := true, src := src, slot := slot, row := row, col := col, kix := kix } })
  s.postEvent (some (dieOf core)) 0x02 (BitVec.ofNat 64 core)
    (DataError.word { v := true, src := src, slot := slot, row := row, col := col, kix := kix })

/-- R161: conditions of a completing vector command, if its thread still holds it. -/
def State.vraise (s : State) (tid flight : Nat) (c : Cond) : State :=
  s.modThread tid (fun t => if (t.flight flight).isSome then { t with vcond := t.vcond.or c } else t)
/-- R161: conditions of a completing matrix instruction, if its thread still holds it. -/
def State.mraise (s : State) (tid flight : Nat) (c : Cond) : State :=
  s.modThread tid (fun t => if (t.flight flight).isSome then { t with mcond := t.mcond.or c } else t)

end Sys2Proof.Machine
end

