-- ==== Sys2Proof/Machine/Special.lean ====
section
/-! DEFINITION. The special functions (R191): each exact real value is enclosed between two dyadics, and the
result is their common rounding; where the two round apart the value is Config.special (DESIGN CHOICE, log 3). -/

namespace Sys2Proof.Machine

/-- Working precision: fixed-point numbers are in units of 2^−fixBits. -/
def fixBits : Nat := 640
def fixOne : Nat := 2 ^ fixBits
/-- Half-width of every enclosure, in units of 2^−fixBits. -/
def fixErr : Nat := 2 ^ 40

/-- The product of two fixed-point numbers, rounded down. -/
def fixMul (a b : Nat) : Nat := a * b / fixOne

/-- 1 + x/(k+1)·(1 + x/(k+2)·(…)), `n` terms: with k = 0 the exponential of x. -/
def expTail (x : Nat) : Nat → Nat → Nat
  | _, 0 => fixOne
  | k, n + 1 => fixOne + fixMul x (expTail x (k + 1) n) / (k + 1)
/-- e^x for 0 ≤ x < 1. -/
def fixExp (x : Nat) : Nat := expTail x 0 130

/-- x·(1/k + x²·(1/(k+2) + …)): with k = 1 the inverse hyperbolic tangent of x. -/
def atanhTail (sq : Nat) : Nat → Nat → Nat
  | _, 0 => 0
  | k, n + 1 => fixOne / k + fixMul sq (atanhTail sq (k + 2) n)
/-- ln y for 1 ≤ y < 2, y as a ratio. -/
def fixLn (num den : Nat) : Nat :=
  let x := (num - den) * fixOne / (num + den)
  2 * fixMul x (atanhTail (fixMul x x) 1 210)
/-- ln 2. -/
def fixLn2 : Nat := fixLn 2 1

/-- 1 + q/(k+2)·(1 + q/(k+4)·(…)). -/
def phiTail (q : Nat) : Nat → Nat → Nat
  | _, 0 => fixOne
  | k, n + 1 => fixOne + fixMul q (phiTail q (k + 2) n) / (k + 2)

/-- √n, by Newton's iteration from above. -/
def isqrtFrom (n : Nat) : Nat → Nat → Nat
  | x, 0 => x
  | x, fuel + 1 =>
    let y := (x + n / x) / 2
    if y ≥ x then x else isqrtFrom n y fuel
def isqrt (n : Nat) : Nat := if n = 0 then 0 else isqrtFrom n (2 ^ (Nat.log2 n / 2 + 1)) (Nat.log2 n + 8)

/-- arctan(1/k) as a fixed-point number, `n` terms of the alternating series from power `p` of 1/k. -/
def atanInv (k2 : Nat) : Nat → Nat → Nat → Int
  | _, _, 0 => 0
  | p, j, n + 1 => ((p / j : Nat) : Int) - atanInv k2 (p / k2) (j + 2) n
/-- π, by Machin's formula. -/
def fixPi : Nat := (16 * atanInv 25 (fixOne / 5) 1 150 - 4 * atanInv 57121 (fixOne / 239) 1 60).toNat

/-- A fixed-point magnitude of a dyadic, rounded down. -/
def toFix (m : Nat) (e : Int) : Nat :=
  let s := e + fixBits
  if s ≥ 0 then m * 2 ^ s.toNat else m / 2 ^ (-s).toNat

/-- e^(−x) for a fixed-point x ≥ 0. -/
def fixExpNeg (x : Nat) : Nat :=
  let n := x / fixLn2 + 1
  fixExp ((n * fixLn2 - x) % fixOne) / 2 ^ n

/-- An enclosure: both ends as values. -/
abbrev Enclosure := Num × Num

/-- v ± fixErr units, scaled by 2^k. -/
def around (neg : Bool) (v : Nat) (k : Int) : Enclosure :=
  (.fin neg (v - fixErr) (k - fixBits), .fin neg (v + fixErr) (k - fixBits))
/-- A value just inside a magnitude: between it and its predecessor in every format. -/
def justBelow (neg : Bool) (m : Nat) (e : Int) : Enclosure :=
  let x := Num.fin neg (m * 2 ^ 200 - 1) (e - 200)
  (x, x)
/-- A magnitude below every subnormal of every format. -/
def tiny (neg : Bool) : Enclosure := (.fin neg 1 (-400), .fin neg 1 (-400))

/-- |x| ≥ n. -/
def atLeast (m : Nat) (e : Int) (n : Nat) : Bool := dyadicGe m e n 0

/-- 2^x of a finite x. -/
def encExp2 (neg : Bool) (m : Nat) (e : Int) : Enclosure :=
  if m = 0 then (.fin false 1 0, .fin false 1 0)
  else if atLeast m e 1024 then
    if neg then tiny false else (.fin false 1 1000, .fin false 1 1000)
  else
    -- x = ±m·2^e, split into an integer and a fraction
    let v : Int := (if neg then -1 else 1) * (toFix m e : Int)
    let n := v / fixOne
    let f := (v % fixOne).toNat
    if f = 0 then (.fin false 1 n, .fin false 1 n) else around false (fixExp (fixMul f fixLn2)) n

/-- log2 of a positive m·2^e. -/
def encLog2 (m : Nat) (e : Int) : Enclosure :=
  let b := Nat.log2 m
  let k : Int := e + b
  if m = 2 ^ b then
    let x := Num.fin (decide (k < 0)) k.natAbs 0
    (x, x)
  else
    let frac := fixLn m (2 ^ b) * fixOne / fixLn2
    let v : Int := k * fixOne + frac
    around (decide (v < 0)) v.natAbs 0

/-- 1/(1 + e^−x). -/
def encSigm (neg : Bool) (m : Nat) (e : Int) : Enclosure :=
  if m = 0 then (.fin false 1 (-1), .fin false 1 (-1))
  else if atLeast m e 160 then if neg then tiny false else justBelow false 1 0
  else
    let t := fixExpNeg (toFix m e)
    let num := if neg then t else fixOne
    around false (num * fixOne / (fixOne + t)) 0

/-- tanh x. -/
def encTanh (neg : Bool) (m : Nat) (e : Int) : Enclosure :=
  if m = 0 then (.fin neg 0 0, .fin neg 0 0)
  else if atLeast m e 160 then justBelow neg 1 0
  else
    let t := fixExpNeg (2 * toFix m e)
    around neg ((fixOne - t) * fixOne / (fixOne + t)) 0

/-- A positive enclosure times ±m·2^e. -/
def scaleEnc (neg : Bool) (m : Nat) (e : Int) (c : Enclosure) : Enclosure :=
  ((numMul (.fin neg m e) c.1).1, (numMul (.fin neg m e) c.2).1)

/-- x/(1 + e^−x). -/
def encSilu (neg : Bool) (m : Nat) (e : Int) : Enclosure :=
  if m = 0 then (.fin neg 0 0, .fin neg 0 0)
  else if atLeast m e 320 then if neg then tiny true else justBelow false m e
  else if atLeast m e 160 && neg then tiny true
  else scaleEnc neg m e (encSigm neg m e)

/-- The normal distribution function at ±m·2^e, |x| < 17. The series reaches e^(144.5) < 2^209, so that its product with the
density, which is right to 2^−630, is right to 2^−420. -/
def encPhi (neg : Bool) (m : Nat) (e : Int) : Enclosure :=
  -- Φ(x) = ½ + φ(x)·(x + x³/3 + x⁵/15 + …)
  let x := toFix m e
  let sq := fixMul x x
  let series := fixMul x (phiTail sq 1 900)
  let dens := fixExpNeg (sq / 2) * fixOne / isqrt (2 * fixPi * fixOne)
  let half := fixMul series dens
  let v := if neg then fixOne / 2 - half else fixOne / 2 + half
  (.fin false (v - 2 ^ 230) (-fixBits), .fin false (v + 2 ^ 230) (-fixBits))

/-- x·Φ(x). From −17 on its magnitude is below 2^−200, which no draw of R161 reaches. -/
def encGelu (neg : Bool) (m : Nat) (e : Int) : Enclosure :=
  if m = 0 then (.fin neg 0 0, .fin neg 0 0)
  else if atLeast m e 17 then if neg then tiny true else justBelow false m e
  else scaleEnc neg m e (encPhi neg m e)

/-- Rounds both ends; where they differ the result is Config.special (DESIGN CHOICE, log 3). -/
def roundEnc (fn code : Nat) (f : Fmt) (rm r : Nat) (c : Enclosure) : Nat × Cond :=
  let a := roundNum f false rm r c.1
  let b := roundNum f false rm r c.2
  if a = b then a
  else ((Config.special fn f.code false rm r code).toNat % 2 ^ (8 * f.size), {})

/-! ### Division and roots, by integers with a sticky unit -/

/-- Bits kept beyond the leading one. -/
def keepBits : Nat := 80

/-- A ratio m/n·2^e as a dyadic that rounds as the ratio does. -/
def ratio (neg : Bool) (m n : Nat) (e : Int) : Num :=
  let sh := keepBits + Nat.log2 n + 1
  let v := m * 2 ^ sh
  if v % n = 0 then .fin neg (v / n) (e - sh)
  else .fin neg (2 * (v / n) + 1) (e - sh - 1)

/-- √(m·2^e) as a dyadic that rounds as the root does. -/
def root (m : Nat) (e : Int) : Num :=
  -- an even exponent and at least 2·keepBits bits
  let up := 2 * keepBits + 2 + (if (e % 2 = 0) then 0 else 1)
  let v := m * 2 ^ up
  let q := (e - up) / 2
  let x := isqrt v
  if x * x = v then .fin false x q else .fin false (2 * x + 1) (q - 1)

/-- 1/√(m·2^e) as a dyadic that rounds as it does. -/
def rootInv (m : Nat) (e : Int) : Num :=
  let up := 2 * keepBits + 2 * Nat.log2 m + 4 + (if (e % 2 = 0) then 0 else 1)
  let q := (-e - up) / 2
  let x := isqrt (2 ^ up / m)
  if x * x * m = 2 ^ up then .fin false x q else .fin false (2 * x + 1) (q - 1)

/-- A condition with the result NaN. -/
def invalid (f : Fmt) : Nat × Cond := (f.nan, { nv := true })
/-- R191: a division or logarithm of zero. -/
def divZero (f : Fmt) (neg : Bool) : Nat × Cond := (f.signed neg (f.top + 1), { dz := true })

/-- R191: functions 0–8 at a code. -/
def special (fn : Nat) (f : Fmt) (rm r code : Nat) : Nat × Cond :=
  let x := decodeNum f false code
  let out (y : Num) : Nat × Cond := roundNum f false rm r y
  match x with
  | .nan => out .nan
  | .inf n =>
    match fn with
    | 0 => out (.fin n 0 0)
    | 1 => if n then invalid f else out (.fin false 0 0)
    | 2 => if n then invalid f else out (.inf false)
    | 3 => if n then out (.fin false 0 0) else out (.inf false)
    | 4 => if n then invalid f else out (.inf false)
    | 5 => out (.fin n 1 0)
    | 6 => if n then out (.fin false 0 0) else out (.fin false 1 0)
    | _ => if n then out (.fin true 0 0) else out (.inf false)
  | .fin n m e =>
    match fn with
    | 0 => if m = 0 then divZero f n else out (ratio n 1 m (-e))
    | 1 =>
      if m = 0 then divZero f n
      else if n then invalid f
      else out (rootInv m e)
    | 2 =>
      if m = 0 then out (.fin n 0 0)
      else if n then invalid f
      else out (root m e)
    | 3 => roundEnc fn code f rm r (encExp2 n m e)
    | 4 =>
      if m = 0 then divZero f true
      else if n then invalid f
      else roundEnc fn code f rm r (encLog2 m e)
    | 5 => roundEnc fn code f rm r (encTanh n m e)
    | 6 => roundEnc fn code f rm r (encSigm n m e)
    | 7 => roundEnc fn code f rm r (encGelu n m e)
    | _ => roundEnc fn code f rm r (encSilu n m e)

/-- R191: vdiv. -/
def specialDiv (f : Fmt) (rm r a b : Nat) : Nat × Cond :=
  let x := decodeNum f false a
  let y := decodeNum f false b
  let out (z : Num) : Nat × Cond := roundNum f false rm r z
  match x, y with
  | .nan, _ => out .nan
  | _, .nan => out .nan
  | .inf _, .inf _ => invalid f
  | .inf p, y => out (.inf (p != y.negative))
  | x, .inf q => out (.fin (x.negative != q) 0 0)
  | .fin p m e, .fin q n k =>
    if n = 0 then (if m = 0 then invalid f else divZero f (p != q))
    else if m = 0 then out (.fin (p != q) 0 0)
    else out (ratio (p != q) m n (e - k))

end Sys2Proof.Machine
end

