-- ==== Sys2Proof/Machine/Vector.lean ====
section
/-! DEFINITION. The vector unit (R173–R201): stream words, cursors, the queue, every operation on its
elements, and key-routed sends. -/

namespace Sys2Proof.Machine

/-! ### Stream words and cursors (R173–R178) -/

/-- R190, R193: element bytes of a width code. -/
def widthBytes (w : Nat) : Nat := 8 / 2 ^ w

/-- One use of a cursor: role (0 D, 1 S1, 2 S2), element size, number of positions. -/
structure Use where
  role : Nat
  size : Nat
  count : Nat
  deriving DecidableEq, Repr

/-- R178, R187–R196: the cursors a command uses, for N positions of which P are active, and M values per
record. -/
def Vop.uses (op : Vop) (fmt : Nat) (sb : Bool) (w n p m : Nat) : List Use :=
  let two (z : Nat) : List Use := [⟨0, z, n⟩, ⟨1, z, n⟩] ++ (if sb then [] else [⟨2, z, n⟩])
  match op with
  | .float k =>
    let z := (fmtOf fmt).size
    if k = 12 || k = 13 then [⟨0, z, 1⟩, ⟨1, z, n⟩]
    else if k = 7 || k = 8 then [⟨0, z, n⟩, ⟨1, z, n⟩]
    else two z
  | .int _ => two (widthBytes fmt)
  | .fn k =>
    let z := (fmtOf fmt).size
    if k = 9 then two z else [⟨0, z, n⟩, ⟨1, z, n⟩]
  | .move k =>
    let z := widthBytes w
    match k with
    | 0 => if sb then [⟨0, z, n⟩] else [⟨0, z, n⟩, ⟨1, z, n⟩]
    | 1 => [⟨0, z, n⟩, ⟨1, z, 1⟩]
    | 2 => [⟨0, z, n⟩, ⟨1, z, 0⟩, ⟨2, 4, n⟩]
    | 3 => [⟨0, z, 0⟩, ⟨1, z, n⟩, ⟨2, 4, n⟩]
    | 4 => [⟨0, z, p⟩, ⟨1, z, n⟩]
    | 5 => [⟨0, z, n⟩, ⟨1, z, p⟩]
    | 9 => [⟨0, z, n⟩, ⟨1, z, n⟩, ⟨2, z, n⟩]
    | _ => [⟨0, z, n⟩, ⟨1, z, n⟩]
  | .cvt src => [⟨0, (fmtOf fmt).size, n⟩, ⟨1, (fmtOf src).size, n⟩]
  | .ksend => [⟨1, 8, n⟩, ⟨2, 4, n * m⟩]
  | .racc => []

/-- R187–R193: whether Z, SB and W are accepted. -/
def Vop.accepts : Vop → Bool × Bool × Bool
  | .float k => (k ≠ 12 && k ≠ 13, [0, 1, 2, 5, 6, 9, 10, 11, 14].contains k, false)
  | .int _ => (true, true, false)
  | .fn k => (true, k = 9, false)
  | .move k => (k = 0, k = 0, true)
  | .cvt _ => (true, false, false)
  | .ksend => (false, false, false)
  | .racc => (false, false, false)

/-- R164: draws when RM selects stochastic. -/
def Vop.draws (op : Vop) (n : Nat) : Nat :=
  match op with
  | .float k => if k = 12 then 1 else if k ≤ 4 || k = 14 then n else 0
  | .fn _ => n
  | .cvt _ => n
  | _ => 0

/-- The cursor number of a role in a stream word. -/
def cursorOf (sw : Word) (role : Nat) : Nat := bits sw.toNat (3 * role + 2) (3 * role)
def streamN (sw : Word) : Nat := bits sw.toNat 16 9 + 1
/-- R174. -/
def activeAt (mask : Word) (i : Nat) : Bool := mask.getLsbD (i % 64)
def activeCount (mask : Word) (n : Nat) : Nat := ((List.range n).filter (activeAt mask)).length

def Cursor.at (c : Cursor) (j : Nat) : Int := c.addr.toInt + j * c.stride.toInt
def getCursor (v : Vector Cursor 8) (i : Nat) : Cursor := if h : i < 8 then v[i] else {}

/-- An 0xF0 address of a scratch offset, which may be negative (R177). -/
def scratchAddr (a : Int) : Word := 0xF000000000000000 + BitVec.ofInt 64 a

/-- R177: alignment of every cursor, then the range of every element. -/
def checkCursors (cs : Vector Cursor 8) (sw : Word) (uses : List Use) : Option Trap :=
  let bad := uses.find? (fun u =>
    let c := getCursor cs (cursorOf sw u.role)
    c.addr.toInt % u.size ≠ 0 || c.stride.toInt % u.size ≠ 0)
  match bad with
  | some u => some { code := 0x03, eval := scratchAddr (getCursor cs (cursorOf sw u.role)).addr.toInt }
  | none => uses.findSome? (fun u =>
      let c := getCursor cs (cursorOf sw u.role)
      (List.range u.count).findSome? (fun j =>
        let a := c.at j
        if a < 0 || a + u.size > 0x60000 then some { code := 0x04, sub := 1, eval := scratchAddr a } else none))

/-- R178: each cursor advances once, by the largest of its counts. -/
def advanceCursors (cs : Vector Cursor 8) (sw : Word) (uses : List Use) : Vector Cursor 8 :=
  Vector.ofFn (fun (i : Fin 8) =>
    let c := cs[i]
    let k := (uses.filter (fun u => cursorOf sw u.role = i.val)).foldl (fun k u => max k u.count) 0
    { c with addr := c.addr + BitVec.ofInt 32 (k * c.stride.toInt) })

/-- R194: base cursors advance by nothing and cover no position. -/
def Use.isBase (op : Vop) (u : Use) : Bool :=
  match op with
  | .move 2 => u.role = 1
  | .move 3 => u.role = 0
  | _ => false

/-- R195: the step word of vcmx. -/
def stepOk (d : Word) : Bool :=
  d.toNat / 128 = 0 && d.toNat % 8 < bits d.toNat 6 3 && bits d.toNat 6 3 ≤ 8
/-- R196: the route word of ksend. -/
def routeOk (d : Word) : Bool :=
  let v := d.toNat
  let t := 2 ^ bits v 13 10
  v / 2 ^ 20 = 0 && bits v 13 10 ≤ 10 && v % 1024 % t = 0 && v % 1024 + t ≤ 1024

/-- R196: values per record. -/
def routeM (d : Word) : Nat := bits d.toNat 19 14 + 1

/-- R180: a checked command of the thread in hand enters its core's queue, or waits for room. -/
def State.venqueue (s : State) (look : BitVec 4) (dests : List Nat) (cmd : VCmd) : Except Stop State :=
  if (s.core s.myCore).vq.length ≥ 8 then .error .wait
  else
    .ok ((s.launch .vector look.toNat [] dests).modCore s.myCore (fun x => { x with vq := x.vq ++ [cmd] }))

/-- The command that the thread in hand would queue. -/
def State.vcmd (s : State) (op : Vop) (fmt : Nat) (sw mask scalar : Word) : VCmd :=
  let t := s.me
  { slot := slotOf s.cur, flight := s.nextId, op := op, fmt := fmt, sw := sw, mask := mask
    scalar := scalar, rm := t.rm, tcm := t.tcm, seed := t.seed, taskix := t.taskix
    srctr := t.srctr, cursors := t.cursors, pc := t.pc, order := s.order }

/-- R173–R180: a vector command of LOOKAHEAD `look` issues. With SB = 0 the register field d of a command that accepts SB
is reserved, and a non-zero one traps as R173 says. -/
def State.vissue (s : State) (op : Vop) (fmt : Nat) (look : BitVec 4) (a b d : Reg) : Out :=
  s.finish 4 do
    let sw := s.rd a
    let mask := s.rd b
    let scalar := s.rd d
    let n := streamN sw
    let sb := sw.getLsbD 17
    let w := bits sw.toNat 19 18
    let (zOk, sbOk, wOk) := op.accepts
    if sw.toNat / 2 ^ 21 ≠ 0 || (sw.getLsbD 20 && !zOk) || (sb && !sbOk) || (w ≠ 0 && !wOk) ||
        (sbOk && !sb && d ≠ 0) then
      .error s.badOperand
    else
      let uses := op.uses fmt sb w n (activeCount mask n) (routeM scalar)
      if (List.range 3).any (fun r => !uses.any (fun u => u.role = r) && cursorOf sw r ≠ 0) then
        .error s.badOperand
      else if (match op with
          | .move 8 => !stepOk scalar
          | .ksend => !routeOk scalar
          | .cvt src => src = fmt
          | _ => false) then .error s.badOperand
      else
        match checkCursors s.me.cursors sw uses with
        | some t => .error (.trap t)
        | none =>
          let drawn := if s.me.rm = 4 then op.draws n else 0
          let s' ← s.venqueue look [] (s.vcmd op fmt sw mask scalar)
          .ok (s'.modMe (fun t => { t with
            cursors := advanceCursors t.cursors sw uses, srctr := t.srctr + BitVec.ofNat 64 drawn }))

/-! ### Elements -/

/-- All elements that a cursor names. -/
def Core.elems (x : Core) (c : Cursor) (u : Use) : List Elem :=
  (List.range u.count).map (fun j => x.elem (c.at j).toNat u.size)

/-- The frames that a cursor's elements touch are pinned (R128). -/
def State.pinUse (s : State) (core : Nat) (c : Cursor) (u : Use) (w : Bool) : State :=
  (List.range u.count).foldl (fun s j => s.pinRange core (c.at j).toNat u.size w) s

/-- What a command computes: writes as (offset, size, value), its conditions, its element fault (R194), and
the uncorrectable elements that active positions read, as (role, element). -/
structure Computed where
  writes : List (Nat × Nat × Nat) := []
  cond : Cond := {}
  fault : Option Word := none
  used : List (Nat × Nat) := []

def allOnes (size : Nat) : Nat := 2 ^ (8 * size) - 1
/-- A w-bit code as a signed number. -/
def signed (size v : Nat) : Int := if v ≥ 2 ^ (8 * size - 1) then (v : Int) - 2 ^ (8 * size) else v
/-- A number as a w-bit code. -/
def wrapTo (size : Nat) (v : Int) : Nat := (v % 2 ^ (8 * size)).toNat

/-- Rounds an exact result that may be invalid. -/
def finishNum (f : Fmt) (rm r : Nat) (x : Num × Bool) : Nat × Cond :=
  let (c, k) := roundNum f false rm r x.1
  (c, { k with nv := k.nv || x.2 })

/-- R188: the smaller (or larger) of two codes. -/
def minCode (f : Fmt) (larger : Bool) (x y : Nat) : Nat :=
  let a := decodeNum f false x
  let b := decodeNum f false y
  if a.isNan then (if b.isNan then f.nan else y)
  else if b.isNan then x
  else if larger then (if numLt true a b then y else x)
  else (if numLt true b a then y else x)

/-- R187, R188: one element of a floating-point operation. -/
def floatElem (k : Nat) (f : Fmt) (rm r x y kk : Nat) : Nat × Cond :=
  let a := decodeNum f false x
  let b := decodeNum f false y
  let yes (p : Bool) : Nat × Cond := (if p then allOnes f.size else 0, {})
  match k with
  | 0 => finishNum f rm r (numAdd rm a b)
  | 1 => finishNum f rm r (numAdd rm a b.neg)
  | 2 => finishNum f rm r (numMul a b)
  | 3 =>
    let p := numMul a (decodeNum f false kk)
    let q := numAdd rm p.1 b
    finishNum f rm r (q.1, (p.2 && !b.isNan) || q.2)
  | 4 =>
    let p := numMul a (decodeNum f false kk)
    let q := numAdd rm p.1 b.neg
    finishNum f rm r (q.1, (p.2 && !b.isNan) || q.2)
  | 5 => (minCode f false x y, {})
  | 6 => (minCode f true x y, {})
  | 7 => (if a.isNan then f.nan else x % 2 ^ f.signAt, {})
  | 8 => (if a.isNan then f.nan else (x + 2 ^ f.signAt) % 2 ^ (8 * f.size), {})
  | 9 => yes (numEq a b)
  | 10 => yes (numLt false a b)
  | 11 => yes (numLt false a b || numEq a b)
  | _ =>
    let j := max (-1024) (min 1023 (signed f.size y))
    finishNum f rm r (a.shift j, false)

/-- R190: one element of an integer operation. -/
def intElem (k z x y : Nat) : Nat :=
  let sx := signed z x
  let sy := signed z y
  let n := y % (8 * z)
  let yes (p : Bool) : Nat := if p then allOnes z else 0
  match k with
  | 0 => (x + y) % 2 ^ (8 * z)
  | 1 => wrapTo z ((x : Int) - y)
  | 2 => x * y % 2 ^ (8 * z)
  | 3 => if sy < sx then y else x
  | 4 => if sx < sy then y else x
  | 5 => min x y
  | 6 => max x y
  | 7 => x &&& y
  | 8 => x ||| y
  | 9 => x ^^^ y
  | 10 => x * 2 ^ n % 2 ^ (8 * z)
  | 11 => x / 2 ^ n
  | 12 => wrapTo z (sx / 2 ^ n)
  | 13 => yes (x = y)
  | 14 => yes (sx < sy)
  | _ => yes (x < y)

/-- Element-wise results at the active positions, zeros at the others when Z = 1. -/
def elementwise (n : Nat) (act : Nat → Bool) (z : Bool) (f : Nat → Nat × Cond) : List (Nat × Nat) × Cond :=
  (List.range n).foldr (fun i acc =>
    if act i then
      let r := f i
      ((i, r.1) :: acc.1, acc.2.or r.2)
    else if z then ((i, 0) :: acc.1, acc.2)
    else acc) ([], {})

/-- The value list of elements. -/
def vals (l : List Elem) (i : Nat) : Nat := (l.getD i ⟨0, false⟩).v

/-- R195: one bitonic compare-exchange step. -/
def bitonic (d : Word) (n : Nat) (x : Nat → Nat) (i : Nat) : Nat :=
  let p := d.toNat % 8
  let q := bits d.toNat 6 3
  let m := i ^^^ 2 ^ p
  if m ≥ n then x i
  else if decide (i < m) = !i.testBit q then min (x i) (x m) else max (x i) (x m)

/-- R189: the largest of the active codes. -/
def maxOf (f : Fmt) : List Nat → Nat
  | [] => f.signed true (f.top + 1)
  | x :: r => r.foldl (minCode f true) (minCode f true x x)

/-- R193, R195: the moves: values by destination position, and the elements of S1 and S2 they need. -/
def moveElems (k z n : Nat) (act : Nat → Bool) (d : Word) (x y : Nat → Nat) : List (Nat × Nat) :=
  let idx := List.range n
  let on := idx.filter act
  let rank (i : Nat) : Nat := (on.filter (· < i)).length
  match k with
  | 4 => on.map (fun i => (rank i, x i))
  | 5 => on.map (fun i => (i, x (rank i)))
  | 6 => on.map (fun i => (i, (on.filter (· ≤ i)).foldl (fun t j => t + x j) 0 % 2 ^ (8 * z)))
  | 7 => on.map (fun i => (i, x (n - 1 - i)))
  | 8 => on.map (fun i => (i, bitonic d n x i))
  | 9 => idx.map (fun i => (i, if act i then x i else y i))
  | 10 => idx.zip (sortBy (fun a b => a ≤ b) (idx.map (fun i => if act i then x i else allOnes z)))
  | 11 => on.map (fun i => (i, (on.filter (fun j => x j < x i || (x j = x i && j < i))).length % 2 ^ (8 * z)))
  | 1 => on.map (fun i => (i, x 0))
  | _ => on.map (fun i => (i, x i))

/-- Which elements of S1 an active position reads. -/
def readsS1 (op : Vop) (d : Word) (n : Nat) (act : Nat → Bool) (j : Nat) : Bool :=
  match op with
  | .move 1 => (List.range n).any act
  | .move 5 => true
  | .move 7 => act (n - 1 - j)
  | .move 8 => act j || (let m := j ^^^ 2 ^ (d.toNat % 8); decide (m < n) && act m)
  | _ => act j
/-- R174: which elements of S2 an active position reads; vmrg reads both of its elements there. -/
def readsS2 (op : Vop) (act : Nat → Bool) (m j : Nat) : Bool :=
  match op with
  | .ksend => act (j / m)
  | _ => act j

/-- R194: the scratch offsets that the active positions of a vgath read, in or out of the scratchpad. -/
def VCmd.gathered (x : Core) (c : VCmd) : List (Nat × Int) :=
  let n := streamN c.sw
  let size := widthBytes (bits c.sw.toNat 19 18)
  let base := (getCursor c.cursors (cursorOf c.sw 1)).addr.toInt
  let idx := x.elems (getCursor c.cursors (cursorOf c.sw 2)) ⟨2, 4, n⟩
  ((List.range n).filter (activeAt c.mask)).map (fun i => (i, base + vals idx i * size))

/-- R187–R195: what a command computes from a core's scratchpad. The uncorrectable elements that active positions read
come in the order S1, then S2, each by position, the first of which R186 records (DESIGN CHOICE, log 26). An inactive
position of vmrg whose S2 element is uncorrectable writes 0 and reports nothing (DESIGN CHOICE, log 26: R174 has inactive
positions ignore it, and no rule gives the value). -/
def compute (x : Core) (c : VCmd) : Computed :=
  let n := streamN c.sw
  let act := activeAt c.mask
  let z := c.sw.getLsbD 20
  let sb := c.sw.getLsbD 17
  let w := bits c.sw.toNat 19 18
  let m := routeM c.scalar
  let uses := c.op.uses c.fmt sb w n (activeCount c.mask n) m
  let cur (r : Nat) : Cursor := getCursor c.cursors (cursorOf c.sw r)
  let size (r : Nat) : Nat := ((uses.find? (fun u => u.role = r)).map Use.size).getD 1
  let list (r : Nat) : List Elem :=
    match uses.find? (fun u => u.role = r) with
    | some u => if u.isBase c.op then [] else x.elems (cur r) u
    | none => []
  let e1 := list 1
  let e2 := list 2
  let sz := size 0
  let kk := c.scalar.toNat % 2 ^ (8 * sz)
  let y (i : Nat) : Nat := if sb then kk else vals e2 i
  let rm := c.rm.toNat
  let r (i : Nat) : Nat := drawR c.seed c.taskix c.srctr i
  let used := (List.range e1.length).filterMap (fun j =>
      if (e1.getD j ⟨0, false⟩).bad && readsS1 c.op c.scalar n act j then some (1, j) else none) ++
    (List.range e2.length).filterMap (fun j =>
      if (e2.getD j ⟨0, false⟩).bad && readsS2 c.op act m j then some (2, j) else none)
  let place (l : List (Nat × Nat)) : List (Nat × Nat × Nat) :=
    l.map (fun p => (((cur 0).at p.1).toNat, sz, p.2))
  match c.op with
  | .float 12 =>
    let f := fmtOf c.fmt
    let on := (List.range n).filter act
    let v := finishNum f rm (r 0) (numSum rm (on.map (fun i => decodeNum f false (vals e1 i))))
    { writes := place [(0, v.1)], cond := v.2, used := used }
  | .float 13 =>
    let f := fmtOf c.fmt
    { writes := place [(0, maxOf f (((List.range n).filter act).map (vals e1)))], used := used }
  | .float k =>
    let (l, cd) := elementwise n act z (fun i => floatElem k (fmtOf c.fmt) rm (r i) (vals e1 i) (y i) kk)
    { writes := place l, cond := cd, used := used }
  | .int k =>
    let (l, cd) := elementwise n act z (fun i => (intElem k sz (vals e1 i) (y i), {}))
    { writes := place l, cond := cd, used := used }
  | .fn 9 =>
    let (l, cd) := elementwise n act z (fun i => specialDiv (fmtOf c.fmt) rm (r i) (vals e1 i) (y i))
    { writes := place l, cond := cd, used := used }
  | .fn k =>
    let (l, cd) := elementwise n act z (fun i => special k (fmtOf c.fmt) rm (r i) (vals e1 i))
    { writes := place l, cond := cd, used := used }
  | .cvt src =>
    let (l, cd) := elementwise n act z (fun i => convert (fmtOf src) (fmtOf c.fmt) c.tcm rm (r i) (vals e1 i))
    { writes := place l, cond := cd, used := used }
  | .move 0 =>
    let (l, cd) := elementwise n act z (fun i => (if sb then kk else vals e1 i, {}))
    { writes := place l, cond := cd, used := used }
  | .move 2 =>
    -- R194: gather
    let ok (p : Nat × Int) : Bool := 0 ≤ p.2 && p.2 + sz ≤ 0x60000
    let on := c.gathered x
    let els := (on.filter ok).map (fun p => (p.1, x.elem p.2.toNat sz))
    { writes := place (els.map (fun p => (p.1, p.2.v)))
      fault := (on.find? (fun p => !ok p)).map (fun p => scratchAddr p.2)
      used := (els.filter (fun p => p.2.bad)).map (fun p => (1, p.1)) ++ used }
  | .move 3 =>
    -- R194: scatter; the highest position's element stands
    let at_ (i : Nat) : Int := (cur 0).addr.toInt + vals e2 i * sz
    let ok (i : Nat) : Bool := 0 ≤ at_ i && at_ i + sz ≤ 0x60000
    let on := (List.range n).filter act
    { writes := (on.filter ok).map (fun i => ((at_ i).toNat, sz, vals e1 i))
      fault := (on.find? (fun i => !ok i)).map (fun i => scratchAddr (at_ i))
      used := used }
  | .move k => { writes := place (moveElems k sz n act c.scalar (vals e1) (vals e2)), used := used }
  | .ksend => { used := used }
  | .racc => {}

/-! ### The queue (R180–R182) -/

/-- The uses of cursors of a queued command. -/
def VCmd.useList (c : VCmd) : List Use :=
  let n := streamN c.sw
  c.op.uses c.fmt (c.sw.getLsbD 17) (bits c.sw.toNat 19 18) n (activeCount c.mask n) (routeM c.scalar)

/-- R128: every frame that a command's elements lie in is pinned, those that a gather reaches through its indices too. -/
def State.pinCommand (s : State) (core : Nat) (c : VCmd) : State :=
  let s := c.useList.foldl (fun s u => s.pinUse core (getCursor c.cursors (cursorOf c.sw u.role)) u false) s
  match c.op with
  | .move 2 =>
    let size := widthBytes (bits c.sw.toNat 19 18)
    (c.gathered (s.core core)).foldl (fun (s : State) (p : Nat × Int) =>
      if 0 ≤ p.2 && p.2 + size ≤ 0x60000 then s.pinRange core p.2.toNat size false else s) s
  | _ => s

/-- R183 item 4, R278: a byte that a command reads or writes lies above a channel's watermark; the command waits. -/
def State.cmdWatched (s : State) (core : Nat) (c : VCmd) : Bool :=
  s.someWatch (some core) (fun _ lo hi =>
    let meets (a : Int) (n : Nat) : Bool := decide (a < hi) && decide ((lo : Int) < a + n)
    c.useList.any (fun u => !u.isBase c.op && (List.range u.count).any (fun j =>
      meets ((getCursor c.cursors (cursorOf c.sw u.role)).at j) u.size)) ||
    (match c.op with
     | .move 2 => (c.gathered (s.core core)).any (fun p => meets p.2 (widthBytes (bits c.sw.toNat 19 18)))
     | .move 3 => (compute (s.core core) c).writes.any (fun w => meets w.1 w.2.1)
     | _ => false))

/-- R147, R186: uncorrectable elements that active positions read. -/
def State.reportUsed (s : State) (core : Nat) (c : VCmd) (used : List (Nat × Nat)) : State :=
  let s := used.foldl (fun s p => s.substituted core c.slot 5 (cursorOf c.sw p.1) 0 p.2) s
  if used.isEmpty then s else s.vraise (tidOf core c.slot) c.flight { ue := true }

/-- R196: the target of a key. -/
def keyTarget (d key : Word) : Nat :=
  let lt := bits d.toNat 13 10
  d.toNat % 1024 + (if lt = 0 then 0 else ((key * 0x9E3779B97F4A7C15) >>> (64 - lt)).toNat)

/-- R196: the records of a ksend leave for their targets. -/
def State.sendKeys (s : State) (core : Nat) (c : VCmd) : State :=
  let x := s.core core
  let n := streamN c.sw
  let m := routeM c.scalar
  let keys := x.elems (getCursor c.cursors (cursorOf c.sw 1)) ⟨1, 8, n⟩
  let vs := x.elems (getCursor c.cursors (cursorOf c.sw 2)) ⟨2, 4, n * m⟩
  let on := (List.range n).filter (activeAt c.mask)
  let s := on.foldl (fun s r =>
    let key := BitVec.ofNat 64 (vals keys r)
    let rec1 : KeyRecord := { sender := core, flight := c.flight, index := r, key := key
                              values := (List.range m).map (fun i => vals vs (r * m + i)) }
    s.modCore (keyTarget c.scalar key) (fun y => { y with ksends := y.ksends ++ [rec1] })) s
  s.modCore core (fun y =>
    match y.vq with
    | h :: r => { y with vq := { h with away := on.length, used := c.used } :: r }
    | [] => y)

/-- R181: the head of the queue starts. A ksend sends its records. -/
def execVectorCommandStart (core : Nat) (s : State) : Out :=
  let x := s.core core
  match x.vq with
  | [] => .next s
  | c :: _ =>
    if !s.clocked (dieOf core) || x.vqStarted || (c.op = .ksend && s.cmdWatched core c) then .next s
    else
      let s := (s.pinCommand core c).modCore core (fun y => { y with vqStarted := true })
      match c.op with
      | .ksend => .next (s.sendKeys core { c with used := (compute (s.core core) c).used })
      | _ => .next s

/-- R197: the unit's status since the previous racc. -/
def Core.raccStatus (x : Core) : Word :=
  BitVec.ofNat 64 (x.raccCount.toNat + (if x.raccNv then 2 ^ 32 else 0) + (if x.raccOf then 2 ^ 33 else 0))
/-- R197: the unit switches descriptors, and d gets its previous status. -/
def State.switchRacc (s : State) (core : Nat) (c : VCmd) : State :=
  let old := (s.core core).raccStatus
  (s.modCore core (fun y => { y with raccDesc := c.scalar, raccCount := 0, raccNv := false, raccOf := false })).modThread
    (tidOf core c.slot) (fun t => t.writeCode c.dest old)

/-- R104: the uncorrectable scratch words that the elements of a command together overwrite lose their error; one that they
overwrite in part takes their bytes and keeps it (DESIGN CHOICE, log 26: R104 speaks of stores, and R201 gives a command no
fault for it). -/
def Core.healedBy (x : Core) (writes : List (Nat × Nat × Nat)) : Core :=
  { x with scratchBad := x.scratchBad.filter (fun w =>
      !(List.range 8).all (fun i => writes.any (fun p => p.1 ≤ w + i && w + i < p.1 + p.2.1))) }

/-- R177, R182: the bytes that a command has computed are written in the order of its positions: of several that one
position of the scratchpad takes, through a stride of 0, the highest stands (DESIGN CHOICE, log 26). -/
def State.writeElements (s : State) (core : Nat) (writes : List (Nat × Nat × Nat)) : State :=
  (writes.foldl (fun s p => s.scratchPut core p.1 (leBytes p.2.1 p.2.2)) s).modCore core (·.healedBy writes)

/-- R182: the head of the queue completes: its bytes, its conditions, its late fault. -/
def execVectorCommandComplete (core : Nat) (s : State) : Out :=
  let x := s.core core
  match x.vq with
  | [] => .next s
  | c :: rest =>
    if !s.clocked (dieOf core) || !x.vqStarted || c.away ≠ 0 || (c.op ≠ .ksend && s.cmdWatched core c) then .next s
    else
      let tid := tidOf core c.slot
      let s := s.pinCommand core c
      let r := compute (s.core core) c
      let s := s.writeElements core r.writes
      let s := match c.op with
        | .ksend => s.reportUsed core c c.used
        | .racc => s.switchRacc core c
        | _ => s.reportUsed core c r.used
      let s := (s.vraise tid c.flight r.cond).modCore core (fun y => { y with vq := rest, vqStarted := false })
      let handler := (s.thread tid).flightHandler c.flight
      let s := s.land tid c.flight
      match r.fault, c.refused with
      | some a, _ => .next (s.deferFault tid { code := 0x04, sub := 1, eval := a } c.pc c.order handler)
      | none, some (_, target) =>
        .next (s.deferFault tid { code := 0x09, eval := BitVec.ofNat 64 (0xF1 * 2 ^ 56 + target * 2 ^ 32) } c.pc c.order handler)
      | none, none => .next s

/-! ### Key-routed sends (R197–R199) -/

/-- R197: the descriptor's fields. -/
def raccEn (d : Word) : Bool := d.getLsbD 63
/-- R197: a descriptor that racc takes; one whose BB is no multiple of 64, as the field's meaning asks, is refused with those
that the rule lists (DESIGN CHOICE, log 51). -/
def raccOk (d : Word) : Bool :=
  let v := d.toNat
  bits v 62 33 = 0 && bits v 23 20 ≤ 12 && v % 2 ^ 20 % 64 = 0 &&
  v % 2 ^ 20 + 2 ^ bits v 23 20 * (bits v 31 24 + 1) * 4 ≤ 0x60000

/-- R198: one value into its bin. -/
def binAdd (int : Bool) (bin v : Nat) : Nat × Cond :=
  if int then ((bin + v) % 2 ^ 32, {})
  else finishNum .f32 0 0 (numAdd 0 (decodeNum .f32 false bin) (decodeNum .f32 false v))

/-- R198: a record is applied at a core. An uncorrectable bin word is taken as 0 and keeps its mark, and nothing is reported
(DESIGN CHOICE, log 7: no rule of the unit names it). -/
def State.applyRecord (s : State) (core : Nat) (k : KeyRecord) : State :=
  let d := (s.core core).raccDesc
  let v := d.toNat
  let m := bits v 31 24 + 1
  let j := k.key.toNat % 2 ^ bits v 23 20
  let base := v % 2 ^ 20 + j * m * 4
  let s := (List.range (min m k.values.length)).foldl (fun s i =>
    let off := base + 4 * i
    let s := s.pinRange core off 4 true
    let (w, c) := binAdd (d.getLsbD 32) ((s.core core).elem off 4).v (k.values.getD i 0)
    (s.scratchPut core off (leBytes 4 w)).modCore core (fun y =>
      { y with raccNv := y.raccNv || c.nv, raccOf := y.raccOf || c.of })) s
  s.modCore core (fun y => { y with raccCount := if y.raccCount = BitVec.allOnes 32 then y.raccCount else y.raccCount + 1 })

/-- R103, R199: a refused record is logged at the target's die. -/
def State.refuseRecord (s : State) (core : Nat) (k : KeyRecord) : State :=
  s.logViolation (dieOf core) (0xF1 * 2 ^ 56 + core * 2 ^ 32) (.thread (tidOf k.sender 0)) 0 2 .record

/-- R199: a ksend learns the outcome of one of its records, by the core that it was for. -/
def VCmd.told (h : VCmd) (k : KeyRecord) (refused : Bool) (core : Nat) : VCmd :=
  { h with
    away := h.away - 1
    refused := if refused then
        (match h.refused with
         | some (i, t) => if k.index < i then some (k.index, core) else some (i, t)
         | none => some (k.index, core))
      else h.refused }

/-- R198, R199, R302: the oldest record that waits at a core is applied or refused; its ksend learns which, if its slot still
runs it (R238). One for a suspended core waits, unless the core is isolated or its die fenced. -/
def execKsendRecordApply (core : Nat) (s : State) : Out :=
  let x := s.core core
  match x.ksends with
  | [] => .next s
  | k :: rest =>
    let gone := x.iso || (s.die (dieOf core)).fenced
    if !gone && (x.spilling || (s.die (dieOf core)).pwrState ≠ 0) then .next s
    else
      let s := s.modCore core (fun y => { y with ksends := rest })
      let refuse := gone || !raccEn x.raccDesc
      let s := if refuse then s.refuseRecord core k else s.applyRecord core k
      .next (s.modCore k.sender (fun y => { y with vq := y.vq.map (fun h => if h.flight = k.flight then h.told k refuse core else h) }))

/-- R180, R197: racc is a vector command: it enters the queue, and the unit switches descriptors in its turn. -/
def execRacc (d a : Reg) (look : BitVec 4) (s : State) : Out :=
  s.finish 4 <|
    if !raccOk (s.rd a) then .error s.badOperand
    else s.venqueue look [s.me.code d] { s.vcmd .racc 0 0 0 (s.rd a) with dest := s.me.code d }

/-- R196. -/
def execKsend (d a b : Reg) (L : BitVec 4) (s : State) : Out := s.vissue .ksend 0 L a b d

/-! ### Cursor and queue controls (R179) -/

/-- R179. -/
def execVcur (a b : Reg) (n : BitVec 3) (s : State) : Out :=
  s.finish 4 <|
    let v := (s.rd a).toNat
    let st := (s.rd b).extractLsb' 0 16
    if v ≥ 0x60000 || s.rd b ≠ st.signExtend 64 then .error s.badOperand
    else
      .ok (s.modMe (fun t => { t with cursors := if h : n.toNat < 8 then t.cursors.set n.toNat { addr := BitVec.ofNat 32 v, stride := st } else t.cursors }))

/-- R179: waits at issue until few enough of the thread's commands are incomplete. -/
def execVfence (a : Reg) (s : State) : Out :=
  s.finish 4 <|
    let v := (s.rd a).toNat
    if v / 16 ≠ 0 then .error s.badOperand
    else if ((s.core s.myCore).vq.filter (fun c => c.slot = slotOf s.cur)).length ≤ v then .ok s
    else .error .wait

/-- R179. -/
def execVstat (d a : Reg) (s : State) : Out :=
  s.finish 4 <|
    let v := (s.rd a).toNat
    if v / 16 ≠ 0 then .error s.badOperand
    else
      let c := getCursor s.me.cursors (v % 8)
      .ok (s.wr d (if v ≥ 8 then c.stride.signExtend 64 else c.addr.signExtend 64))

/-! ### Floating-point arithmetic (R187–R189) -/

/-- R187. -/
def execVaddFp (d a b : Reg) (t : BitVec 2) (L : BitVec 4) (s : State) : Out := s.vissue (.float 0) t.toNat L a b d
/-- R187. -/
def execVsubFp (d a b : Reg) (t : BitVec 2) (L : BitVec 4) (s : State) : Out := s.vissue (.float 1) t.toNat L a b d
/-- R187. -/
def execVmulFp (d a b : Reg) (t : BitVec 2) (L : BitVec 4) (s : State) : Out := s.vissue (.float 2) t.toNat L a b d
/-- R187. -/
def execVfma (d a b : Reg) (t : BitVec 2) (L : BitVec 4) (s : State) : Out := s.vissue (.float 3) t.toNat L a b d
/-- R187. -/
def execVfms (d a b : Reg) (t : BitVec 2) (L : BitVec 4) (s : State) : Out := s.vissue (.float 4) t.toNat L a b d
/-- R187. -/
def execVminFp (d a b : Reg) (t : BitVec 2) (L : BitVec 4) (s : State) : Out := s.vissue (.float 5) t.toNat L a b d
/-- R187. -/
def execVmaxFp (d a b : Reg) (t : BitVec 2) (L : BitVec 4) (s : State) : Out := s.vissue (.float 6) t.toNat L a b d
/-- R187. -/
def execVabs (a b : Reg) (t : BitVec 2) (L : BitVec 4) (s : State) : Out := s.vissue (.float 7) t.toNat L a b 24
/-- R187. -/
def execVneg (a b : Reg) (t : BitVec 2) (L : BitVec 4) (s : State) : Out := s.vissue (.float 8) t.toNat L a b 24
/-- R187. -/
def execVceqFp (d a b : Reg) (t : BitVec 2) (L : BitVec 4) (s : State) : Out := s.vissue (.float 9) t.toNat L a b d
/-- R187. -/
def execVcltFp (d a b : Reg) (t : BitVec 2) (L : BitVec 4) (s : State) : Out := s.vissue (.float 10) t.toNat L a b d
/-- R187. -/
def execVcle (d a b : Reg) (t : BitVec 2) (L : BitVec 4) (s : State) : Out := s.vissue (.float 11) t.toNat L a b d
/-- R189. -/
def execVsum (a b : Reg) (t : BitVec 2) (L : BitVec 4) (s : State) : Out := s.vissue (.float 12) t.toNat L a b 24
/-- R189. -/
def execVmaxr (a b : Reg) (t : BitVec 2) (L : BitVec 4) (s : State) : Out := s.vissue (.float 13) t.toNat L a b 24
/-- R187. -/
def execVscale (d a b : Reg) (t : BitVec 2) (L : BitVec 4) (s : State) : Out := s.vissue (.float 14) t.toNat L a b d

/-! ### Integer arithmetic (R190) -/

/-- R190. -/
def execVaddInt (d a b : Reg) (w : BitVec 2) (L : BitVec 4) (s : State) : Out := s.vissue (.int 0) w.toNat L a b d
/-- R190. -/
def execVsubInt (d a b : Reg) (w : BitVec 2) (L : BitVec 4) (s : State) : Out := s.vissue (.int 1) w.toNat L a b d
/-- R190. -/
def execVmulInt (d a b : Reg) (w : BitVec 2) (L : BitVec 4) (s : State) : Out := s.vissue (.int 2) w.toNat L a b d
/-- R190. -/
def execVminInt (d a b : Reg) (w : BitVec 2) (L : BitVec 4) (s : State) : Out := s.vissue (.int 3) w.toNat L a b d
/-- R190. -/
def execVmaxInt (d a b : Reg) (w : BitVec 2) (L : BitVec 4) (s : State) : Out := s.vissue (.int 4) w.toNat L a b d
/-- R190. -/
def execVminu (d a b : Reg) (w : BitVec 2) (L : BitVec 4) (s : State) : Out := s.vissue (.int 5) w.toNat L a b d
/-- R190. -/
def execVmaxu (d a b : Reg) (w : BitVec 2) (L : BitVec 4) (s : State) : Out := s.vissue (.int 6) w.toNat L a b d
/-- R190. -/
def execVand (d a b : Reg) (w : BitVec 2) (L : BitVec 4) (s : State) : Out := s.vissue (.int 7) w.toNat L a b d
/-- R190. -/
def execVor (d a b : Reg) (w : BitVec 2) (L : BitVec 4) (s : State) : Out := s.vissue (.int 8) w.toNat L a b d
/-- R190. -/
def execVxor (d a b : Reg) (w : BitVec 2) (L : BitVec 4) (s : State) : Out := s.vissue (.int 9) w.toNat L a b d
/-- R190. -/
def execVshl (d a b : Reg) (w : BitVec 2) (L : BitVec 4) (s : State) : Out := s.vissue (.int 10) w.toNat L a b d
/-- R190. -/
def execVshr (d a b : Reg) (w : BitVec 2) (L : BitVec 4) (s : State) : Out := s.vissue (.int 11) w.toNat L a b d
/-- R190. -/
def execVsra (d a b : Reg) (w : BitVec 2) (L : BitVec 4) (s : State) : Out := s.vissue (.int 12) w.toNat L a b d
/-- R190. -/
def execVceqInt (d a b : Reg) (w : BitVec 2) (L : BitVec 4) (s : State) : Out := s.vissue (.int 13) w.toNat L a b d
/-- R190. -/
def execVcltInt (d a b : Reg) (w : BitVec 2) (L : BitVec 4) (s : State) : Out := s.vissue (.int 14) w.toNat L a b d
/-- R190. -/
def execVcltu (d a b : Reg) (w : BitVec 2) (L : BitVec 4) (s : State) : Out := s.vissue (.int 15) w.toNat L a b d

/-! ### Special functions (R191) -/

/-- R191. -/
def execVrcp (a b : Reg) (t : BitVec 2) (L : BitVec 4) (s : State) : Out := s.vissue (.fn 0) t.toNat L a b 24
/-- R191. -/
def execVrsqrt (a b : Reg) (t : BitVec 2) (L : BitVec 4) (s : State) : Out := s.vissue (.fn 1) t.toNat L a b 24
/-- R191. -/
def execVsqrt (a b : Reg) (t : BitVec 2) (L : BitVec 4) (s : State) : Out := s.vissue (.fn 2) t.toNat L a b 24
/-- R191. -/
def execVexp2 (a b : Reg) (t : BitVec 2) (L : BitVec 4) (s : State) : Out := s.vissue (.fn 3) t.toNat L a b 24
/-- R191. -/
def execVlog2 (a b : Reg) (t : BitVec 2) (L : BitVec 4) (s : State) : Out := s.vissue (.fn 4) t.toNat L a b 24
/-- R191. -/
def execVtanh (a b : Reg) (t : BitVec 2) (L : BitVec 4) (s : State) : Out := s.vissue (.fn 5) t.toNat L a b 24
/-- R191. -/
def execVsigm (a b : Reg) (t : BitVec 2) (L : BitVec 4) (s : State) : Out := s.vissue (.fn 6) t.toNat L a b 24
/-- R191. -/
def execVgelu (a b : Reg) (t : BitVec 2) (L : BitVec 4) (s : State) : Out := s.vissue (.fn 7) t.toNat L a b 24
/-- R191. -/
def execVsilu (a b : Reg) (t : BitVec 2) (L : BitVec 4) (s : State) : Out := s.vissue (.fn 8) t.toNat L a b 24
/-- R191. -/
def execVdiv (d a b : Reg) (t : BitVec 2) (L : BitVec 4) (s : State) : Out := s.vissue (.fn 9) t.toNat L a b d

/-! ### Moves, sorts and conversion (R192–R195) -/

/-- R193. -/
def execVmov (d a b : Reg) (L : BitVec 4) (s : State) : Out := s.vissue (.move 0) 0 L a b d
/-- R193. -/
def execVbcast (a b : Reg) (L : BitVec 4) (s : State) : Out := s.vissue (.move 1) 0 L a b 24
/-- R194. -/
def execVgath (a b : Reg) (L : BitVec 4) (s : State) : Out := s.vissue (.move 2) 0 L a b 24
/-- R194. -/
def execVscat (a b : Reg) (L : BitVec 4) (s : State) : Out := s.vissue (.move 3) 0 L a b 24
/-- R193. -/
def execVcomp (a b : Reg) (L : BitVec 4) (s : State) : Out := s.vissue (.move 4) 0 L a b 24
/-- R193. -/
def execVexpd (a b : Reg) (L : BitVec 4) (s : State) : Out := s.vissue (.move 5) 0 L a b 24
/-- R193. -/
def execVscan (a b : Reg) (L : BitVec 4) (s : State) : Out := s.vissue (.move 6) 0 L a b 24
/-- R193. -/
def execVrev (a b : Reg) (L : BitVec 4) (s : State) : Out := s.vissue (.move 7) 0 L a b 24
/-- R195. -/
def execVcmx (d a b : Reg) (L : BitVec 4) (s : State) : Out := s.vissue (.move 8) 0 L a b d
/-- R193. -/
def execVmrg (a b : Reg) (L : BitVec 4) (s : State) : Out := s.vissue (.move 9) 0 L a b 24
/-- R195. -/
def execVbton (a b : Reg) (L : BitVec 4) (s : State) : Out := s.vissue (.move 10) 0 L a b 24
/-- R193. -/
def execVrank (a b : Reg) (L : BitVec 4) (s : State) : Out := s.vissue (.move 11) 0 L a b 24
/-- R192. -/
def execVcvt (x : BitVec 3) (a b : Reg) (f : BitVec 3) (L : BitVec 4) (s : State) : Out :=
  s.vissue (.cvt x.toNat) f.toNat L a b 24

/-! ### The adds of an epilogue (R218, R227, R402) -/

/-- The FP32 sum that an add to a destination makes, and its conditions (R218). -/
def fp32Add (m v : Nat) : Nat × Cond := finishNum .f32 0 0 (numAdd 0 (decodeNum .f32 false m) (decodeNum .f32 false v))

/-- R218, R227: an FP32 value is added at the home of memory, as one action; an uncorrectable word is taken as +0, and
stays marked, for the add writes half of it (DESIGN CHOICE, log 7). -/
def State.addHome (s : State) (rq : Rq) (pa key v : Nat) (eva : Word) : Did Cond :=
  (s.homeCheck rq .atomic pa key eva).bind fun s _ =>
    let (s, bs) := s.homeReadAll pa 4
    let r := fp32Add (if (s.badAt pa 4).isSome then 0 else leNat bs) v
    .ok (s.homeWriteAll pa (leBytes 4 r.1)) r.2
/-- The same in a core's scratchpad. -/
def State.addScratch (s : State) (rq : Rq) (own : Bool) (c off v : Nat) (eva : Word) : Did Cond :=
  (s.scratchCheck rq own .atomic c off 4 eva).bind fun s _ =>
    let s := s.pinRange c off 4 true
    let x := s.core c
    let r := fp32Add (if (firstBad x.scratchBad off 4).isSome then 0 else leNat (x.scratch.readBytes off 4)) v
    .ok (s.scratchPut c off (leBytes 4 r.1)) r.2
/-- R218: one add of an epilogue at a target that this package holds. -/
def State.addAt (s : State) (tid : Nat) (tgt : Target) (va : Word) (v : Nat) : Did Cond :=
  match tgt with
  | .mem l =>
    if s.watched none l.pa 4 then .wait
    else (s.rdcDrop (dieOf (coreOf tid)) l).addHome (.thread tid) l.pa l.key v va
  | .scratch c off =>
    if s.watched (some c) off 4 then .wait else s.addScratch (.thread tid) (c = coreOf tid) c off v va
  | _ => .wait

end Sys2Proof.Machine
end

