-- ==== Sys2Proof/Machine/Matrix.lean ====
section
/-! DEFINITION. The matrix unit (R57, R202–R228): parameter blocks, accumulator regions, the sequencer and the
joint row array. -/

namespace Sys2Proof.Machine

/-! ### Parameter blocks (R56, R57) -/

/-- Position, width and whether registers may stand for the field. -/
structure BField where
  lo : Nat
  width : Nat
  subst : Bool
  deriving DecidableEq, Repr

/-- Bits [hi:lo] of a block. -/
def pbits (p : Block) (hi lo : Nat) : Nat := Machine.bits p.toNat hi lo
/-- The block with a field replaced. -/
def setField (p : Block) (f : BField) (v : Nat) : Block :=
  BitVec.ofNat 128 (p.toNat - pbits p (f.lo + f.width - 1) f.lo * 2 ^ f.lo + v * 2 ^ f.lo)

/-- R57: the trap of a block, naming a field. -/
def State.blockTrap (s : State) (sub : Nat) : Stop :=
  .trap { code := 0x0C, sub := BitVec.ofNat 8 sub, eval := s.me.pc + 4 }

/-- R57: substitution of the fields from index i on. -/
def State.substitute (s : State) (fs : List BField) : Nat → Nat → Block → Except Stop Block
  | _, 0, p => .ok p
  | i, n + 1, p =>
    if !p.getLsbD (120 + i) then s.substitute fs (i + 1) n p
    else
      match fs[i]? with
      | none => .error (s.blockTrap i)
      | some f =>
        let v := pbits p (f.lo + f.width - 1) f.lo
        if !f.subst || v / 32 ≠ 0 then .error (s.blockTrap i)
        else
          let w := (s.rd (BitVec.ofNat 5 v)).toNat
          if w ≥ 2 ^ f.width then .error (s.blockTrap i)
          else s.substitute fs (i + 1) n (setField p f w)

/-- R57: the effective block; `res` lists the reserved bit ranges. -/
def State.effective (s : State) (fs : List BField) (res : List (Nat × Nat)) (p : Block) : Except Stop Block := do
  let q ← s.substitute fs 0 8 p
  if res.any (fun r => pbits q r.1 r.2 ≠ 0) then .error (s.blockTrap 0xFF)
  else .ok q

/-- The first failing check, as its field. -/
def State.limits (s : State) (checks : List (Nat × Bool)) : Except Stop Unit :=
  match checks.find? (fun c => c.2) with
  | some c => .error (s.blockTrap c.1)
  | none => .ok ()

/-! ### Geometry (R202–R204, R212) -/

/-- R202: the depth of a format pair, none when not accepted. -/
def pairDepth (fa fb : Nat) : Option Nat :=
  let narrow (f : Nat) : Bool := f = 3 || f = 4
  let log (f : Nat) : Bool := f = 5 || f = 6
  if fa = 6 && fb = 6 then some 8
  else if log fa && log fb then some 4
  else if narrow fa && narrow fb then some 4
  else if fa = fb && (fa = 1 || fa = 2) then some 2
  else none

def ceilDiv (a b : Nat) : Nat := (a + b - 1) / b
/-- R203. -/
def ncols (n j : Nat) : Nat := min 128 (n - 128 * j)
/-- R204: bytes of a column record. -/
def recordBytes (k es : Nat) (sc : Bool) : Nat := 64 * ceilDiv (k * es) 64 + (if sc then 64 else 0)

def mmaFields : List BField :=
  [⟨0, 8, true⟩, ⟨8, 11, true⟩, ⟨19, 14, true⟩, ⟨33, 20, true⟩, ⟨53, 16, true⟩, ⟨69, 13, true⟩, ⟨82, 20, true⟩,
   ⟨102, 18, false⟩]
def mepiFields : List BField :=
  [⟨0, 8, true⟩, ⟨8, 11, true⟩, ⟨19, 16, true⟩, ⟨35, 20, true⟩, ⟨55, 32, true⟩, ⟨87, 33, false⟩]
def mldbFields : List BField :=
  [⟨0, 13, true⟩, ⟨13, 14, true⟩, ⟨27, 8, true⟩, ⟨35, 20, true⟩, ⟨55, 3, false⟩, ⟨58, 1, false⟩]
/-- R431. -/
def collFields : List BField :=
  [⟨0, 8, true⟩, ⟨8, 32, true⟩, ⟨40, 56, true⟩, ⟨96, 12, true⟩, ⟨108, 12, false⟩]

/-- The fields of an mma block (R212). -/
structure Mma where
  m : Nat
  n : Nat
  k : Nat
  a : Nat
  lda : Nat
  b : Nat
  as : Nat
  fa : Nat
  fb : Nat
  q : Nat
  zc : Bool
  sc : Bool
def mmaOf (p : Block) : Mma :=
  { m := pbits p 7 0, n := pbits p 18 8, k := pbits p 32 19, a := pbits p 52 33, lda := pbits p 68 53
    b := pbits p 81 69, as := pbits p 101 82, fa := pbits p 104 102, fb := pbits p 107 105
    q := pbits p 109 108, zc := p.getLsbD 110, sc := p.getLsbD 111 }

/-- The fields of an mepi block (R217). -/
structure Mepi where
  m : Nat
  n : Nat
  ldc : Nat
  bias : Nat
  scale : Nat
  fo : Nat
  act : Nat
  q : Nat
  be : Bool
  za : Bool
  add : Bool
def mepiOf (p : Block) : Mepi :=
  { m := pbits p 7 0, n := pbits p 18 8, ldc := pbits p 34 19, bias := pbits p 54 35, scale := pbits p 86 55
    fo := pbits p 89 87, act := pbits p 92 90, q := pbits p 94 93, be := p.getLsbD 95, za := p.getLsbD 96
    add := p.getLsbD 97 }

/-- The fields of an mldb block (R222). -/
structure Mldb where
  b : Nat
  k : Nat
  nc : Nat
  ldb : Nat
  fmt : Nat
  sc : Bool
def mldbOf (p : Block) : Mldb :=
  { b := pbits p 12 0, k := pbits p 26 13, nc := pbits p 34 27, ldb := pbits p 54 35, fmt := pbits p 57 55
    sc := p.getLsbD 58 }

/-- R213. -/
def State.checkMma (s : State) (x : Mma) : Except Stop Unit :=
  let g := s.me.gangSz
  let j := s.me.gangIx
  let d := (pairDepth x.fa x.fb).getD 1
  let es := (fmtOf x.fa).size
  let hb := recordBytes x.k (fmtOf x.fb).size x.sc
  let row := ceilDiv x.k d * d * es
  let h := ceilDiv (ncols x.n j) 64
  let top := j = 0
  s.limits [
    (7, (pairDepth x.fa x.fb).isNone),
    (0, x.m = 0 || x.m > 128 || 32 * x.q + x.m > 128),
    (1, x.n = 0 || x.n > 128 * g),
    (2, x.k = 0 || x.k > 8192 || (x.sc && x.k > 2048)),
    (3, top && (x.a % 64 ≠ 0 || x.a + (x.m - 1) * x.lda + row > 0x60000)),
    (4, top && (x.lda % 64 ≠ 0 || x.lda < row)),
    (5, x.b % 64 ≠ 0 || x.b + h * hb > 8192),
    (6, top && (if x.sc then x.as % 64 ≠ 0 || x.as + 64 * x.m > 0x60000 else x.as ≠ 0))]

/-- R217. -/
def State.checkMepi (s : State) (x : Mepi) : Except Stop Unit :=
  let g := s.me.gangSz
  let es := (fmtOf x.fo).size
  s.limits [
    (5, x.act > 5 || (x.add && x.fo ≠ 0)),
    (0, x.m = 0 || x.m > 128 || 32 * x.q + x.m > 128),
    (1, x.n = 0 || x.n > 128 * g),
    (2, x.ldc % es ≠ 0),
    (3, if x.be then x.bias % 4 ≠ 0 || x.bias + 4 * ncols x.n s.me.gangIx > 0x60000 else x.bias ≠ 0)]

/-- R222. -/
def State.checkMldb (s : State) (x : Mldb) : Except Stop Unit :=
  let hb := recordBytes x.k (fmtOf x.fmt).size x.sc
  s.limits [
    (4, x.fmt = 0 || x.fmt = 7),
    (0, x.b % 64 ≠ 0 || x.b + ceilDiv x.nc 64 * hb > 8192),
    (1, x.k = 0 || x.k > 8192 || (x.sc && x.k > 2048)),
    (2, x.nc = 0 || x.nc > 128),
    (3, x.ldb % 64 ≠ 0 || x.ldb < hb)]

/-! ### Issue (R208, R215) -/

/-- The entry that the thread in hand would queue, of joint instruction `join` in a gang. -/
def State.mentry (s : State) (op : Nat) (p : Block) (a : Word) (join : Nat := 0) : MEntry :=
  let t := s.me
  { slot := slotOf s.cur, flight := s.nextId, op := op, block := p, a := a, rm := t.rm, tcm := t.tcm
    seed := t.seed, taskix := t.taskix, srctr := t.srctr, pc := t.pc, order := s.order, gang := t.gangSz
    gangIx := t.gangIx, join := join, word := s.ir }

/-- R218: draws of an mepi. -/
def mepiDraws (rm : BitVec 3) (p : Block) : Nat :=
  let x := mepiOf p
  if rm = 4 && x.fo ≠ 0 then 128 * x.m else 0

/-- An instruction of the thread in hand enters its core's matrix queue. -/
def State.menqueue (s : State) (op : Nat) (look : BitVec 4) (p : Block) (a : Word) (join : Nat := 0) : State :=
  let e := s.mentry op p a join
  let s := s.launch .matrix look.toNat [] []
  let s := s.modMe (fun t => { t with
    srctr := if op = 1 then t.srctr + BitVec.ofNat 64 (mepiDraws t.rm p) else t.srctr })
  s.modCore s.myCore (fun x => { x with mq := x.mq ++ [e] })

/-- R208, R215: a checked instruction is queued, waits for room, or joins its gang. -/
def State.missue (s : State) (op : Nat) (look : BitVec 4) (p : Block) (a : Word) : Except Stop State :=
  if op ≤ 1 && s.me.gang then .error (.park (.rowJoin (op = 1) p a look.toNat))
  else if (s.core s.myCore).mq.length ≥ 4 then .error .wait
  else .ok (s.menqueue op look p a)

/-- R211–R215. -/
def execMma (L : BitVec 4) (p : Block) (s : State) : Out :=
  s.finish 20 do
    let q ← s.effective mmaFields [(119, 112)] p
    s.checkMma (mmaOf q)
    s.missue 0 L q 0

/-- R217: the destination base must be a multiple of the element size. -/
def execMepi (a : Reg) (L : BitVec 4) (p : Block) (s : State) : Out :=
  s.finish 20 do
    let q ← s.effective mepiFields [(119, 98)] p
    s.checkMepi (mepiOf q)
    if (s.rd a).toNat % (fmtOf (mepiOf q).fo).size ≠ 0 then .error (.trap { code := 0x03, eval := s.rd a })
    else s.missue 1 L q (s.rd a)

/-- R222. -/
def execMldb (a : Reg) (L : BitVec 4) (p : Block) (s : State) : Out :=
  s.finish 20 do
    let q ← s.effective mldbFields [(119, 59)] p
    s.checkMldb (mldbOf q)
    if (s.rd a).toNat % 64 ≠ 0 then .error (.trap { code := 0x03, eval := s.rd a })
    else if space (s.rd a) > 1 && space (s.rd a) ≠ 0xF0 then .error (.trap { code := 0x04, eval := s.rd a })
    else s.missue 2 L q (s.rd a)

/-- R221: the region word. -/
def State.regionWord (s : State) (b : Reg) : Except Stop Block :=
  let v := (s.rd b).toNat
  if v / 16 ≠ 0 || v % 4 + v / 4 + 1 > 4 then .error s.badOperand else .ok (BitVec.ofNat 128 v)

/-- R223: the scratch offset of msave and mrest. -/
def State.saveOffset (s : State) (a : Reg) (r : Block) : Except Stop Word :=
  let v := (s.rd a).toNat
  if v / 2 ^ 20 ≠ 0 then .error s.badOperand
  else if v % 64 ≠ 0 then .error (.trap { code := 0x03, eval := scratchBase + s.rd a })
  else if v + 0x4000 * (r.toNat / 4 + 1) > 0x60000 then .error (.trap { code := 0x04, sub := 1, eval := scratchBase + s.rd a })
  else .ok (s.rd a)
where
  /-- The local scratch space. -/
  scratchBase : Word := 0xF000000000000000

/-- R223. -/
def execMzero (b : Reg) (L : BitVec 4) (s : State) : Out :=
  s.finish 4 do
    let r ← s.regionWord b
    s.missue 3 L r 0
/-- R223. -/
def execMsave (a b : Reg) (L : BitVec 4) (s : State) : Out :=
  s.finish 4 do
    let r ← s.regionWord b
    let v ← s.saveOffset a r
    s.missue 4 L r v
/-- R223. -/
def execMrest (a b : Reg) (L : BitVec 4) (s : State) : Out :=
  s.finish 4 do
    let r ← s.regionWord b
    let v ← s.saveOffset a r
    s.missue 5 L r v

/-- R224: incomplete matrix instructions of a slot, the parked ones included. -/
def Core.mleft (x : Core) (slot : Nat) : Nat :=
  (x.mq.filter (fun e => e.slot = slot)).length + (x.recorded.filter (fun e => e.slot = slot)).length
/-- R224: waits at issue. -/
def execMwait (a : Reg) (s : State) : Out :=
  s.finish 4 <|
    let v := (s.rd a).toNat
    if v / 16 ≠ 0 then .error s.badOperand
    else if (s.core s.myCore).mleft (slotOf s.cur) ≤ v then .ok s
    else .error .wait

/-! ### The row-barrier join (R215) -/

/-- The block fields that the join compares. -/
def joinKey (epilogue : Bool) (p : Block) : List Nat :=
  if epilogue then [pbits p 119 0]
  else [pbits p 32 0, pbits p 81 69, pbits p 119 102]

/-- R215: the join of a gang's mma or mepi, if every member waits in it and has room. -/
def State.rowJoin (s : State) (tid : Nat) : Option State :=
  let ms := s.gangOf tid
  let ws := ms.map (fun m => match (s.thread m).waits with
    | some (.rowJoin e p a l) => some (e, p, a, l)
    | _ => none)
  match ws with
  | some (e, p, _, _) :: _ =>
    if !(s.thread tid).gang || ws.any Option.isNone then none
    else
      let t0 := s.thread (ms.headD 0)
      let same := ms.all (fun m =>
        match (s.thread m).waits with
        | some (.rowJoin e' p' _ _) =>
          e' = e && joinKey e p' = joinKey e p && (s.thread m).rm = t0.rm && (s.thread m).tcm = t0.tcm
        | _ => false)
      if !same then
        -- every member traps of itself: no member takes cause 0x0B
        let s := ms.foldl (fun s m => s.modThread m (fun t =>
          { t with gang := false, gangIx := 0, gangSz := 1, weft := [] })) s
        some (ms.foldl (fun s m =>
          s.trapParked m { code := 0x0C, sub := 0xFE, eval := (s.thread m).pc + 4 }) s)
      else if ms.any (fun m => (s.core (coreOf m)).mq.length ≥ 4) then none
      else
        let join := s.nextId
        some (ms.foldl (fun s m =>
          match (s.thread m).waits with
          | some (.rowJoin e p a l) =>
            let s' := { s with cur := m }.menqueue (if e then 1 else 0) (BitVec.ofNat 4 l) p a join
            { s'.modThread m (fun t => { t with life := .ready, wait := none, pc := t.pc + 20 }) with cur := s.cur }
          | _ => s) s)
  | _ => none

/-- R215. -/
def execGangRowBarrierJoin (core slot : Nat) (s : State) : Out := .next ((s.rowJoin (tidOf core slot)).getD s)

/-! ### Accumulator regions (R206, R207) -/

/-- R207: region `q` is written back if dirty and refilled for the current context. -/
def State.swapRegion (s : State) (c q : Nat) : State :=
  if h : q < 4 then
    let x := s.core c
    let fr := x.accFrames[q]
    let a := 0x4000 * q
    let home (base : Word) : Nat := base.toNat + 0x4000 * (24 + q)
    let s := if fr.ctx.isSome && fr.dirty then
        (s.writeBack x.acc a (home fr.base) 0x4000).markBad ((x.accBad.filter (fun w => a ≤ w && w < a + 0x4000)).map
          (fun w => (w - a) / 8 * 8 + home fr.base))
      else s
    let b := home x.sctxBase
    let (s, acc) := s.refill b x.acc a 0x4000
    let bad := x.accBad.filter (fun w => w < a || a + 0x4000 ≤ w) ++
      (s.badWords b 0x4000).flatMap (fun w => [w - b + a, w - b + a + 4])
    s.setCore c
      { x with acc := acc, accBad := bad
               accFrames := x.accFrames.set q { ctx := some x.sctx, base := x.sctxBase, dirty := false } }
  else s

/-- R207: a region is pinned before it is touched; `w` marks it dirty. -/
def State.pinRegion (s : State) (c q : Nat) (w : Bool) : State :=
  if h : q < 4 then
    let x := s.core c
    let s := if x.accFrames[q].ctx = some x.sctx then s else s.swapRegion c q
    if w then s.modCore c (fun y => { y with accFrames := y.accFrames.set q { y.accFrames[q] with dirty := true } })
    else s
  else s

/-- The regions that rows 32·q to 32·q + m − 1 lie in; `w` marks them dirty. -/
def State.pinRows (s : State) (c q m : Nat) (w : Bool) : State :=
  (List.range (ceilDiv m 32)).foldl (fun s i => s.pinRegion c (q + i) w) s

/-- One accumulator element; zero and marked when uncorrectable (R227). -/
def Core.accAt (x : Core) (i c : Nat) : Elem :=
  if x.accBad.contains (512 * i + 4 * c) then ⟨0, true⟩ else ⟨x.acc.readNat (512 * i + 4 * c) 4, false⟩

/-! ### mma (R214, R227) -/

/-- The code of +0. -/
def zeroCode (f : Fmt) : Nat :=
  match f with
  | .lns8 => 0x40
  | .lns6 => 0x10
  | _ => 0

/-- What an mma reads, as functions of the position. -/
structure Operands where
  a : Nat → Nat → Elem
  b : Nat → Nat → Elem
  sa : Nat → Nat → Elem
  sb : Nat → Nat → Elem

/-- R204, R212: the operands of a member: A of the leading core, B of its own. -/
def operandsOf (lead own : Core) (x : Mma) : Operands :=
  let ea := (fmtOf x.fa).size
  let eb := (fmtOf x.fb).size
  let hb := recordBytes x.k eb x.sc
  let scales := 64 * ceilDiv (x.k * eb) 64
  let stack (c o n : Nat) : Elem :=
    let at_ := c % 64 * 8192 + x.b + c / 64 * hb + o
    if (firstBad own.bstackBad at_ n).isSome then ⟨0, true⟩ else ⟨own.bstack.readNat at_ n, false⟩
  { a := fun i k => lead.elem (x.a + i * x.lda + k * ea) ea
    b := fun k c => stack c (k * eb) eb
    sa := fun i g => if x.sc then lead.elem (x.as + 64 * i + g) 1 else ⟨127, false⟩
    sb := fun g c => if x.sc then stack c (scales + g) 1 else ⟨127, false⟩ }

/-- R227: the code that an element stands for. -/
def Elem.code (f : Fmt) (e : Elem) : Nat := if e.bad then zeroCode f else e.v

/-- R214: one accumulator element over `n` depth groups from group `fr` on. -/
def mmaElem (x : Mma) (d : Nat) (o : Operands) (rm : Nat) (tcm : Bool) (fr n i c acc : Nat) : Nat × Cond :=
  let fa := fmtOf x.fa
  let fb := fmtOf x.fb
  (List.range' fr n).foldl (fun (st : Nat × Cond) g =>
    let sa := o.sa i (d * g / 32)
    let sb := o.sb (d * g / 32) c
    let ps := (List.range d).map (fun t =>
      let k := d * g + t
      if k < x.k && !sa.bad && !sb.bad then product fa fb tcm ((o.a i k).code fa) ((o.b k c).code fb)
      else (Num.fin false 0 0, false))
    let total := groupTotal rm ps (if sa.bad then 127 else sa.v) (if sb.bad then 127 else sb.v)
    let next := accAdd st.1 total.1
    (next.1, (st.2.or total.2).or next.2)) (acc, {})

/-- R227, R228: the substitutions of `n` depth groups from `fr` on in the order of R214: in each step the elements, the
scales, then the accumulator, as (source, row, local column, k). A and its scales are recorded by member 0 alone. -/
def mmaSubs (x : Mma) (d j cols fr n : Nat) (o : Operands) (own : Core) : List (Nat × Nat × Nat × Nat) :=
  (List.range' fr n).flatMap fun g => (List.range x.m).flatMap fun i => (List.range cols).flatMap fun c =>
    let blk := d * g / 32
    let first := (d * g % 32 = 0 || g = fr) && x.sc
    ((List.range d).flatMap fun t =>
      let k := d * g + t
      if k < x.k then
        (if j = 0 && c = 0 && (o.a i k).bad then [(0, i, 0, k)] else []) ++
        (if i = 0 && (o.b k c).bad then [(1, i, c, k)] else [])
      else []) ++
    (if first && j = 0 && c = 0 && (o.sa i blk).bad then [(3, i, 0, d * g)] else []) ++
    (if first && i = 0 && (o.sb blk c).bad then [(4, i, c, d * g)] else []) ++
    (if g = fr && !(x.zc && g = 0) && (own.accAt (32 * x.q + i) c).bad then [(2, i, c, d * g)] else [])

/-- Accumulator elements written whole lose their error. -/
def State.setAcc (s : State) (core i c v : Nat) : State :=
  s.modCore core (fun y => { y with
    acc := y.acc.writeNat (512 * i + 4 * c) 4 v
    accBad := y.accBad.filter (· ≠ 512 * i + 4 * c) })

/-- Substitutions and conditions of a matrix instruction reach DERR and MSTAT (R209, R227). -/
def State.mreport (s : State) (core : Nat) (e : MEntry) (subs : List (Nat × Nat × Nat × Nat)) (c : Cond) : State :=
  let s := subs.foldl (fun s p => s.substituted core e.slot p.1 p.2.1 p.2.2.1 p.2.2.2) s
  s.mraise (tidOf core e.slot) e.flight { c with ue := c.ue || !subs.isEmpty }

/-- R205, R213: the fields that a member works with: its own, but A, its stride and its scales are member 0's. -/
def mmaFor (lead own : Block) : Mma :=
  let l := mmaOf lead
  { mmaOf own with a := l.a, lda := l.lda, as := l.as }
/-- R202, R214: the depth of an mma and its depth groups. -/
def Mma.depth (x : Mma) : Nat := (pairDepth x.fa x.fb).getD 1
def Mma.groups (x : Mma) : Nat := ceilDiv x.k x.depth

/-- What a part of an instruction met beside what its earlier parts had. -/
def MEntry.meets (e : MEntry) (subs : List (Nat × Nat × Nat × Nat)) (c : Cond) : MEntry :=
  { e with subs := e.subs ++ subs, cond := e.cond.or c }

/-- R214: the depth groups of an mma of one member from its next group up to group `upto`, with the entry as what they met
leaves it; `lead` is the block of member 0. -/
def State.runMma (s : State) (lead : Block) (core : Nat) (e : MEntry) (upto : Nat) : State × MEntry :=
  let x := mmaFor lead e.block
  let n := upto - e.next
  let top := core - e.gangIx
  let cols := ncols x.n e.gangIx
  let s := s.pinRange top x.a ((x.m - 1) * x.lda + x.groups * x.depth * (fmtOf x.fa).size) false
  let s := if x.sc then s.pinRange top x.as (64 * x.m) false else s
  let s := s.pinRows core x.q x.m (cols ≠ 0)
  let own := s.core core
  let o := operandsOf (s.core top) own x
  let subs := (mmaSubs x x.depth e.gangIx cols e.next n o own).map
    (fun p => (p.1, p.2.1, 128 * e.gangIx + p.2.2.1, p.2.2.2))
  let r := (List.range x.m).foldl (fun (st : State × Cond) i =>
    (List.range cols).foldl (fun (st : State × Cond) c =>
      let acc := if x.zc && e.next = 0 then 0 else (own.accAt (32 * x.q + i) c).v
      let v := mmaElem x x.depth o e.rm.toNat e.tcm e.next n i c acc
      (st.1.setAcc core (32 * x.q + i) c v.1, st.2.or v.2)) st) (s, {})
  (r.1, e.meets subs r.2)

/-! ### mepi (R218–R220) -/

/-- R218: the activation of an FP32 code. -/
def activate (act t : Nat) : Nat × Cond :=
  match act with
  | 0 => (t, {})
  | 1 =>
    let v := decodeNum .f32 false t
    (if v.isNan then Fmt.f32.nan else if numLt false (.fin false 0 0) v then t else 0, {})
  | 2 => special 7 .f32 0 0 t
  | 3 => special 8 .f32 0 0 t
  | 4 => special 5 .f32 0 0 t
  | _ => special 6 .f32 0 0 t

/-- R218: the value of one element. -/
def mepiElem (x : Mepi) (e : MEntry) (i c acc bias : Nat) : Nat × Cond :=
  let rm := e.rm.toNat
  let mg := if rm = 4 then 0 else rm
  let p := numMul (decodeNum .f32 false acc) (decodeNum .f32 false x.scale)
  let t := finishNum .f32 mg 0 (let q := numAdd mg p.1 (decodeNum .f32 false bias); (q.1, p.2 && !(decodeNum .f32 false bias).isNan || q.2))
  let v := activate x.act t.1
  let r := if rm = 4 then drawR e.seed e.taskix e.srctr (128 * i + c) else 0
  let y := convert .f32 (fmtOf x.fo) e.tcm rm r v.1
  (y.1, (t.2.or v.2).or y.2)

/-- The elements of `n` rows of a member's tile from row `fr` on, in the order of R220. -/
def rowsOf (x : Mepi) (j fr n : Nat) : List (Nat × Nat) :=
  (List.range' fr n).flatMap fun i => (List.range (ncols x.n j)).map fun c => (i, c)
/-- The elements of a member's tile. -/
def tileOf (x : Mepi) (j : Nat) : List (Nat × Nat) := rowsOf x j 0 x.m
/-- R220: the elements of row group `g`. -/
def rowGroupOf (x : Mepi) (j g : Nat) : List (Nat × Nat) := rowsOf x j (16 * g) (min 16 (x.m - 16 * g))
/-- R220: the row groups of an mepi. -/
def Mepi.groups (x : Mepi) : Nat := ceilDiv x.m 16
def Mepi.addr (x : Mepi) (a : Word) (i c : Nat) : Word :=
  a + BitVec.ofNat 64 (i * x.ldc + c * (fmtOf x.fo).size)

/-- R219: the issuing-core check of one element. -/
def State.mepiTarget (s : State) (tid : Nat) (x : Mepi) (va : Word) : Except Trap Target :=
  let sp := space va
  if sp > 1 && sp ≠ 0xF0 && sp ≠ 0xF1 then .error { code := 0x04, eval := va }
  else s.resolve tid .store va (fmtOf x.fo).size

/-- R219: the failure at the lowest address, if some element fails. -/
def State.mepiFault (s : State) (core : Nat) (e : MEntry) : Option Trap :=
  let x := mepiOf e.block
  (tileOf x e.gangIx).foldl (fun (best : Option (Nat × Trap)) p =>
    let va := x.addr e.a p.1 p.2
    match s.mepiTarget (tidOf core e.slot) x va with
    | .ok _ => best
    | .error t =>
      match best with
      | some b => if va.toNat < b.1 then some (va.toNat, t) else some b
      | none => some (va.toNat, t)) none |>.map Prod.snd

/-- R100, R218, R219: one element reaches its destination, with the conditions of an add; a refusal comes back late (R102).
None: the access waits (R278, R363). -/
def State.putElem (s : State) (tid : Nat) (e : MEntry) (x : Mepi) (va : Word) (v : Nat) : Option (State × Cond) :=
  let es := (fmtOf x.fo).size
  let handler := (s.thread tid).flightHandler e.flight
  let late (s : State) (t : Trap) : Option (State × Cond) :=
    some (if ((s.thread tid).flight e.flight).isSome then s.deferFault tid t e.pc e.order handler else s, {})
  match s.mepiTarget tid x va with
  | .error t => late s t
  | .ok (.far _) =>
    let r : Request := { id := 0, tid := tid, op := if x.add then .fadd v else .store (leBytes es v), va := va
                         n := es, pc := e.pc, order := e.order }
    -- R238: nobody awaits the acknowledgement of an abandoned instruction
    some (if ((s.thread tid).flight e.flight).isSome then s.requestStore r handler
      else s.request { r with engine := true }, {})
  | .ok tgt =>
    match if x.add then s.addAt tid tgt va v
      else (s.storeAt tid .store tgt va (leBytes es v)).bind (fun s _ => .ok s {}) with
    | .ok s c => some (s, c)
    | .err s t => late s t
    | .wait => none

/-- R218: some elements of a member's tile are performed in order. -/
def State.putElems (s : State) (core : Nat) (e : MEntry) (bias : Nat → Elem) (l : List (Nat × Nat)) :
    Option (State × Cond) :=
  let x := mepiOf e.block
  l.foldl (fun (st : Option (State × Cond)) p => st.bind fun st =>
    let v := mepiElem x e p.1 p.2 ((s.core core).accAt (32 * x.q + p.1) p.2).v (bias p.2).v
    (st.1.putElem (tidOf core e.slot) e x (x.addr e.a p.1 p.2) v.1).map (fun r => (r.1, (st.2.or v.2).or r.2)))
    (some (s, {}))

/-- R207, R220: one row group: its stores, then, with za = 1, its accumulator elements, whose region is dirty from then on. -/
def State.rowGroup (s : State) (core : Nat) (e : MEntry) (bias : Nat → Elem) (g : Nat) : Option (State × Cond) :=
  let x := mepiOf e.block
  let l := rowGroupOf x e.gangIx g
  (s.putElems core e bias l).map fun r =>
    if x.za && !l.isEmpty then
      (l.foldl (fun s p => s.setAcc core (32 * x.q + p.1) p.2 0) (r.1.pinRegion core (x.q + g / 2) true), r.2)
    else r

/-- R218–R220: the row groups of an mepi of one member from its next group up to group `upto`, and `more` elements of the
group after them (R225), with the entry as what they met leaves it. -/
def State.runMepi (s : State) (core : Nat) (e : MEntry) (upto more : Nat) : Option (State × MEntry) :=
  let x := mepiOf e.block
  let cols := ncols x.n e.gangIx
  let s := s.pinRows core x.q x.m false
  let s := if x.be then s.pinRange core x.bias (4 * cols) false else s
  let own := s.core core
  let bias (c : Nat) : Elem := if x.be then own.elem (x.bias + 4 * c) 4 else ⟨0, false⟩
  let rest := (rowGroupOf x e.gangIx upto).take more
  let done := rowsOf x e.gangIx (16 * e.next) (min x.m (16 * upto) - 16 * e.next) ++ rest
  -- R227 names no source for a bias: DESIGN CHOICE, log 7
  let subs := done.flatMap (fun p =>
    (if (own.accAt (32 * x.q + p.1) p.2).bad then [(2, p.1, 128 * e.gangIx + p.2, 0)] else []) ++
    (if p.1 = 16 * e.next && (bias p.2).bad then [(7, 0, 128 * e.gangIx + p.2, 0)] else []))
  let r := (List.range' e.next (upto - e.next)).foldl (fun (st : Option (State × Cond)) g => st.bind fun st =>
    (st.1.rowGroup core e bias g).map (fun r => (r.1, st.2.or r.2))) (some (s, {}))
  (r.bind fun st => (st.1.putElems core e bias rest).map (fun r => (r.1, st.2.or r.2))).map
    (fun st => (st.1, e.meets subs st.2))

/-! ### mldb and the accumulator moves (R222, R223) -/

/-- The 64-byte pieces of an mldb: address, B-stack place and local column. -/
def piecesOf (x : Mldb) (a : Word) : List (Word × Nat × Nat) :=
  let hb := recordBytes x.k (fmtOf x.fmt).size x.sc
  (List.range x.nc).flatMap fun c => (List.range (hb / 64)).map fun o =>
    (a + BitVec.ofNat 64 (c * x.ldb + 64 * o), c % 64 * 8192 + x.b + c / 64 * hb + 64 * o, c)

/-- R222: the first piece that fails its check. -/
def State.mldbFault (s : State) (core : Nat) (e : MEntry) : Option Trap :=
  (piecesOf (mldbOf e.block) e.a).findSome? (fun p =>
    match s.resolve (tidOf core e.slot) .load p.1 64 false with
    | .ok _ => none
    | .error t => some t)

/-- R222, R403: the addresses of the pieces at another package that nothing has yet asked for. -/
def State.mldbLeft (s : State) (core : Nat) (e : MEntry) : List Word :=
  ((piecesOf (mldbOf e.block) e.a).map (fun p => p.1)).filter (fun va =>
    match s.resolve (tidOf core e.slot) .load va 64 false with
    | .ok (.far _) => (s.askOf e.reqs va).isNone
    | _ => false)
/-- R222, R295, R403: they are asked for, as far as the walker has room. -/
def State.mldbAsk (s : State) (core : Nat) (e : MEntry) : State × List Nat :=
  let tid := tidOf core e.slot
  (s.mldbLeft core e).foldl (fun (st : State × List Nat) va =>
    if st.1.walkerFull tid (st.1.missesOf tid va 1) then st
    else
      (st.1.request { id := 0, tid := tid, op := .load false, va := va, n := 64, pc := e.pc, order := e.order
                      engine := true }, st.2 ++ [st.1.nextId])) (s, [])

/-- R222: one 64-bit word: its bytes, or what became of it. -/
def State.mldbWord (s : State) (tid : Nat) (va : Word) : Did (List Byte) :=
  match s.resolve tid .load va 8 with
  | .ok (.mem l) =>
    if s.watched none l.pa 8 then .wait else s.homeLoad (.engine (coreOf tid)) .load l.pa 8 l.key va
  | .ok tgt => s.loadAt tid .load tgt va 8
  | .error t => .err s t

/-- Bytes into the B-stack. -/
def State.putStack (s : State) (core at_ : Nat) (bs : List Byte) : State :=
  s.modCore core (fun y => { y with
    bstack := y.bstack.writeBytes at_ bs
    bstackBad := y.bstackBad.filter (fun w => !(at_ ≤ w && w + 8 ≤ at_ + bs.length)) })

/-- R222: the panel is copied, the bytes of another package from the answers of the requests for them; gives the first
refusal. None: an access waits (R278, R363). -/
def State.runMldb (s : State) (core : Nat) (e : MEntry) : Option (State × Option Trap × MEntry) :=
  let tid := tidOf core e.slot
  let x := mldbOf e.block
  let zero (at_ c n : Nat) (st : State × Option Trap × MEntry) : State × Option Trap × MEntry :=
    (st.1.putStack core at_ (List.replicate n 0), st.2.1, st.2.2.meets [(6, 0, c, 0)] {})
  let refuse (t : Trap) (at_ c n : Nat) (st : State × Option Trap × MEntry) : State × Option Trap × MEntry :=
    if t.code = 0x0D then zero at_ c n st else (st.1, st.2.1 <|> some t, st.2.2)
  let word (at_ c : Nat) (va : Word) (st : State × Option Trap × MEntry) : Option (State × Option Trap × MEntry) :=
    match st.1.mldbWord tid va with
    | .ok s' bs => some (s'.putStack core at_ bs, st.2)
    | .err s' t => some (refuse t at_ c 8 (s', st.2))
    | .wait => none
  ((piecesOf x e.a).foldl (fun (st : Option (State × Option Trap × MEntry)) p => st.bind fun st =>
    match st.1.askOf e.reqs p.1 with
    | some q =>
      (match q.resp with
       | some (.data bs) => some ((st.1.dropReq q.id).putStack core p.2.1 (bs.take 64), st.2)
       | some (.err t) => some (refuse t p.2.1 p.2.2 64 (st.1.dropReq q.id, st.2))
       | _ => none)
    | none => (List.range 8).foldl (fun st i => st.bind (word (p.2.1 + 8 * i) p.2.2 (p.1 + BitVec.ofNat 64 (8 * i))))
        (some st)) (some (s, none, e)))

/-- The regions of a region word. -/
def regionsOf (r : Block) : List Nat := (List.range (r.toNat / 4 % 4 + 1)).map (r.toNat % 4 + ·)

/-- R223: mzero. -/
def State.runMzero (s : State) (core : Nat) (e : MEntry) : State :=
  (regionsOf e.block).foldl (fun s q =>
    (s.pinRegion core q true).modCore core (fun y => { y with
      acc := y.acc.zero (0x4000 * q) 0x4000
      accBad := y.accBad.filter (fun w => w < 0x4000 * q || 0x4000 * q + 0x4000 ≤ w) })) s

/-- R223, R227: msave; an uncorrectable element is saved as +0. -/
def State.runMsave (s : State) (core : Nat) (e : MEntry) : State × MEntry :=
  let fr := e.block.toNat % 4
  (regionsOf e.block).foldl (fun (st : State × MEntry) q =>
    let at_ := e.a.toNat + 0x4000 * (q - fr)
    let s := (st.1.pinRegion core q false).pinRange core at_ 0x4000 true
    let y := s.core core
    let bad := y.accBad.filter (fun w => 0x4000 * q ≤ w && w < 0x4000 * q + 0x4000)
    let clean := bad.foldl (fun (m : Memory) w => m.writeNat w 4 0) y.acc
    let s := s.setCore core { y with
      scratch := clean.blit (0x4000 * q) y.scratch at_ 0x4000
      scratchBad := y.scratchBad.filter (fun w => w < at_ || at_ + 0x4000 ≤ w) }
    (s, st.2.meets (bad.map (fun w => (2, w / 512, 128 * e.gangIx + w % 512 / 4, 0))) {})) (s, e)

/-- R223, R227: mrest; each element of an uncorrectable word becomes +0. -/
def State.runMrest (s : State) (core : Nat) (e : MEntry) : State × MEntry :=
  let fr := e.block.toNat % 4
  (regionsOf e.block).foldl (fun (st : State × MEntry) q =>
    let at_ := e.a.toNat + 0x4000 * (q - fr)
    let s := (st.1.pinRegion core q true).pinRange core at_ 0x4000 false
    let y := s.core core
    let bad := y.scratchBad.filter (fun w => at_ ≤ w && w < at_ + 0x4000)
    let clean := bad.foldl (fun (m : Memory) w => m.writeNat w 8 0) y.scratch
    let s := s.setCore core { y with
      acc := clean.blit at_ y.acc (0x4000 * q) 0x4000
      accBad := y.accBad.filter (fun w => w < 0x4000 * q || 0x4000 * q + 0x4000 ≤ w) }
    (s, st.2.meets (bad.map (fun w => (6, (w - at_ + 0x4000 * q) / 512, 128 * e.gangIx + (w - at_) % 512 / 4, 0))) {})) (s, e)

/-! ### The sequencer (R208, R215) -/

/-- The cores that start an entry together: its gang for mma and mepi (R215). -/
def membersOf (core : Nat) (e : MEntry) : List Nat :=
  if e.op ≤ 1 then (List.range e.gang).map (fun j => core - e.gangIx + j) else [core]

/-- The entry at the head of a core's queue. -/
def State.mhead (s : State) (core : Nat) : Option MEntry := (s.core core).mq.head?

/-- R215: every member has the same joint instruction at the head of its queue. -/
def State.allAtHead (s : State) (core : Nat) (e : MEntry) : Bool :=
  (membersOf core e).all (fun m => match s.mhead m with
    | some x => x.op = e.op && x.slot = e.slot && x.gang = e.gang && x.join = e.join && m - x.gangIx = core - e.gangIx
    | none => false)

/-- The head of a core's queue changed. -/
def State.modHead (s : State) (core : Nat) (f : MEntry → MEntry) : State :=
  s.modCore core (fun x => match x.mq with
    | h :: r => { x with mq := f h :: r }
    | [] => x)
def State.dropHead (s : State) (core : Nat) : State := s.modCore core (fun x => { x with mq := x.mq.drop 1 })

/-- A matrix instruction ends in a fault found at its start (R24, R219, R222). -/
def State.mfault (s : State) (core : Nat) (e : MEntry) (t : Trap) : State :=
  (s.dropHead core).flightFault (tidOf core e.slot) e.flight t

/-- R215, R219: the head of the queue starts, in lockstep across its gang. An mepi or mldb that fails the checks
at its start has no effect. -/
def execMatrixEntryStart (core : Nat) (s : State) : Out :=
  match s.mhead core with
  | none => .next s
  | some e =>
    if !s.clocked (dieOf core) || e.started || !s.allAtHead core e then .next s
    else
      .next ((membersOf core e).foldl (fun s m =>
        match s.mhead m with
        | none => s
        | some x =>
          match (if x.op = 1 && !x.begun then s.mepiFault m x else if x.op = 2 then s.mldbFault m x else none) with
          | some t => s.mfault m x t
          | none =>
            if x.op = 2 then
              let (s, ids) := s.mldbAsk m x
              s.modHead m (fun h => { h with started := true, reqs := ids })
            else s.modHead m (fun h => { h with started := true })) s)

/-- R183 item 4, R209, R278: a scratchpad byte that an instruction reads or writes, an mma in its depth groups below `upto`
not yet done, lies above a channel's watermark. `lead` is the block of member 0. -/
def State.mguarded (s : State) (lead : Block) (core : Nat) (e : MEntry) (upto : Nat) : Bool :=
  match e.op with
  | 0 =>
    let x := mmaFor lead e.block
    let on (a n : Nat) : Bool := s.watched (some (core - e.gangIx)) a n
    let w := x.depth * (fmtOf x.fa).size
    let b := x.depth * e.next / 32
    (List.range x.m).any (fun i => on (x.a + i * x.lda + e.next * w) ((upto - e.next) * w) ||
      x.sc && on (x.as + 64 * i + b) (min (ceilDiv x.k 32) (ceilDiv (x.depth * upto) 32) - b))
  | 1 =>
    let x := mepiOf e.block
    x.be && s.watched (some core) x.bias (4 * ncols x.n e.gangIx)
  | 4 | 5 => s.watched (some core) e.a.toNat (0x4000 * (e.block.toNat / 4 % 4 + 1))
  | _ => false

/-- The head of a queue can complete. -/
def State.mready (s : State) (lead : Block) (core : Nat) (e : MEntry) : Bool :=
  e.started && !s.mguarded lead core e (mmaOf e.block).groups &&
  e.reqs.all (fun id => match s.req id with
    | some r => r.resp.isSome
    | none => true)

/-- One member's instruction is performed, with the refusal that an mldb met, and the entry with all it met. None: an access
of it waits. -/
def State.mperform (s : State) (lead : Block) (core : Nat) (e : MEntry) : Option (State × Option Trap × MEntry) :=
  let clean (r : State × MEntry) : Option (State × Option Trap × MEntry) := some (r.1, none, r.2)
  match e.op with
  | 0 => clean (s.runMma lead core e (mmaOf e.block).groups)
  | 1 => (s.runMepi core e (mepiOf e.block).groups 0).bind clean
  | 2 => s.runMldb core e
  | 3 => clean (s.runMzero core e, e)
  | 4 => clean (s.runMsave core e)
  | _ => clean (s.runMrest core e)

/-- R209: one member's instruction is performed and complete, with what it met in DERR and MSTAT; a refusal that an mldb met
is a deferred fault (R24, R222). None: an access of it waits. -/
def State.mcomplete (s : State) (lead : Block) (core : Nat) (e : MEntry) : Option State :=
  let tid := tidOf core e.slot
  (s.mperform lead core e).map fun r =>
    let s := r.1.mreport core e r.2.2.subs r.2.2.cond
    let f := (s.thread tid).flight e.flight
    let s := (s.dropHead core).land tid e.flight
    match r.2.1, f with
    | some t, some f => s.deferFault tid t e.pc e.order f.handler
    | _, _ => s

/-- The block of member 0 of an entry's gang. -/
def State.leadBlock (s : State) (core : Nat) (e : MEntry) : Block :=
  match s.mhead (core - e.gangIx) with
  | some x => x.block
  | none => e.block

/-- R209, R215: the head of the queue completes, in every member of its gang; an mldb first asks for what lies at another
package by now. -/
def execMatrixEntryComplete (core : Nat) (s : State) : Out :=
  match s.mhead core with
  | none => .next s
  | some e =>
    let lead := s.leadBlock core e
    let ms := (membersOf core e).filterMap (fun m => match s.mhead m with
      | some x => if x.started && x.op = e.op && x.slot = e.slot && x.join = e.join then some (m, x) else none
      | none => none)
    if !s.clocked (dieOf core) || !e.started || ms.any (fun m => !s.mready lead m.1 m.2) then .next s
    else if e.op = 2 && !(s.mldbLeft core e).isEmpty then
      let r := s.mldbAsk core e
      .next (r.1.modHead core (fun h => { h with reqs := h.reqs ++ r.2 }))
    else .next ((ms.foldl (fun (st : Option State) m => st.bind (·.mcomplete lead m.1 m.2)) (some s)).getD s)

/-- R207: a refill of a region for the current context. -/
def execAccRegionRefill (core region : Nat) (s : State) : Out :=
  match (s.core core).accFrames[region]? with
  | some f => if f.ctx = some (s.core core).sctx then .next s else .next (s.swapRegion core region)
  | none => .next s
/-- R128: a refill of a scratch frame for the current context. -/
def execScratchFrameRefill (core frame : Nat) (s : State) : Out :=
  if (s.core core).pinned frame then .next s else .next (s.swapFrame core frame)

end Sys2Proof.Machine
end

