-- ==== Sys2Proof/Machine/System.lean ====
section
/-! DEFINITION. The system instructions (R87–R96), the state registers (R16–R21), window transfers (R15) and
the stochastic stream (R96). -/

namespace Sys2Proof.Machine

/-! ### State registers (R16–R21, R92) -/

/-- R15: bit 0 of an address register is reserved. -/
def evenW (v : Word) : Word := v &&& ~~~1

/-- R48, R49: the check of a privileged instruction. A follower's leader has made it, unless the leader suppressed the
instruction: then `fwd` is set and the follower makes it itself (DEDUCED, log 24). -/
def State.mayPrivileged (s : State) : Bool := s.me.mode || (s.me.gang && s.me.gangIx ≠ 0 && s.fwd.isNone)

/-- WIN0–WIN3 (R130): bits [59:52] and [7:0] are reserved. -/
def winMask : Word := 0xF00FFFFFFFFFFF00

/-- R16, R17: what a state register reads as. -/
def State.readReg (s : State) (x : Nat) : Except Stop Word :=
  let t := s.me
  let c := s.core s.myCore
  let handler (v : Word) : Except Stop Word := if s.mayPrivileged then .ok v else .error s.privileged
  match x with
  | 0x000 => .ok t.status
  | 0x001 => .ok t.cause
  | 0x002 => .ok t.epc
  | 0x003 => .ok t.eval
  | 0x004 => .ok t.hvec
  | 0x005 => .ok t.fpc
  | 0x008 => .ok t.wsp
  | 0x009 => .ok t.wdepth
  | 0x00C => handler (t.readCode 100)
  | 0x00D => handler (t.readCode 101)
  | 0x00E => handler (t.readCode 102)
  | 0x00F => handler (t.readCode 103)
  | 0x010 => .ok c.tagReady
  | 0x011 => .ok t.taskix
  | 0x012 => .ok t.joina
  | 0x013 => .ok t.launchWord
  | 0x018 => .ok (BitVec.ofNat 64 (coreid s.cur))
  | 0x019 => .ok (BitVec.ofNat 64 t.gangIx)
  | 0x01A => .ok (BitVec.ofNat 64 t.gangSz)
  | 0x020 => .ok t.seed
  | 0x021 => .ok t.srctr
  | 0x030 => .ok s.gtime
  | 0x040 => .ok (vstatWord t c (slotOf s.cur))
  | 0x041 => .ok (mstatWord t c (slotOf s.cur))
  | 0x042 => .ok c.derr.word
  | 0x050 => handler c.win[0]
  | 0x051 => handler c.win[1]
  | 0x052 => handler c.win[2]
  | 0x053 => handler c.win[3]
  | _ => .error s.badOperand

/-- R354: the groups that the partition of the thread in hand has accepted. -/
def State.groupOk (s : State) (g : Nat) : Bool := (s.part (s.partOf s.cur)).facc1.getLsbD g

/-- R18: a write of STATUS: task mode reaches TCM and RM alone. -/
def State.writeStatus (s : State) (v : Word) : Except Stop State :=
  let rm := v.extractLsb' 3 3
  if rm = 4 && !s.groupOk 1 then .error s.notAccepted
  else if rm.toNat > 4 then .error s.badOperand
  else
    .ok (s.modMe (fun t =>
      let t := { t with rm := rm, tcm := v.getLsbD 2 }
      if t.mode then { t with pskc := v.extractLsb' 13 3, pmode := v.getLsbD 8 } else t))

/-- R130: a window register of the core. -/
def State.writeWin (s : State) (i : Nat) (v : Word) : State :=
  s.modCore s.myCore (fun c => { c with win := if h : i < 4 then c.win.set i (v &&& winMask) else c.win })

/-- R17: what a write to a state register does. -/
def State.writeReg (s : State) (x : Nat) (v : Word) : Except Stop State :=
  -- a register that handler mode alone may write
  let handler (r : Except Stop State) : Except Stop State := if s.mayPrivileged then r else .error s.privileged
  let mine (f : Thread → Thread) : Except Stop State := handler (.ok (s.modMe f))
  let fixed : Except Stop State := handler (.ok s)
  match x with
  | 0x000 => s.writeStatus v
  | 0x001 => mine (fun t => { t with causeCode := v.extractLsb' 0 8, causeSub := v.extractLsb' 8 8
                                     causeDef := v.getLsbD 16, causeMult := v.getLsbD 17 })
  | 0x002 => mine (fun t => { t with epc := evenW v })
  | 0x003 => mine (fun t => { t with eval := v })
  | 0x004 => mine (fun t => { t with hvec := evenW v })
  | 0x005 => mine (fun t => { t with fpc := evenW v })
  | 0x008 => mine (fun t => { t with wsp := v &&& ~~~63 })
  | 0x009 =>
    handler (if v.toNat % 16 > 9 then .error s.badOperand
      else .ok (s.modMe (fun t => { t with depth := v.toNat % 16, spilled := bits v.toNat 31 8 })))
  | 0x00C => mine (fun t => t.writeCode 100 v)
  | 0x00D => mine (fun t => t.writeCode 101 v)
  | 0x00E => mine (fun t => t.writeCode 102 v)
  | 0x00F => mine (fun t => t.writeCode 103 v)
  | 0x010 => fixed
  | 0x011 => fixed
  | 0x012 => mine (fun t => { t with joina := v })
  | 0x013 => fixed
  | 0x018 => fixed
  | 0x019 => fixed
  | 0x01A => fixed
  | 0x020 => mine (fun t => { t with seed := v })
  | 0x021 => mine (fun t => { t with srctr := v })
  | 0x030 => fixed
  | 0x040 => .ok (s.modMe (fun t => { t with vcond := t.vcond.clear v }))
  | 0x041 => .ok (s.modMe (fun t => { t with mcond := t.mcond.clear v }))
  | 0x042 =>
    handler (.ok (s.modCore s.myCore (fun c => { c with
      derr := if v.getLsbD 63 then {} else if v.getLsbD 62 then { c.derr with mult := false } else c.derr })))
  | 0x050 => handler (.ok (s.writeWin 0 v))
  | 0x051 => handler (.ok (s.writeWin 1 v))
  | 0x052 => handler (.ok (s.writeWin 2 v))
  | 0x053 => handler (.ok (s.writeWin 3 v))
  | _ => .error s.badOperand

/-- R92. -/
def execMfs (d : Reg) (x : BitVec 12) (s : State) : Out := s.finish 4 ((s.readReg x.toNat).map (fun v => s.wr d v))
/-- R92, R93. -/
def execMts (a : Reg) (x : BitVec 12) (s : State) : Out := s.finish 4 (s.writeReg x.toNat (s.rd a))

/-! ### System instructions (R87–R91) -/

/-- R87. -/
def execNop (s : State) : Out := s.finish 4 (.ok s)

/-- R88: the thread parks until the supervisor core replies. -/
def execTrap (d : Reg) (n : BitVec 10) (s : State) : Out :=
  s.finish 4 (.error (.park (.service n.toNat (s.rd d) s.me.taskix (coreid s.cur) (s.me.code d))))

/-- R124: the core that a COREID with its slot names. -/
def coreOfId (id : Nat) : Nat := id % 1024

/-- R368, R372: the reply to a service request, as it was sent, and its other effect. -/
def State.service (s : State) (n : Nat) (v taskix : Word) (id : Nat) : State × Word :=
  if n = 0 then (s, 0)
  else if n = 1 then (s, (s.pkg.build ++ s.pkg.secVersion : Word))
  else if n = 2 then (s, BitVec.ofNat 64 (s.pkg.peer.toNat + (s.die (dieOf (coreOfId id))).part * 0x1000))
  else if n = 3 then (s.postEvent (some (dieOf (coreOfId id))) 0x10 (BitVec.ofNat 64 id) v, 0)
  else if s.pkg.services.contains n then (s, Config.serviceReply n id taskix v)
  else (s, BitVec.allOnes 64)

/-- R368: the service requests that wait at a die, each with the order in which it arrived: those of parked threads and of
saved contexts. -/
def State.servicesAt (s : State) (d : Nat) : List Nat :=
  let at_ (t : Thread) : Option Nat := match t.wait with
    | some (.service _ _ _ id _) => if dieOf (coreOfId id) = d then some t.parkedAt else none
    | _ => none
  s.tids.filterMap (fun k => if (s.thread k).life = .parked then at_ (s.thread k) else none) ++
    s.contexts.filterMap (fun c => at_ c.thread)

/-- The order in which a thread that waits for a reply, or its saved context, was parked. -/
def State.askedAt (s : State) (tid : Nat) : Nat :=
  match s.savedWait tid with
  | some c => c.thread.parkedAt
  | none => (s.thread tid).parkedAt

/-- R88, R368: the supervisor core serves the requests of its die in the order of their arrival; the reply reaches the
thread, or its saved context. -/
def execServiceReply (core slot : Nat) (s : State) : Out :=
  let tid := tidOf core slot
  match s.awaits tid with
  | some (.service n v taskix id d) =>
    if (s.servicesAt (dieOf (coreOfId id))).any (fun k => k < s.askedAt tid) then .next s
    else
      let (s, r) := s.service n v taskix id
      .next (s.answer tid d r)
  | _ => .next s

/-- R89: work of handler mode that rte waits for. -/
def Thread.handlerWork (t : Thread) : Bool := t.flights.any (fun f => f.handler) || t.unacked.any (fun u => u.2)

/-- R89. -/
def execRte (s : State) : Out :=
  if !s.mayPrivileged then s.finishAt (.error s.privileged)
  else if s.me.handlerWork then s.finishAt (.error .wait)
  else .next (s.returnFromTrap s.cur)

/-- R91: the slots of a core that are ready under R28 and not removed by a yield; the issue stage keeps of them those
that R123 calls ready in the clock of the yield (`State.pruneYields`). -/
def State.readySlots (s : State) (core : Nat) : List Nat :=
  (List.range 4).filter (fun k => (s.thread (tidOf core k)).life = .ready && !s.yieldHolds (tidOf core k))

/-- R91: in a gang the leader's yield pauses the whole stream, so a follower's copy of it does nothing of its own. -/
def execYield (s : State) : Out :=
  let others := (s.readySlots s.myCore).filter (· ≠ slotOf s.cur)
  s.finish 4 (.ok (if s.me.gang && s.me.gangIx ≠ 0 then s
    else s.modMe (fun t => { t with yielding := true, yieldSet := others })))

/-! ### Window transfers (R15, R94, R95) -/

/-- The eight registers of a physical block. -/
def Thread.blockBytes (t : Thread) (b : Nat) : List Byte :=
  (List.range 8).flatMap (fun i => leBytes 8 (t.readCode (8 * b + i)).toNat)

/-- R95: the access of a window transfer; `after` is the effect once it has been performed. On a page of another
package the instruction waits at issue for the answer. -/
def State.transfer (s : State) (op : ReqOp) (va : Word) (after : State → List Byte → State) : Out :=
  let fail (s : State) (t : Trap) : Out := .next (s.takeTrap s.cur t s.me.pc s.me.pc false false)
  let acc : Acc := match op with
    | .store _ => .store
    | _ => .load
  if s.scPending then .next { s with stalled := true }
  else match s.resolve s.cur acc va 64 false with
  | .error t => fail (s.reportFault s.myDie t) t
  | .ok (.far _) =>
    match s.retry { id := 0, tid := s.cur, op := op, va := va, n := 64, pc := s.me.pc, order := s.order } with
    | (s', none) => .next { s' with stalled := true }
    | (s', some (.err t)) => fail s' t
    | (s', some (.data bs)) => .next ((after s' bs).advance 4)
    | (s', some .done) => .next ((after s' []).advance 4)
  | .ok tgt =>
    if s.behind s.cur s.nextId 64 [tgt] then .next { s with stalled := true }
    else match op with
    | .store bs =>
      match s.storeAt s.cur .store tgt va bs with
      | .wait => .next { s with stalled := true }
      | .err s' t => fail s' t
      | .ok s' _ => .next ((after s' []).advance 4)
    | _ =>
      match s.loadAt s.cur .load tgt va 64 with
      | .wait => .next { s with stalled := true }
      | .err s' t => fail s' t
      | .ok s' bs => .next ((after s' bs).advance 4)

/-- R15, R95: spills the oldest resident block. -/
def execWspill (s : State) : Out :=
  let t := s.me
  if !s.mayPrivileged then s.finish 4 (.error s.privileged)
  else if t.depth = 0 || t.spilled = 0xFFFFFF then s.finish 4 (.error s.badOperand)
  else
    s.transfer (.store (t.blockBytes ((t.wb + 12 - t.depth) % 12))) t.wsp (fun s _ =>
      s.modMe (fun t => { t with wsp := t.wsp + 64, depth := t.depth - 1, spilled := t.spilled + 1 }))

/-- R15, R95: fills the block below the oldest resident one. -/
def execWfill (s : State) : Out :=
  let t := s.me
  if !s.mayPrivileged then s.finish 4 (.error s.privileged)
  else if t.depth = 9 || t.spilled = 0 then s.finish 4 (.error s.badOperand)
  else
    let b := (t.wb + 12 - t.depth - 1) % 12
    s.transfer (.load false) (t.wsp - 64) (fun s bs =>
      s.modMe (fun t =>
        let t := (List.range 8).foldl (fun (t : Thread) i =>
          t.writeCode (8 * b + i) (BitVec.ofNat 64 (leNat ((bs.drop (8 * i)).take 8)))) t
        { t with wsp := t.wsp - 64, depth := t.depth + 1, spilled := t.spilled - 1 }))

/-- R94. -/
def execWstat (d : Reg) (s : State) : Out :=
  let t := s.me
  s.ends 4 d (BitVec.ofNat 64 (t.spilled * 256 + t.depth * 16 + (9 - t.depth)))

/-! ### The stochastic stream (R96) -/

/-- R96. -/
def execRng (d : Reg) (s : State) : Out :=
  let t := s.me
  s.finish 4 (.ok ((s.wr d (drawG t.seed t.taskix t.srctr)).modMe (fun t => { t with srctr := t.srctr + 1 })))

end Sys2Proof.Machine
end

