-- ==== Sys2Proof/Machine/Boundary.lean ====
section
/-! DEFINITION. What happens at an instruction boundary before an instruction executes: fetching its halfwords
(R35, R403), suppression (R19), the refusals of decode steps 2 to 5 (R45, R48, R353), and the passing of a
clock. -/

namespace Sys2Proof.Machine

/-! ### Fetching (R32, R33, R35) -/

/-- Halfwords from `va` on, `n` of them. -/
def State.fetchRun (s : State) (tid : Nat) (va : Word) : Nat → Did (List Byte)
  | 0 => .ok s []
  | n + 1 =>
    (s.fetchHalf tid va).bind fun s bs =>
      (s.fetchRun tid (va + 2) n).bind fun s r => .ok s (bs ++ r)

/-- The bytes of the instruction at `pc`: its first halfword, its second, its inline words. -/
def State.fetchInstr (s : State) (tid : Nat) (pc : Word) : Did (List Byte) :=
  (s.fetchHalf tid pc).bind fun s h =>
    match h with
    | [b0, b1] =>
      if b0.getLsbD 0 then
        (s.fetchHalf tid (pc + 2)).bind fun s k =>
          match k with
          | [b2, b3] =>
            (s.fetchRun tid (pc + 4) (inlineBytes (ofBytes32 b0 b1 b2 b3) / 2)).bind fun s r =>
              .ok s ([b0, b1, b2, b3] ++ r)
          | _ => .ok s h
      else .ok s h
    | _ => .ok s h

/-- R403: the first halfword of an instruction whose page is on another package and whose bytes are not here. -/
def State.missing (s : State) (tid : Nat) (pc : Word) : Option Word :=
  (List.range 10).findSome? (fun i =>
    let va := pc + BitVec.ofNat 64 (2 * i)
    match s.fetchHalf tid va with
    | .wait => some va
    | _ => none)

/-- Addressed bytes. -/
def addressed (va : Nat) : List Byte → List (Nat × Byte)
  | [] => []
  | b :: r => (va, b) :: addressed (va + 1) r

/-- R35: the cause of a fetch whose target on another package refused it: uncorrectable data (kind 4) and a key mismatch
(kind 3) give the causes that the rule names for them; the other refusals keep theirs (DESIGN CHOICE, log 22). -/
def Trap.ofFetch (t : Trap) (va : Word) : Trap :=
  if t.code = 0x10 && t.sub = 4 then { code := 0x0D, eval := va }
  else if t.code = 0x05 || (t.code = 0x10 && t.sub = 3) then { code := 0x05, sub := 3, eval := va }
  else { t with eval := va }

/-- R403: the bytes that a fetch asks another package for: the halfword through a page of mode 1, the whole line, as of a
load that misses, through the other modes (DESIGN CHOICE, log 22: R403 speaks of loads alone). -/
def State.fetchSpan (s : State) (tid : Nat) (va : Word) : Word × Nat :=
  match s.translate (dieOf (coreOf tid)) va with
  | .ok l => if l.mode = 1 then (va, 2) else (va &&& ~~~255, 256)
  | .error _ => (va &&& ~~~255, 256)

/-- R101, R403: the fetch waits for bytes of another package. They stand in the thread's buffer, and in the remote-data
cache where the leaf allows. -/
def State.fetchFar (s : State) (tid : Nat) (va : Word) : Did Unit :=
  let (start, n) := s.fetchSpan tid va
  let r : Request := { id := 0, tid := tid, op := .fetch, va := start, n := n
                       pc := (s.thread tid).pc, order := s.order }
  match s.retry r with
  | (s', some (.data bs)) =>
    .ok (s'.modThread tid (fun t => { t with fetchBuf := t.fetchBuf ++ addressed start.toNat bs })) ()
  | (s', some (.err t)) => .err s' (t.ofFetch va)
  | (s', some .done) => .ok s' ()
  | (s', none) => .ok s' ()

/-! ### What an instruction of the issue stage is -/

/-- The first word that EVAL shows (R22): a halfword stands alone. -/
def firstWord : Parcel → BitVec 32
  | .half h => h.zeroExtend 32
  | .word w => w
  | .lit w _ => w
  | .block w _ => w

/-- R353: the major that FACC0 must accept; a 16-bit form is never refused. -/
def majorOf : Parcel → Option Nat
  | .half _ => none
  | .word w => some (fMajor w)
  | .lit w _ => some (fMajor w)
  | .block w _ => some (fMajor w)

/-- R354: a logarithmic format. -/
def isLog (f : Nat) : Bool := f = 5 || f = 6

/-- R354: the groups that an instruction uses; mts writing RM is checked where it writes (group 1). -/
def groupsOf (i : Instr) : List Nat :=
  let on (g : Nat) (b : Bool) : List Nat := if b then [g] else []
  let amo (sc : BitVec 3) : List Nat := on 4 (sc = 5)
  match i with
  | .vcvt s _ _ f _ => on 0 (isLog s.toNat || isLog f.toNat)
  | .mma _ p => on 0 (isLog (mmaOf p).fa || isLog (mmaOf p).fb) ++ on 2 (mmaOf p).sc
  | .mepi _ _ p => on 0 (isLog (mepiOf p).fo)
  | .mldb _ _ p => on 0 (isLog (mldbOf p).fmt) ++ on 2 (mldbOf p).sc
  | .ldScW _ _ _ _ => [3]
  | .ldScD _ _ _ _ => [3]
  | .stScW _ _ _ _ => [3]
  | .stScD _ _ _ _ => [3]
  | .fence sc o => on 3 (o = 3) ++ on 4 (sc = 5)
  | .amoSwap _ sc _ _ _ _ => amo sc
  | .amoAdd _ sc _ _ _ _ => amo sc
  | .amoAnd _ sc _ _ _ _ => amo sc
  | .amoOr _ sc _ _ _ _ => amo sc
  | .amoXor _ sc _ _ _ _ => amo sc
  | .amoMin _ sc _ _ _ _ => amo sc
  | .amoMax _ sc _ _ _ _ => amo sc
  | .amoMinu _ sc _ _ _ _ => amo sc
  | .amoMaxu _ sc _ _ _ _ => amo sc
  | .amoCas _ sc _ _ _ _ => amo sc
  | _ => []

/-- R353: what the driver has accepted for the partition of a thread. -/
def State.accepted (s : State) (tid : Nat) (p : Parcel) (i : Instr) : Bool :=
  let q := s.part (s.partOf tid)
  (match majorOf p with
   | none => true
   | some m => q.facc0.getLsbD m) && (groupsOf i).all (fun g => q.facc1.getLsbD g)

/-! ### Counting (R51, R91) -/

/-- R51, R24: an instruction of a thread has reached issue; `old` are the flights it counts for. -/
def State.countIssue (s : State) (tid : Nat) (old : List Nat) : State :=
  let s := s.modThread tid (fun t => { t with
    fetchBuf := []
    flights := t.flights.map (fun f =>
      if old.contains f.id then { f with left := f.left.map (· - 1), later := true } else f) })
  { s with order := s.order + 1 }

/-- R24: an instruction that no count covers has reached issue. -/
def State.notedIssue (s : State) (tid : Nat) (old : List Nat) : State :=
  let s := s.modThread tid (fun t => { t with
    fetchBuf := []
    flights := t.flights.map (fun f => if old.contains f.id then { f with later := true } else f) })
  { s with order := s.order + 1 }

/-- R51: some count lets no further instruction issue. -/
def Thread.held (t : Thread) : Bool := t.flights.any (fun f => f.left = some 0)

/-- R91: a slot of a core has issued. -/
def State.yieldSeen (s : State) (core slot : Nat) : State :=
  (List.range 4).foldl (fun s k =>
    let t := s.thread (tidOf core k)
    if t.yielding && k ≠ slot && t.yieldSet.contains slot then
      s.modThread (tidOf core k) (fun t => { t with yieldSet := t.yieldSet.filter (· ≠ slot) })
    else s) s

/-- R352: the part of a correction that `n` clocks may make: 1 ns in 24,000 clocks (10 µs). -/
def State.slew (s : State) (n : Nat) : State :=
  let k : Int := ((s.clock + n) / 24000 - s.clock / 24000 : Nat)
  let d := max (-k) (min k s.pkg.gtSlew)
  s.modPkg (fun p => { p with gtOffset := p.gtOffset + d, gtSlew := p.gtSlew - d })

/-- R351: at the end of each millisecond PWR and PMAX take its mean (DESIGN CHOICE, log 58). -/
def State.drawPower (s : State) (n : Nat) : State :=
  let a := s.clock / 2400000
  let b := (s.clock + n) / 2400000
  if a = b then s
  else s.modPkg (fun p => { p with
    pwr := Config.power b
    pmax := (List.range (b - a)).foldl (fun m i =>
      if m.toNat < (Config.power (a + 1 + i)).toNat then Config.power (a + 1 + i) else m) p.pmax })

/-- R3: package clocks pass; bounded waits count them (R246, R289). -/
def State.tick (s : State) (n : Nat) : State :=
  let waits := s.tids.filter (fun t => s.clocked (dieOf (coreOf t)) && match (s.thread t).waits with
    | some (.jwait _ _ _ _ _) => true
    | some (.qpop _ _ _ _) => true
    | some (.qpush _ _ _ _) => true
    | _ => false)
  let s := waits.foldl (fun s t => s.modThread t (fun x => { x with wait := match x.wait with
    | some (.jwait c i a l u) => some (.jwait c i a l (u + n))
    | some (.qpop q d l u) => some (.qpop q d l (u + n))
    | some (.qpush q d l u) => some (.qpush q d l (u + n))
    | w => w })) s
  { (s.slew n).drawPower n with clock := s.clock + n, phase := 0 }

/-! ### Suppression (R19, R86) and undefined encodings (R45) -/

/-- One suppressed instruction of `len` bytes. -/
def State.suppress (s : State) (tid len : Nat) : State :=
  let old := (s.thread tid).flights.map (·.id)
  (s.modThread tid (fun t => { t with skc := t.skc - 1, pc := t.pc + BitVec.ofNat 64 len })).countIssue tid old

/-- R35: a fetch fault; SKC is not decremented, and no count is (R51: trap entry is not counted). -/
def State.fetchFault (s : State) (tid : Nat) (t : Trap) : State :=
  (s.takeTrap tid t (s.thread tid).pc (s.thread tid).pc false false).modThread tid (fun t => { t with fetchBuf := [] })

/-- The length of the instruction in some bytes. -/
def lengthOf (bs : List Byte) : Nat := bs.length

/-- R19: the thread in hand suppresses the instruction at its PC. -/
def execSuppressedInstruction (s : State) : Out :=
  let t := s.me
  if t.life ≠ .ready || t.skc = 0 || t.held then .next { s with stalled := true }
  else match s.fetchInstr s.cur t.pc with
  | .ok s bs => .next (s.suppress s.cur (lengthOf bs))
  | .err s e => .next (s.fetchFault s.cur e)
  | .wait =>
    match s.fetchFar s.cur ((s.missing s.cur t.pc).getD t.pc) with
    | .err s e => .next (s.fetchFault s.cur e)
    | .ok s _ => .next { s with stalled := true }
    | .wait => .next { s with stalled := true }

/-- R45, R43, R22: the trap of an encoding that is no instruction; EVAL is its first word. -/
def execUndefinedEncoding (sub : Nat) (word : BitVec 32) (s : State) : Out :=
  s.finish 4 (.error (.trap { code := 0x01, sub := BitVec.ofNat 8 sub, eval := word.zeroExtend 64 }))

end Sys2Proof.Machine
end

