-- ==== Sys2Proof/Machine/Counters.lean ====
section
/-! DEFINITION. Trigger counters and the firing of entries (R408–R418): every update goes through here. -/

namespace Sys2Proof.Machine

def State.modTrg (s : State) (f : Triggers → Triggers) : State := { s with trg := f s.trg }
def State.counter (s : State) (c : Nat) : Counter := s.trg.counters.get {} c
def State.setCounter (s : State) (c : Nat) (x : Counter) : State :=
  s.modTrg (fun t => { t with counters := t.counters.put c x })
def State.entry (s : State) (e : Nat) : TEntry := s.trg.entries.get {} e
def State.setEntry (s : State) (e : Nat) (x : TEntry) : State :=
  s.modTrg (fun t => { t with entries := t.entries.put e x })
def State.modEntry (s : State) (e : Nat) (f : TEntry → TEntry) : State := s.setEntry e (f (s.entry e))
def State.group (s : State) (g : Nat) : Group := s.trg.groups.get {} g
def State.setGroup (s : State) (g : Nat) (x : Group) : State :=
  s.modTrg (fun t => { t with groups := t.groups.put g x })
def State.modGroup (s : State) (g : Nat) (f : Group → Group) : State := s.setGroup g (f (s.group g))
def Triggers.queue (t : Triggers) (q : Nat) : List Nat := if h : q < 4 then t.queues[q] else []
def State.setQueue (s : State) (q : Nat) (l : List Nat) : State :=
  s.modTrg (fun t => if h : q < 4 then { t with queues := t.queues.set q l } else t)

/-! ### Descriptor fields (R413) -/

def TEntry.kind (e : TEntry) : Nat := bits e.w0.toNat 63 60
def TEntry.tctr (e : TEntry) : Nat := bits e.w0.toNat 59 48
def TEntry.dl (e : TEntry) : Nat := bits e.w0.toNat 47 40
def TEntry.thr (e : TEntry) : Nat := bits e.w0.toNat 39 0
def TEntry.cen (e : TEntry) : Bool := e.w1.getLsbD 63
def TEntry.cctr (e : TEntry) : Nat := bits e.w1.toNat 62 51
def TEntry.rcen (e : TEntry) : Bool := e.w1.getLsbD 50
def TEntry.rctr (e : TEntry) : Nat := bits e.w1.toNat 49 38
def TEntry.nar (e : TEntry) : Bool := e.w1.getLsbD 37
def TEntry.len (e : TEntry) : Nat := bits e.w1.toNat 31 0
/-- R413: an entry that trg.post may take. -/
def TEntry.postable (e : TEntry) : Bool := e.state ≠ 1 && e.state ≠ 2

/-! ### Addresses (R421) -/

/-- R421: the 0xF4 addresses of the objects. -/
def counterAddr (c : Nat) : Word := BitVec.ofNat 64 (0xF4 * 2 ^ 56 + 0x400000 + 0x20 * c)
def entryAddr (e : Nat) : Word := BitVec.ofNat 64 (0xF4 * 2 ^ 56 + 0x500000 + 0x40 * e)
def groupAddr (g : Nat) : Word := BitVec.ofNat 64 (0xF4 * 2 ^ 56 + 0x600000 + 0x80 * g)

/-! ### Firing (R416, R417) -/

/-- R416: an armed entry fires; it joins the trigger queue of its partition. -/
def State.fireEntry (s : State) (e : Nat) : State :=
  let x := s.entry e
  let c := s.counter x.tctr
  let s := s.setEntry e { x with state := 2, ftime := s.gtime, started := false, ended := none }
  let s := s.setCounter x.tctr { c with armed := c.armed - 1 }
  s.setQueue x.part (s.trg.queue x.part ++ [e])

/-- R416, R417: the armed entries of a counter whose threshold is met, in the order of firing. -/
def State.metEntries (s : State) (c : Nat) : List Nat :=
  let v := (s.counter c).value.toNat
  let es := s.trg.entries.cells.filter (fun p => p.2.state = 1 && p.2.tctr = c && p.2.thr ≤ v)
  (sortBy (fun (a b : Nat × TEntry) => a.2.thr < b.2.thr || (a.2.thr = b.2.thr && a.1 ≤ b.1)) es).map Prod.fst

/-- R425: a wait on the counter is over. -/
def Counter.waitOver (c : Counter) (bound : Word) : Bool := bound.toNat ≤ c.value.toNat || c.err || c.cfail

/-- R425: the waits that a change of the counter ends. -/
def State.wakeCounter (s : State) (c : Nat) : State :=
  let x := s.counter c
  (s.parkedWith (fun _ w => match w with
    | .ctrWait c' b _ => c' = c && x.waitOver b
    | _ => false)).foldl (fun s t => match (s.thread t).waits with
      | some (.ctrWait _ _ d) => s.wake t d x.value
      | _ => s) s

/-- R412: what follows every update of a counter. -/
def State.counterChanged (s : State) (c : Nat) : State := ((s.metEntries c).foldl State.fireEntry s).wakeCounter c

/-- R411: an add saturates. -/
def State.counterAdd (s : State) (c : Nat) (n : Word) : State :=
  let x := s.counter c
  let v := x.value.toNat + n.toNat
  (s.setCounter c (if v < 2 ^ 64 then { x with value := BitVec.ofNat 64 v }
    else { x with value := BitVec.allOnes 64, sat := true })).counterChanged c

/-- R411: a set. -/
def State.counterPut (s : State) (c : Nat) (n : Word) : State :=
  (s.setCounter c { s.counter c with value := n }).counterChanged c

/-- R415: a failed entry marks its completion counter. -/
def State.counterErr (s : State) (c e : Nat) : State :=
  let x := s.counter c
  (s.setCounter c { x with err := true, fent := if x.err then x.fent else e }).wakeCounter c

/-- R434: a collective that did not end DONE marks its counter. -/
def State.counterCfail (s : State) (c : Nat) : State :=
  (s.setCounter c { s.counter c with cfail := true }).wakeCounter c

end Sys2Proof.Machine
end

