-- ==== Sys2Proof/Machine/EngineIO.lean ====
section
/-! DEFINITION. Runs of bytes as an engine reads and writes them for a thread (R276, R287): page by page, at the
home of each byte, with pages of other packages reached by requests of their own (R403). -/

namespace Sys2Proof.Machine

/-- A piece of a run. -/
inductive Piece where
  | here (p : Span)
  | far (start len : Nat) (va : Word)
  deriving DecidableEq, Repr

/-- The pieces of `[va, va + n)`, from offset `at_` on. -/
def State.runPiecesFrom (s : State) (tid : Nat) (acc : Acc) (va : Word) (n : Nat) : Nat → Nat → Except Trap (List Piece)
  | 0, _ => .ok []
  | fuel + 1, at_ =>
    if n ≤ at_ then .ok []
    else
      let a := va + BitVec.ofNat 64 at_
      let m := min (n - at_) (if space a ≤ 1 then 2 ^ 18 - a.toNat % 2 ^ 18 else n - at_)
      let cons (p : Piece) : Except Trap (List Piece) :=
        match s.runPiecesFrom tid acc va n fuel (at_ + m) with
        | .ok r => .ok (p :: r)
        | .error t => .error t
      match s.resolve tid acc a 64 false with
      | .error t => .error t
      | .ok (.scratch c off) =>
        if off + m > scratchSize then
          .error { code := 0x04, sub := 1, eval := a + BitVec.ofNat 64 (scratchSize - off) }
        else cons (.here { start := at_, len := m, core := some c, addr := off })
      | .ok (.mem l) => cons (.here { start := at_, len := m, core := none, addr := l.pa, key := l.key })
      | .ok (.far _) => cons (.far at_ m a)
      | .ok .reg => .error { code := 0x04, sub := 0, eval := a }

def State.runPieces (s : State) (tid : Nat) (acc : Acc) (va : Word) (n : Nat) : Except Trap (List Piece) :=
  s.runPiecesFrom tid acc va n (n / 2 ^ 18 + 3) 0

/-- What an engine's access did. -/
inductive Eng (α : Type) where
  | done (s : State) (v : α)
  | failed (s : State) (t : Trap)
  | waits
  /-- Requests to another package have left, by number. -/
  | asked (s : State) (ids : List Nat)

/-- The far pieces are asked for. -/
def State.askFar (s : State) (tid : Nat) (pc : Word) (order : Nat) (op : Nat → Nat → ReqOp) (ps : List Piece) :
    State × List Nat :=
  ps.foldl (fun (st : State × List Nat) p =>
    match p with
    | .here _ => st
    | .far start len va =>
      (st.1.request { id := 0, tid := tid, op := op start len, va := va, n := len, pc := pc, order := order
                      engine := true }, st.2 ++ [st.1.nextId])) (s, [])

def Piece.isFar : Piece → Bool
  | .here _ => false
  | .far _ _ _ => true

/-- Of the far pieces, those that none of the requests `ids` asks for: the pages of a run may move while it is read (R404). -/
def State.unasked (s : State) (ids : List Nat) (ps : List Piece) : List Piece :=
  ps.filter (fun p => match p with
    | .here _ => false
    | .far _ _ va => (s.askOf ids va).isNone)

/-- Every request is answered. -/
def State.answered (s : State) (ids : List Nat) : Bool :=
  ids.all (fun id => match s.req id with
    | some r => r.resp.isSome
    | none => true)

/-- Reads the pieces in order; `ids` are the requests of the far ones, each found by its address. -/
def State.gather (s : State) (tid : Nat) (eva : Word) : List Piece → List Nat → Did (List Byte)
  | [], _ => .ok s []
  | .here p :: r, ids =>
    (s.readSpans (coreOf tid) eva [] [p]).bind fun s bs =>
      (s.gather tid eva r ids).bind fun s rest => .ok s (bs ++ rest)
  | .far _ _ va :: r, ids =>
    match s.askOf ids va with
    | none => .wait
    | some q =>
      match q.resp with
      | some (.err t) => .err (s.dropReq q.id) t
      | some (.data bs) => ((s.dropReq q.id).gather tid eva r ids).bind fun s rest => .ok s (bs ++ rest)
      | _ => .wait

/-- An engine's read of a run for a thread. -/
def State.engineLoad (s : State) (tid : Nat) (va : Word) (n : Nat) (ids : List Nat) (pc : Word) (order : Nat) :
    Eng (List Byte) :=
  match s.runPieces tid .load va n with
  | .error t => .failed s t
  | .ok ps =>
    if !(s.unasked ids ps).isEmpty then
      if s.walkerFull tid (s.unasked ids ps).length then .waits
      else
        let r := s.askFar tid pc order (fun _ _ => .load false) (s.unasked ids ps)
        .asked r.1 (ids ++ r.2)
    else if !s.answered ids then .waits
    else match s.gather tid va ps ids with
      | .ok s bs => .done (s.dropReqs ids) bs
      | .err s t => .failed (s.dropReqs ids) t
      | .wait => .waits

/-- Writes the pieces in order; the answers of the far ones are looked at. -/
def State.spread (s : State) (tid : Nat) (eva : Word) (bs : List Byte) : List Piece → List Nat → Did Unit
  | [], _ => .ok s ()
  | .here p :: r, ids =>
    (s.writeSpans (coreOf tid) eva 0 bs [p]).bind fun s _ => s.spread tid eva bs r ids
  | .far _ _ va :: r, ids =>
    match s.askOf ids va with
    | none => .wait
    | some q =>
      match q.resp with
      | some (.err t) => .err (s.dropReq q.id) t
      | _ => (s.dropReq q.id).spread tid eva bs r ids

/-- An engine's write of a run for a thread. -/
def State.engineStore (s : State) (tid : Nat) (va : Word) (bs : List Byte) (ids : List Nat) (pc : Word)
    (order : Nat) : Eng Unit :=
  match s.runPieces tid .store va bs.length with
  | .error t => .failed s t
  | .ok ps =>
    if !(s.unasked ids ps).isEmpty then
      if s.walkerFull tid (s.unasked ids ps).length then .waits
      else
        let r := s.askFar tid pc order (fun a n => .store ((bs.drop a).take n)) (s.unasked ids ps)
        .asked r.1 (ids ++ r.2)
    else if !s.answered ids then .waits
    else match s.spread tid va bs ps ids with
      | .ok s _ => .done (s.dropReqs ids) ()
      | .err s t => .failed (s.dropReqs ids) t
      | .wait => .waits

/-- R278: an access to `[va, va + n)` by a thread's engine touches a range that a copy still guards. -/
def State.guarded (s : State) (tid : Nat) (va : Word) (n : Nat) : Bool :=
  match s.runPieces tid .load va n with
  | .ok l => l.any (fun p => match p with
    | .here p => s.watched p.core p.addr p.len
    | .far _ len a => (match s.translate (dieOf (coreOf tid)) a with
      | .ok e => s.watchedFar e.peer e.pa len
      | .error _ => false))
  | .error _ => false

end Sys2Proof.Machine
end

