-- ==== Sys2Proof/Machine/Engines.lean ====
section
/-! DEFINITION. The engines of a die (R272–R290): block-transfer channels, the gather/scatter streamer and the
tile pumps. -/

namespace Sys2Proof.Machine

/-- The thread still runs the task that started a piece of work (R280, R284, R287). -/
def State.stillRuns (s : State) (core slot : Nat) (taskix : Word) : Bool :=
  let t := s.thread (tidOf core slot)
  slot < 4 && (t.life = .ready || t.life = .parked) && t.taskix = taskix

/-- R372: event 0x05. -/
def State.engineEvent (s : State) (die : Nat) (t : Trap) (ch : Nat) : State :=
  s.postEvent (some die) 0x05 t.eval (BitVec.ofNat 64 (t.code.toNat + t.sub.toNat * 256 + ch * 65536))

/-! ### Channels (R272–R280) -/

def Die.channel (x : Die) (ch : Nat) : Channel := x.channels.get {} ch
def State.channel (s : State) (d ch : Nat) : Channel := (s.die d).channel ch
def State.setChannel (s : State) (d ch : Nat) (c : Channel) : State :=
  s.modDie d (fun x => { x with channels := x.channels.put ch c })
/-- R273: word i of template t. -/
def State.template (s : State) (d t i : Nat) : Word := (s.die d).templates.get 0 (8 * t + i)

/-- R273: the spaces of a copy. -/
def copySpace (a : Word) : Bool := space a ≤ 1 || space a = 0xF0 || space a = 0xF1

/-- R274: the template may be started. -/
def State.templateOk (s : State) (d t : Nat) : Bool :=
  let w (i : Nat) : Word := s.template d t i
  let rows := bits (w 2).toNat 39 24
  let rlen := bits (w 2).toNat 23 0
  (w 7).getLsbD 0 && rlen ≠ 0 && bits (w 2).toNat 63 40 = 0 && bits (w 6).toNat 63 13 = 0 &&
  bits (w 7).toNat 63 2 = 0 && copySpace (w 0) && copySpace (w 1) &&
  ((w 5) = 0 || (objectAt .barrier (w 5)).isSome) &&
  (!(w 7).getLsbD 1 || rows = 0 || (w 4).toNat = rlen)

/-- R275: the copy that a start asks for. -/
def State.copyOf (s : State) (d core slot : Nat) (v : Nat) (pc : Word) : Copy :=
  let t := v % 4096
  let w (i : Nat) : Word := s.template d t i
  { tpl := t, core := core, slot := slot, taskix := (s.thread (tidOf core slot)).taskix
    run := if slot < 4 then some (s.thread (tidOf core slot)).run else none
    tag := if bits v 18 18 = 1 then some (bits v 17 12) else none
    src := w 0, dst := w 1, rlen := bits (w 2).toNat 23 0, rows1 := bits (w 2).toNat 39 24
    sstr := w 3, dstr := w 4, bar := w 5
    ctr := if (w 6).getLsbD 12 then some (bits (w 6).toNat 11 0) else none
    wme := (w 7).getLsbD 1, pc := pc, order := s.order, handler := (s.thread (tidOf core slot)).mode }

/-- R275: the checks at acceptance. -/
def State.startOk (s : State) (d ch core v : Nat) : Bool :=
  s.templateOk d (v % 4096) && v / 2 ^ 19 = 0 && !(s.channel d ch).err && dieOf core = d

/-- A copy joins its channel. -/
def State.pushCopy (s : State) (d ch : Nat) (c : Copy) : State :=
  let x := s.channel d ch
  let s := s.setChannel d ch { x with copies := x.copies ++ [c], row := if x.copies.isEmpty then 0 else x.row, col := if x.copies.isEmpty then 0 else x.col }
  match c.tag with
  | some t => s.tagStart c.core t
  | none => s

/-- R234: the address of a die register. -/
def dieReg (d off : Nat) : Word := BitVec.ofNat 64 (0xF3 * 2 ^ 56 + d * 2 ^ 32 + off)

/-- R275: a start store of a thread, at the address `va`. -/
def State.startCopy (s : State) (tid d ch : Nat) (v va : Word) : Except Stop State :=
  if !s.settled tid then .error .wait
  else if (s.channel d ch).copies.length ≥ 8 then .error .wait
  else if !s.startOk d ch (coreOf tid) v.toNat then .error (.trap { code := 0x05, sub := 1, eval := va })
  else
    let c := s.copyOf d (coreOf tid) (slotOf tid) v.toNat (s.thread tid).pc
    match c.tag with
    | some t => if s.tagFull c.core t then .error .wait else .ok (s.pushCopy d ch c)
    | none => .ok (s.pushCopy d ch c)

/-- An event that a thread's store causes by itself: its effect, its precise trap at the store, or nothing while
it waits. -/
def State.storeEvent (s : State) (tid : Nat) (r : Except Stop State) : Out :=
  match r with
  | .ok s' => .next s'
  | .error (.trap t) => .next (s.takeTrap tid t (s.thread tid).pc (s.thread tid).pc false false)
  | .error _ => .next s

/-- R275. -/
def execBtStart (core slot die channel : Nat) (value : Word) (s : State) : Out :=
  s.storeEvent (tidOf core slot) (s.startCopy (tidOf core slot) die channel value (dieReg die (0x31000 + 8 * channel)))

/-- R278: the watermark of a copy when `row` rows are written and `col` bytes of the next, and at its end. -/
def Copy.wmAt (c : Copy) (row : Nat) (col : Nat := 0) : Word := c.dst + BitVec.ofNat 64 (c.rlen * row + col)
def Copy.wmEnd (c : Copy) : Word := c.wmAt (c.rows1 + 1)
/-- The thread whose accesses a copy makes. -/
def Copy.tid (c : Copy) : Nat := tidOf c.core (if c.slot < 4 then c.slot else 0)
/-- R273: the addresses of a row. -/
def Copy.rowSrc (c : Copy) (r : Nat) : Word := c.src + BitVec.ofNat 64 r * c.sstr
def Copy.rowDst (c : Copy) (r : Nat) : Word := c.dst + BitVec.ofNat 64 r * c.dstr

/-- The tags of copies are decremented (R132). -/
def State.dropTags (s : State) (l : List Copy) : State :=
  l.foldl (fun s c => match c.tag with
    | some t => s.tagDone c.core t
    | none => s) s

/-- R280: the active copy fails. -/
def State.failCopy (s : State) (d ch : Nat) (t : Trap) : State :=
  let x := s.channel d ch
  match x.copies with
  | [] => s
  | c :: _ =>
    let s := s.reportFault d t
    let s := s.setChannel d ch { copies := [], row := x.row, err := true, ecause := t.code
                                 esub := t.sub.extractLsb' 0 4, eaddr := t.eval, wm := c.wmEnd }
    let s := s.dropTags x.copies
    let s := s.engineEvent d t ch
    -- a copy that an entry started fails with it (R415); its slot is 4 + the entry's number
    let s := x.copies.foldl (fun s c =>
      if c.slot ≥ 4 then
        s.modEntry (c.slot - 4) (fun e => { e with ended := some (some { code := 0x05, sub := 1, eval := e.opa }) })
      else s) s
    if s.stillRuns c.core c.slot c.taskix then s.deferFault (tidOf c.core c.slot) t c.pc c.order c.handler
    else s

/-- R278, R320: a watching copy has written `[va, va + n)`. -/
def State.copyShown (s : State) (c : Copy) (va : Word) (n : Nat) : State :=
  if !c.wme then s
  else match s.runPieces c.tid .store va n with
  | .error _ => s
  | .ok ps => ps.foldl (fun s p => match p with
    | .here p => if p.core.isNone then s.rdcForgetAll none p.addr p.len else s
    | .far _ len a => (match s.translate (dieOf c.core) a with
      | .ok l => s.rdcForgetAll (some l.peer) l.pa len
      | .error _ => s)) s

/-- R276, R278: the row in hand: its bytes are read, then written; none while it waits. -/
inductive RowDone where
  | written (s : State)
  | failed (s : State) (t : Trap)
  | busy (s : State)

def State.moveRow (s : State) (d ch : Nat) (c : Copy) (row : Nat) : RowDone :=
  let x := s.channel d ch
  let others := s.setChannel d ch {}
  if others.guarded c.tid (c.rowSrc row) c.rlen || others.guarded c.tid (c.rowDst row) c.rlen then .busy s
  else
    let put (s : State) (bs : List Byte) (ids : List Nat) : RowDone :=
      match s.engineStore c.tid (c.rowDst row + BitVec.ofNat 64 x.col) (bs.drop x.col) ids c.pc c.order with
      | .done s _ => .written (s.copyShown c (c.rowDst row + BitVec.ofNat 64 x.col) (c.rlen - x.col))
      | .failed s t => .failed s t
      | .waits => .busy s
      | .asked s ids => .busy (s.setChannel d ch { x with bytes := some bs, reqs := ids })
    match x.bytes with
    | some bs => put s bs x.reqs
    | none =>
      match s.engineLoad c.tid (c.rowSrc row) c.rlen x.reqs c.pc c.order with
      | .done s bs => put s bs []
      | .failed s t => .failed s t
      | .waits => .busy s
      | .asked s ids => .busy (s.setChannel d ch { x with reqs := ids })

/-- R276, R278: a block of 64 bytes of the row in hand, but for its last, is written, so that the watermark passes it; none
when only the rest of the row as a whole may move. -/
def State.copyBlock (s : State) (d ch : Nat) : Option State :=
  let x := s.channel d ch
  match x.copies with
  | [] => none
  | c :: _ =>
    let dst := c.rowDst x.row + BitVec.ofNat 64 x.col
    let others := s.setChannel d ch {}
    if x.row > c.rows1 || c.rlen ≤ x.col + 64 || others.guarded c.tid (c.rowSrc x.row) c.rlen ||
        others.guarded c.tid (c.rowDst x.row) c.rlen ||
        (match s.runPieces c.tid .store (c.rowDst x.row) c.rlen with
         | .ok ps => ps.any Piece.isFar
         | .error _ => true) then none
    else match x.bytes with
    | none =>
      (match s.engineLoad c.tid (c.rowSrc x.row) c.rlen x.reqs c.pc c.order with
       | .done s bs => some (s.setChannel d ch { x with bytes := some bs, reqs := [] })
       | .asked s ids => some (s.setChannel d ch { x with reqs := ids })
       | _ => none)
    | some bs =>
      match s.engineStore c.tid dst ((bs.drop x.col).take 64) [] c.pc c.order with
      | .done s _ => some ((s.copyShown c dst 64).setChannel d ch { x with col := x.col + 64 })
      | _ => none

/-- R277: a row of the active copy is performed at package scope. -/
def execCopyRowPerformed (die channel : Nat) (s : State) : Out :=
  let x := s.channel die channel
  match x.copies with
  | [] => .next s
  | c :: _ =>
    if x.row > c.rows1 then .next s
    else match s.moveRow die channel c x.row with
    | .busy s => .next s
    | .failed s t => .next (s.failCopy die channel t)
    | .written s =>
      let s := s.setChannel die channel { x with row := x.row + 1, col := 0, bytes := none, reqs := [] }
      match objectAt .barrier c.bar with
      | some (k, i) => .next (if c.bar = 0 then s else s.barDecrement k i c.rlen)
      | none => .next s

/-- R277: the active copy is complete when its last row is. -/
def execCopyComplete (die channel : Nat) (s : State) : Out :=
  let x := s.channel die channel
  match x.copies with
  | [] => .next s
  | c :: r =>
    if x.row ≤ c.rows1 then .next s
    else
      let s := s.setChannel die channel { x with copies := r, row := 0, col := 0, bytes := none, reqs := [], wm := c.wmEnd }
      let s := s.dropTags [c]
      let s := match c.ctr with
        | some k => s.counterAdd k 1
        | none => s
      .next (if c.slot ≥ 4 then s.modEntry (c.slot - 4) (fun e => { e with ended := some none }) else s)

/-- R280: the row in hand meets a fault. -/
def execCopyFail (die channel : Nat) (s : State) : Out :=
  let x := s.channel die channel
  match x.copies with
  | [] => .next s
  | c :: _ =>
    match s.moveRow die channel c x.row with
    | .failed s t => .next (s.failCopy die channel t)
    | _ => .next s

/-! ### The streamer (R281–R284) -/

/-- R281: the request that a descriptor in a core's scratchpad describes, if R282 accepts it. An uncorrectable word of the
descriptor is read as it is stored, for no rule says what the streamer does with one (DESIGN CHOICE, log 50). -/
def State.streamOf (s : State) (core slot off : Nat) (pc : Word) : Option StreamReq :=
  let w (i : Nat) : Nat := (s.core core).scratch.readNat (off + 8 * i) 8
  let r : StreamReq := {
    core := core, slot := slot, taskix := (s.thread (tidOf core slot)).taskix, run := (s.thread (tidOf core slot)).run
    tag := if bits (w 0) 23 23 = 1 then some (bits (w 0) 22 17) else none
    idx := bits (w 0) 43 24, scatter := bits (w 0) 16 16 = 1, n := bits (w 0) 15 0 + 1
    cnt := bits (w 1) 51 32, rl := 8 * bits (w 1) 31 20, lb := bits (w 1) 19 0
    tb := bits (w 2) 40 21, nc := bits (w 2) 20 10, cb := bits (w 2) 9 0, pc := pc, order := s.order, handler := (s.thread (tidOf core slot)).mode }
  let ok := bits (w 0) 63 44 = 0 && bits (w 1) 63 52 = 0 && bits (w 2) 63 41 = 0 && w 3 = 0 &&
    r.idx % 4 = 0 && r.cnt % 4 = 0 && r.lb % 8 = 0 && r.tb % 8 = 0 &&
    r.rl ≠ 0 && r.rl ≤ 4096 && r.nc ≠ 0 && r.cb + r.nc ≤ 1024 &&
    r.idx + 4 * r.n ≤ scratchSize && r.lb + r.rl * r.n ≤ scratchSize && r.cnt + 4 * r.nc ≤ scratchSize
  if ok then some r else none

/-- R278, R282: a post store of a thread, at the address `va`. -/
def State.postStream (s : State) (tid d : Nat) (v va : Word) : Except Stop State :=
  let core := coreOf tid
  let refused : Except Stop State := .error (.trap { code := 0x05, sub := 1, eval := va })
  if !s.settled tid then .error .wait
  else if (s.die d).streams.length ≥ 256 then .error .wait
  else if dieOf core ≠ d || v.toNat / 2 ^ 20 ≠ 0 || v.toNat % 32 ≠ 0 || v.toNat + 32 > scratchSize then refused
  else
    let s := s.pinRange core v.toNat 32 false
    if s.watched (some core) v.toNat 32 then .error .wait
    else match s.streamOf core (slotOf tid) v.toNat (s.thread tid).pc with
    | none => refused
    | some r =>
      if s.watched (some core) r.cnt (4 * r.nc) then .error .wait
      else
      let accept (s : State) : State :=
        (s.scratchPut core r.cnt (List.replicate (4 * r.nc) 0)).modDie d (fun x => { x with streams := x.streams ++ [r] })
      match r.tag with
      | some t => if s.tagFull core t then .error .wait else .ok ((accept s).tagStart core t)
      | none => .ok (accept s)

/-- R282. -/
def execStreamerPost (core slot : Nat) (value : Word) (s : State) : Out :=
  let d := dieOf core
  s.storeEvent (tidOf core slot) (s.postStream (tidOf core slot) d value (dieReg d 0x40000))

/-- R283: the places of a row: owner core, owner offset, requester offset, counter. -/
def StreamReq.row (r : StreamReq) (u : Nat) : Nat × Nat × Nat × Nat :=
  (r.cb + u % r.nc, r.tb + u / r.nc * r.rl, r.lb + r.next * r.rl, r.cnt + 4 * (u % r.nc))

/-- R278, R283, R284: one row between the requester and its owner. An uncorrectable index entry or counter is read as it is
stored (DESIGN CHOICE, log 50). -/
def State.streamRow (s : State) (r : StreamReq) : Did Unit :=
  let s := s.pinRange r.core (r.idx + 4 * r.next) 4 false
  let u := (s.core r.core).scratch.readNat (r.idx + 4 * r.next) 4
  let (owner, oo, lo, k) := r.row u
  let ova : Word := BitVec.ofNat 64 (0xF1 * 2 ^ 56 + owner * 2 ^ 32 + oo)
  let rq : Rq := .engine r.core
  if s.watched (some r.core) (r.idx + 4 * r.next) 4 then .wait
  else if oo + r.rl > scratchSize then .err s { code := 0x04, sub := 1, eval := ova }
  else if s.watched (some r.core) k 4 || s.watched (some owner) oo r.rl ||
      s.watched (some r.core) lo r.rl then .wait
  else
    let moved : Did Unit :=
      if r.scatter then
        (s.scratchLoad rq true r.core lo r.rl ova).bind fun s bs =>
          s.scratchStore rq (owner = r.core) .store owner oo bs ova
      else
        (s.scratchLoad rq (owner = r.core) owner oo r.rl ova).bind fun s bs =>
          s.scratchStore rq true .store r.core lo bs ova
    moved.bind fun s _ =>
      let s := s.pinRange r.core k 4 true
      .ok (s.scratchPut r.core k (leBytes 4 ((s.core r.core).scratch.readNat k 4 + 1))) ()

/-- A request of a die's streamer changed in place. -/
def State.modStream (s : State) (d : Nat) (f : StreamReq → StreamReq) : State :=
  s.modDie d (fun x => match x.streams with
    | r :: t => { x with streams := f r :: t }
    | [] => x)

/-- R283, R284: the next row of the oldest request. -/
def execStreamerRow (die : Nat) (s : State) : Out :=
  match (s.die die).streams with
  | [] => .next s
  | r :: _ =>
    if r.next ≥ r.n then .next s
    else match s.streamRow r with
    | .wait => .next s
    | .ok s _ => .next (s.modStream die (fun r => { r with next := r.next + 1 }))
    | .err s t => .next (s.modStream die (fun r => { r with next := r.next + 1, skipped := r.skipped <|> some t }))

/-- R284: the oldest request is complete. -/
def execStreamerComplete (die : Nat) (s : State) : Out :=
  match (s.die die).streams with
  | [] => .next s
  | r :: rest =>
    if r.next < r.n then .next s
    else
      let s := s.modDie die (fun x => { x with streams := rest })
      let s := match r.tag with
        | some t => s.tagDone r.core t
        | none => s
      match r.skipped with
      | none => .next s
      | some t =>
        if s.stillRuns r.core r.slot r.taskix then .next (s.deferFault (tidOf r.core r.slot) t r.pc r.order r.handler)
        else .next (s.engineEvent die t 0)

/-! ### Tile pumps (R285–R290) -/

def Core.pump (x : Core) (q : Nat) : Pump := if h : q < 8 then x.pumps[q] else {}
def State.pump (s : State) (core q : Nat) : Pump := (s.core core).pump q
def State.setPump (s : State) (core q : Nat) (p : Pump) : State :=
  s.modCore core (fun x => if h : q < 8 then { x with pumps := x.pumps.set q p } else x)
def State.modPump (s : State) (core q : Nat) (f : Pump → Pump) : State := s.setPump core q (f (s.pump core q))

def Pump.ns (p : Pump) : Nat := bits p.qring.toNat 39 32 + 1
def Pump.sl (p : Pump) : Nat := bits p.qring.toNat 31 20
def Pump.rb (p : Pump) : Nat := bits p.qring.toNat 19 0
def Pump.tstr (p : Pump) : Nat := bits p.qshape.toNat 63 40
def Pump.rows (p : Pump) : Nat := bits p.qshape.toNat 39 28
def Pump.rlen (p : Pump) : Nat := bits p.qshape.toNat 27 16
def Pump.rstr (p : Pump) : Nat := bits p.qshape.toNat 15 0
/-- R285: where slot k of the ring begins. -/
def Pump.slotAt (p : Pump) (k : Nat) : Nat := p.rb + 64 * p.sl * (k % p.ns)
/-- The slot's address in the local scratch space. -/
def Pump.slotVa (p : Pump) (k : Nat) : Word := BitVec.ofNat 64 (0xF0 * 2 ^ 56 + p.slotAt k)
/-- R285: the address of row r of tile t. -/
def Pump.rowAt (p : Pump) (t r : Nat) : Word := p.qaddr + BitVec.ofNat 64 (64 * (t * p.tstr + r * p.rstr))

/-- R286: the checks of a subscription. -/
def Pump.subscribable (p : Pump) (nt : Nat) : Bool :=
  p.rows ≠ 0 && p.rlen ≠ 0 && p.sl ≠ 0 && nt ≠ 0 && p.ns ≥ 2 && p.rows * p.rlen ≤ p.sl &&
  p.rb + 64 * p.sl * p.ns ≤ scratchSize && space p.qaddr ≤ 1 && p.qaddr.toNat % 64 = 0 && p.rb % 64 = 0

/-- R286: a pump that is writing no tile. -/
def Pump.idle (p : Pump) : Bool := p.reqs.isEmpty && (p.fail || !p.role || p.c = p.p)

/-- R289: EVAL of a queue trap. -/
def Pump.eval (p : Pump) (q : Nat) : Word :=
  BitVec.ofNat 64 (q + (if p.role then 8 else 0) + p.p % 2 ^ 24 * 256 + p.c % 2 ^ 24 * 2 ^ 32)

/-- R285, R286: the end of a subscription once the pump is idle, by a store of `v`. -/
def State.endQueue (s : State) (core q : Nat) (v : Word) : State :=
  s.modPump core q (fun p => { p with
    en := false, role := v.getLsbD 62, nt := bits v.toNat 31 0, fail := false, ending := [], reqs := [] })

/-- R286: a queue is subscribed for a slot by a store of `v`. -/
def Pump.subscribed (p : Pump) (v : Word) (slot : Nat) (t : Thread) (order : Nat) : Pump :=
  { p with
    en := true, role := v.getLsbD 62, fail := false, slot := slot, nt := bits v.toNat 31 0
    p := 0, c := 0, held := false, fpc := t.pc, taskix := t.taskix, run := t.run
    order := order, handler := t.mode, paused := false, reqs := [], ending := [] }

/-- R263, R286: a store to QCTL by a thread of the same core, or by the host or the supervisor core, whose subscription
keeps the SLOT that the register holds (DESIGN CHOICE, log 45). An ending store waits, unacknowledged, until the pump is
idle. -/
def State.writeQctl (s : State) (tid : Option Nat) (core q : Nat) (v : Word) : Wrote :=
  let p := s.pump core q
  if (tid.map coreOf).getD core ≠ core then refuse51 s
  else if v.getLsbD 63 then
    if p.en || !p.subscribable (bits v.toNat 31 0) then refuse51 s
    else
      let slot := (tid.map slotOf).getD p.slot
      { s := s.setPump core q (p.subscribed v slot (s.thread (tidOf core slot)) s.order) }
  else if !p.en then { s := s.setPump core q { p with role := v.getLsbD 62, nt := bits v.toNat 31 0 } }
  else if p.idle then { s := s.endQueue core q v }
  else
    match tid with
    | none => { s := s.setPump core q { p with ending := p.ending ++ [(none, v)] } }
    | some t =>
      let id := s.nextId
      { s := { (s.setPump core q { p with ending := p.ending ++ [(some (t, id), v)] }).modThread t
                 (fun t => { t with unacked := t.unacked ++ [(id, t.mode)] }) with nextId := id + 1 } }

/-- R285: the 0xF3 address of a queue register. -/
def queueReg (core q off : Nat) : Word := dieReg (dieOf core) (0x60000 + 0x100 * (core % 256) + 0x20 * q + off)

/-- R286. -/
def execQueueSubscribe (core slot queue : Nat) (value : Word) (s : State) : Out :=
  .next (s.store (.thread core slot) (queueReg core queue 0x18)
    (s.writeQctl (some (tidOf core slot)) core queue (value ||| 1#64 <<< 63)))
/-- R286. -/
def execQueueUnsubscribe (core slot queue : Nat) (value : Word) (s : State) : Out :=
  .next (s.store (.thread core slot) (queueReg core queue 0x18)
    (s.writeQctl (some (tidOf core slot)) core queue (value &&& ~~~(1#64 <<< 63))))

/-- A store waits no longer for its acknowledgement; with L < 15 an instruction in flight stands for it (R50). -/
def State.acknowledge (s : State) (tid id : Nat) : State :=
  s.modThread tid (fun t => { t with
    unacked := t.unacked.filter (fun u => u.1 ≠ id), flights := t.flights.filter (fun f => f.id ≠ id) })

/-- R286: every ending store is acknowledged when the pump is idle. -/
def State.settleQueue (s : State) (core q : Nat) : State :=
  let p := s.pump core q
  match p.ending.getLast? with
  | some (_, v) =>
    if p.idle then
      p.ending.foldl (fun s e => match e.1 with
        | some (tid, id) => s.acknowledge tid id
        | none => s) (s.endQueue core q v)
    else s
  | none => s

/-- R288: what qpop does on a queue now: the queue after it and d, or none while it waits. -/
def Pump.pop (p : Pump) (rel : Bool) : Option (Pump × Word) :=
  let c := p.c + (if p.held then 1 else 0)
  if rel then some ({ p with c := c, held := false }, 0)
  else if c = p.nt then some ({ p with c := c, held := false }, BitVec.allOnes 64)
  else if p.p > c then some ({ p with c := c, held := true }, BitVec.ofNat 64 (p.slotAt c))
  else none
/-- R288: what qpush does. -/
def Pump.push (p : Pump) (rel : Bool) : Option (Pump × Word) :=
  let n := p.p + (if p.held then 1 else 0)
  if rel then some ({ p with p := n, held := false }, 0)
  else if n = p.nt then some ({ p with p := n, held := false }, BitVec.allOnes 64)
  else if n - p.c < p.ns then some ({ p with p := n, held := true }, BitVec.ofNat 64 (p.slotAt n))
  else none

/-- R287, R289: threads parked on a queue that has failed, or whose condition now holds. -/
def State.serveQueue (s : State) (core q : Nat) : State :=
  (s.parkedWith (fun t w => coreOf t = core && (match w with
    | .qpop q' _ _ _ => q' = q
    | .qpush q' _ _ _ => q' = q
    | _ => false))).foldl (fun s t =>
      let p := s.pump core q
      if p.fail then s.trapParked t { code := 0x08, sub := 2, eval := p.eval q }
      else match (s.thread t).waits with
        | some (.qpop _ d _ _) =>
          (match p.pop false with
           | some (p, v) => ((s.setPump core q p).unpark t d v).acquire t
           | none => s)
        | some (.qpush _ d _ _) =>
          (match p.push false with
           | some (p, v) => ((s.setPump core q p).unpark t d v).acquire t
           | none => s)
        | _ => s) s

/-- R287, R289: the queue fails. A thread parked on it takes the 0x08 of R289 first, and the deferred fault of R287 at the
boundary after its rte; which of the two comes first no rule says (DESIGN CHOICE, log 54). -/
def State.failQueue (s : State) (core q : Nat) (t : Trap) : State :=
  let p := s.pump core q
  let s := ((s.setPump core q { p with fail := true, reqs := [] }).reportFault (dieOf core) t).engineEvent (dieOf core) t q
  let s := if s.stillRuns core p.slot p.taskix then s.deferFault (tidOf core p.slot) t p.fpc p.order p.handler else s
  (s.serveQueue core q).settleQueue core q

/-- The work of a pump that may go on. -/
def Pump.runs (p : Pump) : Bool := p.en && !p.fail && (!p.paused || !p.reqs.isEmpty)

/-- R287: the access of a pump. -/
def Pump.acc (p : Pump) : Acc := if p.role then .store else .load

/-- R287: every page of a tile lies in this package or is asked for, or some check of the tile fails. -/
def State.pumpNear (s : State) (tid : Nat) (p : Pump) (t : Nat) : Bool :=
  (List.range p.rows).any (fun r => match s.runPieces tid p.acc (p.rowAt t r) (64 * p.rlen) with
    | .error _ => true
    | .ok _ => false) ||
  (List.range p.rows).all (fun r => match s.runPieces tid p.acc (p.rowAt t r) (64 * p.rlen) with
    | .ok ps => (s.unasked p.reqs ps).isEmpty
    | .error _ => true)

/-- R287: the rows of a tile on pages of another package are asked for, all together. -/
def State.askTile (s : State) (core q : Nat) (p : Pump) (t : Nat) (op : Nat → Nat → Nat → ReqOp) : State :=
  let tid := tidOf core p.slot
  let r := (List.range p.rows).foldl (fun (st : State × List Nat) r =>
    match st.1.runPieces tid p.acc (p.rowAt t r) (64 * p.rlen) with
    | .ok ps =>
      let (s, ids) := st.1.askFar tid p.fpc p.order (op r) (s.unasked p.reqs ps)
      (s, st.2 ++ ids)
    | .error _ => st) (s, p.reqs)
  r.1.modPump core q (fun p => { p with reqs := r.2 })

/-- R287: the rows of a tile are gathered; gives the rows' bytes in order. -/
def State.tileBytes (s : State) (core : Nat) (p : Pump) (t : Nat) (ids : List Nat) : Nat → Did (List (List Byte))
  | 0 => .ok s []
  | n + 1 =>
    let r := p.rows - (n + 1)
    let tid := tidOf core p.slot
    let va := p.rowAt t r
    match s.runPieces tid .load va (64 * p.rlen) with
    | .error e => .err s e
    | .ok ps =>
      (s.gather tid va ps ids).bind fun s bs =>
        (s.tileBytes core p t ids n).bind fun s rest => .ok s (bs :: rest)

/-- R287: a loader writes its next tile into its slot. -/
def execPumpLoadTile (core queue : Nat) (s : State) : Out :=
  let p := s.pump core queue
  let tid := tidOf core p.slot
  if !s.clocked (dieOf core) || p.role || !p.runs || p.p ≥ p.nt || p.p - p.c ≥ p.ns then .next s
  else if (List.range p.rows).any (fun r => s.guarded tid (p.rowAt p.p r) (64 * p.rlen)) ||
      s.watched (some core) (p.slotAt p.p) (64 * p.rows * p.rlen) then .next s
  else if !s.pumpNear tid p p.p then .next (s.askTile core queue p p.p (fun _ _ _ => .load false))
  else if !s.answered p.reqs then .next s
  else match s.tileBytes core p p.p p.reqs p.rows with
    | .wait => .next s
    | .err s t => .next ((s.dropReqs p.reqs).failQueue core queue t)
    | .ok s rows =>
      let s := s.dropReqs p.reqs
      match s.scratchStore (.engine core) true .store core (p.slotAt p.p) rows.flatten (p.slotVa p.p) with
      | .wait => .next s
      | .err s t => .next (s.failQueue core queue t)
      | .ok s _ =>
        let s := s.setPump core queue { p with p := p.p + 1, reqs := [] }
        .next ((s.serveQueue core queue).settleQueue core queue)

/-- R287: the bytes of row r of the slot in hand. -/
def State.slotRow (s : State) (core : Nat) (p : Pump) (r : Nat) : Did (List Byte) :=
  s.scratchLoad (.engine core) true core (p.slotAt p.c + 64 * r * p.rlen) (64 * p.rlen)
    (BitVec.ofNat 64 (0xF0 * 2 ^ 56 + (p.slotAt p.c + 64 * r * p.rlen)))

/-- R287: the rows of a slot are written back as a tile; `ids` are the stores to another package. -/
def State.storeRows (s : State) (core : Nat) (p : Pump) (ids : List Nat) : Nat → Did Unit
  | 0 => .ok s ()
  | n + 1 =>
    let r := p.rows - (n + 1)
    let tid := tidOf core p.slot
    let va := p.rowAt p.c r
    match s.runPieces tid .store va (64 * p.rlen) with
    | .error e => .err s e
    | .ok ps =>
      (s.slotRow core p r).bind fun s bs =>
        (s.spread tid va bs ps ids).bind fun s _ => s.storeRows core p ids n

/-- R287: a storer writes its next handed slot back. -/
def execPumpStoreTile (core queue : Nat) (s : State) : Out :=
  let p := s.pump core queue
  let tid := tidOf core p.slot
  if !s.clocked (dieOf core) || !p.role || !p.runs || p.c ≥ p.p then .next s
  else if (List.range p.rows).any (fun r => s.guarded tid (p.rowAt p.c r) (64 * p.rlen)) ||
      s.watched (some core) (p.slotAt p.c) (64 * p.rows * p.rlen) then .next s
  else if !s.pumpNear tid p p.c then
    -- R128, R287: the slot is read as any access of the core reads it, frames pinned first
    match s.scratchLoad (.engine core) true core (p.slotAt p.c) (64 * p.rows * p.rlen) (p.slotVa p.c) with
    | .wait => .next s
    | .err s t => .next (s.failQueue core queue t)
    | .ok s bs => .next (s.askTile core queue p p.c (fun r a n => .store ((bs.drop (64 * r * p.rlen + a)).take n)))
  else if !s.answered p.reqs then .next s
  else match s.storeRows core p p.reqs p.rows with
    | .wait => .next s
    | .err s t => .next ((s.dropReqs p.reqs).failQueue core queue t)
    | .ok s _ =>
      let s := (s.dropReqs p.reqs).setPump core queue { p with c := p.c + 1, reqs := [] }
      .next ((s.serveQueue core queue).settleQueue core queue)

/-- R288: the queue that an operand names, if the thread in hand may use it. -/
def State.queueOperand (s : State) (a b : Reg) (role : Bool) : Except Stop (Nat × Bool) :=
  let v := (s.rd a).toNat
  let p := s.pump s.myCore (v % 8)
  if v / 16 ≠ 0 || (s.rd b).toNat / 2 ^ 32 ≠ 0 || !p.en || decide (p.slot ≠ slotOf s.cur) || p.role != role then
    .error s.badOperand
  else if p.fail then .error (.trap { code := 0x08, sub := 2, eval := p.eval (v % 8) })
  else .ok (v % 8, v.testBit 3)

/-- R288, R309: qpop is a release and an acquire of package scope. -/
def execQpop (d a b : Reg) (s : State) : Out :=
  s.finish 4 do
    let (q, rel) ← s.queueOperand a b false
    if !s.settled s.cur then .error .wait
    else
      match (s.pump s.myCore q).pop rel with
      | some (p, v) => .ok (((s.setPump s.myCore q p).wr d v).acquire s.cur)
      | none => .error (.park (.qpop q (s.me.code d) (s.rd b).toNat 0))

/-- R288, R309: qpush is a release and an acquire of package scope. -/
def execQpush (d a b : Reg) (s : State) : Out :=
  s.finish 4 do
    let (q, rel) ← s.queueOperand a b true
    if !s.settled s.cur then .error .wait
    else
      match (s.pump s.myCore q).push rel with
      | some (p, v) => .ok (((s.setPump s.myCore q p).wr d v).acquire s.cur)
      | none => .error (.park (.qpush q (s.me.code d) (s.rd b).toNat 0))

/-- R289: the limit of a parked qpop or qpush has passed. -/
def execQueueWaitTimeout (core slot : Nat) (s : State) : Out :=
  let tid := tidOf core slot
  let expire (q limit used : Nat) (sub : BitVec 8) : Out :=
    if limit ≠ 0 && used ≥ limit && s.clocked (dieOf core) then
      .next (s.trapParked tid { code := 0x08, sub := sub, eval := (s.pump core q).eval q })
    else .next s
  match (s.thread tid).waits with
  | some (.qpop q _ limit used) => expire q limit used 0
  | some (.qpush q _ limit used) => expire q limit used 1
  | _ => .next s

end Sys2Proof.Machine
end

