-- ==== Sys2Proof/Machine/DieCtl.lean ====
section
/-! DEFINITION. The control of a die (R264, R291–R302): table walks and TLB invalidation, fences, isolation and
spares, format windows (R169–R172), soft errors (R147, R227, R260, R267) and the package's links (R346, R347,
R356). -/

namespace Sys2Proof.Machine

/-! ### Translation (R291–R296) -/

/-- R291, R295: a walk for a missing translation ends; a leaf enters the TLBs of the die. -/
def State.fillTlb (s : State) (d : Nat) (va : Word) : State :=
  let a := bits va.toNat 56 0
  if !(s.die d).ptEn || (s.tlbHit d a).isSome then s
  else match s.walk d a with
  | .leaf e n =>
    let keys := (s.die d).tlb.keys
    -- R295: the eight cluster TLBs and the core TLBs of the die hold so many entries; which one goes is a free choice
    let s := if keys.length < 8 * 2048 + 256 * 64 then s
      else (s.modDie d (fun x => { x with tlb := x.tlb.del (keys.getD (s.freeWord.toNat % keys.length) 0) })).took
    s.modDie d (fun x => { x with tlb := x.tlb.put (tlbKey a n) { entry := BitVec.ofNat 64 e, bits := n } })
  | _ => s

/-- R291, R294. -/
def execPageWalk (die : Nat) (va : Word) (s : State) : Out := .next ((s.fillTlb die va).reportWalk die va)

/-- R296: a write to TLBINV begins an invalidation; it waits while one runs. -/
def State.writeTlbinv (s : State) (who : Who) (d : Nat) (v : Word) : Wrote :=
  if whoIsThread who then refuse51 s
  else if (s.die d).tlbInv.isSome then { s := s.modDie d (fun x => { x with tlbWait := x.tlbWait ++ [v] }) }
  else { s := s.modDie d (fun x => { x with tlbInv := some v }) }

/-- R296. -/
def execTlbInvalidate (who : Who) (die : Nat) (value : Word) (s : State) : Out :=
  .next (s.store who (dieReg die 0x18) (s.writeTlbinv who die value))

/-- R296: an entry that an invalidation names. -/
def invNames (v : Word) (e : TlbEntry) (key : Nat) : Bool :=
  v.getLsbD 63 || key / 64 = bits v.toNat 56 18 * 2 ^ 18 / 2 ^ e.bits

/-- R296: accesses that the die translated and that are not yet performed or refused: those of threads and engines, and the
local ranges of remote operations and collectives. -/
def State.translatedOut (s : State) (d : Nat) : Bool :=
  s.reqs.any (fun r => dieOf (coreOf r.tid) = d && r.resp.isNone) ||
  s.fab.ops.any (fun o => dieOf o.core = d && !o.spans.isEmpty) ||
  s.trg.groups.cells.any (fun g => g.2.colls.any (fun x => dieOf x.core = d && !(x.srcs ++ x.dsts).isEmpty))

/-- R296: the invalidation ends: the named entries are dropped. -/
def execTlbInvalidateDone (die : Nat) (s : State) : Out :=
  match (s.die die).tlbInv with
  | none => .next s
  | some v =>
    if s.translatedOut die then .next s
    else .next (s.modDie die (fun x => { x with
      tlbInv := x.tlbWait.head?, tlbWait := x.tlbWait.drop 1
      tlb := { cells := x.tlb.cells.filter (fun c => !invNames v c.2 c.1) } }))

/-! ### Fences (R301, R302, R345) -/

/-- R301, R345: the die is fenced, for a reason of R372; its clusters publish the infinite
pressure from the next boundary on (R325). -/
def State.fenceDie (s : State) (d : Nat) (reason : Word) : State :=
  if (s.die d).fenced then s
  else
    let s := s.modDie d (fun x => { x with fenced := true, answered := false })
    s.postEvent (some d) 0x0A (BitVec.ofNat 64 d) reason

/-- R264, R301: the host sets DPART.FENCE. -/
def execDieFence (who : Who) (die : Nat) (s : State) : Out :=
  .next (s.store who (dieReg die 0x08) (if whoIsThread who then refuse51 s else { s := s.fenceDie die 0 }))

/-- R301: no heartbeat of the supervisor core for 10 µs; when that comes about is outside the model (DESIGN CHOICE, log 9). -/
def execHeartbeatTimeout (die : Nat) (s : State) : Out := .next (s.fenceDie die 1)

/-- A target on a die. -/
def Target.onDie (d : Nat) : Target → Bool
  | .mem l => homeDie l.pa = some d
  | .scratch c _ => dieOf c = d
  | _ => false

/-- R101, R104, R301, R302: the response that a request to a fenced die gets, at its first part that lies there. -/
def Request.fenced (r : Request) (d : Nat) : Option Resp :=
  ((List.range r.tgts.length).zip r.tgts |>.find? (fun t => t.2.onDie d)).map (fun t =>
    let va := r.va + BitVec.ofNat 64 (8 * t.1)
    match t.2 with
    | .scratch _ _ => .err { code := 0x09, eval := va }
    | _ => .err { code := 0x0D, eval := va })

/-- R103, R302: the scratchpad accesses that a fenced die refuses are logged there. -/
def State.logFenced (s : State) (d : Nat) (r : Request) : State :=
  match r.resp, r.tgts.find? (Target.onDie d) with
  | none, some (.scratch c off) => s.logViolation d (0xF1 * 2 ^ 56 + c * 2 ^ 32 + off) (.thread r.tid) 0 2 r.op.acc
  | _, _ => s

/-- R302, R345: every request outstanding to a fenced die is answered, and forwards to it are refused. -/
def execFenceResponse (die : Nat) (s : State) : Out :=
  let x := s.die die
  if !x.fenced || x.answered then .next s
  else .next { (s.reqs.foldl (fun s r => s.logFenced die r) s).modDie die (fun x => { x with answered := true }) with
    reqs := s.reqs.map (fun r => if r.resp.isNone then { r with resp := r.fenced die } else r)
    forwards := s.forwards.map (fun f => if f.stage = 0 && f.dst / 8 = die then { f with stage := 2 } else f) }

/-! ### Isolation and spares (R298–R300) -/

/-- R298: the report that makes the supervisor isolate a core. -/
def State.isolates (s : State) (core : Nat) : Bool :=
  let pol := (s.die (dieOf core)).spol
  let lives := (List.range 4).map (fun k => (s.thread (tidOf core k)).life)
  (pol.getLsbD 0 && (s.core core).stopped) ||
  (pol.getLsbD 2 && lives.any (· = .halted) && lives.all (fun l => l = .halted || l = .free))

/-- R298, R299, R372. -/
def execCoreIsolate (core : Nat) (s : State) : Out :=
  if (s.core core).iso || !s.isolates core then .next s
  else .next ((s.modCore core (fun x => { x with iso := true })).postEvent (some (dieOf core)) 0x0E
    (BitVec.ofNat 64 core) 0)

/-- The physical row of a core in its die. -/
def rowOf (core : Nat) : Nat := core % 256 / 8

/-- R298: the spare of the row may take the core's place. -/
def State.substitutes (s : State) (core : Nat) : Bool :=
  let x := s.die (dieOf core)
  (s.core core).iso && x.spol.getLsbD 1 && x.spares > 0 && !x.spareUsed.contains (rowOf core) &&
  (List.range 4).all (fun k => (s.thread (tidOf core k)).life = .free)

/-- R300: what the spare holds: windows, tags and channels, their spill queues with them, at reset, frames and regions without
owner. -/
def Core.spare (x : Core) : Core :=
  { x with
    iso := false, stopped := false, subst := true, pcol := some 8, win := Vector.replicate 4 0
    tagCount := Vector.replicate 64 0, tagReady := BitVec.allOnes 64, chan := Vector.replicate 8 []
    spillN := Vector.replicate 8 0, spillHead := Vector.replicate 8 0, spilling := false
    frames := Vector.replicate 24 { ctx := none }, accFrames := Vector.replicate 4 { ctx := none }
    scratchBad := [], accBad := [], bstackBad := [] }

/-- R298, R300. -/
def execSpareSubstitute (core : Nat) (s : State) : Out :=
  if !s.substitutes core then .next s
  else
    let s := s.modCore core Core.spare
    let s := s.modDie (dieOf core) (fun x => { x with spares := x.spares - 1, spareUsed := rowOf core :: x.spareUsed })
    let s := s.postEvent (some (dieOf core)) 0x0E (BitVec.ofNat 64 core) 1
    .next ((List.range 8).foldl (fun s c => s.serveSenders core c) s)

/-! ### Format windows (R169–R172) -/

/-- R170: the three ranges of a window: base and length. -/
def FormatWindow.ranges (w : FormatWindow) : List (Nat × Nat) :=
  [(w.cbase, 8448 * w.blocks), (w.pbase, (if w.fmt = 1 then 6144 else 8192) * w.blocks), (w.sbase, 256 * w.blocks)]

/-- Two ranges share a byte. -/
def overlaps (a b : Nat × Nat) : Bool := a.1 < b.1 + b.2 && b.1 < a.1 + a.2

/-- R169, R172: a window that may be enabled as window i of a die. -/
def Die.mayEnable (x : Die) (d i : Nat) (w : FormatWindow) : Bool :=
  (w.fmt = 1 || w.fmt = 2) && w.blocks ≠ 0 &&
  w.ranges.all (fun r => homeDie r.1 = some d && homeDie (r.1 + r.2 - 1) = some d) &&
  (List.range 16).all (fun j =>
    if h : j < 16 then
      j = i || !x.fw[j].en || w.ranges.all (fun r => x.fw[j].ranges.all (fun q => !overlaps r q))
    else true)

def Die.window (x : Die) (i : Nat) : FormatWindow := if h : i < 16 then x.fw[i] else {}
def State.setWindow (s : State) (d i : Nat) (w : FormatWindow) : State :=
  s.modDie d (fun x => if h : i < 16 then { x with fw := x.fw.set i w } else x)

/-- R172: every container line of a window that the L2 holds is written back and discarded. -/
def State.flushWindow (s : State) (d i : Nat) : State :=
  let w := (s.die d).window i
  ((s.die d).container.keys.filter (fun k => w.cbase ≤ 256 * k && 256 * k < w.cbase + 8448 * w.blocks)).foldl
    (fun s k => s.cleanContainer d (256 * k) false) s

/-- The bits of FWCTL that a write may change. -/
def fwctlMask : Word := 0xF1FFFFFFFFFFFF00

/-- R169, R172: a write to FWCTL. The write "with EN = 1 that changes FMT or CBASE", which is refused, is one that finds and
leaves the window enabled; one that clears EN may change them (DESIGN CHOICE, log 52). -/
def State.writeFwctl (s : State) (who : Who) (d i : Nat) (v : Word) : Wrote :=
  let w := (s.die d).window i
  let w' := { w with fwctl := v &&& fwctlMask }
  if whoIsThread who then refuse51 s
  else if w.en then
    if w'.en then
      if w'.fmt ≠ w.fmt || w'.cbase ≠ w.cbase then refuse51 s else { s := s }
    else { s := (s.flushWindow d i).setWindow d i w' }
  else if w'.en && !(s.die d).mayEnable d i w' then refuse51 s
  else { s := s.setWindow d i w' }

/-- R169: the address of a window's register. -/
def windowReg (d i off : Nat) : Word := dieReg d (0x20000 + 0x20 * i + off)

/-- R172. -/
def execFormatWindowEnable (who : Who) (die win : Nat) (value : Word) (s : State) : Out :=
  .next (s.store who (windowReg die win 0) (s.writeFwctl who die win (value ||| 1#64 <<< 63)))
/-- R172. -/
def execFormatWindowDisable (who : Who) (die win : Nat) (value : Word) (s : State) : Out :=
  .next (s.store who (windowReg die win 0) (s.writeFwctl who die win (value &&& ~~~(1#64 <<< 63))))

/-! ### Soft errors (R147, R227, R260, R267) -/

/-- R234: the base offset of the object that holds an offset, and what it is (DESIGN CHOICE, log 10). -/
def objectBase (off : Nat) : Nat :=
  if 0x10000 ≤ off && off < 0x12000 then off / 0x20 * 0x20
  else if 0x20000 ≤ off && off < 0x50000 then off / 0x10 * 0x10
  else off / 8 * 8

/-- R260: the object that a parked thread waits for. -/
def Wait.object : Wait → Option (Nat × Nat)
  | .jwait c i _ _ _ => some (c, 0x40000 + 0x10 * i)
  | .barWait c i _ => some (c, 0x10000 + 0x20 * i)
  | .barT1 c i _ => some (c, 0x10000 + 0x20 * i)
  | .ldf c i _ => some (c, 0x20000 + 0x10 * i)
  | _ => none

/-- R260: an object is poisoned; every thread parked on it traps. -/
def State.poisonObject (s : State) (c off : Nat) : State :=
  let o := objectBase off
  let s := s.modCluster c (fun x => { x with poisoned := (o :: x.poisoned).eraseDups })
  (s.parkedWith (fun _ w => w.object = some (c, o))).foldl
    (fun s t => s.trapParked t { code := 0x0D, eval := clusterReg c o }) s

/-- R147, R372: an uncorrectable word of core storage is reported with its location (DESIGN CHOICE, log 10). -/
def State.coreError (s : State) (core kind at_ : Nat) : State :=
  s.postEvent (some (dieOf core)) 0x02 (BitVec.ofNat 64 core) (BitVec.ofNat 64 (kind * 2 ^ 32 + at_))

/-- R260, R372. -/
def State.clusterError (s : State) (c : Nat) (a : Word) (kind : Nat) : State :=
  s.postEvent (some (c / 8)) 0x04 a (BitVec.ofNat 64 kind)

/-- A number joins a list of marks. -/
def mark (l : List Nat) (x : Nat) : List Nat := if l.contains x then l else x :: l

/-- The message at a place of a list is uncorrectable. -/
def spoil : List Message → Nat → List Message
  | [], _ => []
  | m :: r, 0 => { m with bad := true } :: r
  | m :: r, n + 1 => m :: spoil r n

/-- R147, R227, R260, R267: a word becomes uncorrectable. -/
def State.spoilSite (s : State) : Site → State
  | .memory pa => { s with memBad := mark s.memBad (pa / 8 * 8) }
  | .scratch core off =>
    (s.modCore core (fun x => { x with scratchBad := mark x.scratchBad (off / 8 * 8) })).coreError core 0 off
  | .register core slot phys =>
    if phys = 96 || phys ≥ 108 then s
    else (s.modThread (tidOf core slot) (fun t => { t with badRegs := mark t.badRegs phys })).coreError core 1
      (slot * 256 + phys)
  | .channel core ch pos =>
    (s.modCore core (fun x => x.setChannel ch (spoil (x.channel ch) pos))).coreError core 2 (ch * 256 + pos)
  | .coreControl core => (s.modCore core (fun x => { x with stopped := true })).coreError core 3 0
  | .accumulator core row col =>
    (s.modCore core (fun x => { x with accBad := mark x.accBad (512 * row + 4 * col) })).coreError core 4
      (512 * row + 4 * col)
  | .bstack core slice off =>
    (s.modCore core (fun x => { x with bstackBad := mark x.bstackBad ((8192 * slice + off) / 8 * 8) })).coreError
      core 5 (8192 * slice + off)
  | .clusterObject c off => (s.poisonObject c off).clusterError c (clusterReg c (objectBase off)) 0
  | .clusterQueue c =>
    (s.modCluster c (fun x => { x with stopped := true })).clusterError c (BitVec.ofNat 64 c) 1
  | .recordState c r =>
    { s with memBad := mark s.memBad (s.recAddr c r + 0xC0) }.clusterError c (BitVec.ofNat 64 c) 2

/-- R147, R260, R267: a corrected error is counted. -/
def State.countCorrected (s : State) (site : Site) : State :=
  let core (c : Nat) : State := s.modCore c (fun x => { x with cerr := sat32 (x.cerr + 1) })
  let cluster (c : Nat) : State := s.modCluster c (fun x => { x with cerr := sat32 (x.cerr + 1) })
  match site with
  | .memory pa => (match homeDie pa with
    | some d => s.modDie d (fun x => { x with cerr := x.cerr + 1 })
    | none => s)
  | .scratch c _ => core c
  | .register c _ _ => core c
  | .channel c _ _ => core c
  | .coreControl c => core c
  | .accumulator c _ _ => core c
  | .bstack c _ _ => core c
  | .clusterObject c _ => cluster c
  | .clusterQueue c => cluster c
  | .recordState c _ => cluster c

/-- R147, R227, R260, R267. -/
def execSoftError (site : Site) (uncorrectable : Bool) (s : State) : Out :=
  .next (if uncorrectable then s.spoilSite site else s.countCorrected site)

/-! ### Links (R346, R347, R355, R356) -/

/-- R372: the two dies of a die pair, pairs in rising order (DESIGN CHOICE, log 11). -/
def pairDies (link : Nat) : Nat × Nat :=
  match link with
  | 0 => (0, 1)
  | 1 => (0, 2)
  | 2 => (0, 3)
  | 3 => (1, 2)
  | 4 => (1, 3)
  | _ => (2, 3)

/-- R301: the links of a die: its pairs and its UCIe link. -/
def dieLinks (d : Nat) : List Nat :=
  (List.range 6).filter (fun l => (pairDies l).1 = d || (pairDies l).2 = d) ++ [8 + d]

/-- R346: a die pair or a UCIe link. -/
def isDieLink (l : Nat) : Bool := l < 6 || (8 ≤ l && l < 12)
/-- R372: a CXL port's link. -/
def isCxlLink (l : Nat) : Bool := 16 ≤ l && l < 24

/-- R371, R372: a link event of Selvedge. -/
def State.linkEvent (s : State) (link : Nat) (what : Word) : State :=
  s.postEvent none 0x0C (BitVec.ofNat 64 link) what

/-- R347: a lane of a link is remapped onto a spare. -/
def execLaneRepair (link : Nat) (s : State) : Out :=
  if isDieLink link then
    .next ((s.modPkg (fun p => { p with spareLanes := p.spareLanes.put link (p.spareLanes.get 0 link + 1) })).linkEvent
      link 0)
  else .next s

/-- R301, R347: a link goes down; a die with no link left is fenced. -/
def execDieLinkDown (link : Nat) (s : State) : Out :=
  if !isDieLink link || !s.pkg.linksUp.getLsbD link then .next s
  else
    let s := (s.modPkg (fun p => { p with linksUp := p.linksUp &&& ~~~(1#16 <<< link) })).linkEvent link 1
    .next ((List.range 4).foldl (fun s d =>
      if (dieLinks d).all (fun l => !s.pkg.linksUp.getLsbD l) then s.fenceDie d 2 else s) s)

/-- R355, R372: a link comes up. -/
def execLinkUp (link : Nat) (s : State) : Out :=
  if isDieLink link then
    .next ((s.modPkg (fun p => { p with linksUp := p.linksUp ||| (1#16 <<< link) })).linkEvent link 2)
  else if isCxlLink link then
    .next ((s.modPkg (fun p => { p with cxlUp := p.cxlUp ||| (1#8 <<< (link - 16)) })).linkEvent link 2)
  else .next s

/-- R356: a CXL port goes down. -/
def execCxlPortDown (port : Nat) (s : State) : Out :=
  if port < 8 && s.pkg.cxlUp.getLsbD port then
    .next ((s.modPkg (fun p => { p with cxlUp := p.cxlUp &&& ~~~(1#8 <<< port) })).linkEvent (16 + port) 1)
  else .next s

end Sys2Proof.Machine
end

