-- ==== Sys2Proof/Machine/Gradient.lean ====
section
/-! DEFINITION. The task gradient (R324–R344): routing decisions, forwarding, aging, epochs, adverts and
visitors. -/

namespace Sys2Proof.Machine

/-! ### Epochs (R325–R331) -/

/-- R326: GTHR, GCOST and PEN, as they stood at the start of the clock of a boundary, come into force. -/
def Cluster.takeEffect (x : Cluster) (clock : Nat) : Cluster :=
  let r := if x.setAt < clock then x.set else x.was
  { x with hystEff := r.hyst, tstayEff := r.tstay, tlowEff := r.tlow, gcostEff := r.gcost, penEff := r.pen }
/-- R330: the published values. -/
def Cluster.publish (x : Cluster) (v : Nat × Bool × Nat × Nat) : Cluster :=
  { x with published := true, pubP := v.1, pubFull := v.2.1, pubD := v.2.2.1, pubDloc := v.2.2.2 }

/-- R342: what a boundary takes as Nb(7) of a cluster. -/
def State.takeNb7 (s : State) (c : Nat) (x : Cluster) : Cluster :=
  { x with nb7 := if x.penEff then s.gatewayBest (s.die (c / 8)).part else none }

/-- R330, R444: the next boundary that has come, the first at clock 0: every router of the package samples and publishes, on what the neighbours
published at the boundary before it; Nb(7) is taken first, and counts in this boundary's distances (DEDUCED, log 48). -/
def execEpochBoundary (s : State) : Out :=
  let e := s.epoch
  if s.clock < 64 * e then .next s
  else
  let s := { s with epoch := e + 1 }
  let t := (List.range 32).foldl (fun s c => s.modCluster c (fun x => s.takeNb7 c (x.takeEffect (64 * e)))) s
  let pub := (List.range 32).map (fun c => (c, t.epochOf c))
  .next (pub.foldl (fun s p => s.modCluster p.1 (fun x => x.publish p.2)) t)

/-! ### Routing (R332–R336) -/

/-- R333: a hop is charged: TTL − 1, HOPS + 1 up to 255. -/
def chargeHop (w : Nat) : Nat :=
  let hops := min 255 (bits w 15 8 + 1)
  bits w 63 16 * 0x10000 + hops * 256 + bits w 7 5 * 32 + (bits w 4 0 - 1)

/-- R343: the record of a task as it travels to another package. -/
def State.travelCopy (s : State) (c : Nat) (t : Task) : List Byte :=
  match t.visitor with
  | some (_, copy) => copy
  | none =>
    let bs := (s.homeReadAll (s.recAddr c t.recIx) 256).2
    overlay (overlay bs 0xE0 (leBytes 8 ((s.recWord c t.recIx 0xE0).toNat ||| 0x10000))) 0xF0
      (leBytes 8 s.pkg.peer.toNat)

/-- R336, R343: the task leaves on a port. -/
def State.forwardOn (s : State) (c p : Nat) (t : Task) : State :=
  let (s, t) := s.setTaskWord c t 0xE0 (BitVec.ofNat 64 (chargeHop (s.taskWord c t 0xE0).toNat))
  let add (dst : Nat) (s : State) : State :=
    { s with forwards := s.forwards ++ [{ id := s.nextId, task := { t with since := s.clock }, src := c, dst := dst }]
             nextId := s.nextId + 1 }
  if p = 7 then
    let q := (s.die (c / 8)).part
    match (s.cluster c).nb7 with
    | none => s.enterRouter c t
    | some (i, e) =>
      (add (32 + 8 * q + i) s).sendUrgent q e.peer.toNat
        { typ := 0x0B, hdl := s.nextId % 4096, off := t.recIx, len := 255, payload := s.travelCopy c t }
  else match neighbour c p with
    | some n => add n s
    | none => s.enterRouter c t

/-- R332: the first entering task whose four clocks have passed. -/
def Cluster.due (x : Cluster) (clock : Nat) : Option Task := x.entering.find? (fun t => t.since + 4 ≤ clock)

/-- R335: the decision for a task. -/
def execRoutingDecision (cluster : Nat) (s : State) : Out :=
  match if s.clocked (cluster / 8) then (s.cluster cluster).due s.clock else none with
  | none => .next s
  | some t =>
    let s := s.modCluster cluster (fun x => { x with entering := x.entering.erase t, ranAt := some s.clock })
    match s.routeOf cluster t with
    | none => .next (s.enqueue cluster t)
    | some p => .next (s.forwardOn cluster p t)

/-! ### Forwarding (R336, R337) -/

def State.fwdOf (s : State) (id : Nat) : Option Forward := s.forwards.find? (fun f => f.id = id)
def State.dropFwd (s : State) (id : Nat) : State := { s with forwards := s.forwards.filter (fun f => f.id ≠ id) }
def State.modFwd (s : State) (id : Nat) (f : Forward → Forward) : State :=
  { s with forwards := s.forwards.map (fun x => if x.id = id then f x else x) }

/-- R336: the port of cluster `dst` that leads back to `src`. -/
def portTo (dst src : Nat) : Option Nat := (List.range 7).find? (fun p => neighbour dst p = some src)

/-- R336: the receiver refuses. -/
def State.refusesForward (s : State) (src dst : Nat) : Bool :=
  s.infinite dst || decide ((s.cluster dst).used ≥ 256) ||
  decide ((s.die (src / 8)).part ≠ (s.die (dst / 8)).part) ||
  (match portTo dst src with | some p => !s.portLive dst p | none => true)

/-- R247, R336: a held continuation becomes an armed task; its counter no longer stands for it. -/
def State.releaseHeld (s : State) (src : Nat) (t : Task) : State :=
  match t.contOf with
  | some i => (s.setJoin src i { s.join src i with cq := false }).setRecState src t.recIx 1
  | none => s

/-- R336: the forward arrives: accepted with a pool slot, or refused. -/
def execForwardArrival (fwd : Nat) (s : State) : Out :=
  match s.fwdOf fwd with
  | none => .next s
  | some f =>
    if f.stage ≠ 0 || f.dst ≥ 32 || !s.clocked (f.dst / 8) then .next s
    else if s.refusesForward f.src f.dst then .next (s.modFwd fwd (fun f => { f with stage := 2 }))
    else
      let s := s.modCluster f.dst (fun x => { x with used := x.used + 1, gcntIn := sat32 (x.gcntIn + 1) })
      let s := s.releaseHeld f.src f.task
      .next ((s.enterRouter f.dst { f.task with contOf := none }).modFwd fwd (fun f => { f with stage := 1 }))

/-- R336: the sender's slot is freed and GCNT.OUT counts. -/
def State.forwardOut (s : State) (f : Forward) : State :=
  s.modCluster f.src (fun x => { x with
    used := if f.task.contOf.isSome then x.used else x.used - 1, gcntOut := sat32 (x.gcntOut + 1) })

/-- R336, R343: the acceptance reaches the sender. A forward to another package is accepted there. -/
def execForwardAcceptance (fwd : Nat) (s : State) : Out :=
  match s.fwdOf fwd with
  | none => .next s
  | some f =>
    if f.stage = 1 then .next ((s.forwardOut f).dropFwd fwd)
    else if f.stage = 0 && f.dst ≥ 32 then
      .next (((s.forwardOut f).releaseHeld f.src f.task).dropFwd fwd)
    else .next s

/-- R336: the next epoch boundary. -/
def nextBoundary (clock : Nat) : Nat := (clock / 64 + 1) * 64

/-- R336, R343: a refused task enters its sender's router at the next boundary. -/
def execForwardRefusal (fwd : Nat) (s : State) : Out :=
  match s.fwdOf fwd with
  | none => .next s
  | some f =>
    if f.stage = 2 || (f.stage = 0 && f.dst ≥ 32) then
      .next ((s.modCluster f.src (fun x => { x with
        entering := x.entering ++ [{ f.task with since := nextBoundary s.clock }] })).dropFwd fwd)
    else .next s

/-! ### Aging (R339) -/

/-- R339: the tasks of a level that have waited 2^16 clocks move to the tail of the next one. -/
def execTaskAging (cluster level : Nat) (s : State) : Out :=
  if !s.clocked (cluster / 8) then .next s
  else .next (s.modCluster cluster (fun x =>
    if h : level + 1 < 4 then
      let old := x.queues[level].filter (fun t => t.since + 65536 ≤ s.clock)
      let stay := x.queues[level].filter (fun t => !(t.since + 65536 ≤ s.clock))
      let q := x.queues.set level stay
      { x with queues := q.set (level + 1) (q[level + 1] ++ old.map (fun t => { t with since := s.clock })) }
    else x))

/-! ### Adverts (R342) -/

/-- R342: the cluster of a partition with least published DLOC. -/
def State.advertised (s : State) (q : Nat) : Option Nat :=
  let cs := (List.range 32).filter (fun c => s.owner (c / 8) = some q)
  (sortBy (fun a b => (s.cluster a).pubDloc < (s.cluster b).pubDloc ||
    ((s.cluster a).pubDloc = (s.cluster b).pubDloc && a ≤ b)) cs).head?

def State.modPeer (s : State) (i : Nat) (f : PeerEntry → PeerEntry) : State :=
  s.modPkg (fun p => if h : i < 32 then { p with peers := p.peers.set i (f p.peers[i]) } else p)
def State.peerEntry (s : State) (i : Nat) : PeerEntry := if h : i < 32 then s.pkg.peers[i] else {}

/-- R342: an advert's payload: cluster, DLOC and P (DESIGN CHOICE, log 6). -/
def advertBytes (c dloc p : Nat) : List Byte := leBytes 1 c ++ leBytes 1 dloc ++ leBytes 2 p

/-- R342: one advert to every peer of an enabled entry. -/
def execGradientAdvertSend (s : State) : Out :=
  if s.clock < s.fab.advAt + 1024 then .next s
  else
  let s := s.modFab (fun b => { b with advAt := s.clock })
  .next ((List.range 4).foldl (fun s q =>
    match s.advertised q with
    | none => s
    | some c =>
      let s := s.modFab (fun b => if h : q < 4 then { b with advCluster := b.advCluster.set q c } else b)
      (List.range 8).foldl (fun s i =>
        let e := s.peerEntry (8 * q + i)
        if e.en then
          s.sendPlain q e.peer.toNat
            { typ := 0x15, payload := advertBytes c (s.cluster c).pubDloc (s.cluster c).pubP }
        else s) s) s)

/-- R342: an advert that arrives for a partition replaces AD and AP of the entry that names its sender. -/
def State.takeAdvert (s : State) (f : Flit) : State :=
  (List.range 8).foldl (fun s i =>
    let e := s.peerEntry (8 * f.qd + i)
    if e.en && decide (e.peer.toNat = f.src) then
      s.modPeer (8 * f.qd + i) (fun e => { e with
        live := true, at_ := s.clock, ad := leNat ((f.payload.drop 1).take 1), ap := leNat ((f.payload.drop 2).take 2) })
    else s) s

/-- R342: no advert for 8,192 clocks. -/
def execAdvertTimeout (part entry : Nat) (s : State) : Out :=
  let i := 8 * part + entry
  if (s.peerEntry i).at_ + 8192 ≤ s.clock then
    .next (s.modPeer i (fun e => { e with live := false, ad := 0xFF, ap := 0xFFFF }))
  else .next s

/-! ### Visitors (R343, R344) -/

/-- R343, R390: the outcome of a forward to another package is not known when FTO has passed; the task stays in flight. -/
def execVisitorOutcomeUnknown (fwd : Nat) (s : State) : Out :=
  match s.fwdOf fwd with
  | none => .next s
  | some f =>
    if f.dst ≥ 32 && f.stage = 0 && decide (f.task.since + s.fab.fto * 2400 ≤ s.clock) then
      .next ((s.postEvent none 0x08 (BitVec.ofNat 64 f.task.recIx)
        ((s.peerEntry (f.dst - 32)).peer.zeroExtend 64)).modFwd fwd (fun f => { f with stage := 3 }))
    else .next s

/-- R328, R336, R343: a visiting record that arrives is accepted, when the state after it is given. -/
def State.acceptVisitor (s : State) (f : Flit) : Option State :=
  let named := (List.range 32).any (fun i => (s.peerEntry i).en && decide ((s.peerEntry i).peer.toNat = f.src))
  let c := if h : f.qd < 4 then s.fab.advCluster[f.qd] else 0
  if !named || s.infinite c || decide ((s.cluster c).used ≥ 256) || s.owner (c / 8) != some f.qd || !s.portLive c 7 then none
  else
    let w := leNat ((f.payload.drop 0x30).take 8)
    let home := leNat ((f.payload.drop 0xF0).take 8) % 4096
    let t : Task := { recIx := f.off % 0x10000, pri := w % 4, cost := bits w 23 8, since := s.clock
                      visitor := some (home, f.payload) }
    some ((s.modCluster c (fun x => { x with used := x.used + 1, gcntIn := sat32 (x.gcntIn + 1) })).enterRouter c t)

/-- R344: the cluster whose table holds a record of a partition: every cluster of the job holds the same table
(R229), and the lowest stands for it. -/
def State.recordHome (s : State) (q recIx : Nat) : Option Nat :=
  (List.range 32).find? (fun c => s.owner (c / 8) = some q && decide (recIx < (s.cluster c).lrCount))

/-- R344: a visitor's change of STATE arrives at the record's home, with the signal of its DONE. -/
def execVisitorStateChange (name : RecordName) (state : Nat) (joina : Word) (done : Bool) (s : State) : Out :=
  let s := match s.recordHome name.part name.ix with
    | some c => s.setRecState c name.ix state
    | none => s
  if done then
    match objectAt .join joina with
    | some (c, i) => if s.owner (c / 8) = some name.part then .next (s.signalJoin (32 * c) c i 1).1 else .next s
    | none => .next s
  else .next s

end Sys2Proof.Machine
end

