-- ==== Sys2Proof/Machine/FlitForm.lean ====
section
/-! DEFINITION. Flits as bytes (R383–R386): the header's fields, the types, the CRC and the tag, and the 288 bytes of a
flit that has been sent or that arrives. -/

namespace Sys2Proof.Machine

/-! ### Types (R384) -/

/-- R384: the sequenced types. -/
def sequenced (typ : Nat) : Bool := decide (1 ≤ typ) && decide (typ ≤ 0x0C)
/-- R384: the types of the table. -/
def listedType (typ : Nat) : Bool := sequenced typ || (decide (0x10 ≤ typ) && decide (typ ≤ 0x15))

/-! ### Header and trailer (R383, R385) -/

/-- R383: the header, as a number. -/
def flitHeaderBits (f : Flit) : Nat :=
  f.typ % 2 ^ 6 + (if f.tcm then 2 ^ 6 else 0) + (if f.nar then 2 ^ 7 else 0) + f.dst % 2 ^ 12 * 2 ^ 8 + f.src % 2 ^ 12 * 2 ^ 20 +
    f.qs % 4 * 2 ^ 32 + f.qd % 4 * 2 ^ 34 + f.seq % 2 ^ 24 * 2 ^ 36 + f.hdl % 2 ^ 12 * 2 ^ 60 + f.off % 2 ^ 40 * 2 ^ 72 +
    f.len % 2 ^ 8 * 2 ^ 112 + f.aux % 2 ^ 8 * 2 ^ 120
/-- R383: bytes 0 to 15. -/
def flitHeader (f : Flit) : List Byte := leBytes 16 (flitHeaderBits f)

/-- R383: the fields of a header, with a payload of LEN + 1 bytes. -/
def flitOfHeader (h : Nat) (payload : List Byte) : Flit :=
  { typ := bits h 5 0, tcm := bits h 6 6 = 1, nar := bits h 7 7 = 1, dst := bits h 19 8, src := bits h 31 20
    qs := bits h 33 32, qd := bits h 35 34, seq := bits h 59 36, hdl := bits h 71 60, off := bits h 111 72
    len := bits h 119 112, aux := bits h 127 120, payload := payload.take (bits h 119 112 + 1) }

/-- One bit of the CRC-32 of IEEE 802.3, least significant bit first. -/
def crcBit (c : BitVec 32) : BitVec 32 := if c.getLsbD 0 then (c >>> 1) ^^^ 0xEDB88320#32 else c >>> 1
/-- One byte. -/
def crcByte (c : BitVec 32) (b : Byte) : BitVec 32 :=
  let x := c ^^^ b.zeroExtend 32
  crcBit (crcBit (crcBit (crcBit (crcBit (crcBit (crcBit (crcBit x)))))))
/-- R385: the CRC-32 of IEEE 802.3. -/
def crc32 (bs : List Byte) : BitVec 32 := ~~~(bs.foldl crcByte (BitVec.allOnes 32))

/-- R385: the IV: SRC, QS, DST, QD, U, WRAP and SEQ from the top; the last two are the counter of the flit's class. -/
def flitIv (f : Flit) : Nat :=
  f.nonce % 2 ^ 67 + (if sequenced f.typ then 0 else 2 ^ 67) + f.qd % 4 * 2 ^ 68 + f.dst % 2 ^ 12 * 2 ^ 70 + f.qs % 4 * 2 ^ 82 +
    f.src % 2 ^ 12 * 2 ^ 84

/-- Bytes 16 to 271 before encryption; the spec leaves the bytes behind LEN + 1 open, zero here (DESIGN CHOICE, log 6). -/
def flitPadded (f : Flit) : List Byte := let p := f.payload.take (f.len + 1); p ++ List.replicate (256 - p.length) 0

/-- R386: the keys under which the flits of two partitions pass, or the LCTL and SYNC flits of two packages. -/
def State.flitKeys (s : State) (typ q x : Nat) : LinkKeys :=
  if typ = 0x13 || typ = 0x14 then s.fab.pairKeys.get {} x else s.fab.keys.get {} (connKey q x)

/-- Bytes 0 to 271 and the tag. -/
def flitSealed (f : Flit) (key : BitVec 256) : List Byte :=
  (flitHeader f) ++ Config.gcmText key (flitIv f) (flitHeader f) (flitPadded f) ++ leBytes 12 (Config.gcmTag key (flitIv f) (flitHeader f) (flitPadded f)).toNat
/-- R383, R385: the 288 bytes of a flit under a key. -/
def flitBytes (f : Flit) (key : BitVec 256) : List Byte := flitSealed f key ++ leBytes 4 (crc32 (flitSealed f key)).toNat
/-- R383, R385: the bytes of a flit that this package has sent as its own. -/
def State.sentBytes (s : State) (f : Flit) : List Byte := (flitBytes f) (s.flitKeys f.typ f.qs f.dst).send

/-- R383, R385: the flit that 288 bytes are, with what its CRC and its tag come to; `nonce` is the counter that the receiver
expects of its class. A flit event carries its flit as this reads it. -/
def State.flitOfBytes (s : State) (bs : List Byte) (port wave nonce : Nat) : Flit :=
  let h := leNat (bs.take 16)
  let f := { flitOfHeader h [] with port := port, wave := wave, nonce := nonce }
  let key := (s.flitKeys f.typ f.qd f.src).receive
  let text := Config.gcmText key (flitIv f) (flitHeader f) ((bs.drop 16).take 256)
  { f with payload := text.take (f.len + 1)
           crcOk := crc32 (bs.take 284) = BitVec.ofNat 32 (leNat (bs.drop 284))
           tagOk := Config.gcmTag key (flitIv f) (flitHeader f) text = BitVec.ofNat 96 (leNat ((bs.drop 272).take 12)) }

/-! ### Keys (R386) -/

/-- R358, R386: the exchange of two packages: its keys are drawn from the number of the exchange, the label and the seeds, of
which this side's is named by the partition's KEYGEN. -/
def keysOf (exchange label seed : Nat) : LinkKeys :=
  { send := Config.linkKey exchange (2 * label) seed, receive := Config.linkKey exchange (2 * label + 1) seed }

end Sys2Proof.Machine
end

