-- ==== Sys2Proof/Machine/Package.lean ====
section
/-! DEFINITION. The package and its host (R346–R372): the host's windows, partitions, trusted interfaces, bring-up,
power, temperature, the global time and MSI-X. -/

namespace Sys2Proof.Machine

/-! ### Partitions (R357) -/

/-- The dies of a set. -/
def diesOf (m : BitVec 4) : List Nat := (List.range 4).filter (fun d => m.getLsbD d)

/-- R357: every slot of a die is free. -/
def State.dieFree (s : State) (d : Nat) : Bool :=
  s.tids.all (fun t => dieOf (coreOf t) ≠ d || (s.thread t).life = .free)
/-- R264: a slot of the die is occupied. -/
def State.dieOccupied (s : State) (d : Nat) : Bool :=
  s.tids.any (fun t => dieOf (coreOf t) = d && (s.thread t).life ≠ .free && (s.thread t).life ≠ .suspended)

/-- R357: the checks of a create. -/
def State.mayCreate (s : State) (q : Nat) (dies : BitVec 4) : Bool :=
  dies ≠ 0 && (s.part q).tdi = 0 && (diesOf dies).all s.dieFree &&
  (List.range 4).all (fun r => r = q || !(s.part r).en || (s.part r).dies &&& dies = 0)

/-- R351: the address of PCFG q. -/
def pkgReg (off : Nat) : Word := BitVec.ofNat 64 (0xF4 * 2 ^ 56 + off)

/-- R351: the package block is written by the host only. -/
def isHost : Who → Bool
  | .host _ => true
  | _ => false

/-- R357: a write to PCFG q. -/
def State.writePcfg (s : State) (who : Who) (q : Nat) (v : Word) : Wrote :=
  let p := s.part q
  let dies := v.extractLsb' 0 4
  if !isHost who || p.busy then refuse51 s
  else if p.en then
    if dies ≠ p.dies then refuse51 s
    else if v.getLsbD 63 then { s := s }
    else if p.tdi ≠ 0 || !(diesOf p.dies).all s.dieFree then refuse51 s
    else { s := s.modPart q (fun p => { p with en := false, busy := true, work := 2 }) }
  else if v.getLsbD 63 then
    if s.mayCreate q dies then { s := s.modPart q (fun p => { p with en := true, dies := dies, busy := true, work := 1 }) }
    else refuse51 s
  else { s := s.modPart q (fun p => { p with dies := dies }) }

/-- R357. -/
def execPartitionCreate (who : Who) (part : Nat) (value : Word) (s : State) : Out :=
  .next (s.store who (pkgReg (0x100 + 8 * part)) (s.writePcfg who part (value ||| 1#64 <<< 63)))
/-- R357. -/
def execPartitionDestroy (who : Who) (part : Nat) (value : Word) (s : State) : Out :=
  .next (s.store who (pkgReg (0x100 + 8 * part)) (s.writePcfg who part (value &&& ~~~(1#64 <<< 63))))

/-- R357 step 3: every SRAM of a die is zeroed; cluster objects take their reset values (DEDUCED, log 13), and the cluster
storage of R260 that is no object, the task queues, the pool and the router's state, is empty. -/
def State.zeroSram (s : State) (d : Nat) : State :=
  let s := { s with
    forwards := s.forwards.filter (fun f => f.src / 8 ≠ d && f.dst / 8 ≠ d)
    cores := s.cores.each (fun c x =>
      if dieOf c = d then
        { x with scratch := {}, scratchBad := [], acc := {}, accBad := [], bstack := {}, bstackBad := [] }
      else x)
    clusters := s.clusters.each (fun c x =>
      if c / 8 = d then
        { x with bars := {}, cells := {}, joins := {}, sets := {}, retired := {}, binds := {}, poisoned := []
                 stopped := false, entering := [], queues := Vector.replicate 4 [], used := 0, ranAt := none, nb7 := none
                 published := false, pubP := 0, pubFull := false, pubD := 0xFF, pubDloc := 0xFF }
      else x) }
  s.modDie d (fun x => { x with rdc := {}, container := {} })

/-- Zeroes a range of memory. -/
def State.zeroMemory (s : State) (a n : Nat) : State :=
  { s with mem := s.mem.zero a n, memBad := s.memBad.filter (fun w => w < a || a + n ≤ w) }

/-- R357 step 4: the memory of a partition is zeroed, its second tier under its present key. -/
def State.scrub (s : State) (q : Nat) : State :=
  let p := s.part q
  let s := (diesOf p.dies).foldl (fun s d => s.zeroMemory (0x6000000000 * d) 0x6000000000) s
  let a := 0x100000000000 + p.strBase * 2 ^ 30
  let n := (p.strLimit + 1 - p.strBase) * 2 ^ 30
  if p.strEn then (s.zeroMemory a n).sealLines (a / 256) ((a + n) / 256) (s.keyOf q) else s

/-- R409: a destroyed or stopped partition's entries are CANCELLED, its counters read 0, its groups are at
reset. -/
def State.clearTriggers (s : State) (q : Nat) : State :=
  let r := s.trg.range q
  s.modTrg (fun t => { t with
    entries := if r.en then
        ⟨t.entries.cells.filter (fun c => decide (c.1 < r.ebase)) ++
          (List.range (r.elim + 1 - r.ebase)).map (fun i =>
            (r.ebase + i, { t.entries.get {} (r.ebase + i) with state := 5 })) ++
          t.entries.cells.filter (fun c => decide (r.elim < c.1))⟩
      else t.entries
    counters := t.counters.only (fun c => !r.hasCounter c)
    groups := t.groups.only (fun g => !r.hasGroup g)
    queues := if h : q < 4 then t.queues.set q [] else t.queues })

/-- R357, R360: keys, SRAM and memory are done and BUSY clears: a new key is drawn, or the old one is gone. -/
def execPartitionScrubDone (part : Nat) (s : State) : Out :=
  let p := s.part part
  if !p.busy then .next s
  else
    let dies := diesOf p.dies
    let s := s.modPart part (fun p => { p with keyGen := p.keyGen + 1 })
    let s := if p.work = 2 then s else dies.foldl (fun s d => s.modDie d (fun x => { x with part := part })) s
    let s := dies.foldl State.zeroSram s
    let s := if p.work = 2 then s else s.scrub part
    let s := if p.work = 1 then s else s.clearTriggers part
    .next (s.modPart part (fun p => { p with
      busy := false, work := 0, tdi := if p.work = 3 then 0 else p.tdi }))

/-! ### Trusted interfaces (R360) -/

/-- R360: a reply to the host (DESIGN CHOICE, log 12 numbers the kinds). -/
def State.tdispReply (s : State) (kind status : Nat) (data : List Byte) : State :=
  s.modPkg (fun p => { p with replies := p.replies ++ [{ kind := kind, status := status, data := data }] })

/-- R360: the messages travel inside an SPDM secure session. -/
def State.inSession (s : State) (r : State) : State := if s.pkg.sessions = 0 then s else r

/-- R360. -/
def execLockInterfaceRequest (part : Nat) (s : State) : Out :=
  let p := s.part part
  .next (s.inSession <|
    if p.en && !p.busy && p.tdi = 0 then (s.modPart part (fun p => { p with tdi := 1 })).tdispReply 0x13 0 []
    else s.tdispReply 0x13 1 [])
/-- R360. -/
def execStartInterfaceRequest (part : Nat) (s : State) : Out :=
  .next (s.inSession <|
    if (s.part part).tdi = 1 then (s.modPart part (fun p => { p with tdi := 2 })).tdispReply 0x14 0 []
    else s.tdispReply 0x14 1 [])

/-- R360: every slot of a die is freed and the die's tasks and engine work are discarded. -/
def State.discardWork (s : State) (d : Nat) : State :=
  let mine (tid : Nat) : Bool := dieOf (coreOf tid) = d
  let s := { s with
    threads := s.threads.only (fun t => !mine t)
    reqs := s.reqs.filter (fun r => !mine r.tid)
    scOps := s.scOps.filter (fun o => !mine o.tid)
    forwards := s.forwards.filter (fun f => f.src / 8 ≠ d)
    contexts := s.contexts.filter (fun c => !mine c.tid)
    cores := s.cores.each (fun c x =>
      if dieOf c = d then
        { x with vq := [], vqStarted := false, mq := [], recorded := [], ksends := []
                 chan := Vector.replicate 8 [], pumps := Vector.replicate 8 {}
                 tagCount := Vector.replicate 64 0, tagReady := BitVec.allOnes 64 }
      else x)
    clusters := s.clusters.each (fun c x =>
      if c / 8 = d then { x with entering := [], queues := Vector.replicate 4 [], used := 0 } else x) }
  s.modDie d (fun x => { x with channels := {}, streams := [] })

/-- R360. -/
def execStopInterfaceRequest (part : Nat) (s : State) : Out :=
  let p := s.part part
  .next (s.inSession <|
    if p.tdi ≠ 0 && !p.busy then
      (((diesOf p.dies).foldl State.discardWork s).modPart part (fun p => { p with busy := true, work := 3 })).tdispReply
        0x15 0 []
    else s.tdispReply 0x15 1 [])

/-- A value that the spec leaves open, as data of a reply. -/
def State.openReply (s : State) (kind : Nat) : State := (s.tdispReply kind 0 (leBytes 8 s.freeWord.toNat)).took

/-- R360. -/
def execGetTdispVersion (_part : Nat) (s : State) : Out := .next (s.inSession (s.openReply 0x10))
/-- R360. -/
def execGetTdispCapabilities (_part : Nat) (s : State) : Out := .next (s.inSession (s.openReply 0x11))

/-- R351: the feature words. -/
def feat0 : Nat := 0x3DF73F7FFF7F07FF
def feat1 : Nat := 0x1F
def feat2 : Nat := 0x100004000001
/-- R351: STR q as a word. -/
def Partition.str (p : Partition) : Nat := p.strBase + (if p.strEn then 0x8000 else 0) + p.strLimit * 2 ^ 32

/-- R351: PCFG q as a word. -/
def Partition.pcfg (p : Partition) : Word :=
  BitVec.ofNat 64 ((if p.en then 2 ^ 63 else 0) + p.tdi.toNat * 2 ^ 58 + (if p.busy then 2 ^ 57 else 0) + p.dies.toNat)

/-- R360: what the interface report lists. -/
def State.interfaceReport (s : State) (q : Nat) : List Byte :=
  let p := s.part q
  leBytes 1 p.dies.toNat ++ leBytes 8 feat0 ++ leBytes 8 feat1 ++ leBytes 8 feat2 ++ leBytes 8 p.facc0.toNat ++
    leBytes 8 p.facc1.toNat ++ leBytes 8 0x8000000 ++ leBytes 8 0x1000000000 ++ leBytes 8 p.str

/-- R360. -/
def execGetDeviceInterfaceReport (part : Nat) (s : State) : Out :=
  .next (s.inSession (s.tdispReply 0x12 0 (s.interfaceReport part)))
/-- R360. -/
def execGetDeviceInterfaceState (part : Nat) (s : State) : Out :=
  .next (s.inSession (s.tdispReply 0x16 0 (leBytes 1 (s.part part).tdi.toNat)))

/-- R360: the TDI enters ERROR; the partition's threads keep running. -/
def execIdeIntegrityFailure (part : Nat) (s : State) : Out := .next (s.modPart part (fun p => { p with tdi := 3 }))
/-- R360. -/
def execFunctionLevelReset (part : Nat) (s : State) : Out := .next (s.modPart part (fun p => { p with tdi := 3 }))

/-! ### SPDM and pairing (R361, R362, R386) -/

/-- R361: DOE answers once the ROM has run. -/
def State.spdmAnswers (s : State) : Bool := s.pkg.stage ≠ 1

/-- R361: a reply, of bytes that the spec does not define (DESIGN CHOICE, log 4), which depend on `facts`; status 1 for what
is not offered. -/
def State.spdmReply (s : State) (kind : Nat) (rq : SpdmRequest) (facts : List Byte) (offered : Bool) : State :=
  if !s.spdmAnswers then s
  else if offered then s.tdispReply kind 0 (Config.spdmReply kind rq.index rq.nonce facts)
  else s.tdispReply kind 1 []

/-- R361: what the key of a certificate slot depends on: in slot 0 on the device alone, in slot 1 on the boot, with the image
digest bound by its certificate. -/
def State.slotFacts (s : State) (slot : Nat) : List Byte :=
  if slot = 1 then s.pkg.digest ++ leBytes 8 s.pkg.slotKey.toNat else []

/-- R362: what an index measures; for the ROM nothing that changes. -/
def State.measured (s : State) (i : Nat) : List Byte :=
  if i = 2 then s.pkg.digest
  else if i = 3 then leBytes 8 feat0 ++ leBytes 8 feat1 ++ leBytes 8 feat2 ++ leBytes 1 0x10 ++ leBytes 8 Config.fusedVersion
  else if 0x10 ≤ i then
    let p := s.part (i - 0x10)
    leBytes 8 p.pcfg.toNat ++ leBytes 8 p.facc0.toNat ++ leBytes 8 p.facc1.toNat ++ leBytes 16 0 ++ leBytes 8 p.str ++
      (diesOf p.dies).flatMap (fun d =>
        leBytes 8 (s.die d).ptBase.toNat ++ leBytes 1 (if (s.die d).ptEn then 1 else 0) ++ leBytes 1 (s.die d).spol.toNat)
  else []

/-- R361: slots 0 and 1. -/
def execSpdmCert (rq : SpdmRequest) (s : State) : Out := .next (s.spdmReply 1 rq (s.slotFacts rq.index) (rq.index < 2))
/-- R361. -/
def execSpdmChal (rq : SpdmRequest) (s : State) : Out := .next (s.spdmReply 2 rq (s.slotFacts rq.index) (rq.index < 2))
/-- R361, R362: the measured indices. -/
def execSpdmMeas (rq : SpdmRequest) (s : State) : Out :=
  .next (s.spdmReply 3 rq (s.measured rq.index) ((1 ≤ rq.index && rq.index ≤ 3) || (0x10 ≤ rq.index && rq.index < 0x14)))
/-- R361: a key exchange opens a secure session. -/
def execSpdmKeyEx (rq : SpdmRequest) (s : State) : Out :=
  let s' := s.spdmReply 4 rq (s.slotFacts rq.index) true
  .next (if s.spdmAnswers then s'.modPkg (fun p => { p with sessions := p.sessions + 1 }) else s')

/-- R386: the host pairs a partition with one of a peer: an exchange, and the keys of the connection and of the two packages
that it yields. When the peer's identity does not pass, nothing is paired. -/
def execPartitionPairing (part peer remote : Nat) (s : State) : Out :=
  .next (if Config.exchangePasses s.free then
    (s.modFab (fun f => { f with
      pairs := f.pairs.put (connKey part peer) (remote % 4)
      keys := f.keys.put (connKey part peer) (keysOf s.free 0 (s.part part).keyGen)
      pairKeys := f.pairKeys.put peer (keysOf s.free 1 0) })).took
  else s.took)

/-! ### Bring-up (R366, R367) -/

/-- R361, R366: the ROM runs and ends, and stage LINK begins; the slot-1 key of this boot is new. -/
def execPerstDeassert (s : State) : Out :=
  if s.pkg.perst then .next s
  else .next (s.modPkg (fun p => { p with perst := true, stage := 2, slotKey := s.freeWord })).took

/-- R366: the link answers configuration requests. -/
def execHostLinkUp (s : State) : Out :=
  .next (s.modPkg (fun p => { p with hostLink := true, stage := if p.stage = 2 then 3 else p.stage }))

/-- R367: the sections of an image: kind, offset, length. -/
def sectionsOf (m : Memory) : List (Nat × Nat × Nat) :=
  (List.range 16).map (fun i =>
    let a := 0x1D20 + 16 * i
    (m.readNat a 4, m.readNat (a + 8) 4, m.readNat (a + 12) 4))

/-- R367: each used section lies inside the image, and kinds 1 to 3 are present once. -/
def sectionsOk (m : Memory) (len : Nat) : Bool :=
  let l := (sectionsOf m).filter (fun x => x.1 ≠ 0)
  l.all (fun x => x.2.1 + x.2.2 ≤ len) && [1, 2, 3].all (fun k => (l.filter (fun x => x.1 = k)).length = 1)

/-- R367: magic, version and length. -/
def headerOk (m : Memory) (len : Nat) : Bool :=
  m.readNat 0 4 = 0x57464B47 && m.readNat 4 4 = 1 && m.readNat 8 8 = len && len ≤ 0x4000000

/-- R367: the digest field of an image. -/
def imageDigest (m : Memory) : List Byte := m.readBytes 0x40 64

/-- R367: the checks in order; the ECODE of the first that fails. -/
def State.verify (s : State) : Option Nat :=
  let m := s.pkg.staging
  let len := s.pkg.fwlen
  let key := m.readBytes 0x1300 2592
  if !headerOk m len then some 1
  else if Config.sha3 key ≠ Config.fusedKey then some 2
  else if !Config.signed key (m.readBytes 0 0x80) (m.readBytes 0x80 4627) then some 3
  else if Config.sha3 (m.readBytes 0x1D20 (len - 0x1D20)) ≠ imageDigest m then some 4
  else if m.readNat 0x10 8 < Config.fusedVersion then some 5
  else if !sectionsOk m len then some 6
  else none

/-- R366: FWGO.GO in stage WAITIMG begins VERIFY. -/
def State.startImage (s : State) : State :=
  if s.pkg.stage = 3 then s.modPkg (fun p => { p with stage := 4 }) else s

/-- R366, R367: stage VERIFY, which the model ends with the clock it began in (DESIGN CHOICE, log 19), passes or fails. -/
def State.endVerify (s : State) : State :=
  if s.pkg.stage ≠ 4 then s
  else match s.verify with
  | some e => s.modPkg (fun p => { p with stage := 0xFF, ecode := BitVec.ofNat 16 e })
  | none =>
    let image := s.pkg.staging.readBytes 0 s.pkg.fwlen
    s.modPkg (fun p => { p with
      stage := 5, secVersion := BitVec.ofNat 32 (p.staging.readNat 0x10 8), build := Config.imageBuild image
      services := Config.imageServices image, digest := imageDigest p.staging })

/-- R367. -/
def execFwgo (who : Who) (s : State) : Out :=
  .next (s.store who (pkgReg 0x310) (if isHost who then { s := s.startImage } else refuse51 s))

/-- R352: the time count starts at a value. -/
def State.setTime (s : State) (v : Int) : State :=
  s.modPkg (fun p => { p with gtOffset := v - (s.clock * 5 / 12 : Nat), gtSlew := 0 })

/-- R355: the firmware has found the devices; what WAYS interleaves is mapped, as far as the smallest of its devices goes
(DESIGN CHOICE, log 57: the rule does not say how BLOCKS follows from the devices). -/
def State.mapTier (s : State) : State :=
  let n := 2 ^ s.pkg.cxlWays.toNat
  let found (p : Nat) : Nat := min 4096 (Config.cxlDevice p)
  s.modPkg (fun p => { p with
    cxlPres := BitVec.ofNat 8 (((List.range 8).map (fun k => if found k = 0 then 0 else 2 ^ k)).sum)
    cxlBlocks := BitVec.ofNat 16 (n * ((List.range n).foldl (fun m k => min m (found k)) 4096)) })

/-- R355, R366: INIT ends: a die that failed training is fenced, the memory devices are found, and the package is READY. A die that a die reset
brought to INIT ends it in the same way (R364). -/
def execBootInitComplete (failedDies : BitVec 4) (s : State) : Out :=
  let fail (s : State) (l : List Nat) : State := l.foldl (fun s d => s.fenceDie d 3) s
  if s.pkg.stage = 5 then
    let s := fail s (diesOf failedDies)
    let s := (List.range 4).foldl (fun s d => s.modDie d (fun x => { x with spol := 0, live := !failedDies.getLsbD d })) s
    let s := (List.range 4).foldl (fun s q => s.modPart q (fun p => { p with facc0 := 0, facc1 := 0 })) s
    let s := s.modPart 0 (fun p => { p with en := true, dies := ~~~failedDies })
    .next ((s.mapTier.modPkg (fun p => { p with stage := 6 })).setTime 0)
  else if s.pkg.stage = 6 then
    let l := (List.range 4).filter (fun d => !(s.die d).live)
    let s := fail s (l.filter (fun d => failedDies.getLsbD d))
    .next (l.foldl (fun s d => s.modDie d (fun x => { x with live := !failedDies.getLsbD d })) s)
  else .next s

/-! ### Power (R363, R364) -/

/-- What a die reset leaves of a die. -/
def Die.reborn (x : Die) : Die :=
  { live := false, vSeq := x.vSeq, vLost := x.vLost, tripped := x.tripped, trArm := x.trArm, ttrip := x.ttrip, temp := x.temp
    freeFrames := x.freeFrames }

/-- R351, R364, R377: a die's cores, clusters and registers at their reset values; its memory is lost. What Selvedge and
the fabric hold for it stays, but for its power state and highest temperature: their registers are reset with the
package. -/
def State.resetDie (s : State) (d : Nat) : State :=
  let s := s.discardWork d
  let s := { s with
    cores := s.cores.only (fun c => dieOf c ≠ d)
    clusters := s.clusters.only (fun c => c / 8 ≠ d) }
  (s.zeroMemory (0x6000000000 * d) 0x6000000000).setDie d (s.die d).reborn

/-- R302, R364: a die in PS3 is reset and is in INIT. -/
def execDieReset (die : Nat) (s : State) : Out :=
  if (s.die die).pwrState = 3 then .next (s.resetDie die) else .next s

/-- R364: why a power state is refused. -/
def State.mayPower (s : State) (d : Nat) (t : BitVec 2) : Bool :=
  let x := s.die d
  !x.pwrBusy && x.pwrState ≠ 3 &&
  !((t = 1 || t = 2) && (List.range 8).any (fun k => !((s.cluster (8 * d + k)).now s.clock).fen)) &&
  !(t = 2 && s.dieOccupied d) && !(t = 3 && !x.fenced)

/-- R364: a write to DPWR. -/
def State.writeDpwr (s : State) (who : Who) (d : Nat) (v : Word) : Wrote :=
  let t := v.extractLsb' 0 2
  if isHost who && s.mayPower d t then { s := s.modDie d (fun x => { x with pwrBusy := true, pwrTgt := t }) }
  else refuse51 s

/-- R364. -/
def execPowerStateCommand (who : Who) (die : Nat) (value : Word) (s : State) : Out :=
  .next (s.store who (pkgReg (0x200 + 8 * die)) (s.writeDpwr who die value))

/-- R363: the L2 is written back and powered down. -/
def State.emptyCaches (s : State) (d : Nat) : State :=
  ((s.die d).container.keys.foldl (fun s k => s.cleanContainer d (256 * k) false) s).modDie d (fun x => { x with rdc := {} })

/-- R364: the transition ends. -/
def execPowerTransitionDone (die : Nat) (s : State) : Out :=
  let x := s.die die
  if !x.pwrBusy then .next s
  else
    let s := if x.pwrTgt = 2 then s.emptyCaches die else s
    let s := if x.pwrTgt = 3 then s.zeroSram die else s
    let s := s.modDie die (fun x => { x with pwrBusy := false, pwrState := x.pwrTgt })
    .next (if x.pwrTgt = 0 then
      ((List.range 256).foldl (fun s i => (List.range 8).foldl (fun s c => s.serveSenders (256 * die + i) c) s) s)
    else s)

/-! ### Temperature (R365) -/

/-- R365: a sample. -/
def execThermalSample (die : Nat) (temp : BitVec 16) (s : State) : Out :=
  let x := s.die die
  let trip := x.trArm && x.ttrip.sle temp
  let s := s.modDie die (fun x => { x with
    temp := temp, tmax := if x.tmax.slt temp then temp else x.tmax, tripped := x.tripped || trip })
  if trip then
    .next ((s.postEvent (some die) 0x0B (BitVec.ofNat 64 die) (temp.zeroExtend 64)).modPkg
      (fun p => { p with msix1 := p.msix1 + 1 }))
  else .next s

/-- R365: 110 °C at a junction. -/
def execThermTrip (s : State) : Out := .next (s.modPkg (fun p => { p with thermTripN := true }))

/-! ### Time, frames and MSI-X (R352, R371, R377) -/

/-- R351, R352: some slot of the package is occupied or suspended. -/
def State.anyTask (s : State) : Bool := s.tids.any (fun t => (s.thread t).life ≠ .free)

/-- R352: a write to GTBASE. -/
def State.writeGtbase (s : State) (who : Who) (v : Word) : Wrote :=
  if isHost who && s.pkg.stage = 6 && !s.pkg.dispatched && !s.anyTask then { s := s.setTime v.toNat } else refuse51 s

/-- R352. -/
def execGtimeLoad (who : Who) (value : Word) (s : State) : Out :=
  .next (s.store who (pkgReg 0x28) (s.writeGtbase who value))

/-- R377: a push of a free frame. -/
def State.writeMfree (s : State) (who : Who) (d : Nat) (v : Word) : Wrote :=
  let frame := bits v.toNat 47 18 * 2 ^ 18
  if isHost who && (s.die d).freeFrames.length < 64 && homeDie frame = some d then
    { s := s.modDie d (fun x => { x with freeFrames := x.freeFrames ++ [frame] }) }
  else refuse51 s

/-- R377. -/
def execMfreePush (who : Who) (die : Nat) (value : Word) (s : State) : Out :=
  .next (s.store who (pkgReg (0x3008C0 + 8 * die)) (s.writeMfree who die value))

/-- R371: vector 0 of a function, at most once per µs (2,400 clocks). -/
def execMsixEventSignal (fn : Nat) (s : State) : Out :=
  if h : fn < 5 then
    let r := s.pkg.rings[fn]
    if r.signal && (r.signalled = 0 || r.signalled + 2400 ≤ s.clock) then
      .next (s.modPkg (fun p => { p with rings := p.rings.set fn { r with signal := false, signalled := s.clock } }))
    else .next s
  else .next s

end Sys2Proof.Machine
end

