-- ==== Sys2Proof/Machine/Remote.lean ====
section
/-! DEFINITION. Remote memory (R394–R405): registration, the checks and the performing of flits at their target,
their responses at the requester, the instructions put, get, radd and rcas, and page migration. -/

namespace Sys2Proof.Machine

/-! ### Registration (R394, R396) -/

def State.setRegion (s : State) (h : Nat) (r : Region) : State :=
  s.modFab (fun f => { f with regs := f.regs.put h r })
/-- R394: the physical or 0xF1 range of an entry lies wholly in what partition q may register. -/
def State.rangeOf (s : State) (q : Nat) (r : Region) : Bool :=
  let a := r.base.toNat
  let b := a + r.len - 1
  let mine (d : Nat) : Bool := s.owner d = some q
  r.len ≠ 0 && (s.part q).en &&
  ((b < 0x18000000000 &&
      (List.range 4).all (fun d => !(a / 0x6000000000 ≤ d && d ≤ b / 0x6000000000) || mine d)) ||
   (inTier2 a && inTier2 b && s.inStr q a && s.inStr q b) ||
   (space r.base = 0xF1 && bits a 55 42 = 0 && bits a 31 20 = 0 && bits a 19 0 + r.len ≤ scratchSize &&
      mine (dieOf (bits a 41 32))))

/-- R394: the range overlaps another valid region of q. -/
def State.regionClash (s : State) (q h : Nat) (r : Region) : Bool :=
  s.fab.regs.cells.any (fun c => decide (c.1 ≠ h) && c.2.v && c.2.part = q &&
    overlaps (r.base.toNat, r.len) (c.2.base.toNat, c.2.len))

/-- R394: who may write an entry. -/
def State.mayRegion (s : State) (who : Who) (h : Nat) : Bool :=
  let r := s.region h
  match who with
  | .host 0 => true
  | .host (q + 1) => r.part = q || !r.v
  | .supervisor _ => false
  | .thread core slot =>
    let t := tidOf core slot
    (s.thread t).mode && (r.part = s.partOf t || !r.v)

/-- R394: the partition that V := 1 gives an entry. -/
def State.regionPart (s : State) (who : Who) (r : Region) : Option Nat :=
  match who with
  | .host 0 => (List.range 4).find? (fun q => s.rangeOf q r)
  | .host (q + 1) => some q
  | .supervisor d => some (s.die d).part
  | .thread core slot => some (s.partOf (tidOf core slot))

/-- R394: the fields of RCTL that a store writes while V = 0. -/
def Region.withCtl (r : Region) (v : Word) : Region :=
  { r with rd := v.getLsbD 61, wr := v.getLsbD 60, at_ := v.getLsbD 59, tcm := v.getLsbD 58, anyp := v.getLsbD 12
           peer := bits v.toNat 11 0 }

/-- R394, R396: a store to RCTL. -/
def State.writeRctl (s : State) (who : Who) (h : Nat) (v : Word) : Wrote :=
  let r := s.region h
  if !s.mayRegion who h || r.drain then refuse51 s
  else if r.v then
    if v.getLsbD 63 then { s := s }
    else match who with
      | .thread core slot =>
        let tid := tidOf core slot
        let id := s.nextId
        { s := { (s.setRegion h { r with drain := true, waiter := some (tid, id) }).modThread tid
                   (fun t => { t with unacked := t.unacked ++ [(id, t.mode)] }) with nextId := id + 1 } }
      | _ => { s := s.setRegion h { r with drain := true, waiter := none } }
  else
    let r := r.withCtl v
    if !v.getLsbD 63 then { s := s.setRegion h r }
    else match s.regionPart who r with
      | none => refuse51 s
      | some q =>
        if s.rangeOf q r && !s.regionClash q h r then { s := s.setRegion h { r with v := true, part := q, revoked := false } }
        else refuse51 s

/-- R394: the address of a register of an entry. -/
def regionReg (h off : Nat) : Word := pkgReg (0x340000 + 0x20 * h + off)

/-- R394. -/
def execRegionRegister (who : Who) (entry : Nat) (value : Word) (s : State) : Out :=
  .next (s.store who (regionReg entry 0x10) (s.writeRctl who entry (value ||| 1#64 <<< 63)))
/-- R396. -/
def execRegionRevoke (who : Who) (entry : Nat) (value : Word) (s : State) : Out :=
  .next (s.store who (regionReg entry 0x10) (s.writeRctl who entry (value &&& ~~~(1#64 <<< 63))))
/-- R396: INFL is 0 and the revocation ends; the revoking store is acknowledged. -/
def execRegionRevokeDone (entry : Nat) (s : State) : Out :=
  let r := s.region entry
  if !r.drain || r.infl ≠ 0 then .next s
  else
    let s := s.setRegion entry { r with v := false, drain := false, waiter := none, revoked := true }
    .next (match r.waiter with
      | some (tid, id) => s.acknowledge tid id
      | none => s)

/-! ### Checks at the target (R395) -/

/-- R395: a refusal: the ERR kind, the kind that the violation log takes, and the die that logs it. -/
structure Denied where
  kind : Nat
  log : Option Nat := none
  deriving DecidableEq, Repr

/-- R383: the physical address that a flit with HDL = 0xFFF names. -/
def flitPa (f : Flit) : Nat := f.off + f.aux * 2 ^ 40

/-- The bytes that a flit accesses at its target. -/
def flitSpan (f : Flit) : Nat :=
  if f.typ = 0x02 then leNat (f.payload.take 4) else if f.typ = 0x04 || f.typ = 0x05 then 8 else f.len + 1

/-- R395: the region permits the type. -/
def Region.permits (r : Region) (typ : Nat) : Bool :=
  if typ = 0x01 || typ = 0x09 then r.wr
  else if typ = 0x02 || typ = 0x08 then r.rd
  else r.at_

/-- R395: the region of a flit, and the address it accesses: of memory, or an 0xF1 address. The top-code check is
not made on a request, whose data comes back (R398). An entry that has been revoked and not registered again refuses with
kind 2 also once DRAIN is 0, as R396 and R455 have it for every flit behind the revocation (DEDUCED, log 61). -/
def State.checkFlit (s : State) (f : Flit) : Except Denied (Nat × Word) :=
  let n := flitSpan f
  let gone := f.hdl ≠ 0xFFF && (s.region f.hdl).revoked && (s.region f.hdl).part = f.qd
  let bad : Except Denied (Nat × Word) := .error (if gone then { kind := 2, log := some 4 } else { kind := 1, log := some 3 })
  let found : Option Nat :=
    if f.hdl = 0xFFF then
      (s.fab.regs.cells.find? (fun c => c.2.v && c.2.part = f.qd && c.2.base.toNat ≤ flitPa f &&
        flitPa f + n ≤ c.2.base.toNat + c.2.len)).map Prod.fst
    else if (s.region f.hdl).v && (s.region f.hdl).part = f.qd then some f.hdl else none
  match found with
  | none => bad
  | some h =>
    let r := s.region h
    if r.drain then .error { kind := 2, log := some 4 }
    else if !r.permits f.typ || (f.hdl ≠ 0xFFF && f.off + n > r.len) || !(r.anyp || r.peer = f.src) then bad
    else if f.nar && f.typ ≠ 0x02 && f.tcm != r.tcm then .error { kind := 6, log := some 3 }
    else .ok (h, if f.hdl = 0xFFF then BitVec.ofNat 64 (flitPa f) else r.base + BitVec.ofNat 64 f.off)

/-- R395: the die whose log takes a refusal. -/
def State.logDie (s : State) (f : Flit) : Nat :=
  let at_ : Nat := if f.hdl = 0xFFF then flitPa f else ((s.region f.hdl).base + BitVec.ofNat 64 f.off).toNat
  if at_ / 2 ^ 56 = 0xF1 then dieOf (bits at_ 41 32)
  else match homeDie at_ with
    | some d => d
    | none => ((diesOf (s.part f.qd).dies).head?).getD 0

/-- R384: an ERR flit; its payload names the refused flit. -/
def errFlitOf (f : Flit) (kind : Nat) : Flit :=
  { typ := 0x0A, len := 10, payload := leBytes 1 kind ++ leBytes 1 f.typ ++ leBytes 6 0 ++ leBytes 3 f.seq }

/-- R369: what an access of a type is in the log. -/
def flitAcc (typ : Nat) : Acc :=
  if typ = 0x02 || typ = 0x08 then .load
  else if typ = 0x01 || typ = 0x09 then .store
  else .atomic

/-- R395: the target refuses a flit. -/
def State.denyFlit (s : State) (f : Flit) (d : Denied) : State :=
  let s := match d.log with
    | none => s
    | some k =>
      let a := if f.hdl = 0xFFF then flitPa f else ((s.region f.hdl).base + BitVec.ofNat 64 f.off).toNat
      s.logViolation (s.logDie f) a (.fabric f.src) f.qd k (flitAcc f.typ)
  s.sendUrgent f.qd f.src (errFlitOf f d.kind)

/-- R395: what a fault at the target is on the wire; its home has logged a key mismatch or a window refusal. -/
def deniedBy (t : Trap) : Denied :=
  if t.code = 0x0D then { kind := 4 } else if t.code = 0x04 then { kind := 3, log := some 3 } else { kind := 3 }

/-- R395: reads at the target. -/
def State.targetLoad (s : State) (f : Flit) (at_ : Word) (n : Nat) : Did (List Byte) :=
  if space at_ = 0xF1 then
    let c := bits at_.toNat 41 32
    let o := bits at_.toNat 19 0
    if s.watched (some c) o n then .wait else s.scratchLoad (.fabric f.src) false c o n 0
  else if s.watched none at_.toNat n then .wait
  else s.homeLoad (.fabric f.src) .load at_.toNat n f.qd 0
/-- R395: writes at the target. -/
def State.targetStore (s : State) (f : Flit) (at_ : Word) (bs : List Byte) : Did Unit :=
  if space at_ = 0xF1 then
    let c := bits at_.toNat 41 32
    let o := bits at_.toNat 19 0
    if s.watched (some c) o bs.length then .wait else s.scratchStore (.fabric f.src) false .store c o bs 0
  else if s.watched none at_.toNat bs.length then .wait
  else s.homeStore (.fabric f.src) .store at_.toNat f.qd bs 0
/-- R399, R402: an atomic at the target. -/
def State.targetAtomic (s : State) (f : Flit) (at_ : Word) (n : Nat) (g : Nat → Option Nat) : Did Nat :=
  let put (s : State) (old : Nat) : State :=
    match g old with
    | none => s
    | some v =>
      if space at_ = 0xF1 then s.scratchPut (bits at_.toNat 41 32) (bits at_.toNat 19 0) (leBytes n v)
      else s.homeWriteAll at_.toNat (leBytes n v)
  if space at_ = 0xF1 then
    let c := bits at_.toNat 41 32
    let o := bits at_.toNat 19 0
    if s.watched (some c) o n then .wait
    else (s.scratchCheck (.fabric f.src) false .atomic c o n 0).bind fun s _ =>
      (s.scratchLoad (.fabric f.src) true c o n 0).bind fun s bs => .ok (put s (leNat bs)) (leNat bs)
  else if s.watched none at_.toNat n then .wait
  else (s.homeLoad (.fabric f.src) .atomic at_.toNat n f.qd 0).bind fun s bs => .ok (put s (leNat bs)) (leNat bs)

/-! ### Performing flits (R398, R399, R402, R403) -/

/-- R398: the GETR flits of a get, in ascending offset, `fuel` of them at most; a failure ends them. -/
def State.getReplies (s : State) (f : Flit) (at_ : Word) (n id : Nat) (tcm : Bool) : Nat → Nat → Option State
  | 0, _ => some s
  | fuel + 1, o =>
    if n ≤ o then some s
    else
      let m := min 256 (n - o)
      match s.targetLoad f (at_ + BitVec.ofNat 64 o) m with
      | .wait => none
      | .err s t => some (s.denyFlit f (deniedBy t))
      | .ok s bs =>
        (s.sendUrgent f.qd f.src { typ := 0x03, nar := f.nar, tcm := f.nar && tcm, hdl := f.hdl, off := o, len := m - 1
                                   aux := id, payload := bs }).getReplies f at_ n id tcm fuel (o + m)

/-- R402: the values of an FADD, one indivisible add each, once the whole flit has been checked (R395: a refused flit writes
nothing). -/
def State.faddAll (s : State) (f : Flit) (at_ : Word) : List Byte → Did Unit
  | a :: b :: c :: d :: r =>
    let v := leNat [a, b, c, d]
    let did : Did Cond :=
      if space at_ = 0xF1 then
        let k := bits at_.toNat 41 32
        let o := bits at_.toNat 19 0
        if s.watched (some k) o 4 then .wait else s.addScratch (.fabric f.src) false k o v 0
      else if s.watched none at_.toNat 4 then .wait
      else s.addHome (.fabric f.src) at_.toNat f.qd v 0
    did.bind fun s _ => s.faddAll f (at_ + 4) r
  | _ => .ok s ()

/-- R399: an ATR flit: the old value, and the flit that it answers (DESIGN CHOICE, log 6). -/
def atrOf (f : Flit) (old : Nat) : Flit :=
  { typ := 0x06, hdl := f.hdl, off := f.off, len := 10, payload := leBytes 8 old ++ leBytes 3 f.seq }

/-- R395, R398, R399, R402, R403: a flit that its region has admitted is performed; none while its target makes it
wait. -/
def State.performAt (s : State) (f : Flit) (h : Nat) (at_ : Word) : Option State :=
  let n := flitSpan f
  let ended {α : Type} (d : Did α) (k : State → α → State) : Option State :=
    match d with
    | .wait => none
    | .err s t => some (s.denyFlit f (deniedBy t))
    | .ok s v => some (k s v)
  match f.typ with
  | 0x02 => s.getReplies f at_ n (leNat ((f.payload.drop 4).take 1)) (s.region h).tcm (n / 256 + 1) 0
  | 0x04 =>
    let b := leNat (f.payload.take 8)
    ended (s.targetAtomic f at_ 8 (fun old => some ((old + b) % 2 ^ 64))) (fun s old => s.sendUrgent f.qd f.src (atrOf f old))
  | 0x05 =>
    let e := leNat (f.payload.take 8)
    let b := leNat ((f.payload.drop 8).take 8)
    ended (s.targetAtomic f at_ 8 (fun old => if old = e then some b else none))
      (fun s old => s.sendUrgent f.qd f.src (atrOf f old))
  | 0x07 =>
    ended ((s.targetAtomic f at_ n (fun _ => none)).bind fun s _ => s.faddAll f at_ (f.payload.take n)) (fun s _ => s)
  | 0x08 =>
    ended (s.targetLoad f at_ n) (fun s bs =>
      s.sendUrgent f.qd f.src { typ := 0x03, hdl := 0xFFF, off := leNat (f.payload.take 2), len := n - 1, payload := bs })
  | _ => ended (s.targetStore f at_ (f.payload.take n)) (fun s _ => s)

/-- R395: a flit that reaches memory: the checks, then its effect; `held` is the region of a flit that was checked
before and made to wait. -/
def State.targetFlit (s : State) (f : Flit) (held : Option Nat) : Option State :=
  match held, s.checkFlit f with
  | some h, _ =>
    let at_ := if f.hdl = 0xFFF then BitVec.ofNat 64 (flitPa f) else (s.region h).base + BitVec.ofNat 64 f.off
    (s.performAt f h at_).map (fun s => s.setRegion h { s.region h with infl := (s.region h).infl - 1 })
  | none, .error d => some (s.denyFlit f d)
  | none, .ok (h, at_) => s.performAt f h at_

/-! ### Responses at the requester (R398–R403) -/

/-- A part of a far request is answered; the request is when all are. -/
def State.answerPart (s : State) (id part total : Nat) (a : Resp) : State :=
  s.modReq id (fun r =>
    if r.resp.isSome then r
    else match a with
      | .err t => { r with resp := some (.err t) }
      | .data bs =>
        let r := { r with parts := r.parts.put part bs }
        if r.parts.cells.length < total then r
        else { r with resp := some (.data (r.parts.cells.flatMap Prod.snd)) }
      | .done =>
        let r := { r with parts := r.parts.put part [] }
        if r.parts.cells.length < total then r else { r with resp := some .done })

/-- The address of a remote operation's flit at an offset (R397). -/
def RemoteOp.ra (o : RemoteOp) (off : Nat) : Word := BitVec.ofNat 64 (o.peer * 2 ^ 52 + o.hdl * 2 ^ 40 + off % 2 ^ 40)

/-- The operation that sent a flit on a connection. -/
def State.opOfSeq (s : State) (q x seq : Nat) : Option (RemoteOp × Nat) :=
  s.fab.ops.findSome? (fun o =>
    if o.part = q && o.peer = x then (o.seqs.find? (fun p => p.1 = seq)).map (fun p => (o, p.2)) else none)

/-- R400: the refused flit with the lowest offset is kept. -/
def RemoteOp.refuse (o : RemoteOp) (kind off : Nat) : RemoteOp :=
  { o with refused := match o.refused with
      | some (k, f) => if off < f then some (kind, off) else some (k, f)
      | none => some (kind, off) }

/-- R400: an ERR flit names the refused flit. -/
def State.takeErr (s : State) (f : Flit) : State :=
  match s.opOfSeq f.qd f.src (leNat ((f.payload.drop 8).take 3)) with
  | none => s
  | some (o, off) => s.modOp o.id (fun o => o.refuse (leNat (f.payload.take 1)) off)

/-- R398: bytes of a get reach the local destination. -/
def State.takeGet (s : State) (f : Flit) (o : RemoteOp) : State :=
  let n := f.len + 1
  let s := s.modOp o.id (fun o => { o with got := o.got + n })
  if o.stopped || o.fault.isSome then s
  else if o.nar && f.tcm != o.tcm then s.modOp o.id (fun o => { o with stopped := true })
  else match s.writeSpans o.core o.x f.off (f.payload.take n) (spansAt o.spans f.off n) with
    | .ok t _ => if t.nextId = s.nextId then t
      else t.modOp o.id (fun o => { o with subs := o.subs ++ (List.range (t.nextId - s.nextId)).map (s.nextId + ·) })
    | .err s t => s.modOp o.id (fun o => { o with fault := some t })
    | .wait => s

/-- R403: the leaf that a page operation reads or writes through, of mode 2 when its line may be kept. -/
def RemoteOp.leaf (o : RemoteOp) : Leaf :=
  { pa := o.off, key := 0, mode := 2, peer := o.peer, t := 0, w := true, x := false }

/-- R268, R403: bytes of a page of another package arrive; a whole line enters the remote-data cache. `x` is where
the wanted bytes begin and `y` how many they are. -/
def State.takePage (s : State) (f : Flit) (o : RemoteOp) : State :=
  let bs := f.payload.take (f.len + 1)
  match o.owner with
  | .frame d =>
    (s.modOp o.id (fun o => { o with got := o.got + bs.length, answered := decide (o.len ≤ o.got + bs.length) })).modDie d
      (fun x => { x with migrations := x.migrations.map (fun m =>
        if m.begun && pageOf m.va = pageOf o.x then { m with bytes := m.bytes ++ bs } else m) })
  | .request id part =>
    let s := s.modOp o.id (fun o => { o with answered := true })
    let s := if o.stopped then s.rdcKeep (dieOf o.core) o.leaf bs (BitVec.ofNat 32 o.d) else s
    s.answerPart id part o.got (.data ((bs.drop o.x.toNat).take o.y.toNat))
  | _ => s

/-- R398: the get that a GETR flit answers. -/
def State.getOf (s : State) (f : Flit) : Option RemoteOp :=
  s.fab.ops.find? (fun o => o.part = f.qd && o.peer = f.src && o.kind = .get && o.y.toNat = f.aux)

/-- R398, R403: a GETR flit. -/
def State.takeGetr (s : State) (f : Flit) : State :=
  if f.hdl = 0xFFF then
    match s.fab.ops.find? (fun o => o.part = f.qd && o.peer = f.src && o.kind = .page && o.id % 65536 = f.off) with
    | some o => s.takePage f o
    | none => s
  else
    match s.getOf f with
    | some o => s.takeGet f o
    | none => s

/-- R278: the destination of a GETR flit is guarded by a copy, and the flit waits. -/
def State.getrWaits (s : State) (f : Flit) : Bool :=
  decide (f.hdl ≠ 0xFFF) &&
  (match s.getOf f with
   | some o => !o.stopped && o.fault.isNone && s.spansWatched (spansAt o.spans f.off (f.len + 1))
   | none => false)

/-- R399: an ATR flit writes d. -/
def State.takeAtr (s : State) (f : Flit) : State :=
  match s.opOfSeq f.qd f.src (leNat ((f.payload.drop 8).take 3)) with
  | none => s
  | some (o, _) =>
    let old := BitVec.ofNat 64 (leNat (f.payload.take 8))
    let s := s.modOp o.id (fun o => { o with answered := true })
    match o.owner with
    | .thread tid fl =>
      if ((s.thread tid).flight fl).isSome then s.modThread tid (fun t => t.writeCode o.d old) else s
    | .entry e => s.modEntry e (fun x => { x with res := old })
    | _ => s

/-! ### Completion (R400, R401) -/

/-- R401: the operation is complete. -/
def RemoteOp.finished (o : RemoteOp) : Bool :=
  o.failed ||
  (match o.kind with
   | .get => (o.refused.isSome || (o.next = o.count && o.got ≥ o.len)) && o.subs.isEmpty
   | .radd => o.refused.isSome || o.answered
   | .rcas => o.refused.isSome || o.answered
   | _ => o.next = o.count && o.acks ≥ o.seqs.length)

/-- R400: the trap that the operation reports. -/
def RemoteOp.report (o : RemoteOp) : Option Trap :=
  let topCode : Trap := { code := 0x0A, sub := 1, eval := BitVec.ofNat 64 o.peer }
  if o.failed then some { code := 0x10, sub := 5, eval := o.ra o.off }
  else match o.refused with
    | some (k, off) => some (if k = 6 then topCode else { code := 0x10, sub := BitVec.ofNat 8 k, eval := o.ra off })
    | none => if o.stopped && o.kind = .get then some topCode else o.fault

/-- R401: the thread, entry or store that an operation served learns how it ended. -/
def State.finishOp (s : State) (o : RemoteOp) : State :=
  let s := (s.dropReqs o.subs).dropOp o.id
  let bad := o.report
  let s := match o.tag with
    | some t => s.tagDone o.core t
    | none => s
  let s := match bad, o.ctr with
    | none, some c => s.counterAdd c 1
    | _, _ => s
  match o.owner with
  | .thread tid fl =>
    if ((s.thread tid).flight fl).isSome then
      let handler := (s.thread tid).flightHandler fl
      let s := s.land tid fl
      match bad with
      | some t => s.deferFault tid t o.pc o.order handler
      | none => s
    else s
  | .store tid id =>
    if (s.thread tid).unacked.any (fun u => u.1 = id) then
      let handler := (s.thread tid).unacked.any (fun u => u.1 = id && u.2)
      let s := s.acknowledge tid id
      match bad with
      | some t => s.deferFault tid t o.pc o.order handler
      | none => s
    else s
  | .entry e => s.modEntry e (fun x => { x with ended := some bad })
  | _ => s

/-- R401, R403: the accesses of a get to local bytes on other packages that are answered are over. -/
def State.settleGet (s : State) (o : RemoteOp) : State × RemoteOp :=
  if o.subs.isEmpty then (s, o)
  else
    let (s, left, bad) := s.settleSubs o.subs
    let o := { o with subs := left, fault := o.fault.or bad }
    (s.modOp o.id (fun _ => o), o)

/-- R401. -/
def execRemoteOpComplete (op : Nat) (s : State) : Out :=
  match s.op op with
  | none => .next s
  | some o =>
    match o.kind with
    | .page => .next s
    | .get =>
      let (s, o) := s.settleGet o
      .next (if o.finished then s.finishOp o else s)
    | _ => .next (if o.finished then s.finishOp o else s)

/-! ### put, get, radd, rcas (R397–R400) -/

/-- R397: a descriptor. -/
structure Descriptor where
  nar : Bool
  ctr : Option Nat
  tag : Option Nat
  len : Nat
  deriving DecidableEq, Repr

/-- R397, R400: a descriptor's bits and length. -/
def descriptorOf (v : Word) : Option Descriptor :=
  let n := v.toNat
  if bits n 63 54 ≠ 0 || bits n 39 39 ≠ 0 || bits n 31 0 = 0 || bits n 31 0 > 0x80000000 then none
  else some {
    nar := v.getLsbD 53, ctr := if v.getLsbD 52 then some (bits n 51 40) else none
    tag := if v.getLsbD 38 then some (bits n 37 32) else none, len := bits n 31 0 }

def raPeer (v : Word) : Nat := bits v.toNat 63 52
def raHdl (v : Word) : Nat := bits v.toNat 51 40
def raOff (v : Word) : Nat := bits v.toNat 39 0

/-- R400 item 2. -/
def State.raOk (s : State) (ra : Word) : Except Stop Unit :=
  if raPeer ra = s.pkg.peer.toNat || raHdl ra = 0xFFF then .error s.badOperand else .ok ()
/-- R400 item 5. -/
def State.routed (s : State) (q : Nat) (ra : Word) : Except Stop Unit :=
  if s.hasRoute q (raPeer ra) then .ok () else .error (.trap { code := 0x10, sub := 5, eval := ra })

/-- R384: a get id that no get of the connection uses. -/
def State.getId (s : State) (q x : Nat) : Option Nat :=
  (List.range 256).find? (fun i => s.fab.ops.all (fun o => !(o.part = q && o.peer = x && o.kind = .get && o.y.toNat = i)))

/-- R132: a tag can take one more operation. -/
def State.tagFree (s : State) (core : Nat) (tag : Option Nat) : Except Stop Unit :=
  match tag with
  | some t => if s.tagFull core t then .error .wait else .ok ()
  | none => .ok ()
def State.tagBegin (s : State) (core : Nat) (tag : Option Nat) : State :=
  match tag with
  | some t => s.tagStart core t
  | none => s

/-- A fabric instruction of the thread in hand is in flight with its operation. -/
def State.launchOp (s : State) (look : BitVec 4) (dests : List Nat) (o : RemoteOp) : State :=
  let fl := s.nextId
  (s.launch .fabric look.toNat [] dests).addOp
    { o with owner := .thread s.cur fl, core := s.myCore, deadline := s.ftoFromNow, pc := s.me.pc, order := s.order }

/-- R398: the local pages of an operation. -/
def State.localSpans (s : State) (acc : Acc) (va : Word) (n : Nat) : Except Stop (List Span) :=
  match s.rangeSpans s.cur acc va n with
  | .ok l => .ok l
  | .error t => .error (.trap t)

/-- R398. -/
def execPut (d a b : Reg) (look : BitVec 4) (s : State) : Out :=
  s.finishWith 4 look.toNat [] do
    let ra := s.rd a
    match descriptorOf (s.rd d) with
    | none => .error s.badOperand
    | some x =>
      s.raOk ra
      let spans ← s.localSpans .load (s.rd b) x.len
      s.routed (s.partOf s.cur) ra
      s.tagFree s.myCore x.tag
      .ok ((s.tagBegin s.myCore x.tag).launchOp look []
        { id := 0, kind := .put, owner := .none, part := s.partOf s.cur, peer := raPeer ra, hdl := raHdl ra
          off := raOff ra, len := x.len, nar := x.nar, tcm := s.me.tcm, tag := x.tag, ctr := x.ctr, x := s.rd b
          spans := spans, count := (x.len + 255) / 256 })

/-- R398. -/
def execGet (d a b : Reg) (look : BitVec 4) (s : State) : Out :=
  s.finishWith 4 look.toNat [] do
    let ra := s.rd b
    match descriptorOf (s.rd d) with
    | none => .error s.badOperand
    | some x =>
      s.raOk ra
      let spans ← s.localSpans .store (s.rd a) x.len
      let q := s.partOf s.cur
      s.routed q ra
      s.tagFree s.myCore x.tag
      match s.getId q (raPeer ra) with
      | none => .error .wait
      | some id =>
        .ok ((s.tagBegin s.myCore x.tag).launchOp look []
          { id := 0, kind := .get, owner := .none, part := q, peer := raPeer ra, hdl := raHdl ra, off := raOff ra
            len := x.len, nar := x.nar, tcm := s.me.tcm, tag := x.tag, ctr := x.ctr, x := s.rd a
            y := BitVec.ofNat 64 id, spans := spans, count := 1
            flits := [{ typ := 0x02, nar := x.nar, hdl := raHdl ra, off := raOff ra, len := 4
                        payload := leBytes 4 x.len ++ leBytes 1 id }] })

/-- R399: a remote atomic of the thread in hand. -/
def State.remoteAtomic (s : State) (d a : Reg) (look : BitVec 4) (kind : OpKind) (f : Flit) : Except Stop State := do
  let ra := s.rd a
  s.raOk ra
  if raOff ra % 8 ≠ 0 then .error (.trap { code := 0x03, eval := ra })
  else
    s.routed (s.partOf s.cur) ra
    .ok (s.launchOp look [s.me.code d]
      { id := 0, kind := kind, owner := .none, part := s.partOf s.cur, peer := raPeer ra, hdl := raHdl ra
        off := raOff ra, len := 8, d := s.me.code d, count := 1
        flits := [{ f with hdl := raHdl ra, off := raOff ra }] })

/-- R399. -/
def execRadd (d a b : Reg) (look : BitVec 4) (s : State) : Out :=
  s.finishWith 4 look.toNat [s.me.code d] (s.remoteAtomic d a look .radd { typ := 0x04, len := 7, payload := leBytes 8 (s.rd b).toNat })
/-- R399. -/
def execRcas (d a b : Reg) (look : BitVec 4) (s : State) : Out :=
  s.finishWith 4 look.toNat [s.me.code d] (s.remoteAtomic d a look .rcas
    { typ := 0x05, len := 15, payload := leBytes 8 (s.rd d).toNat ++ leBytes 8 (s.rd b).toNat })

/-! ### Migration (R404) -/

/-- R403: the spans reach bytes of the page at another package. -/
def spansOn (va : Word) (l : List Span) : Bool := l.any (fun p => match p.far with
  | some (a, _) => pageOf a = pageOf va
  | none => false)

/-- R404: an access to the page that another package has not yet answered, or an operation in progress that reads or writes
the page. -/
def State.pageBusy (s : State) (q : Nat) (va : Word) : Bool :=
  s.reqs.any (fun r => s.partOf r.tid = q && r.sent && r.resp.isNone && pageOf r.va = pageOf va) ||
  s.fab.ops.any (fun o => o.part = q && spansOn va o.spans) ||
  s.trg.groups.cells.any (fun g => g.2.colls.any (fun c => c.part = q && (spansOn va c.srcs || spansOn va c.dsts)))

/-- R404: the migration is not made. -/
def State.noMigration (s : State) (d : Nat) (va : Word) (why : Nat) : State :=
  (s.modDie d (fun x => { x with counts := x.counts.put (pageOf va) 0 })).postEvent none 0x0D va
    (BitVec.ofNat 64 (5 + why * 256))

/-- R404: the copy of a frame over the partition's connection, by PLDs of its 1,024 lines, which are answered in order. -/
def State.frameCopy (s : State) (d q : Nat) (m : Migration) : RemoteOp :=
  { id := 0, kind := .page, owner := .frame d, part := q, peer := m.peer, core := 256 * d, hdl := 0xFFF, off := m.srcPa
    len := 0x40000, x := m.va, count := 1024, deadline := s.ftoFromNow
    flits := (List.range 1024).map (fun i =>
      { typ := 0x08, hdl := 0xFFF, off := (m.srcPa + 256 * i) % 2 ^ 40, aux := (m.srcPa + 256 * i) / 2 ^ 40, len := 255
        payload := leBytes 2 (s.nextId % 65536) }) }

/-- R404: nothing to the page is outstanding any more: a frame is taken and its copy begins. -/
def State.beginMigration (s : State) (d q : Nat) (m : Migration) : State :=
  let s := s.modDie d (fun x => { x with migrations := x.migrations.filter (fun y => pageOf y.va ≠ pageOf m.va) })
  match (s.die d).freeFrames with
  | [] => s.noMigration d m.va 0
  | f :: r =>
    (s.modDie d (fun x => { x with
      freeFrames := r, migrations := x.migrations ++ [{ m with frame := f, begun := true }] })).addOp (s.frameCopy d q m)

/-- R404: the count of a mode-3 page has passed 2^T: new accesses to it are stalled, and once nothing is outstanding its
migration begins. -/
def execPageMigration (die : Nat) (va : Word) (s : State) : Out :=
  let q := (s.die die).part
  match s.walk die (bits va.toNat 56 0) with
  | .leaf e 18 =>
    let l := leafOf e (bits va.toNat 56 0) 18
    let m : Migration := { va := va, frame := 0, peer := l.peer, srcPa := l.pa / 2 ^ 18 * 2 ^ 18, begun := false }
    if l.mode ≠ 3 || (s.die die).counts.get 0 (pageOf va) ≤ 2 ^ l.t then .next s
    else if s.migrating q va then
      match (s.die die).migrations.find? (fun y => !y.begun && pageOf y.va = pageOf va) with
      | some y => .next (if s.pageBusy q va then s else s.beginMigration die q y)
      | none => .next s
    else if s.pageBusy q va then .next (s.modDie die (fun x => { x with migrations := x.migrations ++ [m] }))
    else .next (s.beginMigration die q m)
  | _ => .next s

/-- R291: where the leaf of a 256 KiB page lies. -/
def State.leafAddr (s : State) (d va : Nat) : Nat :=
  let e1 := s.homeNat ((s.die d).ptBase.toNat + 8 * bits va 56 44) 8
  let e2 := s.homeNat (bits e1 47 16 * 2 ^ 16 + 8 * bits va 43 31) 8
  bits e2 47 16 * 2 ^ 16 + 8 * bits va 30 18

/-- R404: the dies of a partition. -/
def State.diesIn (s : State) (q : Nat) : List Nat := (List.range 4).filter (fun d => (s.die d).part = q)

/-- R404: the frame has been copied: the page is this package's. -/
def State.migrated (s : State) (d : Nat) (m : Migration) (frame : List Byte) : State :=
  let q := (s.die d).part
  let a := bits m.va.toNat 56 0
  let at_ := s.leafAddr d a
  let e := s.homeNat at_ 8
  let e' := (BitVec.ofNat 64 e &&& 0x0000000000003F3F) ||| BitVec.ofNat 64 m.frame
  let s := (s.homeWriteAll m.frame frame).putNat at_ 8 e'.toNat
  let lines := (List.range 1024).map (fun i => 2 ^ 44 * (m.peer + 1) + m.srcPa / 256 + i)
  let s := (s.diesIn q).foldl (fun s d => s.modDie d (fun x => { x with
    rdc := x.rdc.only (fun k => !lines.contains k), tlb := x.tlb.del (tlbKey a 18), counts := x.counts.del (pageOf m.va)
    monitor := x.monitor.filter (fun k => k ≠ pageOf m.va) })) s
  let s := { s with reqs := s.reqs.map (fun (r : Request) =>
    if s.partOf r.tid = q && !r.sent && r.resp.isNone && pageOf r.va = pageOf m.va then { r with tgts := s.targetsOf r }
    else r) }
  s.postEvent none 0x0D m.va (BitVec.ofNat 64 (4 + m.srcPa / 2 ^ 18 * 256))

/-- R404: the first migration of a die whose copy is over, the copy, and whether it went well. -/
def State.copied (s : State) (d : Nat) : Option (Migration × RemoteOp × Bool) :=
  (s.die d).migrations.findSome? (fun m =>
    if !m.begun then none
    else (s.fab.ops.find? (fun o => o.owner = .frame d && pageOf o.x = pageOf m.va)).bind (fun o =>
      if o.failed || o.refused.isSome then some (m, o, false)
      else if o.answered then some (m, o, true)
      else none))

/-- R404: the copy of the frame is over, well or not: `ok` and `frame` are as it ended. -/
def execPageMigrationDone (die : Nat) (ok : Bool) (frame : List Byte) (s : State) : Out :=
  match s.copied die with
  | none => .next s
  | some (m, o, well) =>
    if well ≠ ok || (ok && frame ≠ m.bytes) then .next s
    else
      let s := (s.dropOp o.id).modDie die (fun x => { x with migrations := x.migrations.filter (fun y => pageOf y.va ≠ pageOf m.va) })
      if ok then .next (s.migrated die m frame)
      else .next ((s.modDie die (fun x => { x with freeFrames := m.frame :: x.freeFrames })).noMigration die m.va 1)

end Sys2Proof.Machine
end

