-- ==== Sys2Proof/Machine/Lease.lean ====
section
/-! DEFINITION. Wavelengths and leases: ports and their light (R373–R376, R379, R391), the lease controller and
revocation (R380, R381), the lease instructions (R382), and going back (R388). -/

namespace Sys2Proof.Machine

/-! ### Going back (R388, R391) -/

/-- R388: SEQ n is e or lies behind it, modulo 2^24. -/
def fromSeq (e n : Nat) : Bool := decide ((n % 2 ^ 24 + 2 ^ 24 - e % 2 ^ 24) % 2 ^ 24 < 2 ^ 23)

/-- R388: everything sent from SEQ e on, or everything unacknowledged, is to be resent; what is acknowledged meanwhile is
resent all the same (R453). -/
def Conn.goBack (c : Conn) (e : Option Nat) : Conn :=
  { c with again := match e with
      | some x => c.sent.filter (fun o => fromSeq x o.flit.seq)
      | none => c.sent }

/-- R391: a connection goes back to its lowest unacknowledged SEQ that was sent on a wavelength that went dark. -/
def Conn.rewindFrom (c : Conn) (lost : Nat × Nat → Bool) : Conn :=
  match c.sent.find? (fun o => lost (o.flit.port, o.flit.wave)) with
  | some o => c.goBack (some o.flit.seq)
  | none => c

/-- R391: every connection that used one of the wavelengths goes back. -/
def State.rewindAll (s : State) (lost : Nat × Nat → Bool) : State :=
  s.modFab (fun f => { f with conns := f.conns.each (fun _ c => c.rewindFrom lost) })

/-! ### Arrival of a flit (R378, R385, R386) -/

/-- R388: NAK with the expected SEQ. -/
def State.sendNak (s : State) (q x : Nat) : State := s.sendPlain q x { typ := 0x11, seq := (s.conn q x).expected }
/-- R388: ACK with the next expected SEQ. -/
def State.sendAck (s : State) (q x : Nat) : State :=
  (s.sendPlain q x { typ := 0x10, seq := (s.conn q x).expected }).modConn q x (fun c => { c with fresh := 0 })

/-- R378, R384: a flit is discarded and counted. -/
def State.discard (s : State) : State := s.modFab (fun b => { b with discards := b.discards + 1 })

/-- R388: a sequenced flit was lost: its connection is told, when there is one. -/
def State.lostFlit (s : State) (f : Flit) : State :=
  if sequenced f.typ && (s.pairOf f.qd f.src = some f.qs) then s.sendNak f.qd f.src else s

/-- R378: a relay forwards on a base wavelength, and only to a peer that it reaches directly. -/
def State.relay (s : State) (f : Flit) : State :=
  match (s.baseTo f.dst).head? with
  | some (p, k) => { s with wire := s.wire ++ [{ f with port := p, wave := k }] }
  | none => s.discard

/-- R374: a lane that is not leased is a base lane once flits arrive on it, of 8 lanes at most. -/
def State.sawLight (s : State) (f : Flit) : State :=
  if ((s.port f.port).lane f.wave).assigned || decide (8 ≤ (s.port f.port).rxHeld) then s
  else s.modLane f.port f.wave (fun r => { r with assigned := true, lease := none, los := false })

/-- R378, R384–R386: a flit that arrives is for this package, of a listed type and intact: the state in which it acts.
Otherwise the state in which it is over. `pair` says whether its partitions must be paired (not so for LCTL and SYNC). -/
def State.screen (s : State) (f : Flit) (pair : Bool) : Except State State :=
  let s := s.sawLight f
  if !s.fab.en then .error s
  else if !f.crcOk then .error (if f.dst = s.pkg.peer.toNat then s.lostFlit f else s)
  else if f.dst ≠ s.pkg.peer.toNat then .error (s.relay f)
  else if !listedType f.typ then .error s.discard
  else if pair && s.pairOf f.qd f.src ≠ some f.qs then .error s.discard
  else if !f.tagOk then
    let n := s.fab.integrity + 1
    let s := s.modFab (fun b => { b with integrity := n })
    let s := s.postEvent none 0x0D (BitVec.ofNat 64 (f.src + f.port * 2 ^ 16 + f.wave * 2 ^ 24))
      (BitVec.ofNat 64 (3 + n % 2 ^ 24 * 256))
    .error (s.lostFlit f)
  else .ok s

/-- What an admitted flit does, or the state in which it was turned away. -/
def State.onArrival (s : State) (f : Flit) (pair : Bool) (act : State → State) : Out :=
  match s.screen f pair with
  | .ok s => .next (act s)
  | .error s => .next s

/-! ### The lease controller's flits (DESIGN CHOICE, log 6) -/

/-- R380, R384: an LCTL flit about λk for a lease of partition q: its payload holds the use, the sender's port, λ and the
partition. -/
def lctl (use q port k : Nat) : Flit :=
  { typ := 0x13, len := 3, payload := leBytes 1 use ++ leBytes 1 port ++ leBytes 1 k ++ leBytes 1 q }
def lctlUse (f : Flit) : Nat := leNat (f.payload.take 1)
def lctlPort (f : Flit) : Nat := leNat ((f.payload.drop 1).take 1)
def lctlWave (f : Flit) : Nat := leNat ((f.payload.drop 2).take 1)
def lctlPart (f : Flit) : Nat := leNat ((f.payload.drop 3).take 1)
def useRequest : Nat := 0
def useGrant : Nat := 1
def useRefusal : Nat := 2
def useRevocation : Nat := 3
def useLoss : Nat := 4
def useRelease : Nat := 5

/-- An LCTL flit is sent when its peer can be reached. -/
def State.tell (s : State) (x : Nat) (f : Flit) : State := (s.sendPair x f).getD s

/-- The peer whose plane position λk of a port names is told that the lane is free again (DESIGN CHOICE, log 6). -/
def State.freeLane (s : State) (p k : Nat) (t : TxSlot) : State :=
  match t.lease with
  | some (q, x) => s.tell x (lctl useRelease q p k)
  | none => s

/-- R379: a wavelength goes DARK. -/
def State.darken (s : State) (p k : Nat) : State :=
  let t := (s.port p).slot k
  (s.modSlot p k (fun _ => { since := s.clock })).freeLane p k t

/-- R379: a LIT wavelength drains. -/
def State.drain (s : State) (p k : Nat) : State :=
  s.modSlot p k (fun t => { t with light := .draining, since := s.clock })

/-! ### Victims (R381) -/

def State.qmaxOf (s : State) (q : Nat) : Nat := if h : q < 4 then s.fab.qmax[q] else 0
def State.floorOf (s : State) (q : Nat) : Nat := if h : q < 4 then s.fab.floor[q] else 0

/-- R381: a lease of partition r with `v` wavelengths may lose one to a lease of q with `l`. -/
def State.revocable (s : State) (r v q l : Nat) : Bool :=
  decide (v > s.floorOf r) && (decide (l < s.floorOf q) || decide (v ≥ l + 2))

/-- The best of some candidates (λ, held count): the largest count, then the lowest λ. -/
def bestVictim : List (Nat × Nat) → Option Nat
  | [] => none
  | (k, n) :: r =>
    match bestVictim r with
    | none => some k
    | some k' => if (r.lookup k').getD 0 > n then some k' else some k

/-- R381: the victim on transmit of a port. -/
def State.txVictim (s : State) (p q x : Nat) : Option Nat :=
  let port := s.port p
  bestVictim ((List.range 16).filterMap (fun k =>
    match (port.slot k).lease with
    | some (r, y) =>
      let t := port.slot k
      if (t.light = .lit || t.light = .training) && s.revocable r (s.heldBy r y) q (s.heldBy q x) then
        some (k, s.heldBy r y)
      else none
    | none => none))

/-- R381: the lane counts for a lease: it holds it, and no revocation is under way, or it takes it over. -/
def RxLane.countsFor (r : RxLane) (q x : Nat) : Bool :=
  (r.lease = some (q, x) && !r.revoked) || r.heir = some (q, x)
/-- R381: the RX lanes that a lease of another package holds here. -/
def State.rxHeldBy (s : State) (q x : Nat) : Nat :=
  ((List.range 32).map (fun p => ((List.range 16).filter (fun k =>
    ((s.port p).lane k).countsFor q x)).length)).foldl (· + ·) 0

/-- R381: the victim on receive of a port, for a lease of partition q of peer x. -/
def State.rxVictim (s : State) (p q x : Nat) : Option Nat :=
  let port := s.port p
  bestVictim ((List.range 16).filterMap (fun k =>
    match (port.lane k).lease with
    | some (r, y) =>
      if !(port.lane k).revoked && s.revocable r (s.rxHeldBy r y) q (s.rxHeldBy q x) then some (k, s.rxHeldBy r y) else none
    | none => none))

/-! ### Serving other packages (R380, R381) -/

/-- The port of this package on the plane of a sender's port: the port of the same number, else the first that
hears the sender on λk (DESIGN CHOICE, log 6). -/
def State.portHearing (s : State) (x port k : Nat) : Option Nat :=
  let hears (p : Nat) : Bool := (s.port p).en && (s.port p).hears k = some x
  if hears port then some port else (List.range 32).find? hears

/-- The port of this package whose λk goes to port `port` of a peer: the port of the same number, else the first that reaches
the peer on λk (DESIGN CHOICE, log 6). -/
def State.portReaching (s : State) (x port k : Nat) : Option Nat :=
  let reaches (p : Nat) : Bool := (s.port p).reaches k = some x
  if port < 32 && reaches port then some port else (List.range 32).find? reaches

/-- R374: the lane λk of a port is a lease's. -/
def State.giveLane (s : State) (p k : Nat) (l : Nat × Nat) : State :=
  s.modLane p k (fun r => { r with assigned := true, lease := some l, los := false, revoked := false, heir := none })

/-- R379, R381: a lane is revoked: its sender is told, and the lane stays assigned until the sender's wavelength is DARK. -/
def State.revokeLane (s : State) (p k : Nat) (heir : Option (Nat × Nat)) : State :=
  let s := s.modLane p k (fun r => { r with revoked := true, heir := heir })
  match ((s.port p).lane k).lease with
  | some (r, y) => s.tell y (lctl useRevocation r p k)
  | none => s

/-- R380, R381: an RX-lane request is granted, perhaps by a revocation, or refused. Where the revoked lane is λk itself the
sender darkens it before it trains λk, so that the grant leaves at once; where it is another lane of the port the request waits
until that lane is free (DESIGN CHOICE, log 60). -/
def State.serveLane (s : State) (f : Flit) : State :=
  let k := lctlWave f
  let q := lctlPart f
  let answer (s : State) (use : Nat) : State := s.tell f.src (lctl use q (lctlPort f) k)
  match s.portHearing f.src (lctlPort f) k with
  | none => answer s useRefusal
  | some p =>
    let lane := (s.port p).lane k
    if lane.assigned then
      match lane.lease with
      | none => answer s useRefusal
      | some (r, y) =>
        if lane.revoked then answer s useRefusal
        else if r = q && y = f.src then answer (s.giveLane p k (q, f.src)) useGrant
        else if s.revocable r (s.rxHeldBy r y) q (s.rxHeldBy q f.src) then
          answer (s.revokeLane p k (some (q, f.src))) useGrant
        else answer s useRefusal
    else if (s.port p).rxHeld < 8 then answer (s.giveLane p k (q, f.src)) useGrant
    else match s.rxVictim p q f.src with
      | none => answer s useRefusal
      | some v => (s.revokeLane p v none).modFab (fun b => { b with laneWaits := b.laneWaits ++ [(f, p, v)] })

/-- R379: the sender of a lane is DARK: the lane goes to its heir, or is free for the request that waits for it. -/
def State.laneReleased (s : State) (p k : Nat) : State :=
  match ((s.port p).lane k).heir with
  | some l => s.giveLane p k l
  | none =>
    let s := s.modLane p k (fun r => { r with assigned := false, lease := none, los := false, revoked := false })
    let waits := s.fab.laneWaits
    (waits.filter (fun w => w.2 = (p, k))).foldl (fun s w => s.serveLane w.1)
      (s.modFab (fun b => { b with laneWaits := waits.filter (fun w => w.2 ≠ (p, k)) }))

/-! ### The controller's work (R380, R382) -/

/-- R382: `n` of a lease's LIT wavelengths drain, highest port first. -/
def State.giveBack (s : State) (q x n : Nat) : State :=
  (((s.waves (fun _ _ t => t.lease = some (q, x) && t.light = .lit)).reverse).take n).foldl
    (fun s w => s.drain w.1 w.2) s

/-- R382: the result word. -/
def leaseResult (held lit revoked status : Nat) : Word :=
  BitVec.ofNat 64 (held % 64 + lit % 64 * 2 ^ 8 + revoked % 64 * 2 ^ 16 + status * 2 ^ 24)

/-- R382: the status of a finished LEASE that holds `held` wavelengths. -/
def LeaseJob.status (j : LeaseJob) (held : Nat) : Nat :=
  if held ≥ j.min then 0
  else if !j.plane then 1
  else if j.capped then 3
  else if j.asked > 0 && j.answered = 0 then 4
  else 2

/-- R23, R382: the lease of a saved context ends in a trap, which its thread takes where it is saved; in handler mode or in
a gang the lease runs again after the restore (DESIGN CHOICE, log 28). -/
def State.contextTraps (s : State) (c : SavedContext) (t : Trap) : State :=
  let v := c.thread
  let u := if v.mode || v.gang then { v with wait := none } else v.trapped t v.pc v.pc false false
  let s := [(0x00, u.pc), (0x08, u.status), (0x10, u.cause), (0x18, u.epc), (0x20, u.eval), (0x30, u.fpc)].foldl
    (fun (s : State) p => s.putNat (c.area + 0x400 * slotOf c.tid + p.1) 8 p.2.toNat) s
  { s with contexts := s.contexts.map (fun x => if x.area = c.area && x.tid = c.tid then { x with thread := u } else x) }

/-- R382: a parked lease or lrel learns its result; a trap is precise. -/
def State.tellLease (s : State) (tid : Nat) (j : LeaseJob) (v : Word) (bad : Option Trap) : State :=
  match s.awaits tid with
  | some (.lease x d) =>
    if x ≠ j.peer then s
    else match bad with
      | none => s.answer tid d v
      | some t =>
        match s.savedWait tid with
        | some c => s.contextTraps c t
        | none => s.trapParked tid t
  | _ => s

/-- R382, R414, R415: the controller has finished a job. -/
def State.endLease (s : State) (j : LeaseJob) : State :=
  let s := s.modFab (fun f => { f with jobs := f.jobs.drop 1 })
  let held := s.heldBy j.part j.peer
  let lit := (j.lit.filter (fun w => ((s.port w.1).slot w.2).light = .lit &&
    ((s.port w.1).slot w.2).lease = some (j.part, j.peer))).length
  let st := j.status held
  let v := if j.rel then BitVec.ofNat 64 held else leaseResult held lit j.revoked st
  let bad (silent : Bool) : Option Trap :=
    if j.rel || st = 0 || silent then none
    else some { code := 0x0F, sub := BitVec.ofNat 8 st, eval := BitVec.ofNat 64 j.peer }
  match j.tid, j.entry with
  | some t, _ => s.tellLease t j v (bad j.nt)
  | none, some e => s.modEntry e (fun x => { x with res := v, ended := some (bad false) })
  | none, none => s

/-- R380: what the controller does at the port it has reached; none when no port is left or it stops. -/
inductive LeaseTurn where
  | next | stop | wait
  deriving DecidableEq, Repr

/-- R380: λk of port p starts training for the job's lease; a lane that was granted and is of no use is given back. -/
def State.train (s : State) (j : LeaseJob) (p k : Nat) : State × LeaseJob :=
  if (s.port p).txf.getLsbD k || ((s.port p).slot k).light ≠ .dark then
    (s.tell j.peer (lctl useRelease j.part p k), { j with port := p + 1, phase := 0 })
  else
    (s.modSlot p k (fun _ => { light := .training, lease := some (j.part, j.peer), since := s.clock }),
      { j with port := p + 1, phase := 0, lit := j.lit ++ [(p, k)] })

/-- R380: one turn of the loop, at port `j.port`. -/
def State.leasePort (s : State) (j : LeaseJob) : State × LeaseJob × LeaseTurn :=
  let p := j.port
  let x := s.port p
  let skip : State × LeaseJob × LeaseTurn := (s, { j with port := p + 1 }, .next)
  if p ≥ 32 then (s, j, .stop)
  else match (List.range 16).find? (fun i => decide (i ≠ x.pos) && x.peerAt i = some j.peer) with
  | none => skip
  | some i =>
    if !x.en then skip
    else
      let j := { j with plane := true }
      let skip : State × LeaseJob × LeaseTurn := (s, { j with port := p + 1 }, .next)
      let k := (i + 16 - x.pos) % 16
      let t := x.slot k
      if s.heldBy j.part j.peer ≥ j.n then (s, j, .stop)
      else if t.base || x.base.getLsbD k || t.lease = some (j.part, j.peer) || t.light = .lost || x.txf.getLsbD k then skip
      else if s.heldAll j.part ≥ s.qmaxOf j.part then (s, { j with capped := true }, .stop)
      else
        let needed := t.light.holds || decide (x.txHeld ≥ 8)
        let victim : Option Nat :=
          if t.light.holds then
            match t.lease with
            | some (r, y) => if s.revocable r (s.heldBy r y) j.part (s.heldBy j.part j.peer) then some k else none
            | none => none
          else if decide (x.txHeld ≥ 8) then s.txVictim p j.part j.peer
          else none
        if needed && victim.isNone then skip
        else
          let j := { j with asked := j.asked + 1 }
          match s.sendPair j.peer (lctl useRequest j.part p k) with
          | none => (s, { j with port := p + 1 }, .next)
          | some s => (s, { j with phase := 1, wave := k, victim := victim.map (fun v => (p, v)), since := s.clock }, .wait)

/-- R380: the loop goes on until it waits for an answer or ends. -/
def State.leaseLoop (s : State) (j : LeaseJob) : Nat → State × LeaseJob
  | 0 => (s, { j with phase := 3 })
  | fuel + 1 =>
    match s.leasePort j with
    | (s, j, .next) => s.leaseLoop j fuel
    | (s, j, .stop) => (s, { j with phase := 3 })
    | (s, j, .wait) => (s, j)

/-- R380: the head job goes on: false when it waits. -/
def State.leaseStep (s : State) (j : LeaseJob) : State × Bool :=
  let put (s : State) (j : LeaseJob) : State := s.modFab (fun f => { f with jobs := j :: f.jobs.drop 1 })
  if !j.begun then
    if j.rel then
      let n := if j.n = 0 then 32 else j.n
      ((s.giveBack j.part j.peer n).endLease j, true)
    else if j.n ≤ s.heldBy j.part j.peer then
      ((s.giveBack j.part j.peer (s.heldBy j.part j.peer - j.n)).endLease { j with plane := true }, true)
    else
      let (s, j) := s.leaseLoop { j with begun := true } 34
      (put s j, decide (j.phase = 3))
  else if j.phase = 0 then
    let (s, j) := s.leaseLoop j 34
    (put s j, decide (j.phase = 3))
  else if j.phase = 2 then
    match j.victim with
    | some (p, v) =>
      if ((s.port p).slot v).light = .dark then
        let (s, j) := s.train j p j.wave
        (put s { j with victim := none }, true)
      else (s, false)
    | none => (put s { j with phase := 0 }, true)
  else if j.phase = 3 then
    if j.lit.any (fun w => ((s.port w.1).slot w.2).light = .training &&
        ((s.port w.1).slot w.2).lease = some (j.part, j.peer)) then (s, false)
    else (s.endLease j, true)
  else (s, false)

/-- R380: the controller works until it waits: the head job, then the lane requests that arrived, then the next
job. -/
def State.leaseRun (s : State) : Nat → State
  | 0 => s
  | fuel + 1 =>
    match s.fab.jobs with
    | [] => (s.fab.laneRequests.foldl State.serveLane s).modFab (fun f => { f with laneRequests := [] })
    | j :: _ =>
      let s := if j.begun then s
        else (s.fab.laneRequests.foldl State.serveLane s).modFab (fun f => { f with laneRequests := [] })
      let (s, more) := s.leaseStep j
      if more then s.leaseRun fuel else s

/-- The controller has work for at most so many turns: each job ends after its ports have been seen. -/
def State.leaseWork (s : State) : State := s.leaseRun (40 * s.fab.jobs.length + 8)

/-- R380: a job joins the controller's list. -/
def State.leaseAsk (s : State) (j : LeaseJob) : State := (s.modFab (fun f => { f with jobs := f.jobs ++ [j] })).leaseWork

/-! ### LCTL flits (R380, R381, R391) -/

/-- R380: a lane request waits for the controller. -/
def execLctlLaneRequest (f : Flit) (s : State) : Out :=
  s.onArrival f false (fun s => (s.modFab (fun b => { b with laneRequests := b.laneRequests ++ [f] })).leaseWork)

/-- R374, R380: a grant that no job waits for any more is given back. -/
def State.unaskedGrant (s : State) (f : Flit) : State :=
  if lctlUse f = useGrant then s.tell f.src (lctl useRelease (lctlPart f) (lctlPort f) (lctlWave f)) else s

/-- R380: the answer to the head job's request. -/
def State.laneAnswer (s : State) (f : Flit) : State :=
  match s.fab.jobs with
  | j :: r =>
    if j.begun && j.phase = 1 && f.src = j.peer && lctlPort f = j.port && lctlWave f = j.wave && lctlPart f = j.part then
      let j := { j with answered := j.answered + 1 }
      if lctlUse f = useGrant then
        match j.victim with
        | some (p, v) =>
          let live := decide (((s.port p).slot v).light = .lit || ((s.port p).slot v).light = .training)
          let s := if live then s.drain p v else s
          (s.modFab (fun b => { b with
            jobs := { j with phase := 2, revoked := if live then j.revoked + 1 else j.revoked } :: r })).leaseWork
        | none =>
          let (s, j) := s.train j j.port j.wave
          (s.modFab (fun b => { b with jobs := j :: r })).leaseWork
      else (s.modFab (fun b => { b with jobs := { j with phase := 0, port := j.port + 1 } :: r })).leaseWork
    else s.unaskedGrant f
  | [] => s.unaskedGrant f
/-- R380: the answer to a lane request, a grant or a refusal. -/
def execLctlGrant (f : Flit) (s : State) : Out := s.onArrival f false (fun s => s.laneAnswer f)

/-- R380: no answer within FTO (in µs, of 2,400 clocks). -/
def execLaneRequestTimeout (s : State) : Out :=
  match s.fab.jobs with
  | j :: r =>
    if j.begun && j.phase = 1 && decide (j.since + s.fab.fto * 2400 ≤ s.clock) then
      .next (s.modFab (fun b => { b with jobs := { j with phase := 0, port := j.port + 1 } :: r })).leaseWork
    else .next s
  | [] => .next s

/-- R379, R381: the receiver has revoked a lane: its wavelength drains, if it still carries that lease; or (DESIGN CHOICE,
log 6) a sender has given one back. -/
def State.laneLost (s : State) (f : Flit) : State :=
  let k := lctlWave f
  let l := (lctlPart f, f.src)
  if lctlUse f = useRelease then
    match s.portHearing f.src (lctlPort f) k with
    | none => s
    | some p =>
      if ((s.port p).lane k).lease = some l then s.laneReleased p k
      else if ((s.port p).lane k).heir = some l then s.modLane p k (fun r => { r with heir := none })
      else s
  else
    match s.portReaching f.src (lctlPort f) k with
    | some p =>
      let t := (s.port p).slot k
      if (t.light = .lit || t.light = .training) && !t.base && t.lease = some l then s.drain p k else s
    | none => s
/-- R381. -/
def execLctlRevocation (f : Flit) (s : State) : Out := s.onArrival f false (fun s => s.laneLost f)

/-- R379, R391: a wavelength loses its light at the sender. -/
def State.lose (s : State) (l : List (Nat × Nat)) : State :=
  let s := l.foldl (fun s w => s.modSlot w.1 w.2 (fun t =>
    if t.light.holds then { t with light := .lost, since := s.clock } else t)) s
  s.rewindAll (fun w => l.contains w)

/-- R391: the receiver tells the sender that it sees no light; of a wavelength that the sender knows to be LOST it learns
nothing new. -/
def State.noLight (s : State) (f : Flit) : State :=
  let k := lctlWave f
  match s.portReaching f.src (lctlPort f) k with
  | some p =>
    let t := (s.port p).slot k
    if t.light = .lit || t.light = .training || t.light = .draining then (s.lose [(p, k)]).leaseWork else s
  | none => s
/-- R391. -/
def execLctlLossNotice (f : Flit) (s : State) : Out := s.onArrival f false (fun s => s.noLight f)

/-! ### Light (R375, R379, R391, R407) -/

/-- R375: the slots that a laser module feeds. -/
def moduleSlots (m : Nat) : List (Nat × Nat) :=
  (List.range 8).flatMap (fun i => (List.range 4).map (fun j => (8 * (m / 4) + i, 4 * (m % 4) + j)))

/-- R407: A of subkinds 0 and 1 for a module. -/
def moduleWord (m : Nat) : Word := BitVec.ofNat 64 (0xFF * 2 ^ (8 * (m / 4)) + 0xF * 2 ^ (32 + 4 * (m % 4)) + m * 2 ^ 48)
/-- The bits of a list of numbers. -/
def maskBits (l : List Nat) : Nat := (l.eraseDups).foldl (fun a i => a + 2 ^ i) 0
/-- The same when the receiver detected it, for some lanes. -/
def lanesWord (l : List (Nat × Nat)) : Word :=
  BitVec.ofNat 64 (maskBits (l.map Prod.fst) + maskBits (l.map Prod.snd) * 2 ^ 32 + 0xF * 2 ^ 48)

/-- R391: laser module m fails. -/
def execLaserFeedFailure (laser : Nat) (s : State) : Out :=
  let l := moduleSlots laser
  if laser ≥ 16 || l.all (fun w => (s.port w.1).txf.getLsbD w.2) then .next s
  else
    let s := l.foldl (fun s w => s.modPort w.1 (fun x => { x with txf := x.txf ||| BitVec.ofNat 16 (2 ^ w.2) })) s
    .next (((s.lose l).postEvent none 0x0D (moduleWord laser) 0).leaseWork)

/-- The connections whose flits arrive on a lane. -/
def State.connsOnLane (s : State) (p k : Nat) : List (Nat × Nat) :=
  match ((s.port p).lane k).lease, (s.port p).hears k with
  | some (r, x), _ =>
    ((List.range 4).filter (fun q => s.pairOf q x = some r)).map (fun q => (q, x))
  | none, some x => ((List.range 4).filter (fun q => (s.pairOf q x).isSome)).map (fun q => (q, x))
  | none, none => []

/-- R391: the receiver of λk at a port sees no light: PSTAT.LOS is set; at the end of the clock the loss is reported. -/
def execLossOfLight (port wave : Nat) (s : State) : Out :=
  let r := (s.port port).lane wave
  if !r.assigned || r.los then .next s
  else .next (s.modLane port wave (fun r => { r with los := true, losAt := s.clock }))

/-- R391: the lanes that lost their light in the clock in hand. -/
def State.newLosses (s : State) : List (Nat × Nat) :=
  allWaves.filter (fun w => let r := (s.port w.1).lane w.2; r.los && decide (r.losAt = s.clock))

/-- R375, R391: what failed, as the receiver sees it: the lanes of one module of one peer fail together. -/
def State.failureOf (s : State) (w : Nat × Nat) : Option Nat × Nat × Nat := ((s.port w.1).hears w.2, w.1 / 8, w.2 / 4)

/-- R388, R391: the losses of a clock: one NAK for each connection, one event for each failure, and each sender is told of its
wavelengths: the receiver cannot see whether a feed is intact, and a sender that knows of its loss ignores the notice
(DEDUCED, log 40). -/
def State.reportLosses (s : State) : State :=
  let l := s.newLosses
  if l.isEmpty then s
  else
    let conns := (l.flatMap (fun w => s.connsOnLane w.1 w.2)).eraseDups
    let tell (t : State) (w : Nat × Nat) : State :=
      match (s.port w.1).hears w.2 with
      | some x => t.tell x (lctl useLoss ((((s.port w.1).lane w.2).lease.map Prod.fst).getD 0) w.1 w.2)
      | none => t
    let post (t : State) (f : Option Nat × Nat × Nat) : State :=
      t.postEvent none 0x0D (lanesWord (l.filter (fun w => s.failureOf w = f))) 0
    ((l.map s.failureOf).eraseDups).foldl post (l.foldl tell (conns.foldl (fun t c => t.sendNak c.1 c.2) s))

/-- R374, R379: a LOST wavelength has its light again: a base wavelength of an enabled port is LIT (DEDUCED, log 34), any other
goes DARK. -/
def State.relight (s : State) (p k : Nat) : State :=
  if (s.port p).en && (s.port p).base.getLsbD k && ((s.port p).slot k).base then
    s.modSlot p k (fun _ => { light := .lit, base := true, since := s.clock })
  else s.darken p k

/-- R379, R407: module `laser` shines again; from 16 on, lane (n − 16) of the package sees light again. -/
def execLightRestored (laser : Nat) (s : State) : Out :=
  if laser < 16 then
    let l := moduleSlots laser
    if l.all (fun w => !(s.port w.1).txf.getLsbD w.2 && ((s.port w.1).slot w.2).light ≠ .lost) then .next s
    else
      let s := l.foldl (fun s w => s.modPort w.1 (fun x => { x with txf := x.txf &&& ~~~(BitVec.ofNat 16 (2 ^ w.2)) })) s
      let s := l.foldl (fun s w => if ((s.port w.1).slot w.2).light = .lost then s.relight w.1 w.2 else s) s
      .next ((s.postEvent none 0x0D (moduleWord laser) 1).leaseWork)
  else
    let p := (laser - 16) / 16
    let k := laser % 16
    if ((s.port p).lane k).los then
      .next ((s.modLane p k (fun r => { r with los := false })).postEvent none 0x0D (lanesWord [(p, k)]) 1)
    else .next s

/-- R379: both ends have locked, 500 ns (1,200 clocks) or more after training began and within 2 µs. -/
def execWavelengthLock (port wave : Nat) (s : State) : Out :=
  let t := (s.port port).slot wave
  if t.light = .training && decide (t.since + 1200 ≤ s.clock) && decide (s.clock < t.since + 4800) then
    .next (s.modSlot port wave (fun t => { t with light := .lit, since := s.clock })).leaseWork
  else .next s

/-- R379: no lock within 2 µs. -/
def execTrainingTimeout (port wave : Nat) (s : State) : Out :=
  let t := (s.port port).slot wave
  if t.light = .training && decide (t.since + 4800 ≤ s.clock) then .next (s.darken port wave).leaseWork
  else .next s

/-- R379: some flit sent on the wavelength is neither acknowledged nor to be resent. -/
def State.waveBusy (s : State) (p k : Nat) : Bool :=
  s.fab.conns.cells.any (fun c => c.2.sent.any (fun o =>
    decide (o.flit.port = p) && decide (o.flit.wave = k) && c.2.again.all (fun a => a.flit.seq ≠ o.flit.seq)))

/-- R379: drained, or 10 µs (24,000 clocks) after it began. -/
def execWavelengthDrained (port wave : Nat) (s : State) : Out :=
  let t := (s.port port).slot wave
  if t.light = .draining && (!s.waveBusy port wave || decide (t.since + 24000 ≤ s.clock)) then
    .next (s.darken port wave).leaseWork
  else .next s

/-! ### Ports (R376) -/

/-- R376: PLIT as a port holds it. -/
def Port.plit (x : Port) : Word :=
  let mask (f : Nat → Bool) : Nat := ((List.range 16).filter f).foldl (fun a k => a + 2 ^ k) 0
  BitVec.ofNat 64 ((if x.en then 2 ^ 52 else 0) + x.pos * 2 ^ 48 + x.base.toNat * 2 ^ 32 +
    mask (fun k => (x.lane k).assigned) * 2 ^ 16 + mask (fun k => (x.slot k).light.holds))
/-- R376: PSTAT as a port holds it. -/
def Port.pstat (x : Port) : Word :=
  let mask (f : Nat → Bool) : Nat := ((List.range 16).filter f).foldl (fun a k => a + 2 ^ k) 0
  BitVec.ofNat 64 (mask (fun k => (x.lane k).los) * 2 ^ 32 + x.txf.toNat * 2 ^ 16 +
    mask (fun k => (x.slot k).light = .lit && (x.slot k).lease.isSome))

/-- R376: what a port must be to be enabled. -/
def Port.mayEnable (x : Port) (peer : Nat) : Bool :=
  !x.base.getLsbD 0 && decide (countOnes x.base 16 ≤ 8) && x.peerAt x.pos = some peer

/-- R374, R376: the base wavelengths of a port are lit, but for those without a feed. -/
def Port.litBase (x : Port) (clock : Nat) : Port :=
  { x with tx := Vector.ofFn (fun (k : Fin 16) =>
      if x.base.getLsbD k.val then
        { light := if x.txf.getLsbD k.val then .lost else .lit, base := true, since := clock }
      else x.tx[k]) }

/-- R376: a write to PLIT. A write of EN = 0 to an enabled port writes EN alone: POS and BASE accept no write then
(DEDUCED, log 34). -/
def State.writePlit (s : State) (who : Who) (p : Nat) (v : Word) : Wrote :=
  let x := s.port p
  let pos := bits v.toNat 51 48
  let base := v.extractLsb' 32 16
  if !isHost who then refuse51 s
  else if x.en then
    if v.getLsbD 52 then
      if pos = x.pos && base = x.base then { s := s } else refuse51 s
    else
      let s := s.modPort p (fun x => { x with en := false })
      { s := ((List.range 16).foldl (fun s k =>
          let t := (s.port p).slot k
          if t.light = .lit || t.light = .training then s.drain p k else s) s).leaseWork }
  else
    let y := { x with pos := pos, base := base }
    if !v.getLsbD 52 then { s := s.modPort p (fun _ => y) }
    else if y.mayEnable s.pkg.peer.toNat then { s := s.modPort p (fun _ => { y.litBase s.clock with en := true }) }
    else refuse51 s

/-- R376: the address of PLIT. -/
def plitReg (p : Nat) : Word := pkgReg (0x300000 + 0x40 * p + 0x20)
/-- R376. -/
def execPortEnable (who : Who) (port : Nat) (value : Word) (s : State) : Out :=
  .next (s.store who (plitReg port) (s.writePlit who port (value ||| 1#64 <<< 52)))
/-- R376. -/
def execPortDisable (who : Who) (port : Nat) (value : Word) (s : State) : Out :=
  .next (s.store who (plitReg port) (s.writePlit who port (value &&& ~~~(1#64 <<< 52))))

/-! ### lease, lrel, lqry (R382) -/

/-- R382: the peer in a register. -/
def State.leasePeer (s : State) (a : Word) : Except Stop Nat :=
  if bits a.toNat 63 12 ≠ 0 || a.toNat = s.pkg.peer.toNat then .error s.badOperand else .ok a.toNat

/-- A lease instruction parks with its job. -/
def State.parkLease (s : State) (d : Reg) (j : LeaseJob) : Out :=
  .next ((s.park (.lease j.peer (s.me.code d))).leaseAsk j)

/-- An instruction that parks when its checks pass. -/
def State.orTrap {α : Type} (s : State) (r : Except Stop α) (k : α → Out) : Out :=
  match r with
  | .ok v => k v
  | .error e => s.finish 4 (.error e)

/-- R382. -/
def execLease (d a b : Reg) (s : State) : Out :=
  let v := (s.rd b).toNat
  s.orTrap (s.leasePeer (s.rd a)) fun x =>
    if bits v 63 17 ≠ 0 || bits v 15 14 ≠ 0 || bits v 7 6 ≠ 0 || bits v 5 0 > 32 || bits v 13 8 > bits v 5 0 then
      s.finish 4 (.error s.badOperand)
    else
      s.parkLease d { tid := some s.cur, entry := none, part := s.partOf s.cur, peer := x, rel := false, n := bits v 5 0
                      min := bits v 13 8, nt := bits v 16 16 = 1 }

/-- R382. -/
def execLrel (d a b : Reg) (s : State) : Out :=
  let v := (s.rd b).toNat
  s.orTrap (s.leasePeer (s.rd a)) fun x =>
    if bits v 63 6 ≠ 0 || v > 32 then s.finish 4 (.error s.badOperand)
    else
      s.parkLease d { tid := some s.cur, entry := none, part := s.partOf s.cur, peer := x, rel := true, n := v, min := 0
                      nt := true }

/-- R382: the state word. -/
def State.leaseState (s : State) (q x : Nat) : Word :=
  let count (l : Light) : Nat := (s.waves (fun _ _ t => t.lease = some (q, x) && t.light = l)).length
  let base := (s.waves (fun p k t => t.base && p.reaches k = some x && t.light = .lit)).length
  BitVec.ofNat 64 (s.heldBy q x + count .draining * 2 ^ 8 + count .lost * 2 ^ 16 + base * 2 ^ 24 +
    (if s.hasRoute q x && (s.paths q x).2 then 2 ^ 32 else 0))

/-- R382. -/
def execLqry (d a : Reg) (s : State) : Out :=
  s.finish 4 (do
    let x ← s.leasePeer (s.rd a)
    .ok (s.wr d (s.leaseState (s.partOf s.cur) x)))

end Sys2Proof.Machine
end

