-- ==== Sys2Proof/Machine/Groups.lean ====
section
/-! DEFINITION. Groups and collectives (R428–R436): small rounds, bulk collectives along a group's tree, aborts,
and the instructions coll, grp.st and grp.ld. -/

namespace Sys2Proof.Machine

/-! ### The tree (R428) -/

/-- R428: the peer of a child slot. -/
def Group.kid (g : Group) (s : Nat) : Nat := if h : s < 8 then g.kids[s] else 0
/-- R428: the child slots in use, ascending. -/
def Group.slots (g : Group) : List Nat := (List.range 8).filter (fun s => g.cmask.getLsbD s)
/-- The lowest child slot in use that names a peer. -/
def Group.slotOf (g : Group) (x : Nat) : Option Nat := g.slots.find? (fun s => g.kid s = x)
/-- R409: the partition that a group belongs to. -/
def State.groupPart (s : State) (g : Nat) : Nat := (s.rangeOwner (·.hasGroup g)).getD 0

/-- R427: a TRG flit of a group. -/
def trgFlit (aux g : Nat) (payload : List Byte) (off : Nat := 0) : Flit :=
  { typ := 0x0C, aux := aux, hdl := g, off := off, len := payload.length - 1, payload := payload }
/-- A flit of a group that carries no bulk data goes ahead of the queues of R437. -/
def State.sendTree (s : State) (g x aux : Nat) (payload : List Byte) : State :=
  s.sendUrgent (s.groupPart g) x (trgFlit aux g payload)

/-! ### Small rounds (R428–R430) -/

/-- R428: the small operators. -/
def smallOp (op : Nat) (a b : Word) : Word :=
  let lo (w : Word) : Nat := bits w.toNat 31 0
  match op with
  | 0 => a + b
  | 1 => minS a b
  | 2 => maxS a b
  | 3 => a &&& b
  | 4 => a ||| b
  | 5 => a ^^^ b
  | 6 => BitVec.ofNat 64 (fp32Add (lo a) (lo b)).1
  | _ => BitVec.ofNat 64 (minCode .f32 true (lo a) (lo b))

/-- R428, R429: the combination of contributions; OP 6 and 7 leave bits [63:32] zero. -/
def combineSmall (op : Nat) : List Word → Word
  | [] => 0
  | v :: r => r.foldl (smallOp op) (if op ≥ 6 then BitVec.ofNat 64 (bits v.toNat 31 0) else v)

/-- R429: every contribution of the round is here; a package that contributes nothing and has no children completes no
round, at the root or not (DESIGN CHOICE, log 38). -/
def Group.full (g : Group) : Bool :=
  g.en && !g.upDone && decide (g.locals.length = g.localN) && g.slots.all (fun s => (g.arrived.find s).isSome) &&
    !(decide (g.localN = 0) && g.slots.isEmpty)
/-- R429: the combined value of a full round. -/
def Group.combined (g : Group) : Word :=
  combineSmall g.op (g.locals ++ g.slots.map (fun s => g.arrived.get 0 s))

/-- R430: round r has completed. -/
def Group.roundOver (g : Group) (r : Word) : Bool :=
  let n := (g.epoch - r.extractLsb' 0 32).toNat
  decide (1 ≤ n) && decide (n ≤ 2 ^ 31)

/-- R429 items 1 to 4: the result of a round is known. -/
def State.roundResult (s : State) (g : Nat) (v : Word) : State :=
  let x := s.group g
  let s := s.setGroup g { x with gres := v, epoch := x.epoch + 1, locals := [], arrived := {}, upDone := false }
  let s := (s.parkedWith (fun _ w => match w with
    | .grpLd g' r _ => g' = g && (s.group g).roundOver r
    | _ => false)).foldl (fun s t => match (s.thread t).waits with
      | some (.grpLd _ _ d) => s.wake t d v
      | _ => s) s
  x.slots.foldl (fun s k => s.sendTree g (x.kid k) 2 (leBytes 8 v.toNat ++ leBytes 4 x.epoch.toNat)) s

/-- R430: one contribution is recorded, and its maker learns of it. -/
def State.recordContribution (s : State) (g : Nat) (v : Word) : State :=
  s.modGroup g (fun x => { x with locals := x.locals ++ [v] })

/-- R430: the store or entry that waited is done. -/
def State.contributed (s : State) : Contributor → State
  | .store tid id => s.acknowledge tid id
  | .entry e => s.modEntry e (fun x => { x with ended := some none })
  | .host => s

/-- R412, R430: who contributes next to a round that has room: entries first, as they fired, then threads by core and slot, a
store of a thread before its parked grp.st, then the host, each with its value; none for a parked thread's. -/
def State.nextContributor (s : State) (g : Nat) : Option (Nat × Option (Word × Contributor)) :=
  let place : Contributor → Nat
    | .entry _ => 0
    | .store tid _ => 1 + 2 * tid
    | .host => 2 + 2 * 4096
  let waits := (s.group g).waiting.map (fun w => (place w.2, some w))
  let parked := (s.parkedWith (fun _ w => match w with | .grpSt g' _ _ => g' = g | _ => false)).map
    (fun t => (2 + 2 * t, (none : Option (Word × Contributor))))
  (sortBy (fun a b => a.1 ≤ b.1) (waits ++ parked)).head?

/-- R412, R429, R430: the round goes on as far as its contributions allow, in the arbiter's order. -/
def State.roundRun (s : State) (g : Nat) : Nat → State
  | 0 => s
  | fuel + 1 =>
    let x := s.group g
    if x.full then
      let v := x.combined
      if x.root then (s.roundResult g v).roundRun g fuel
      else
        (s.modGroup g (fun x => { x with upDone := true })).sendTree g x.parent 1
          (leBytes 8 v.toNat ++ leBytes 4 x.epoch.toNat)
    else if !x.en || decide (x.locals.length ≥ x.localN) then s
    else match s.nextContributor g with
      | some (_, some (v, who)) =>
        (((s.modGroup g (fun x => { x with waiting := x.waiting.erase (v, who) })).recordContribution g v).contributed
          who).roundRun g fuel
      | some (n, none) =>
        let t := (n - 2) / 2
        (match (s.thread t).waits with
         | some (.grpSt _ v d) =>
           ((s.recordContribution g v).unpark t d (x.epoch.zeroExtend 64)).roundRun g fuel
         | _ => s)
      | none => s

/-- The round goes on; each turn takes a contribution or ends a round that had one. -/
def State.roundWork (s : State) (g : Nat) : State := s.roundRun g (2 * (s.threads.cells.length + (s.group g).waiting.length) + 4)

/-- R430: grp.st. -/
def execGrpSt (d a b : Reg) (s : State) : Out :=
  s.finish 4 do
    let g := (s.rd a).toNat
    if g ≥ 256 then .error s.badOperand
    else if !(s.trg.range (s.partOf s.cur)).hasGroup g then .error (.trap { code := 0x05, sub := 3, eval := groupAddr g })
    else
      let x := s.group g
      if !x.en || x.localN = 0 then .error s.badOperand
      else
        s.released
        if x.locals.length ≥ x.localN then .error (.park (.grpSt g (s.rd b) (s.me.code d)))
        else .ok (((s.wr d (x.epoch.zeroExtend 64)).recordContribution g (s.rd b)).roundWork g)

/-- R430: grp.ld. -/
def execGrpLd (d a b : Reg) (s : State) : Out :=
  s.finish 4 do
    let g := (s.rd a).toNat
    if g ≥ 256 || bits (s.rd b).toNat 63 32 ≠ 0 then .error s.badOperand
    else if !(s.trg.range (s.partOf s.cur)).hasGroup g then .error (.trap { code := 0x05, sub := 3, eval := groupAddr g })
    else if (s.group g).roundOver (s.rd b) then .ok ((s.wr d (s.group g).gres).acquire s.cur)
    else .error (.park (.grpLd g (s.rd b) (s.me.code d)))

/-- R430: a store to GCON; while the round is full it waits, and so does its acknowledgement. -/
def State.writeGcon (s : State) (who : Who) (g : Nat) (v : Word) : Wrote :=
  let x := s.group g
  if !x.en || x.localN = 0 then refuse51 s
  else if x.locals.length < x.localN && x.waiting.isEmpty then { s := (s.recordContribution g v).roundWork g }
  else match who with
    | .thread core slot =>
      let tid := tidOf core slot
      let id := s.nextId
      { s := { (s.modGroup g (fun x => { x with waiting := x.waiting ++ [(v, .store tid id)] })).modThread tid
                 (fun t => { t with unacked := t.unacked ++ [(id, t.mode)] }) with nextId := id + 1 } }
    | _ => { s := s.modGroup g (fun x => { x with waiting := x.waiting ++ [(v, .host)] }) }

/-- R430. -/
def execGroupContributionStore (who : Who) (group : Nat) (value : Word) (s : State) : Out :=
  .next (s.store who (groupAddr group + 0x28) (s.writeGcon who group value))

/-! ### Bulk collectives (R431–R434) -/

/-- R433: the chunk. -/
def chunkBytes : Nat := 65536
def Coll.chunkCount (c : Coll) : Nat := (c.len + chunkBytes - 1) / chunkBytes
def Coll.chunkLen (c : Coll) (i : Nat) : Nat := min chunkBytes (c.len - chunkBytes * i)
def Coll.format (c : Coll) : Fmt := fmtOf c.fmt

/-- R433 step 2: one step of the combination of an element. -/
def collElem (op : Nat) (f : Fmt) (x y : Nat) : Nat :=
  if f = .i32 then
    let i (n : Nat) : BitVec 32 := BitVec.ofNat 32 n
    match op with
    | 0 => (x + y) % 2 ^ 32
    | 1 => if (i y).slt (i x) then y else x
    | _ => if (i x).slt (i y) then y else x
  else
    match op with
    | 0 => (finishNum f 0 0 (numAdd 0 (decodeNum f false x) (decodeNum f false y))).1
    | 1 => minCode f false x y
    | _ => minCode f true x y

/-- R433: two chunks combined, element by element, `n` elements of `es` bytes. -/
def combineBytes (op : Nat) (f : Fmt) (es : Nat) (a b : List Byte) : Nat → List Byte
  | 0 => []
  | n + 1 =>
    leBytes es (collElem op f (leNat (a.take es)) (leNat (b.take es))) ++
      combineBytes op f es (a.drop es) (b.drop es) n

/-- Chunks of a collective still on a tree edge: to the parent (none), or to a child slot. -/
def State.edgeOut (s : State) (g seq : Nat) (child : Option Nat) : Nat :=
  (s.fab.ops.filter (fun o => match o.owner with
    | .coll g' q' _ k => g' = g && q' = seq && k = child
    | _ => false)).length
/-- R433: a tree edge of the group can carry one more chunk, whichever collective it is of. -/
def State.edgeRoom (s : State) (g : Nat) (child : Option Nat) : Bool :=
  decide ((s.fab.ops.filter (fun o => match o.owner with
    | .coll g' _ _ k => g' = g && k = child
    | _ => false)).length < 4)

/-- Flits of a chunk. -/
def chunkFlits (aux g : Nat) (off : Nat) : Nat → List Byte → List Flit
  | 0, _ => []
  | fuel + 1, bs =>
    if bs.isEmpty then [] else trgFlit aux g (bs.take 256) off :: chunkFlits aux g (off + 256) fuel (bs.drop 256)

/-- R433, R437: a chunk leaves on a tree edge. -/
def State.sendChunk (s : State) (g : Nat) (c : Coll) (i : Nat) (child : Option Nat) (x : Nat) (bs : List Byte) : State :=
  let fl := chunkFlits (if child.isSome then 4 else 3) g (chunkBytes * i) 257 bs
  s.addOp { id := 0, kind := .trg, owner := .coll g c.seq i child, part := s.groupPart g, peer := x, hdl := g
            off := chunkBytes * i, len := bs.length, flits := fl, count := fl.length, deadline := c.dl }

/-- R434: a collective of the group ends; an abort that waits for it learns how. -/
def State.endColl (s : State) (g : Nat) (c : Coll) (status : Nat) : State :=
  let late := decide (s.gtime.toNat > c.dl)
  let s := s.modGroup g (fun x => { x with
    colls := x.colls.filter (fun y => y.seq ≠ c.seq)
    cres := if h : c.seq % 4 < 4 then x.cres.set (c.seq % 4) { seq := c.seq, late := late, status := status } else x.cres })
  let s := if status = 0 || c.bad then s
    else s.modFab (fun f => { f with ops := f.ops.filter (fun o => match o.owner with
      | .coll g' q' _ _ => !(g' = g && q' = c.seq)
      | _ => true) })
  let s := if !c.cen then s else if status = 0 then s.counterAdd c.ctr 1 else s.counterCfail c.ctr
  match c.entry with
  | some e => s.modEntry e (fun x => { x with ended := some (if status = 0 then none
      else some { code := 0x10, sub := BitVec.ofNat 8 (0xF0 + status), eval := x.opa }) })
  | none => s

/-- R435: the aborts that wait for a collective's decision complete, with 0 or 4. -/
def State.endAborts (s : State) (g seq : Nat) (v : Word) : State :=
  let (mine, rest) := (s.group g).aborts.partition (fun a => a.seq = seq)
  mine.foldl (fun s a =>
    if ((s.thread a.tid).flight a.flight).isSome then
      (s.modThread a.tid (fun t => t.writeCode a.d v)).land a.tid a.flight
    else s) (s.modGroup g (fun x => { x with aborts := rest }))

/-- R435: the payload of an abort request or decision. -/
def abortBytes (seq peer : Nat) : List Byte := leBytes 4 seq ++ leBytes 2 peer

/-- R436: the child slots whose connections the collective has not seen fail. -/
def Group.heard (x : Group) (c : Option Coll) : List Nat :=
  x.slots.filter (fun k => match c with | some c => !c.lost.contains (x.kid k) | none => true)

/-- R435, R436: the collective `seq` is over at this package with a status, and below it: byte 6 of the flits that say so is
0 for ABORTED; 2 tells that a connection above has failed (DESIGN CHOICE, log 6). -/
def State.overHere (s : State) (g seq peer status : Nat) (v : Word) : State :=
  let x := s.group g
  let c := x.colls.find? (fun c => c.seq = seq)
  let s := match c with
    | some c => s.endColl g { c with bad := false } status
    | none => if seq < x.next.toNat then s else s.modGroup g (fun x => { x with doomed := x.doomed ++ [(seq, status)] })
  let s := (x.heard c).foldl (fun s k =>
    s.sendTree g (x.kid k) 6 (abortBytes seq peer ++ [if status = 2 then 0 else 2])) s
  s.endAborts g seq v
/-- R435: the collective `seq` is aborted at this package, and below it. -/
def State.abortHere (s : State) (g seq peer : Nat) : State := s.overHere g seq peer 2 0

/-- R435: a decision that came too late goes towards the aborter, where the collective goes on to its end: the commit has
been made. -/
def State.abortLate (s : State) (g seq peer : Nat) : State :=
  if peer = s.pkg.peer.toNat then
    (s.modGroup g (fun x => { x with colls := x.colls.map (fun c =>
      if c.seq = seq then { c with committed := true, halted := false } else c) })).endAborts g seq 4
  else match (s.group g).paths.find peer with
    | some x => s.sendTree g x 6 (abortBytes seq peer ++ [1])
    | none => s

/-- R435: an abort request for a collective, raised here or received. -/
def State.abortRequest (s : State) (g seq peer : Nat) : State :=
  let x := s.group g
  if !x.root then s.sendTree g x.parent 5 (abortBytes seq peer)
  else match x.colls.find? (fun c => c.seq = seq) with
    | some c => if c.committed then s.abortLate g seq peer else s.abortHere g seq peer
    | none => if seq < x.next.toNat then s.abortLate g seq peer else s.abortHere g seq peer

/-- R433: the head collective of a group changed. -/
def State.setHead (s : State) (g : Nat) (c : Coll) : State :=
  s.modGroup g (fun x => { x with colls := x.colls.map (fun y => if y.seq = c.seq then c else y) })

/-- R433: the flit of a tree edge belongs to the collective in hand, to an earlier one, or must wait; or it shows that the
child runs another collective. -/
inductive Turn where
  | take | drop | wait | differ
  deriving DecidableEq, Repr

/-- R433: bytes are added to a chunk. -/
def addChunk (t : Tab (List Byte)) (k : Nat) (bs : List Byte) : Tab (List Byte) := t.put k (t.get [] k ++ bs)

/-- R433 step 1: what a child announces: sequence number, len and ctl. -/
def checkFields (f : Flit) : Nat × Nat × Nat :=
  (leNat (f.payload.take 4), leNat ((f.payload.drop 4).take 4), leNat ((f.payload.drop 8).take 2))

/-- R433: whether a flit of the inbox concerns the head collective. Final chunks come from the parent, those of one collective
before those of the next. A child that checks in for a later collective without having checked in for this one has another
sequence number. -/
def Group.turn (x : Group) (head : Option Coll) (f : Flit) : Turn :=
  if f.aux = 4 then
    if x.root || x.parent ≠ f.src then .drop
    else match head with
    | some c => if c.kind ≠ 1 && c.fed < c.len then .take else .wait
    | none => .wait
  else match x.slotOf f.src with
  | none => .drop
  | some k =>
    let q := if f.aux = 7 then (checkFields f).1 else x.kidSeq.get 0 k
    match head with
    | some c =>
      if q = c.seq then .take
      else if q < c.seq then .drop
      else if f.aux = 7 && !c.checked.contains k && !c.committed && !c.halted then .differ
      else .wait
    | none => if q < x.next.toNat then .drop else .wait

/-- R433: a flit of the head collective takes effect; a mismatch of the check aborts it. -/
def State.takeTree (s : State) (g : Nat) (c : Coll) (f : Flit) : State :=
  let n := f.len + 1
  let bs := f.payload.take n
  if f.aux = 4 then s.setHead g { c with fed := c.fed + bs.length, finals := addChunk c.finals (f.off / chunkBytes) bs }
  else match (s.group g).slotOf f.src with
  | some k =>
    if f.aux = 7 then
      let s := s.modGroup g (fun x => { x with kidSeq := x.kidSeq.put k c.seq })
      if (checkFields f).2 = (c.len, c.ctl) then s.setHead g { c with checked := c.checked ++ [k] }
      else s.abortRequest g c.seq s.pkg.peer.toNat
    else s.setHead g { c with chunks := addChunk c.chunks (2 ^ 20 * k + f.off / chunkBytes) bs }
  | none => s

/-- R433: the flits that wait are looked at in their order; one that must wait holds back the later ones of its
peer. -/
def State.sortInbox (s : State) (g : Nat) : List Flit → List Nat → State
  | [], _ => s
  | f :: r, held =>
    let x := s.group g
    let keep (s : State) : State := s.modGroup g (fun x => { x with inbox := x.inbox ++ [f] })
    if held.contains f.src then (keep s).sortInbox g r held
    else match x.turn x.colls.head? f, x.colls.head? with
      | .take, some c => (s.takeTree g c f).sortInbox g r held
      | .drop, _ => s.sortInbox g r held
      | .differ, some c =>
        (keep ((s.setHead g { c with halted := true }).abortRequest g c.seq s.pkg.peer.toNat)).sortInbox g r (f.src :: held)
      | _, _ => (keep s).sortInbox g r (f.src :: held)

/-- Bytes that the spec leaves open (log 2). -/
def State.freeBytes (s : State) (n : Nat) : State × List Byte :=
  ({ s with free := s.free + n }, (List.range n).map (fun i => (Config.freeValue (s.free + i)).extractLsb' 0 8))

/-- R433: the spans of this package's own chunk. -/
def Coll.ownSpans (c : Coll) (i : Nat) : List Span := spansAt c.srcs (chunkBytes * i) (c.chunkLen i)
/-- R433: reads the bytes of this package's own chunk. -/
def State.ownChunk (s : State) (c : Coll) (i : Nat) : Did (List Byte) :=
  if s.spansWatched (c.ownSpans i) then .wait else s.readSpans c.core 0 c.subs (c.ownSpans i)
/-- R433: writes a final chunk to b. -/
def State.putChunk (s : State) (c : Coll) (i : Nat) (bs : List Byte) : Did Unit :=
  let l := spansAt c.dsts (chunkBytes * i) (c.chunkLen i)
  if s.spansWatched l then .wait else s.writeSpans c.core 0 (chunkBytes * i) bs l

/-- R433 step 3: the package writes chunks to b. -/
def Group.writesB (x : Group) (c : Coll) : Bool :=
  if x.root then decide (c.kind ≠ 2) else decide (c.kind ≠ 1)

/-- R403: the requests that a write of a chunk has made are the collective's. -/
def Coll.withSubs (c : Coll) (before after : State) : Coll :=
  { c with subs := c.subs ++ (List.range (after.nextId - before.nextId)).map (before.nextId + ·) }

/-- R436: a child whose connection has failed behind the commit sends no more. -/
def Group.gone (x : Group) (c : Coll) (k : Nat) : Bool := c.committed && c.lost.contains (x.kid k)
/-- R433: chunk i of a child is here. -/
def Coll.chunkHere (c : Coll) (k i : Nat) : Bool :=
  c.checked.contains k && (c.chunks.get [] (2 ^ 20 * k + i)).length = c.chunkLen i

/-- R433 step 2: the combined chunk, of the package's own bytes and its children's. What stands for a contribution that cannot
come any more, behind the commit, the spec does not say: free bytes (log 2). -/
def State.combineChunk (s : State) (x : Group) (c : Coll) (i : Nat) (own : Option (List Byte)) : State × List Byte :=
  match own with
  | none => s.freeBytes (c.chunkLen i)
  | some own =>
    if x.slots.any (fun k => !c.chunkHere k i) then s.freeBytes (c.chunkLen i)
    else (s, x.slots.foldl (fun v k =>
      combineBytes c.op c.format c.format.size v (c.chunks.get [] (2 ^ 20 * k + i)) (c.chunkLen i / c.format.size)) own)

/-- R433 step 3: a final chunk goes to the children whose connections stand. -/
def State.sendDown (s : State) (g : Nat) (c : Coll) (i : Nat) (bs : List Byte) : State :=
  ((s.group g).heard (some c)).foldl (fun s k => s.sendChunk g c i (some k) ((s.group g).kid k) bs) s
/-- R433: every child's edge has room for a chunk. -/
def State.downRoom (s : State) (g : Nat) (c : Coll) : Bool :=
  ((s.group g).heard (some c)).all (fun k => s.edgeRoom g (some k))

/-- R433: a collective that has ended here sends its last final chunks on. -/
def State.tailStep (s : State) (g : Nat) : Option State :=
  match (s.group g).tails with
  | [] => none
  | c :: r =>
    if c.down ≥ c.chunkCount then some (s.modGroup g (fun x => { x with tails := r }))
    else if !s.downRoom g c then none
    else some ((s.modGroup g (fun x => { x with tails := { c with down := c.down + 1, finals := c.finals.del c.down } :: r })).sendDown
      g c c.down (c.finals.get [] c.down))

/-- R433: every byte of b has been written, or what stands in its place for a package that writes none. -/
def State.collOver (s : State) (g : Nat) (x : Group) (c : Coll) : Bool :=
  let n := c.chunkCount
  if x.writesB c then decide (c.wrote = n)
  else if c.kind = 1 then decide (c.up = n) && decide (s.edgeOut g c.seq none = 0)
  else decide (c.down = n) && x.slots.all (fun k => s.edgeOut g c.seq (some k) = 0)

/-- R434: a collective ends here, DONE or, behind a local fault, FAILED (DESIGN CHOICE, log 38), while its last chunks go on to
the children. -/
def State.finishColl (s : State) (g : Nat) (x : Group) (c : Coll) (status : Nat) : State :=
  let s := s.endColl g { c with bad := decide (status ≠ 0) } status
  if c.kind = 1 || c.down = c.chunkCount || x.slots.isEmpty then s
  else s.modGroup g (fun x => { x with tails := x.tails ++ [c] })

/-- R433: the collective at the head makes one step; none when it can make none. A local fault before the commit asks for an
abort; behind it the collective goes on, and ends FAILED here (DESIGN CHOICE, log 38). -/
def State.headStep (s : State) (g : Nat) : Option State :=
  let x := s.group g
  match x.colls with
  | [] => none
  | c :: _ =>
    let n := c.chunkCount
    let abort (s : State) : Option State :=
      some ((s.setHead g { c with halted := true }).abortRequest g c.seq s.pkg.peer.toNat)
    let asks (i : Nat) : State × List Nat := s.askSpans c.core c.subs (c.ownSpans i)
    if c.halted then none
    else match x.doomed.find? (fun d => d.1 = c.seq) with
    | some (_, status) => some ((s.modGroup g (fun x => { x with doomed := x.doomed.filter (fun d => d.1 ≠ c.seq) })).endColl g c status)
    | none =>
    if !c.started then
      let s := s.setHead g { c with started := true, committed := x.root && c.kind = 2 }
      some (if x.root then s
        else s.sendTree g x.parent 7 (leBytes 4 c.seq ++ leBytes 4 c.len ++ leBytes 2 c.ctl))
    else if c.kind ≠ 2 && c.up < n && x.slots.all (fun k => x.gone c k || c.chunkHere k c.up) && (x.root || s.edgeRoom g none) then
      if (asks c.up).2 ≠ c.subs then some ((asks c.up).1.setHead g { c with subs := (asks c.up).2 })
      else
        let go (s : State) (own : Option (List Byte)) : Option State :=
          let (s, v) := s.combineChunk x c c.up own
          let c := { c with bad := c.bad || own.isNone, up := c.up + 1, chunks := c.chunks.only (fun k => decide (k % 2 ^ 20 ≠ c.up)) }
          let ends (t : State) (bad : Bool) : Option State :=
            some (t.setHead g { (c.withSubs s t) with
              committed := true, bad := c.bad || bad, wrote := c.wrote + 1
              finals := if c.kind = 0 then c.finals.put c.wrote v else c.finals })
          if !x.root then some ((s.setHead g c).sendChunk g c (c.up - 1) none x.parent v)
          else match s.putChunk c c.wrote v with
            | .wait => none
            | .err t _ => if c.committed then ends t true else abort t
            | .ok t _ => ends t false
        match s.ownChunk c c.up with
        | .wait => none
        | .err s _ => if c.committed then go s none else abort s
        | .ok s own => go s (some own)
    else if x.writesB c && !x.root && c.wrote < n && (c.finals.get [] c.wrote).length = c.chunkLen c.wrote then
      match s.putChunk c c.wrote (c.finals.get [] c.wrote) with
      | .wait => none
      | .err t _ => some (t.setHead g { c with wrote := c.wrote + 1, committed := true, bad := true })
      | .ok t _ => some (t.setHead g { (c.withSubs s t) with wrote := c.wrote + 1, committed := true })
    else if c.kind ≠ 1 && c.down < n && x.tails.isEmpty && s.downRoom g c && ((x.root && c.kind = 2) || c.down < c.wrote) then
      if x.root && c.kind = 2 then
        if (asks c.down).2 ≠ c.subs then some ((asks c.down).1.setHead g { c with subs := (asks c.down).2 })
        else
          let go (s : State) (bs : List Byte) (bad : Bool) : Option State :=
            some ((s.setHead g { c with down := c.down + 1, bad := c.bad || bad }).sendDown g c c.down bs)
          match s.ownChunk c c.down with
          | .wait => none
          | .err s _ => let (s, bs) := s.freeBytes (c.chunkLen c.down); go s bs true
          | .ok s bs => go s bs false
      else some ((s.setHead g { c with down := c.down + 1, finals := c.finals.del c.down }).sendDown g c c.down (c.finals.get [] c.down))
    else if s.collOver g x c then
      let (s, left, bad) := s.settleSubs c.subs
      if left.isEmpty then some (s.finishColl g x c (if c.bad || bad.isSome then 3 else 0)) else none
    else none

/-- R433: the group's collectives make one step. -/
def State.collStep (s : State) (g : Nat) : Option State :=
  match s.tailStep g with
  | some s => some s
  | none => s.headStep g

/-- The collectives of a group go on as far as they can. -/
def State.collRun (s : State) (g : Nat) : Nat → State
  | 0 => s
  | fuel + 1 =>
    let l := (s.group g).inbox
    let s := (s.modGroup g (fun x => { x with inbox := [] })).sortInbox g l []
    match s.collStep g with
    | some s => s.collRun g fuel
    | none => s

/-- R433: chunks remain for at most so many steps. -/
def State.collWork (s : State) (g : Nat) : State :=
  s.collRun g (((s.group g).colls ++ (s.group g).tails).foldl (fun n c => n + 7 * c.chunkCount + 6) 1)

/-! ### coll (R431, R432) -/

/-- R57, R431, R432: the first field of an effective block that breaks its limits: ctl, then the others in ascending
index, the group's EN being the check of field 0. -/
def collBad (p : Block) (en : Nat → Bool) : Option Nat :=
  let kind := pbits p 109 108
  let op := pbits p 112 110
  let fmt := pbits p 115 113
  let len := pbits p 39 8
  let es := (fmtOf fmt).size
  let g := pbits p 7 0
  if kind = 3 then
    if pbits p 119 110 ≠ 0 then some 4
    else if !en g then some 0
    else if len ≠ 0 then some 1
    else if pbits p 95 40 ≠ 0 then some 2
    else if pbits p 107 96 ≠ 0 then some 3
    else none
  else if op > 2 || !(fmt ≤ 2 || fmt = 7) then some 4
  else if !en g then some 0
  else if len = 0 || len > 0x80000000 || len % es ≠ 0 then some 1
  else if pbits p 116 116 = 0 && pbits p 107 96 ≠ 0 then some 3
  else none

/-- R434: the deadline of a collective accepted now. -/
def State.collDeadline (s : State) (dl : Nat) : Nat := if dl = 0 then s.ftoFromNow else dl

/-- R432: the collective that a block asks for, under the group's next sequence number. -/
def State.collOf (s : State) (p : Block) (q core : Nat) (srcs dsts : List Span) : Coll :=
  { seq := (s.group (pbits p 7 0)).next.toNat, kind := pbits p 109 108, op := pbits p 112 110, fmt := pbits p 115 113
    len := pbits p 39 8, dl := s.collDeadline (pbits p 95 40), cen := pbits p 116 116 = 1, ctr := pbits p 107 96
    ctl := pbits p 119 108, part := q, srcs := srcs, dsts := dsts, core := core }

/-- R432: a collective joins its group's queue. -/
def State.queueColl (s : State) (g : Nat) (c : Coll) : State :=
  (s.modGroup g (fun x => { x with next := x.next + 1, colls := x.colls ++ [c] })).collWork g

/-- R432, R433 step 4: the pages of a that the package uses as loads, and those of b as stores. -/
def State.collSpans (s : State) (tid : Nat) (p : Block) (a b : Word) : Except Trap (List Span × List Span) := do
  let x := s.group (pbits p 7 0)
  let kind := pbits p 109 108
  let useA := kind ≠ 2 || x.root
  let useB := x.writesB { seq := 0, kind := kind, op := 0, fmt := 0, len := 0, dl := 0, cen := false, ctr := 0, ctl := 0, part := 0 }
  let l ← if useA then s.rangeSpans tid .load a (pbits p 39 8) else .ok []
  let m ← if useB then s.rangeSpans tid .store b (pbits p 39 8) else .ok []
  .ok (l, m)

/-- R432, R435: a coll of kind 3 of the thread in hand. -/
def State.abortColl (s : State) (d : Reg) (look : BitVec 4) (g : Nat) : State :=
  match (s.group g).colls with
  | [] => s.wr d 5
  | c :: _ =>
    let fl := s.nextId
    let s := s.launch .collective look.toNat [] [s.me.code d]
    let s := s.modGroup g (fun x => { x with aborts := x.aborts ++ [{ tid := s.cur, flight := fl, seq := c.seq, d := s.me.code d }] })
    (s.abortRequest g c.seq s.pkg.peer.toNat).collWork g

/-- R431, R432. -/
def execColl (d a b : Reg) (L : BitVec 4) (p : Block) (s : State) : Out :=
  s.finish 20 do
    let p ← s.effective collFields [(119, 117)] p
    let g := pbits p 7 0
    let r := s.trg.range (s.partOf s.cur)
    match collBad p (fun g => (s.group g).en) with
    | some f => .error (s.blockTrap f)
    | none =>
      if !r.hasGroup g then .error (.trap { code := 0x05, sub := 3, eval := groupAddr g })
      else if pbits p 109 108 = 3 then .ok (s.abortColl d L g)
      else if pbits p 116 116 = 1 && !r.hasCounter (pbits p 107 96) then
        .error (.trap { code := 0x05, sub := 3, eval := counterAddr (pbits p 107 96) })
      else
        let es := (fmtOf (pbits p 115 113)).size
        if (s.rd a).toNat % es ≠ 0 then .error (.trap { code := 0x03, eval := s.rd a })
        else if (s.rd b).toNat % es ≠ 0 then .error (.trap { code := 0x03, eval := s.rd b })
        else match s.collSpans s.cur p (s.rd a) (s.rd b) with
          | .error t => .error (.trap t)
          | .ok (l, m) =>
            if (s.group g).colls.length ≥ 4 then .ok (s.wr d 1)
            else
              let c := { s.collOf p (s.partOf s.cur) s.myCore l m with tid := some s.cur, run := some s.me.run }
              .ok ((s.wr d (BitVec.ofNat 64 (c.seq * 2 ^ 16))).queueColl g c)

/-! ### Flits of groups (R427, R429, R433, R435) -/

/-- R427: the target refuses a TRG flit; the refusal is logged at the lowest die of the partition. -/
def State.denyTrg (s : State) (f : Flit) (a : Word) : State :=
  let d := ((diesOf (s.part f.qd).dies).head?).getD 0
  (s.logViolation d a.toNat (.fabric f.src) f.qd 3 .atomic).sendUrgent f.qd f.src (errFlitOf f 1)

/-- R427: a flit of subtype 1–7 is for an enabled group of its partition. -/
def State.forGroup (s : State) (f : Flit) (k : State) : State :=
  if (s.trg.range f.qd).hasGroup f.hdl && (s.group f.hdl).en then k else s.denyTrg f (groupAddr f.hdl)

/-- R427, R411: subtype 0. -/
def State.trgAdd (s : State) (f : Flit) : State :=
  if (s.trg.range f.qd).hasCounter f.hdl then s.counterAdd f.hdl (BitVec.ofNat 64 (leNat (f.payload.take 8)))
  else s.denyTrg f (counterAddr f.hdl)

/-- R429: subtype 1: a child's contribution to the round in progress. -/
def State.trgUp (s : State) (f : Flit) : State :=
  s.forGroup f <|
    let x := s.group f.hdl
    match x.slots.find? (fun k => x.kid k = f.src && (x.arrived.find k).isNone) with
    | some k =>
      if leNat ((f.payload.drop 8).take 4) = x.epoch.toNat then
        (s.modGroup f.hdl (fun x => { x with arrived := x.arrived.put k (BitVec.ofNat 64 (leNat (f.payload.take 8))) })).roundWork f.hdl
      else s
    | none => s

/-- R429: subtype 2: the result from the parent. -/
def State.trgDown (s : State) (f : Flit) : State :=
  s.forGroup f <|
    let x := s.group f.hdl
    if !x.root && x.parent = f.src && x.upDone && leNat ((f.payload.drop 8).take 4) = x.epoch.toNat then
      (s.roundResult f.hdl (BitVec.ofNat 64 (leNat (f.payload.take 8)))).roundWork f.hdl
    else s

/-- R433: subtypes 3, 4 and 7 join the inbox of their group. -/
def State.trgTree (s : State) (f : Flit) : State :=
  s.forGroup f ((s.modGroup f.hdl (fun x => { x with inbox := x.inbox ++ [f] })).collWork f.hdl)

/-- R435: subtype 5. -/
def State.trgAbort (s : State) (f : Flit) : State :=
  s.forGroup f <|
    let seq := leNat (f.payload.take 4)
    let peer := leNat ((f.payload.drop 4).take 2)
    let s := s.modGroup f.hdl (fun x => { x with paths := x.paths.put peer f.src })
    (s.abortRequest f.hdl seq peer).collWork f.hdl

/-- R435, R436: subtype 6. -/
def State.trgDecide (s : State) (f : Flit) : State :=
  s.forGroup f <|
    let seq := leNat (f.payload.take 4)
    let peer := leNat ((f.payload.drop 4).take 2)
    let how := leNat ((f.payload.drop 6).take 1)
    (if how % 2 = 1 then s.abortLate f.hdl seq peer
     else if how / 2 % 2 = 1 then (s.overHere f.hdl seq peer 3 s.freeWord).took
     else s.abortHere f.hdl seq peer).collWork f.hdl

/-- R427: a TRG flit at its turn; other subtypes are discarded and counted. -/
def State.takeTrg (s : State) (f : Flit) : State :=
  match f.aux with
  | 0 => s.trgAdd f
  | 1 => s.trgUp f
  | 2 => s.trgDown f
  | 3 => s.trgTree f
  | 4 => s.trgTree f
  | 5 => s.trgAbort f
  | 6 => s.trgDecide f
  | 7 => s.trgTree f
  | _ => s.modFab (fun b => { b with discards := b.discards + 1 })

/-! ### Failures (R435, R436) -/

/-- R435, R436: the head collective of a group, while it runs over a tree edge between a partition and a peer that it has not
seen fail. -/
def State.onEdge (s : State) (q x g : Nat) : Option Coll :=
  let y := s.group g
  match y.colls with
  | c :: _ =>
    if y.en && s.groupPart g = q && c.started && !c.lost.contains x && ((!y.root && y.parent = x) || (y.slotOf x).isSome) then some c
    else none
  | [] => none

/-- R389, R435: a collective in progress uses the connection. -/
def State.treeEdge (s : State) (q x : Nat) : Bool := s.trg.groups.keys.any (fun g => (s.onEdge q x g).isSome)

/-- R435, R436: the connection of a partition to a peer has failed: what its groups' collectives do. The package below the edge
ends FAILED and tells those below it; the package above asks for an abort before the commit. What an abort reports whose
decision cannot come is not said: a free value (DESIGN CHOICE, log 2). -/
def State.treeFailed (s : State) (q x : Nat) : State :=
  (s.trg.groups.keys).foldl (fun s g =>
    let lose (l : List Coll) : List Coll := l.map (fun c => { c with lost := c.lost ++ [x] })
    let s := if (s.group g).tails.isEmpty || s.groupPart g ≠ q then s else s.modGroup g (fun y => { y with tails := lose y.tails })
    match s.onEdge q x g with
    | none => s
    | some c =>
      let y := s.group g
      if !y.root && y.parent = x then ((s.overHere g c.seq s.pkg.peer.toNat 3 s.freeWord).took).collWork g
      else
        let s := s.setHead g { c with lost := c.lost ++ [x] }
        (if c.committed then s else s.abortRequest g c.seq s.pkg.peer.toNat).collWork g) s

/-- R433: operations of collectives that are acknowledged make room on their edges, and requests to other packages that are
answered let a collective go on. -/
def State.settleColls (s : State) : State :=
  let ended := s.fab.ops.filterMap (fun o => match o.owner with
    | .coll g _ _ _ => if o.finished then some (g, o.id) else none
    | _ => none)
  let s := ended.foldl (fun s p => (s.dropOp p.2).collWork p.1) s
  (s.trg.groups.cells.filter (fun p => p.2.colls.any (fun c => !c.subs.isEmpty))).foldl (fun s p => s.collWork p.1) s

end Sys2Proof.Machine
end

