-- ==== Sys2Proof/Machine/Trigger.lean ====
section
/-! DEFINITION. Trigger entries (R413–R419, R422, R423) and the instructions of major 0x3C (R421–R426). -/

namespace Sys2Proof.Machine

/-! ### A fired entry's operation (R414, R415, R417, R418) -/

/-- R437: the deadline of an entry, in GTIME ns. -/
def State.entryDeadline (s : State) (x : TEntry) : Nat :=
  x.ftime.toNat + (if x.dl = 0 then s.fab.fto else x.dl) * 1000

/-- An entry's operation is over. -/
def State.entryEnds (s : State) (e : Nat) (bad : Option Trap) : State :=
  s.modEntry e (fun x => { x with started := true, ended := some bad })
/-- An entry's operation is on its way. -/
def State.entryRuns (s : State) (e : Nat) : State := s.modEntry e (fun x => { x with started := true })

/-- R418: the raise of RCTR behind an entry's operation. -/
def State.raiseAfter (s : State) (x : TEntry) (peer deadline : Nat) : State :=
  if x.rcen then
    s.addOp { id := 0, kind := .trg, owner := .after x.part, part := x.part, peer := peer, hdl := x.rctr
              flits := [trgFlit 0 x.rctr (leBytes 8 1)], count := 1, len := 8, deadline := deadline }
  else s

/-- R414: a PUT, GET or RADD of an entry, when the peer has a route; none while no get id is free. -/
def State.startRemote (s : State) (e : Nat) (x : TEntry) : Option State :=
  let ra := x.opb
  let peer := raPeer ra
  let dl := s.entryDeadline x
  if !s.hasRoute x.part peer then some (s.entryEnds e (some { code := 0x10, sub := 5, eval := ra }))
  else
    let base : RemoteOp :=
      { id := 0, kind := .put, owner := .entry e, part := x.part, peer := peer, core := x.core, hdl := raHdl ra
        off := raOff ra, len := x.len, nar := x.nar, tcm := x.tcm, x := x.opa, spans := x.spans, deadline := dl }
    if x.kind = 0 then
      some (((s.entryRuns e).addOp { base with count := (x.len + 255) / 256 }).raiseAfter x peer dl)
    else if x.kind = 1 then
      match s.getId x.part peer with
      | none => none
      | some id =>
        some (((s.entryRuns e).addOp { base with
          kind := .get, y := BitVec.ofNat 64 id, count := 1
          flits := [{ typ := 0x02, nar := x.nar, hdl := raHdl ra, off := raOff ra, len := 4
                      payload := leBytes 4 x.len ++ leBytes 1 id }] }).raiseAfter x peer dl)
    else
      some (((s.entryRuns e).addOp { base with
        kind := .radd, len := 8, count := 1
        flits := [{ typ := 0x04, hdl := raHdl ra, off := raOff ra, len := 7, payload := leBytes 8 x.opa.toNat }] }).raiseAfter
          x peer dl)

/-- R424: a counter add to another package. -/
def addOpFor (owner : Owner) (part peer ctr : Nat) (n : Word) (deadline : Nat) : RemoteOp :=
  { id := 0, kind := .trg, owner := owner, part := part, peer := peer, hdl := ctr, flits := [trgFlit 0 ctr (leBytes 8 n.toNat)]
    count := 1, len := 8, deadline := deadline }

/-- R414: a CADD. -/
def State.startCadd (s : State) (e : Nat) (x : TEntry) : State :=
  let peer := raPeer x.opb
  let c := bits x.opb.toNat 11 0
  if peer = s.pkg.peer.toNat then (s.counterAdd c x.opa).entryEnds e none
  else if !s.hasRoute x.part peer then
    s.entryEnds e (some { code := 0x10, sub := 5, eval := BitVec.ofNat 64 (peer * 2 ^ 52 + c * 2 ^ 40) })
  else (s.entryRuns e).addOp (addOpFor (.entry e) x.part peer c x.opa (s.entryDeadline x))

/-- R414, R430: a GRP. -/
def State.startGrp (s : State) (e : Nat) (x : TEntry) : State :=
  let g := bits x.opb.toNat 7 0
  let y := s.group g
  if !y.en || y.localN = 0 then s.entryEnds e (some { code := 0x01, sub := 4, eval := x.opb })
  else if y.locals.length < y.localN && y.waiting.isEmpty then
    ((s.entryEnds e none).recordContribution g x.opa).roundWork g
  else (s.entryRuns e).modGroup g (fun y => { y with waiting := y.waiting ++ [(x.opa, .entry e)] })

/-- R414, R415: a COLL: its descriptor is read and checked as coll does. The accesses are those of the posting
core; where coll would trap with a cause that R415 does not give a COLL, the entry fails as a collective that ended FAILED
(DESIGN CHOICE, log 37). -/
def State.startColl (s : State) (e : Nat) (x : TEntry) : Option State :=
  let tid := tidOf x.core 0
  let r := s.trg.range x.part
  let fail (s : State) (t : Trap) : Option State := some (s.entryEnds e (some t))
  let failed (s : State) : Option State := fail s { code := 0x10, sub := 0xF3, eval := x.opa }
  let pend := (s.reqs.filter (fun r => r.tid = tid && r.engine && r.pc = x.opa && r.order = e && r.op = .load false)).map Request.id
  if s.guarded tid x.opa 32 then none
  else match s.engineLoad tid x.opa 32 pend x.opa e with
    | .waits => none
    | .asked s _ => some (s.setQueue x.part (e :: s.trg.queue x.part))
    | .failed s _ => failed s
    | .done s bs =>
      let p : Block := BitVec.ofNat 128 (leNat (bs.take 16))
      let a := BitVec.ofNat 64 (leNat ((bs.drop 16).take 8))
      let b := BitVec.ofNat 64 (leNat ((bs.drop 24).take 8))
      let g := pbits p 7 0
      let es := (fmtOf (pbits p 115 113)).size
      let bad (f : Nat) : Option State := fail s { code := 0x0C, sub := BitVec.ofNat 8 f, eval := x.opa }
      if pbits p 127 117 ≠ 0 then bad 0xFF
      else if pbits p 109 108 = 3 then bad 4
      else match collBad p (fun g => (s.group g).en) with
      | some f => bad f
      | none =>
        if !r.hasGroup g then bad 0
        else if pbits p 116 116 = 1 && !r.hasCounter (pbits p 107 96) then bad 3
        else if a.toNat % es ≠ 0 || b.toNat % es ≠ 0 then failed s
        else match s.collSpans tid p a b with
          | .error _ => failed s
          | .ok (l, m) =>
            if (s.group g).colls.length ≥ 4 then fail s { code := 0x10, sub := 0xF1, eval := x.opa }
            else
              let c := { s.collOf p x.part x.core l m with entry := some e }
              some (((s.entryRuns e).modEntry e (fun x => { x with res := BitVec.ofNat 64 c.seq })).queueColl g c)

/-- R414, R415: a BCOPY; none while its channel holds 8 copies. -/
def State.startBcopy (s : State) (e : Nat) (x : TEntry) : Option State :=
  let d := bits x.opb.toNat 1 0
  let ch := bits x.opb.toNat 13 8
  if (s.channel d ch).copies.length ≥ 8 then none
  else if !s.startOk d ch x.core x.opa.toNat then
    some (s.entryEnds e (some { code := 0x05, sub := 1, eval := x.opa }))
  else some ((s.entryRuns e).pushCopy d ch (s.copyOf d x.core (4 + e) x.opa.toNat 0))

/-- R414: a LEASE. -/
def State.startLease (s : State) (e : Nat) (x : TEntry) : State :=
  (s.entryRuns e).leaseAsk
    { tid := none, entry := some e, part := x.part, peer := bits x.opb.toNat 11 0, rel := false
      n := bits x.opa.toNat 5 0, min := bits x.opa.toNat 5 0, nt := false }

/-- R414: a fired entry's operation starts; none while it must wait at the head of its queue. -/
def State.startEntry (s : State) (e : Nat) : Option State :=
  let x := s.entry e
  match x.kind with
  | 0 => s.startRemote e x
  | 1 => s.startRemote e x
  | 2 => s.startRemote e x
  | 3 => some (s.startCadd e x)
  | 4 => some (s.startGrp e x)
  | 5 => s.startColl e x
  | 6 => s.startBcopy e x
  | 7 => some (s.startLease e x)
  | _ => some (s.entryEnds e none)

/-- R417: the operations of a partition's trigger queue are started in order. -/
def State.startQueue (s : State) (q : Nat) : Nat → State
  | 0 => s
  | fuel + 1 =>
    match s.trg.queue q with
    | [] => s
    | e :: r =>
      if (s.entry e).state ≠ 2 then (s.setQueue q r).startQueue q fuel
      else match (s.setQueue q r).startEntry e with
        | some s => s.startQueue q fuel
        | none => s

/-- R417: every trigger queue goes on; an entry may start others, once each. -/
def State.startFired (s : State) : State :=
  (List.range 4).foldl (fun s q => s.startQueue q (s.trg.entries.cells.length + 1)) s

/-- R419, R415: a fired entry ends DONE or FAILED. -/
def execTriggerEntryComplete (entry : Nat) (s : State) : Out :=
  let s := s.startFired
  let x := s.entry entry
  match x.state, x.ended with
  | 2, some bad =>
    let x := { x with late := decide (s.gtime.toNat > s.entryDeadline x), ended := none, started := false }
    .next (match bad with
      | none =>
        let s := s.setEntry entry { x with state := 3 }
        (if x.cen then s.counterAdd x.cctr 1 else s).startFired
      | some t =>
        let s := s.setEntry entry { x with state := 4, cause := t.code, sub := t.sub, eval := t.eval }
        if x.cen then s.counterErr x.cctr entry else s)
  | _, _ => .next s

/-! ### trg.post (R422) -/

/-- R422: a descriptor as the entry that it makes. -/
def entryFrom (bs : List Byte) : TEntry :=
  let w (i : Nat) : Word := BitVec.ofNat 64 (leNat ((bs.drop (8 * i)).take 8))
  { w0 := w 0, w1 := w 1, opa := w 2, opb := w 3 }

/-- R413, R414, R422: the fields of a descriptor that must be zero or within limits, for its kind. Bits that no field
of a BCOPY's start word or of a LEASE's operand takes up count as reserved; N and the peer of a LEASE are judged when it
fires (DESIGN CHOICE, log 37). -/
def TEntry.wellFormed (x : TEntry) (own : Nat) : Bool :=
  let k := x.kind
  let a := x.opa.toNat
  let b := x.opb.toNat
  k ≤ 8 && bits x.w1.toNat 36 32 = 0 &&
  (k ≤ 2 || bits x.w1.toNat 50 38 = 0) && (k ≤ 1 || bits x.w1.toNat 37 37 = 0) &&
  (if k ≤ 1 then decide (1 ≤ x.len) && decide (x.len ≤ 0x80000000) else decide (x.len = 0)) &&
  (k > 2 || (raPeer x.opb ≠ own && raHdl x.opb ≠ 0xFFF)) &&
  (k ≠ 3 || bits b 51 12 = 0) && (k ≠ 4 || bits b 63 8 = 0) && (k ≠ 5 || b = 0) &&
  (k ≠ 6 || (bits a 18 18 = 0 && bits a 63 19 = 0 && bits b 63 14 = 0 && bits b 7 2 = 0)) &&
  (k ≠ 7 || (bits a 63 17 = 0 && bits a 15 14 = 0 && bits a 7 6 = 0 && bits b 63 12 = 0)) &&
  (k ≠ 8 || (a = 0 && b = 0))

/-- R421, R422: the object that a descriptor names outside the partition's ranges. -/
def State.outOfRange (s : State) (r : Ranges) (x : TEntry) : Option Word :=
  if !r.hasCounter x.tctr then some (counterAddr x.tctr)
  else if x.cen && !r.hasCounter x.cctr then some (counterAddr x.cctr)
  else if x.kind = 3 && raPeer x.opb = s.pkg.peer.toNat && !r.hasCounter (bits x.opb.toNat 11 0) then
    some (counterAddr (bits x.opb.toNat 11 0))
  else if x.kind = 4 && !r.hasGroup (bits x.opb.toNat 7 0) then some (groupAddr (bits x.opb.toNat 7 0))
  else none

/-- R414: an address of the posting core's own scratchpad as one of 0xF1. -/
def remoteForm (core : Nat) (a : Word) : Word :=
  if space a = 0xF0 then BitVec.ofNat 64 (0xF1 * 2 ^ 56 + core * 2 ^ 32 + bits a.toNat 19 0) else a

/-- R422: the checks on one descriptor at `at_`, and the entry it becomes. -/
def State.checkEntry (s : State) (at_ : Word) (x : TEntry) : Except Stop TEntry :=
  let r := s.trg.range (s.partOf s.cur)
  if !x.wellFormed s.pkg.peer.toNat then .error (.trap { code := 0x01, sub := 4, eval := at_ })
  else if x.kind = 2 && raOff x.opb % 8 ≠ 0 then .error (.trap { code := 0x03, eval := at_ })
  else match s.outOfRange r x with
  | some a => .error (.trap { code := 0x05, sub := 3, eval := a })
  | none =>
    if x.kind ≤ 1 then
      match s.rangeSpans s.cur (if x.kind = 0 then .load else .store) x.opa x.len with
      | .error t => .error (.trap t)
      | .ok l => .ok { x with spans := l, opa := remoteForm s.myCore x.opa }
    else .ok { x with opa := if x.kind = 5 then remoteForm s.myCore x.opa else x.opa }

/-- R422: a descriptor's bytes; `ids` are the requests of descriptors on other packages, which stay until all is read. -/
def State.readDesc (s : State) (ids : List Nat) (a : Word) : Eng (List Byte) :=
  if s.guarded s.cur a 32 then .waits
  else match s.runPieces s.cur .load a 32 with
  | .error t => .failed s t
  | .ok (.far start len va :: _) =>
    (match s.askOf ids va with
     | none =>
       if s.walkerFull s.cur 1 then .waits
       else
         let r := s.askFar s.cur s.me.pc s.order (fun _ _ => .load false) [.far start len va]
         .asked r.1 r.2
     | some q => match q.resp with
       | some (.data bs) => .done s bs
       | some (.err t) => .failed s t
       | _ => .waits)
  | .ok ps => match s.gather s.cur a ps [] with
    | .ok s bs => .done s bs
    | .err s t => .failed s t
    | .wait => .waits

/-- R422: the descriptors are read and checked in order, each before the next is read. -/
def State.readEntries (s : State) (ids : List Nat) (a : Word) : Nat → Eng (List TEntry)
  | 0 => .done s []
  | n + 1 =>
    match s.readDesc ids a with
    | .failed s t => .failed s t
    | .waits => .waits
    | .asked s l => .asked s l
    | .done s bs =>
      match s.checkEntry a (entryFrom bs) with
      | .error (.trap t) => .failed s t
      | .error _ => .waits
      | .ok x =>
        match s.readEntries ids (a + 32) n with
        | .done s r => .done s (x :: r)
        | o => o

/-- R422: the arbiter's one operation: every entry is armed, then those whose threshold is met fire. EVAL, FTIME and RES
keep what they held. -/
def State.postAll (s : State) (e : Nat) (l : List TEntry) : State :=
  let t := s.me
  let es := l.zipIdx e
  let s := es.foldl (fun s p =>
    let x := p.1
    let old := s.entry p.2
    let s := s.setEntry p.2 { x with
      state := 1, part := s.partOf s.cur, die := s.myDie, tcm := t.tcm, core := s.myCore
      eval := old.eval, ftime := old.ftime, res := old.res }
    s.setCounter x.tctr { s.counter x.tctr with armed := (s.counter x.tctr).armed + 1 }) s
  es.foldl (fun s p =>
    if (s.entry p.2).state = 1 && p.1.thr ≤ (s.counter p.1.tctr).value.toNat then s.fireEntry p.2 else s) s

/-- R422: the entries are armed, or d tells that one of them cannot be. -/
def State.postOr (s : State) (d : Reg) (e n : Nat) (l : List TEntry) : State :=
  if (List.range n).all (fun k => (s.entry (e + k)).postable) then ((s.wr d 0).postAll e l).startFired
  else s.wr d 1

/-- R421: the first entry of a run outside the thread's ranges. -/
def State.foreignEntry (s : State) (e n : Nat) : Option Nat :=
  let r := s.trg.range (s.partOf s.cur)
  (List.range n).findSome? (fun k => if r.hasEntry (e + k) then none else some (e + k))

/-- R422: the checks before anything is read. -/
def State.postCheck (s : State) (a b : Word) : Except Stop Unit :=
  let e := bits b.toNat 13 0
  let n := bits b.toNat 29 16 + 1
  if bits b.toNat 63 30 ≠ 0 || bits b.toNat 15 14 ≠ 0 || e + n - 1 > 0x3FFF then .error s.badOperand
  else if a.toNat % 32 ≠ 0 then .error (.trap { code := 0x03, eval := a })
  else if space a > 1 && space a ≠ 0xF0 then .error (.trap { code := 0x04, sub := 0, eval := a })
  else match s.foreignEntry e n with
    | some x => .error (.trap { code := 0x05, sub := 3, eval := entryAddr x })
    | none => s.released

/-- R422. While descriptors on pages of other packages are on their way the instruction waits at issue. -/
def execTrgPost (d a b : Reg) (s : State) : Out :=
  let va := s.rd a
  let e := bits (s.rd b).toNat 13 0
  let n := bits (s.rd b).toNat 29 16 + 1
  match s.postCheck va (s.rd b) with
  | .error t => s.finish 4 (.error t)
  | .ok _ =>
    let ids := (s.reqs.filter (fun r => r.tid = s.cur && r.engine && r.pc = s.me.pc && r.op = .load false)).map Request.id
    match s.readEntries ids va n with
    | .failed s t => (s.dropReqs ids).finish 4 (.error (.trap t))
    | .waits => s.finish 4 (.error .wait)
    | .asked s _ => s.finish 4 (.error .wait)
    | .done s l => (s.dropReqs ids).finish 4 (.ok ((s.dropReqs ids).postOr d e n l))

/-! ### trg.cancel, ctr.add, ctr.wait, ctr.rd (R423–R425) -/

/-- R423: the ARMED entries of a run are cancelled; how many there were. -/
def State.cancelRun (s : State) (e n : Nat) : State × Nat :=
  (s.trg.entries.keys.filter (fun k => decide (e ≤ k) && decide (k < e + n))).foldl (fun (p : State × Nat) k =>
    let x := p.1.entry k
    if x.state = 1 then
      let c := p.1.counter x.tctr
      ((p.1.setEntry k { x with state := 5 }).setCounter x.tctr { c with armed := c.armed - 1 }, p.2 + 1)
    else p) (s, 0)

/-- R423. -/
def execTrgCancel (d a b : Reg) (s : State) : Out :=
  s.finish 4 (
    let e := (s.rd a).toNat
    let n := (s.rd b).toNat
    if e > 0x3FFF || n = 0 || n > 16384 || e + n - 1 > 0x3FFF then .error s.badOperand
    else match s.foreignEntry e n with
      | some x => .error (.trap { code := 0x05, sub := 3, eval := entryAddr x })
      | none =>
        let (s, k) := s.cancelRun e n
        .ok (s.wr d (BitVec.ofNat 64 k)))

/-- R421: the counter that an instruction of the thread in hand names. -/
def State.myCounter (s : State) (c : Nat) : Except Stop Unit :=
  if (s.trg.range (s.partOf s.cur)).hasCounter c then .ok ()
  else .error (.trap { code := 0x05, sub := 3, eval := counterAddr c })

/-- R424: a counter add to another package, complete as a store. -/
def State.remoteAdd (s : State) (peer c : Nat) (n : Word) : State :=
  let id := s.nextId
  let s := { s.modMe (fun t => { t with unacked := t.unacked ++ [(id, t.mode)] }) with nextId := id + 1 }
  s.addOp { addOpFor (.store s.cur id) (s.partOf s.cur) peer c n s.ftoFromNow with pc := s.me.pc, order := s.order }

/-- R424. -/
def execCtrAdd (d a b : Reg) (s : State) : Out :=
  s.finish 4 (do
    let v := (s.rd a).toNat
    let c := bits v 11 0
    let peer := bits v 63 52
    if bits v 51 14 ≠ 0 then .error s.badOperand
    else if bits v 13 13 = 0 then
      if peer ≠ 0 then .error s.badOperand
      else
        s.myCounter c
        s.released
        let s' := s.wr d (s.counter c).value
        .ok ((if bits v 12 12 = 1 then s'.counterPut c (s.rd b) else s'.counterAdd c (s.rd b)).startFired)
    else if bits v 12 12 = 1 || peer = s.pkg.peer.toNat then .error s.badOperand
    else
      s.released
      if !s.hasRoute (s.partOf s.cur) peer then
        .error (.trap { code := 0x10, sub := 5, eval := BitVec.ofNat 64 (peer * 2 ^ 52 + c * 2 ^ 40) })
      else .ok ((s.wr d 0).remoteAdd peer c (s.rd b)))

/-- R425. -/
def execCtrWait (d a b : Reg) (s : State) : Out :=
  s.finish 4 (do
    let c := (s.rd a).toNat
    if c > 0xFFF then .error s.badOperand
    else
      s.myCounter c
      let x := s.counter c
      if x.waitOver (s.rd b) then .ok ((s.wr d x.value).acquire s.cur)
      else .error (.park (.ctrWait c (s.rd b) (s.me.code d))))

/-- R408: CST. -/
def Counter.cst (x : Counter) : Word :=
  BitVec.ofNat 64 ((if x.err then 2 ^ 63 else 0) + (if x.sat then 2 ^ 62 else 0) + (if x.cfail then 2 ^ 61 else 0) +
    x.fent * 2 ^ 32 + x.armed)

/-- R425. -/
def execCtrRd (d a : Reg) (s : State) : Out :=
  s.finish 4 (do
    let v := (s.rd a).toNat
    if v > 0x1FFF then .error s.badOperand
    else
      s.myCounter (v % 4096)
      let x := s.counter (v % 4096)
      .ok ((s.wr d (if v < 4096 then x.value else x.cst)).acquire s.cur))

/-! ### Stores to counters (R408, R410, R411) -/

/-- R411: a store to ADD. -/
def execCounterAddStore (who : Who) (ctr : Nat) (value : Word) (s : State) : Out :=
  .next (s.store who (counterAddr ctr + 0x10) { s := (s.counterAdd ctr value).startFired })

/-- R410, R411: a write to VALUE, which no thread may make. -/
def State.writeCounter (s : State) (who : Who) (c : Nat) (v : Word) : Wrote :=
  if isHost who then { s := (s.counterPut c v).startFired } else refuse51 s

/-- R411. -/
def execCounterSet (who : Who) (ctr : Nat) (value : Word) (s : State) : Out :=
  .next (s.store who (counterAddr ctr) (s.writeCounter who ctr value))

end Sys2Proof.Machine
end

