-- ==== Sys2Proof/Machine/Preempt.lean ====
section
/-! DEFINITION. Pre-emption (R31, R129, R144–R146, R225, R226, R290): saving and restoring contexts, and the
scratch context register. -/

namespace Sys2Proof.Machine

/-! ### The save area (R145) -/

/-- The words of a slot's context, by offset from 0x400·slot (R145, R163, R176, R186, R210). -/
def Thread.contextWords (t : Thread) (pc : Word) (x : Core) (slot : Nat) : List (Nat × Word) :=
  [(0x00, pc), (0x08, t.status), (0x10, t.cause), (0x18, t.epc), (0x20, t.eval), (0x28, t.hvec), (0x30, t.fpc),
   (0x38, t.wsp), (0x40, t.wdepth)] ++
  (List.range 11).map (fun i => (savedReg 0 (97 + i), t.readCode (97 + i))) ++
  [(0xA0, t.seed), (0xA8, t.srctr)] ++
  (List.range 8).map (fun i => (0xB0 + 8 * i,
    let c := if h : i < 8 then t.cursors[i] else {}
    BitVec.ofNat 64 (c.addr.toNat + c.stride.toNat * 2 ^ 32))) ++
  [(0xF0, vstatWord t x slot), (0xF8, mstatWord t x slot)] ++
  (List.range 96).map (fun i => (0x100 + 8 * i, t.readCode i))

/-- Words written at offsets of an area. -/
def State.putWords (s : State) (at_ : Nat) (l : List (Nat × Word)) : State :=
  l.foldl (fun s p => s.putNat (at_ + p.1) 8 p.2.toNat) s
/-- A word of an area. -/
def State.savedWord (s : State) (a : Nat) : Word := BitVec.ofNat 64 (s.homeNat a 8)

/-- R226: an entry of the matrix record. The rule says nothing of the region word of mzero, msave and mrest, which have no
block: it stands in the place of the block (DESIGN CHOICE, log 56). -/
def MEntry.bytes (e : MEntry) : List Byte :=
  leBytes 16 e.block.toNat ++ leBytes 8 e.a.toNat ++ leBytes 4 e.word.toNat ++
  leBytes 4 (e.next + (if e.started || e.begun then 2 ^ 31 else 0)) ++
  leBytes 8 (e.rm.toNat + (if e.tcm then 8 else 0) + e.gang * 16 + e.gangIx * 256) ++
  leBytes 8 e.srctr.toNat ++ List.replicate 16 0

/-- R226: the operation that an instruction word queues. -/
def matrixOp (w : BitVec 32) : Option Nat :=
  match fMajor w, (fFunc w).toNat with
  | 0x30, _ => some 0
  | 0x31, _ => some 1
  | 0x32, 0 => some 2
  | 0x32, 1 => some 3
  | 0x32, 2 => some 4
  | 0x32, 3 => some 5
  | _, _ => none

/-- R226: a recorded entry read back for a slot, none for an unused one; `f` is its flight. -/
def entryOf (bs : List Byte) (slot : Nat) (f : Flight) (seed taskix : Word) : Option MEntry :=
  let n (a k : Nat) : Nat := leNat ((bs.drop a).take k)
  (matrixOp (BitVec.ofNat 32 (n 0x18 4))).map (fun op =>
    { slot := slot, flight := f.id, op := op, block := BitVec.ofNat 128 (n 0 16), a := BitVec.ofNat 64 (n 0x10 8)
      rm := BitVec.ofNat 3 (n 0x20 8), tcm := (n 0x20 8).testBit 3, seed := seed, taskix := taskix
      srctr := BitVec.ofNat 64 (n 0x28 8), pc := f.pc, order := f.order, gang := bits (n 0x20 8) 7 4
      gangIx := bits (n 0x20 8) 10 8, word := BitVec.ofNat 32 (n 0x18 4)
      begun := (n 0x1C 4).testBit 31, next := n 0x1C 4 % 2 ^ 31 })

/-! ### Saving (R144, R225, R290) -/

/-- R144: the threads that a save of a core's slots covers: every member of a named gang. -/
def State.saveGroup (s : State) (core : Nat) (slots : BitVec 4) : List Nat :=
  ((List.range 4).filter (fun k => slots.getLsbD k)).flatMap (fun k => s.gangOf (tidOf core k))

/-- R28: a slot whose context a save writes. -/
def Thread.savable (t : Thread) : Bool := t.life = .ready || t.life = .parked

/-- R214, R220: the groups of an entry. -/
def MEntry.groups (e : MEntry) : Nat := if e.op = 0 then (mmaOf e.block).groups else (mepiOf e.block).groups

/-- R225: an entry that a pre-emption does not wait for: one not started, an mma that has a depth group after the one in
progress, an mepi that stores. -/
def MEntry.parks (e : MEntry) : Bool :=
  !e.started || (e.op = 0 && decide (e.next + 2 ≤ e.groups)) || (e.op = 1 && !(mepiOf e.block).add)

/-- R225: where a started entry is parked. The rule does not say how far it had come: the number of groups that it has
finished, and of the elements of the abandoned row group that it has stored, are free values (DESIGN CHOICE, log 28). -/
def MEntry.stopAt (e : MEntry) (v : Nat) : Nat × Nat :=
  if e.op = 0 then (e.next + 1 + v % (e.groups - e.next - 1), 0)
  else
    let g := e.next + v % (e.groups - e.next)
    (g, v / 65536 % (rowGroupOf (mepiOf e.block) e.gangIx g).length)

/-- R209, R225: the groups of a started entry up to `upto`, and `more` elements of the row group after them, are performed and
it is parked there; none when an access of them waits. -/
def State.parkEntry (s : State) (lead : Block) (core : Nat) (e : MEntry) (upto more : Nat) : Option State :=
  let held (r : State × MEntry) : State :=
    r.1.modHead core (fun _ => { r.2 with started := false, begun := true, next := upto })
  if e.op = 0 then
    if s.mguarded lead core e upto then none else some (held (s.runMma lead core e upto))
  else if e.next = upto && more = 0 then some (held (s, e))
  else if s.mguarded lead core e upto then none
  else (s.runMepi core e upto more).map held

/-- R215, R225: the entries of one gang, or the one of a thread alone, park at one point: where `v` puts it or, when an access
on the way there waits, at the end of the depth group in progress, or at the start of the row group in progress. An mma whose depth
group in progress waits goes on. -/
def State.parkGang (s : State) (v : Nat) (hs : List (Nat × Block × MEntry)) : State :=
  let at_ (f : MEntry → Nat × Nat) : Option State :=
    hs.foldl (fun st h => st.bind fun s => s.parkEntry h.2.1 h.1 h.2.2 (f h.2.2).1 (f h.2.2).2) (some s)
  ((at_ (·.stopAt v)).orElse (fun _ => at_ (fun e => (if e.op = 0 then e.next + 1 else e.next, 0)))).getD s

/-- R225: the entries of the covered slots that are in progress park. -/
def State.parkStarted (s : State) (group : List Nat) : State :=
  let heads := group.filterMap (fun t => match s.mhead (coreOf t) with
    | some e => if e.slot = slotOf t && e.started && e.parks then some (coreOf t, s.leadBlock (coreOf t) e, e) else none
    | none => none)
  if heads.isEmpty then s
  else
    let gangs := (heads.map (fun h => (h.1 - h.2.2.gangIx, h.2.2.slot))).eraseDups
    gangs.foldl (fun s g =>
      (s.parkGang s.freeWord.toNat (heads.filter (fun h => h.1 - h.2.2.gangIx = g.1 && h.2.2.slot = g.2))).took) s

/-- R225: the entries of a slot that wait in the queue, or are parked, leave it for the record. -/
def State.recordEntries (s : State) (tid : Nat) : State :=
  s.modCore (coreOf tid) (fun x => { x with
    mq := x.mq.filter (fun e => !(e.slot = slotOf tid && !e.started))
    recorded := x.recorded ++ x.mq.filter (fun e => e.slot = slotOf tid && !e.started) })

/-- R225: what a pre-emption does to the matrix work of the threads that it covers. -/
def State.parkMatrix (s : State) (group : List Nat) : State := group.foldl State.recordEntries (s.parkStarted group)

/-- R144: the thread has reached its boundary with nothing outstanding. -/
def State.saveReady (s : State) (tid : Nat) : Bool :=
  let t := s.thread tid
  let x := s.core (coreOf tid)
  let mine := x.recorded.filter (fun e => e.slot = slotOf tid)
  t.life ≠ .reserved &&
  (!t.savable ||
    (t.flights.all (fun f => f.kind = .matrix && mine.any (fun e => e.flight = f.id)) && t.unacked.isEmpty &&
     t.due.isEmpty && t.abort.isNone && t.weft.isEmpty &&
     !(x.mq.any (fun e => e.slot = slotOf tid))))

/-- R290: the pumps of a slot, paused. -/
def State.pausePumps (s : State) (tid : Nat) : State :=
  (List.range 8).foldl (fun s q =>
    let p := s.pump (coreOf tid) q
    if p.en && p.slot = slotOf tid then s.setPump (coreOf tid) q { p with paused := true } else s) s
/-- R290: no pump of the slot is in the middle of a tile. -/
def State.pumpsQuiet (s : State) (tid : Nat) : Bool :=
  (List.range 8).all (fun q =>
    let p := s.pump (coreOf tid) q
    !(p.en && p.slot = slotOf tid) || p.reqs.isEmpty)

/-- R285: QCTL as a word. -/
def Pump.ctl (p : Pump) : Word :=
  BitVec.ofNat 64 (p.nt + p.slot * 2 ^ 32 + (if p.fail then 2 ^ 61 else 0) + (if p.role then 2 ^ 62 else 0) +
    (if p.en then 2 ^ 63 else 0))

/-- R290: the words of a saved queue. -/
def Pump.words (p : Pump) : List Word :=
  [p.qring, p.qaddr, p.qshape, p.ctl, BitVec.ofNat 64 (p.p % 2 ^ 24 + p.c % 2 ^ 24 * 2 ^ 24 + (if p.held then 2 ^ 48 else 0))]

/-- Numbered from 0. -/
def numbered {α : Type} : Nat → List α → List (Nat × α)
  | _, [] => []
  | i, a :: r => (i, a) :: numbered (i + 1) r

/-- R145, R226, R233, R290: one slot's context is written to the area of its own core's PREEMPT.SAVE (DESIGN CHOICE, log 28) and
the slot is suspended. What the area has no word for is kept with the context: the wait of a parked thread, its matrix
instructions in flight, and faults that wait for rte. -/
def State.saveSlot (s : State) (tid : Nat) : State :=
  let core := coreOf tid
  let k := slotOf tid
  let t := s.thread tid
  if !t.savable then s
  else
    let x := s.core core
    let area := x.preSave.toNat
    let pc := s.boundaryPc tid
    let mine := x.recorded.filter (fun e => e.slot = k)
    let owned := (List.range 8).filter (fun q => (s.pump core q).en && (s.pump core q).slot = k)
    let s := s.putWords (area + 0x400 * k) (t.contextWords pc x k)
    let s := s.putWords (area + 0x1500 + 0x20 * k)
      [(0x00, t.taskix), (0x08, t.joina), (0x10, t.launchWord), (0x18, 0)]
    let s := (List.range 4).foldl (fun s i =>
      s.homeWriteAll (area + 0x1100 + 0x100 * k + 0x40 * i)
        (match mine[i]? with
         | some e => e.bytes
         | none => List.replicate 0x40 0)) s
    let s := owned.foldl (fun s q =>
      s.putWords (area + 0x1600 + 0x40 * q) ((numbered 0 (s.pump core q).words).map (fun w => (8 * w.1, w.2)))) s
    let s := if t.gang then
        s.putNat (area + 0x1028) 8 (t.gangSz + (core - t.gangIx) % 8 * 16 + k * 256)
      else s
    -- an uncorrectable register is uncorrectable in its area (DESIGN CHOICE, log 28)
    let s := s.markBad (t.badRegs.map (fun c => area + savedReg k c))
    let u := { t with life := .suspended, pc := pc, savedAt := some area, yielding := false, yieldSet := [] }
    let c : SavedContext :=
      { area := area, tid := tid, thread := u, pumps := owned.map (fun q => (q, s.pump core q)), entries := mine }
    let s := s.modCore core (fun x => { x with recorded := x.recorded.filter (fun e => e.slot ≠ k) })
    { (s.dropWaits tid).setThread tid u with
      contexts := c :: s.contexts.filter (fun c => !(c.area = area && slotOf c.tid = k)) }

/-- R145: the oldest messages of a channel that a spill queue of 256 entries cannot hold, and the others. -/
def splitSpill (l : List Message) : List Message × List Message := (l.take (l.length - 256), l.drop (l.length - 256))

/-- R144, R145, R197, R226: the core's own state, at a core pre-emption. Messages that are still spilled from an earlier
save move on behind those of the channel. -/
def State.saveCore (s : State) (core : Nat) : State :=
  let x := s.core core
  let area := x.preSave.toNat
  let win (i : Nat) : Word := if h : i < 4 then x.win[i] else 0
  let st := x.raccCount.toNat + (if x.raccNv then 2 ^ 32 else 0) + (if x.raccOf then 2 ^ 33 else 0)
  let msgs := (List.range 8).map (fun c =>
    splitSpill (x.channel c ++ (List.range (x.spilled c)).map (fun i => s.spilledMessage core c (x.spillHeadAt c + i))))
  let s := s.putWords area
    [(0x1000, x.tagReady), (0x1008, win 0), (0x1010, win 1), (0x1018, win 2), (0x1020, win 3),
     (0x1070, x.raccDesc), (0x1078, BitVec.ofNat 64 st), (0x1080, x.derr.word)]
  let s := { s.modCore core (fun x => { x with
    spillArea := area, spilling := true, spillN := Vector.replicate 8 0, spillHead := Vector.replicate 8 0
    chan := Vector.replicate 8 [] }) with
    spillExcess := (area, msgs.map Prod.fst) :: s.spillExcess.filter (fun e => e.1 ≠ area) }
  (numbered 0 msgs).foldl (fun s c =>
    ((c.2.2.foldl (fun s m => s.spillMessage core c.1 m) s).spillWord core c.1).serveSenders core c.1) s

/-- R144: no gang is recorded until one is saved. -/
def State.clearGangRecord (s : State) (core : Nat) : State :=
  s.putNat ((s.core core).preSave.toNat + 0x1028) 8 0

/-- R129: PREEMPT's write with SLOTS ≠ 0 begins an operation. -/
def State.beginPreempt (s : State) (core : Nat) (v : Word) : State :=
  s.modCore core (fun x => { x with
    preSave := v &&& ~~~0xFFF, preRestore := v.getLsbD 10, preSlots := v.extractLsb' 0 4, preBusy := true })

/-- R144: the drain is over, the contexts are written and the slots suspended. -/
def execPreemptSaveComplete (core : Nat) (s : State) : Out :=
  let x := s.core core
  if !x.preBusy || x.preRestore then .next s
  else
    let group := s.saveGroup core x.preSlots
    let s := s.parkMatrix group
    let whole := x.preSlots = 0xF
    if !(group.all s.saveReady) || !(group.all s.pumpsQuiet) ||
        (whole && (List.range 64).any (fun t => (s.core core).tagOut t ≠ 0)) then .next s
    else
      -- the members save at one point of the leader's stream: PCs are read before any slot is suspended
      let s := group.foldl (fun s' t => s'.modThread t (fun u => { u with pc := s.boundaryPc t })) s
      let s := group.foldl State.saveSlot s
      let s := if whole then s.saveCore core else s
      .next (s.modCore core (fun x => { x with preBusy := false }))

/-! ### Restoring (R145, R226, R290) -/

/-- R18: STATUS read back whole. -/
def Thread.withStatus (t : Thread) (v : Word) : Thread :=
  { t with mode := v.getLsbD 0, tcm := v.getLsbD 2, rm := v.extractLsb' 3 3, pmode := v.getLsbD 8
           gang := v.getLsbD 9, skc := v.extractLsb' 10 3, pskc := v.extractLsb' 13 3 }
/-- R186, R210: the W1C conditions read back. -/
def condOf (v : Word) : Cond :=
  { nv := v.getLsbD 1, of := v.getLsbD 2, uz := v.getLsbD 3, dz := v.getLsbD 4, ue := v.getLsbD 5 }

/-- R145: the thread that an area holds for a slot; `hid` is what its context keeps beside. -/
def State.threadFrom (s : State) (area k core : Nat) (hid : Thread) : Thread :=
  let w (o : Nat) : Word := s.savedWord (area + 0x400 * k + o)
  let j (o : Nat) : Word := s.savedWord (area + 0x1500 + 0x20 * k + o)
  let g := s.homeNat (area + 0x1028) 8
  let t : Thread := { hid with
    pc := w 0x00, causeCode := (w 0x10).extractLsb' 0 8, causeSub := (w 0x10).extractLsb' 8 8
    causeDef := (w 0x10).getLsbD 16, causeMult := (w 0x10).getLsbD 17, epc := w 0x18, eval := w 0x20
    hvec := w 0x28, fpc := w 0x30, wsp := w 0x38, depth := bits (w 0x40).toNat 3 0
    wb := bits (w 0x40).toNat 7 4, spilled := bits (w 0x40).toNat 31 8, seed := w 0xA0, srctr := w 0xA8
    taskix := j 0, joina := j 8, recIx := bits (j 0x10).toNat 15 0, inl := (j 0x10).getLsbD 16
    vcond := condOf (w 0xF0), mcond := condOf (w 0xF8)
    cursors := Vector.ofFn (fun (i : Fin 8) =>
      { addr := (w (0xB0 + 8 * i.val)).extractLsb' 0 32, stride := (w (0xB0 + 8 * i.val)).extractLsb' 32 16 }) }
  let t := t.withStatus (w 0x08)
  let codes := List.range 96 ++ (List.range 11).map (· + 97)
  let t := codes.foldl (fun (t : Thread) c => t.writeCode c (w (savedReg 0 c))) t
  let member := t.gang && bits g 9 8 = k && bits g 3 0 ≠ 0
  { t with
    gang := member, gangSz := if member then bits g 3 0 else 1
    gangIx := if member then core % 8 - bits g 6 4 else 0, savedAt := none, weft := []
    badRegs := codes.filter (fun c => (s.badAt (area + savedReg k c) 8).isSome)
    parkedAt := s.order, life := if t.wait.isSome then .parked else .ready }

/-- R226: the recorded entries of a slot re-enter its core's queue, each with the flight `kept` of its context and with what
`old` keeps of it beside the words of the record; without a flight its L is that of its instruction word (DESIGN CHOICE,
log 28). -/
def State.requeue (s : State) (tid area : Nat) (kept : List Flight) (old : List MEntry := []) : State :=
  let k := slotOf tid
  (List.range 4).foldl (fun s i =>
    let bs := (s.homeReadAll (area + 0x1100 + 0x100 * k + 0x40 * i) 0x40).2
    let t := s.thread tid
    let look := (fL (BitVec.ofNat 32 (leNat ((bs.drop 0x18).take 4)))).toNat
    let f : Flight := kept[i]?.getD { id := s.nextId, kind := .matrix, left := if look = 15 then none else some look
                                      handler := t.mode, pc := t.pc, order := s.order, later := true }
    match entryOf bs k f t.seed t.taskix with
    | none => s
    | some e =>
      let e := match old[i]? with
        | some o => { e with join := o.join, subs := o.subs, cond := o.cond }
        | none => e
      { (s.modCore (coreOf tid) (fun x => { x with mq := x.mq ++ [e] })).modThread tid
          (fun t => { t with flights := t.flights ++ [f] }) with nextId := s.nextId + 1 }) s

/-- R290: the queues of a slot are written back and their pumps resume, each with what `kept` holds of it beside the words
of the area. -/
def State.restorePumps (s : State) (tid area : Nat) (kept : List (Nat × Pump)) : State :=
  (List.range 8).foldl (fun s q =>
    let w (i : Nat) : Word := s.savedWord (area + 0x1600 + 0x40 * q + 8 * i)
    let p := s.pump (coreOf tid) q
    let index (old new : Nat) : Nat := if old % 2 ^ 24 = new then old else new
    if (w 3).getLsbD 63 && bits (w 3).toNat 33 32 = slotOf tid && (!p.en || p.paused || p.slot = slotOf tid) then
      let p := (lookKey q kept).getD p
      s.setPump (coreOf tid) q { p with
        qring := w 0, qaddr := w 1, qshape := w 2, en := true, role := (w 3).getLsbD 62, fail := (w 3).getLsbD 61
        slot := slotOf tid, nt := bits (w 3).toNat 31 0, p := index p.p (bits (w 4).toNat 23 0)
        c := index p.c (bits (w 4).toNat 47 24), held := (w 4).getLsbD 48, taskix := (s.thread tid).taskix
        paused := false, reqs := [], ending := [] }
    else s) s

/-- The context that an area holds for slot number `k`. -/
def State.savedFrom (s : State) (area k : Nat) : Option SavedContext :=
  s.contexts.find? (fun c => c.area = area && slotOf c.tid = k)

/-- R28: the slot that a context was saved from is free once the context is restored elsewhere, and its paused queues end; the
rule has no event that takes a suspended slot to free (DESIGN CHOICE, log 55). -/
def State.vacate (s : State) (c : SavedContext) : State :=
  if (s.thread c.tid).life = .suspended && (s.thread c.tid).savedAt = some c.area then
    (List.range 8).foldl (fun s q =>
      let p := s.pump (coreOf c.tid) q
      if p.en && p.paused && p.slot = slotOf c.tid then s.setPump (coreOf c.tid) q { p with en := false } else s)
      (s.setThread c.tid {})
  else s

/-- R145: one slot is restored from an area; the slot that it was saved from holds it no longer. -/
def State.restoreSlot (s : State) (tid area : Nat) : State :=
  let k := slotOf tid
  let src := s.savedFrom area k
  let hid := match src with | some c => c.thread | none => {}
  let pumps := match src with | some c => c.pumps | none => []
  let s := match src with
    | some c => { s.vacate c with
        contexts := s.contexts.filter (fun x => !(x.area = area && slotOf x.tid = k))
        fab := { s.fab with jobs := if hid.wait.any Wait.inFlight then s.fab.jobs.map (fun (j : LeaseJob) =>
          if j.tid = some c.tid then { j with tid := some tid } else j) else s.fab.jobs } }
    | none => s
  let x := s.threadFrom area k (coreOf tid) { hid with acqEpoch := (s.thread tid).acqEpoch, flights := [] }
  let s := { s.setThread tid x with order := s.order + 1 }
  ((s.requeue tid area hid.flights ((src.map SavedContext.entries).getD [])).restorePumps tid area pumps).acquire tid

/-- R28, R246: a thread restored as it was parked looks again at what it waits for. -/
def State.resume (s : State) (tid : Nat) : State :=
  let core := coreOf tid
  match (s.thread tid).waits with
  | none => s
  | some w =>
    match w.object with
    | some (c, o) =>
      if (s.cluster c).poisoned.contains o then s.trapParked tid { code := 0x0D, eval := clusterReg c o }
      else (match w with
        | .jwait c i _ _ _ => if (s.join c i).count = 0 then s.wakeJoin c i else s
        | .barWait c i _ => s.wakeBar c i
        | .barT1 c i _ => s.wakeBar c i
        | .ldf c i d => if (s.cell c i).full then s.wake tid d (s.cell c i).value else s
        | _ => s)
    | none => (match w with
      | .tagAny _ _ => s.wakeTags core
      | .tagAll _ _ => s.wakeTags core
      | .chsnd c ch _ _ => s.serveSenders c ch
      | .chrcv ch _ => s.serveReceivers core ch
      | .qpop q _ _ _ => s.serveQueue core q
      | .qpush q _ _ _ => s.serveQueue core q
      | .grpSt g _ _ => s.roundWork g
      | .grpLd g r d => if (s.group g).roundOver r then s.wake tid d (s.group g).gres else s
      | .ctrWait c _ _ => s.wakeCounter c
      | _ => s)

/-- R146: the core that delivered into an area's spill queues does so no longer. -/
def State.unspill (s : State) (area : Nat) : State :=
  (s.cores.cells.filter (fun c => c.2.spilling && c.2.spillArea = area)).foldl (fun s c =>
    s.modCore c.1 (fun x => { x with
      spilling := false, spillN := Vector.replicate 8 0, spillHead := Vector.replicate 8 0 })) s

/-- R145, R146, R197, R226: the core's own state; the channels refill, and senders and receivers that wait go on. -/
def State.restoreCore (s : State) (core : Nat) : State :=
  let area := (s.core core).preSave.toNat
  let w (o : Nat) : Word := s.savedWord (area + o)
  let d := (w 0x1080).toNat
  let more := (lookKey area s.spillExcess).getD []
  let s := { s.unspill area with spillExcess := s.spillExcess.filter (fun e => e.1 ≠ area) }
  let s := s.modCore core (fun x => { x with
    tagReady := w 0x1000, win := #v[w 0x1008 &&& winMask, w 0x1010 &&& winMask, w 0x1018 &&& winMask, w 0x1020 &&& winMask]
    raccDesc := w 0x1070
    raccCount := (w 0x1078).extractLsb' 0 32, raccNv := (w 0x1078).getLsbD 32, raccOf := (w 0x1078).getLsbD 33
    derr := { v := d.testBit 63, mult := d.testBit 62, src := bits d 61 59, slot := bits d 58 57, row := bits d 56 50
              col := bits d 49 40, kix := bits d 39 27 }
    chan := Vector.ofFn (fun (c : Fin 8) => more.getD c.val [])
    spillArea := area, spilling := false
    spillN := Vector.ofFn (fun (c : Fin 8) => bits (w (0x1030 + 8 * c.val)).toNat 8 0)
    spillHead := Vector.ofFn (fun (c : Fin 8) => bits (w (0x1030 + 8 * c.val)).toNat 16 9) })
  (List.range 8).foldl (fun s c => ((s.refillChannel core c 16).serveReceivers core c).serveSenders core c) s

/-- R145: the threads that a restore covers: the named slots whose contexts the area holds, and the members of
its gang on their own cores, each from the area that its core's PREEMPT.SAVE holds now (DESIGN CHOICE, log 28). -/
def State.restoreGroup (s : State) (core : Nat) (slots : BitVec 4) : List (Nat × Nat) :=
  let area := (s.core core).preSave.toNat
  let known := (List.range 4).any (fun k => (s.savedFrom area k).isSome)
  let named := (List.range 4).filter (fun k => slots.getLsbD k && (!known || (s.savedFrom area k).isSome))
  let g := s.homeNat (area + 0x1028) 8
  let sz := bits g 3 0
  let base := core - core % 8 + bits g 6 4
  let others := if sz ≠ 0 && named.contains (bits g 9 8) then
      ((List.range sz).map (fun j => base + j)).filter (· ≠ core)
    else []
  named.map (fun k => (tidOf core k, area)) ++
    others.map (fun c => (tidOf c (bits g 9 8), (s.core c).preSave.toNat))

/-- R145: the area has been read: gangs are re-formed and the slots are ready or parked. -/
def execPreemptRestoreComplete (core : Nat) (s : State) : Out :=
  let x := s.core core
  if !x.preBusy || !x.preRestore then .next s
  else
    let group := s.restoreGroup core x.preSlots
    let s := group.foldl (fun s p => s.restoreSlot p.1 p.2) s
    let s := if x.preSlots = 0xF then s.restoreCore core else s
    .next ((group.foldl (fun s p => s.resume p.1) s).modCore core (fun x => { x with preBusy := false }))

/-! ### The write to PREEMPT (R129) -/

/-- R28: the slot can take a context: it holds none but one that is saved. -/
def State.vacant (s : State) (tid : Nat) : Bool := (s.thread tid).life = .free || (s.thread tid).life = .suspended

/-- R129, R144, R145: a write to PREEMPT. One with SLOTS = 0 while BUSY = 1 is accepted and changes nothing (DESIGN CHOICE,
log 28: R129 refuses only those with SLOTS ≠ 0, and the operation goes on with what it was given). -/
def State.writePreempt (s : State) (who : Who) (core : Nat) (v : Word) : Wrote :=
  let m := v.extractLsb' 0 4
  if whoIsThread who then refuse51 s
  else if m = 0 then
    { s := s.modCore core (fun x => { x with
        preSave := if x.preBusy then x.preSave else v &&& ~~~0xFFF
        preRestore := if x.preBusy then x.preRestore else v.getLsbD 10
        preSlots := if x.preBusy then x.preSlots else 0 }) }
  else if (s.core core).preBusy then refuse51 s
  else if v.getLsbD 10 then
    let t := s.beginPreempt core v
    if (List.range 4).all (fun k => !m.getLsbD k || s.vacant (tidOf core k)) &&
        (t.restoreGroup core m).all (fun p => s.vacant p.1) then { s := t }
    else refuse51 s
  else
    let s := (s.beginPreempt core v).clearGangRecord core
    let group := s.saveGroup core m
    { s := (group.foldl State.pausePumps s).parkMatrix group }

/-- R129: the 0xF3 address of a per-core register. -/
def coreReg (core off : Nat) : Word := dieReg (dieOf core) (0x10000 + 0x40 * (core % 256) + off)

/-- R144. -/
def execPreemptSave (who : Who) (core : Nat) (value : Word) (s : State) : Out :=
  .next (s.store who (coreReg core 0x10)
    (s.writePreempt who core (value &&& ~~~(1#64 <<< 10))))
/-- R145. -/
def execPreemptRestore (who : Who) (core : Nat) (value : Word) (s : State) : Out :=
  .next (s.store who (coreReg core 0x10)
    (s.writePreempt who core (value ||| 1#64 <<< 10)))

/-! ### The scratch context (R129) -/

/-- R129: a write to SCTX. -/
def State.writeSctx (s : State) (who : Who) (core : Nat) (v : Word) : Wrote :=
  let base := v &&& ~~~0x3FFF
  let busy := (List.range 4).any (fun k =>
    let l := (s.thread (tidOf core k)).life
    l ≠ .free && l ≠ .suspended)
  if whoIsThread who || busy || homeDie base.toNat ≠ some (dieOf core) then refuse51 s
  else { s := s.modCore core (fun x => { x with sctxBase := base, sctx := v.extractLsb' 0 8 }) }

/-- R129. -/
def execSctxWrite (who : Who) (core : Nat) (value : Word) (s : State) : Out :=
  .next (s.store who (coreReg core 0x00)
    (s.writeSctx who core value))

end Sys2Proof.Machine
end

