-- ==== Sys2Proof/Machine/Link.lean ====
section
/-! DEFINITION. Connections at work (R387–R393, R437): sending and resending, the receiver's order and
acknowledgements, the context cache, failures, the flits by type, and time exchange (R406). -/

namespace Sys2Proof.Machine

/-! ### Operations whose flits are acknowledged (R401, R403) -/

/-- R102, R403: how a page access of a thread or an engine has ended: its answer, when its operation is over. -/
def RemoteOp.pageEnd (o : RemoteOp) (va : Word) : Option Resp :=
  if o.failed then some (.err { code := 0x10, sub := 5, eval := va })
  else match o.refused with
    | some (k, _) => some (.err { code := 0x10, sub := BitVec.ofNat 8 k, eval := va })
    | none =>
      if o.answered then none
      else if o.next = o.count && o.acks ≥ o.seqs.length && !(o.flits.any (fun f => f.typ = 0x08)) then some .done
      else none

/-- A page operation that is over answers its part and goes. -/
def State.settlePage (s : State) (o : RemoteOp) : State :=
  match o.owner with
  | .request id part =>
    let va := ((s.req id).map Request.va).getD 0 + BitVec.ofNat 64 o.len
    (match o.pageEnd va with
     | some a => (s.dropOp o.id).answerPart id part o.got a
     | none => if o.answered then s.dropOp o.id else s)
  | _ => s

/-- Operations that nobody's completion event ends: pages, collective chunks and raises behind an entry. -/
def State.settleOps (s : State) : State :=
  let s := (s.fab.ops.filter (fun o => o.kind = .page)).foldl State.settlePage s
  let s := s.modFab (fun f => { f with ops := f.ops.filter (fun o => match o.owner with
    | .after _ => !o.finished
    | .none => !o.finished
    | _ => true) })
  s.settleColls

/-! ### Failure (R389) -/

/-- R396, R405: a flit that waits at its target is gone. -/
def State.dropHeld (s : State) (c : Conn) : State :=
  match c.held with
  | some (_, some h) => s.setRegion h { s.region h with infl := (s.region h).infl - 1 }
  | _ => s

/-- R389: a connection fails: its operations end with kind 5 and it starts afresh. -/
def State.failConn (s : State) (q x : Nat) : State :=
  let c := s.conn q x
  let s := s.dropHeld c
  let s := s.modFab (fun f => { f with
    conns := f.conns.del (connKey q x)
    ops := f.ops.map (fun o => if o.part = q && o.peer = x then { o with failed := true } else o) })
  let s := s.postEvent none 0x0D (BitVec.ofNat 64 (x + q * 2 ^ 12))
    (BitVec.ofNat 64 (2 + (c.acked + 2 ^ 24 - 1) % 2 ^ 24 * 256))
  let s := s.modFab (fun f => { f with ops := f.ops.filter (fun o => match o.owner with
    | .coll _ _ _ _ => !o.failed
    | _ => true) })
  (s.treeFailed q x).settleOps

/-- R388, R389: one more go-back, or the connection fails when RETRY of them brought nothing. -/
def State.goBack (s : State) (q x : Nat) (e : Option Nat) : State :=
  let c := s.conn q x
  if c.goBacks ≥ s.fab.retry then s.failConn q x
  else s.setConn q x { c.goBack e with goBacks := c.goBacks + 1, progress := s.clock }

/-- R388: 20 µs (48,000 clocks) without progress. -/
def execGoBackTimeout (part peer : Nat) (s : State) : Out :=
  let c := s.conn part peer
  if !c.sent.isEmpty && decide (c.progress + 48000 ≤ s.clock) then .next (s.goBack part peer none) else .next s

/-! ### Sending (R387, R388, R392, R437) -/

/-- R387, R392: a connection can send a new flit now. -/
def State.canSend (s : State) (q x : Nat) : Bool := decide ((s.conn q x).sent.length < 8192)

/-- R389: what fails with a connection: something to be sent or to be acknowledged, an operation that is not over, or a
collective in progress on it. -/
def State.connUsed (s : State) (q x : Nat) : Bool :=
  let c := s.conn q x
  !c.again.isEmpty || !c.urgent.isEmpty || !c.sent.isEmpty || s.treeEdge q x ||
    s.fab.ops.any (fun o => o.part = q && o.peer = x && !o.failed && (if o.kind = .page then !o.answered else !o.finished))

/-- R388: a flit is sent again, over the current stripe, with the bytes that it had. -/
def State.resend (s : State) (q x : Nat) (o : Outbound) : State :=
  let c := s.conn q x
  match nextWave (s.openPaths q x) c.stripe with
  | some (p, k) =>
    let f := { o.flit with port := p, wave := k }
    { s.setConn q x { c with
        again := c.again.drop 1, stripe := p * 16 + k, used := s.clock
        sent := c.sent.map (fun y => if y.flit.seq = f.seq then { y with flit := f } else y) } with wire := s.wire ++ [f] }
  | none => s

/-- R437: one new flit of the operation at the head of its queue. -/
def State.sendNew (s : State) (q x : Nat) : State :=
  match (s.conn q x).urgent with
  | o :: r => (s.modConn q x (fun c => { c with urgent := r })).transmit q x o
  | [] =>
    match s.nextOp q x with
    | none => s
    | some o =>
      let asked := if o.kind = .put then s.askSpans o.core o.subs (spansAt o.spans (256 * o.next) (min 256 (o.len - 256 * o.next)))
        else (s, o.subs)
      if asked.2 ≠ o.subs then asked.1.modOp o.id (fun o => { o with subs := asked.2 })
      else match s.nextFlit o with
      | .wait => s
      | .err s t => s.modOp o.id (fun o => { o with next := o.count, fault := some t, subs := [] })
      | .ok s f => (s.transmit q x { flit := f, op := some o.id }).modOp o.id (fun o => { o with
          next := o.next + 1, subs := if o.kind = .put then [] else o.subs })

/-- R389, R437: one send on a connection; without a route it fails. -/
def execFabricSend (part peer : Nat) (s : State) : Out :=
  let c := s.conn part peer
  if !s.hasRoute part peer then .next (if s.connUsed part peer then s.failConn part peer else s)
  else if !c.cached || (s.openPaths part peer).isEmpty then .next s
  else match c.again with
    | e :: _ => .next (s.resend part peer e)
    | [] => if s.canSend part peer then .next (s.sendNew part peer) else .next s

/-! ### Receiving (R388, R393, R395, R405) -/

/-- R343: the answer to a visiting record. -/
def visAnswer (f : Flit) (aux : Nat) : Flit := { typ := 0x0B, aux := aux, hdl := f.hdl, off := f.off }

/-- The state that an event leads to. -/
def nextOf (s : State) : Out → State
  | .next s' => s'
  | _ => s

/-- R343: the forward that an answer speaks of. -/
def State.fwdAnswered (s : State) (f : Flit) : Option Nat :=
  (s.forwards.find? (fun w => w.stage = 0 && w.dst ≥ 32 && w.id % 4096 = f.hdl &&
    (s.peerEntry (w.dst - 32)).peer.toNat = f.src)).map Forward.id

/-- R343, R344: a VIS flit (DESIGN CHOICE, log 6): a record, the answer to one, or a visitor's change of STATE. -/
def State.takeVis (s : State) (f : Flit) : State :=
  if f.aux = 0 then
    match s.acceptVisitor f with
    | some s => s.sendUrgent f.qd f.src (visAnswer f 1)
    | none => s.sendUrgent f.qd f.src (visAnswer f 2)
  else if f.aux = 1 then (match s.fwdAnswered f with | some i => nextOf s (execForwardAcceptance i s) | none => s)
  else if f.aux = 2 then (match s.fwdAnswered f with | some i => nextOf s (execForwardRefusal i s) | none => s)
  else if f.aux ≥ 16 then
    nextOf s (execVisitorStateChange ⟨f.qd, f.off⟩ (f.aux % 8) (BitVec.ofNat 64 (leNat (f.payload.take 8))) (f.aux / 8 % 2 = 1) s)
  else s.discard

/-- R384: a sequenced flit at its turn; none while its target makes it wait. `held` is its region when it has waited
before. -/
def State.performFlit (s : State) (f : Flit) (held : Option Nat) : Option State :=
  match f.typ with
  | 0x03 => if s.getrWaits f then none else some (s.takeGetr f).settleOps
  | 0x06 => some (s.takeAtr f)
  | 0x0A => some (s.takeErr f).settleOps
  | 0x0B => some (s.takeVis f)
  | 0x0C => some (s.takeTrg f)
  | _ => s.targetFlit f held

/-- R401: a refusal waits to be sent: it leaves before what it refuses is acknowledged. -/
def Conn.refusing (c : Conn) : Bool := c.urgent.any (fun o => o.flit.typ = 0x0A)

/-- R388: the clock at which the first of the flits that wait out of order arrived. -/
def Conn.gapFrom (c : Conn) : Option Nat :=
  c.early.foldl (fun m e => match m with | some n => some (min n e.2) | none => some e.2) none

/-- R388: the next SEQ is expected; every 32 deliveries are acknowledged. A gap in what is left counts from the first arrival
behind it. -/
def State.delivered (s : State) (q x : Nat) : State :=
  let s := s.modConn q x (fun c => { c with
    expected := (c.expected + 1) % 2 ^ 24
    rwrap := if c.expected + 1 = 2 ^ 24 then (c.rwrap + 1) % 2 ^ 43 else c.rwrap
    held := none, fresh := c.fresh + 1, freshAt := if c.fresh = 0 then s.clock else c.freshAt
    gapAt := c.gapFrom })
  if (s.conn q x).fresh ≥ 32 && !(s.conn q x).refusing then s.sendAck q x else s

/-- R396: the region that a waiting flit is in flight for. -/
def State.hold (s : State) (q x : Nat) (f : Flit) : State :=
  if f.typ = 0x03 then s.modConn q x (fun c => { c with held := some (f, none) })
  else match s.checkFlit f with
  | .ok (h, _) =>
    (s.setRegion h { s.region h with infl := (s.region h).infl + 1 }).modConn q x (fun c => { c with held := some (f, some h) })
  | .error _ => s.modConn q x (fun c => { c with held := some (f, none) })

/-- R388: flits of a connection are performed in SEQ order, as far as they have arrived. -/
def State.deliverRun (s : State) (q x : Nat) : Nat → State
  | 0 => s
  | fuel + 1 =>
    let c := s.conn q x
    match c.held with
    | some (f, h) =>
      (match s.performFlit f h with
       | some s => (s.delivered q x).deliverRun q x fuel
       | none => s)
    | none =>
      match c.early.find? (fun e => e.1.seq = c.expected) with
      | none => s
      | some (f, _) =>
        let s := s.setConn q x { c with early := c.early.filter (fun y => y.1.seq ≠ f.seq) }
        (match s.performFlit f none with
         | some s => (s.delivered q x).deliverRun q x fuel
         | none => s.hold q x f)

/-- Every flit that has arrived is looked at once. -/
def State.deliverAll (s : State) (q x : Nat) : State := s.deliverRun q x ((s.conn q x).early.length + 2)

/-- R388: a sequenced flit whose context is present takes its place in the order. -/
def State.inOrder (s : State) (f : Flit) : State :=
  let q := f.qd
  let x := f.src
  let s := s.modConn q x (fun c => { c with used := s.clock })
  let c := s.conn q x
  let ahead := (f.seq + 2 ^ 24 - c.expected) % 2 ^ 24
  if ahead ≥ 2 ^ 23 || c.early.any (fun y => y.1.seq = f.seq) || (ahead = 0 && c.held.isSome) then s
  else if ahead > 255 then s.sendNak q x
  else
    let c := { c with early := c.early ++ [(f, s.clock)], gapAt := if ahead = 0 || c.gapAt.isSome then c.gapAt else some s.clock }
    (s.setConn q x c).deliverAll q x

/-- R387: a pause (or a resume) of a lane is sent to its sender. -/
def State.sendPause (s : State) (q x port k : Nat) (resume : Bool) : State :=
  (s.sendPlain q x { typ := 0x12, len := 3, payload := leBytes 4 (2 ^ k + (if resume then 2 ^ 16 else 0)), off := port }).modLane
    port k (fun r => { r with pauseSent := !resume })

/-- R387, R393: a lane is paused when more than 48 flits wait in its input buffer or its miss buffer is full, and resumed
when at most 16 wait and the miss buffer has room. -/
def State.settlePause (s : State) (f : Flit) : State :=
  let r := (s.port f.port).lane f.wave
  if r.pauseSent then
    if r.input.length ≤ 16 && r.miss.length < 32 then s.sendPause f.qd f.src f.port f.wave true else s
  else if r.input.length > 48 || r.miss.length ≥ 32 then s.sendPause f.qd f.src f.port f.wave false
  else s

/-- R388, R405: the flit at the head of its connection waits at its target, and this one lies beyond the 256 flits that the
receiver keeps: it stays in its buffer. -/
def State.stuck (s : State) (f : Flit) : Bool :=
  let c := s.conn f.qd f.src
  let ahead := (f.seq + 2 ^ 24 - c.expected) % 2 ^ 24
  c.held.isSome && 255 < ahead && ahead < 2 ^ 23

/-- R387, R393: the flits of a lane's input buffer go on, in the order of arrival: to their connection, or into the miss
buffer while their context is not in the cache. -/
def State.drainInput (s : State) (p k : Nat) : Nat → State
  | 0 => s
  | fuel + 1 =>
    let r := (s.port p).lane k
    match r.input with
    | [] => s
    | f :: rest =>
      if (s.conn f.qd f.src).cached then
        if s.stuck f then s.settlePause f
        else (((s.modLane p k (fun l => { l with input := rest })).inOrder f).settlePause f).drainInput p k fuel
      else if r.miss.length < 32 then
        ((s.modLane p k (fun l => { l with input := rest, miss := l.miss ++ [f] })).settlePause f).drainInput p k fuel
      else s.settlePause f

/-- R384–R395: a sequenced flit arrives. -/
def State.receive (s : State) (f : Flit) : State :=
  let s := s.modLane f.port f.wave (fun r => { r with input := r.input ++ [f] })
  s.drainInput f.port f.wave (((s.port f.port).lane f.wave).input.length + 1)

/-- R384: a flit of the type that an event names, unless its TYPE is none of the table. -/
def asType (f : Flit) (typ : Nat) : Flit := if listedType f.typ then { f with typ := typ } else f

/-- An arriving sequenced flit of a type. -/
def State.arrive (s : State) (f : Flit) (typ : Nat) : Out := s.onArrival (asType f typ) true (fun s => s.receive (asType f typ))

/-! ### Contexts (R392, R393) -/

/-- R392: the least recently used context of the cache. -/
def oldestCached (l : List (Nat × Conn)) : Option Nat :=
  (l.foldl (fun (b : Option (Nat × Conn)) c =>
    if !c.2.cached then b
    else match b with
      | some y => if c.2.used < y.2.used then some c else b
      | none => some c) none).map Prod.fst

/-- R392: the backing of a context. -/
def State.contextAt (s : State) (k : Nat) : Nat := s.fab.ccbase.toNat + 128 * k

/-- R392: a context as its 128 bytes, in a layout that the spec does not give (DESIGN CHOICE, log 35): the counters, the stripe,
the keys and the outstanding get ids; the flits and operations in progress stay with Selvedge. -/
def Conn.bytes (c : Conn) (gets : Nat) : List Byte :=
  leBytes 3 c.seq ++ leBytes 3 c.expected ++ leBytes 6 c.wrap ++ leBytes 6 c.rwrap ++ leBytes 3 c.acked ++ leBytes 2 c.stripe ++
    leBytes 3 c.usend ++ leBytes 6 c.uwrap ++ leBytes 32 c.keys.send.toNat ++ leBytes 32 c.keys.receive.toNat ++ leBytes 32 gets
/-- R392: what the backing holds of a context. -/
def Conn.ofBits (c : Conn) (n : Nat) : Conn :=
  { c with
    seq := bits n 23 0, expected := bits n 47 24, wrap := bits n 95 48, rwrap := bits n 143 96, acked := bits n 167 144
    stripe := bits n 183 168, usend := bits n 207 184, uwrap := bits n 255 208
    keys := { send := BitVec.ofNat 256 (bits n 511 256), receive := BitVec.ofNat 256 (bits n 767 512) } }

/-- R384: the get ids that a connection has in use, as a mask. -/
def State.getsOf (s : State) (k : Nat) : Nat :=
  maskBits ((s.fab.ops.filter (fun o => connKey o.part o.peer = k && o.kind = .get)).map (fun o => o.y.toNat % 256))

/-- R392: the cache holds 4,096 contexts; the least recently used is written back. -/
def State.evict (s : State) : State :=
  if (s.fab.conns.cells.filter (fun c => c.2.cached)).length < 4096 then s
  else match oldestCached s.fab.conns.cells with
    | some k =>
      let c := s.fab.conns.get {} k
      (s.homeWriteAll (s.contextAt k) (c.bytes (s.getsOf k))).modFab (fun f => { f with
        conns := f.conns.put k { c with cached := false, stored := true } })
    | none => s

/-- R386, R392: a context as it is fetched: from its backing, or fresh, with the keys of the pairing. -/
def State.fetched (s : State) (q x : Nat) : Conn :=
  let k := connKey q x
  let c := s.conn q x
  if !c.stored then { c with keys := s.fab.keys.get {} k }
  else if s.lostIn (s.contextAt k) 128 then c
  else c.ofBits (s.homeNat (s.contextAt k) 128)

/-- R393: the flits at the head of a lane's miss buffer whose contexts are present proceed. -/
def State.drainMiss (s : State) (p k : Nat) : Nat → State
  | 0 => s
  | fuel + 1 =>
    match ((s.port p).lane k).miss with
    | [] => s
    | f :: r =>
      if (s.conn f.qd f.src).cached && !s.stuck f then
        (((s.modLane p k (fun l => { l with miss := r })).inOrder f).settlePause f).drainMiss p k fuel
      else s

/-- R387, R393: what waits in the buffers of the lanes is looked at again. -/
def State.drainLanes (s : State) : State :=
  allWaves.foldl (fun s w =>
    let r := (s.port w.1).lane w.2
    if r.input.isEmpty && r.miss.isEmpty then s
    else (s.drainMiss w.1 w.2 (r.miss.length + 1)).drainInput w.1 w.2 (r.input.length + 1)) s

/-- R392, R393: a context has been fetched. -/
def execContextFetchComplete (part peer : Nat) (s : State) : Out :=
  if (s.conn part peer).cached || (s.pairOf part peer).isNone then .next s
  else
    let s := s.evict
    let s := s.setConn part peer { s.fetched part peer with cached := true, used := s.clock }
    .next s.drainLanes

/-- R405: a flit that waits at its target is tried again. -/
def State.retryHeld (s : State) (q x : Nat) : State := (s.deliverAll q x).drainLanes

/-! ### Timers (R388) -/

/-- R388: 200 ns (480 clocks) after the first delivery that is not acknowledged. -/
def execAckTimer (part peer : Nat) (s : State) : Out :=
  let c := s.conn part peer
  if c.fresh > 0 && (decide (c.freshAt + 480 ≤ s.clock) || decide (c.fresh ≥ 32)) && !c.refusing then .next (s.sendAck part peer) else .next s

/-- R388: the expected flit has not arrived 2 µs (4,800 clocks) after a later one. -/
def execNakGapTimeout (part peer : Nat) (s : State) : Out :=
  let c := s.conn part peer
  match c.gapAt with
  | some g =>
    if decide (g + 4800 ≤ s.clock) && !c.early.isEmpty && c.held.isNone then
      .next ((s.sendNak part peer).modConn part peer (fun c => { c with gapAt := some s.clock }))
    else .next s
  | none => .next s

/-! ### Sequenced flits by type (R384) -/

/-- R395, R398: PUT. -/
def execPutFlit (f : Flit) (s : State) : Out := s.arrive f 0x01
/-- R398: GETQ. -/
def execGetq (f : Flit) (s : State) : Out := s.arrive f 0x02
/-- R398: GETR. -/
def execGetr (f : Flit) (s : State) : Out := s.arrive f 0x03
/-- R399: RADD. -/
def execRaddFlit (f : Flit) (s : State) : Out := s.arrive f 0x04
/-- R399: RCAS. -/
def execRcasFlit (f : Flit) (s : State) : Out := s.arrive f 0x05
/-- R399: ATR. -/
def execAtr (f : Flit) (s : State) : Out := s.arrive f 0x06
/-- R402: FADD. -/
def execFadd (f : Flit) (s : State) : Out := s.arrive f 0x07
/-- R403: PLD. -/
def execPld (f : Flit) (s : State) : Out := s.arrive f 0x08
/-- R403: PST. -/
def execPst (f : Flit) (s : State) : Out := s.arrive f 0x09
/-- R384, R400: ERR. -/
def execErrFlit (f : Flit) (s : State) : Out := s.arrive f 0x0A
/-- R343: VIS. -/
def execVis (f : Flit) (s : State) : Out := s.arrive f 0x0B
/-- R427: a TRG flit of a subtype. -/
def State.arriveTrg (s : State) (f : Flit) (aux : Nat) : Out := s.arrive { f with aux := aux } 0x0C
/-- R411, R427. -/
def execTrgCounterAdd (f : Flit) (s : State) : Out := s.arriveTrg f 0
/-- R429. -/
def execTrgSmallContribution (f : Flit) (s : State) : Out := s.arriveTrg f 1
/-- R429. -/
def execTrgSmallResult (f : Flit) (s : State) : Out := s.arriveTrg f 2
/-- R433. -/
def execTrgBulkChunkUp (f : Flit) (s : State) : Out := s.arriveTrg f 3
/-- R433. -/
def execTrgBulkChunkDown (f : Flit) (s : State) : Out := s.arriveTrg f 4
/-- R435. -/
def execTrgAbortRequest (f : Flit) (s : State) : Out := s.arriveTrg f 5
/-- R435. -/
def execTrgAbortDecision (f : Flit) (s : State) : Out := s.arriveTrg f 6
/-- R433. -/
def execTrgDescriptorCheck (f : Flit) (s : State) : Out := s.arriveTrg f 7

/-! ### Unsequenced flits (R387, R388, R342, R406) -/

/-- R388: everything before `e` has been performed at its target. -/
def State.takeAck (s : State) (q x e : Nat) : State :=
  let c := s.conn q x
  let done (n : Nat) : Bool := decide ((n + 2 ^ 24 - e) % 2 ^ 24 ≥ 2 ^ 23)
  let acked := c.sent.filter (fun o => done o.flit.seq)
  if acked.isEmpty then s
  else
    let left := c.sent.filter (fun o => !done o.flit.seq)
    let s := s.setConn q x { c with
      sent := left, acked := e, goBacks := 0, progress := s.clock }
    (acked.foldl (fun s o => match o.op with
      | some id => s.modOp id (fun o => { o with acks := o.acks + 1 })
      | none => s) s).settleOps

/-- R388: ACK. -/
def execAck (f : Flit) (s : State) : Out :=
  s.onArrival (asType f 0x10) true (fun s => s.takeAck f.qd f.src f.seq)
/-- R388: NAK. -/
def execNak (f : Flit) (s : State) : Out :=
  s.onArrival (asType f 0x11) true (fun s =>
    if (s.conn f.qd f.src).sent.isEmpty then s else s.goBack f.qd f.src (some f.seq))

/-- R387: the wavelengths that a PAUSE names: of its λ, those that go to the receiver's port in OFF. -/
def State.pausedWaves (s : State) (f : Flit) : List (Nat × Nat) :=
  let m := leNat (f.payload.take 2)
  (List.range 16).filterMap (fun k =>
    if bits m k k = 1 then (s.portReaching f.src f.off k).map (fun p => (p, k)) else none)
/-- R387: PAUSE stops or restarts sending on wavelengths. -/
def execPause (f : Flit) (s : State) : Out :=
  s.onArrival (asType f 0x12) true (fun s =>
    (s.pausedWaves f).foldl (fun s w =>
      s.modSlot w.1 w.2 (fun t => { t with paused := leNat ((f.payload.drop 2).take 1) % 2 = 0 })) s)

/-- R342: ADV. -/
def execAdv (f : Flit) (s : State) : Out := s.onArrival (asType f 0x15) true (fun s => s.takeAdvert f)

/-- R406: a SYNC flit leaves when its way stands. -/
def State.tellTime (s : State) (x : Nat) (f : Flit) : State := (s.sendSync x f).getD s

/-- R406: an exchange (DESIGN CHOICE, log 6): AUX 0 asks and carries the asker's time, AUX 1 answers with both times. -/
def State.takeSync (s : State) (f : Flit) : State :=
  let now := s.gtime.toNat
  let t1 := leNat (f.payload.take 8)
  if f.aux = 0 then
    s.tellTime f.src { typ := 0x14, aux := 1, len := 15, payload := leBytes 8 t1 ++ leBytes 8 now }
  else if s.fab.tsync && f.src = s.fab.parent then
    let t2 := leNat ((f.payload.drop 8).take 8)
    let s := s.modFab (fun b => { b with syncAt := s.clock, syncLost := false })
    if s.fab.root then s
    else s.modPkg (fun p => { p with gtSlew := (t2 : Int) + ((now - t1) / 2 : Nat) - now })
  else s
/-- R406: SYNC. -/
def execSync (f : Flit) (s : State) : Out := s.onArrival (asType f 0x14) false (fun s => s.takeSync f)

/-- R406: every 1 ms (2,400,000 clocks) a package with a parent asks it. -/
def execTimeSync (s : State) : Out :=
  if s.fab.tsync && s.fab.en && decide (s.fab.syncSent + 2400000 ≤ s.clock) then
    .next ((s.tellTime s.fab.parent { typ := 0x14, len := 7, payload := leBytes 8 s.gtime.toNat }).modFab
      (fun b => { b with syncSent := s.clock }))
  else .next s

/-- R406, R407: no SYNC for 10 ms. -/
def execTimeSyncLost (s : State) : Out :=
  if s.fab.tsync && !s.fab.syncLost && decide (s.fab.syncAt + 24000000 ≤ s.clock) then
    .next (((s.postEvent none 0x0D (BitVec.ofNat 64 s.fab.parent) 7).modFab (fun b => { b with syncLost := true })).modPkg
      (fun p => { p with gtSlew := 0 }))
  else .next s

end Sys2Proof.Machine
end

