-- ==== Sys2Proof/Machine/Regs.lean ====
section
/-! DEFINITION. The registers of the spaces 0xF2 and 0xF3 as loads read them and stores write them (R98, R234, R237,
R245–R258, R261–R265, R279, R285, R369, R129, R169, R207). -/

namespace Sys2Proof.Machine

/-- A word from values and the positions of their lowest bits. -/
def fields (l : List (Nat × Nat)) : Word := BitVec.ofNat 64 (l.foldl (fun a p => a + p.1 * 2 ^ p.2) 0)
def bit01 (b : Bool) : Nat := if b then 1 else 0
/-- Bits of a Boolean test, one per number below `n`. -/
def maskOf (n : Nat) (f : Nat → Bool) : Nat := ((List.range n).filter f).foldl (fun a k => a + 2 ^ k) 0

/-- A write that no requester may make. -/
def State.readOnly (s : State) : Wrote := refuse51 s
/-- A write that a thread may not make. -/
def State.notThread (s : State) (who : Who) (w : Wrote) : Wrote := if whoIsThread who then refuse51 s else w

/-! ### Places (R234, R262) -/

/-- R234: what an offset of a cluster's map names. -/
inductive ClusterReg where
  | ctl (off : Nat)
  | bar (i off : Nat)
  | cell (i off : Nat)
  | join (i off : Nat)
  | set (i : Nat)
  | retired (y : Nat)
  | binding (k : Nat)
  deriving DecidableEq, Repr

/-- R234: the register at an offset (a multiple of 8), if there is one. -/
def clusterAt (o : Nat) : Option ClusterReg :=
  if o < 0x40 then some (.ctl o)
  else if 0x10000 ≤ o && o < 0x12000 then (if o % 0x20 < 0x18 then some (.bar ((o - 0x10000) / 0x20) (o % 0x20)) else none)
  else if 0x20000 ≤ o && o < 0x30000 then some (.cell ((o - 0x20000) / 0x10) (o % 0x10))
  else if 0x40000 ≤ o && o < 0x50000 then some (.join ((o - 0x40000) / 0x10) (o % 0x10))
  else if 0x60000 ≤ o && o < 0x60800 then some (.set ((o - 0x60000) / 8))
  else if 0x70000 ≤ o && o < 0x70200 then some (.retired ((o - 0x70000) / 8))
  else if 0x80000 ≤ o && o < 0x88000 then some (.binding ((o - 0x80000) / 8))
  else none

/-- R260: a register of an object has the object's base. -/
def ClusterReg.isObject : ClusterReg → Bool
  | .ctl _ => false
  | _ => true

/-- R262: what an offset of a die aperture names. -/
inductive DieReg where
  | ctl (off : Nat)
  | core (i off : Nat)
  | window (i off : Nat)
  | channel (ch off : Nat)
  | start (ch : Nat)
  | post
  | streams
  | queue (i q off : Nat)
  | vlog (i off : Nat)
  | template (k : Nat)
  deriving DecidableEq, Repr

/-- R262. -/
def dieAt (o : Nat) : Option DieReg :=
  if o < 0x40 then some (.ctl o)
  else if 0x10000 ≤ o && o < 0x14000 then some (.core ((o - 0x10000) / 0x40) (o % 0x40))
  else if 0x20000 ≤ o && o < 0x20200 then some (.window ((o - 0x20000) / 0x20) (o % 0x20))
  else if 0x30000 ≤ o && o < 0x31000 then (if o % 0x40 < 0x20 then some (.channel ((o - 0x30000) / 0x40) (o % 0x40)) else none)
  else if 0x31000 ≤ o && o < 0x31200 then some (.start ((o - 0x31000) / 8))
  else if o = 0x40000 then some .post
  else if o = 0x40008 then some .streams
  else if 0x60000 ≤ o && o < 0x70000 then some (.queue ((o - 0x60000) / 0x100) (o % 0x100 / 0x20) (o % 0x20))
  else if 0x80000 ≤ o && o < 0x80800 then some (.vlog ((o - 0x80000) / 0x20) (o % 0x20))
  else if 0x100000 ≤ o && o < 0x140000 then some (.template ((o - 0x100000) / 8))
  else none

/-! ### Cluster registers (R234, R237, R245, R249, R252, R254, R255) -/

/-- R234–R255: what a load reads. -/
def State.readCluster (s : State) (c : Nat) : ClusterReg → Word
  | .ctl o =>
    let x := s.cluster c
    if o = 0x00 then x.lrBase
    else if o = 0x08 then BitVec.ofNat 64 x.lrCount
    else if o = 0x10 then BitVec.ofNat 64 x.used
    else if o = 0x20 then BitVec.ofNat 64 x.cerr
    else if o = 0x38 then x.hcst.zeroExtend 64
    else 0
  | .bar i o =>
    let b := s.bar c i
    if o = 0 then b.phase.zeroExtend 64
    else if o = 8 then
      fields [(bit01 b.under, 57), (bit01 b.ovf, 56), (bit01 b.bound, 55), (b.set, 47), (b.arrived, 31), (b.expect, 0)]
    else BitVec.ofNat 64 b.bytes
  | .cell i o =>
    let x := s.cell c i
    if o = 0 then x.value else fields [(bit01 (s.cellWaited c i), 1), (bit01 x.full, 0)]
  | .join i o =>
    let j := s.join c i
    if o = 0 then fields [(bit01 j.under, 32), (j.count, 0)]
    else fields [(bit01 j.cfail, 18), (bit01 j.cq, 17), (bit01 j.cen, 16), (j.crec, 0)]
  | .set i => BitVec.ofNat 64 (s.setCount c i)
  | .retired y => (s.cluster c).retired.get 0 y
  | .binding k =>
    match (s.cluster c).binds.find k with
    | some b => fields [(bit01 b.v, 63), (b.mask.toNat, 16), (b.recIx, 0)]
    | none => 0

/-- R245: a store to CONT. -/
def State.writeCont (s : State) (c i : Nat) (v : Word) : State :=
  let j := s.join c i
  s.setJoin c i { j with cfail := j.cfail && !v.getLsbD 18, cen := v.getLsbD 16, crec := bits v.toNat 15 0 }

/-- R234: LRBASE, LRCOUNT and CERR. -/
def State.writeClusterCtl (s : State) (who : Who) (c o : Nat) (v : Word) : Wrote :=
  if o = 0x00 then s.notThread who { s := s.modCluster c (fun x => { x with lrBase := v &&& 0x00FFFFFFFFFFFF00 }) }
  else if o = 0x08 then
    s.notThread who (if bits v.toNat 16 0 > 65536 then refuse51 s
      else { s := s.modCluster c (fun x => { x with lrCount := bits v.toNat 16 0 }) })
  else if o = 0x18 then s.writeSbctl c v
  else if o = 0x20 then
    { s := s.modCluster c (fun x => { x with cerr := (BitVec.ofNat 64 x.cerr &&& ~~~v).toNat }) }
  else if o = 0x28 then s.writeRootl who c v
  else if o = 0x30 then s.writeSlotcmd who c v
  else s.readOnly

/-- R234–R255: what a store does. -/
def State.writeCluster (s : State) (who : Who) (c o : Nat) (v : Word) : ClusterReg → Wrote
  | .ctl o => s.writeClusterCtl who c o v
  | .cell i r =>
    s.unlessPoisoned c (objectBase o) (if r = 8 then { s := s.writeFstate c i v } else s.readOnly)
  | .join i r =>
    s.unlessPoisoned c (objectBase o) (if r = 0 then s.writeCount c i v else { s := s.writeCont c i v })
  | .bar _ _ => s.unlessPoisoned c (objectBase o) s.readOnly
  | .set _ => s.unlessPoisoned c (objectBase o) s.readOnly
  | .retired _ => s.unlessPoisoned c (objectBase o) s.readOnly
  | .binding _ => s.unlessPoisoned c (objectBase o) s.readOnly

/-! ### Die registers (R129, R169, R207, R258, R264, R265, R279, R285, R369) -/

/-- R264. -/
def State.readDieCtl (s : State) (d o : Nat) : Word :=
  let x := s.die d
  if o = 0x00 then BitVec.ofNat 64 d
  else if o = 0x08 then fields [(bit01 x.fenced, 3), (x.part, 0)]
  else if o = 0x10 then x.ptBase ||| BitVec.ofNat 64 (bit01 x.ptEn)
  else if o = 0x20 then fields [(s.walksOut d, 16), (bit01 x.tlbInv.isSome, 0)]
  else if o = 0x28 then x.spol.zeroExtend 64
  else if o = 0x30 then
    -- 256 isolated cores show as 255 (DESIGN CHOICE, log 53)
    fields [(min 255 ((List.range 256).filter (fun i => (s.core (256 * d + i)).iso)).length, 8),
      (x.spares, 0)]
  else if o = 0x38 then x.rdcEpoch.zeroExtend 64
  else 0

/-- R129, R207, R258, R265. -/
def State.readCoreReg (s : State) (core o : Nat) : Word :=
  let x := s.core core
  if o = 0x00 then x.sctxBase ||| x.sctx.zeroExtend 64
  else if o = 0x08 then
    fields [(maskOf 24 (fun f => if h : f < 24 then x.frames[f].dirty else false), 24), (maskOf 24 x.pinned, 0)]
  else if o = 0x10 then
    x.preSave ||| fields [(bit01 x.preBusy, 11), (bit01 x.preRestore, 10), (x.preSlots.toNat, 0)]
  else if o = 0x18 then BitVec.ofNat 64 x.cerr
  else if o = 0x20 then
    fields [(maskOf 4 (fun q => if h : q < 4 then x.accFrames[q].dirty else false), 4),
      (maskOf 4 (fun q => if h : q < 4 then x.accFrames[q].ctx = some x.sctx else false), 0)]
  else if o = 0x28 then x.scht
  else if o = 0x30 then fields [(x.schLen, 16), (x.schCur, 0)]
  else fields [(x.pcol.getD (core % 8), 4), (bit01 x.subst, 1), (bit01 x.iso, 0)]

/-- R279. -/
def Channel.read (x : Channel) (o : Nat) : Word :=
  if o = 0x00 then
    fields [(bit01 !x.copies.isEmpty, 63), (bit01 x.err, 62), (x.copies.length, 56), (x.ecause.toNat, 48),
      (x.esub.toNat, 44), ((x.copies.head?.map Copy.tpl).getD 0, 0)]
  else if o = 0x08 then (match x.copies with | c :: _ => c.wmAt x.row x.col | [] => x.wm)
  else if o = 0x10 then x.eaddr
  else BitVec.ofNat 64 (match x.copies with | c :: _ => min x.row c.rows1 | [] => x.row)

/-- R369. -/
def State.readVlog (s : State) (d i o : Nat) : Word :=
  match (s.die d).vlog[i]? with
  | none => 0
  | some e =>
    if o = 0 then e.w0 else if o = 8 then e.w1 else if o = 0x10 then e.w2 else fields [(bit01 e.v, 63), (e.seq, 0)]

/-- R262: what a load reads. -/
def State.readDie (s : State) (d : Nat) : DieReg → Word
  | .ctl o => s.readDieCtl d o
  | .core i o => s.readCoreReg (256 * d + i) o
  | .window i o =>
    let w := (s.die d).window i
    if o = 0 then w.fwctl else if o = 8 then w.fwlen else if o = 0x10 then w.fwpk else w.fwsc
  | .channel ch o => (s.channel d ch).read o
  | .start _ => 0
  | .post => 0
  | .streams => BitVec.ofNat 64 (s.die d).streams.length
  | .queue i q o =>
    let p := s.pump (256 * d + i) q
    if o = 0 then p.qring else if o = 8 then p.qaddr else if o = 0x10 then p.qshape else p.ctl
  | .vlog i o => s.readVlog d i o
  | .template k => (s.die d).templates.get 0 k

/-- R264, R357: a store to DPART; a new PART must agree with PCFG. -/
def State.writeDpart (s : State) (d : Nat) (v : Word) : Wrote :=
  let x := s.die d
  let q := bits v.toNat 1 0
  if x.fenced && !v.getLsbD 3 then refuse51 s
  else if q ≠ x.part && (s.dieOccupied d || !(s.part q).dies.getLsbD d) then refuse51 s
  else
    let s := s.modDie d (fun x => { x with part := q })
    { s := if v.getLsbD 3 then s.fenceDie d 0 else s }

/-- R264. -/
def State.writeDieCtl (s : State) (who : Who) (d o : Nat) (v : Word) : Wrote :=
  if o = 0x08 then s.writeDpart d v
  else if o = 0x10 then
    if s.dieOccupied d then refuse51 s
    else { s := s.modDie d (fun x => { x with ptBase := v &&& 0x0000FFFFFFFF0000, ptEn := v.getLsbD 0 }) }
  else if o = 0x18 then s.writeTlbinv who d v
  else if o = 0x28 then { s := s.modDie d (fun x => { x with spol := v.extractLsb' 0 3 }) }
  else s.readOnly

/-- R129, R258: the per-core registers. -/
def State.writeCoreReg (s : State) (who : Who) (core o : Nat) (v : Word) : Wrote :=
  if o = 0x00 then s.writeSctx who core v
  else if o = 0x10 then s.writePreempt who core v
  else if o = 0x18 then { s := s.modCore core (fun x => { x with cerr := (BitVec.ofNat 64 x.cerr &&& ~~~v).toNat }) }
  else if o = 0x28 then { s := s.modCore core (fun x => { x with scht := v &&& 0x00FFFFFFFFFFFFF8 }) }
  else if o = 0x30 then { s := s.modCore core (fun x => { x with schLen := bits v.toNat 26 16, schCur := bits v.toNat 10 0 }) }
  else s.readOnly

/-- R169, R172: FWLEN, FWPK and FWSC are written while the window is not enabled. -/
def State.writeWindow (s : State) (who : Who) (d i o : Nat) (v : Word) : Wrote :=
  let w := (s.die d).window i
  if o = 0 then s.writeFwctl who d i v
  else if w.en then refuse51 s
  else if o = 8 then { s := s.setWindow d i { w with fwlen := v &&& 0xFFFFFFFF } }
  else if o = 0x10 then { s := s.setWindow d i { w with fwpk := v &&& 0x01FFFFFFFFFFFF00 } }
  else { s := s.setWindow d i { w with fwsc := v &&& 0x01FFFFFFFFFFFF00 } }

/-- R263, R279: CHST.ERR is cleared by the host, the supervisor or a thread of the die. -/
def State.writeChannel (s : State) (who : Who) (d ch o : Nat) (v : Word) : Wrote :=
  let away := match who with
    | .thread core _ => decide (dieOf core ≠ d)
    | _ => false
  if o ≠ 0 || away then refuse51 s
  else { s := s.setChannel d ch { s.channel d ch with err := (s.channel d ch).err && !v.getLsbD 62 } }

/-- R263, R285, R286: the registers of a queue, by a thread of the core, the host or the supervisor core; QRING, QADDR and
QSHAPE while the queue is not enabled. -/
def State.writeQueue (s : State) (who : Who) (core q o : Nat) (v : Word) : Wrote :=
  let p := s.pump core q
  let tid : Option Nat := match who with
    | .thread c k => some (tidOf c k)
    | _ => none
  if o = 0x18 then s.writeQctl tid core q v
  else if (tid.map coreOf).getD core ≠ core || p.en then refuse51 s
  else if o = 0 then { s := s.setPump core q { p with qring := v &&& 0x000000FFFFFFFFFF } }
  else if o = 8 then { s := s.setPump core q { p with qaddr := v } }
  else { s := s.setPump core q { p with qshape := v } }

/-- R369: word 3 of an entry: V is cleared by writing 1. -/
def State.writeVlog (s : State) (d i o : Nat) (v : Word) : Wrote :=
  if h : i < 64 then
    if o = 0x18 then
      { s := s.modDie d (fun x => { x with vlog := x.vlog.set i { x.vlog[i] with v := x.vlog[i].v && !v.getLsbD 63 } }) }
    else s.readOnly
  else s.readOnly

/-- R98, R273: the fields of template word `i`; the reserved bits of a store are ignored. -/
def templateMask (i : Nat) : Word :=
  if i = 2 then 0x000000FFFFFFFFFF else if i = 6 then 0x1FFF else if i = 7 then 3 else BitVec.allOnes 64

/-- R262, R263: what a store does. The start and post registers act for threads only, as their own rules state (R275,
R282). -/
def State.writeDie (s : State) (who : Who) (d : Nat) (v : Word) : DieReg → Wrote
  | .ctl o => s.notThread who (s.writeDieCtl who d o v)
  | .core i o => s.notThread who (s.writeCoreReg who (256 * d + i) o v)
  | .window i o => s.notThread who (s.writeWindow who d i o v)
  | .channel ch o => s.writeChannel who d ch o v
  | .start _ => refuse51 s
  | .post => refuse51 s
  | .streams => s.readOnly
  | .queue i q o => s.writeQueue who (256 * d + i) q o v
  | .vlog i o => s.notThread who (s.writeVlog d i o v)
  | .template k => s.notThread who { s := s.modDie d (fun x => { x with templates := x.templates.put k (v &&& templateMask (k % 8)) }) }

end Sys2Proof.Machine
end

