-- ==== Sys2Proof/Machine/PkgRegs.lean ====
section
/-! DEFINITION. The registers of the space 0xF4 (R326, R341, R351, R376, R377, R394, R408, R409, R413, R428), and loads
and stores of any memory-mapped register (R97, R98, R234, R261, R410). -/

namespace Sys2Proof.Machine

/-! ### Places -/

/-- R351, R326, R341, R376, R377, R394, R408–R428: what an offset of 0xF4 names. -/
inductive PkgReg where
  | pkgid | feat (i : Nat) | gtbase
  | facc (q i : Nat)
  | pcfg (q : Nat) | str (q : Nat) | cxlctl | cxlcap
  | dpwr (d : Nat) | tsens (d : Nat) | pwrt
  | boot | fwlen | fwgo
  | hmwin (f : Nat) | ring (f off : Nat)
  | vlstat (d : Nat)
  | router (c off : Nat)
  | peer (i : Nat)
  | port (p off : Nat)
  | fctl | ccbase | rtbase | tsync
  | lcfg (q : Nat) | mfree (d : Nat)
  | region (h off : Nat)
  | counter (i off : Nat)
  | tcfg (q off : Nat)
  | entry (e off : Nat)
  | group (g off : Nat)
  deriving DecidableEq, Repr

/-- R326: an offset of a router block at which a register lies. -/
def routerHas (o : Nat) : Bool := o < 0x28 || (0x40 ≤ o && o < 0x80)
/-- R428: an offset of a group's block at which a register lies. -/
def groupHas (o : Nat) : Bool := o < 0x60

/-- The register at an offset, a multiple of 8. -/
def pkgAt (o : Nat) : Option PkgReg :=
  let one (a : Nat) (r : PkgReg) : Option PkgReg := if o = a then some r else none
  let many (base step n : Nat) (f : Nat → PkgReg) : Option PkgReg := (slotIn o base step n).map f
  if o < 0x1000 then
    one 0x000 .pkgid <|> many 0x008 8 4 (fun i => if i < 3 then .feat i else .feat 3) <|> one 0x028 .gtbase <|>
    (slotIn o 0x40 0x20 4).map (fun q => .facc q ((o - 0x40) % 0x20 / 8)) <|>
    many 0x100 8 4 .pcfg <|> many 0x140 8 4 .str <|> one 0x160 .cxlctl <|> one 0x168 .cxlcap <|>
    many 0x200 8 4 .dpwr <|> many 0x220 8 4 .tsens <|> one 0x240 .pwrt <|> one 0x300 .boot <|> one 0x308 .fwlen <|>
    one 0x310 .fwgo <|> many 0x380 8 5 .hmwin <|>
    ((slotIn o 0x400 0x40 5).bind fun f => if o % 0x40 < 0x20 then some (.ring f (o % 0x40)) else none) <|>
    many 0x600 8 4 .vlstat
  else if o < 0x202000 then
    (slotIn o 0x200000 0x100 32).bind fun c => if routerHas (o % 0x100) then some (.router c (o % 0x100)) else none
  else if o < 0x300000 then many 0x202000 8 32 .peer
  else if o < 0x340000 then
    ((slotIn o 0x300000 0x40 32).bind fun p => if o % 0x40 < 0x30 then some (.port p (o % 0x40)) else none) <|>
    one 0x300800 .fctl <|> one 0x300808 .ccbase <|> one 0x300810 .rtbase <|> one 0x300818 .tsync <|>
    many 0x300880 8 4 .lcfg <|> many 0x3008C0 8 4 .mfree
  else if o < 0x400000 then (slotIn o 0x340000 0x20 4095).map (fun h => .region h (o % 0x20))
  else if o < 0x420000 then some (.counter ((o - 0x400000) / 0x20) (o % 0x20))
  else if o < 0x500000 then (slotIn o 0x420000 0x10 4).map (fun q => .tcfg q (o % 0x10))
  else if o < 0x600000 then some (.entry ((o - 0x500000) / 0x40) (o % 0x40))
  else (slotIn o 0x600000 0x80 256).bind fun g => if groupHas (o % 0x80) then some (.group g (o % 0x80)) else none

/-! ### Reading -/

/-- R326. -/
def State.readRouter (s : State) (c o : Nat) : Word :=
  let x := s.cluster c
  if o = 0x00 then fields [(x.set.hyst, 32), (x.set.tstay, 16), (x.set.tlow, 0)]
  else if o = 0x08 then x.set.gcost
  else if o = 0x10 then
    fields [(x.pubP, 48), (s.livePressure c, 32), (x.pubD, 24), (x.pubDloc, 16), (bit01 x.pubFull, 15),
      (s.clock / 64 % 0x8000, 0)]
  else if o = 0x18 then fields [(x.set.pbias, 16), (bit01 x.set.pen, 1), (bit01 x.set.fen, 0)]
  else if o = 0x20 then fields [(x.gcntOut, 32), (x.gcntIn, 0)]
  else
    let p := (o - 0x40) / 8
    let n := s.portPub c p
    fields [(n.1, 16), (n.2.1, 8), (bit01 n.2.2.2, 1), (bit01 (s.portLive c p), 0)]

/-- R376. -/
def State.readPort (s : State) (p o : Nat) : Word :=
  let x := s.port p
  if h : o / 8 < 4 then x.pmap[o / 8] else if o = 0x20 then x.plit else x.pstat

/-- R394. -/
def Region.read (r : Region) (o : Nat) : Word :=
  if o = 0 then r.base
  else if o = 8 then BitVec.ofNat 64 r.len
  else if o = 0x10 then
    fields [(bit01 r.v, 63), (bit01 r.drain, 62), (bit01 r.rd, 61), (bit01 r.wr, 60), (bit01 r.at_, 59), (bit01 r.tcm, 58),
      (r.part, 56), (bit01 r.anyp, 12), (r.peer, 0)]
  else BitVec.ofNat 64 r.infl

/-- R413. -/
def TEntry.read (e : TEntry) (o : Nat) : Word :=
  match o / 8 with
  | 0 => e.w0
  | 1 => e.w1
  | 2 => e.opa
  | 3 => e.opb
  | 4 => fields [(e.part, 26), (e.die, 24), (e.sub.toNat, 16), (e.cause.toNat, 8), (bit01 e.tcm, 4), (bit01 e.late, 3), (e.state, 0)]
  | 5 => e.eval
  | 6 => e.ftime
  | _ => e.res

/-- R428. -/
def Group.read (g : Group) (o : Nat) : Word :=
  let kids (a : Nat) : Word := fields ((List.range 4).map (fun i => (g.kid (a + i), 12 * i)))
  match o / 8 with
  | 0 => fields [(bit01 g.en, 63), (bit01 g.root, 62), (g.op, 56), (g.cmask.toNat, 48), (g.localN, 44), (g.parent, 0)]
  | 1 => kids 0
  | 2 => kids 4
  | 3 =>
    fields [(g.epoch.toNat, 32), (maskOf 8 (fun s => (g.arrived.find s).isSome), 24), (g.locals.length, 20),
      (g.colls.length, 16)]
  | 4 => g.gres
  | 6 => g.next.zeroExtend 64
  | k =>
    if h : k - 8 < 4 then
      if k ≥ 8 then
        let r := g.cres[k - 8]
        fields [(r.seq, 32), (bit01 r.late, 8), (r.status, 0)]
      else 0
    else 0

/-- R409. -/
def Ranges.read (r : Ranges) (o : Nat) : Word :=
  if o = 0 then fields [(bit01 r.en, 63), (r.glim, 48), (r.gbase, 40), (r.clim, 24), (r.cbase, 0)]
  else fields [(r.elim, 16), (r.ebase, 0)]

/-- R351, R371. -/
def EventRing.read (r : EventRing) (o : Nat) : Word :=
  if o = 0 then r.base ||| BitVec.ofNat 64 r.log2
  else if o = 8 then r.prod.zeroExtend 64
  else if o = 0x10 then r.cons.zeroExtend 64
  else BitVec.ofNat 64 r.lost

/-- What a load of a register of 0xF4 reads. -/
def State.readPkg (s : State) : PkgReg → Word
  | .pkgid => fields [(0x10, 24), (s.pkg.peer.toNat, 0)]
  | .feat i => BitVec.ofNat 64 (if i = 0 then feat0 else if i = 1 then feat1 else if i = 2 then feat2 else 0)
  | .gtbase => 0
  | .facc q i => if i = 0 then (s.part q).facc0 else if i = 1 then (s.part q).facc1.zeroExtend 64 else 0
  | .pcfg q => (s.part q).pcfg
  | .str q => BitVec.ofNat 64 (s.part q).str
  | .cxlctl => fields [(s.pkg.cxlWays.toNat, 16), (s.pkg.cxlUp.toNat, 8), (s.pkg.cxlPres.toNat, 0)]
  | .cxlcap => s.pkg.cxlBlocks.zeroExtend 64
  | .dpwr d => let x := s.die d; fields [(bit01 x.pwrBusy, 63), (x.pwrState.toNat, 2), (x.pwrTgt.toNat, 0)]
  | .tsens d =>
    let x := s.die d
    fields [(bit01 x.tripped, 49), (bit01 x.trArm, 48), (x.ttrip.toNat, 32), (x.tmax.toNat, 16), (x.temp.toNat, 0)]
  | .pwrt => fields [(s.pkg.pmax.toNat, 16), (s.pkg.pwr.toNat, 0)]
  | .boot => fields [(s.pkg.ecode.toNat, 32), (s.pkg.stage.toNat, 0)]
  | .fwlen => BitVec.ofNat 64 s.pkg.fwlen
  | .fwgo => 0
  | .hmwin f => if h : f < 5 then fields [(s.pkg.hmwin[f].toNat, 36)] else 0
  | .ring f o => if h : f < 5 then s.pkg.rings[f].read o else 0
  | .vlstat d =>
    let x := s.die d
    fields [((x.vlog.toList.filter (fun e => e.v)).length, 48), (x.vLost, 16), (x.vSeq, 0)]
  | .router c o => s.readRouter c o
  | .peer i =>
    let e := s.peerEntry i
    fields [(bit01 e.en, 63), (bit01 e.live, 62), (e.ap, 32), (e.ad, 24), (e.peer.toNat, 0)]
  | .port p o => s.readPort p o
  | .fctl => fields [(s.fab.fto, 32), (s.fab.retry, 28), (bit01 s.fab.root, 1), (bit01 s.fab.en, 0)]
  | .ccbase => s.fab.ccbase
  | .rtbase => s.fab.rtbase
  | .tsync => fields [(bit01 s.fab.tsync, 63), (s.fab.parent, 0)]
  | .lcfg q => fields [(s.qmaxOf q, 40), (s.floorOf q, 32), (s.heldAll q, 0)]
  | .mfree d => BitVec.ofNat 64 (s.die d).freeFrames.length
  | .region h o => (s.region h).read o
  | .counter i o =>
    let c := s.counter i
    if o = 0 then c.value else if o = 8 then c.cst else 0
  | .tcfg q o => (s.trg.range q).read o
  | .entry e o => (s.entry e).read o
  | .group g o => (s.group g).read o

/-! ### Writing -/

/-- A write that the host alone may make. -/
def State.hostOnly (s : State) (who : Who) (w : Wrote) : Wrote := if isHost who then w else refuse51 s

/-- R351: a slot of one of a partition's dies is occupied or suspended. -/
def State.partBusy (s : State) (q : Nat) : Bool := (diesOf (s.part q).dies).any (fun d => !s.dieFree d)

/-- R351, R353: FACC0–FACC3. -/
def State.writeFacc (s : State) (q i : Nat) (v : Word) : Wrote :=
  if s.partBusy q then refuse51 s
  else if i = 0 then
    if v &&& ~~~(BitVec.ofNat 64 feat0) = 0 then { s := s.modPart q (fun p => { p with facc0 := v }) } else refuse51 s
  else if i = 1 then
    if v &&& ~~~(BitVec.ofNat 64 feat1) = 0 then { s := s.modPart q (fun p => { p with facc1 := v.extractLsb' 0 5 }) }
    else refuse51 s
  else if v = 0 then { s := s }
  else refuse51 s

/-- R351, R356: STR q. -/
def State.writeStr (s : State) (q : Nat) (v : Word) : Wrote :=
  let b := bits v.toNat 14 0
  let l := bits v.toNat 46 32
  let clash := v.getLsbD 15 && (List.range 4).any (fun r =>
    r ≠ q && (s.part r).strEn && decide (b ≤ (s.part r).strLimit) && decide ((s.part r).strBase ≤ l))
  if clash then refuse51 s
  else { s := s.modPart q (fun p => { p with strBase := b, strLimit := l, strEn := v.getLsbD 15 }) }

/-- R351: TSENS d. -/
def State.writeTsens (s : State) (d : Nat) (v : Word) : State :=
  s.modDie d (fun x => { x with tripped := x.tripped && !v.getLsbD 49, trArm := v.getLsbD 48, ttrip := v.extractLsb' 32 16 })

/-- R351, R371: the registers of an event ring. -/
def State.writeRing (s : State) (f o : Nat) (v : Word) : Wrote :=
  if h : f < 5 then
    let r := s.pkg.rings[f]
    let put (r : EventRing) : Wrote := { s := s.modPkg (fun p => { p with rings := p.rings.set f r }) }
    let n := bits v.toNat 4 0
    if o = 0 then
      if (1 ≤ n && n ≤ 5) || n ≥ 17 then refuse51 s else put { r with base := v &&& 0x0000FFFFFFFFF000, log2 := n }
    else if o = 0x10 then put { r with cons := v.extractLsb' 0 32 }
    else if o = 0x18 then put { r with lost := (BitVec.ofNat 64 r.lost &&& ~~~v).toNat }
    else refuse51 s
  else refuse51 s

/-- R326: a setting of a router changes; what held at the start of the clock stays known. -/
def State.setRouter (s : State) (c : Nat) (f : RouterSet → RouterSet) : State :=
  s.modCluster c (fun x => { x with
    was := if x.setAt = s.clock then x.was else x.set, setAt := s.clock, set := f x.set })

/-- R326: a store to a router block. -/
def State.writeRouter (s : State) (c o : Nat) (v : Word) : Wrote :=
  if o = 0x00 then { s := s.setRouter c (fun x => { x with
    hyst := bits v.toNat 47 32, tstay := bits v.toNat 31 16, tlow := bits v.toNat 15 0 }) }
  else if o = 0x08 then { s := s.setRouter c (fun x => { x with gcost := v }) }
  else if o = 0x18 then { s := s.setRouter c (fun x => { x with
    pbias := bits v.toNat 31 16, pen := v.getLsbD 1, fen := v.getLsbD 0 }) }
  else if o = 0x20 then { s := s.modCluster c (fun x => { x with
    gcntOut := (BitVec.ofNat 32 x.gcntOut &&& ~~~v.extractLsb' 32 32).toNat
    gcntIn := (BitVec.ofNat 32 x.gcntIn &&& ~~~v.extractLsb' 0 32).toNat }) }
  else refuse51 s

/-- R376: PMAP of a port, while EN = 0. -/
def State.writePmap (s : State) (p w : Nat) (v : Word) : Wrote :=
  if (s.port p).en then refuse51 s
  else { s := s.modPort p (fun x => if h : w < 4 then { x with pmap := x.pmap.set w (v &&& 0x8FFF8FFF8FFF8FFF) } else x) }

/-- R377: FCTL. -/
def State.writeFctl (s : State) (v : Word) : Wrote :=
  let fto := bits v.toNat 47 32
  let retry := bits v.toNat 31 28
  if fto = 0 || retry = 0 then refuse51 s
  else { s := s.modFab (fun f => { f with fto := fto, retry := retry, root := v.getLsbD 1, en := v.getLsbD 0 }) }

/-- R377: TSYNC; the 10 ms of R406 begin when a parent is set. -/
def State.writeTsync (s : State) (v : Word) : State :=
  s.modFab (fun f => { f with
    tsync := v.getLsbD 63, parent := bits v.toNat 11 0
    syncAt := if v.getLsbD 63 && !f.tsync then s.clock else f.syncAt, syncLost := f.syncLost && f.tsync })

/-- R377: LCFG q. -/
def State.writeLcfg (s : State) (q : Nat) (v : Word) : Wrote :=
  if bits v.toNat 39 32 > 8 then refuse51 s
  else { s := s.modFab (fun f => if h : q < 4 then
      { f with qmax := f.qmax.set q (bits v.toNat 47 40), floor := f.floor.set q (bits v.toNat 39 32) } else f) }

/-- R394: RBASE and RLEN, while V = 0 and DRAIN = 0. -/
def State.writeRegion (s : State) (who : Who) (h o : Nat) (v : Word) : Wrote :=
  let r := s.region h
  if o = 0x10 then s.writeRctl who h v
  else if !s.mayRegion who h || r.v || r.drain then refuse51 s
  else if o = 0 then { s := s.setRegion h { r with base := v } }
  else if o = 8 then { s := s.setRegion h { r with len := bits v.toNat 39 0 } }
  else refuse51 s

/-- R408, R410: a counter's registers. -/
def State.writeCounterReg (s : State) (who : Who) (i o : Nat) (v : Word) : Wrote :=
  if o = 0 then s.writeCounter who i v
  else if o = 8 then
    let c := s.counter i
    { s := s.setCounter i { c with err := c.err && !v.getLsbD 63, sat := c.sat && !v.getLsbD 62, cfail := c.cfail && !v.getLsbD 61 } }
  else if o = 0x10 then { s := (s.counterAdd i v).startFired }
  else refuse51 s

/-- R409: two index ranges share an index. -/
def crosses (a b c d : Nat) : Bool := decide (a ≤ d) && decide (c ≤ b)

/-- R409: an object in use that a change of the ranges would take away. -/
def State.losesUsed (s : State) (q : Nat) (old new : Ranges) : Bool :=
  let out (f : Ranges → Bool) : Bool := f old && !f new
  let live (e : TEntry) : Bool := decide (e.state = 1 || e.state = 2)
  s.trg.entries.cells.any (fun c =>
    let e := c.2
    live e && e.part = q && (out (·.hasEntry c.1) || out (·.hasCounter e.tctr) || (e.cen && out (·.hasCounter e.cctr)) ||
      (e.kind = 3 && raPeer e.opb = s.pkg.peer.toNat && out (·.hasCounter (bits e.opb.toNat 11 0))) ||
      (e.kind = 4 && out (·.hasGroup (bits e.opb.toNat 7 0))))) ||
  s.trg.groups.cells.any (fun c =>
    let g := c.2
    out (·.hasGroup c.1) && (!g.locals.isEmpty || !g.arrived.cells.isEmpty || !g.colls.isEmpty))

/-- R409: TCFG0 and TCFG1. -/
def State.writeTcfg (s : State) (q o : Nat) (v : Word) : Wrote :=
  let old := s.trg.range q
  let n := v.toNat
  let new : Ranges :=
    if o = 0 then { old with en := v.getLsbD 63, glim := bits n 55 48, gbase := bits n 47 40, clim := bits n 35 24, cbase := bits n 11 0 }
    else { old with elim := bits n 29 16, ebase := bits n 13 0 }
  let clash := new.en && (List.range 4).any (fun r =>
    let y := s.trg.range r
    r ≠ q && y.en && (crosses new.gbase new.glim y.gbase y.glim || crosses new.cbase new.clim y.cbase y.clim ||
      crosses new.ebase new.elim y.ebase y.elim))
  if new.glim < new.gbase || new.clim < new.cbase || new.elim < new.ebase || clash || s.losesUsed q old new then refuse51 s
  else { s := s.modTrg (fun t => if h : q < 4 then { t with ranges := t.ranges.set q new } else t) }

/-- R428: GCFG, GCH0 and GCH1. -/
def State.writeGroup (s : State) (who : Who) (g o : Nat) (v : Word) : Wrote :=
  let x := s.group g
  let n := v.toNat
  let busy := !x.locals.isEmpty || !x.arrived.cells.isEmpty || !x.colls.isEmpty
  let kids (a : Nat) : Wrote :=
    { s := s.setGroup g { x with kids := Vector.ofFn (fun (i : Fin 8) =>
        if a ≤ i.val && i.val < a + 4 then bits n (12 * (i.val - a) + 11) (12 * (i.val - a)) else x.kids[i]) } }
  if o = 0x28 then s.writeGcon who g v
  else if !isHost who || busy then refuse51 s
  else if o = 0 then
    if v.getLsbD 63 && bits n 59 56 ≥ 8 then refuse51 s
    else { s := s.setGroup g { x with
      en := v.getLsbD 63, root := v.getLsbD 62, op := bits n 59 56, cmask := v.extractLsb' 48 8, localN := bits n 47 44
      parent := bits n 11 0 } }
  else if o = 8 then kids 0
  else if o = 0x10 then kids 4
  else refuse51 s

/-- What a store to a register of 0xF4 does. -/
def State.writePkg (s : State) (who : Who) (v : Word) : PkgReg → Wrote
  | .pkgid => s.hostOnly who (if s.anyTask then refuse51 s else { s := s.modPkg (fun p => { p with peer := v.extractLsb' 0 12 }) })
  | .feat _ => refuse51 s
  | .gtbase => s.writeGtbase who v
  | .facc q i => s.hostOnly who (s.writeFacc q i v)
  | .pcfg q => s.writePcfg who q v
  | .str q => s.hostOnly who (s.writeStr q v)
  | .cxlctl => s.hostOnly who (if (List.range 4).any (fun q => (s.part q).strEn) then refuse51 s
      else { s := (s.modPkg (fun p => { p with cxlWays := v.extractLsb' 16 2 })).mapTier })
  | .cxlcap => refuse51 s
  | .dpwr d => s.writeDpwr who d v
  | .tsens d => s.hostOnly who { s := s.writeTsens d v }
  | .pwrt => refuse51 s
  | .boot => refuse51 s
  | .fwlen => s.hostOnly who (if bits v.toNat 26 0 > 0x4000000 then refuse51 s
      else { s := s.modPkg (fun p => { p with fwlen := bits v.toNat 26 0 }) })
  | .fwgo => s.hostOnly who (if v.getLsbD 0 then { s := s.startImage } else { s := s })
  | .hmwin f => s.hostOnly who { s := s.modPkg (fun p =>
      if h : f < 5 then { p with hmwin := p.hmwin.set f (v.extractLsb' 36 12) } else p) }
  | .ring f o => s.hostOnly who (s.writeRing f o v)
  | .vlstat d => s.hostOnly who { s := s.modDie d (fun x => { x with
      vLost := (BitVec.ofNat 32 x.vLost &&& ~~~v.extractLsb' 16 32).toNat }) }
  | .router c o => s.notThread who (s.writeRouter c o v)
  | .peer i => s.hostOnly who { s := s.modPeer i (fun e =>
      let n := v.extractLsb' 0 12
      if e.peer = n then { e with en := v.getLsbD 63 } else { en := v.getLsbD 63, peer := n }) }
  | .port p o => s.hostOnly who (if o < 0x20 then s.writePmap p (o / 8) v else if o = 0x20 then s.writePlit who p v else refuse51 s)
  | .fctl => s.hostOnly who (s.writeFctl v)
  | .ccbase => s.hostOnly who (if s.fab.en then refuse51 s
      else { s := s.modFab (fun f => { f with ccbase := v &&& 0x0000FFFFFFE00000 }) })
  | .rtbase => s.hostOnly who (if s.fab.en then refuse51 s
      else { s := s.modFab (fun f => { f with rtbase := v &&& 0x0000FFFFFFFF8000 }) })
  | .tsync => s.hostOnly who { s := s.writeTsync v }
  | .lcfg q => s.hostOnly who (s.writeLcfg q v)
  | .mfree d => s.writeMfree who d v
  | .region h o => s.writeRegion who h o v
  | .counter i o => s.writeCounterReg who i o v
  | .tcfg q o => s.hostOnly who (s.writeTcfg q o v)
  | .entry _ _ => refuse51 s
  | .group g o => s.writeGroup who g o v

/-! ### Any register (R97, R98) -/

/-- A register of the spaces 0xF2, 0xF3 and 0xF4. -/
inductive AnyReg where
  | cluster (c off : Nat) (r : ClusterReg)
  | die (d : Nat) (r : DieReg)
  | pkg (r : PkgReg)
  deriving DecidableEq, Repr

/-- R97, R234, R261, R326: the register of an access; none where there is none (cause 0x04, SUB 1). -/
def anyRegAt (a : Word) : Option AnyReg :=
  let n := a.toNat
  let o := bits n 31 3 * 8
  if space a = 0xF2 then (if bits n 55 37 ≠ 0 then none else (clusterAt o).map (.cluster (bits n 36 32) o))
  else if space a = 0xF3 then (if bits n 55 34 ≠ 0 then none else (dieAt o).map (.die (bits n 33 32)))
  else if space a = 0xF4 then (if bits n 55 32 ≠ 0 then none else (pkgAt o).map .pkg)
  else none

/-- What a load of the whole register reads. -/
def State.readAny (s : State) : AnyReg → Word
  | .cluster c _ r => s.readCluster c r
  | .die d r => s.readDie d r
  | .pkg r => s.readPkg r

/-- The bits of a register that a write of 1 clears. -/
def AnyReg.w1c : AnyReg → Word
  | .cluster _ _ (.ctl o) => if o = 0x20 then 0xFFFFFFFF else 0
  | .cluster _ _ (.cell _ o) => if o = 8 then 1 else 0
  | .cluster _ _ (.join _ o) => if o = 0 then 0x100000000 else 0x40000
  | .die _ (.core _ o) => if o = 0x18 then 0xFFFFFFFF else 0
  | .die _ (.channel _ o) => if o = 0 then 0x4000000000000000 else 0
  | .die _ (.vlog _ o) => if o = 0x18 then 0x8000000000000000 else 0
  | .pkg (.tsens _) => 0x2000000000000
  | .pkg (.ring _ o) => if o = 0x18 then 0xFFFFFFFF else 0
  | .pkg (.vlstat _) => 0x0000FFFFFFFF0000
  | .pkg (.router _ o) => if o = 0x20 then BitVec.allOnes 64 else 0
  | .pkg (.counter _ o) => if o = 8 then 0xE000000000000000 else 0
  | _ => 0

/-- R98: the 8-byte store that a store of `n` bytes acts as. -/
def State.widened (s : State) (a : Word) (r : AnyReg) (n : Nat) (v : Word) : Word :=
  if n = 8 then v
  else
    let cur := s.readAny r &&& ~~~r.w1c
    let w := v &&& 0xFFFFFFFF
    if a.getLsbD 2 then (cur &&& 0xFFFFFFFF) ||| (w <<< 32) else (cur &&& 0xFFFFFFFF00000000) ||| w

/-- R98: the part of a register that a load of `n` bytes reads, zero-extended. -/
def loaded (a : Word) (n : Nat) (v : Word) : Word :=
  if n = 8 then v else if a.getLsbD 2 then v >>> 32 else v &&& 0xFFFFFFFF

/-- R263: a store that a thread makes to a start or post register is refused here; its own rules accept it. -/
def State.writeAny (s : State) (who : Who) (v : Word) : AnyReg → Wrote
  | .cluster c o r => s.writeCluster who c o v r
  | .die d r => s.writeDie who d v r
  | .pkg r => s.writePkg who v r

/-- R234, R261, R326, R351, R410: a thread's load of a register is refused with cause 0x05, SUB 3. -/
def State.loadForeign (s : State) (tid : Nat) (a : Word) : Bool :=
  s.foreign tid a ||
  (match s.resourcePart a with
   | some q => space a = 0xF4 && decide (q ≠ s.partOf tid) && !(0x300000 ≤ bits a.toNat 31 0 && bits a.toNat 31 0 < 0x400000)
   | none => false)

/-- R260: the register belongs to a poisoned object. -/
def State.poisonedReg (s : State) : AnyReg → Bool
  | .cluster c o r => r.isObject && (s.cluster c).poisoned.contains (objectBase o)
  | _ => false

/-- R98: a store to a register by a requester, of a whole doubleword. -/
def State.storeReg (s : State) (who : Who) (a : Word) (v : Word) : State :=
  match anyRegAt a with
  | some r => s.store who a (s.writeAny who v r)
  | none =>
    match who with
    | .host _ => s.hostAnswer 1
    | _ => s

/-- R98, R349: a store of `n` bytes to a register; one that is not naturally aligned is not accepted. -/
def State.storeSized (s : State) (who : Who) (addr : Word) (n : Nat) (v : Word) : State :=
  if addr.toNat % n ≠ 0 then
    match who with
    | .host _ => s.hostAnswer 1
    | _ => s
  else
    let a := addr &&& ~~~7
    s.storeReg who a (match anyRegAt a with
      | some r => s.widened addr r n v
      | none => v)

/-- R98: a store of eight bytes, or of four, to a register that has no event of its own. -/
def execRegisterWrite (who : Who) (addr : Word) (value : Stored) (s : State) : Out :=
  .next (match value with
    | .word v => s.storeSized who addr 4 (v.zeroExtend 64)
    | .double v => s.storeSized who addr 8 v)

/-! ### The host's register window (R349) -/

/-- R349: what an offset of BAR 0 maps. -/
def barAddr (off : Nat) : Option Word :=
  let at_ (space o : Nat) : Option Word := some (BitVec.ofNat 64 (space * 2 ^ 56 + o))
  if off < 0x4000000 then at_ 0xF4 off
  else if off < 0x5000000 then at_ 0xF3 ((off - 0x4000000) / 0x400000 * 2 ^ 32 + (off - 0x4000000) % 0x400000)
  else if 0x6000000 ≤ off && off < 0x8000000 then at_ 0xF2 ((off - 0x6000000) / 0x100000 * 2 ^ 32 + off % 0x100000)
  else none

/-- R98, R349, R350: a host's read of a register. -/
def State.hostRead (s : State) (fn : Nat) (addr : Word) (n : Nat) : State :=
  match anyRegAt addr with
  | none => s.hostAnswer 1
  | some r =>
    match s.hostRefusal fn false addr with
    | 0 =>
      if s.poisonedReg r then s.hostAnswer 2
      else (s.modPkg (fun p => { p with hostData := loaded addr n (s.readAny r) })).hostAnswer 0
    | 1 => s.hostAnswer 1
    | _ => s.refuseHost fn addr .load

/-- R349: an access through the register window. -/
def State.hostRegister (s : State) (fn : Nat) (isWrite : Bool) (off size : Nat) (data : List Byte) : State :=
  match barAddr off with
  | none => s.hostAnswer 1
  | some a =>
    if size ≠ 4 && size ≠ 8 then s.hostAnswer 1
    else if isWrite then s.storeSized (.host fn) a size (BitVec.ofNat 64 (leNat (data.take size)))
    else s.hostRead fn a size

/-! ### The host's memory and staging windows (R349, R350) -/

/-- R349: an accepted size and alignment. -/
def hostSize (isWrite : Bool) (off size : Nat) : Bool :=
  off % size = 0 && (size = 1 || size = 2 || size = 4 || size = 8 || (size = 64 && isWrite))

/-- The low 64 bits that a read returns. -/
def readValue (bs : List Byte) : Word := BitVec.ofNat 64 (leNat bs)

/-- R349, R359: an access through the memory window, at its home. -/
def State.hostMemory (s : State) (fn : Nat) (isWrite : Bool) (off size : Nat) (data : List Byte) : State :=
  let base := if h : fn < 5 then s.pkg.hmwin[fn].toNat else 0
  let pa := base * 2 ^ 36 + off
  if !hasHome pa then s.hostAnswer 1
  else if s.watched none pa size then s
  else if isWrite then
    match s.homeStore (.host fn) .store pa (fn - 1) (data.take size) 0 with
    | .ok s _ => s.hostAnswer 0
    | .err s _ => s.hostAnswer 2
    | .wait => s
  else
    match s.homeLoad (.host fn) .load pa size (fn - 1) 0 with
    | .ok s bs => (s.modPkg (fun p => { p with hostData := readValue bs })).hostAnswer 0
    | .err s _ => s.hostAnswer 2
    | .wait => s

/-- R349: the staging window of PF0, during bring-up only. -/
def State.hostStaging (s : State) (isWrite : Bool) (off size : Nat) (data : List Byte) : State :=
  if off ≥ 0x4000000 || s.pkg.stage = 6 then s.hostAnswer 1
  else if isWrite then
    (s.modPkg (fun p => { p with staging := p.staging.writeBytes off (data.take size) })).hostAnswer 0
  else (s.modPkg (fun p => { p with hostData := readValue (p.staging.readBytes off size) })).hostAnswer 0

/-- R349, R360, R366: a host access. Offsets from 2^36 on stand for the staging window, and those from 2^37 on for the register
window (DESIGN CHOICE, log 12). -/
def execHostMemoryAccess (fn : Nat) (isWrite : Bool) (off size : Nat) (data : List Byte) (s : State) : Out :=
  .next (
    if !hostSize isWrite off size || fn ≥ 5 then s.hostAnswer 1
    else if off ≥ 2 ^ 37 then s.hostRegister fn isWrite (off - 2 ^ 37) size data
    else if off ≥ 2 ^ 36 then (if fn = 0 then s.hostStaging isWrite (off - 2 ^ 36) size data else s.hostAnswer 1)
    else if s.pkg.stage = 0xFF || (fn ≠ 0 && (s.part (fn - 1)).tdi = 3) then s.hostAnswer 1
    else s.hostMemory fn isWrite off size data)

end Sys2Proof.Machine
end

