-- ==== Sys2Proof/Machine/Memops.lean ====
section
/-! DEFINITION. Memory access by threads (R97–R122): requests on their way and their answers, loads and stores of
every form, atomics, fences, the SC network (R316–R318) and the cache operations. -/

namespace Sys2Proof.Machine

/-! ### How a memory instruction ends -/

/-- R24, R101: an instruction of `len` bytes and L = `look`, which writes the registers of codes `dests`, ends with what
its accesses brought back. -/
def State.ended (s : State) (len look : Nat) (dests : List Nat) (d : Did Unit) : Out :=
  match d with
  | .ok s' _ => .next (s'.advance len)
  | .err s' t => s'.fail len look dests t
  | .wait => .next { s with stalled := true }

/-- What an instruction-level check gives, as an access. -/
def didOf (s : State) : Except Stop State → Did Unit
  | .ok s' => .ok s' ()
  | .error (.trap t) => .err s t
  | .error _ => .wait

/-! ### Pages of other packages (R403) -/

/-- A piece of an access to another package's page: a line that the die's cache serves, or bytes to ask for. -/
inductive FarPiece where
  | hit (bytes : List Byte)
  /-- The line is fetched whole: its address, and where the wanted bytes lie in it. -/
  | line (pa off n : Nat)
  | bytes (pa n : Nat)

/-- R268, R403: whether the access of a request may use the remote-data cache. -/
def Request.caches (r : Request) (l : Leaf) : Bool := !r.engine && l.mode ≠ 1

/-- R306: an earlier load of the thread from the line is on its way to another package, and may bring a newer value than the
die's copy holds. -/
def State.lineAsked (s : State) (r : Request) (l : Leaf) : Bool :=
  s.reqs.any (fun q => q.tid = r.tid && q.id < r.id && !q.engine && q.sent && q.resp.isNone && !q.op.writes &&
    q.tgts.any (fun t => match t with
      | .far k => k.peer = l.peer && k.pa / 256 ≤ l.pa / 256 && l.pa / 256 ≤ (k.pa + q.n - 1) / 256
      | _ => false))

/-- R306, R403: the pieces of a load of `n` bytes through a leaf; the die's copy serves none while an earlier load of the
thread from the line is not answered. -/
def State.farLoads (s : State) (r : Request) (l : Leaf) (n : Nat) : List FarPiece :=
  (linePieces (n / 256 + 2) l.pa n).map (fun p =>
    if r.caches l then
      match s.rdcUsable (dieOf (coreOf r.tid)) { l with pa := p.1 } (s.thread r.tid).acqEpoch with
      | some x =>
        if s.lineAsked r { l with pa := p.1 } then .line (p.1 / 256 * 256) (p.1 % 256) p.2
        else .hit ((x.bytes.toList.drop (p.1 % 256)).take p.2)
      | none => .line (p.1 / 256 * 256) (p.1 % 256) p.2
    else .bytes p.1 p.2)

/-- R383, R403: a page access to another package; `at_` is where its part begins in the request. -/
def State.askPage (s : State) (r : Request) (l : Leaf) (part total at_ : Nat) (pa : Nat) (fill : Bool) (x y : Nat)
    (f : Flit) : State :=
  s.addOp { id := 0, kind := .page, owner := .request r.id part, part := s.partOf r.tid, peer := l.peer
            core := coreOf r.tid, hdl := 0xFFF, off := pa, len := at_, d := (s.die (dieOf (coreOf r.tid))).rdcEpoch.toNat
            x := BitVec.ofNat 64 x, y := BitVec.ofNat 64 y, got := total, stopped := fill, deadline := s.ftoFromNow
            pc := r.pc, order := r.order, count := 1
            flits := [{ f with hdl := 0xFFF, off := pa % 2 ^ 40, aux := pa / 2 ^ 40 }] }

/-- R403: a PLD; its payload carries the number of the request, for the answer (DESIGN CHOICE, log 6). A thread's load
through mode 1 may bring a newer value than a copy of its line that another mode of the page has left, so that the copy goes
(R306; DESIGN CHOICE, log 22). -/
def State.askLoad (s : State) (r : Request) (l : Leaf) (part total at_ : Nat) : FarPiece → State
  | .hit bs => s.answerPart r.id part total (.data bs)
  | .line pa off n =>
    s.askPage r l part total at_ pa true off n
      { typ := 0x08, len := 255, payload := leBytes 2 (s.nextId % 65536) }
  | .bytes pa n =>
    let s := if r.engine then s else s.rdcForget (dieOf (coreOf r.tid)) { l with pa := pa }
    s.askPage r l part total at_ pa false 0 n
      { typ := 0x08, len := n - 1, payload := leBytes 2 (s.nextId % 65536) }

/-- R108, R269, R402, R403: a piece of a store goes out as PST (or FADD); the die's copy follows, whatever the mode of the page
through which a thread stores, and a line on its way is not kept. -/
def State.askStore (s : State) (r : Request) (l : Leaf) (part total : Nat) (add : Bool) (pa : Nat) (bs : List Byte) : State :=
  let d := dieOf (coreOf r.tid)
  let s := if !r.engine && !add then s.rdcUpdate d { l with pa := pa } bs else s
  let s := s.rdcForsake d (fun o => o.peer = l.peer && o.off / 256 = pa / 256)
  s.askPage r l part total 0 pa false 0 0 { typ := if add then 0x07 else 0x09, len := bs.length - 1, payload := bs }

/-! ### A request at its target (R101) -/

/-- The parts of a request: where each begins in it, and its target. -/
def Request.places (r : Request) : List (Nat × Target) := numberedBy 8 0 r.tgts
where
  /-- Numbered in steps. -/
  numberedBy (k : Nat) : Nat → List Target → List (Nat × Target)
    | _, [] => []
    | i, t :: l => (i, t) :: numberedBy k (i + k) l

/-- How many pieces a part of a request has. -/
def Request.pieceCount (r : Request) : Target → Nat
  | .far l => (linePieces (r.n / 256 + 2) l.pa r.n).length
  | _ => 1

/-- R101: one part at a target of this package. -/
def State.servePart (s : State) (r : Request) (at_ : Nat) (t : Target) : Did Resp :=
  let va := r.va + BitVec.ofNat 64 at_
  match r.op with
  | .load _ => (s.loadAt r.tid .load t va r.n).bind fun s bs => .ok s (.data bs)
  | .fetch => (s.loadAt r.tid .load t va r.n).bind fun s bs => .ok s (.data bs)
  | .store bs => (s.storeAt r.tid .store t va bs).bind fun s _ => .ok s .done
  | .fadd v => (s.addAt r.tid t va v).bind fun s _ => .ok s .done

/-- R403: one part at another package: its pieces are asked for, from number `part` on. -/
def State.sendPart (s : State) (r : Request) (at_ part total : Nat) (l : Leaf) : State :=
  let ps := linePieces (r.n / 256 + 2) l.pa r.n
  let stores (add : Bool) (bs : List Byte) : State :=
    ((ps.foldl (fun (a : State × Nat) p =>
      (a.1.askStore r l a.2 total add p.1 ((bs.drop (p.1 - l.pa)).take p.2), a.2 + 1)) (s, part))).1
  match r.op with
  | .store bs => stores false bs
  | .fadd v => stores true (leBytes 4 v)
  | _ => ((s.farLoads r l r.n).foldl (fun (a : State × Nat) p => (a.1.askLoad r l a.2 total at_ p, a.2 + 1)) (s, part)).1

/-- The parts of a request in turn; the first refusal at a target ends it. -/
def State.serveParts (s : State) (r : Request) (total : Nat) : Nat → List (Nat × Target) → Did Unit
  | _, [] => .ok s ()
  | part, (at_, .far l) :: rest =>
    let va := r.va + BitVec.ofNat 64 at_
    let q := s.partOf r.tid
    if s.migrating q va || s.watchedFar l.peer l.pa r.n then .wait
    else
      let s := s.countAccess (dieOf (coreOf r.tid)) va l
      if !s.hasRoute q l.peer && (s.farLoads r l r.n).any (fun p => match p with | .hit _ => false | _ => true) then
        .ok (s.answerPart r.id part total (.err { code := 0x10, sub := 5, eval := va })) ()
      else
        ((s.modReq r.id (fun r => { r with sent := true })).sendPart r at_ part total l).serveParts r total
          (part + r.pieceCount (.far l)) rest
  | part, (at_, t) :: rest =>
    match s.servePart r at_ t with
    | .wait => .wait
    | .err s e => .ok (s.answerPart r.id part total (.err e)) ()
    | .ok s a => (s.answerPart r.id part total a).serveParts r total (part + 1) rest

/-- R101, R315: a request reaches its target in its turn. -/
def State.serve (s : State) (r : Request) : State :=
  if r.resp.isSome || r.sent || s.behind r.tid r.id r.n r.tgts then s
  else
    let total := (r.tgts.map r.pieceCount).foldl (· + ·) 0
    match s.serveParts r total 0 r.places with
    | .ok s _ => s
    | .err s t => s.modReq r.id (fun r => { r with resp := some (.err t) })
    | .wait => s

/-- R101. -/
def execHomeAccess (req : Nat) (s : State) : Out :=
  match s.req req with
  | some r => .next (if r.remoteScratch then s else s.serve r)
  | none => .next s
/-- R131. -/
def execRemoteScratchAccess (req : Nat) (s : State) : Out :=
  match s.req req with
  | some r => .next (if r.remoteScratch then s.serve r else s)
  | none => .next s

/-! ### Answers (R102) -/

/-- The value of `n` bytes in a register (R105). -/
def valueOf (signed : Bool) (n : Nat) (bs : List Byte) : Word :=
  let v := BitVec.ofNat 64 (leNat bs)
  if n = 8 || !signed then v else (v <<< (64 - 8 * n)).sshiftRight (64 - 8 * n)

/-- R105, R110: the registers of the given codes take the bytes in turn. -/
def Thread.takeBytes (t : Thread) (signed : Bool) (n : Nat) : List Nat → List Byte → Thread
  | [], _ => t
  | k :: r, bs => (t.writeCode k (valueOf signed n (bs.take n))).takeBytes signed n r (bs.drop n)

/-- R102: a store waits for the answer of a request. -/
def State.storeAwaits (s : State) (r : Request) : Bool := (s.thread r.tid).unacked.any (fun u => u.1 = r.id)

/-- R102: the data of a load in flight returns. -/
def execLoadDataReturn (req : Nat) (s : State) : Out :=
  match s.req req with
  | none => .next s
  | some r =>
    match r.resp, r.op with
    | some (.data bs), .load signed =>
      if r.engine || r.dests.isEmpty then .next s
      else .next (((s.dropReq req).modThread r.tid (fun t => t.takeBytes signed r.n r.dests bs)).land r.tid req)
    | _, _ => .next s

/-- R102. -/
def execStoreAcknowledgement (req : Nat) (s : State) : Out :=
  match s.req req with
  | none => .next s
  | some r =>
    if r.resp = some .done && s.storeAwaits r then .next ((s.dropReq req).acknowledge r.tid req) else .next s

/-- R102, R322: the die's copies of the lines that a refused store to another package was to write: a later load gets what
the target holds. -/
def State.dropRefused (s : State) (r : Request) : State :=
  if r.op.writes then
    r.tgts.foldl (fun s t => match t with
      | .far l => (linePieces (r.n / 256 + 2) l.pa r.n).foldl
          (fun s p => s.rdcDrop (dieOf (coreOf r.tid)) { l with pa := p.1 }) s
      | _ => s) s
  else s

/-- R102: a refusal or uncorrectable data comes back. -/
def execErrorResponse (req : Nat) (s : State) : Out :=
  match s.req req with
  | none => .next s
  | some r =>
    match r.resp with
    | some (.err t) =>
      let s := s.dropRefused r
      if s.storeAwaits r then
        let handler := (s.thread r.tid).unacked.any (fun u => u.1 = r.id && u.2)
        .next (((s.dropReq req).acknowledge r.tid req).deferFault r.tid t r.pc r.order handler)
      else if r.engine || (r.dests.isEmpty && ((s.thread r.tid).flight req).isNone) then .next s
      else .next ((s.dropReq req).flightFault r.tid req t)
    | _ => .next s

/-! ### Registers (R98) -/

/-- R98, R104, R260: a thread's load of a register. -/
def State.loadReg (s : State) (va : Word) (n : Nat) : Did (List Byte) :=
  match anyRegAt va with
  | none => .err s { code := 0x04, sub := 1, eval := va }
  | some r =>
    if s.loadForeign s.cur va then .err s { code := 0x05, sub := 3, eval := va }
    else if s.poisonedReg r then .err s { code := 0x0D, eval := va }
    else .ok s (leBytes n (loaded va n (s.readAny r)).toNat)

/-- R286, R396, R430: a register store whose acknowledgement has to wait is in flight under its L. -/
def State.heldStore (s : State) (old : List (Nat × Bool)) (look : Nat) : State :=
  if look = 15 then s
  else s.modMe (fun t => { t with
    flights := t.flights ++ ((t.unacked.filter (fun u => !old.contains u)).map (fun u =>
      ({ id := u.1, kind := .memory, left := some look, handler := t.mode, pc := t.pc, order := s.order } : Flight))) })

/-- R275, R282: a store to a start register or to the post register of the thread's die behaves as L = 0. -/
def State.storeLook (s : State) (va : Word) (look : BitVec 4) : BitVec 4 :=
  match anyRegAt va with
  | some (.die _ (.start _)) => 0
  | some (.die d .post) => if d = s.myDie then 0 else look
  | _ => look

/-- R98, R261, R263, R275, R282: a thread's store to a register. The start registers of another partition's die, and the
post register of any other die, refuse it late (R102). -/
def State.storeRegister (s : State) (va : Word) (n : Nat) (v : Word) (look : Nat) : Did Unit :=
  match anyRegAt va with
  | none => .err s { code := 0x04, sub := 1, eval := va }
  | some r =>
    let who : Who := .thread s.myCore (slotOf s.cur)
    let w := s.widened va r n v
    match r with
    | .die d (.start ch) =>
      if s.foreign s.cur va then .ok ((refuse53 s).report who va) ()
      else if n = 4 then .ok ((refuse51 s).report who va) ()
      else didOf s (s.startCopy s.cur d ch w va)
    | .die d .post =>
      if s.foreign s.cur va then .ok ((refuse53 s).report who va) ()
      else if d ≠ s.myDie then .ok ((refuse51 s).report who va) ()
      else didOf s (s.postStream s.cur d w va)
    | _ => .ok ((s.store who va (s.writeAny who w r)).heldStore s.me.unacked look) ()

/-! ### Loads (R105–R110) -/

/-- The checked parts of an access of `k` parts of `n` bytes: the targets, or the first fault at the issuing core. -/
def State.partsOf (s : State) (acc : Acc) (va : Word) (n : Nat) (single : Bool) : Nat → Except Trap (List Target)
  | 0 => .ok []
  | k + 1 =>
    match s.resolve s.cur acc va n single with
    | .error t => .error t
    | .ok t =>
      match s.partsOf acc (va + 8) n single k with
      | .error e => .error e
      | .ok r => .ok (t :: r)

/-- The targets of the parts that pass the checks at the issuing core. -/
def State.goodParts (s : State) (acc : Acc) (va : Word) (n : Nat) (single : Bool) (k : Nat) : List Target :=
  (List.range k).filterMap (fun i =>
    match s.resolve s.cur acc (va + BitVec.ofNat 64 (8 * i)) n single with
    | .ok t => some t
    | .error _ => none)

/-- The part of a load leaves for its target: it is answered later. -/
def State.leaves (s : State) (look : Nat) : Target → Bool
  | .far _ => true
  | .mem _ => look ≠ 0
  | .scratch c _ => look ≠ 0 && c ≠ s.myCore
  | .reg => false

/-- R110: the parts are read in turn. -/
def State.readParts (s : State) (va : Word) (n : Nat) (single : Bool) : Nat → Did (List Byte)
  | 0 => .ok s []
  | k + 1 =>
    match s.resolve s.cur .load va n single with
    | .error t => .err (s.reportFault s.myDie t) t
    | .ok tgt =>
      (match tgt with
       | .reg => s.loadReg va n
       | _ => s.loadAt s.cur .load tgt va n).bind fun s bs =>
        (s.readParts (va + 8) n single k).bind fun s r => .ok s (bs ++ r)

/-- R50, R101: a load in flight. -/
def State.launchLoad (s : State) (look : Nat) (codes : List Nat) (va : Word) (n k : Nat) (signed : Bool)
    (tgts : List Target) : State :=
  let r : Request := { id := s.nextId, tid := s.cur, op := .load signed, va := va, n := n, k := k, pc := s.me.pc
                       order := s.order, dests := codes, tgts := tgts, walks := s.missesOf s.cur va k
                       remoteScratch := tgts.any (fun t => match t with | .scratch _ _ => true | _ => false) }
  let s := s.launch .memory look [] codes
  { s with reqs := s.reqs ++ [r] }

/-- R105–R110: a load of `k` parts of `n` bytes into the registers of the given codes. What the package holds is read
at issue when L = 0. -/
def State.loadOp (s : State) (codes : List Nat) (va : Word) (n k : Nat) (signed : Bool) (look : Nat) : Did Unit :=
  let single : Bool := k = 1
  let tgts := s.goodParts .load va n single k
  if s.scPending || (tgts.any (s.leaves look) && s.walkerFull s.cur (s.missesOf s.cur va k)) then .wait
  else if tgts.any (s.leaves look) then
    match s.partsOf .load va n single k with
    | .error t => .err (s.reportFault s.myDie t) t
    | .ok l => .ok (s.launchLoad look codes va n k signed l) ()
  else if s.behind s.cur s.nextId n tgts then .wait
  else (s.readParts va n single k).bind fun s bs => .ok (s.modMe (fun t => t.takeBytes signed n codes bs)) ()

/-- R105: a load of one register. -/
def State.load (s : State) (len : Nat) (d : Reg) (va : Word) (n : Nat) (signed : Bool) (look : BitVec 4) : Out :=
  s.ended len look.toNat [s.me.code d] (s.loadOp [s.me.code d] va n 1 signed look.toNat)

/-! ### Stores (R102, R105–R110) -/

/-- R102: one part of a store that passed its checks: performed, with its refusal late; to another package it
leaves. -/
def State.putPart (s : State) (acc : Acc) (look : Nat) (va : Word) (bs : List Byte) (tgt : Target) : Did Unit :=
  let r : Request := { id := s.nextId, tid := s.cur, op := .store bs, va := va, n := bs.length, pc := s.me.pc
                       order := s.order, tgts := [tgt], walks := if tgt.isFar then s.missesOf s.cur va 1 else 0 }
  let unacked (s : State) (r : Request) : State :=
    { s.modMe (fun t => { t with unacked := t.unacked ++ [(r.id, t.mode)] }) with
      reqs := s.reqs ++ [r], nextId := s.nextId + 1 }
  match tgt with
  | .far _ => if s.walkerFull s.cur r.walks then .wait else .ok (unacked s r) ()
  | _ =>
    match s.storeAt s.cur acc tgt va bs with
    | .wait => .wait
    | .ok s _ => .ok (if look = 0 then s else unacked s { r with id := s.nextId, resp := some .done }) ()
    | .err s t =>
      .ok (if look = 0 then s.deferFault s.cur t s.me.pc s.order s.me.mode
        else unacked s { r with id := s.nextId, resp := some (.err t) }) ()

/-- R110: the parts are written in turn. -/
def State.putParts (s : State) (acc : Acc) (look : Nat) (va : Word) : List (Target × List Byte) → Did Unit
  | [] => .ok s ()
  | (t, bs) :: r => (s.putPart acc look va bs t).bind fun s _ => s.putParts acc look (va + 8) r

/-- R102, R105–R110: a store of parts of `n` bytes: every check at the issuing core comes before any byte. -/
def State.storeOp (s : State) (va : Word) (n : Nat) (vs : List Word) (look : Nat) : Did Unit :=
  let single : Bool := vs.length = 1
  if s.scPending then .wait
  else match s.partsOf .store va n single vs.length with
  | .error t =>
    .err (s.reportFault s.myDie t) t
  | .ok [.reg] => s.storeRegister va n (vs.headD 0) look
  | .ok tgts =>
    if s.behind s.cur s.nextId n (tgts.filter (fun t => match t with | .far _ => false | _ => true)) then .wait
    else s.putParts .store look va (tgts.zip (vs.map (fun v => leBytes n v.toNat)))

/-- R105: a store of one register. -/
def State.put (s : State) (len : Nat) (va : Word) (n : Nat) (v : Word) (look : BitVec 4) : Out :=
  s.ended len (s.storeLook va look).toNat [] (s.storeOp va n [v] (s.storeLook va look).toNat)

/-! ### The load and store instructions -/

/-- R38, R39. -/
def execShortLdReg (d r : Reg) (s : State) : Out := s.load 2 d (s.rd r) 8 true 0
/-- R38, R39. -/
def execShortLdOff (d : Reg) (i : BitVec 5) (s : State) : Out := s.load 2 d (s.rd d + (i.zeroExtend 64 <<< 3)) 8 true 0
/-- R38, R39. -/
def execShortStReg (d r : Reg) (s : State) : Out := s.put 2 (s.rd d) 8 (s.rd r) 0
/-- R38, R39. -/
def execShortStImm (d : Reg) (i : BitVec 5) (s : State) : Out := s.put 2 (s.rd d) 8 (i.signExtend 64) 0

/-- R105. -/
def execLdB (d a : Reg) (o : BitVec 8) (L : BitVec 4) (s : State) : Out := s.load 4 d (offset (s.rd a) 1 o) 1 true L
/-- R105. -/
def execLdH (d a : Reg) (o : BitVec 8) (L : BitVec 4) (s : State) : Out := s.load 4 d (offset (s.rd a) 2 o) 2 true L
/-- R105. -/
def execLdW (d a : Reg) (o : BitVec 8) (L : BitVec 4) (s : State) : Out := s.load 4 d (offset (s.rd a) 4 o) 4 true L
/-- R105. -/
def execLdD (d a : Reg) (o : BitVec 8) (L : BitVec 4) (s : State) : Out := s.load 4 d (offset (s.rd a) 8 o) 8 true L
/-- R105. -/
def execLdBu (d a : Reg) (o : BitVec 8) (L : BitVec 4) (s : State) : Out := s.load 4 d (offset (s.rd a) 1 o) 1 false L
/-- R105. -/
def execLdHu (d a : Reg) (o : BitVec 8) (L : BitVec 4) (s : State) : Out := s.load 4 d (offset (s.rd a) 2 o) 2 false L
/-- R105. -/
def execLdWu (d a : Reg) (o : BitVec 8) (L : BitVec 4) (s : State) : Out := s.load 4 d (offset (s.rd a) 4 o) 4 false L
/-- R105. -/
def execStB (d a : Reg) (o : BitVec 8) (L : BitVec 4) (s : State) : Out :=
  s.put 4 (offset (s.rd a) 1 o) 1 (s.rd d) L
/-- R105. -/
def execStH (d a : Reg) (o : BitVec 8) (L : BitVec 4) (s : State) : Out :=
  s.put 4 (offset (s.rd a) 2 o) 2 (s.rd d) L
/-- R105. -/
def execStW (d a : Reg) (o : BitVec 8) (L : BitVec 4) (s : State) : Out :=
  s.put 4 (offset (s.rd a) 4 o) 4 (s.rd d) L
/-- R105. -/
def execStD (d a : Reg) (o : BitVec 8) (L : BitVec 4) (s : State) : Out :=
  s.put 4 (offset (s.rd a) 8 o) 8 (s.rd d) L

/-- R105: bytes of a size code: 0 b, 1 h, 2 w, 3 d, 4 bu, 5 hu, 6 wu. -/
def sizeOf (z : BitVec 3) : Nat := 2 ^ (z.toNat % 4)
/-- R106. -/
def execLdx (d : Reg) (k : BitVec 2) (a b : Reg) (z : BitVec 3) (L : BitVec 4) (s : State) : Out :=
  s.load 4 d (scaled (s.rd a) (s.rd b) k) (sizeOf z) (z.toNat < 4) L
/-- R106. -/
def execStx (d : Reg) (k : BitVec 2) (a b : Reg) (z : BitVec 3) (L : BitVec 4) (s : State) : Out :=
  s.put 4 (scaled (s.rd a) (s.rd b) k) (sizeOf z) (s.rd d) L

/-- R109: the group of `k` registers from d on, none when d is not a multiple of k. -/
def regGroup (d : Reg) (k : Nat) : Option (List Reg) :=
  if d.toNat % k = 0 then some ((List.range k).map (fun i => d + BitVec.ofNat 5 i)) else none
/-- R109, R110: a load of a group. -/
def State.loadGroup (s : State) (d a : Reg) (o : BitVec 8) (k : Nat) (L : BitVec 4) : Out :=
  match regGroup d k with
  | none => s.finish 4 (.error s.badOperand)
  | some g => s.ended 4 L.toNat (g.map s.me.code) (s.loadOp (g.map s.me.code) (offset (s.rd a) 8 o) 8 k true L.toNat)
/-- R109, R110: a store of a group. -/
def State.storeGroup (s : State) (d a : Reg) (o : BitVec 8) (k : Nat) (L : BitVec 4) : Out :=
  match regGroup d k with
  | none => s.finish 4 (.error s.badOperand)
  | some g => s.ended 4 L.toNat [] (s.storeOp (offset (s.rd a) 8 o) 8 (g.map s.rd) L.toNat)

/-- R109, R110. -/
def execLdp (d a : Reg) (o : BitVec 8) (L : BitVec 4) (s : State) : Out := s.loadGroup d a o 2 L
/-- R109, R110. -/
def execLdq (d a : Reg) (o : BitVec 8) (L : BitVec 4) (s : State) : Out := s.loadGroup d a o 4 L
/-- R109, R110. -/
def execStp (d a : Reg) (o : BitVec 8) (L : BitVec 4) (s : State) : Out := s.storeGroup d a o 2 L
/-- R109, R110. -/
def execStq (d a : Reg) (o : BitVec 8) (L : BitVec 4) (s : State) : Out := s.storeGroup d a o 4 L

/-! ### Atomics (R111–R114) -/

/-- Scopes 4 and 5 reach the package (R47). -/
def wide (sc : BitVec 3) : Bool := 4 ≤ sc.toNat
/-- R309: orders 1 and 3 acquire. -/
def acquires (o : BitVec 2) : Bool := o = 1 || o = 3

/-- R111: the new value of an operation on `w` bits, or none for a cas that fails. -/
def amoNew (op w : Nat) (old x e : Nat) : Option Nat :=
  let sg (v : Nat) : Int := if v < 2 ^ (w - 1) then v else (v : Int) - 2 ^ w
  match op with
  | 0 => some x
  | 1 => some ((old + x) % 2 ^ w)
  | 2 => some (old &&& x)
  | 3 => some (old ||| x)
  | 4 => some (old ^^^ x)
  | 5 => some (if sg old ≤ sg x then old else x)
  | 6 => some (if sg old ≤ sg x then x else old)
  | 7 => some (min old x)
  | 8 => some (max old x)
  | _ => if old = e then some x else none

/-- R111–R114: an atomic of the thread in hand. -/
def State.amo (s : State) (op : Nat) (d : Reg) (sc : BitVec 3) (a b : Reg) (z : BitVec 1) (o : BitVec 2) : Out :=
  let n := if z = 0 then 4 else 8
  let va := s.rd a
  let low (v : Word) : Nat := v.toNat % 2 ^ (8 * n)
  s.ended 4 0 [] <|
    if s.scPending || (o ≠ 0 && !s.me.drained) || (2 ≤ o.toNat && wide sc && !s.settled s.cur) then .wait
    else match s.resolve s.cur .atomic va n with
    | .error t => .err (s.reportFault s.myDie t) t
    | .ok tgt =>
      if s.behind s.cur s.nextId n [tgt] then .wait
      else
        (s.atomicAt s.cur tgt va n (fun old => amoNew op (8 * n) old (low (s.rd b)) (low (s.rd d)))).bind fun s old =>
          let s := s.wr d (valueOf true n (leBytes n old))
          .ok (if acquires o && wide sc then s.acquire s.cur else s) ()

/-- R111. -/
def execAmoSwap (d : Reg) (sc : BitVec 3) (a b : Reg) (z : BitVec 1) (o : BitVec 2) (s : State) : Out := s.amo 0 d sc a b z o
/-- R111. -/
def execAmoAdd (d : Reg) (sc : BitVec 3) (a b : Reg) (z : BitVec 1) (o : BitVec 2) (s : State) : Out := s.amo 1 d sc a b z o
/-- R111. -/
def execAmoAnd (d : Reg) (sc : BitVec 3) (a b : Reg) (z : BitVec 1) (o : BitVec 2) (s : State) : Out := s.amo 2 d sc a b z o
/-- R111. -/
def execAmoOr (d : Reg) (sc : BitVec 3) (a b : Reg) (z : BitVec 1) (o : BitVec 2) (s : State) : Out := s.amo 3 d sc a b z o
/-- R111. -/
def execAmoXor (d : Reg) (sc : BitVec 3) (a b : Reg) (z : BitVec 1) (o : BitVec 2) (s : State) : Out := s.amo 4 d sc a b z o
/-- R111. -/
def execAmoMin (d : Reg) (sc : BitVec 3) (a b : Reg) (z : BitVec 1) (o : BitVec 2) (s : State) : Out := s.amo 5 d sc a b z o
/-- R111. -/
def execAmoMax (d : Reg) (sc : BitVec 3) (a b : Reg) (z : BitVec 1) (o : BitVec 2) (s : State) : Out := s.amo 6 d sc a b z o
/-- R111. -/
def execAmoMinu (d : Reg) (sc : BitVec 3) (a b : Reg) (z : BitVec 1) (o : BitVec 2) (s : State) : Out := s.amo 7 d sc a b z o
/-- R111. -/
def execAmoMaxu (d : Reg) (sc : BitVec 3) (a b : Reg) (z : BitVec 1) (o : BitVec 2) (s : State) : Out := s.amo 8 d sc a b z o
/-- R111. -/
def execAmoCas (d : Reg) (sc : BitVec 3) (a b : Reg) (z : BitVec 1) (o : BitVec 2) (s : State) : Out := s.amo 9 d sc a b z o

/-! ### Fences (R115–R117) -/

/-- R118, R316: an SC operation is announced in the window of this clock; it is in flight until its window is
delivered. -/
def State.announce (s : State) (look : Nat) (dests : List Nat) (o : ScOp) : State :=
  { s.launch .sc look [] dests with
    scOps := s.scOps ++ [{ o with tid := s.cur, window := s.clock / 8, flight := s.nextId, pc := s.me.pc, order := s.order }] }

/-- R116: the fence. One of order sc takes its place in the order of SC operations. -/
def execFence (sc : BitVec 3) (o : BitVec 2) (s : State) : Out :=
  s.finish 4 (
    if !s.me.drained || (o ≠ 0 && wide sc && !s.settled s.cur) then .error .wait
    else if o = 3 then .ok (s.announce 0 [] { tid := 0, window := 0, flight := 0, kind := 0, n := sc.toNat })
    else if o ≠ 1 && wide sc then .ok (s.acquire s.cur)
    else .ok s)

/-- R290: what qfence waits for of an enabled queue: a loader that is neither paused nor at its last tile, a storer that has
tiles to write. -/
def Pump.owes (p : Pump) : Bool := if p.role then p.c ≠ p.p else !p.paused && p.p ≠ p.nt

/-- R117: an operation that the thread in hand has in one of the queue classes of a mask; one of an engine beyond its core is
known by the dispatch that it was started under, wherever the thread runs now. -/
def State.queueBusy (s : State) (a b : Word) : Bool :=
  let c := s.core s.myCore
  let k := slotOf s.cur
  (a.getLsbD 0 && c.vq.any (fun v => v.slot = k)) ||
  (a.getLsbD 1 && c.mq.any (fun m => m.slot = k)) ||
  (a.getLsbD 2 && c.pumps.toList.any (fun p => p.en && p.slot = k && p.run = s.me.run && p.owes)) ||
  (a.getLsbD 3 && (List.range 64).any (fun ch =>
    b.getLsbD ch && (s.channel s.myDie ch).copies.any (fun x => x.run = some s.me.run))) ||
  (a.getLsbD 4 && s.dies.cells.any (fun d => d.2.streams.any (fun x => x.run = s.me.run))) ||
  (a.getLsbD 5 && (s.me.flights.any (fun f => f.kind = .fabric) ||
    s.fab.ops.any (fun o => match o.owner with | .thread t _ => t = s.cur | _ => false))) ||
  (a.getLsbD 6 && (s.me.flights.any (fun f => f.kind = .collective) ||
    s.trg.groups.cells.any (fun g => g.2.colls.any (fun x => x.run = some s.me.run))))

/-- R117. -/
def execQfence (a b : Reg) (s : State) : Out :=
  let x := s.rd a
  let y := s.rd b
  s.finish 4 (
    if x.toNat / 2 ^ 7 ≠ 0 || (y ≠ 0 && !x.getLsbD 3) then .error s.badOperand
    else if s.queueBusy x y then .error .wait
    else .ok s)

/-! ### The SC network (R118, R119, R316–R318) -/

/-- R118, R119, R318: an ld.sc or st.sc is checked, waits as the release point that it is, and is announced. -/
def State.scAccess (s : State) (acc : Acc) (look : BitVec 4) (dests : List Nat) (o : ScOp) : Out :=
  s.ended 4 look.toNat dests <|
    match s.resolve s.cur acc o.va o.n with
    | .error t => .err (s.reportFault s.myDie t) t
    | .ok _ => if s.settled s.cur then .ok (s.announce look.toNat dests o) () else .wait

/-- R118. -/
def State.scLoad (s : State) (d a : Reg) (o : BitVec 8) (n : Nat) (L : BitVec 4) : Out :=
  s.scAccess .scLoad L [s.me.code d]
    { tid := 0, window := 0, flight := 0, kind := 1, va := offset (s.rd a) n o, n := n, dest := s.me.code d }
/-- R118. -/
def State.scStore (s : State) (d a : Reg) (o : BitVec 8) (n : Nat) (L : BitVec 4) : Out :=
  s.scAccess .scStore L []
    { tid := 0, window := 0, flight := 0, kind := 2, va := offset (s.rd a) n o, n := n, data := leBytes n (s.rd d).toNat }

/-- R118. -/
def execLdScW (d a : Reg) (o : BitVec 8) (L : BitVec 4) (s : State) : Out := s.scLoad d a o 4 L
/-- R118. -/
def execLdScD (d a : Reg) (o : BitVec 8) (L : BitVec 4) (s : State) : Out := s.scLoad d a o 8 L
/-- R118. -/
def execStScW (d a : Reg) (o : BitVec 8) (L : BitVec 4) (s : State) : Out := s.scStore d a o 4 L
/-- R118. -/
def execStScD (d a : Reg) (o : BitVec 8) (L : BitVec 4) (s : State) : Out := s.scStore d a o 8 L

/-- R316: the order of SC operations within a window: core id, then slot. -/
def scBefore (a b : ScOp) : Bool :=
  coreOf a.tid < coreOf b.tid || (coreOf a.tid = coreOf b.tid && slotOf a.tid ≤ slotOf b.tid)

/-- R89: an SC access to another package leaves as a request under the number of its flight, in the mode in which it
issued. -/
def State.sendSc (s : State) (o : ScOp) (tgt : Target) : State :=
  let r : Request := { id := o.flight, tid := o.tid, op := if o.kind = 1 then .load true else .store o.data, va := o.va
                       n := o.n, pc := o.pc, order := o.order, dests := if o.kind = 1 then [o.dest] else [], tgts := [tgt] }
  let s := if o.kind = 2 then s.modThread o.tid (fun t => { t with unacked := t.unacked ++ [(o.flight, t.flightHandler o.flight)] }) else s
  { s with reqs := s.reqs ++ [r] }

/-- R317: an SC operation that acts at another package is not answered: the next one to leave waits, so that they reach
the peer in their order. -/
def State.scAway (s : State) : Bool :=
  s.reqs.any (fun r => r.resp.isNone && ((s.thread r.tid).flights.any (fun f => f.id = r.id && f.kind = .sc)))

/-- R317: one SC operation at its place in the order; none while it waits at its home. -/
def State.scAct (s : State) (o : ScOp) : Option State :=
  let gone (s : State) : State := { s with scOps := s.scOps.filter (fun x => x.flight ≠ o.flight) }
  let acq (s : State) : State := s.acquire o.tid
  if o.kind = 0 then
    some ((gone (if 4 ≤ o.n then acq s else s)).land o.tid o.flight)
  else
    match s.resolve o.tid (if o.kind = 1 then .scLoad else .scStore) o.va o.n with
    | .error t => some ((gone s).flightFault o.tid o.flight t)
    | .ok (.far l) => if s.scAway then none else some ((gone (acq s)).sendSc o (.far l))
    | .ok tgt =>
      if s.behind o.tid s.nextId o.n [tgt] then none
      else if o.kind = 1 then
        match (acq s).loadAt o.tid .scLoad tgt o.va o.n with
        | .wait => none
        | .err s t => some ((gone s).flightFault o.tid o.flight t)
        | .ok s bs => some (((gone s).modThread o.tid (fun t => t.writeCode o.dest (valueOf true o.n bs))).land o.tid o.flight)
      else
        match (acq s).storeAt o.tid .scStore tgt o.va o.data with
        | .wait => none
        | .err s t => some (((gone s).land o.tid o.flight).deferFault o.tid t o.pc o.order ((s.thread o.tid).flightHandler o.flight))
        | .ok s _ => some ((gone s).land o.tid o.flight)

/-- R317: operations in their order, up to the first that waits. -/
def State.scRun (s : State) : List ScOp → State
  | [] => s
  | o :: r =>
    match s.scAct o with
    | some s => s.scRun r
    | none => s

/-- R317: the announcements of a window are delivered by clock 8·w + 31, after those of earlier windows. -/
def execScWindowDelivery (window : Nat) (s : State) : Out :=
  if s.clock < 8 * window + 31 || s.scOps.any (fun o => o.window < window) then .next s
  else .next (s.scRun (sortBy scBefore (s.scOps.filter (fun o => o.window = window))))

/-! ### Cache operations (R120, R121) -/

/-- R120: the die has a store to the line on its way to another package. -/
def State.storesTo (s : State) (d : Nat) (l : Leaf) : Bool :=
  s.reqs.any (fun r => dieOf (coreOf r.tid) = d && (match r.resp with | some .done => false | _ => true) &&
    (match r.op with | .store _ => true | .fadd _ => true | _ => false) &&
    r.tgts.any (fun t => match t with
      | .far k => k.peer = l.peer && k.pa / 256 ≤ l.pa / 256 && l.pa / 256 ≤ (k.pa + r.n - 1) / 256
      | _ => false))

/-- R120: cln, inv and flush: whether the line is cleaned, kept at its home, and dropped from the remote-data
cache. -/
def State.cacheOp (s : State) (a : Reg) (L : BitVec 4) (clean keep drop : Bool) : Out :=
  let va := s.rd a
  let d := s.myDie
  s.ended 4 L.toNat [] <|
    if s.scPending then .wait
    else match s.resolve s.cur .cache va 1 with
    | .error t => .err (s.reportFault d t) t
    | .ok (.mem l) =>
      if s.behind s.cur s.nextId 256 [.mem l] then .wait
      else
        (if clean then s.homeCheck (.thread s.cur) .cache l.pa l.key va else .ok s ()).bind fun s _ =>
          let s := match homeDie l.pa with
            | some h => if clean then s.cleanContainer h l.pa keep else s
            | none => s
          .ok (if drop && cacheable d l then s.rdcDrop d l else s) ()
    | .ok (.far l) =>
      if s.migrating (s.partOf s.cur) va || (clean && s.storesTo d l) then .wait
      else .ok (if drop && l.mode ≠ 1 then s.rdcForget d l else s) ()
    | .ok _ => .ok s ()

/-- R120. -/
def execCln (a : Reg) (L : BitVec 4) (s : State) : Out := s.cacheOp a L true true false
/-- R120. -/
def execInv (a : Reg) (L : BitVec 4) (s : State) : Out := s.cacheOp a L false true true
/-- R120. -/
def execFlush (a : Reg) (L : BitVec 4) (s : State) : Out := s.cacheOp a L true false true

/-- R120: a prefetch into the home's L2, which matters for the lines of a format window (R171). -/
def State.prefetchHome (s : State) (l : Leaf) (va : Word) : State :=
  match homeDie l.pa with
  | none => s
  | some _ =>
    match s.homeCheck (.thread s.cur) .load l.pa l.key va with
    | .ok s _ => (s.homeRead (l.pa / 256 * 256) 256).1
    | .err s _ => s
    | .wait => s

/-- R120: a prefetch into the die's remote-data cache. -/
def State.prefetchNear (s : State) (va : Word) : Target → State
  | .mem l =>
    if !cacheable s.myDie l || s.behind s.cur s.nextId 256 [.mem l] then s
    else match s.cachedLoad s.cur .load l 1 va with
      | .ok s _ => s
      | .err s _ => s
      | .wait => s
  | .far l =>
    if l.mode = 1 || s.migrating (s.partOf s.cur) va || s.walkerFull s.cur (s.missesOf s.cur va 1) then s
    else
      { s with
        reqs := s.reqs ++ [{ id := s.nextId, tid := s.cur, op := .load false, va := va &&& ~~~255, n := 256, pc := s.me.pc
                             order := s.order, dests := [96], tgts := [.far { l with pa := l.pa / 256 * 256 }]
                             walks := s.missesOf s.cur va 1 }]
        nextId := s.nextId + 1 }
  | _ => s

/-- R120: a prefetch never traps. -/
def execPfL2 (a : Reg) (_L : BitVec 4) (s : State) : Out :=
  s.finish 4 (.ok (match s.resolve s.cur .load (s.rd a) 1 with
    | .ok (.mem l) => s.prefetchHome l (s.rd a)
    | _ => s))
/-- R120. -/
def execPfRdc (a : Reg) (_L : BitVec 4) (s : State) : Out :=
  s.finish 4 (.ok (match s.resolve s.cur .load (s.rd a) 1 with
    | .ok t => s.prefetchNear (s.rd a) t
    | .error _ => s))

/-- R101, R120: the checks of zln at the issuing core, alignment after the space and its fields. -/
def State.zeroTarget (s : State) (va : Word) : Except Trap Target :=
  if va.toNat % 256 = 0 then s.resolve s.cur .zero va 256
  else if space va ≤ 1 then .error { code := 0x03, eval := va }
  else match s.resolve s.cur .zero va 1 with
    | .error t => .error t
    | .ok _ => .error { code := 0x03, eval := va }

/-- R120, R121. -/
def execZln (a : Reg) (L : BitVec 4) (s : State) : Out :=
  let va := s.rd a
  s.ended 4 L.toNat [] <|
    if s.scPending then .wait
    else match s.zeroTarget va with
    | .error t => .err (s.reportFault s.myDie t) t
    | .ok tgt =>
      if s.behind s.cur s.nextId 256 (match tgt with | .far _ => [] | t => [t]) then .wait
      else s.putPart .zero L.toNat va (List.replicate 256 0) tgt

end Sys2Proof.Machine
end

