-- ==== Sys2Proof/Machine/Scalar.lean ====
section
/-! DEFINITION. The short forms (R38) and the integer, immediate, constant, selection and address instructions
(R66–R79): each meaning is one line over the operations of Machine/Operands.lean. -/

namespace Sys2Proof.Machine

/-! ### The short forms (R38) -/

/-- R38. -/
def execShortMvReg (d x : Reg) (s : State) : Out := s.short d (s.rd x) (fun _ x => x)
/-- R38. -/
def execShortMvImm (d : Reg) (i : BitVec 5) (s : State) : Out := s.short d (i.signExtend 64) (fun _ x => x)
/-- R38. -/
def execShortAddReg (d x : Reg) (s : State) : Out := s.short d (s.rd x) (· + ·)
/-- R38. -/
def execShortAddImm (d : Reg) (i : BitVec 5) (s : State) : Out := s.short d (i.signExtend 64) (· + ·)
/-- R38. -/
def execShortSubReg (d x : Reg) (s : State) : Out := s.short d (s.rd x) (· - ·)
/-- R38. -/
def execShortSubImm (d : Reg) (i : BitVec 5) (s : State) : Out := s.short d (i.signExtend 64) (· - ·)
/-- R38. -/
def execShortAndReg (d x : Reg) (s : State) : Out := s.short d (s.rd x) (· &&& ·)
/-- R38. -/
def execShortAndImm (d : Reg) (i : BitVec 5) (s : State) : Out := s.short d (i.signExtend 64) (· &&& ·)
/-- R38. -/
def execShortOrReg (d x : Reg) (s : State) : Out := s.short d (s.rd x) (· ||| ·)
/-- R38. -/
def execShortOrImm (d : Reg) (i : BitVec 5) (s : State) : Out := s.short d (i.signExtend 64) (· ||| ·)
/-- R38. -/
def execShortXorReg (d x : Reg) (s : State) : Out := s.short d (s.rd x) (· ^^^ ·)
/-- R38. -/
def execShortXorImm (d : Reg) (i : BitVec 5) (s : State) : Out := s.short d (i.signExtend 64) (· ^^^ ·)
/-- R38. -/
def execShortShlReg (d x : Reg) (s : State) : Out := s.short d (s.rd x) shlW
/-- R38: the count is zero-extended. -/
def execShortShlImm (d : Reg) (i : BitVec 5) (s : State) : Out := s.short d (i.zeroExtend 64) shlW
/-- R38. -/
def execShortShrReg (d x : Reg) (s : State) : Out := s.short d (s.rd x) shrW
/-- R38: the count is zero-extended. -/
def execShortShrImm (d : Reg) (i : BitVec 5) (s : State) : Out := s.short d (i.zeroExtend 64) shrW
/-- R38. -/
def execShortSraReg (d x : Reg) (s : State) : Out := s.short d (s.rd x) sraW
/-- R38: the count is zero-extended. -/
def execShortSraImm (d : Reg) (i : BitVec 5) (s : State) : Out := s.short d (i.zeroExtend 64) sraW
/-- R38. -/
def execShortMinReg (d x : Reg) (s : State) : Out := s.short d (s.rd x) minS
/-- R38. -/
def execShortMinImm (d : Reg) (i : BitVec 5) (s : State) : Out := s.short d (i.signExtend 64) minS
/-- R38. -/
def execShortMaxReg (d x : Reg) (s : State) : Out := s.short d (s.rd x) maxS
/-- R38. -/
def execShortMaxImm (d : Reg) (i : BitVec 5) (s : State) : Out := s.short d (i.signExtend 64) maxS
/-- R38. -/
def execShortSltReg (d x : Reg) (s : State) : Out := s.short d (s.rd x) sltW
/-- R38. -/
def execShortSltImm (d : Reg) (i : BitVec 5) (s : State) : Out := s.short d (i.signExtend 64) sltW
/-- R38. -/
def execShortMulReg (d x : Reg) (s : State) : Out := s.short d (s.rd x) (· * ·)
/-- R38. -/
def execShortMulImm (d : Reg) (i : BitVec 5) (s : State) : Out := s.short d (i.signExtend 64) (· * ·)

/-! ### The alu major (R70, R71) -/

/-- R70. -/
def execAdd (d a b : Reg) (s : State) : Out := s.alu d (s.rd a) (s.rd b) (· + ·)
/-- R70. -/
def execSub (d a b : Reg) (s : State) : Out := s.alu d (s.rd a) (s.rd b) (· - ·)
/-- R70. -/
def execAnd (d a b : Reg) (s : State) : Out := s.alu d (s.rd a) (s.rd b) (· &&& ·)
/-- R70. -/
def execOr (d a b : Reg) (s : State) : Out := s.alu d (s.rd a) (s.rd b) (· ||| ·)
/-- R70. -/
def execXor (d a b : Reg) (s : State) : Out := s.alu d (s.rd a) (s.rd b) (· ^^^ ·)
/-- R70. -/
def execAndn (d a b : Reg) (s : State) : Out := s.alu d (s.rd a) (s.rd b) (fun a b => a &&& ~~~b)
/-- R70. -/
def execShl (d a b : Reg) (s : State) : Out := s.alu d (s.rd a) (s.rd b) shlW
/-- R70. -/
def execShr (d a b : Reg) (s : State) : Out := s.alu d (s.rd a) (s.rd b) shrW
/-- R70. -/
def execSra (d a b : Reg) (s : State) : Out := s.alu d (s.rd a) (s.rd b) sraW
/-- R70. -/
def execRol (d a b : Reg) (s : State) : Out := s.alu d (s.rd a) (s.rd b) rolW
/-- R70. -/
def execMin (d a b : Reg) (s : State) : Out := s.alu d (s.rd a) (s.rd b) minS
/-- R70. -/
def execMax (d a b : Reg) (s : State) : Out := s.alu d (s.rd a) (s.rd b) maxS
/-- R70. -/
def execMinu (d a b : Reg) (s : State) : Out := s.alu d (s.rd a) (s.rd b) minU
/-- R70. -/
def execMaxu (d a b : Reg) (s : State) : Out := s.alu d (s.rd a) (s.rd b) maxU
/-- R70. -/
def execSlt (d a b : Reg) (s : State) : Out := s.alu d (s.rd a) (s.rd b) sltW
/-- R70. -/
def execSltu (d a b : Reg) (s : State) : Out := s.alu d (s.rd a) (s.rd b) sltuW
/-- R70. -/
def execSeq (d a b : Reg) (s : State) : Out := s.alu d (s.rd a) (s.rd b) seqW
/-- R70. -/
def execMul (d a b : Reg) (s : State) : Out := s.alu d (s.rd a) (s.rd b) (· * ·)
/-- R70. -/
def execMulh (d a b : Reg) (s : State) : Out := s.alu d (s.rd a) (s.rd b) mulhW
/-- R70. -/
def execMulhu (d a b : Reg) (s : State) : Out := s.alu d (s.rd a) (s.rd b) mulhuW
/-- R71. -/
def execDiv (d a b : Reg) (s : State) : Out := s.alu d (s.rd a) (s.rd b) divW
/-- R71. -/
def execDivu (d a b : Reg) (s : State) : Out := s.alu d (s.rd a) (s.rd b) divuW
/-- R71. -/
def execRem (d a b : Reg) (s : State) : Out := s.alu d (s.rd a) (s.rd b) remW
/-- R71. -/
def execRemu (d a b : Reg) (s : State) : Out := s.alu d (s.rd a) (s.rd b) remuW
/-- R70. -/
def execClz (d a : Reg) (s : State) : Out := s.ends 4 d (clzW (s.rd a))
/-- R70. -/
def execCtz (d a : Reg) (s : State) : Out := s.ends 4 d (ctzW (s.rd a))
/-- R70. -/
def execPopc (d a : Reg) (s : State) : Out := s.ends 4 d (popcW (s.rd a))
/-- R70. -/
def execBswap (d a : Reg) (s : State) : Out := s.ends 4 d (bswapW (s.rd a))
/-- R70. -/
def execBrev (d a : Reg) (s : State) : Out := s.ends 4 d (brevW (s.rd a))
/-- R70. -/
def execSext (d a : Reg) (w : BitVec 2) (s : State) : Out := s.ends 4 d (sextW w (s.rd a))
/-- R70. -/
def execZext (d a : Reg) (w : BitVec 2) (s : State) : Out := s.ends 4 d (zextW w (s.rd a))

/-! ### Immediate forms (R72–R74) -/

/-- R72. -/
def execAddi (d a : Reg) (i : BitVec 15) (s : State) : Out := s.alu d (s.rd a) (i.signExtend 64) (· + ·)
/-- R72. -/
def execAndi (d a : Reg) (i : BitVec 15) (s : State) : Out := s.alu d (s.rd a) (i.signExtend 64) (· &&& ·)
/-- R72. -/
def execOri (d a : Reg) (i : BitVec 15) (s : State) : Out := s.alu d (s.rd a) (i.zeroExtend 64) (· ||| ·)
/-- R72. -/
def execXori (d a : Reg) (i : BitVec 15) (s : State) : Out := s.alu d (s.rd a) (i.zeroExtend 64) (· ^^^ ·)
/-- R73. -/
def execShli (d a : Reg) (n : BitVec 6) (s : State) : Out := s.alu d (s.rd a) (n.zeroExtend 64) shlW
/-- R73. -/
def execShri (d a : Reg) (n : BitVec 6) (s : State) : Out := s.alu d (s.rd a) (n.zeroExtend 64) shrW
/-- R73. -/
def execSrai (d a : Reg) (n : BitVec 6) (s : State) : Out := s.alu d (s.rd a) (n.zeroExtend 64) sraW
/-- R73. -/
def execRoli (d a : Reg) (n : BitVec 6) (s : State) : Out := s.alu d (s.rd a) (n.zeroExtend 64) rolW
/-- R74. -/
def execSlti (d a : Reg) (k : BitVec 13) (s : State) : Out := s.alu d (s.rd a) (k.signExtend 64) sltW
/-- R74. -/
def execSltui (d a : Reg) (k : BitVec 13) (s : State) : Out := s.alu d (s.rd a) (k.signExtend 64) sltuW
/-- R74. -/
def execSeqi (d a : Reg) (k : BitVec 13) (s : State) : Out := s.alu d (s.rd a) (k.signExtend 64) seqW

/-! ### Constants (R76) -/

/-- R76. -/
def execLit (d : Reg) (e : BitVec 32) (s : State) : Out := s.ends 8 d (e.signExtend 64)
/-- R76. -/
def execLitZ (d : Reg) (e : BitVec 32) (s : State) : Out := s.ends 8 d (e.zeroExtend 64)
/-- R76: the low half is kept. -/
def execLitH (d : Reg) (e : BitVec 32) (s : State) : Out :=
  s.ends 8 d (e ++ (s.rd d).extractLsb' 0 32)

/-! ### Selection and skipping (R77, R78, R39) -/

/-- R77. -/
def execSel (d a b c : Reg) (s : State) : Out := s.ends 4 d (if s.rd c ≠ 0 then s.rd a else s.rd b)
/-- R77. -/
def execSelN (d a b c : Reg) (s : State) : Out := s.ends 4 d (if s.rd c = 0 then s.rd a else s.rd b)
/-- R39. -/
def execSkz (x : Reg) (n : BitVec 2) (s : State) : Out := s.skip 2 (s.rd x == 0) n
/-- R39. -/
def execSkzN (x : Reg) (n : BitVec 2) (s : State) : Out := s.skip 2 (s.rd x != 0) n
/-- R78. -/
def execSkipEq (a b : Reg) (n : BitVec 2) (s : State) : Out := s.skip 4 (cond 0 (s.rd a) (s.rd b)) n
/-- R78. -/
def execSkipNe (a b : Reg) (n : BitVec 2) (s : State) : Out := s.skip 4 (cond 1 (s.rd a) (s.rd b)) n
/-- R78. -/
def execSkipLt (a b : Reg) (n : BitVec 2) (s : State) : Out := s.skip 4 (cond 2 (s.rd a) (s.rd b)) n
/-- R78. -/
def execSkipGe (a b : Reg) (n : BitVec 2) (s : State) : Out := s.skip 4 (cond 3 (s.rd a) (s.rd b)) n
/-- R78. -/
def execSkipLtu (a b : Reg) (n : BitVec 2) (s : State) : Out := s.skip 4 (cond 4 (s.rd a) (s.rd b)) n
/-- R78. -/
def execSkipGeu (a b : Reg) (n : BitVec 2) (s : State) : Out := s.skip 4 (cond 5 (s.rd a) (s.rd b)) n

/-! ### Addresses (R79) -/

/-- R79. -/
def execLea (d : Reg) (x : BitVec 2) (a b : Reg) (s : State) : Out := s.ends 4 d (scaled (s.rd a) (s.rd b) x)
/-- R79. -/
def execLeaPc (d : Reg) (i : BitVec 14) (s : State) : Out := s.ends 4 d (s.me.pc + halfwords i)

end Sys2Proof.Machine
end

