-- ==== Sys2Proof/Machine/Dispatch.lean ====
section
/-! DEFINITION. One arm per constructor of the instruction type: the meaning of each instruction and
event. -/

namespace Sys2Proof.Machine

def exec (i : Instr) (s : State) : Host.Outcome State Fault Refusal :=
  match i with
  | .shortMvReg d s1 => Sys2Proof.Machine.execShortMvReg d s1 s
  | .shortMvImm d imm => Sys2Proof.Machine.execShortMvImm d imm s
  | .shortAddReg d s1 => Sys2Proof.Machine.execShortAddReg d s1 s
  | .shortAddImm d imm => Sys2Proof.Machine.execShortAddImm d imm s
  | .shortSubReg d s1 => Sys2Proof.Machine.execShortSubReg d s1 s
  | .shortSubImm d imm => Sys2Proof.Machine.execShortSubImm d imm s
  | .shortAndReg d s1 => Sys2Proof.Machine.execShortAndReg d s1 s
  | .shortAndImm d imm => Sys2Proof.Machine.execShortAndImm d imm s
  | .shortOrReg d s1 => Sys2Proof.Machine.execShortOrReg d s1 s
  | .shortOrImm d imm => Sys2Proof.Machine.execShortOrImm d imm s
  | .shortXorReg d s1 => Sys2Proof.Machine.execShortXorReg d s1 s
  | .shortXorImm d imm => Sys2Proof.Machine.execShortXorImm d imm s
  | .shortShlReg d s1 => Sys2Proof.Machine.execShortShlReg d s1 s
  | .shortShlImm d imm => Sys2Proof.Machine.execShortShlImm d imm s
  | .shortShrReg d s1 => Sys2Proof.Machine.execShortShrReg d s1 s
  | .shortShrImm d imm => Sys2Proof.Machine.execShortShrImm d imm s
  | .shortSraReg d s1 => Sys2Proof.Machine.execShortSraReg d s1 s
  | .shortSraImm d imm => Sys2Proof.Machine.execShortSraImm d imm s
  | .shortMinReg d s1 => Sys2Proof.Machine.execShortMinReg d s1 s
  | .shortMinImm d imm => Sys2Proof.Machine.execShortMinImm d imm s
  | .shortMaxReg d s1 => Sys2Proof.Machine.execShortMaxReg d s1 s
  | .shortMaxImm d imm => Sys2Proof.Machine.execShortMaxImm d imm s
  | .shortSltReg d s1 => Sys2Proof.Machine.execShortSltReg d s1 s
  | .shortSltImm d imm => Sys2Proof.Machine.execShortSltImm d imm s
  | .shortMulReg d s1 => Sys2Proof.Machine.execShortMulReg d s1 s
  | .shortMulImm d imm => Sys2Proof.Machine.execShortMulImm d imm s
  | .shortLdReg d s1 => Sys2Proof.Machine.execShortLdReg d s1 s
  | .shortLdOff d imm => Sys2Proof.Machine.execShortLdOff d imm s
  | .shortStReg d s1 => Sys2Proof.Machine.execShortStReg d s1 s
  | .shortStImm d imm => Sys2Proof.Machine.execShortStImm d imm s
  | .skz s1 n => Sys2Proof.Machine.execSkz s1 n s
  | .skzN s1 n => Sys2Proof.Machine.execSkzN s1 n s
  | .add d a b => Sys2Proof.Machine.execAdd d a b s
  | .sub d a b => Sys2Proof.Machine.execSub d a b s
  | .and d a b => Sys2Proof.Machine.execAnd d a b s
  | .or d a b => Sys2Proof.Machine.execOr d a b s
  | .xor d a b => Sys2Proof.Machine.execXor d a b s
  | .andn d a b => Sys2Proof.Machine.execAndn d a b s
  | .shl d a b => Sys2Proof.Machine.execShl d a b s
  | .shr d a b => Sys2Proof.Machine.execShr d a b s
  | .sra d a b => Sys2Proof.Machine.execSra d a b s
  | .rol d a b => Sys2Proof.Machine.execRol d a b s
  | .min d a b => Sys2Proof.Machine.execMin d a b s
  | .max d a b => Sys2Proof.Machine.execMax d a b s
  | .minu d a b => Sys2Proof.Machine.execMinu d a b s
  | .maxu d a b => Sys2Proof.Machine.execMaxu d a b s
  | .slt d a b => Sys2Proof.Machine.execSlt d a b s
  | .sltu d a b => Sys2Proof.Machine.execSltu d a b s
  | .seq d a b => Sys2Proof.Machine.execSeq d a b s
  | .mul d a b => Sys2Proof.Machine.execMul d a b s
  | .mulh d a b => Sys2Proof.Machine.execMulh d a b s
  | .mulhu d a b => Sys2Proof.Machine.execMulhu d a b s
  | .div d a b => Sys2Proof.Machine.execDiv d a b s
  | .divu d a b => Sys2Proof.Machine.execDivu d a b s
  | .rem d a b => Sys2Proof.Machine.execRem d a b s
  | .remu d a b => Sys2Proof.Machine.execRemu d a b s
  | .clz d a => Sys2Proof.Machine.execClz d a s
  | .ctz d a => Sys2Proof.Machine.execCtz d a s
  | .popc d a => Sys2Proof.Machine.execPopc d a s
  | .bswap d a => Sys2Proof.Machine.execBswap d a s
  | .brev d a => Sys2Proof.Machine.execBrev d a s
  | .sext d a w => Sys2Proof.Machine.execSext d a w s
  | .zext d a w => Sys2Proof.Machine.execZext d a w s
  | .addi d a imm => Sys2Proof.Machine.execAddi d a imm s
  | .andi d a imm => Sys2Proof.Machine.execAndi d a imm s
  | .ori d a imm => Sys2Proof.Machine.execOri d a imm s
  | .xori d a imm => Sys2Proof.Machine.execXori d a imm s
  | .shli d a n => Sys2Proof.Machine.execShli d a n s
  | .shri d a n => Sys2Proof.Machine.execShri d a n s
  | .srai d a n => Sys2Proof.Machine.execSrai d a n s
  | .roli d a n => Sys2Proof.Machine.execRoli d a n s
  | .slti d a k => Sys2Proof.Machine.execSlti d a k s
  | .sltui d a k => Sys2Proof.Machine.execSltui d a k s
  | .seqi d a k => Sys2Proof.Machine.execSeqi d a k s
  | .lit d e => Sys2Proof.Machine.execLit d e s
  | .litZ d e => Sys2Proof.Machine.execLitZ d e s
  | .litH d e => Sys2Proof.Machine.execLitH d e s
  | .sel d a b c => Sys2Proof.Machine.execSel d a b c s
  | .selN d a b c => Sys2Proof.Machine.execSelN d a b c s
  | .skipEq a b n => Sys2Proof.Machine.execSkipEq a b n s
  | .skipNe a b n => Sys2Proof.Machine.execSkipNe a b n s
  | .skipLt a b n => Sys2Proof.Machine.execSkipLt a b n s
  | .skipGe a b n => Sys2Proof.Machine.execSkipGe a b n s
  | .skipLtu a b n => Sys2Proof.Machine.execSkipLtu a b n s
  | .skipGeu a b n => Sys2Proof.Machine.execSkipGeu a b n s
  | .lea d s1 a b => Sys2Proof.Machine.execLea d s1 a b s
  | .leaPc d imm => Sys2Proof.Machine.execLeaPc d imm s
  | .bEq a b imm => Sys2Proof.Machine.execBEq a b imm s
  | .bNe a b imm => Sys2Proof.Machine.execBNe a b imm s
  | .bLt a b imm => Sys2Proof.Machine.execBLt a b imm s
  | .bGe a b imm => Sys2Proof.Machine.execBGe a b imm s
  | .bLtu a b imm => Sys2Proof.Machine.execBLtu a b imm s
  | .bGeu a b imm => Sys2Proof.Machine.execBGeu a b imm s
  | .bz a imm => Sys2Proof.Machine.execBz a imm s
  | .bnz a imm => Sys2Proof.Machine.execBnz a imm s
  | .j imm => Sys2Proof.Machine.execJ imm s
  | .call8 imm => Sys2Proof.Machine.execCall8 imm s
  | .call16 imm => Sys2Proof.Machine.execCall16 imm s
  | .jr a => Sys2Proof.Machine.execJr a s
  | .callr8 a => Sys2Proof.Machine.execCallr8 a s
  | .callr16 a => Sys2Proof.Machine.execCallr16 a s
  | .ret => Sys2Proof.Machine.execRet s
  | .loop a imm => Sys2Proof.Machine.execLoop a imm s
  | .ldB d a o L => Sys2Proof.Machine.execLdB d a o L s
  | .ldH d a o L => Sys2Proof.Machine.execLdH d a o L s
  | .ldW d a o L => Sys2Proof.Machine.execLdW d a o L s
  | .ldD d a o L => Sys2Proof.Machine.execLdD d a o L s
  | .ldBu d a o L => Sys2Proof.Machine.execLdBu d a o L s
  | .ldHu d a o L => Sys2Proof.Machine.execLdHu d a o L s
  | .ldWu d a o L => Sys2Proof.Machine.execLdWu d a o L s
  | .stB d a o L => Sys2Proof.Machine.execStB d a o L s
  | .stH d a o L => Sys2Proof.Machine.execStH d a o L s
  | .stW d a o L => Sys2Proof.Machine.execStW d a o L s
  | .stD d a o L => Sys2Proof.Machine.execStD d a o L s
  | .ldx d s1 a b z L => Sys2Proof.Machine.execLdx d s1 a b z L s
  | .stx d s1 a b z L => Sys2Proof.Machine.execStx d s1 a b z L s
  | .ldp d a o L => Sys2Proof.Machine.execLdp d a o L s
  | .ldq d a o L => Sys2Proof.Machine.execLdq d a o L s
  | .stp d a o L => Sys2Proof.Machine.execStp d a o L s
  | .stq d a o L => Sys2Proof.Machine.execStq d a o L s
  | .amoSwap d s1 a b z o => Sys2Proof.Machine.execAmoSwap d s1 a b z o s
  | .amoAdd d s1 a b z o => Sys2Proof.Machine.execAmoAdd d s1 a b z o s
  | .amoAnd d s1 a b z o => Sys2Proof.Machine.execAmoAnd d s1 a b z o s
  | .amoOr d s1 a b z o => Sys2Proof.Machine.execAmoOr d s1 a b z o s
  | .amoXor d s1 a b z o => Sys2Proof.Machine.execAmoXor d s1 a b z o s
  | .amoMin d s1 a b z o => Sys2Proof.Machine.execAmoMin d s1 a b z o s
  | .amoMax d s1 a b z o => Sys2Proof.Machine.execAmoMax d s1 a b z o s
  | .amoMinu d s1 a b z o => Sys2Proof.Machine.execAmoMinu d s1 a b z o s
  | .amoMaxu d s1 a b z o => Sys2Proof.Machine.execAmoMaxu d s1 a b z o s
  | .amoCas d s1 a b z o => Sys2Proof.Machine.execAmoCas d s1 a b z o s
  | .fence s1 o => Sys2Proof.Machine.execFence s1 o s
  | .qfence a b => Sys2Proof.Machine.execQfence a b s
  | .pfL2 a L => Sys2Proof.Machine.execPfL2 a L s
  | .pfRdc a L => Sys2Proof.Machine.execPfRdc a L s
  | .cln a L => Sys2Proof.Machine.execCln a L s
  | .inv a L => Sys2Proof.Machine.execInv a L s
  | .flush a L => Sys2Proof.Machine.execFlush a L s
  | .zln a L => Sys2Proof.Machine.execZln a L s
  | .ldScW d a o L => Sys2Proof.Machine.execLdScW d a o L s
  | .ldScD d a o L => Sys2Proof.Machine.execLdScD d a o L s
  | .stScW d a o L => Sys2Proof.Machine.execStScW d a o L s
  | .stScD d a o L => Sys2Proof.Machine.execStScD d a o L s
  | .nop => Sys2Proof.Machine.execNop s
  | .trap d n => Sys2Proof.Machine.execTrap d n s
  | .rte => Sys2Proof.Machine.execRte s
  | .done => Sys2Proof.Machine.execDone s
  | .yield => Sys2Proof.Machine.execYield s
  | .mfs d x => Sys2Proof.Machine.execMfs d x s
  | .mts a x => Sys2Proof.Machine.execMts a x s
  | .wspill => Sys2Proof.Machine.execWspill s
  | .wfill => Sys2Proof.Machine.execWfill s
  | .wstat d => Sys2Proof.Machine.execWstat d s
  | .twany d a => Sys2Proof.Machine.execTwany d a s
  | .twall d a => Sys2Proof.Machine.execTwall d a s
  | .tffr d a => Sys2Proof.Machine.execTffr d a s
  | .tclr a => Sys2Proof.Machine.execTclr a s
  | .chsnd a b => Sys2Proof.Machine.execChsnd a b s
  | .chrcv d a => Sys2Proof.Machine.execChrcv d a s
  | .chtry d a b => Sys2Proof.Machine.execChtry d a b s
  | .gang2 => Sys2Proof.Machine.execGang2 s
  | .gang4 => Sys2Proof.Machine.execGang4 s
  | .gang8 => Sys2Proof.Machine.execGang8 s
  | .disband => Sys2Proof.Machine.execDisband s
  | .rng d => Sys2Proof.Machine.execRng d s
  | .vaddFp d a b t L => Sys2Proof.Machine.execVaddFp d a b t L s
  | .vsubFp d a b t L => Sys2Proof.Machine.execVsubFp d a b t L s
  | .vmulFp d a b t L => Sys2Proof.Machine.execVmulFp d a b t L s
  | .vfma d a b t L => Sys2Proof.Machine.execVfma d a b t L s
  | .vfms d a b t L => Sys2Proof.Machine.execVfms d a b t L s
  | .vminFp d a b t L => Sys2Proof.Machine.execVminFp d a b t L s
  | .vmaxFp d a b t L => Sys2Proof.Machine.execVmaxFp d a b t L s
  | .vabs a b t L => Sys2Proof.Machine.execVabs a b t L s
  | .vneg a b t L => Sys2Proof.Machine.execVneg a b t L s
  | .vceqFp d a b t L => Sys2Proof.Machine.execVceqFp d a b t L s
  | .vcltFp d a b t L => Sys2Proof.Machine.execVcltFp d a b t L s
  | .vcle d a b t L => Sys2Proof.Machine.execVcle d a b t L s
  | .vsum a b t L => Sys2Proof.Machine.execVsum a b t L s
  | .vmaxr a b t L => Sys2Proof.Machine.execVmaxr a b t L s
  | .vscale d a b t L => Sys2Proof.Machine.execVscale d a b t L s
  | .vaddInt d a b w L => Sys2Proof.Machine.execVaddInt d a b w L s
  | .vsubInt d a b w L => Sys2Proof.Machine.execVsubInt d a b w L s
  | .vmulInt d a b w L => Sys2Proof.Machine.execVmulInt d a b w L s
  | .vminInt d a b w L => Sys2Proof.Machine.execVminInt d a b w L s
  | .vmaxInt d a b w L => Sys2Proof.Machine.execVmaxInt d a b w L s
  | .vminu d a b w L => Sys2Proof.Machine.execVminu d a b w L s
  | .vmaxu d a b w L => Sys2Proof.Machine.execVmaxu d a b w L s
  | .vand d a b w L => Sys2Proof.Machine.execVand d a b w L s
  | .vor d a b w L => Sys2Proof.Machine.execVor d a b w L s
  | .vxor d a b w L => Sys2Proof.Machine.execVxor d a b w L s
  | .vshl d a b w L => Sys2Proof.Machine.execVshl d a b w L s
  | .vshr d a b w L => Sys2Proof.Machine.execVshr d a b w L s
  | .vsra d a b w L => Sys2Proof.Machine.execVsra d a b w L s
  | .vceqInt d a b w L => Sys2Proof.Machine.execVceqInt d a b w L s
  | .vcltInt d a b w L => Sys2Proof.Machine.execVcltInt d a b w L s
  | .vcltu d a b w L => Sys2Proof.Machine.execVcltu d a b w L s
  | .vrcp a b t L => Sys2Proof.Machine.execVrcp a b t L s
  | .vrsqrt a b t L => Sys2Proof.Machine.execVrsqrt a b t L s
  | .vsqrt a b t L => Sys2Proof.Machine.execVsqrt a b t L s
  | .vexp2 a b t L => Sys2Proof.Machine.execVexp2 a b t L s
  | .vlog2 a b t L => Sys2Proof.Machine.execVlog2 a b t L s
  | .vtanh a b t L => Sys2Proof.Machine.execVtanh a b t L s
  | .vsigm a b t L => Sys2Proof.Machine.execVsigm a b t L s
  | .vgelu a b t L => Sys2Proof.Machine.execVgelu a b t L s
  | .vsilu a b t L => Sys2Proof.Machine.execVsilu a b t L s
  | .vdiv d a b t L => Sys2Proof.Machine.execVdiv d a b t L s
  | .vmov d a b L => Sys2Proof.Machine.execVmov d a b L s
  | .vbcast a b L => Sys2Proof.Machine.execVbcast a b L s
  | .vgath a b L => Sys2Proof.Machine.execVgath a b L s
  | .vscat a b L => Sys2Proof.Machine.execVscat a b L s
  | .vcomp a b L => Sys2Proof.Machine.execVcomp a b L s
  | .vexpd a b L => Sys2Proof.Machine.execVexpd a b L s
  | .vscan a b L => Sys2Proof.Machine.execVscan a b L s
  | .vrev a b L => Sys2Proof.Machine.execVrev a b L s
  | .vcmx d a b L => Sys2Proof.Machine.execVcmx d a b L s
  | .vmrg a b L => Sys2Proof.Machine.execVmrg a b L s
  | .vbton a b L => Sys2Proof.Machine.execVbton a b L s
  | .vrank a b L => Sys2Proof.Machine.execVrank a b L s
  | .vcvt s1 a b f L => Sys2Proof.Machine.execVcvt s1 a b f L s
  | .vcur a b n => Sys2Proof.Machine.execVcur a b n s
  | .vfence a => Sys2Proof.Machine.execVfence a s
  | .vstat d a => Sys2Proof.Machine.execVstat d a s
  | .ksend d a b L => Sys2Proof.Machine.execKsend d a b L s
  | .racc d a L => Sys2Proof.Machine.execRacc d a L s
  | .mma L p => Sys2Proof.Machine.execMma L p s
  | .mepi a L p => Sys2Proof.Machine.execMepi a L p s
  | .mldb a L p => Sys2Proof.Machine.execMldb a L p s
  | .mzero b L => Sys2Proof.Machine.execMzero b L s
  | .msave a b L => Sys2Proof.Machine.execMsave a b L s
  | .mrest a b L => Sys2Proof.Machine.execMrest a b L s
  | .mwait a => Sys2Proof.Machine.execMwait a s
  | .lpatch d a b => Sys2Proof.Machine.execLpatch d a b s
  | .spawn d a => Sys2Proof.Machine.execSpawn d a s
  | .spawnc d a => Sys2Proof.Machine.execSpawnc d a s
  | .jsig d a b => Sys2Proof.Machine.execJsig d a b s
  | .jwait a b => Sys2Proof.Machine.execJwait a b s
  | .barArr d a => Sys2Proof.Machine.execBarArr d a s
  | .barWait a b => Sys2Proof.Machine.execBarWait a b s
  | .barT1 a b => Sys2Proof.Machine.execBarT1 a b s
  | .barSet a b => Sys2Proof.Machine.execBarSet a b s
  | .barBytes a b => Sys2Proof.Machine.execBarBytes a b s
  | .barBind a b => Sys2Proof.Machine.execBarBind a b s
  | .ldf d a => Sys2Proof.Machine.execLdf d a s
  | .stf d a b => Sys2Proof.Machine.execStf d a b s
  | .gjoin d a => Sys2Proof.Machine.execGjoin d a s
  | .gleave d a => Sys2Proof.Machine.execGleave d a s
  | .sbBind d a b => Sys2Proof.Machine.execSbBind d a b s
  | .sbRet a => Sys2Proof.Machine.execSbRet a s
  | .qpop d a b => Sys2Proof.Machine.execQpop d a b s
  | .qpush d a b => Sys2Proof.Machine.execQpush d a b s
  | .schedNext d => Sys2Proof.Machine.execSchedNext d s
  | .put d a b L => Sys2Proof.Machine.execPut d a b L s
  | .get d a b L => Sys2Proof.Machine.execGet d a b L s
  | .radd d a b L => Sys2Proof.Machine.execRadd d a b L s
  | .rcas d a b L => Sys2Proof.Machine.execRcas d a b L s
  | .lease d a b => Sys2Proof.Machine.execLease d a b s
  | .lrel d a b => Sys2Proof.Machine.execLrel d a b s
  | .lqry d a => Sys2Proof.Machine.execLqry d a s
  | .trgPost d a b => Sys2Proof.Machine.execTrgPost d a b s
  | .trgCancel d a b => Sys2Proof.Machine.execTrgCancel d a b s
  | .ctrAdd d a b => Sys2Proof.Machine.execCtrAdd d a b s
  | .ctrWait d a b => Sys2Proof.Machine.execCtrWait d a b s
  | .ctrRd d a => Sys2Proof.Machine.execCtrRd d a s
  | .coll d a b L p => Sys2Proof.Machine.execColl d a b L p s
  | .grpSt d a b => Sys2Proof.Machine.execGrpSt d a b s
  | .grpLd d a b => Sys2Proof.Machine.execGrpLd d a b s
  | .suppressedInstruction => Sys2Proof.Machine.execSuppressedInstruction s
  | .deferredTrap core slot => Sys2Proof.Machine.execDeferredTrap core slot s
  | .gangAbort core slot => Sys2Proof.Machine.execGangAbort core slot s
  | .gangFormation core slot => Sys2Proof.Machine.execGangFormation core slot s
  | .gangRowBarrierJoin core slot => Sys2Proof.Machine.execGangRowBarrierJoin core slot s
  | .homeAccess req => Sys2Proof.Machine.execHomeAccess req s
  | .remoteScratchAccess req => Sys2Proof.Machine.execRemoteScratchAccess req s
  | .loadDataReturn req => Sys2Proof.Machine.execLoadDataReturn req s
  | .storeAcknowledgement req => Sys2Proof.Machine.execStoreAcknowledgement req s
  | .errorResponse req => Sys2Proof.Machine.execErrorResponse req s
  | .scratchFrameRefill core frame => Sys2Proof.Machine.execScratchFrameRefill core frame s
  | .accRegionRefill core region => Sys2Proof.Machine.execAccRegionRefill core region s
  | .serviceReply core slot => Sys2Proof.Machine.execServiceReply core slot s
  | .pageWalk die va => Sys2Proof.Machine.execPageWalk die va s
  | .scWindowDelivery window => Sys2Proof.Machine.execScWindowDelivery window s
  | .vectorCommandStart core => Sys2Proof.Machine.execVectorCommandStart core s
  | .vectorCommandComplete core => Sys2Proof.Machine.execVectorCommandComplete core s
  | .ksendRecordApply core => Sys2Proof.Machine.execKsendRecordApply core s
  | .matrixEntryStart core => Sys2Proof.Machine.execMatrixEntryStart core s
  | .matrixEntryComplete core => Sys2Proof.Machine.execMatrixEntryComplete core s
  | .dispatch cluster => Sys2Proof.Machine.execDispatch cluster s
  | .dispatchComplete core slot => Sys2Proof.Machine.execDispatchComplete core slot s
  | .routingDecision cluster => Sys2Proof.Machine.execRoutingDecision cluster s
  | .forwardArrival fwd => Sys2Proof.Machine.execForwardArrival fwd s
  | .forwardAcceptance fwd => Sys2Proof.Machine.execForwardAcceptance fwd s
  | .forwardRefusal fwd => Sys2Proof.Machine.execForwardRefusal fwd s
  | .taskAging cluster level => Sys2Proof.Machine.execTaskAging cluster level s
  | .epochBoundary => Sys2Proof.Machine.execEpochBoundary s
  | .gradientAdvertSend => Sys2Proof.Machine.execGradientAdvertSend s
  | .advertTimeout part entry => Sys2Proof.Machine.execAdvertTimeout part entry s
  | .visitorOutcomeUnknown fwd => Sys2Proof.Machine.execVisitorOutcomeUnknown fwd s
  | .jwaitTimeout core slot => Sys2Proof.Machine.execJwaitTimeout core slot s
  | .queueWaitTimeout core slot => Sys2Proof.Machine.execQueueWaitTimeout core slot s
  | .rootlArm who cluster value => Sys2Proof.Machine.execRootlArm who cluster value s
  | .rootlPlace who cluster value => Sys2Proof.Machine.execRootlPlace who cluster value s
  | .slotcmdFree who cluster value => Sys2Proof.Machine.execSlotcmdFree who cluster value s
  | .joinCountStore who cluster idx value => Sys2Proof.Machine.execJoinCountStore who cluster idx value s
  | .futureEmpty who cluster idx => Sys2Proof.Machine.execFutureEmpty who cluster idx s
  | .sbctlClear who cluster => Sys2Proof.Machine.execSbctlClear who cluster s
  | .preemptSave who core value => Sys2Proof.Machine.execPreemptSave who core value s
  | .preemptSaveComplete core => Sys2Proof.Machine.execPreemptSaveComplete core s
  | .preemptRestore who core value => Sys2Proof.Machine.execPreemptRestore who core value s
  | .sctxWrite who core value => Sys2Proof.Machine.execSctxWrite who core value s
  | .btStart core slot die channel value => Sys2Proof.Machine.execBtStart core slot die channel value s
  | .copyRowPerformed die channel => Sys2Proof.Machine.execCopyRowPerformed die channel s
  | .copyComplete die channel => Sys2Proof.Machine.execCopyComplete die channel s
  | .copyFail die channel => Sys2Proof.Machine.execCopyFail die channel s
  | .streamerPost core slot value => Sys2Proof.Machine.execStreamerPost core slot value s
  | .streamerRow die => Sys2Proof.Machine.execStreamerRow die s
  | .streamerComplete die => Sys2Proof.Machine.execStreamerComplete die s
  | .queueSubscribe core slot queue value => Sys2Proof.Machine.execQueueSubscribe core slot queue value s
  | .queueUnsubscribe core slot queue value => Sys2Proof.Machine.execQueueUnsubscribe core slot queue value s
  | .pumpLoadTile core queue => Sys2Proof.Machine.execPumpLoadTile core queue s
  | .pumpStoreTile core queue => Sys2Proof.Machine.execPumpStoreTile core queue s
  | .tlbInvalidate who die value => Sys2Proof.Machine.execTlbInvalidate who die value s
  | .tlbInvalidateDone die => Sys2Proof.Machine.execTlbInvalidateDone die s
  | .dieFence who die => Sys2Proof.Machine.execDieFence who die s
  | .heartbeatTimeout die => Sys2Proof.Machine.execHeartbeatTimeout die s
  | .fenceResponse die => Sys2Proof.Machine.execFenceResponse die s
  | .coreIsolate core => Sys2Proof.Machine.execCoreIsolate core s
  | .spareSubstitute core => Sys2Proof.Machine.execSpareSubstitute core s
  | .formatWindowEnable who die win value => Sys2Proof.Machine.execFormatWindowEnable who die win value s
  | .formatWindowDisable who die win value => Sys2Proof.Machine.execFormatWindowDisable who die win value s
  | .registerWrite who addr value => Sys2Proof.Machine.execRegisterWrite who addr value s
  | .hostMemoryAccess fn isWrite off size data => Sys2Proof.Machine.execHostMemoryAccess fn isWrite off size data s
  | .partitionCreate who part value => Sys2Proof.Machine.execPartitionCreate who part value s
  | .partitionDestroy who part value => Sys2Proof.Machine.execPartitionDestroy who part value s
  | .partitionScrubDone part => Sys2Proof.Machine.execPartitionScrubDone part s
  | .lockInterfaceRequest part => Sys2Proof.Machine.execLockInterfaceRequest part s
  | .startInterfaceRequest part => Sys2Proof.Machine.execStartInterfaceRequest part s
  | .stopInterfaceRequest part => Sys2Proof.Machine.execStopInterfaceRequest part s
  | .getTdispVersion part => Sys2Proof.Machine.execGetTdispVersion part s
  | .getTdispCapabilities part => Sys2Proof.Machine.execGetTdispCapabilities part s
  | .getDeviceInterfaceReport part => Sys2Proof.Machine.execGetDeviceInterfaceReport part s
  | .getDeviceInterfaceState part => Sys2Proof.Machine.execGetDeviceInterfaceState part s
  | .ideIntegrityFailure part => Sys2Proof.Machine.execIdeIntegrityFailure part s
  | .functionLevelReset part => Sys2Proof.Machine.execFunctionLevelReset part s
  | .spdmCert rq => Sys2Proof.Machine.execSpdmCert rq s
  | .spdmChal rq => Sys2Proof.Machine.execSpdmChal rq s
  | .spdmMeas rq => Sys2Proof.Machine.execSpdmMeas rq s
  | .spdmKeyEx rq => Sys2Proof.Machine.execSpdmKeyEx rq s
  | .partitionPairing part peer remote => Sys2Proof.Machine.execPartitionPairing part peer remote s
  | .perstDeassert => Sys2Proof.Machine.execPerstDeassert s
  | .fwgo who => Sys2Proof.Machine.execFwgo who s
  | .bootInitComplete failedDies => Sys2Proof.Machine.execBootInitComplete failedDies s
  | .dieReset die => Sys2Proof.Machine.execDieReset die s
  | .powerStateCommand who die value => Sys2Proof.Machine.execPowerStateCommand who die value s
  | .powerTransitionDone die => Sys2Proof.Machine.execPowerTransitionDone die s
  | .thermalSample die temp => Sys2Proof.Machine.execThermalSample die temp s
  | .thermTrip => Sys2Proof.Machine.execThermTrip s
  | .gtimeLoad who value => Sys2Proof.Machine.execGtimeLoad who value s
  | .laneRepair link => Sys2Proof.Machine.execLaneRepair link s
  | .dieLinkDown link => Sys2Proof.Machine.execDieLinkDown link s
  | .cxlPortDown port => Sys2Proof.Machine.execCxlPortDown port s
  | .mfreePush who die value => Sys2Proof.Machine.execMfreePush who die value s
  | .portEnable who port value => Sys2Proof.Machine.execPortEnable who port value s
  | .portDisable who port value => Sys2Proof.Machine.execPortDisable who port value s
  | .laserFeedFailure laser => Sys2Proof.Machine.execLaserFeedFailure laser s
  | .lossOfLight port wave => Sys2Proof.Machine.execLossOfLight port wave s
  | .lightRestored laser => Sys2Proof.Machine.execLightRestored laser s
  | .wavelengthLock port wave => Sys2Proof.Machine.execWavelengthLock port wave s
  | .trainingTimeout port wave => Sys2Proof.Machine.execTrainingTimeout port wave s
  | .wavelengthDrained port wave => Sys2Proof.Machine.execWavelengthDrained port wave s
  | .laneRequestTimeout => Sys2Proof.Machine.execLaneRequestTimeout s
  | .regionRegister who entry value => Sys2Proof.Machine.execRegionRegister who entry value s
  | .regionRevoke who entry value => Sys2Proof.Machine.execRegionRevoke who entry value s
  | .regionRevokeDone entry => Sys2Proof.Machine.execRegionRevokeDone entry s
  | .pageMigration die va => Sys2Proof.Machine.execPageMigration die va s
  | .pageMigrationDone die ok frame => Sys2Proof.Machine.execPageMigrationDone die ok frame s
  | .contextFetchComplete part peer => Sys2Proof.Machine.execContextFetchComplete part peer s
  | .fabricSend part peer => Sys2Proof.Machine.execFabricSend part peer s
  | .ackTimer part peer => Sys2Proof.Machine.execAckTimer part peer s
  | .nakGapTimeout part peer => Sys2Proof.Machine.execNakGapTimeout part peer s
  | .goBackTimeout part peer => Sys2Proof.Machine.execGoBackTimeout part peer s
  | .remoteOpComplete op => Sys2Proof.Machine.execRemoteOpComplete op s
  | .putFlit f => Sys2Proof.Machine.execPutFlit f s
  | .getq f => Sys2Proof.Machine.execGetq f s
  | .getr f => Sys2Proof.Machine.execGetr f s
  | .raddFlit f => Sys2Proof.Machine.execRaddFlit f s
  | .rcasFlit f => Sys2Proof.Machine.execRcasFlit f s
  | .atr f => Sys2Proof.Machine.execAtr f s
  | .fadd f => Sys2Proof.Machine.execFadd f s
  | .pld f => Sys2Proof.Machine.execPld f s
  | .pst f => Sys2Proof.Machine.execPst f s
  | .errFlit f => Sys2Proof.Machine.execErrFlit f s
  | .vis f => Sys2Proof.Machine.execVis f s
  | .trgCounterAdd f => Sys2Proof.Machine.execTrgCounterAdd f s
  | .trgSmallContribution f => Sys2Proof.Machine.execTrgSmallContribution f s
  | .trgSmallResult f => Sys2Proof.Machine.execTrgSmallResult f s
  | .trgBulkChunkUp f => Sys2Proof.Machine.execTrgBulkChunkUp f s
  | .trgBulkChunkDown f => Sys2Proof.Machine.execTrgBulkChunkDown f s
  | .trgAbortRequest f => Sys2Proof.Machine.execTrgAbortRequest f s
  | .trgAbortDecision f => Sys2Proof.Machine.execTrgAbortDecision f s
  | .trgDescriptorCheck f => Sys2Proof.Machine.execTrgDescriptorCheck f s
  | .ack f => Sys2Proof.Machine.execAck f s
  | .nak f => Sys2Proof.Machine.execNak f s
  | .pause f => Sys2Proof.Machine.execPause f s
  | .lctlLaneRequest f => Sys2Proof.Machine.execLctlLaneRequest f s
  | .lctlGrant f => Sys2Proof.Machine.execLctlGrant f s
  | .lctlRevocation f => Sys2Proof.Machine.execLctlRevocation f s
  | .lctlLossNotice f => Sys2Proof.Machine.execLctlLossNotice f s
  | .sync f => Sys2Proof.Machine.execSync f s
  | .timeSync => Sys2Proof.Machine.execTimeSync s
  | .timeSyncLost => Sys2Proof.Machine.execTimeSyncLost s
  | .adv f => Sys2Proof.Machine.execAdv f s
  | .counterAddStore who ctr value => Sys2Proof.Machine.execCounterAddStore who ctr value s
  | .counterSet who ctr value => Sys2Proof.Machine.execCounterSet who ctr value s
  | .triggerEntryComplete entry => Sys2Proof.Machine.execTriggerEntryComplete entry s
  | .groupContributionStore who group value => Sys2Proof.Machine.execGroupContributionStore who group value s
  | .undefinedEncoding sub word => Sys2Proof.Machine.execUndefinedEncoding sub word s
  | .softError site uncorrectable => Sys2Proof.Machine.execSoftError site uncorrectable s
  | .linkUp link => Sys2Proof.Machine.execLinkUp link s
  | .hostLinkUp => Sys2Proof.Machine.execHostLinkUp s
  | .preemptRestoreComplete core => Sys2Proof.Machine.execPreemptRestoreComplete core s
  | .visitorStateChange rec1 state joina done => Sys2Proof.Machine.execVisitorStateChange rec1 state joina done s
  | .msixEventSignal fn => Sys2Proof.Machine.execMsixEventSignal fn s

end Sys2Proof.Machine
end

