-- ==== Sys2Proof/Machine/Touches.lean ====
section
/-! DEFINITION. The registers that an instruction reads and writes, for the interlocks (R52) and the check of
uncorrectable registers (R147). -/

namespace Sys2Proof.Machine

/-- R57: the registers that the substituted fields of a parameter block name. -/
def blockRegs (fs : List BField) (p : Block) : List Reg :=
  (List.range fs.length).filterMap (fun i =>
    match fs[i]? with
    | some f => if p.getLsbD (120 + i) then some (p.extractLsb' f.lo 5) else none
    | none => none)

/-- R52: the registers an instruction reads, and those it writes, in the window of the moment. -/
def touches (i : Instr) : List Reg × List Reg :=
  match i with
  | .shortMvReg d s => ([s], [d])
  | .shortMvImm d _ => ([], [d])
  | .shortAddReg d s => ([d, s], [d])
  | .shortAddImm d _ => ([d], [d])
  | .shortSubReg d s => ([d, s], [d])
  | .shortSubImm d _ => ([d], [d])
  | .shortAndReg d s => ([d, s], [d])
  | .shortAndImm d _ => ([d], [d])
  | .shortOrReg d s => ([d, s], [d])
  | .shortOrImm d _ => ([d], [d])
  | .shortXorReg d s => ([d, s], [d])
  | .shortXorImm d _ => ([d], [d])
  | .shortShlReg d s => ([d, s], [d])
  | .shortShlImm d _ => ([d], [d])
  | .shortShrReg d s => ([d, s], [d])
  | .shortShrImm d _ => ([d], [d])
  | .shortSraReg d s => ([d, s], [d])
  | .shortSraImm d _ => ([d], [d])
  | .shortMinReg d s => ([d, s], [d])
  | .shortMinImm d _ => ([d], [d])
  | .shortMaxReg d s => ([d, s], [d])
  | .shortMaxImm d _ => ([d], [d])
  | .shortSltReg d s => ([d, s], [d])
  | .shortSltImm d _ => ([d], [d])
  | .shortMulReg d s => ([d, s], [d])
  | .shortMulImm d _ => ([d], [d])
  | .shortLdReg d s => ([s], [d])
  | .shortLdOff d _ => ([d], [d])
  | .shortStReg d s => ([d, s], [])
  | .shortStImm d _ => ([d], [])
  | .skz s _ => ([s], [])
  | .skzN s _ => ([s], [])
  | .add d a b => ([a, b], [d])
  | .sub d a b => ([a, b], [d])
  | .and d a b => ([a, b], [d])
  | .or d a b => ([a, b], [d])
  | .xor d a b => ([a, b], [d])
  | .andn d a b => ([a, b], [d])
  | .shl d a b => ([a, b], [d])
  | .shr d a b => ([a, b], [d])
  | .sra d a b => ([a, b], [d])
  | .rol d a b => ([a, b], [d])
  | .min d a b => ([a, b], [d])
  | .max d a b => ([a, b], [d])
  | .minu d a b => ([a, b], [d])
  | .maxu d a b => ([a, b], [d])
  | .slt d a b => ([a, b], [d])
  | .sltu d a b => ([a, b], [d])
  | .seq d a b => ([a, b], [d])
  | .mul d a b => ([a, b], [d])
  | .mulh d a b => ([a, b], [d])
  | .mulhu d a b => ([a, b], [d])
  | .div d a b => ([a, b], [d])
  | .divu d a b => ([a, b], [d])
  | .rem d a b => ([a, b], [d])
  | .remu d a b => ([a, b], [d])
  | .clz d a => ([a], [d])
  | .ctz d a => ([a], [d])
  | .popc d a => ([a], [d])
  | .bswap d a => ([a], [d])
  | .brev d a => ([a], [d])
  | .sext d a _ => ([a], [d])
  | .zext d a _ => ([a], [d])
  | .addi d a _ => ([a], [d])
  | .andi d a _ => ([a], [d])
  | .ori d a _ => ([a], [d])
  | .xori d a _ => ([a], [d])
  | .shli d a _ => ([a], [d])
  | .shri d a _ => ([a], [d])
  | .srai d a _ => ([a], [d])
  | .roli d a _ => ([a], [d])
  | .slti d a _ => ([a], [d])
  | .sltui d a _ => ([a], [d])
  | .seqi d a _ => ([a], [d])
  | .lit d _ => ([], [d])
  | .litZ d _ => ([], [d])
  | .litH d _ => ([d], [d])
  | .sel d a b c => ([a, b, c], [d])
  | .selN d a b c => ([a, b, c], [d])
  | .skipEq a b _ => ([a, b], [])
  | .skipNe a b _ => ([a, b], [])
  | .skipLt a b _ => ([a, b], [])
  | .skipGe a b _ => ([a, b], [])
  | .skipLtu a b _ => ([a, b], [])
  | .skipGeu a b _ => ([a, b], [])
  | .lea d _ a b => ([a, b], [d])
  | .leaPc d _ => ([], [d])
  | .bEq a b _ => ([a, b], [])
  | .bNe a b _ => ([a, b], [])
  | .bLt a b _ => ([a, b], [])
  | .bGe a b _ => ([a, b], [])
  | .bLtu a b _ => ([a, b], [])
  | .bGeu a b _ => ([a, b], [])
  | .bz a _ => ([a], [])
  | .bnz a _ => ([a], [])
  | .jr a => ([a], [])
  | .callr8 a => ([a], [])
  | .callr16 a => ([a], [])
  | .ret => ([23], [])
  | .loop a _ => ([a], [a])
  | .ldB d a _ _ => ([a], [d])
  | .ldH d a _ _ => ([a], [d])
  | .ldW d a _ _ => ([a], [d])
  | .ldD d a _ _ => ([a], [d])
  | .ldBu d a _ _ => ([a], [d])
  | .ldHu d a _ _ => ([a], [d])
  | .ldWu d a _ _ => ([a], [d])
  | .stB d a _ _ => ([d, a], [])
  | .stH d a _ _ => ([d, a], [])
  | .stW d a _ _ => ([d, a], [])
  | .stD d a _ _ => ([d, a], [])
  | .ldx d _ a b _ _ => ([a, b], [d])
  | .stx d _ a b _ _ => ([d, a, b], [])
  | .ldp d a _ _ => ([a], [d, d + 1])
  | .ldq d a _ _ => ([a], [d, d + 1, d + 2, d + 3])
  | .stp d a _ _ => ([a, d, d + 1], [])
  | .stq d a _ _ => ([a, d, d + 1, d + 2, d + 3], [])
  | .amoSwap d _ a b _ _ => ([a, b], [d])
  | .amoAdd d _ a b _ _ => ([a, b], [d])
  | .amoAnd d _ a b _ _ => ([a, b], [d])
  | .amoOr d _ a b _ _ => ([a, b], [d])
  | .amoXor d _ a b _ _ => ([a, b], [d])
  | .amoMin d _ a b _ _ => ([a, b], [d])
  | .amoMax d _ a b _ _ => ([a, b], [d])
  | .amoMinu d _ a b _ _ => ([a, b], [d])
  | .amoMaxu d _ a b _ _ => ([a, b], [d])
  | .amoCas d _ a b _ _ => ([d, a, b], [d])
  | .qfence a b => ([a, b], [])
  | .pfL2 a _ => ([a], [])
  | .pfRdc a _ => ([a], [])
  | .cln a _ => ([a], [])
  | .inv a _ => ([a], [])
  | .flush a _ => ([a], [])
  | .zln a _ => ([a], [])
  | .ldScW d a _ _ => ([a], [d])
  | .ldScD d a _ _ => ([a], [d])
  | .stScW d a _ _ => ([d, a], [])
  | .stScD d a _ _ => ([d, a], [])
  | .trap d _ => ([d], [d])
  | .mfs d _ => ([], [d])
  | .mts a _ => ([a], [])
  | .wstat d => ([], [d])
  | .twany d a => ([a], [d])
  | .twall d a => ([a], [d])
  | .tffr d a => ([a], [d])
  | .tclr a => ([a], [])
  | .chsnd a b => ([a, b], [])
  | .chrcv d a => ([a], [d])
  | .chtry d a b => ([a, b], [d])
  | .rng d => ([], [d])
  | .vaddFp d a b _ _ => ([d, a, b], [])
  | .vsubFp d a b _ _ => ([d, a, b], [])
  | .vmulFp d a b _ _ => ([d, a, b], [])
  | .vfma d a b _ _ => ([d, a, b], [])
  | .vfms d a b _ _ => ([d, a, b], [])
  | .vminFp d a b _ _ => ([d, a, b], [])
  | .vmaxFp d a b _ _ => ([d, a, b], [])
  | .vabs a b _ _ => ([a, b], [])
  | .vneg a b _ _ => ([a, b], [])
  | .vceqFp d a b _ _ => ([d, a, b], [])
  | .vcltFp d a b _ _ => ([d, a, b], [])
  | .vcle d a b _ _ => ([d, a, b], [])
  | .vsum a b _ _ => ([a, b], [])
  | .vmaxr a b _ _ => ([a, b], [])
  | .vscale d a b _ _ => ([d, a, b], [])
  | .vaddInt d a b _ _ => ([d, a, b], [])
  | .vsubInt d a b _ _ => ([d, a, b], [])
  | .vmulInt d a b _ _ => ([d, a, b], [])
  | .vminInt d a b _ _ => ([d, a, b], [])
  | .vmaxInt d a b _ _ => ([d, a, b], [])
  | .vminu d a b _ _ => ([d, a, b], [])
  | .vmaxu d a b _ _ => ([d, a, b], [])
  | .vand d a b _ _ => ([d, a, b], [])
  | .vor d a b _ _ => ([d, a, b], [])
  | .vxor d a b _ _ => ([d, a, b], [])
  | .vshl d a b _ _ => ([d, a, b], [])
  | .vshr d a b _ _ => ([d, a, b], [])
  | .vsra d a b _ _ => ([d, a, b], [])
  | .vceqInt d a b _ _ => ([d, a, b], [])
  | .vcltInt d a b _ _ => ([d, a, b], [])
  | .vcltu d a b _ _ => ([d, a, b], [])
  | .vrcp a b _ _ => ([a, b], [])
  | .vrsqrt a b _ _ => ([a, b], [])
  | .vsqrt a b _ _ => ([a, b], [])
  | .vexp2 a b _ _ => ([a, b], [])
  | .vlog2 a b _ _ => ([a, b], [])
  | .vtanh a b _ _ => ([a, b], [])
  | .vsigm a b _ _ => ([a, b], [])
  | .vgelu a b _ _ => ([a, b], [])
  | .vsilu a b _ _ => ([a, b], [])
  | .vdiv d a b _ _ => ([d, a, b], [])
  | .vmov d a b _ => ([d, a, b], [])
  | .vbcast a b _ => ([a, b], [])
  | .vgath a b _ => ([a, b], [])
  | .vscat a b _ => ([a, b], [])
  | .vcomp a b _ => ([a, b], [])
  | .vexpd a b _ => ([a, b], [])
  | .vscan a b _ => ([a, b], [])
  | .vrev a b _ => ([a, b], [])
  | .vcmx d a b _ => ([d, a, b], [])
  | .vmrg a b _ => ([a, b], [])
  | .vbton a b _ => ([a, b], [])
  | .vrank a b _ => ([a, b], [])
  | .vcvt _ a b _ _ => ([a, b], [])
  | .vcur a b _ => ([a, b], [])
  | .vfence a => ([a], [])
  | .vstat d a => ([a], [d])
  | .ksend d a b _ => ([d, a, b], [])
  | .racc d a _ => ([a], [d])
  | .mma _ p => (blockRegs mmaFields p ++ [], [])
  | .mepi a _ p => (blockRegs mepiFields p ++ [a], [])
  | .mldb a _ p => (blockRegs mldbFields p ++ [a], [])
  | .mzero b _ => ([b], [])
  | .msave a b _ => ([a, b], [])
  | .mrest a b _ => ([a, b], [])
  | .mwait a => ([a], [])
  | .lpatch d a b => ([a, b], [d])
  | .spawn d a => ([a], [d])
  | .spawnc d a => ([a], [d])
  | .jsig d a b => ([a, b], [d])
  | .jwait a b => ([a, b], [])
  | .barArr d a => ([a], [d])
  | .barWait a b => ([a, b], [])
  | .barT1 a b => ([a, b], [])
  | .barSet a b => ([a, b], [])
  | .barBytes a b => ([a, b], [])
  | .barBind a b => ([a, b], [])
  | .ldf d a => ([a], [d])
  | .stf d a b => ([a, b], [d])
  | .gjoin d a => ([a], [d])
  | .gleave d a => ([a], [d])
  | .sbBind d a b => ([a, b], [d])
  | .sbRet a => ([a], [])
  | .qpop d a b => ([a, b], [d])
  | .qpush d a b => ([a, b], [d])
  | .schedNext d => ([], [d])
  | .put d a b _ => ([d, a, b], [])
  | .get d a b _ => ([d, a, b], [])
  | .radd d a b _ => ([a, b], [d])
  | .rcas d a b _ => ([d, a, b], [d])
  | .lease d a b => ([a, b], [d])
  | .lrel d a b => ([a, b], [d])
  | .lqry d a => ([a], [d])
  | .trgPost d a b => ([a, b], [d])
  | .trgCancel d a b => ([a, b], [d])
  | .ctrAdd d a b => ([a, b], [d])
  | .ctrWait d a b => ([a, b], [d])
  | .ctrRd d a => ([a], [d])
  | .coll d a b _ p => (blockRegs collFields p ++ [a, b], [d])
  | .grpSt d a b => ([a, b], [d])
  | .grpLd d a b => ([a, b], [d])
  | _ => ([], [])

/-- R173, R187–R193: the stream word register of a vector command that reads register d only with SB = 1. -/
def broadcastBy (i : Instr) : Option Reg :=
  match i with
  | .vaddFp _ a _ _ _ => some a
  | .vsubFp _ a _ _ _ => some a
  | .vmulFp _ a _ _ _ => some a
  | .vminFp _ a _ _ _ => some a
  | .vmaxFp _ a _ _ _ => some a
  | .vceqFp _ a _ _ _ => some a
  | .vcltFp _ a _ _ _ => some a
  | .vcle _ a _ _ _ => some a
  | .vscale _ a _ _ _ => some a
  | .vaddInt _ a _ _ _ => some a
  | .vsubInt _ a _ _ _ => some a
  | .vmulInt _ a _ _ _ => some a
  | .vminInt _ a _ _ _ => some a
  | .vmaxInt _ a _ _ _ => some a
  | .vminu _ a _ _ _ => some a
  | .vmaxu _ a _ _ _ => some a
  | .vand _ a _ _ _ => some a
  | .vor _ a _ _ _ => some a
  | .vxor _ a _ _ _ => some a
  | .vshl _ a _ _ _ => some a
  | .vshr _ a _ _ _ => some a
  | .vsra _ a _ _ _ => some a
  | .vceqInt _ a _ _ _ => some a
  | .vcltInt _ a _ _ _ => some a
  | .vcltu _ a _ _ _ => some a
  | .vdiv _ a _ _ _ => some a
  | .vmov _ a _ _ => some a
  | _ => none

/-- R147, R173, R432: the registers of its word that an instruction reads in the state of its thread: d of a vector command
only where SB = 1, and of an abort of collectives only those of its block. -/
def Thread.reads (t : Thread) (i : Instr) : List Reg :=
  match broadcastBy i, i with
  | some a, _ => if (t.readCode (t.code a)).getLsbD 17 then (touches i).1 else (touches i).1.drop 1
  | none, .coll _ _ _ _ p => if pbits p 109 108 = 3 then blockRegs collFields p else (touches i).1
  | none, _ => (touches i).1

/-- R11, R12: the codes of a block of eight window registers. -/
def blockCodes (b : Nat) : List Nat := (List.range 8).map (fun i => 8 * (b % 12) + i)

/-- R16: the code of the task-mode g4–g7 that a state-register index names, by its offset from g4. -/
def savedGlobal (x : BitVec 12) : List Nat := if 0x00C ≤ x.toNat && x.toNat ≤ 0x00F then [x.toNat - 0x00C] else []

/-- R13, R15, R92, R244: registers that an instruction reads by other names than a specifier of its word, each with what
EVAL[4:0] shows of it when it is uncorrectable (R147). A register of a spilled block shows its place in the block
(DESIGN CHOICE, log 43). -/
def Thread.hiddenSources (t : Thread) (i : Instr) : List (Nat × Nat) :=
  match i with
  | .mfs _ x => (savedGlobal x).map (fun k => (100 + k, 28 + k))
  | .wspill => (List.range 8).map (fun k => (8 * ((t.wb + 12 - t.depth) % 12) + k, k))
  | .done => if t.inl then [(t.code 23, 23)] else []
  | _ => []

/-- R13, R15, R92, R243, R244: registers that an instruction touches outside the current window, or by another name. -/
def Thread.outside (t : Thread) (i : Instr) : List Nat × List Nat :=
  match i with
  | .mfs _ x => ((savedGlobal x).map (100 + ·), [])
  | .mts _ x => ([], (savedGlobal x).map (100 + ·))
  | .done => ((t.hiddenSources i).map Prod.fst, [])
  | .call8 _ => ([], [(8 * (t.wb + 1) + 23) % 96])
  | .call16 _ => ([], [(8 * (t.wb + 2) + 23) % 96])
  | .callr8 _ => ([], [(8 * (t.wb + 1) + 23) % 96])
  | .callr16 _ => ([], [(8 * (t.wb + 2) + 23) % 96])
  | .spawnc _ _ => ([], (8 * (t.wb + 2) + 23) % 96 :: blockCodes (t.wb + 2))
  | .wspill => (blockCodes (t.wb + 12 - t.depth), [])
  | .wfill => ([], blockCodes (t.wb + 12 - t.depth - 1))
  | _ => ([], [])

/-- R52: the physical codes of what an instruction reads and writes; g0 is no register. -/
def Thread.touched (t : Thread) (i : Instr) : List Nat × List Nat :=
  let r := t.reads i
  let w := (touches i).2
  let (r', w') := t.outside i
  ((r.map t.code ++ r').filter (· ≠ 96), (w.map t.code ++ w').filter (· ≠ 96))

/-- R85: the instructions whose outcome a gang's leader decides. -/
def isControl (i : Instr) : Bool :=
  match i with
  | .bEq _ _ _ => true
  | .bNe _ _ _ => true
  | .bLt _ _ _ => true
  | .bGe _ _ _ => true
  | .bLtu _ _ _ => true
  | .bGeu _ _ _ => true
  | .bz _ _ => true
  | .bnz _ _ => true
  | .loop _ _ => true
  | .j _ => true
  | .call8 _ => true
  | .call16 _ => true
  | .jr _ => true
  | .callr8 _ => true
  | .callr16 _ => true
  | .ret => true
  | _ => false

/-- R52, R85: the codes that a forwarded instruction reads and writes in a follower: of a control instruction the outcome
stands, so that an executed loop reads and writes its register, an executed call writes its link word, and one that the
leader suppressed touches nothing. -/
def Thread.touchedAs (t : Thread) (i : Instr) (fwd : Option Outcome) : List Nat × List Nat :=
  match fwd with
  | none => t.touched i
  | some o =>
    if !isControl i then t.touched i
    else if o.suppressed then ([], [])
    else match i with
    | .loop _ _ => t.touched i
    | _ => ([], (t.touched i).2)

/-- R147: the registers whose word an instruction reads, with what EVAL shows of each; `fwd` is the leader's outcome that
a follower applies, which reads no register of the follower but that of an executed loop (R85). -/
def Thread.sources (t : Thread) (i : Instr) (fwd : Option Outcome) : List (Nat × Nat) :=
  let named : List (Nat × Nat) := (t.reads i).map (fun r => (t.code r, r.toNat)) ++ t.hiddenSources i
  match fwd with
  | none => named
  | some o =>
    if !isControl i then named
    else match i with
    | .loop _ _ => if o.suppressed then [] else named
    | _ => []

end Sys2Proof.Machine
end

