-- ==== Sys2Proof/Machine/Issue.lean ====
section
/-! DEFINITION. The issue stage: which slot of a core issues (R123, R91), what an instruction waits for before
it issues (R51, R52), decode (R48), execution, and the forwarding of a gang leader's instructions (R85, R86,
R141). -/

namespace Sys2Proof.Machine

/-- What an attempt to issue did: an instruction issued, the thread waits, or the machine stopped. -/
inductive Try where
  | issued (s : State)
  | waits (s : State)
  | stop (o : Out)

/-- R141: the followers of a gang leader. -/
def State.followers (s : State) (tid : Nat) : List Nat :=
  let t := s.thread tid
  if t.gang && t.gangIx = 0 then (s.gangOf tid).filter (· ≠ tid) else []

/-- R141: an instruction enters the weft buffers of the followers that have no abort pending. -/
def State.forward (s : State) (ms : List Nat) (f : Forwarded) : State :=
  ms.foldl (fun s m =>
    if (s.thread m).abort.isSome || !(s.thread m).gang then s
    else s.modThread m (fun t => { t with weft := t.weft ++ [f] })) s

/-- R52, R85: an instruction waits for a register that a long-latency instruction still reads or writes; `fwd` is the
leader's outcome that a follower applies. -/
def Thread.interlocked (t : Thread) (i : Instr) (fwd : Option Outcome := none) : Bool :=
  let (r, w) := t.touchedAs i fwd
  t.flights.any (fun f =>
    r.any (fun k => f.dests.contains k) || w.any (fun k => f.dests.contains k || f.srcs.contains k))

/-- R147: the first register that an instruction reads and whose word is uncorrectable, as EVAL shows it. -/
def Thread.badSource (t : Thread) (i : Instr) (fwd : Option Outcome) : Option Nat :=
  ((t.sources i fwd).find? (fun r => t.badRegs.contains r.1)).map Prod.snd

/-- R48: the instruction ended in a trap of a step before execution. -/
def earlyTrap (s s' : State) (tid : Nat) : Bool :=
  let t := s'.thread tid
  let early (c : BitVec 8) : Bool := c = 0x01 || c = 0x02 || c = 0x0C
  if t.life = .halted then (match t.haltCause with | some h => early h.code | none => false)
  else t.mode && !(s.thread tid).mode && early t.causeCode

/-- R147: after the checks of decode, the read of an uncorrectable register traps. -/
def State.execChecked (s : State) (tid : Nat) (i : Instr) : Out :=
  match (s.thread tid).badSource i s.fwd with
  | none => exec i s
  | some r =>
    let trapped : Out := s.finish 4 (.error (.trap { code := 0x0D, sub := 1, eval := BitVec.ofNat 64 r }))
    match exec i s with
    | .next s' => if earlyTrap s s' tid then .next s' else trapped
    | _ => trapped

/-- R51: an instruction has issued: RTE is not counted. -/
def State.issuedAs (s : State) (tid : Nat) (i : Instr) (old : List Nat) : State :=
  match i with
  | .rte => s.notedIssue tid old
  | _ => s.countIssue tid old

/-- R142, R143: where the stream of a leader that has issued an instruction of `len` bytes goes on. -/
def State.streamPc (s : State) (tid len : Nat) : Word :=
  let t := s.thread tid
  if t.life = .parked then t.pc + BitVec.ofNat 64 len else t.pc

/-- An instruction of the thread in hand executes; `ms` are the followers that get it. -/
def State.execute (s : State) (tid : Nat) (i : Instr) (ms : List Nat) (f : Forwarded) : Try :=
  let old := (s.thread tid).flights.map (·.id)
  match s.execChecked tid i with
  | .next s' =>
    if s'.stalled then .waits { s' with stalled := false, fwd := none }
    else .issued ({ s' with fwd := none }.forward ms { f with next := s'.streamPc tid f.length }
      |>.issuedAs tid i old)
  | o => .stop o

/-- The suppression left, set. -/
def State.withSkc (s : State) (tid : Nat) (k : BitVec 3) : State := s.modThread tid (fun t => { t with skc := k })

/-- R22: the parcel that a first word belongs to, as far as R353 looks at it. -/
def parcelOf (w : BitVec 32) : Parcel := if w.getLsbD 0 then .word w else .half (w.truncate 16)

/-- R48: the leader suppressed a word that decodes to no instruction, whose trap comes before the feature check. -/
def Forwarded.undecoded (f : Forwarded) : Bool :=
  match f.instr with
  | .undefinedEncoding _ _ => true
  | _ => false

/-- R86: the instruction at the head of a follower's weft buffer. A control instruction decrements SKC before the
leader's outcome is applied, so that a call or ret that traps in the follower's window leaves PSKC = SKC − 1 (DEDUCED,
log 24: R84 speaks of the call, R85 of the decrement). What the leader suppressed it has not checked: the follower
makes steps 2 to 6 of R48 itself (DEDUCED, log 24). -/
noncomputable def State.issueForwarded (s : State) (tid : Nat) (f : Forwarded) : Try :=
  let t := s.thread tid
  let pop (r : Try) : Try :=
    match r with
    | .issued s => .issued (s.modThread tid (fun t =>
        -- the stream goes on where the leader's does, whatever a follower's own rte restored
        { t with weft := t.weft.drop 1, pc := if t.follows && f.instr = .rte then f.next else t.pc }))
    | r => r
  let s := { s.modThread tid (fun t => { t with pc := f.pc }) with cur := tid, ir := f.word }
  match f.outcome with
  | some o =>
    let s := { s.modThread tid (fun t => { t with skc := if t.skc = 0 then 0 else t.skc - 1 }) with fwd := some o }
    if (s.thread tid).interlocked f.instr (some o) then .waits ({ s with fwd := none }.withSkc tid t.skc)
    else match s.execute tid f.instr [] f with
      | .waits s => .waits (s.withSkc tid t.skc)
      | r => pop r
  | none =>
    if t.skc ≠ 0 then pop (.issued (s.suppress tid f.length))
    else if f.unchecked && !f.undecoded && !s.accepted tid (parcelOf f.word) f.instr then
      pop (s.execute tid (.undefinedEncoding 3 f.word) [] f)
    else if t.interlocked f.instr then .waits s
    else pop ({ s with fwd := if f.unchecked then some { suppressed := true } else none }.execute tid f.instr [] f)

/-- R35, R48, R353: what the bytes at the PC of a thread that fetches its own stream are. -/
noncomputable def State.issueOwn (s : State) (tid : Nat) : Try :=
  let t := s.thread tid
  let s := { s with cur := tid }
  let ms := s.followers tid
  match s.fetchInstr tid t.pc with
  | .err s e => .issued (s.fetchFault tid e)
  | .wait =>
    match s.fetchFar tid ((s.missing tid t.pc).getD t.pc) with
    | .err s e => .issued (s.fetchFault tid e)
    | .ok s _ => .waits s
    | .wait => .waits s
  | .ok s bs =>
    let first := match frame bs with | some p => firstWord p | none => 0
    let s := { s with ir := first }
    let fw (i : Instr) (o : Option Outcome) : Forwarded :=
      { pc := t.pc, word := first, instr := i, length := bs.length, outcome := o
        next := t.pc + BitVec.ofNat 64 bs.length, unchecked := t.skc ≠ 0 }
    match decode bs with
    | .error e =>
      let i := Instr.undefinedEncoding e.sub first
      if t.skc ≠ 0 then .issued ((s.suppress tid bs.length).forward ms (fw i none))
      else s.execute tid i [] (fw i none)
    | .ok (i, _) =>
      let o := outcomeOf i s
      if t.skc ≠ 0 then
        .issued ((s.suppress tid bs.length).forward ms (fw i (o.map (fun o => { o with suppressed := true }))))
      else if !((frame bs).map (fun p => s.accepted tid p i)).getD true then
        s.execute tid (.undefinedEncoding 3 first) [] (fw i none)
      else if t.interlocked i then .waits s
      else s.execute tid i ms (fw i o)

/-- R144: a save covers the thread; it issues nothing but what stands in its weft buffer. -/
def State.beingSaved (s : State) (tid : Nat) : Bool :=
  (s.gangOf tid).any (fun m => (s.core (coreOf m)).saving (slotOf m))

/-- R88: a member of the leader's gang has still to get the reply of a service request of the stream. -/
def Thread.serviceOwed (t : Thread) : Bool :=
  (match t.waits with
   | some (.service _ _ _ _ _) => true
   | _ => false) || t.weft.any (fun f => match f.instr with
   | .trap _ _ => true
   | _ => false)

/-- R24, R88, R91, R123, R143, R144, R299, R363: one attempt of a slot to issue. A trap that the slot takes at its turn, a
pending one or that of a fetch, counts as its issue: the core's pointer moves past the slot (DEDUCED, log 23). -/
noncomputable def State.tryIssue (s : State) (tid : Nat) : Try :=
  let t := s.thread tid
  let settle (o : Out) : Try := match o with | .next s => .issued s | o => .stop o
  if t.life ≠ .ready || (s.core (coreOf tid)).stopped || s.coreLost (coreOf tid) || !s.clocked (dieOf (coreOf tid)) then
    .waits s
  else if !t.due.isEmpty then settle (execDeferredTrap (coreOf tid) (slotOf tid) s)
  else if t.abort.isSome then settle (execGangAbort (coreOf tid) (slotOf tid) s)
  else if s.beingSaved tid && !(t.follows && !t.weft.isEmpty) then .waits s
  else if s.yieldHolds tid then .waits s
  else
    let s := if t.yielding then s.modThread tid (fun t => { t with yielding := false, yieldSet := [] }) else s
    if t.held then .waits s
    else if (s.followers tid).any (fun m => (s.thread m).weft.length ≥ 16 || (s.thread m).serviceOwed) then .waits s
    else if t.follows then
      match t.weft with
      | [] => .waits s
      | f :: _ => s.issueForwarded tid f
    else s.issueOwn tid

/-- R123: the slot is ready in this clock. -/
noncomputable def State.ready (s : State) (tid : Nat) : Bool :=
  match s.tryIssue tid with
  | .issued _ => true
  | .stop _ => true
  | .waits _ => false

/-- R91: a slot of a yield set that has stopped being ready is waited for no longer. -/
noncomputable def State.pruneYields (s : State) : State :=
  (s.tids.filter (fun t => (s.thread t).yielding)).foldl (fun s' t =>
    s'.modThread t (fun x => { x with yieldSet := x.yieldSet.filter (fun k => s.ready (tidOf (coreOf t) k)) })) s

/-- R412: the place of a thread's request in its clock. -/
def threadTurn (tid : Nat) : Nat := 0x1001 + tid

/-- The threads have had their turn in this clock, and nothing has issued. -/
noncomputable def State.idle (s : State) : State := { s.pruneYields with phase := threadTurn 0 }

/-- R123: what follows an issue: the core's pointer and the yield sets. -/
noncomputable def State.afterIssue (s : State) (tid : Nat) : State :=
  { ((s.modCore (coreOf tid) (fun x => { x with last := slotOf tid })).yieldSeen (coreOf tid)
      (slotOf tid)).pruneYields with phase := threadTurn tid }

/-- R123: the first slot of a list that issues. -/
noncomputable def State.issueFirst (s : State) : List Nat → Out
  | [] => .next s.idle
  | tid :: r =>
    match s.tryIssue tid with
    | .issued s => .next (s.afterIssue tid)
    | .waits s => s.issueFirst r
    | .stop o => o

/-- The threads in the order in which the model offers them an issue: cores in turn after the last one, and in
each core the slots after its last (R123). -/
def State.turns (s : State) : List Nat :=
  let key (tid : Nat) : Nat :=
    let c := coreOf tid
    ((c + 1024 - (coreOf s.cur + 1) % 1024) % 1024) * 4 + (slotOf tid + 4 - ((s.core c).last + 1) % 4) % 4
  sortBy (fun a b => key a ≤ key b) (s.tids.filter (fun t => (s.thread t).life = .ready))

end Sys2Proof.Machine
end

