-- ==== Sys2Proof/Machine/Auto.lean ====
section
/-! DEFINITION. What moves when nothing is asked for: the internal events of the device that are enabled, in a
fixed order (DESIGN CHOICE, log 8), and then the threads. -/

namespace Sys2Proof.Machine

/-! ### Internal events (DESIGN CHOICE, log 8)
The events that something in the state may enable. Each event's own meaning checks that it is enabled and changes
nothing when it is not. -/

/-- Requests and SC operations on their way (R101, R102, R317). -/
noncomputable def State.accessEvents (s : State) : List Instr :=
  s.reqs.flatMap (fun r => [.homeAccess r.id, .remoteScratchAccess r.id, .loadDataReturn r.id,
    .storeAcknowledgement r.id, .errorResponse r.id]) ++
  s.scOps.map (fun o => .scWindowDelivery o.window)

/-- What a thread waits for or has pending. -/
noncomputable def State.threadEvents (s : State) : List Instr :=
  s.tids.flatMap (fun tid =>
    let t := s.thread tid
    let c := coreOf tid
    let k := slotOf tid
    (if t.deferred.isEmpty then [] else [.deferredTrap c k]) ++
    (if t.abort.isSome then [.gangAbort c k] else []) ++
    (if t.dispatching.isSome then [.dispatchComplete c k] else []) ++
    (match t.wait with
     | some (.gang _) => [.gangFormation c k]
     | some (.rowJoin _ _ _ _) => [.gangRowBarrierJoin c k]
     | some (.service _ _ _ _ _) => [.serviceReply c k]
     | some (.jwait _ _ _ _ _) => [.jwaitTimeout c k]
     | some (.qpop _ _ _ _) => [.queueWaitTimeout c k]
     | some (.qpush _ _ _ _) => [.queueWaitTimeout c k]
     | _ => [])) ++
  s.contexts.flatMap (fun c => match c.thread.wait with
    | some (.service _ _ _ _ _) => [.serviceReply (coreOf c.tid) (slotOf c.tid)]
    | _ => [])

/-- Engines of a core and its pre-emption. -/
noncomputable def State.coreEvents (s : State) : List Instr :=
  s.cores.keys.flatMap (fun c =>
    let x := s.core c
    (if x.vq.isEmpty then [] else [.vectorCommandStart c, .vectorCommandComplete c]) ++
    (if x.ksends.isEmpty then [] else [.ksendRecordApply c]) ++
    (if x.mq.isEmpty then [] else [.matrixEntryStart c, .matrixEntryComplete c]) ++
    (if x.preBusy then [.preemptSaveComplete c, .preemptRestoreComplete c] else []) ++
    [.coreIsolate c, .spareSubstitute c] ++
    (List.range 8).flatMap (fun q => if (s.pump c q).en then [.pumpLoadTile c q, .pumpStoreTile c q] else []))

/-- R336: the clocks of a hop from the decision to the receiver's entry. -/
def hopClocks (src dst : Nat) : Nat := if src / 8 = dst / 8 then 12 else 48

/-- R336, R340: the forwards that arrive in this clock at clusters of the package, in ascending port of their receivers. -/
def State.arrivals (s : State) : List Forward :=
  let port (f : Forward) : Nat := (portTo f.dst f.src).getD 8
  sortBy (fun a b => port a ≤ port b)
    (s.forwards.filter (fun f => decide (f.dst < 32) && f.stage = 0 && decide (f.task.since + hopClocks f.src f.dst ≤ s.clock)))

/-- Dispatch, routing and epochs, in the order of R340 as far as it comes before the local requests of the clock: the sample,
aging and the dispatch. -/
noncomputable def State.clusterEvents (s : State) : List Instr :=
  .epochBoundary ::
  s.forwards.flatMap (fun f =>
    if f.dst < 32 then [.forwardAcceptance f.id, .forwardRefusal f.id] else [.visitorOutcomeUnknown f.id]) ++
  s.clusters.keys.flatMap (fun c => [.taskAging c 2, .taskAging c 1, .taskAging c 0, .dispatch c])

/-- R340: the end of a clock: behind its local requests the forwarded arrivals, then the routing decisions, and the clock
passes. -/
def State.endClock (s : State) : State :=
  let run (f : State → Out) (s : State) : State :=
    match f s with
    | .next t => t
    | _ => s
  let s := s.arrivals.foldl (fun s f => run (execForwardArrival f.id) s) s
  let s := s.clusters.keys.foldl (fun s c =>
    (s.cluster c).entering.foldl (fun s _ => run (execRoutingDecision c) s) s) s
  s.reportLosses.endVerify.tick 1

/-- R412: the place of an event in its clock: completions of engines and fabric operations, flits by port and wavelength,
threads by core and slot, host writes; 0 for an event that the rule does not place. R340 puts visitors that arrive behind
the local requests. -/
def turnOf : Instr → Nat
  | .copyRowPerformed _ _ => 1
  | .copyComplete _ _ => 1
  | .remoteOpComplete _ => 1
  | .triggerEntryComplete _ => 1
  | .putFlit f => flit f
  | .getq f => flit f
  | .getr f => flit f
  | .raddFlit f => flit f
  | .rcasFlit f => flit f
  | .atr f => flit f
  | .fadd f => flit f
  | .pld f => flit f
  | .pst f => flit f
  | .errFlit f => flit f
  | .vis _ => 0x2800
  | .trgCounterAdd f => flit f
  | .trgSmallContribution f => flit f
  | .trgSmallResult f => flit f
  | .trgBulkChunkUp f => flit f
  | .trgBulkChunkDown f => flit f
  | .trgAbortRequest f => flit f
  | .trgAbortDecision f => flit f
  | .trgDescriptorCheck f => flit f
  | .ack f => flit f
  | .nak f => flit f
  | .registerWrite w _ _ => who w
  | .counterAddStore w _ _ => who w
  | .counterSet w _ _ => who w
  | .groupContributionStore w _ _ => who w
  | _ => 0
where
  flit (f : Flit) : Nat := 0x100 + 16 * (f.port % 32) + f.wave % 16
  who : Who → Nat
    | .thread core slot => threadTurn (tidOf core slot)
    | _ => 0x2001

/-- Engines of a die, and what its supervisor core and its caches complete. -/
noncomputable def State.dieEvents (s : State) : List Instr :=
  s.dies.keys.flatMap (fun d =>
    let x := s.die d
    x.channels.keys.flatMap (fun ch =>
      if (s.channel d ch).copies.isEmpty then []
      else (if (s.copyBlock d ch).isSome then [] else [.copyRowPerformed d ch]) ++ [.copyComplete d ch]) ++
    (if x.streams.isEmpty then [] else [.streamerRow d, .streamerComplete d]) ++
    [.tlbInvalidateDone d, .fenceResponse d, .powerTransitionDone d] ++
    (match s.copied d with
     | some (m, _, ok) => [.pageMigrationDone d ok m.bytes]
     | none => []) ++
    x.counts.keys.map (fun k => .pageMigration d (BitVec.ofNat 64 (k * 2 ^ 18))))

/-- The connections on which something waits: partition and peer. -/
def State.liveConns (s : State) : List (Nat × Nat) :=
  let known : List (Nat × Nat) := s.fab.conns.keys.map (fun k => (k / 4096, k % 4096))
  let wanted : List (Nat × Nat) := s.fab.ops.map (fun (o : RemoteOp) => (o.part, o.peer))
  let missed : List (Nat × Nat) :=
    allWaves.flatMap (fun (w : Nat × Nat) => 
      let r := (s.port w.1).lane w.2
      (r.input ++ r.miss).map (fun (f : Flit) => (f.qd, f.src)))
  let edges : List (Nat × Nat) := s.trg.groups.keys.flatMap (fun g =>
    let x := s.group g
    if x.colls.isEmpty then []
    else ((if x.root then [] else [x.parent]) ++ x.slots.map x.kid).map (fun p => (s.groupPart g, p)))
  (known ++ wanted ++ missed ++ edges).eraseDups

/-- Chairli. -/
noncomputable def State.fabricEvents (s : State) : List Instr :=
  s.liveConns.flatMap (fun c =>
    [.contextFetchComplete c.1 c.2, .fabricSend c.1 c.2, .ackTimer c.1 c.2, .nakGapTimeout c.1 c.2,
      .goBackTimeout c.1 c.2]) ++
  s.fab.ops.map (fun o => .remoteOpComplete o.id) ++
  (s.waves (fun _ _ t => t.light = .training)).flatMap (fun w => [.wavelengthLock w.1 w.2, .trainingTimeout w.1 w.2]) ++
  (s.waves (fun _ _ t => t.light = .draining)).map (fun w => .wavelengthDrained w.1 w.2) ++
  (s.fab.regs.cells.filter (fun r => r.2.drain)).map (fun r => .regionRevokeDone r.1) ++
  [.laneRequestTimeout, .timeSync, .timeSyncLost, .gradientAdvertSend] ++
  (List.range 4).flatMap (fun q => (List.range 8).map (fun i => .advertTimeout q i))

/-- Selvedge and the triggers. -/
noncomputable def State.packageEvents (s : State) : List Instr :=
  (s.trg.entries.cells.filter (fun e => e.2.state = 2)).map (fun e => .triggerEntryComplete e.1) ++
  (List.range 4).map (fun q => .partitionScrubDone q) ++
  (List.range 5).map (fun f => .msixEventSignal f)

/-- R412: an event at its place in the clock; when the clock has come past that place, it ends first. -/
noncomputable def State.inTurn (s : State) (n : Nat) (o : Out) : Out :=
  if n = 0 then o
  else if n < s.phase then .next s.endClock
  else match o with
    | .next t => .next { t with phase := n }
    | o => o

/-- The first event of a list that changes something, carried out. -/
noncomputable def State.firstOf (s : State) : List Instr → Option Out
  | [] => none
  | i :: r =>
    match exec i s with
    | .next s' => if s' = s then s.firstOf r else some (s.inTurn (turnOf i) (.next s'))
    | o => some o

/-- R405: flits that wait at their targets are looked at again. -/
def State.retryAll (s : State) : State := s.liveConns.foldl (fun s c => s.retryHeld c.1 c.2) s

/-- R278: the next block of the first copy that has one to write before the last of its row. -/
def State.blocks (s : State) : Option State :=
  s.dies.keys.findSome? (fun d => (s.die d).channels.keys.findSome? (fun ch => s.copyBlock d ch))

/-- The first enabled internal event, carried out. -/
noncomputable def State.auto (s : State) : Option Out :=
  match s.firstOf (s.accessEvents ++ s.threadEvents ++ s.coreEvents ++ s.clusterEvents ++ s.dieEvents ++
      s.fabricEvents ++ s.packageEvents) with
  | some o => some o
  | none =>
    let t := s.retryAll.settleOps
    if t = s then s.blocks.map .next else some (.next t)

/-- One action that the agenda names. -/
noncomputable def State.act (s : State) : Action → Out
  | .event i => s.inTurn (turnOf i) (exec i s)
  | .pass n => .next (if n = 0 then s else s.endClock.tick (n - 1))
  | .issue core slot =>
    if core ≥ 1024 || slot ≥ 4 then .fault .noSuchSlot
    else
      match s.tryIssue (tidOf core slot) with
      | .issued s => .next (s.afterIssue (tidOf core slot))
      | .waits s => .next s.idle
      | .stop o => o

/-- R412: the place in its clock that an action of the agenda has. -/
def Action.turn : Action → Nat
  | .event i => turnOf i
  | .issue _ _ => 0x1000
  | .pass _ => 0

/-- One step: the head of the agenda, else an internal event, else an instruction; a clock whose threads have had their turn
ends before anything that comes before them. -/
noncomputable def State.move (s : State) : Out :=
  match s.agenda with
  | a :: r => if a.turn ≠ 0 && a.turn < s.phase then .next s.endClock else { s with agenda := r }.act a
  | [] =>
    if 0x1000 < s.phase then .next s.endClock
    else match s.auto with
      | some o => o
      | none => s.issueFirst s.turns

/-- Where `placeBytes` puts an instruction: an address of page 0, mapped to physical page 0 of die 0. -/
def placePc : Nat := 0x1000

/-- A state whose next step issues the given bytes on core 0, slot 0: the slot is ready at them, partition 0 has
accepted every feature (R353), and die 0 holds their translation (R292, R295). -/
def State.placeBytes (s : State) (bs : List Byte) : State :=
  let s := { s.homeWriteAll placePc bs with agenda := [.issue 0 0], phase := 0, stalled := false, fwd := none
                                            memBad := s.memBad.filter (fun w => w + 8 ≤ placePc || placePc + bs.length ≤ w) }
  let s := s.modThread 0 (fun t => { t with
    life := .ready, wait := none, pc := BitVec.ofNat 64 placePc, skc := 0, gang := false, weft := [], abort := none
    deferred := [], flights := [], yielding := false, yieldSet := [], badRegs := [] })
  let s := s.modCore 0 (fun x => { x with stopped := false })
  let s := s.modDie 0 (fun d => { d with
    fenced := false, pwrState := 0, part := 0, ptEn := true, tlb := d.tlb.put (tlbKey 0 18) { entry := 0xF, bits := 18 } })
  s.modPart 0 (fun p => { p with
    en := true, dies := p.dies ||| 1, facc0 := BitVec.allOnes 64, facc1 := BitVec.allOnes 5 })

end Sys2Proof.Machine
end

