-- ==== Sys2Proof/Machine/Step.lean ====
section
/-! DEFINITION. One step of the package, and the placing of one instruction before the next step. -/

namespace Sys2Proof.Machine

/-- One step of the package. -/
noncomputable def step (s : State) : Host.Outcome State Fault Refusal := s.move

/-- A state whose next step issues the given bytes as an instruction of core 0, slot 0. -/
def State.withFetchWord (s : State) (nbits w : Nat) : State := 
  s.placeBytes (natBytes 20 (w % 2 ^ nbits))

end Sys2Proof.Machine
end

