-- ==== Sys2Proof/Safety.lean ====
section
/-! DEFINITION. What counts as a sound state of the package, and a run that stays sound: memories in their one
canonical form, g0 at zero, window bases in range. -/

namespace Sys2Proof.Machine

/-- Every memory of the package is in canonical form. -/
def State.canonical (s : State) : Bool :=
  s.mem.wf && s.pkg.staging.wf &&
  s.cores.cells.all (fun c => c.2.scratch.wf && c.2.bstack.wf && c.2.acc.wf)

/-- R13, R21: a thread's window is one that calls and returns can make. -/
def Thread.windowed (t : Thread) : Bool := t.wb < 12 && t.depth ≤ 9

/-- R10, R13: every thread is windowed. -/
def State.windowed (s : State) : Bool := s.threads.cells.all (fun c => c.2.windowed)

/-- A step that goes on, and does not stop the machine. -/
def goesOn (o : Out) : Prop := ∃ s, o = .next s

/-- Every one of the next `k` steps goes on. -/
def SafeFor : Nat → State → Prop
  | 0, _ => True
  | k + 1, s => ∃ t, step s = .next t ∧ SafeFor k t

end Sys2Proof.Machine
end

