-- ==== Sys2Proof/Certificates/Slice0/Obligations.lean ====
section
/-! DEFINITION. The statements for the provers, and the predicates they are written in (namespace
Sys2Proof.Claim): what an instruction changes of its thread, and that it changes nothing else. -/

namespace Sys2Proof.Claim

open Sys2Proof.Machine

/-- Between `s` and `t` nothing but the thread in hand differs. -/
def OnlyMe (s t : State) : Prop :=
  t = { s with threads := t.threads } ∧ ∀ k, k ≠ s.cur → t.thread k = s.thread k

/-- The registers of `y` are those of `x` but for `d`, which holds `v`; g0 (specifier 24) discards it (R10). Every
physical register counts, by its code; a register written whole loses its error mark (R147). -/
def Writes (x y : Thread) (d : Reg) (v : Word) : Prop :=
  y.rd d = (if d = 24 then 0 else v) ∧
  (∀ k, k ≠ x.code d → y.readCode k = x.readCode k) ∧
  y.badRegs = (if d = 24 then x.badRegs else x.badRegs.filter (· ≠ x.code d))

/-- The instruction completes: `d` takes `v`, the PC moves past `len` bytes, and nothing else in the package
changes: no other register, no state register, no memory, no other thread. -/
def Gives (i : Instr) (s : State) (len : Nat) (d : Reg) (v : Word) : Prop :=
  ∃ t, exec i s = .next t ∧ OnlyMe s t ∧ Writes s.me t.me d v ∧
    t.me = { s.me with pc := s.me.pc + BitVec.ofNat 64 len, regs := t.me.regs, badRegs := t.me.badRegs }

/-- The instruction completes and changes nothing but the PC, which becomes `pc`. -/
def Jumps (i : Instr) (s : State) (pc : Word) : Prop :=
  ∃ t, exec i s = .next t ∧ OnlyMe s t ∧ t.me = { s.me with pc := pc }

/-- The instruction completes: the thread becomes `me`, and nothing else in the package changes. -/
def Becomes (i : Instr) (s : State) (me : Thread) : Prop :=
  ∃ t, exec i s = .next t ∧ OnlyMe s t ∧ t.me = me

/-- What the thread in hand is after it has taken a precise trap in task mode (R23, R24). -/
def trapped (x : Thread) (code sub : BitVec 8) (eval : Word) : Thread :=
  { x with life := .ready, wait := none
           causeMult := false, causeDef := false, causeSub := sub, causeCode := code
           epc := x.pc, fpc := x.pc, eval := eval
           pmode := x.mode, pskc := x.skc, skc := 0, mode := true, pc := x.hvec }

/-- The instruction takes a precise trap: the thread is as R23 leaves it; beside it only accesses that the thread
waited for at issue are given up. -/
def Traps (i : Instr) (s : State) (code sub : BitVec 8) (eval : Word) : Prop :=
  ∃ t, exec i s = .next t ∧ t = { s with threads := t.threads, reqs := t.reqs } ∧
    (∀ k, k ≠ s.cur → t.thread k = s.thread k) ∧ t.me = trapped s.me code sub eval ∧
    (∀ r ∈ t.reqs, r ∈ s.reqs)

/-- The thread is in task mode and in no gang: a trap of it is its own affair (R23, R27). -/
def TaskAlone (s : State) : Prop := s.me.mode = false ∧ s.me.gang = false

/-- The first instruction word, zero-extended (R22). -/
def irWord (s : State) : Word := s.ir.zeroExtend 64

/-- What every reachable state keeps: memory in its one canonical form, and every thread's window one that calls and
returns can make (R12, R13). -/
def Kept (s : State) : Prop := s.mem.wf = true ∧ ∀ k, (s.thread k).wb < 12 ∧ (s.thread k).depth ≤ 9

/-- The scalar, control and system instructions, the end of a task and the spill and fill of a window among them. -/
def scalarAndControl (d a b c : Reg) (n : BitVec 2) (i5 : BitVec 5) (n6 : BitVec 6) (i10 : BitVec 10) (i12 : BitVec 12)
    (i13 : BitVec 13) (i14 : BitVec 14) (i15 : BitVec 15) (i25 : BitVec 25) (e : BitVec 32) : List Instr :=
  [.shortMvReg d a, .shortMvImm d i5, .shortAddReg d a, .shortAddImm d i5, .shortSubReg d a, .shortSubImm d i5,
   .shortAndReg d a, .shortAndImm d i5, .shortOrReg d a, .shortOrImm d i5, .shortXorReg d a, .shortXorImm d i5,
   .shortShlReg d a, .shortShlImm d i5, .shortShrReg d a, .shortShrImm d i5, .shortSraReg d a, .shortSraImm d i5,
   .shortMinReg d a, .shortMinImm d i5, .shortMaxReg d a, .shortMaxImm d i5, .shortSltReg d a, .shortSltImm d i5,
   .shortMulReg d a, .shortMulImm d i5, .skz a n, .skzN a n,
   .add d a b, .sub d a b, .and d a b, .or d a b, .xor d a b, .andn d a b, .shl d a b, .shr d a b, .sra d a b,
   .rol d a b, .min d a b, .max d a b, .minu d a b, .maxu d a b, .slt d a b, .sltu d a b, .seq d a b, .mul d a b,
   .mulh d a b, .mulhu d a b, .div d a b, .divu d a b, .rem d a b, .remu d a b, .clz d a, .ctz d a, .popc d a,
   .bswap d a, .brev d a, .sext d a n, .zext d a n, .sel d a b c, .selN d a b c, .addi d a i15, .andi d a i15, .ori d a i15, .xori d a i15, .shli d a n6, .shri d a n6,
   .srai d a n6, .roli d a n6, .slti d a i13, .sltui d a i13, .seqi d a i13, .lit d e, .litZ d e, .litH d e,
   .skipEq a b n, .skipNe a b n, .skipLt a b n, .skipGe a b n, .skipLtu a b n, .skipGeu a b n, .lea d n a b, .leaPc d i14,
   .bEq a b i12, .bNe a b i12, .bLt a b i12, .bGe a b i12, .bLtu a b i12, .bGeu a b i12, .bz a i15, .bnz a i15,
   .j i25, .call8 i25, .call16 i25, .jr a, .callr8 a, .callr16 a, .ret, .loop a i15,
   .nop, .trap d i10, .rte, .yield, .mfs d i12, .mts a i12, .wstat d, .rng d, .done, .wspill, .wfill]

/-- The little-endian number in `n` bytes (R98, R105), said byte by byte. -/
def le (m : Memory) (a n : Nat) : Nat := ((List.range n).map (fun i => (m.read (a + i)).toNat * 256 ^ i)).sum
/-- What a load of `n` bytes with the number `v` leaves in a register (R105). -/
def loadedAs (signed : Bool) (n v : Nat) : Word :=
  if signed then (BitVec.ofNat (8 * n) v).signExtend 64 else BitVec.ofNat 64 v
/-- Byte `i` of a value. -/
def byteOf (v : Word) (i : Nat) : Byte := v.extractLsb' (8 * i) 8

/-- `va` names `n` bytes at `off` of the thread's own scratchpad (R97), the frames are pinned to the current context
(R127), no copy has still to write them (R278), none of them is uncorrectable, the die is not fenced, and no access of
the thread that comes before is still to reach them (R119, R306). -/
def OwnBytes (s : State) (va : Word) (off n : Nat) : Prop :=
  va.toNat = 0xF0 * 2 ^ 56 + off ∧ off + n ≤ 0x60000 ∧ (s.die s.myDie).fenced = false ∧
  (∀ f, off / 0x4000 ≤ f → f ≤ (off + n - 1) / 0x4000 → (s.core s.myCore).pinned f = true) ∧
  s.watched (some s.myCore) off n = false ∧ (∀ w ∈ (s.core s.myCore).scratchBad, w + 8 ≤ off ∨ off + n ≤ w) ∧
  s.scPending = false ∧
  ∀ r ∈ s.reqs, r.tid = s.cur → r.resp = none → ∀ t ∈ r.tgts, t.meets r.n (.scratch s.myCore off) n = false

/-- The instruction completes with `b` in the `n` bytes at `off` of the own scratchpad: every other byte of every
scratchpad and all of memory reads as before, no register changes, and of the thread only the PC and (for L > 0) the
stores whose acknowledgement is outstanding. -/
def PutsScratch (i : Instr) (s : State) (len L off n : Nat) (b : Nat → Byte) : Prop :=
  ∃ t, exec i s = .next t ∧
    (∀ x, (t.core s.myCore).scratch.read x = if off ≤ x ∧ x < off + n then b (x - off) else
      (s.core s.myCore).scratch.read x) ∧
    (∀ c, c ≠ s.myCore → t.core c = s.core c) ∧
    t.core s.myCore = { s.core s.myCore with scratch := (t.core s.myCore).scratch, frames := (t.core s.myCore).frames } ∧
    (∀ k, k ≠ s.cur → t.thread k = s.thread k) ∧
    t.me = { s.me with pc := s.me.pc + BitVec.ofNat 64 len, unacked := t.me.unacked } ∧
    (L = 0 → t.me.unacked = s.me.unacked ∧ t.reqs = s.reqs ∧ t.nextId = s.nextId) ∧
    t = { s with threads := t.threads, cores := t.cores, reqs := t.reqs, nextId := t.nextId }

/-- The loads of one register: the instruction, its length, its bytes, its L, whether it sign-extends, and its address
(R38, R39, R105, R106). -/
def loadForms (s : State) (d r a b : Reg) (j : BitVec 5) (o : BitVec 8) (k : BitVec 2) (z : BitVec 3) (L : BitVec 4) :
    List (Instr × Nat × Nat × BitVec 4 × Bool × Word) :=
  [(.shortLdReg d r, 2, 8, 0, true, s.rd r), (.shortLdOff d j, 2, 8, 0, true, s.rd d + 8 * j.zeroExtend 64),
   (.ldB d a o L, 4, 1, L, true, s.rd a + o.signExtend 64), (.ldH d a o L, 4, 2, L, true, s.rd a + 2 * o.signExtend 64),
   (.ldW d a o L, 4, 4, L, true, s.rd a + 4 * o.signExtend 64), (.ldD d a o L, 4, 8, L, true, s.rd a + 8 * o.signExtend 64),
   (.ldBu d a o L, 4, 1, L, false, s.rd a + o.signExtend 64), (.ldHu d a o L, 4, 2, L, false, s.rd a + 2 * o.signExtend 64),
   (.ldWu d a o L, 4, 4, L, false, s.rd a + 4 * o.signExtend 64),
   (.ldx d k a b z L, 4, 2 ^ (z.toNat % 4), L, decide (z.toNat < 4), s.rd a + (s.rd b <<< k.toNat))]

/-- The stores of one register or immediate: the instruction, its length, its bytes, its L, its value, and its address. -/
def storeForms (s : State) (d r a b : Reg) (j : BitVec 5) (o : BitVec 8) (k : BitVec 2) (z : BitVec 3) (L : BitVec 4) :
    List (Instr × Nat × Nat × BitVec 4 × Word × Word) :=
  [(.shortStReg d r, 2, 8, 0, s.rd r, s.rd d), (.shortStImm d j, 2, 8, 0, j.signExtend 64, s.rd d),
   (.stB d a o L, 4, 1, L, s.rd d, s.rd a + o.signExtend 64), (.stH d a o L, 4, 2, L, s.rd d, s.rd a + 2 * o.signExtend 64),
   (.stW d a o L, 4, 4, L, s.rd d, s.rd a + 4 * o.signExtend 64), (.stD d a o L, 4, 8, L, s.rd d, s.rd a + 8 * o.signExtend 64),
   (.stx d k a b z L, 4, 2 ^ z.toNat, L, s.rd d, s.rd a + (s.rd b <<< k.toNat))]

/-- The `k` registers from `d` on hold the doublewords `v q`, and no other register has changed (R109, R110). -/
def FillsGroup (s t : State) (d : Reg) (k : Nat) (v : Nat → Word) : Prop :=
  (∀ q, q < k → t.me.rd (d + BitVec.ofNat 5 q) = if d + BitVec.ofNat 5 q = 24 then 0 else v q) ∧
  (∀ c, (∀ q, q < k → c ≠ s.me.code (d + BitVec.ofNat 5 q)) → t.me.readCode c = s.me.readCode c) ∧
  t.me = { s.me with pc := s.me.pc + 4, regs := t.me.regs, badRegs := t.me.badRegs }

/-- `n` bytes at physical address `pa` of the thread's own die serve an access of the partition `key` in plain memory:
R266, R101, R171, R104, R278. -/
def HomeServes (s : State) (l : Leaf) (n : Nat) : Prop :=
  homeDie l.pa = some s.myDie ∧ s.dead s.myDie = false ∧ s.owner s.myDie = some l.key ∧
  (s.die s.myDie).windowAt l.pa = none ∧ l.pa % 256 + n ≤ 256 ∧ s.watched none l.pa n = false ∧
  (∀ w ∈ s.memBad, w + 8 ≤ l.pa ∨ l.pa + n ≤ w)

/-- The same, with no access on its way that it could have to follow (R119, R315). -/
def HomeBytes (s : State) (l : Leaf) (n : Nat) : Prop := HomeServes s l n ∧ s.reqs = [] ∧ s.scPending = false

/-- A load of `k` parts of `n` bytes at `va`, of `len` bytes and with L = `l`, leaves for its targets: it is in flight under the
next number with the registers it will write, its request stands among the accesses on their way, the thread moves past
it, and no register and no memory has changed. -/
def LeavesAsLoad (i : Instr) (s : State) (len : Nat) (l : BitVec 4) (dests : List Nat) (va : Word) (n k : Nat)
    (tgts : List Target) : Prop :=
  ∃ t f r, exec i s = .next t ∧ t = { s with threads := t.threads, reqs := s.reqs ++ [r], nextId := s.nextId + 1 } ∧
    (∀ m, m ≠ s.cur → t.thread m = s.thread m) ∧
    t.me = { s.me with pc := s.me.pc + BitVec.ofNat 64 len, flights := s.me.flights ++ [f] } ∧
    f.id = s.nextId ∧ f.dests = dests ∧ f.left = (if l = 15 then none else some l.toNat) ∧ f.kind = .memory ∧
    r.id = s.nextId ∧ r.tid = s.cur ∧ r.va = va ∧ r.n = n ∧ r.k = k ∧ r.tgts = tgts ∧ r.resp = none ∧ r.sent = false

/-- A store puts `n` bytes at `pa` of memory: every other byte reads as before, no register changes, and of the thread only
the PC and (for L > 0) the stores whose acknowledgement is outstanding. -/
def PutsMemory (i : Instr) (s : State) (len : Nat) (l : BitVec 4) (pa n : Nat) (b : Nat → Byte) : Prop :=
  ∃ t, exec i s = .next t ∧
    (∀ x, t.mem.read x = if pa ≤ x ∧ x < pa + n then b (x - pa) else s.mem.read x) ∧
    t = { s with threads := t.threads, mem := t.mem, reqs := t.reqs, nextId := t.nextId } ∧
    (∀ k, k ≠ s.cur → t.thread k = s.thread k) ∧
    t.me = { s.me with pc := s.me.pc + BitVec.ofNat 64 len, unacked := t.me.unacked } ∧
    (l = 0 → t.me.unacked = s.me.unacked ∧ t.reqs = [])

/-- The parts of a pair or a quad, a doubleword each, resolve to consecutive memory of one line at home. -/
def PairAtHome (s : State) (acc : Acc) (va : Word) (k : Nat) (l : Leaf) : Prop :=
  (∀ q, q < k → s.resolve s.cur acc (va + 8 * BitVec.ofNat 64 q) 8 false = .ok (.mem { l with pa := l.pa + 8 * q })) ∧
  HomeBytes s l (8 * k) ∧ ∀ q, q < k → s.watched none (l.pa + 8 * q) 8 = false

/-- The atomic operations of major 0x1A (R111). -/
def atomics (d : Reg) (sc : BitVec 3) (a b : Reg) (z : BitVec 1) (o : BitVec 2) : List Instr :=
  [.amoSwap d sc a b z o, .amoAdd d sc a b z o, .amoAnd d sc a b z o, .amoOr d sc a b z o, .amoXor d sc a b z o,
   .amoMin d sc a b z o, .amoMax d sc a b z o, .amoMinu d sc a b z o, .amoMaxu d sc a b z o, .amoCas d sc a b z o]

/-- The instruction, of 4 bytes and L > 0, has failed a check (R24, R101): its fault is on its way back under the next
number, it is in flight with the registers that it would write, and the thread moves past it. -/
def FaultsLate (i : Instr) (s : State) (L : BitVec 4) (dests : List Nat) (code sub : BitVec 8) (eval : Word) : Prop :=
  ∃ t q, exec i s = .next t ∧ t = { s with threads := t.threads, reqs := s.reqs ++ [q], nextId := s.nextId + 1 } ∧
    q.id = s.nextId ∧ q.tid = s.cur ∧ q.resp = some (.err { code := code, sub := sub, eval := eval }) ∧
    q.engine = false ∧ q.pc = s.me.pc ∧ q.order = s.order ∧ (∀ k, k ≠ s.cur → t.thread k = s.thread k) ∧
    t.me = { s.me with pc := s.me.pc + 4, flights := s.me.flights ++
      [{ id := s.nextId, kind := .memory, left := if L = 15 then none else some L.toNat, dests := dests
         handler := s.me.mode, pc := s.me.pc, order := s.order }] }

/-- The instruction parks its thread on a wait (R28): nothing else changes but the count that orders waits (R137). -/
def Parks (i : Instr) (s : State) (w : Wait) : Prop :=
  ∃ t, exec i s = .next t ∧ t = { s with threads := t.threads, order := s.order + 1 } ∧
    (∀ k, k ≠ s.cur → t.thread k = s.thread k) ∧
    t.me = { s.me with life := .parked, wait := some w, parkedAt := s.order }

/-- The thread in hand moves past an instruction of 4 bytes and is otherwise as it was; no other thread changes. -/
def Passes (s t : State) : Prop :=
  t.cur = s.cur ∧ t.me = { s.me with pc := s.me.pc + 4 } ∧ ∀ k, k ≠ s.cur → t.thread k = s.thread k

/-- The same, with a value in `d`. -/
def PassesWith (s t : State) (d : Reg) (v : Word) : Prop :=
  t.cur = s.cur ∧ Writes s.me t.me d v ∧ (∀ k, k ≠ s.cur → t.thread k = s.thread k) ∧
  t.me = { s.me with pc := s.me.pc + 4, regs := t.me.regs, badRegs := t.me.badRegs }

/-- No thread of the package is parked. -/
def NoneParked (s : State) : Prop := ∀ k, (s.thread k).waits = none

/-- Position i of a vector command is active (R174). -/
def activeIn (c : VCmd) (i : Nat) : Prop := c.mask.getLsbD (i % 64) = true
/-- The scratch offset of element i of a role's cursor: 0 is D, 1 is S1, 2 is S2 (R177). -/
def spotOf (c : VCmd) (r i : Nat) : Nat := ((getCursor c.cursors (cursorOf c.sw r)).at i).toNat
/-- Element i of a role, of `z` bytes. -/
def elemAt (x : Core) (c : VCmd) (z r i : Nat) : Elem := x.elem (spotOf c r i) z

/-- The rational number that a finite value is. -/
def real : Machine.Num → Option ℚ
  | .fin n m e => some ((if n then -1 else 1) * (m : ℚ) * (2 : ℚ) ^ e)
  | _ => none

/-- A command of N positions with elements of `z` bytes gives value and conditions `v i` at each active position i: it writes
there, zero at an inactive one when Z is set, and nowhere else; it raises the conditions of its active positions, and has
no fault. -/
def Elementwise (r : Computed) (c : VCmd) (z : Nat) (v : Nat → Nat × Cond) : Prop :=
  r.fault = none ∧
  (∀ i < streamN c.sw, activeIn c i → (spotOf c 0 i, z, (v i).1) ∈ r.writes) ∧
  (∀ i < streamN c.sw, ¬ activeIn c i → c.sw.getLsbD 20 = true → (spotOf c 0 i, z, 0) ∈ r.writes) ∧
  (∀ q ∈ r.writes, ∃ j < streamN c.sw, (activeIn c j ∨ c.sw.getLsbD 20 = true) ∧ q.1 = spotOf c 0 j ∧ q.2.1 = z) ∧
  ∀ f ∈ [Cond.nv, Cond.dz, Cond.of, Cond.uf, Cond.uz, Cond.ue],
    (f r.cond = true ↔ ∃ i < streamN c.sw, activeIn c i ∧ f (v i).2 = true)

/-- The byte that the last write covering address y puts there. -/
def lastByte (ws : List (Nat × Nat × Nat)) (y : Nat) : Option Byte :=
  ws.reverse.findSome? (fun p =>
    if p.1 ≤ y ∧ y < p.1 + p.2.1 then some (BitVec.ofNat 8 (p.2.2 / 256 ^ (y - p.1))) else none)

/-- The operand rules of a vector command hold (R173, R174, R177, R180, R195, R196): no reserved bit or unused field of
the stream word is set, the scalar operand is one the command takes (its register field `d` zero where the command accepts a broadcast and makes
none), every cursor is aligned and in range. -/
def VectorReady (s : State) (op : Vop) (fmt : Nat) (sw mask : Word) (d : Reg) : Prop :=
  let scalar := s.rd d
  let uses := op.uses fmt (sw.getLsbD 17) (bits sw.toNat 19 18) (streamN sw) (activeCount mask (streamN sw)) (routeM scalar)
  sw.toNat < 2 ^ 21 ∧ (sw.getLsbD 20 = true → op.accepts.1 = true) ∧ (sw.getLsbD 17 = true → op.accepts.2.1 = true) ∧
  (bits sw.toNat 19 18 ≠ 0 → op.accepts.2.2 = true) ∧
  (∀ r < 3, (∀ u ∈ uses, u.role ≠ r) → cursorOf sw r = 0) ∧
  (op.accepts.2.1 = true → sw.getLsbD 17 = false → d = 0) ∧
  (op = .move 8 → stepOk scalar = true) ∧ (op = .ksend → routeOk scalar = true) ∧ (∀ f, op = .cvt f → f ≠ fmt) ∧
  checkCursors s.me.cursors sw uses = none

/-- The vector commands with their operation, format or width code and scalar register (R46). -/
def vectorCommands (d a b : Reg) (t w : BitVec 2) (x f : BitVec 3) (L : BitVec 4) : List (Instr × Vop × Nat × Reg) :=
  [(.vaddFp d a b t L, .float 0, t.toNat, d), (.vsubFp d a b t L, .float 1, t.toNat, d),
   (.vmulFp d a b t L, .float 2, t.toNat, d), (.vfma d a b t L, .float 3, t.toNat, d),
   (.vfms d a b t L, .float 4, t.toNat, d), (.vminFp d a b t L, .float 5, t.toNat, d),
   (.vmaxFp d a b t L, .float 6, t.toNat, d), (.vabs a b t L, .float 7, t.toNat, 24),
   (.vneg a b t L, .float 8, t.toNat, 24), (.vceqFp d a b t L, .float 9, t.toNat, d),
   (.vcltFp d a b t L, .float 10, t.toNat, d), (.vcle d a b t L, .float 11, t.toNat, d),
   (.vsum a b t L, .float 12, t.toNat, 24), (.vmaxr a b t L, .float 13, t.toNat, 24),
   (.vscale d a b t L, .float 14, t.toNat, d),
   (.vaddInt d a b w L, .int 0, w.toNat, d), (.vsubInt d a b w L, .int 1, w.toNat, d),
   (.vmulInt d a b w L, .int 2, w.toNat, d), (.vminInt d a b w L, .int 3, w.toNat, d),
   (.vmaxInt d a b w L, .int 4, w.toNat, d), (.vminu d a b w L, .int 5, w.toNat, d),
   (.vmaxu d a b w L, .int 6, w.toNat, d), (.vand d a b w L, .int 7, w.toNat, d),
   (.vor d a b w L, .int 8, w.toNat, d), (.vxor d a b w L, .int 9, w.toNat, d),
   (.vshl d a b w L, .int 10, w.toNat, d), (.vshr d a b w L, .int 11, w.toNat, d),
   (.vsra d a b w L, .int 12, w.toNat, d), (.vceqInt d a b w L, .int 13, w.toNat, d),
   (.vcltInt d a b w L, .int 14, w.toNat, d), (.vcltu d a b w L, .int 15, w.toNat, d),
   (.vrcp a b t L, .fn 0, t.toNat, 24), (.vrsqrt a b t L, .fn 1, t.toNat, 24), (.vsqrt a b t L, .fn 2, t.toNat, 24),
   (.vexp2 a b t L, .fn 3, t.toNat, 24), (.vlog2 a b t L, .fn 4, t.toNat, 24), (.vtanh a b t L, .fn 5, t.toNat, 24),
   (.vsigm a b t L, .fn 6, t.toNat, 24), (.vgelu a b t L, .fn 7, t.toNat, 24), (.vsilu a b t L, .fn 8, t.toNat, 24),
   (.vdiv d a b t L, .fn 9, t.toNat, d),
   (.vmov d a b L, .move 0, 0, d), (.vbcast a b L, .move 1, 0, 24), (.vgath a b L, .move 2, 0, 24),
   (.vscat a b L, .move 3, 0, 24), (.vcomp a b L, .move 4, 0, 24), (.vexpd a b L, .move 5, 0, 24),
   (.vscan a b L, .move 6, 0, 24), (.vrev a b L, .move 7, 0, 24), (.vcmx d a b L, .move 8, 0, d),
   (.vmrg a b L, .move 9, 0, 24), (.vbton a b L, .move 10, 0, 24), (.vrank a b L, .move 11, 0, 24),
   (.vcvt x a b f L, .cvt x.toNat, f.toNat, 24), (.ksend d a b L, .ksend, 0, d)]

/-- The thread in hand has nothing outstanding, and its die no store to another package: the release fence of an
instruction does not wait (R116, R241, R312). -/
def Drained (s : State) : Prop :=
  s.me.flights = [] ∧ s.me.unacked = [] ∧
  ∀ r ∈ s.reqs, dieOf (coreOf r.tid) = s.myDie → r.engine = false → r.op.writes = true → r.resp = none →
    ∀ t ∈ r.tgts, t.isFar = false

/-- `va` names object `i` of a kind in cluster `c`, of the thread's partition and not poisoned (R239, R260). -/
def Here (s : State) (k : ObjKind) (va : Word) (c i : Nat) : Prop :=
  objectAt k va = some (c, i) ∧ (s.die (c / 8)).part = s.partOf s.cur ∧ va.toNat % 2 ^ 32 ∉ (s.cluster c).poisoned

/-- Between `s` and `t` only threads and cluster `c` differ. -/
def ClusterOnly (s t : State) (c : Nat) : Prop :=
  t = { s with threads := t.threads, clusters := t.clusters } ∧ ∀ k, k ≠ c → t.cluster k = s.cluster k

/-- The instruction completes with an acquire of package scope (R270): the die's epoch and the thread's move on. -/
def Acquires (i : Instr) (s : State) : Prop :=
  ∃ t, exec i s = .next t ∧ t = { s with threads := t.threads, dies := t.dies } ∧
    (∀ k, k ≠ s.cur → t.thread k = s.thread k) ∧ (∀ d, d ≠ s.myDie → t.die d = s.die d) ∧
    t.die s.myDie = { s.die s.myDie with rdcEpoch := (s.die s.myDie).rdcEpoch + 1 } ∧
    t.me = { s.me with pc := s.me.pc + 4, acqEpoch := (s.die s.myDie).rdcEpoch + 1 }

/-- Every byte of memory outside the words at the listed offsets of record `r` of cluster `c` is as it was (R229), and so
is every mark of an uncorrectable word there (R104). -/
def RecordBytes (s t : State) (c r : Nat) (offs : List Nat) : Prop :=
  let at_ (o : Nat) := (s.cluster c).lrBase.toNat + 256 * r + o
  (∀ x, (∀ o ∈ offs, x < at_ o ∨ at_ o + 8 ≤ x) → t.mem.read x = s.mem.read x) ∧
  (∀ w ∈ t.memBad, w ∈ s.memBad) ∧ (∀ w ∈ s.memBad, (∀ o ∈ offs, w < at_ o ∨ at_ o + 8 ≤ w) → w ∈ t.memBad)

/-- Record `r` of cluster `c` lies in package memory of live homes, outside format windows and the second tier (R171, R229,
R301, R356). -/
def PlainRec (s : State) (c r : Nat) : Prop :=
  ∀ x < 256, s.windowOf (s.recAddr c r + x) = none ∧ inTier2 (s.recAddr c r + x) = false ∧ s.lost (s.recAddr c r + x) = false

/-- Record `r` of cluster `c` may be armed: in the table, IDLE and well formed (R231, R240, R242). -/
def Armable (s : State) (c r : Nat) : Prop :=
  r < (s.cluster c).lrCount ∧ s.recState c r = 0 ∧ s.malformed c r = false

/-- The record is in STATE `st` with its routing area written (R333) and stands last among the tasks that enter the
cluster's router (R332). -/
def Entered (s t : State) (c r st : Nat) (held : Option Nat) : Prop :=
  t.recState c r = st ∧ t.recWord c r 0xE0 = 16 ∧ t.recWord c r 0xF0 = s.pkg.peer.zeroExtend 64 ∧
  t.recWord c r 0xF8 = 0 ∧
  ∃ k, (t.cluster c).entering = (s.cluster c).entering ++ [k] ∧ k.recIx = r ∧ k.contOf = held ∧ k.since = s.clock ∧
    k.pri = (s.recWord c r 0x30).toNat % 4 ∧ k.cost = (s.recWord c r 0x30).toNat / 2 ^ 8 % 2 ^ 16

/-- The storer may write the register: a supervisor one of its own die (R263), a thread one of its partition (R234), the
host one that its function's standing lets it write (R350, R360). -/
def MayStore (s : State) (who : Who) (addr : Word) : Prop :=
  match who with
  | .thread core slot => s.foreign (tidOf core slot) addr = false
  | .supervisor d => supervisorMay d addr = true
  | .host fn => s.hostRefusal fn true addr = 0

/-- The count that completes a phase of a barrier (R249). -/
def due (s : State) (c : Nat) (b : Barrier) : Nat := if b.bound then s.setCount c b.set else b.expect

/-- No phase of `b` is complete: the rule of R251 leaves it as it is. -/
def Settled (s : State) (c : Nat) (b : Barrier) : Prop := due s c b = 0 ∨ b.arrived < due s c b ∨ b.bytes ≠ 0

/-- The instruction completes and its one effect is that barrier `i` of cluster `c` becomes `b`. -/
def SetsBarrier (x : Instr) (s : State) (c i : Nat) (b : Barrier) : Prop :=
  ∃ t, exec x s = .next t ∧ Passes s t ∧ ClusterOnly s t c ∧ t.bar c i = b ∧ (∀ k, k ≠ i → t.bar c k = s.bar c k) ∧
    t.cluster c = { s.cluster c with bars := (t.cluster c).bars }

/-- R256: with the tiles `done` retired, a binding of (x, y) with mask `m` is satisfied: each neighbour that a bit names
lies outside the grid or is retired. -/
def TilesDone (retired : Nat → Nat → Bool) (x y : Nat) (m : BitVec 24) : Prop :=
  ∀ b < 24, m.getLsbD b = true → ∀ n, n = (if b < 12 then b else b + 1) →
    ∀ (dx dy : Int), dx = (n % 5 : Nat) - 2 → dy = (n / 5 : Nat) - 2 →
      x + dx < 0 ∨ 63 < x + dx ∨ y + dy < 0 ∨ 63 < y + dy ∨ retired (x + dx).toNat (y + dy).toNat = true

/-- The instruction of `len` bytes enters its core's matrix queue (R208) with operation `op`, effective block `q` and
destination or source `a`, reading RM, TCM, SEED, TASKIX and SRCTR at issue; SRCTR grows by `draws`. -/
def EntersMatrix (i : Instr) (s : State) (len op : Nat) (L : BitVec 4) (q : Block) (a : Word) (draws : Nat) : Prop :=
  ∃ t e g, exec i s = .next t ∧ t = { s with threads := t.threads, cores := t.cores, nextId := s.nextId + 1 } ∧
    t.core s.myCore = { s.core s.myCore with mq := (s.core s.myCore).mq ++ [e] } ∧
    (∀ k, k ≠ s.myCore → t.core k = s.core k) ∧ (∀ k, k ≠ s.cur → t.thread k = s.thread k) ∧
    e.slot = s.cur % 4 ∧ e.op = op ∧ e.block = q ∧ e.a = a ∧ e.rm = s.me.rm ∧ e.tcm = s.me.tcm ∧ e.seed = s.me.seed ∧
    e.taskix = s.me.taskix ∧ e.srctr = s.me.srctr ∧ e.gang = s.me.gangSz ∧ e.gangIx = s.me.gangIx ∧ e.started = false ∧
    e.flight = s.nextId ∧ g.id = s.nextId ∧ g.kind = .matrix ∧ g.left = (if L = 15 then none else some L.toNat) ∧
    t.me = { s.me with pc := s.me.pc + BitVec.ofNat 64 len, flights := s.me.flights ++ [g]
                       srctr := s.me.srctr + BitVec.ofNat 64 draws }

/-- Where a checked matrix instruction goes: mma and mepi of a gang park for the row barrier (R215); the others enter
the queue of four, or wait at issue while it is full (R208). -/
def IssuesMatrix (i : Instr) (s : State) (len op : Nat) (L : BitVec 4) (q : Block) (a : Word) (draws : Nat) : Prop :=
  (op ≤ 1 → s.me.gang = true → Parks i s (.rowJoin (decide (op = 1)) q a L.toNat)) ∧
  (2 ≤ op ∨ s.me.gang = false →
    ((s.core s.myCore).mq.length < 4 → EntersMatrix i s len op L q a draws) ∧
    (4 ≤ (s.core s.myCore).mq.length → exec i s = .next { s with stalled := true }))

/-- R213: the limits of an mma block in a member `j` of a gang of `g`, with its depth `d`, by field of R212 in the order
in which they are checked. -/
def mmaLimits (g j d : Nat) (x : Mma) : List (Nat × Prop) :=
  let rec2 := 64 * ((x.k * (fmtOf x.fb).size + 63) / 64) + (if x.sc then 64 else 0)
  let row := (x.k + d - 1) / d * d * (fmtOf x.fa).size
  [(0, 1 ≤ x.m ∧ x.m ≤ 128 ∧ 32 * x.q + x.m ≤ 128), (1, 1 ≤ x.n ∧ x.n ≤ 128 * g),
   (2, 1 ≤ x.k ∧ x.k ≤ 8192 ∧ (x.sc = true → x.k ≤ 2048)),
   (3, j = 0 → x.a % 64 = 0 ∧ x.a + (x.m - 1) * x.lda + row ≤ 0x60000), (4, j = 0 → x.lda % 64 = 0 ∧ row ≤ x.lda),
   (5, x.b % 64 = 0 ∧ x.b + (min 128 (x.n - 128 * j) + 63) / 64 * rec2 ≤ 8192),
   (6, j = 0 → if x.sc = true then x.as % 64 = 0 ∧ x.as + 64 * x.m ≤ 0x60000 else x.as = 0)]

/-- Every limit of a list holds. -/
def AllHold (l : List (Nat × Prop)) : Prop := ∀ c ∈ l, c.2

/-- Every scratch frame and accumulator region of a core belongs to its current context (R127, R207). -/
def AllPinned (x : Core) : Prop :=
  (∀ f, (h : f < 24) → x.frames[f].ctx = some x.sctx) ∧ (∀ q, (h : q < 4) → x.accFrames[q].ctx = some x.sctx)

/-- The 8-byte word that an engine of `core` reads at `va` for the thread of `slot`, byte by byte: of the core's own
scratchpad, or of memory at home. -/
def WordThere (s : State) (core slot : Nat) (va : Word) (w : Nat → Byte) : Prop :=
  (∃ off, va.toNat = 0xF0 * 2 ^ 56 + off ∧ off + 8 ≤ 0x60000 ∧ off % 8 = 0 ∧ (s.die (dieOf core)).fenced = false ∧
    s.watched (some core) off 8 = false ∧ ∀ j, w j = (s.core core).scratch.read (off + j)) ∨
  ∃ l : Leaf, s.resolve (tidOf core slot) .load va 8 = .ok (.mem l) ∧
    HomeServes { s with cur := tidOf core slot } l 8 ∧ ∀ j, w j = s.mem.read (l.pa + j)

/-- The instruction completes with `v` in `d` and an acquire of package scope (R241, R270). -/
def AcquiresWith (i : Instr) (s : State) (d : Reg) (v : Word) : Prop :=
  ∃ t, exec i s = .next t ∧ t = { s with threads := t.threads, dies := t.dies } ∧
    (∀ k, k ≠ s.cur → t.thread k = s.thread k) ∧ (∀ e, e ≠ s.myDie → t.die e = s.die e) ∧
    t.die s.myDie = { s.die s.myDie with rdcEpoch := (s.die s.myDie).rdcEpoch + 1 } ∧ Writes s.me t.me d v ∧
    t.me = { s.me with pc := s.me.pc + 4, regs := t.me.regs, badRegs := t.me.badRegs
                       acqEpoch := (s.die s.myDie).rdcEpoch + 1 }

/-- Nothing waits on counters: no trigger entry is posted, no operation of one waits to start, no thread is parked. -/
def CountersIdle (s : State) : Prop :=
  s.trg.entries.cells = [] ∧ (∀ q, (h : q < 4) → s.trg.queues[q] = []) ∧ NoneParked s

/-- The counter after an add (R411). -/
def added (x : Counter) (n : Word) : Counter :=
  if x.value.toNat + n.toNat < 2 ^ 64 then { x with value := x.value + n }
  else { x with value := BitVec.allOnes 64, sat := true }

/-- Counter `c` becomes `x`; no other counter changes, and no entry, group, range or memory. -/
def SetsCounter (s t : State) (c : Nat) (x : Counter) : Prop :=
  t.counter c = x ∧ (∀ k, k ≠ c → t.counter k = s.counter k) ∧
  t.trg = { s.trg with counters := t.trg.counters } ∧ t.mem = s.mem ∧ t.cores = s.cores ∧ t.clusters = s.clusters

/-- The flit is intact, of a type of the table, for this package and of a paired pair of partitions, and its lane is known
(R378, R384–R386). -/
def Intact (s : State) (f : Flit) : Prop :=
  s.fab.en = true ∧ listedType f.typ = true ∧ f.crcOk = true ∧ f.tagOk = true ∧ f.dst = s.pkg.peer.toNat ∧
  s.pairOf f.qd f.src = some f.qs ∧ ((s.port f.port).lane f.wave).assigned = true

/-- The flit is the next of its connection, whose context is present, with nothing before it in its lane's buffers,
no pause of the lane to be lifted, and nothing of the connection waiting (R387, R388, R392, R393). -/
def NextInOrder (s : State) (f : Flit) : Prop :=
  Intact s f ∧ f.port < 32 ∧ f.wave < 16 ∧ ((s.port f.port).lane f.wave).miss = [] ∧
  ((s.port f.port).lane f.wave).input = [] ∧ ((s.port f.port).lane f.wave).pauseSent = false ∧ (s.conn f.qd f.src).cached = true ∧
  f.seq = (s.conn f.qd f.src).expected ∧ (s.conn f.qd f.src).early = [] ∧ (s.conn f.qd f.src).held = none ∧
  (s.conn f.qd f.src).fresh < 31

/-- The flit has been delivered: the next SEQ is expected, one delivery more awaits its ACK, and the flits `us` stand
ready to be sent on the connection (R388, R437). -/
def Delivered (s t : State) (f : Flit) (us : List Flit) : Prop :=
  let c := s.conn f.qd f.src
  t.conn f.qd f.src = { c with
    used := s.clock, expected := (c.expected + 1) % 2 ^ 24, gapAt := none
    rwrap := if c.expected + 1 = 2 ^ 24 then (c.rwrap + 1) % 2 ^ 43 else c.rwrap
    fresh := c.fresh + 1, freshAt := if c.fresh = 0 then s.clock else c.freshAt
    urgent := c.urgent ++ us.map (fun u => { flit := u }) }

/-- Group `g` is `x`, enabled and in the ranges of partition `q`; nothing waits to contribute, and no thread is
parked. -/
def GroupReady (s : State) (q g : Nat) (x : Group) : Prop :=
  s.group g = x ∧ x.en = true ∧ (s.trg.range q).hasGroup g = true ∧ x.waiting = [] ∧ NoneParked s

/-- Only group `g` differs among the groups; memory, cores and clusters are as they were. -/
def GroupOnly (s t : State) (g : Nat) : Prop :=
  (∀ k, k ≠ g → t.group k = s.group k) ∧ t.mem = s.mem ∧ t.cores = s.cores ∧ t.clusters = s.clusters

/-- The group after a local contribution: recorded, or, the last of a root without children, the round over (R429). -/
def contributedTo (x : Group) (v : Word) : Group :=
  if x.locals.length + 1 < x.localN then { x with locals := x.locals ++ [v] }
  else { x with locals := [], arrived := {}, epoch := x.epoch + 1, gres := combineSmall x.op (x.locals ++ [v]) }

/-- A bulk collective at the head of a root's queue that waits for the chunks of child `k` (R433). -/
def AwaitsChild (x : Group) (c : Coll) (k : Nat) : Prop :=
  x.root = true ∧ x.colls = [c] ∧ x.tails = [] ∧ c.lost = [] ∧ c.subs = [] ∧ c.wrote = 0 ∧ x.doomed = [] ∧ x.inbox = [] ∧ k < 8 ∧ x.cmask = BitVec.ofNat 8 (2 ^ k) ∧ c.kind = 1 ∧
  c.started = true ∧ c.committed = false ∧ c.up = 0 ∧ 0 < c.len ∧ c.halted = false ∧ c.chunks.cells = [] ∧ c.cen = false ∧ c.entry = none ∧
  x.aborts = []

/-- `n` bytes of memory at `pa` serve requests of partition `q`: homed on a live die that it owns, in one line, outside
every format window and correctable (R266, R101, R104, R171). -/
def Serves (s : State) (q pa n : Nat) : Prop :=
  ∃ d, homeDie pa = some d ∧ s.dead d = false ∧ s.owner d = some q ∧ (s.die d).windowAt pa = none ∧
    pa % 256 + n ≤ 256 ∧ 0 < n ∧ ∀ w ∈ s.memBad, w + 8 ≤ pa ∨ pa + n ≤ w

/-- A valid region admits `n` bytes of the flit at physical address `pa` of memory (R394, R395); a flit with HDL 0xFFF
names the address itself (R383). -/
def Admits (s : State) (f : Flit) (r : Region) (pa n : Nat) : Prop :=
  r.v = true ∧ r.part = f.qd ∧ r.drain = false ∧ (r.anyp = true ∨ r.peer = f.src) ∧ (f.nar = false ∨ f.tcm = r.tcm) ∧
  Serves s f.qd pa n ∧ r.base.toNat + r.len < 2 ^ 56 ∧
  ((f.hdl ≠ 0xFFF ∧ r = s.region f.hdl ∧ f.off + n ≤ r.len ∧ pa = r.base.toNat + f.off) ∨
   (f.hdl = 0xFFF ∧ (∃ h, s.fab.regs.cells = [(h, r)]) ∧ r.base.toNat ≤ pa ∧ pa + n ≤ r.base.toNat + r.len ∧
    pa = f.off + f.aux * 2 ^ 40))

/-- Memory is as before but for the bytes from `pa` on, which are `bs`. -/
def PutsBytes (s t : State) (pa : Nat) (bs : List Byte) : Prop :=
  (∀ j, (h : j < bs.length) → t.mem.read (pa + j) = bs[j]) ∧
  ∀ x, x < pa ∨ pa + bs.length ≤ x → t.mem.read x = s.mem.read x

/-- The flit is performed in its turn: it is delivered, `us` answer it, and nothing but memory and the connection has
changed. -/
def Performs (i : Instr) (s : State) (f : Flit) (us : List Flit) (t : State) : Prop :=
  exec i s = .next t ∧ Delivered s t f us ∧ t.threads = s.threads ∧ t.cores = s.cores ∧ t.clusters = s.clusters ∧
  t.dies = s.dies ∧ t.trg = s.trg ∧ t.reqs = s.reqs

/-- The ERR flit that refuses a flit of a type (R384). -/
def refusal (f : Flit) (typ kind : Nat) : Flit :=
  { typ := 0x0A, len := 10, payload := leBytes 1 kind ++ leBytes 1 typ ++ leBytes 6 0 ++ leBytes 3 f.seq }

/-- Every operation in progress is one of a thread's own (R398, R399). -/
def OnlyThreadOps (s : State) : Prop := ∀ o ∈ s.fab.ops, o.kind ≠ .page ∧ ∃ tid fl, o.owner = .thread tid fl

/-- R389: the connection has failed: it is fresh, its operations end with kind 5, and event 0x0D has been posted with
subkind 2 and the last SEQ acknowledged. -/
def Fails (s t : State) (q x : Nat) : Prop :=
  t.fab.conns.find (4096 * q + x) = none ∧ t.threads = s.threads ∧ t.cores = s.cores ∧ t.wire = s.wire ∧
  t.fab.ops = s.fab.ops.map (fun o => if o.part = q ∧ o.peer = x then { o with failed := true } else o) ∧
  ∀ u, u = s.postEvent none 0x0D (BitVec.ofNat 64 (x + q * 2 ^ 12))
    (BitVec.ofNat 64 (2 + ((s.conn q x).acked + 2 ^ 24 - 1) % 2 ^ 24 * 256)) → (t.mem, t.pkg) = (u.mem, u.pkg)

/-- A core's scratchpad serves its own engines at once: its die is not fenced, every frame is pinned (R127) and no word
is uncorrectable. -/
def ScratchClear (s : State) (c : Nat) : Prop :=
  (s.die (dieOf c)).fenced = false ∧ (∀ f, (s.core c).pinned f = true) ∧ (s.core c).scratchBad = []

/-- The scratchpad of core `c` is as before but for the bytes from `a` on, which are `bs`; memory is as before. -/
def PutsCore (s t : State) (c a : Nat) (bs : List Byte) : Prop :=
  (∀ x, (t.core c).scratch.read x = if h : a ≤ x ∧ x < a + bs.length then bs[x - a] else (s.core c).scratch.read x) ∧
  t.mem = s.mem

/-- The event makes a thread trap precisely at its own instruction (R23): the thread is as R23 leaves it, and only
accesses that it waited for are given up. -/
def TrapsThread (i : Instr) (s : State) (tid : Nat) (code sub : BitVec 8) (eval : Word) : Prop :=
  ∃ t, exec i s = .next t ∧ t = { s with threads := t.threads, reqs := t.reqs } ∧
    (∀ k, k ≠ tid → t.thread k = s.thread k) ∧ t.thread tid = trapped (s.thread tid) code sub eval

/-- The thread with one more deferred fault (R24). -/
def withFault (x : Thread) (code sub : BitVec 8) (eval fpc : Word) (order : Nat) (handler : Bool) : Thread :=
  { x with deferred := x.deferred ++ [{ trap := { code := code, sub := sub, eval := eval }, fpc := fpc, order := order
                                        handler := handler }] }

/-- A fabric instruction starts its operation `o` (R397, R398): it is in flight under the next number with the registers
that it will write, the operation stands last among the package's, the thread moves past 4 bytes, and the tag, if it has
one, counts one more and is not ready. -/
def StartsOp (i : Instr) (s : State) (L : BitVec 4) (dests : List Nat) (o : RemoteOp) : Prop :=
  ∃ t, exec i s = .next t ∧ t = { s with threads := t.threads, cores := t.cores, fab := t.fab, nextId := s.nextId + 2 } ∧
    t.fab = { s.fab with ops := s.fab.ops ++ [o] } ∧ (∀ k, k ≠ s.cur → t.thread k = s.thread k) ∧
    t.me = { s.me with pc := s.me.pc + 4, flights := s.me.flights ++
      [{ id := s.nextId, kind := .fabric, left := if L = 15 then none else some L.toNat, dests := dests
         handler := s.me.mode, pc := s.me.pc, order := s.order }] } ∧
    (∀ k, k ≠ s.myCore → t.core k = s.core k) ∧
    (o.tag = none → t.cores = s.cores) ∧
    ∀ g, (h : g < 64) → o.tag = some g → t.core s.myCore = { s.core s.myCore with
      tagCount := (s.core s.myCore).tagCount.set g ((s.core s.myCore).tagCount[g] + 1)
      tagReady := (s.core s.myCore).tagReady &&& ~~~(1#64 <<< g) }

/-- An LCTL flit of a known lane says `use` of λk at the sender's port `p` for a lease of partition `q` (R380, R384; the
payload's layout is log 6's). -/
def Says (s : State) (f : Flit) (use p k q : Nat) : Prop :=
  s.fab.en = true ∧ listedType f.typ = true ∧ f.crcOk = true ∧ f.tagOk = true ∧ f.dst = s.pkg.peer.toNat ∧
  ((s.port f.port).lane f.wave).assigned = true ∧
  f.payload = leBytes 1 use ++ leBytes 1 p ++ leBytes 1 k ++ leBytes 1 q

/-- A wavelength of the package satisfies a test: how many do. -/
def countWaves (f : Nat → Nat → Bool) : Nat := (allWaves.filter (fun w => f w.1 w.2)).length

/-- The save area at `a` is plain memory: in no format window, not of the second tier, and its home takes writes (R145, R171,
R322). -/
def PlainArea (s : State) (a : Nat) : Prop :=
  ∀ o < 0x3000, s.windowOf (a + o) = none ∧ inTier2 (a + o) = false ∧ s.lost (a + o) = false

/-- The event completes and changes nothing of the package but Selvedge, which becomes `p`. -/
def SetsPackage (i : Instr) (s : State) (p : Package) : Prop := exec i s = .next { s with pkg := p }

/-- The event has the host see a reply of TDISP or SPDM (R360, R361), while partition `q` becomes `p`. -/
def Replies (i : Instr) (s : State) (kind status : Nat) (data : List Byte) : Prop :=
  SetsPackage i s { s.pkg with replies := s.pkg.replies ++ [{ kind := kind, status := status, data := data }] }

/-- The host may write the register at an offset of 0xF4 (R350, R360). -/
def HostMay (s : State) (fn off : Nat) : Prop := s.hostRefusal fn true (pkgReg off) = 0

end Sys2Proof.Claim

open Sys2Proof Sys2Proof.Machine Sys2Proof.Claim

/-- R32, R33, R37, R41, R44, R46: sanity of the decoder on words of each format. -/
def Obligations.WordsStandForTheirInstructions : Prop :=
  -- R37: k = 0, s = g0 (24), d = g0, op 0
  decode [0x00, 0x63] = .ok (.shortMvReg 24 24, 2) ∧
  -- R37: k = 1, imm5 = −1 (31), d = 4, op 1
  decode [0x82, 0xFC] = .ok (.shortAddImm 4 31, 2) ∧
  -- format T: func 1, L 0, b 6, a 5, d 4, major 0x00
  decode [0x01, 0x52, 0x0C, 0x04] = .ok (.sub 4 5 6, 4) ∧
  -- format I: imm 0x7FFF, a 4, d 4, major 0x01
  decode [0x03, 0x42, 0xFE, 0xFF] = .ok (.addi 4 4 0x7FFF, 4) ∧
  -- format M: off 1, sz 3, L 3, a 5, d 4, major 0x18
  decode [0x31, 0x52, 0x66, 0x01] = .ok (.ldD 4 5 1 3, 4) ∧
  -- format B: disp 0xFFE, cond 1, a 4, b 5, major 0x10
  decode [0xA1, 0x42, 0xE2, 0xFF] = .ok (.bNe 4 5 0xFFE, 4) ∧
  -- format Z: disp 2, a 4, sel 1, major 0x11
  decode [0xA3, 0x40, 0x04, 0x00] = .ok (.bnz 4 2, 4) ∧
  -- format J: disp 4, major 0x13
  decode [0x27, 0x02, 0x00, 0x00] = .ok (.call8 4, 4) ∧
  -- major 0x07, func 0, d 4, and its literal word
  decode [0x0F, 0x02, 0x00, 0x00, 0x78, 0x56, 0x34, 0x12] = .ok (.lit 4 0x12345678, 8) ∧
  -- major 0x23 func 0: twany; major 0x25 func 0: gang.2; major 0x24 func 1: chrcv
  decode [0x47, 0x52, 0x00, 0x00] = .ok (.twany 4 5, 4) ∧
  decode [0x4B, 0x00, 0x00, 0x00] = .ok (.gang2, 4) ∧
  decode [0x49, 0x43, 0x00, 0x04] = .ok (.chrcv 6 4, 4) ∧
  -- major 0x3D func 0: coll with its parameter block, all zeros
  decode ([0x7B, 0x52, 0x0C, 0x00] ++ List.replicate 16 0) = .ok (.coll 4 5 6 0 0, 20) ∧
  -- major 0x3F is permanently reserved
  decode [0xFF, 0xFF, 0xFF, 0xFF] = .error .reservedMajor

/-- R32, R33, R37–R47, R56. -/
def Obligations.DecodingInvertsEncoding : Prop :=
  ∀ (i : Instr) (p : Parcel) (rest : List Byte), i.wellFormed = true → encodeParcel i = some p →
    decode (Parcel.bytes p ++ rest) = .ok (i, Parcel.length p) ∧ (encode i).length = Parcel.length p

/-- R40. -/
def Obligations.HalfwordsAreInstructionsButZero : Prop :=
  (∀ rest, decode (0 :: 0 :: rest) = .error .reservedMajor) ∧
  (∀ (s : State), TaskAlone s →
    Traps (.undefinedEncoding (DecodeError.sub .reservedMajor) 0) s 0x01 0 0) ∧
  (∀ (h : Half) (rest : List Byte), h ≠ 0 → h.getLsbD 0 = false →
    let bytes := h.extractLsb' 0 8 :: h.extractLsb' 8 8 :: rest
    (¬ (h.extractLsb' 1 4 = 15 ∧ h.extractLsb' 7 3 ≠ 0) → ∃ i, decode bytes = .ok (i, 2)) ∧
    (h.extractLsb' 1 4 = 15 → h.extractLsb' 7 3 ≠ 0 → decode bytes = .error .reservedField)) ∧
  DecodeError.sub .reservedField = 2

/-- R32, R35, R48, R51, R123. That the agenda names the slot is the model's way to choose among ready slots (log 8), as is the
place in the clock (`phase`). -/
def Obligations.StepRunsTheDecodedInstruction : Prop :=
  (∀ (s s0 s1 : State) (core slot tid : Nat) (l : List Action) (bs : List Byte) (p : Parcel) (x : Thread),
    s.agenda = .issue core slot :: l → core < 1024 → slot < 4 → tid = tidOf core slot → x = s.thread tid →
    x.life = .ready → x.gang = false → x.skc = 0 → x.deferred = [] → x.abort = none → x.yielding = false →
    x.held = false → s.phase ≤ 0x1000 → (s.core core).stopped = false → s.coreLost core = false → (s.core core).saving slot = false →
    (s.die (dieOf core)).pwrState = 0 → s0 = { s with agenda := l, cur := tid } → s0.fetchInstr tid x.pc = .ok s1 bs →
    frame bs = some p → (s1.thread tid).badRegs = [] →
    let u : State := { s1 with ir := firstWord p }
    let runs (j : Instr) : Prop := ∀ t, exec j u = .next t →
      (t.stalled = false → step s = .next
        ((State.issuedAs { t with fwd := none } tid j ((u.thread tid).flights.map (·.id))).afterIssue tid)) ∧
      (t.stalled = true → step s = .next (State.idle { t with stalled := false, fwd := none }))
    (∀ i, decodeParcel p = .ok i → u.accepted tid p i = true → x.interlocked i = false → runs i) ∧
    (∀ i, decodeParcel p = .ok i → u.accepted tid p i = false → runs (.undefinedEncoding 3 (firstWord p))) ∧
    (∀ e, decodeParcel p = .error e → runs (.undefinedEncoding e.sub (firstWord p)))) ∧
  (∀ (s : State) (tid : Nat) (va : Word) (l : Leaf), va.toNat < 2 ^ 57 → s.translate (dieOf (coreOf tid)) va = .ok l →
    l.x = true → l.mode = 0 → Serves s l.key l.pa 2 →
    s.fetchHalf tid va = .ok s [s.mem.read l.pa, s.mem.read (l.pa + 1)])

/-- R129, R132, R264, R326, R351, R377, R394, R408, R409, R428: their Reset columns. The model's choices among these
clauses, which no rule states: that every slot is free, that the queues are empty and that no request is outstanding
(DESIGN CHOICE, log 14), and that memory lists nothing, in the canonical form that is the model's own (DESIGN CHOICE,
log 1). -/
def Obligations.ResetIsAsTheSpecGivesIt : Prop :=
  let s := State.reset
  Kept s ∧ s.canonical = true ∧ s.reqs = [] ∧
  (∀ k, (s.thread k).life = .free) ∧
  (∀ c, (s.core c).tagReady = BitVec.allOnes 64 ∧ (s.core c).win = Vector.replicate 4 0 ∧ (s.core c).preBusy = false ∧
    (s.core c).mq = [] ∧ (s.core c).vq = []) ∧
  (∀ c, let x := (s.cluster c).set
    x.tstay = 1 ∧ x.tlow = 1 ∧ x.hyst = 0 ∧ x.gcost = 0x1004040401010101 ∧ x.pen = false ∧ x.fen = false ∧
    (s.cluster c).pubD = 0xFF ∧ (s.cluster c).pubDloc = 0xFF ∧ (s.cluster c).lrCount = 0) ∧
  (∀ d, (s.die d).spares = 32 ∧ (s.die d).fenced = false ∧ (s.die d).ptEn = false ∧ (s.die d).spol = 0 ∧
    (s.die d).fw = Vector.replicate 16 {}) ∧
  s.pkg.parts = #v[{ en := true, dies := 0xF }, {}, {}, {}] ∧ s.pkg.stage = 1 ∧ s.pkg.ecode = 0 ∧ s.pkg.peer = 0 ∧
  s.fab.en = false ∧ s.fab.fto = 100 ∧ s.fab.retry = 8 ∧ (∀ h, (s.region h).v = false) ∧
  (∀ c, s.counter c = {}) ∧ (∀ g, (s.group g).en = false) ∧ (∀ e, (s.entry e).state = 0) ∧
  ∀ q, (s.trg.range q).en = false

/-- R12, R13, R21, R23, R26; the canonical form of memory is the model's own. -/
def Obligations.ScalarInstructionsKeepTheInvariant : Prop :=
  ∀ (s t : State) (d a b c : Reg) (n : BitVec 2) (i5 : BitVec 5) (n6 : BitVec 6) (i10 : BitVec 10) (i12 : BitVec 12)
    (i13 : BitVec 13) (i14 : BitVec 14) (i15 : BitVec 15) (i25 : BitVec 25) (e : BitVec 32), Kept s →
    ∀ i ∈ scalarAndControl d a b c n i5 n6 i10 i12 i13 i14 i15 i25 e, exec i s = .next t → Kept t

/-- R38, R10, R37: the short operations, both forms. -/
def Sys2Proof.Claim.ShortFormsGiveTheirResult : Prop :=
  ∀ (s : State) (d r : Reg) (i : BitVec 5),
    let v := s.rd d
    (∀ (f g : Instr) (n m : Nat), (f, g) = (.shortShlReg d r, .shortShlImm d i) →
      n = (s.rd r).toNat % 64 → m = i.toNat → Gives f s 2 d (v <<< n) ∧ Gives g s 2 d (v <<< m)) ∧
    (∀ (f g : Instr) (n m : Nat), (f, g) = (.shortShrReg d r, .shortShrImm d i) →
      n = (s.rd r).toNat % 64 → m = i.toNat → Gives f s 2 d (v >>> n) ∧ Gives g s 2 d (v >>> m)) ∧
    (∀ (f g : Instr) (n m : Nat), (f, g) = (.shortSraReg d r, .shortSraImm d i) →
      n = (s.rd r).toNat % 64 → m = i.toNat → Gives f s 2 d (v.sshiftRight n) ∧ Gives g s 2 d (v.sshiftRight m)) ∧
    (∀ (k : Bool) (x : Word), x = (if k then i.signExtend 64 else s.rd r) →
      Gives (if k then .shortMvImm d i else .shortMvReg d r) s 2 d x ∧
      Gives (if k then .shortAddImm d i else .shortAddReg d r) s 2 d (v + x) ∧
      Gives (if k then .shortSubImm d i else .shortSubReg d r) s 2 d (v - x) ∧
      Gives (if k then .shortAndImm d i else .shortAndReg d r) s 2 d (v &&& x) ∧
      Gives (if k then .shortOrImm d i else .shortOrReg d r) s 2 d (v ||| x) ∧
      Gives (if k then .shortXorImm d i else .shortXorReg d r) s 2 d (v ^^^ x) ∧
      Gives (if k then .shortMinImm d i else .shortMinReg d r) s 2 d (if v.toInt ≤ x.toInt then v else x) ∧
      Gives (if k then .shortMaxImm d i else .shortMaxReg d r) s 2 d (if v.toInt ≤ x.toInt then x else v) ∧
      Gives (if k then .shortSltImm d i else .shortSltReg d r) s 2 d (if v.toInt < x.toInt then 1 else 0) ∧
      Gives (if k then .shortMulImm d i else .shortMulReg d r) s 2 d (BitVec.ofNat 64 (v.toNat * x.toNat)))

/-- R72–R74, R76, R79. -/
def Sys2Proof.Claim.ImmediateFormsGiveTheirResult : Prop :=
  ∀ (s : State) (d a b : Reg) (i : BitVec 15) (n : BitVec 6) (k : BitVec 13) (e : BitVec 32) (p : BitVec 14)
    (z : BitVec 2) (x : Word), x = s.rd a →
    Gives (.addi d a i) s 4 d (x + i.signExtend 64) ∧
    Gives (.andi d a i) s 4 d (x &&& i.signExtend 64) ∧
    Gives (.ori d a i) s 4 d (x ||| i.zeroExtend 64) ∧
    Gives (.xori d a i) s 4 d (x ^^^ i.zeroExtend 64) ∧
    Gives (.shli d a n) s 4 d (x <<< n.toNat) ∧
    Gives (.shri d a n) s 4 d (x >>> n.toNat) ∧
    Gives (.srai d a n) s 4 d (x.sshiftRight n.toNat) ∧
    Gives (.roli d a n) s 4 d ((x <<< n.toNat) ||| (x >>> (64 - n.toNat))) ∧
    Gives (.slti d a k) s 4 d (if x.toInt < k.toInt then 1 else 0) ∧
    Gives (.sltui d a k) s 4 d (if x.toNat < (k.signExtend 64).toNat then 1 else 0) ∧
    Gives (.seqi d a k) s 4 d (if x.toInt = k.toInt then 1 else 0) ∧
    Gives (.lit d e) s 8 d (e.signExtend 64) ∧
    Gives (.litZ d e) s 8 d (e.zeroExtend 64) ∧
    Gives (.litH d e) s 8 d (e ++ (s.rd d).setWidth 32) ∧
    Gives (.lea d z a b) s 4 d (x + BitVec.ofNat 64 (2 ^ z.toNat) * s.rd b) ∧
    Gives (.leaPc d p) s 4 d (s.me.pc + 2 * p.signExtend 64)

/-- R70: the operations of one source register. -/
def Sys2Proof.Claim.BitCountsReversalsAndExtensions : Prop :=
  ∀ (s : State) (d a : Reg) (x : Word), x = s.rd a →
    (∀ n ≤ 64, (∀ i < n, x.getLsbD (63 - i) = false) → (n = 64 ∨ x.getLsbD (63 - n) = true) →
      Gives (.clz d a) s 4 d (BitVec.ofNat 64 n)) ∧
    (∀ n ≤ 64, (∀ i < n, x.getLsbD i = false) → (n = 64 ∨ x.getLsbD n = true) →
      Gives (.ctz d a) s 4 d (BitVec.ofNat 64 n)) ∧
    Gives (.popc d a) s 4 d (BitVec.ofNat 64 ((List.range 64).countP (fun i => x.getLsbD i))) ∧
    (∀ v : Word, (∀ k < 8, v.extractLsb' (8 * k) 8 = x.extractLsb' (56 - 8 * k) 8) →
      Gives (.bswap d a) s 4 d v) ∧
    (∀ v : Word, (∀ k < 64, v.getLsbD k = x.getLsbD (63 - k)) → Gives (.brev d a) s 4 d v) ∧
    Gives (.sext d a 0) s 4 d ((x.setWidth 8).signExtend 64) ∧
    Gives (.sext d a 1) s 4 d ((x.setWidth 16).signExtend 64) ∧
    Gives (.sext d a 2) s 4 d ((x.setWidth 32).signExtend 64) ∧
    Gives (.zext d a 0) s 4 d ((x.setWidth 8).zeroExtend 64) ∧
    Gives (.zext d a 1) s 4 d ((x.setWidth 16).zeroExtend 64) ∧
    Gives (.zext d a 2) s 4 d ((x.setWidth 32).zeroExtend 64)

/-- The short forms, immediate forms, bit counts, reversals and extensions: the statements above together. -/
def Obligations.OneOperandAndImmediateFormsGiveTheirResult : Prop :=
  Claim.ShortFormsGiveTheirResult ∧ Claim.ImmediateFormsGiveTheirResult ∧ Claim.BitCountsReversalsAndExtensions

/-- R70, R71: the operations of two source registers. -/
def Obligations.AluGivesItsResult : Prop :=
  ∀ (s : State) (d a b : Reg) (x y : Word) (n : Nat), x = s.rd a → y = s.rd b → n = y.toNat % 64 →
    Gives (.add d a b) s 4 d (x + y) ∧
    Gives (.sub d a b) s 4 d (x - y) ∧
    Gives (.and d a b) s 4 d (x &&& y) ∧
    Gives (.or d a b) s 4 d (x ||| y) ∧
    Gives (.xor d a b) s 4 d (x ^^^ y) ∧
    Gives (.andn d a b) s 4 d (x &&& ~~~y) ∧
    Gives (.shl d a b) s 4 d (x <<< n) ∧
    Gives (.shr d a b) s 4 d (x >>> n) ∧
    Gives (.sra d a b) s 4 d (x.sshiftRight n) ∧
    Gives (.rol d a b) s 4 d ((x <<< n) ||| (x >>> (64 - n))) ∧
    Gives (.min d a b) s 4 d (if x.toInt ≤ y.toInt then x else y) ∧
    Gives (.max d a b) s 4 d (if x.toInt ≤ y.toInt then y else x) ∧
    Gives (.minu d a b) s 4 d (if x.toNat ≤ y.toNat then x else y) ∧
    Gives (.maxu d a b) s 4 d (if x.toNat ≤ y.toNat then y else x) ∧
    Gives (.slt d a b) s 4 d (if x.toInt < y.toInt then 1 else 0) ∧
    Gives (.sltu d a b) s 4 d (if x.toNat < y.toNat then 1 else 0) ∧
    Gives (.seq d a b) s 4 d (if x = y then 1 else 0) ∧
    Gives (.mul d a b) s 4 d (BitVec.ofNat 64 (x.toNat * y.toNat)) ∧
    Gives (.mulh d a b) s 4 d (BitVec.extractLsb' 64 64 (x.signExtend 128 * y.signExtend 128)) ∧
    Gives (.mulhu d a b) s 4 d (BitVec.extractLsb' 64 64 (x.zeroExtend 128 * y.zeroExtend 128)) ∧
    Gives (.div d a b) s 4 d (if y = 0 then BitVec.allOnes 64 else x.sdiv y) ∧
    Gives (.divu d a b) s 4 d (if y = 0 then BitVec.allOnes 64 else x.udiv y) ∧
    Gives (.rem d a b) s 4 d (if y = 0 then x else x.srem y) ∧
    Gives (.remu d a b) s 4 d (if y = 0 then x else x.umod y)

/-- R77, R78, R39. -/
def Obligations.SelectAndSkip : Prop :=
  ∀ (s : State) (d a b c : Reg) (n : BitVec 2) (x y : Word), x = s.rd a → y = s.rd b →
    let skips (i : Instr) (len : Nat) (p : Prop) : Prop :=
      (p → Becomes i s { s.me with pc := s.me.pc + BitVec.ofNat 64 len, skc := BitVec.ofNat 3 (n.toNat + 1) }) ∧
      (¬ p → Becomes i s { s.me with pc := s.me.pc + BitVec.ofNat 64 len })
    Gives (.sel d a b c) s 4 d (if s.rd c = 0 then y else x) ∧
    Gives (.selN d a b c) s 4 d (if s.rd c = 0 then x else y) ∧
    skips (.skz a n) 2 (x = 0) ∧
    skips (.skzN a n) 2 (x ≠ 0) ∧
    skips (.skipEq a b n) 4 (x = y) ∧
    skips (.skipNe a b n) 4 (x ≠ y) ∧
    skips (.skipLt a b n) 4 (x.toInt < y.toInt) ∧
    skips (.skipGe a b n) 4 (y.toInt ≤ x.toInt) ∧
    skips (.skipLtu a b n) 4 (x.toNat < y.toNat) ∧
    skips (.skipGeu a b n) 4 (y.toNat ≤ x.toNat)

/-- R80–R83, for a thread that follows no leader. -/
def Sys2Proof.Claim.BranchesAndJumps : Prop :=
  ∀ (s : State) (a b : Reg) (i : BitVec 12) (j : BitVec 15) (m : BitVec 25) (x y : Word),
    s.fwd = none → x = s.rd a → y = s.rd b →
    let way (o : Instr) (p : Prop) (dest : Word) : Prop :=
      (p → Jumps o s dest) ∧ (¬ p → Jumps o s (s.me.pc + 4))
    let ti := s.me.pc + 2 * i.signExtend 64
    let tj := s.me.pc + 2 * j.signExtend 64
    way (.bEq a b i) (x = y) ti ∧ way (.bNe a b i) (x ≠ y) ti ∧
    way (.bLt a b i) (x.toInt < y.toInt) ti ∧ way (.bGe a b i) (y.toInt ≤ x.toInt) ti ∧
    way (.bLtu a b i) (x.toNat < y.toNat) ti ∧ way (.bGeu a b i) (y.toNat ≤ x.toNat) ti ∧
    way (.bz a j) (x = 0) tj ∧ way (.bnz a j) (x ≠ 0) tj ∧
    Jumps (.j m) s (s.me.pc + 2 * m.signExtend 64) ∧
    (x.getLsbD 0 = false → Jumps (.jr a) s x) ∧
    (a ≠ 24 → ∃ t, exec (.loop a j) s = .next t ∧ OnlyMe s t ∧ Writes s.me t.me a (x - 1) ∧
      t.me = { s.me with pc := (if x = 1 then s.me.pc + 4 else tj), regs := t.me.regs, badRegs := t.me.badRegs })

/-- R83, R81. -/
def Sys2Proof.Claim.OddTargetsTrapMisaligned : Prop :=
  ∀ (s : State) (a : Reg) (j : BitVec 15), TaskAlone s → s.fwd = none →
    ((s.rd a).getLsbD 0 = true →
      Traps (.jr a) s 0x03 0 (s.rd a) ∧ Traps (.callr8 a) s 0x03 0 (s.rd a) ∧ Traps (.callr16 a) s 0x03 0 (s.rd a)) ∧
    Traps (.loop 24 j) s 0x01 4 (irWord s)

/-- Branches, jumps, loop and their traps: the statements above together. -/
def Obligations.BranchesJumpsAndLoops : Prop :=
  Claim.BranchesAndJumps ∧ Claim.OddTargetsTrapMisaligned

/-- R13, R14, R82, R83. -/
def Sys2Proof.Claim.CallsSlideTheWindow : Prop :=
  ∀ (s : State) (a : Reg) (m : BitVec 25) (i : Instr) (k : Nat) (target : Word),
    s.fwd = none →
    ((i, k, target) = (.call8 m, 1, s.me.pc + 2 * m.signExtend 64) ∨
     (i, k, target) = (.call16 m, 2, s.me.pc + 2 * m.signExtend 64) ∨
     ((i, k, target) = (.callr8 a, 1, s.rd a) ∧ (s.rd a).getLsbD 0 = false) ∨
     ((i, k, target) = (.callr16 a, 2, s.rd a) ∧ (s.rd a).getLsbD 0 = false)) →
    (s.me.depth + k ≤ 9 →
      ∃ t, exec i s = .next t ∧ OnlyMe s t ∧
        t.me.wb = (s.me.wb + k) % 12 ∧ t.me.depth = s.me.depth + k ∧ t.me.pc = target ∧
        (∀ j, 1 ≤ j → j < 64 → (t.me.rd 23).getLsbD j = (s.me.pc + 4).getLsbD j) ∧
        (t.me.rd 23).getLsbD 0 = decide (k = 2) ∧
        (∀ c, c ≠ (8 * t.me.wb + 23) % 96 → t.me.readCode c = s.me.readCode c) ∧
        t.me = { s.me with wb := t.me.wb, depth := t.me.depth, pc := target, regs := t.me.regs,
                           badRegs := t.me.badRegs }) ∧
    (9 < s.me.depth + k → TaskAlone s → Traps i s 0x06 0 (BitVec.ofNat 64 k))

/-- R13, R14: a return takes back what a call did. -/
def Sys2Proof.Claim.ReturnUndoesACall : Prop :=
  (∀ (s t : State) (i : Instr) (m : BitVec 25) (k : Nat),
    s.fwd = none → s.me.wb < 12 → s.me.pc.getLsbD 0 = false →
    (i = .call8 m ∧ k = 1 ∨ i = .call16 m ∧ k = 2) → s.me.depth + k ≤ 9 → exec i s = .next t →
    ∃ u, exec .ret t = .next u ∧ OnlyMe s u ∧ u.me.wb = s.me.wb ∧ u.me.depth = s.me.depth ∧
      u.me.pc = s.me.pc + 4 ∧ ∀ c, c ≠ (8 * ((s.me.wb + k) % 12) + 23) % 96 → u.me.readCode c = s.me.readCode c) ∧
  (∀ (s : State) (k : Nat), s.fwd = none → k = 1 + (s.rd 23).toNat % 2 →
    (k ≤ s.me.depth → Becomes .ret s { s.me with wb := (s.me.wb + 12 - k) % 12, depth := s.me.depth - k,
                                                 pc := s.rd 23 &&& ~~~1 }) ∧
    (s.me.depth < k → TaskAlone s → Traps .ret s 0x07 0
      (BitVec.ofNat 64 (k - s.me.depth) ||| (if s.me.spilled < k - s.me.depth then 1 <<< 63 else 0))))

/-- Calls and ret slide the window; spill and fill traps: the statements above together. -/
def Obligations.CallsAndReturnsSlideTheWindow : Prop :=
  Claim.CallsSlideTheWindow ∧ Claim.ReturnUndoesACall

/-- R85, R86. -/
def Obligations.FollowersGoTheLeadersWay : Prop :=
  ∀ (s : State) (o : Outcome) (a b : Reg) (i : BitVec 12) (j : BitVec 15) (m : BitVec 25), s.fwd = some o →
    (∀ x ∈ [Instr.bEq a b i, .bNe a b i, .bLt a b i, .bGe a b i, .bLtu a b i, .bGeu a b i, .bz a j, .bnz a j,
        .j m, .jr a],
      Jumps x s (if o.taken ∧ o.suppressed = false then o.target else s.me.pc + 4)) ∧
    (∀ x ∈ [Instr.call8 m, .call16 m, .callr8 a, .callr16 a],
      (o.suppressed = true → Jumps x s (s.me.pc + 4)) ∧
      (o.suppressed = false → s.me.depth + o.slide ≤ 9 → ∃ t, exec x s = .next t ∧ OnlyMe s t ∧
        t.me.pc = o.target ∧ t.me.wb = (s.me.wb + o.slide) % 12 ∧ t.me.depth = s.me.depth + o.slide))

/-- R23: taking a trap, and the return from one. -/
def Obligations.TrapEntrySavesAndRedirects : Prop :=
  (∀ (s : State) (tid : Nat) (t : Trap) (fpc resume : Word) (defr mult : Bool),
    (s.thread tid).gang = false →
    let u := s.takeTrap tid t fpc resume defr mult
    let x := s.thread tid
    let y := u.thread tid
    (x.mode = false →
      y = { x with causeMult := mult, causeDef := defr, causeSub := t.sub, causeCode := t.code, epc := resume
                   fpc := fpc, eval := t.eval, pmode := x.mode, pskc := x.skc, skc := 0, mode := true, pc := x.hvec
                   life := .ready, wait := none } ∧
      (∀ k, k ≠ tid → u.thread k = s.thread k) ∧ u.mem = s.mem ∧
      u = { s with threads := u.threads, reqs := u.reqs }) ∧
    (x.mode = true → y = { x with life := .halted, wait := none, haltCause := some t })) ∧
  (∀ s : State, s.me.mode = true → s.me.handlerWork = false →
    Becomes .rte s { s.me with mode := s.me.pmode, skc := s.me.pskc, pc := s.me.epc })

/-- R26: a trap that arises in handler mode. -/
def Obligations.HandlerModeTrapHalts : Prop :=
  ∀ (s : State) (tid : Nat) (t : Trap) (fpc resume : Word) (defr mult : Bool),
    (s.thread tid).mode = true → (s.thread tid).gang = false →
    let u := s.takeTrap tid t fpc resume defr mult
    -- R372: B is the CAUSE of the second trap
    let b : Word := (BitVec.ofBool mult ++ BitVec.ofBool defr ++ t.sub ++ t.code).zeroExtend 64
    u.thread tid = { s.thread tid with life := .halted, wait := none, haltCause := some t } ∧
    (∀ k, k ≠ tid → u.thread k = s.thread k) ∧ u.cores = s.cores ∧ u.clusters = s.clusters ∧
    u.trg = s.trg ∧ u.fab = s.fab ∧
    (u.mem, u.pkg) = ((s.postEvent (some (dieOf (coreOf tid))) 0x01 (BitVec.ofNat 64 (coreid tid))
      b).mem, (s.postEvent (some (dieOf (coreOf tid))) 0x01 (BitVec.ofNat 64 (coreid tid)) b).pkg)

/-- R27, R143, with the event gangAbort. -/
def Obligations.TrappingMemberBreaksItsGang : Prop :=
  (∀ (s : State) (tid m : Nat) (t : Trap) (fpc resume : Word), (s.thread tid).mode = false →
    (s.thread tid).gang = true → m ∈ s.gangOf tid → m ≠ tid →
    let u := s.takeTrap tid t fpc resume false false
    (u.thread tid).gang = false ∧ (u.thread tid).causeCode = t.code ∧ (u.thread tid).mode = true ∧
    (u.thread m).mode = (s.thread m).mode ∧
    (s.sameGang tid m = true → (u.thread m).abort = some ((s.thread m).abort.getD (coreOf tid))) ∧
    -- R142: one that a disband has reached may have formed another gang since
    (s.sameGang tid m = false → u.thread m = s.thread m)) ∧
  (∀ (s : State) (core slot by_ : Nat), (s.thread (tidOf core slot)).abort = some by_ →
    (s.thread (tidOf core slot)).life = .ready → (s.thread (tidOf core slot)).mode = false →
    (s.thread (tidOf core slot)).deferred = [] → (s.thread (tidOf core slot)).weft = [] →
    (s.die (dieOf core)).pwrState = 0 →
    ∃ t, exec (.gangAbort core slot) s = .next t ∧
      let x := s.thread (tidOf core slot)
      let y := t.thread (tidOf core slot)
      y.causeCode = 0x0B ∧ y.causeDef = false ∧ y.eval = BitVec.ofNat 64 by_ ∧ y.epc = x.pc ∧ y.fpc = x.pc ∧
      y.pskc = x.skc ∧ y.skc = 0 ∧ y.mode = true ∧ y.pc = x.hvec ∧ y.gang = false ∧ y.abort = none)

/-- R89, R23: the return from a trap. -/
def Obligations.ReturnFromTrapRestores : Prop :=
  (∀ s : State, s.me.mode = true →
    (s.me.handlerWork = false →
      Becomes .rte s { s.me with mode := s.me.pmode, skc := s.me.pskc, pc := s.me.epc }) ∧
    (s.me.handlerWork = true → exec .rte s = .next { s with stalled := true })) ∧
  (∀ (s : State) (t : Trap) (fpc resume : Word) (defr mult : Bool),
    s.me.mode = false → s.me.gang = false → s.me.handlerWork = false →
    ∃ u, exec .rte (s.takeTrap s.cur t fpc resume defr mult) = .next u ∧
      u.me.mode = false ∧ u.me.skc = s.me.skc ∧ u.me.pc = resume ∧ ∀ c, u.me.readCode c = s.me.readCode c)

/-- R17, R87, R94, R92, R130. -/
def Obligations.PrivilegedInstructionsTrapInTaskMode : Prop :=
  ∀ (s : State) (d a : Reg), TaskAlone s →
    (∀ i ∈ [Instr.rte, .wspill, .wfill], Traps i s 0x02 0 (irWord s)) ∧
    (∀ x ∈ [(0x00C : BitVec 12), 0x00D, 0x00E, 0x00F, 0x050, 0x051, 0x052, 0x053],
      Traps (.mfs d x) s 0x02 0 (irWord s)) ∧
    (∀ x ∈ [(0x001 : BitVec 12), 0x002, 0x003, 0x004, 0x005, 0x008, 0x009, 0x00C, 0x00D, 0x00E, 0x00F, 0x010, 0x011,
        0x012, 0x013, 0x018, 0x019, 0x01A, 0x020, 0x021, 0x030, 0x042, 0x050, 0x051, 0x052, 0x053],
      Traps (.mts a x) s 0x02 0 (irWord s)) ∧
    -- every index that no table of state registers defines
    (∀ x : BitVec 12, x ∉ [(0x000 : BitVec 12), 0x001, 0x002, 0x003, 0x004, 0x005, 0x008, 0x009, 0x00C, 0x00D, 0x00E,
        0x00F, 0x010, 0x011, 0x012, 0x013, 0x018, 0x019, 0x01A, 0x020, 0x021, 0x030, 0x040, 0x041, 0x042, 0x050, 0x051,
        0x052, 0x053] →
      Traps (.mfs d x) s 0x01 4 (irWord s) ∧ Traps (.mts a x) s 0x01 4 (irWord s))

/-- R16–R21, R92: what mfs reads. -/
def Sys2Proof.Claim.StateRegistersReadAsMapped : Prop :=
  ∀ (s : State) (d : Reg),
    let x := s.me
    let c := s.core s.myCore
    let bit (b : Bool) : BitVec 1 := BitVec.ofBool b
    Gives (.mfs d 0x000) s 4 d ((x.pskc ++ x.skc ++ bit x.gang ++ bit x.pmode ++ 0#2 ++ x.rm ++ bit x.tcm ++ 0#1 ++
      bit x.mode).zeroExtend 64) ∧
    Gives (.mfs d 0x001) s 4 d ((bit x.causeMult ++ bit x.causeDef ++ x.causeSub ++ x.causeCode).zeroExtend 64) ∧
    Gives (.mfs d 0x002) s 4 d x.epc ∧ Gives (.mfs d 0x003) s 4 d x.eval ∧ Gives (.mfs d 0x004) s 4 d x.hvec ∧
    Gives (.mfs d 0x005) s 4 d x.fpc ∧ Gives (.mfs d 0x008) s 4 d x.wsp ∧
    Gives (.mfs d 0x009) s 4 d (BitVec.ofNat 64 (x.depth + 2 ^ 4 * x.wb + 2 ^ 8 * x.spilled)) ∧
    Gives (.mfs d 0x010) s 4 d c.tagReady ∧ Gives (.mfs d 0x011) s 4 d x.taskix ∧
    Gives (.mfs d 0x012) s 4 d x.joina ∧
    Gives (.mfs d 0x013) s 4 d (BitVec.ofNat 64 (x.recIx + (if x.inl then 2 ^ 16 else 0))) ∧
    Gives (.mfs d 0x018) s 4 d (BitVec.ofNat 64 (s.cur / 4 + 2 ^ 10 * (s.cur % 4))) ∧
    Gives (.mfs d 0x019) s 4 d (BitVec.ofNat 64 x.gangIx) ∧ Gives (.mfs d 0x01A) s 4 d (BitVec.ofNat 64 x.gangSz) ∧
    Gives (.mfs d 0x020) s 4 d x.seed ∧ Gives (.mfs d 0x021) s 4 d x.srctr ∧ Gives (.mfs d 0x030) s 4 d s.gtime ∧
    Gives (.mfs d 0x042) s 4 d c.derr.word ∧
    (∃ v, Gives (.mfs d 0x040) s 4 d v ∧ v.getLsbD 1 = x.vcond.nv ∧ v.getLsbD 2 = x.vcond.of ∧
      v.getLsbD 3 = x.vcond.uz ∧ v.getLsbD 4 = x.vcond.dz ∧ v.getLsbD 5 = x.vcond.ue) ∧
    (∃ v, Gives (.mfs d 0x041) s 4 d v ∧ v.getLsbD 1 = x.mcond.nv ∧ v.getLsbD 2 = x.mcond.of ∧
      v.getLsbD 3 = x.mcond.uz ∧ v.getLsbD 4 = x.mcond.dz ∧ v.getLsbD 5 = x.mcond.ue) ∧
    (x.mode = true →
      Gives (.mfs d 0x00C) s 4 d (x.readCode 100) ∧ Gives (.mfs d 0x00D) s 4 d (x.readCode 101) ∧
      Gives (.mfs d 0x00E) s 4 d (x.readCode 102) ∧ Gives (.mfs d 0x00F) s 4 d (x.readCode 103) ∧
      Gives (.mfs d 0x050) s 4 d c.win[0] ∧ Gives (.mfs d 0x051) s 4 d c.win[1] ∧
      Gives (.mfs d 0x052) s 4 d c.win[2] ∧ Gives (.mfs d 0x053) s 4 d c.win[3])

/-- R17–R21, R92, R130, R228: what mts writes. -/
def Sys2Proof.Claim.StateRegisterWritesReachTheirFields : Prop :=
  ∀ (s : State) (a : Reg) (v : Word), v = s.rd a →
    let x := { s.me with pc := s.me.pc + 4 }
    (v.extractLsb' 3 3 = 4 → (s.part (s.partOf s.cur)).facc1.getLsbD 1 = false → TaskAlone s →
      Traps (.mts a 0x000) s 0x01 3 (irWord s)) ∧
    (v.extractLsb' 3 3 = 0 ∨ v.extractLsb' 3 3 = 1 ∨ v.extractLsb' 3 3 = 2 ∨ v.extractLsb' 3 3 = 3 ∨
        v.extractLsb' 3 3 = 4 ∧ (s.part (s.partOf s.cur)).facc1.getLsbD 1 = true →
      (x.mode = false → Becomes (.mts a 0x000) s { x with rm := v.extractLsb' 3 3, tcm := v.getLsbD 2 }) ∧
      (x.mode = true → Becomes (.mts a 0x000) s { x with
        rm := v.extractLsb' 3 3, tcm := v.getLsbD 2, pskc := v.extractLsb' 13 3, pmode := v.getLsbD 8 })) ∧
    (5 ≤ (v.extractLsb' 3 3).toNat → TaskAlone s → Traps (.mts a 0x000) s 0x01 4 (irWord s)) ∧
    Becomes (.mts a 0x040) s { x with vcond := { x.vcond with
      nv := x.vcond.nv && !v.getLsbD 1, of := x.vcond.of && !v.getLsbD 2, uz := x.vcond.uz && !v.getLsbD 3
      dz := x.vcond.dz && !v.getLsbD 4, ue := x.vcond.ue && !v.getLsbD 5 } } ∧
    Becomes (.mts a 0x041) s { x with mcond := { x.mcond with
      nv := x.mcond.nv && !v.getLsbD 1, of := x.mcond.of && !v.getLsbD 2, uz := x.mcond.uz && !v.getLsbD 3
      dz := x.mcond.dz && !v.getLsbD 4, ue := x.mcond.ue && !v.getLsbD 5 } } ∧
    (x.mode = true →
      Becomes (.mts a 0x001) s { x with causeCode := v.extractLsb' 0 8, causeSub := v.extractLsb' 8 8
                                        causeDef := v.getLsbD 16, causeMult := v.getLsbD 17 } ∧
      Becomes (.mts a 0x002) s { x with epc := v &&& ~~~1 } ∧ Becomes (.mts a 0x003) s { x with eval := v } ∧
      Becomes (.mts a 0x004) s { x with hvec := v &&& ~~~1 } ∧ Becomes (.mts a 0x005) s { x with fpc := v &&& ~~~1 } ∧
      Becomes (.mts a 0x008) s { x with wsp := v &&& ~~~0x3F } ∧
      ((v.extractLsb' 0 4).toNat ≤ 9 → Becomes (.mts a 0x009) s { x with
        depth := (v.extractLsb' 0 4).toNat, spilled := (v.extractLsb' 8 24).toNat }) ∧
      (9 < (v.extractLsb' 0 4).toNat → s.me.gang = false → ∃ t, exec (.mts a 0x009) s = .next t ∧
        t.me = { s.me with life := .halted, wait := none
                           haltCause := some { code := 0x01, sub := 4, eval := irWord s } }) ∧
      (∀ k, k < 4 → ∃ t, exec (.mts a (BitVec.ofNat 12 (0x00C + k))) s = .next t ∧ OnlyMe s t ∧
        t.me.readCode (100 + k) = v ∧ (∀ c, c ≠ 100 + k → t.me.readCode c = s.me.readCode c) ∧
        t.me = { x with regs := t.me.regs, badRegs := t.me.badRegs }) ∧
      Becomes (.mts a 0x012) s { x with joina := v } ∧ Becomes (.mts a 0x020) s { x with seed := v } ∧
      Becomes (.mts a 0x021) s { x with srctr := v } ∧
      (∀ i ∈ [(0x010 : BitVec 12), 0x011, 0x013, 0x018, 0x019, 0x01A, 0x030], Becomes (.mts a i) s x) ∧
      (∀ k, (hk : k < 4) → ∃ t, exec (.mts a (BitVec.ofNat 12 (0x050 + k))) s = .next t ∧ t.me = x ∧
        (t.core s.myCore).win[k] = v &&& 0xF00FFFFFFFFFFF00 ∧
        (∀ j, (hj : j < 4) → j ≠ k → (t.core s.myCore).win[j] = (s.core s.myCore).win[j]) ∧ t.mem = s.mem) ∧
      (v.getLsbD 63 = true → ∃ t, exec (.mts a 0x042) s = .next t ∧ t.me = x ∧ (t.core s.myCore).derr = {} ∧
        t.mem = s.mem))

/-- mfs and mts reach each state register as its map says: the statements above together. -/
def Obligations.StateRegistersAreReadAndWritten : Prop :=
  Claim.StateRegistersReadAsMapped ∧ Claim.StateRegisterWritesReachTheirFields

/-- R87, R91, R94, R96. -/
def Sys2Proof.Claim.NopYieldWindowStatusAndRandom : Prop :=
  ∀ (s : State) (d : Reg),
    Becomes .nop s { s.me with pc := s.me.pc + 4 } ∧
    (s.me.gang = true → s.me.gangIx ≠ 0 → Becomes .yield s { s.me with pc := s.me.pc + 4 }) ∧
    (s.me.gang = false ∨ s.me.gangIx = 0 → ∃ t, exec .yield s = .next t ∧ OnlyMe s t ∧
      t.me = { s.me with pc := s.me.pc + 4, yielding := true, yieldSet := t.me.yieldSet } ∧
      ∀ k, k ∈ t.me.yieldSet ↔ k < 4 ∧ k ≠ s.cur % 4 ∧ (s.thread (s.cur / 4 * 4 + k)).life = .ready ∧
        s.yieldHolds (s.cur / 4 * 4 + k) = false) ∧
    Gives (.wstat d) s 4 d (BitVec.ofNat 64 (2 ^ 8 * s.me.spilled + 2 ^ 4 * s.me.depth + (9 - s.me.depth))) ∧
    (∃ t, exec (.rng d) s = .next t ∧ OnlyMe s t ∧
      Writes s.me t.me d (drawG s.me.seed s.me.taskix s.me.srctr) ∧
      t.me = { s.me with pc := s.me.pc + 4, srctr := s.me.srctr + 1, regs := t.me.regs, badRegs := t.me.badRegs })

/-- R88, R28: the service request and its reply. -/
def Sys2Proof.Claim.ServiceRequestAndReply : Prop :=
  (∀ (s : State) (d : Reg) (n : BitVec 10), ∃ t, exec (.trap d n) s = .next t ∧
    t = { s with threads := t.threads, order := s.order + 1 } ∧ (∀ k, k ≠ s.cur → t.thread k = s.thread k) ∧
    t.me = { s.me with life := .parked, wait := some (.service n.toNat (s.rd d) s.me.taskix (s.cur % 4 * 1024 + s.cur / 4) (s.me.code d))
                       parkedAt := s.order }) ∧
  (∀ (s : State) (core slot n id : Nat) (v k : Word) (d : Reg),
    let x := s.thread (tidOf core slot)
    x.life = .parked → x.wait = some (.service n v k id (x.code d)) → s.savedWait (tidOf core slot) = none →
    -- R368: one that reached the supervisor core of the die earlier is served first
    ((∃ p ∈ s.servicesAt (dieOf (id % 1024)), p < x.parkedAt) → exec (.serviceReply core slot) s = .next s) ∧
    ((∀ p ∈ s.servicesAt (dieOf (id % 1024)), x.parkedAt ≤ p) → n ≠ 3 → n ∉ s.pkg.services →
    ∃ t, exec (.serviceReply core slot) s = .next t ∧ t = { s with threads := t.threads } ∧
      (∀ k, k ≠ tidOf core slot → t.thread k = s.thread k) ∧
      let y := t.thread (tidOf core slot)
      Writes x y d (if n = 0 then 0 else if n = 1 then (s.pkg.build ++ s.pkg.secVersion : Word)
        else if n = 2 then BitVec.ofNat 64 (s.pkg.peer.toNat + 2 ^ 12 * (s.die (dieOf (id % 1024))).part)
        else BitVec.allOnes 64) ∧
      y = { x with life := .ready, wait := none, pc := x.pc + 4, regs := y.regs, badRegs := y.badRegs }))

/-- nop, yield, wstat, rng, trap and the service reply: the statements above together. -/
def Obligations.SystemAndServiceInstructions : Prop :=
  Claim.NopYieldWindowStatusAndRandom ∧ Claim.ServiceRequestAndReply

/-- R38, R105, R106, R109, R110, R10. -/
def Obligations.ScratchLoadsReadTheirBytes : Prop :=
  (∀ (s : State) (d r a b : Reg) (j : BitVec 5) (o : BitVec 8) (k : BitVec 2) (z : BitVec 3) (L : BitVec 4)
      (i : Instr) (len n : Nat) (l : BitVec 4) (signed : Bool) (va : Word) (off : Nat), z ≠ 7 →
    (i, len, n, l, signed, va) ∈ loadForms s d r a b j o k z L →
    OwnBytes s va off n → off % n = 0 →
    Gives i s len d (loadedAs signed n (le (s.core s.myCore).scratch off n))) ∧
  (∀ (s : State) (d a : Reg) (o : BitVec 8) (L : BitVec 4) (i : Instr) (k off : Nat),
    (i, k) ∈ [(Instr.ldp d a o L, 2), (.ldq d a o L, 4)] →
    (d.toNat % k ≠ 0 → TaskAlone s → Traps i s 0x01 4 (irWord s)) ∧
    (d.toNat % k = 0 → OwnBytes s (s.rd a + 8 * o.signExtend 64) off (8 * k) → off % 8 = 0 →
      ∃ t, exec i s = .next t ∧ OnlyMe s t ∧
        FillsGroup s t d k (fun q => BitVec.ofNat 64 (le (s.core s.myCore).scratch (off + 8 * q) 8))))

/-- R38, R105, R106, R109, R110, R120, R121. -/
def Obligations.ScratchStoresWriteTheirBytes : Prop :=
  (∀ (s : State) (d r a b : Reg) (j : BitVec 5) (o : BitVec 8) (k : BitVec 2) (z : BitVec 3) (L : BitVec 4)
      (i : Instr) (len n : Nat) (l : BitVec 4) (v va : Word) (off : Nat), z.toNat < 4 →
    (i, len, n, l, v, va) ∈ storeForms s d r a b j o k z L →
    OwnBytes s va off n → off % n = 0 → PutsScratch i s len l.toNat off n (byteOf v)) ∧
  (∀ (s : State) (d a : Reg) (o : BitVec 8) (L : BitVec 4) (i : Instr) (k off : Nat),
    (i, k) ∈ [(Instr.stp d a o L, 2), (.stq d a o L, 4)] →
    (d.toNat % k ≠ 0 → TaskAlone s → Traps i s 0x01 4 (irWord s)) ∧
    (d.toNat % k = 0 → OwnBytes s (s.rd a + 8 * o.signExtend 64) off (8 * k) → off % 8 = 0 →
      PutsScratch i s 4 L.toNat off (8 * k) (fun x => byteOf (s.rd (d + BitVec.ofNat 5 (x / 8))) (x % 8)))) ∧
  (∀ (s : State) (a : Reg) (L : BitVec 4) (off : Nat), OwnBytes s (s.rd a) off 256 → off % 256 = 0 →
    PutsScratch (.zln a L) s 4 L.toNat off 256 (fun _ => 0))

/-- R38, R50, R101, R102, R105, R106, R109, R110, R403. Whether an access is performed at its issue or after it is the model's
choice (DESIGN CHOICE, log 20). -/
def Obligations.MemoryLoadsAndStoresAtTheirHome : Prop :=
  ∀ (s : State) (d r a b : Reg) (j : BitVec 5) (o : BitVec 8) (k : BitVec 2) (z : BitVec 3) (L : BitVec 4) (leaf : Leaf),
    (∀ (i : Instr) (len n : Nat) (l : BitVec 4) (signed : Bool) (va : Word), z ≠ 7 →
      (i, len, n, l, signed, va) ∈ loadForms s d r a b j o k z L →
      (s.resolve s.cur .load va n = .ok (.mem leaf) → HomeBytes s leaf n →
        (l = 0 → Gives i s len d (loadedAs signed n (le s.mem leaf.pa n))) ∧
        (l ≠ 0 → LeavesAsLoad i s len l [s.me.code d] va n 1 [.mem leaf])) ∧
      (s.resolve s.cur .load va n = .ok (.far leaf) → s.scPending = false →
        s.walkerFull s.cur (s.missesOf s.cur va 1) = false →
        LeavesAsLoad i s len l [s.me.code d] va n 1 [.far leaf])) ∧
    (∀ (i : Instr) (g : Nat), (i, g) ∈ [(Instr.ldp d a o L, 2), (.ldq d a o L, 4)] → d.toNat % g = 0 →
      PairAtHome s .load (s.rd a + 8 * o.signExtend 64) g leaf →
      (L = 0 → ∃ t, exec i s = .next t ∧ OnlyMe s t ∧
        FillsGroup s t d g (fun q => BitVec.ofNat 64 (le s.mem (leaf.pa + 8 * q) 8))) ∧
      (L ≠ 0 → LeavesAsLoad i s 4 L ((List.range g).map (fun q => s.me.code (d + BitVec.ofNat 5 q)))
        (s.rd a + 8 * o.signExtend 64) 8 g ((List.range g).map (fun q => .mem { leaf with pa := leaf.pa + 8 * q })))) ∧
    (∀ (i : Instr) (len n : Nat) (l : BitVec 4) (v va : Word), z.toNat < 4 →
      (i, len, n, l, v, va) ∈ storeForms s d r a b j o k z L →
      (s.resolve s.cur .store va n = .ok (.mem leaf) → HomeBytes s leaf n →
        PutsMemory i s len l leaf.pa n (byteOf v)) ∧
      (s.resolve s.cur .store va n = .ok (.far leaf) → s.scPending = false →
        s.walkerFull s.cur (s.missesOf s.cur va 1) = false →
        ∃ t q, exec i s = .next t ∧ t = { s with threads := t.threads, reqs := s.reqs ++ [q], nextId := s.nextId + 1 } ∧
          (∀ m, m ≠ s.cur → t.thread m = s.thread m) ∧
          t.me = { s.me with pc := s.me.pc + BitVec.ofNat 64 len, unacked := s.me.unacked ++ [(s.nextId, s.me.mode)] } ∧
          q.id = s.nextId ∧ q.tid = s.cur ∧ q.va = va ∧ q.n = n ∧ q.tgts = [.far leaf] ∧ q.resp = none ∧
          (∀ x, x < n → ∃ bs, q.op = .store bs ∧ bs[x]? = some (byteOf v x)))) ∧
    (∀ (i : Instr) (g : Nat), (i, g) ∈ [(Instr.stp d a o L, 2), (.stq d a o L, 4)] → d.toNat % g = 0 →
      PairAtHome s .store (s.rd a + 8 * o.signExtend 64) g leaf →
      PutsMemory i s 4 L leaf.pa (8 * g) (fun x => byteOf (s.rd (d + BitVec.ofNat 5 (x / 8))) (x % 8)))

/-- R111–R114. -/
def Obligations.AtomicsCombineAtTheirHome : Prop :=
  ∀ (s : State) (d a b : Reg) (sc : BitVec 3) (z : BitVec 1) (o : BitVec 2) (off n old x e : Nat),
    n = (if z = 0 then 4 else 8) → old = le (s.core s.myCore).scratch off n →
    x = (s.rd b).toNat % 2 ^ (8 * n) → e = (s.rd d).toNat % 2 ^ (8 * n) →
    let sgn (v : Nat) : Int := (BitVec.ofNat (8 * n) v).toInt
    ∀ p ∈ [(Instr.amoSwap d sc a b z o, x), (.amoAdd d sc a b z o, (old + x) % 2 ^ (8 * n)),
      (.amoAnd d sc a b z o, old &&& x), (.amoOr d sc a b z o, old ||| x), (.amoXor d sc a b z o, old ^^^ x),
      (.amoMin d sc a b z o, if sgn old ≤ sgn x then old else x), (.amoMax d sc a b z o, if sgn old ≤ sgn x then x else old),
      (.amoMinu d sc a b z o, min old x), (.amoMaxu d sc a b z o, max old x),
      (.amoCas d sc a b z o, if old = e then x else old)],
    (o ≠ 0 → s.me.drained = false → exec p.1 s = .next { s with stalled := true }) ∧
    (2 ≤ o.toNat → 4 ≤ sc.toNat → s.settled s.cur = false → exec p.1 s = .next { s with stalled := true }) ∧
    (o = 0 ∨ s.me.drained = true → (2 ≤ o.toNat → 4 ≤ sc.toNat → s.settled s.cur = true) → OwnBytes s (s.rd a) off n → off % n = 0 →
      ∃ t, exec p.1 s = .next t ∧ Writes s.me t.me d (loadedAs true n old) ∧ t.me.pc = s.me.pc + 4 ∧
        (∀ y, (t.core s.myCore).scratch.read y = if off ≤ y ∧ y < off + n then byteOf (BitVec.ofNat 64 p.2) (y - off)
          else (s.core s.myCore).scratch.read y) ∧
        (∀ c, c ≠ s.myCore → t.core c = s.core c) ∧ t.mem = s.mem ∧ t.pkg = s.pkg ∧ t.clusters = s.clusters ∧
        (o = 0 → t = { s with threads := t.threads, cores := t.cores } ∧ (∀ k, k ≠ s.cur → t.thread k = s.thread k) ∧
          t.me = { s.me with pc := s.me.pc + 4, regs := t.me.regs, badRegs := t.me.badRegs }))

/-- R116, R117, R120, R121, R270. -/
def Obligations.FencesAndCacheOperations : Prop :=
  (∀ (s : State) (sc : BitVec 3) (o : BitVec 2),
    (s.me.drained = false → exec (.fence sc o) s = .next { s with stalled := true }) ∧
    (o ≠ 0 → 4 ≤ sc.toNat → s.settled s.cur = false → exec (.fence sc o) s = .next { s with stalled := true }) ∧
    (s.me.drained = true → (4 ≤ sc.toNat → s.settled s.cur = true) → o ≠ 3 → (o = 1 ∨ sc.toNat < 4) → Jumps (.fence sc o) s (s.me.pc + 4)) ∧
    (s.me.drained = true → o = 0 ∨ (o = 2 ∧ s.settled s.cur = true) → 4 ≤ sc.toNat → (s.die s.myDie).rdcEpoch ≠ 0xFFFFFFFF →
      ∃ t, exec (.fence sc o) s = .next t ∧ t = { s with threads := t.threads, dies := t.dies } ∧
        (∀ k, k ≠ s.cur → t.thread k = s.thread k) ∧
        t.die s.myDie = { s.die s.myDie with rdcEpoch := (s.die s.myDie).rdcEpoch + 1 } ∧
        t.me = { s.me with pc := s.me.pc + 4, acqEpoch := (s.die s.myDie).rdcEpoch + 1 }) ∧
    (s.me.drained = true → (4 ≤ sc.toNat → s.settled s.cur = true) → o = 3 → ∃ t op, exec (.fence sc o) s = .next t ∧ t.scOps = s.scOps ++ [op] ∧
      op.kind = 0 ∧ op.tid = s.cur ∧ op.window = s.clock / 8 ∧ t.me.pc = s.me.pc + 4 ∧
      ∃ f ∈ t.me.flights, f.id = op.flight ∧ f.kind = .sc ∧ f.left = some 0)) ∧
  (∀ (s : State) (a b : Reg),
    let reserved := 2 ^ 7 ≤ (s.rd a).toNat ∨ (s.rd b ≠ 0 ∧ (s.rd a).getLsbD 3 = false)
    (reserved → TaskAlone s → Traps (.qfence a b) s 0x01 4 (irWord s)) ∧
    (¬ reserved → s.queueBusy (s.rd a) (s.rd b) = true → exec (.qfence a b) s = .next { s with stalled := true }) ∧
    (¬ reserved → s.queueBusy (s.rd a) (s.rd b) = false → Jumps (.qfence a b) s (s.me.pc + 4))) ∧
  (∀ (s : State) (a : Reg) (L : BitVec 4), ∀ i ∈ [Instr.pfL2 a L, .pfRdc a L],
    ∃ t, exec i s = .next t ∧ t.threads = (s.advance 4).threads ∧ t.cores = s.cores) ∧
  (∀ (s : State) (a : Reg) (L : BitVec 4),
    ((s.rd a).toNat / 2 ^ 20 = 0xF0 * 2 ^ 36 → (s.rd a).toNat % 2 ^ 20 < 0x60000 →
      s.scPending = false → ∀ i ∈ [Instr.cln a L, .inv a L, .flush a L, .pfL2 a L, .pfRdc a L], Jumps i s (s.me.pc + 4)) ∧
    (∀ l h, s.resolve s.cur .cache (s.rd a) 1 = .ok (.mem l) → s.reqs = [] → s.scPending = false →
      homeDie l.pa = some h → s.dead h = false → s.owner h = some l.key →
      -- outside every format window memory holds what the home shows
      ((s.die h).windowAt l.pa = none → Jumps (.cln a L) s (s.me.pc + 4) ∧
        ∀ i ∈ [Instr.inv a L, .flush a L], ∃ t, exec i s = .next t ∧ t.mem = s.mem ∧
          t = { s with threads := t.threads, dies := t.dies } ∧
          (cacheable s.myDie l = true → (t.die s.myDie).rdc.find (rdcKey l) = none) ∧
          t.me = { s.me with pc := s.me.pc + 4 }) ∧
      -- R171: a dirty line of a window goes to its storage; cln keeps it, flush does not
      (∀ w x, (s.die h).windowAt l.pa = some w → (s.die h).container.find (l.pa / 256) = some x → x.dirty = true →
        (w.storage l.pa).2 = 256 → ∀ p ∈ [(Instr.cln a L, some { x with dirty := false }), (.flush a L, none)],
          ∃ t, exec p.1 s = .next t ∧ t.mem.readBytes (w.storage l.pa).1 256 = x.bytes.toList ∧
            (t.die h).container.find (l.pa / 256) = p.2 ∧ t.me = { s.me with pc := s.me.pc + 4 })) ∧
    (∀ l, s.resolve s.cur .cache (s.rd a) 1 = .ok (.far l) → s.scPending = false →
      s.migrating (s.partOf s.cur) (s.rd a) = false → s.storesTo s.myDie l = false →
      Jumps (.cln a L) s (s.me.pc + 4) ∧
      ∀ i ∈ [Instr.inv a L, .flush a L], ∃ t, exec i s = .next t ∧ t.mem = s.mem ∧
        (l.mode ≠ 1 → (t.die s.myDie).rdc.find (rdcKey l) = none) ∧ t.me = { s.me with pc := s.me.pc + 4 }))

/-- R107, R101. -/
def Sys2Proof.Claim.MisalignedAccessesTrap : Prop :=
  ∀ (s : State) (d r a b : Reg) (j : BitVec 5) (o : BitVec 8) (k y : BitVec 2) (z : BitVec 3) (L : BitVec 4) (sc : BitVec 3)
    (w : BitVec 1) (i : Instr) (len n : Nat) (l : BitVec 4) (va : Word), TaskAlone s → s.scPending = false →
    va.toNat % n ≠ 0 → va.toNat / 2 ^ 57 = 0 →
    (∀ signed, z ≠ 7 → (i, len, n, l, signed, va) ∈ loadForms s d r a b j o k z L → Traps i s 0x03 0 va) ∧
    (∀ v, z.toNat < 4 → (i, len, n, l, v, va) ∈ storeForms s d r a b j o k z L → Traps i s 0x03 0 va) ∧
    (n = 8 → va = s.rd a + 8 * o.signExtend 64 →
      (d.toNat % 2 = 0 → Traps (.ldp d a o L) s 0x03 0 va ∧ Traps (.stp d a o L) s 0x03 0 va) ∧
      (d.toNat % 4 = 0 → Traps (.ldq d a o L) s 0x03 0 va ∧ Traps (.stq d a o L) s 0x03 0 va) ∧
      Traps (.ldScD d a o L) s 0x03 0 va ∧ Traps (.stScD d a o L) s 0x03 0 va) ∧
    (n = 4 → va = s.rd a + 4 * o.signExtend 64 →
      Traps (.ldScW d a o L) s 0x03 0 va ∧ Traps (.stScW d a o L) s 0x03 0 va) ∧
    (n = 256 → va = s.rd a → Traps (.zln a L) s 0x03 0 va) ∧
    (n = (if w = 0 then 4 else 8) → va = s.rd a → y = 0 ∨ s.me.drained = true → (2 ≤ y.toNat → s.settled s.cur = true) →
      ∀ p ∈ atomics d sc a b w y, Traps p s 0x03 0 va)

/-- R24, R97, R99, R101. That the late fault stands among the accesses on their way is the model's choice (DESIGN CHOICE,
log 20). -/
def Sys2Proof.Claim.SpacesCheckTheirAddresses : Prop :=
  ∀ (s : State) (d a : Reg) (o : BitVec 8) (L : BitVec 4) (va : Word), va = s.rd a + o.signExtend 64 →
    (s.scPending = false →
    (TaskAlone s → L = 0 →
      (∀ sp, sp = va.toNat / 2 ^ 56 → 1 < sp → sp ≠ 0xF0 → sp ≠ 0xF1 → Traps (.ldB d a o L) s 0x04 0 va) ∧
      (va.toNat / 2 ^ 56 = 0xF0 → 0x60000 ≤ va.toNat % 2 ^ 56 → Traps (.ldB d a o L) s 0x04 1 va)) ∧
    (L ≠ 0 →
      (∀ sp, sp = va.toNat / 2 ^ 56 → 1 < sp → sp ≠ 0xF0 → sp ≠ 0xF1 →
        FaultsLate (.ldB d a o L) s L [s.me.code d] 0x04 0 va) ∧
      (va.toNat / 2 ^ 56 = 0xF0 → 0x60000 ≤ va.toNat % 2 ^ 56 →
        FaultsLate (.ldB d a o L) s L [s.me.code d] 0x04 1 va))) ∧
    (1 < va.toNat / 2 ^ 56 → s.fetchHalf s.cur va = .err s { code := 0x04, sub := 2, eval := va })

/-- Misaligned accesses and addresses of no space trap: the statements above together. -/
def Obligations.BadAddressesTrap : Prop :=
  Claim.MisalignedAccessesTrap ∧ Claim.SpacesCheckTheirAddresses

/-- R132, R134. -/
def Sys2Proof.Claim.TagInstructionsReadAndClear : Prop :=
  (∀ (s : State) (d a : Reg) (m r : Word), m = s.rd a → r = (s.core s.myCore).tagReady →
    (r &&& m ≠ 0 ∨ m = 0 → Gives (.twany d a) s 4 d (r &&& m)) ∧
    (r &&& m = 0 → m ≠ 0 → Parks (.twany d a) s (.tagAny m (s.me.code d))) ∧
    (r &&& m = m → Gives (.twall d a) s 4 d m) ∧
    (r &&& m ≠ m → Parks (.twall d a) s (.tagAll m (s.me.code d))) ∧
    (∀ n ≤ 64, (∀ i < n, (r &&& m).getLsbD i = false) → (n = 64 ∨ (r &&& m).getLsbD n = true) →
      Gives (.tffr d a) s 4 d (BitVec.ofNat 64 n)) ∧
    (∃ t, exec (.tclr a) s = .next t ∧ Passes s t ∧ t = { s with threads := t.threads, cores := t.cores } ∧
      t.core s.myCore = { s.core s.myCore with tagReady := r &&& ~~~m } ∧
      ∀ c, c ≠ s.myCore → t.core c = s.core c)) ∧
  (∀ (s : State) (c g : Nat), g < 64 →
    ((s.tagStart c g).core c).tagOut g = (s.core c).tagOut g + 1 ∧
    ((s.tagStart c g).core c).tagReady.getLsbD g = false ∧
    ((s.core c).tagOut g = 1 → ((s.tagDone c g).core c).tagReady.getLsbD g = true) ∧
    (1 < (s.core c).tagOut g → ((s.tagDone c g).core c).tagReady = (s.core c).tagReady)) ∧
  -- the threads that wait for tags of the core when a copy's tag becomes ready
  (∀ (s : State) (c g k d : Nat) (m : Word), g < 64 → (s.core c).tagOut g = 1 → k / 4 = c →
    let r := (s.core c).tagReady ||| (1#64 <<< g)
    let x := s.thread k
    let y := (s.tagDone c g).thread k
    let woken : Thread := { x.writeCode d (r &&& m) with life := .ready, wait := none, pc := x.pc + 4 }
    (x.waits = some (.tagAny m d) → y = if r &&& m ≠ 0 ∨ m = 0 then woken else x) ∧
    (x.waits = some (.tagAll m d) → y = if r &&& m = m then woken else x) ∧
    (x.waits = none → y = x))

/-- R135–R137, R146. -/
def Sys2Proof.Claim.ChannelsCarryMessages : Prop :=
  (∀ (s : State) (d a b : Reg) (v c ch : Nat), v = (s.rd a).toNat → c = v % 2 ^ 10 → ch = v / 2 ^ 10 % 8 →
    (2 ^ 14 ≤ v → TaskAlone s → Traps (.chsnd a b) s 0x01 4 (irWord s) ∧ Traps (.chtry d a b) s 0x01 4 (irWord s)) ∧
    (v < 2 ^ 14 →
      let x := s.core c
      let able := x.iso = false ∧ (s.die (dieOf c)).fenced = false ∧ (s.die (dieOf c)).pwrState = 0 ∧
        x.spilling = false ∧ x.spilled ch = 0
      let m : Message := { value := s.rd b, sender := s.cur / 4, narrow := v.testBit 13
                           tcm := v.testBit 13 && s.me.tcm }
      let sent (t : State) : Prop := (t.core c).channel ch = x.channel ch ++ [m] ∧
        (∀ k, k ≠ ch → (t.core c).channel k = x.channel k) ∧ (∀ k, k ≠ c → t.core k = s.core k) ∧
        t = { s with threads := t.threads, cores := t.cores }
      (able → (x.channel ch).length < 16 → NoneParked s →
        (∃ t, exec (.chsnd a b) s = .next t ∧ Passes s t ∧ sent t) ∧
        (∃ t, exec (.chtry d a b) s = .next t ∧ PassesWith s t d 0 ∧ sent t)) ∧
      (able → (x.channel ch).length = 16 →
        Parks (.chsnd a b) s (.chsnd c ch (v.testBit 13) (s.rd b)) ∧ Gives (.chtry d a b) s 4 d 1) ∧
      (x.iso = true ∨ (s.die (dieOf c)).fenced = true →
        Parks (.chsnd a b) s (.chsnd c ch (v.testBit 13) (s.rd b)) ∧ Gives (.chtry d a b) s 4 d 2))) ∧
  (∀ (s : State) (d a : Reg) (v : Nat), v = (s.rd a).toNat →
    let x := s.core s.myCore
    (16 ≤ v → TaskAlone s → Traps (.chrcv d a) s 0x01 4 (irWord s)) ∧
    (8 ≤ v → v < 16 → Gives (.chrcv d a) s 4 d (BitVec.ofNat 64 (x.channel (v - 8)).length)) ∧
    (v < 8 → x.channel v = [] → Parks (.chrcv d a) s (.chrcv v (s.me.code d))) ∧
    (∀ m l, v < 8 → x.channel v = m :: l → m.bad = false →
      (m.narrow = true → m.tcm ≠ s.me.tcm → TaskAlone s →
        Traps (.chrcv d a) s 0x0A 0 (BitVec.ofNat 64 m.sender)) ∧
      ((m.narrow = false ∨ m.tcm = s.me.tcm) → x.spilling = false → x.spilled v = 0 → NoneParked s →
        ∃ t, exec (.chrcv d a) s = .next t ∧ PassesWith s t d m.value ∧ (t.core s.myCore).channel v = l ∧
          (∀ k, k ≠ v → (t.core s.myCore).channel k = x.channel k) ∧ (∀ c, c ≠ s.myCore → t.core c = s.core c) ∧
          t = { s with threads := t.threads, cores := t.cores })))

/-- Tag instructions and channels: the statements above together. -/
def Obligations.TagsAndChannels : Prop :=
  Claim.TagInstructionsReadAndClear ∧ Claim.ChannelsCarryMessages

/-- R139, R140, R142. -/
def Obligations.GangsFormAndDisband : Prop :=
  (∀ (s : State), ∀ p ∈ [(Instr.gang2, 2), (.gang4, 4), (.gang8, 8)],
    (s.me.gang = false → Parks p.1 s (.gang p.2)) ∧
    (s.me.gang = true → s.me.mode = false → ∃ t, exec p.1 s = .next t ∧ t.me.causeCode = 0x01 ∧ t.me.causeSub = 4 ∧
      t.me.eval = irWord s ∧ t.me.epc = s.me.pc ∧ t.me.gang = false)) ∧
  (∀ (s : State) (core slot g : Nat), slot < 4 → g = 2 ∨ g = 4 ∨ g = 8 →
    let base := core / g * g
    (s.thread (tidOf core slot)).waits = some (.gang g) →
    ((∀ j < g, (s.thread (tidOf (base + j) slot)).waits = some (.gang g)) →
      ∃ t, exec (.gangFormation core slot) s = .next t ∧ t = { s with threads := t.threads } ∧
        (∀ j < g, t.thread (tidOf (base + j) slot) = { s.thread (tidOf (base + j) slot) with
          life := .ready, wait := none, pc := (s.thread (tidOf base slot)).pc + 4, gang := true, gangSz := g
          gangIx := j, weft := [] }) ∧
        (∀ k, (∀ j < g, k ≠ tidOf (base + j) slot) → t.thread k = s.thread k)) ∧
    -- R140: a waiting thread of the group has named another size: each traps, with a core that disagrees with it in EVAL
    ((∀ j < g, ∃ h, (s.thread (tidOf (base + j) slot)).waits = some (.gang h)) →
      (∃ j < g, (s.thread (tidOf (base + j) slot)).waits ≠ some (.gang g)) →
      (∀ j < g, (s.thread (tidOf (base + j) slot)).mode = false ∧ (s.thread (tidOf (base + j) slot)).gang = false) →
      ∃ t, exec (.gangFormation core slot) s = .next t ∧ ∀ j < g, ∃ o h,
        (s.thread o).waits = some (.gang h) ∧ (s.thread (tidOf (base + j) slot)).waits ≠ some (.gang h) ∧
        t.thread (tidOf (base + j) slot) =
          trapped (s.thread (tidOf (base + j) slot)) 0x0B 0 (BitVec.ofNat 64 (coreOf o))) ∧
    (∀ j < g, (s.thread (tidOf (base + j) slot)).waits = none → exec (.gangFormation core slot) s = .next s)) ∧
  (∀ (s : State),
    (s.me.gang = false → Jumps .disband s (s.me.pc + 4)) ∧
    (s.me.gang = true → Becomes .disband s { s.me with pc := s.me.pc + 4, gang := false, gangIx := 0, gangSz := 1 }))

/-- R173–R180, R187–R196, R164, R51. -/
def Obligations.VectorCommandsEnterTheQueue : Prop :=
  ∀ (s : State) (d a b : Reg) (t w : BitVec 2) (x f : BitVec 3) (L : BitVec 4),
    ∀ p ∈ vectorCommands d a b t w x f L,
    let op := p.2.1
    let sw := s.rd a
    let mask := s.rd b
    let scalar := s.rd p.2.2.2
    let uses := op.uses p.2.2.1 (sw.getLsbD 17) (bits sw.toNat 19 18) (streamN sw) (activeCount mask (streamN sw))
      (routeM scalar)
    (2 ^ 21 ≤ sw.toNat → TaskAlone s → Traps p.1 s 0x01 4 (irWord s)) ∧
    (VectorReady s op p.2.2.1 sw mask p.2.2.2 → 8 ≤ (s.core s.myCore).vq.length →
      exec p.1 s = .next { s with stalled := true }) ∧
    (VectorReady s op p.2.2.1 sw mask p.2.2.2 → (s.core s.myCore).vq.length < 8 →
      ∃ u c g, exec p.1 s = .next u ∧
        u.core s.myCore = { s.core s.myCore with vq := (s.core s.myCore).vq ++ [c] } ∧
        (∀ k, k ≠ s.myCore → u.core k = s.core k) ∧ (∀ k, k ≠ s.cur → u.thread k = s.thread k) ∧
        u = { s with threads := u.threads, cores := u.cores, nextId := s.nextId + 1 } ∧
        c.slot = s.cur % 4 ∧ c.op = op ∧ c.fmt = p.2.2.1 ∧ c.sw = sw ∧ c.mask = mask ∧ c.scalar = scalar ∧
        c.rm = s.me.rm ∧ c.tcm = s.me.tcm ∧ c.seed = s.me.seed ∧ c.taskix = s.me.taskix ∧ c.srctr = s.me.srctr ∧
        c.cursors = s.me.cursors ∧ c.flight = s.nextId ∧
        g.id = s.nextId ∧ g.kind = .vector ∧ g.left = (if L = 15 then none else some L.toNat) ∧
        u.me = { s.me with
          pc := s.me.pc + 4, cursors := u.me.cursors, flights := s.me.flights ++ [g]
          srctr := s.me.srctr + BitVec.ofNat 64 (if s.me.rm = 4 then op.draws (streamN sw) else 0) } ∧
        ∀ i, (hi : i < 8) →
          ((∀ q ∈ uses, cursorOf sw q.role ≠ i) → u.me.cursors[i] = s.me.cursors[i]) ∧
          (∀ q ∈ uses, cursorOf sw q.role = i → (∀ q' ∈ uses, cursorOf sw q'.role = i → q'.count ≤ q.count) →
            u.me.cursors[i] = { s.me.cursors[i] with
              addr := s.me.cursors[i].addr + BitVec.ofNat 32 q.count * s.me.cursors[i].stride.signExtend 32 }))

/-- R179, R197. That a BB which is no multiple of 64 is refused with the traps the rule lists is the model's choice (DESIGN
CHOICE, log 51). -/
def Sys2Proof.Claim.VectorControlsActAtIssue : Prop :=
  ∀ (s : State) (d a b : Reg) (n : BitVec 3) (L : BitVec 4) (v : Word), v = s.rd a →
    let st := (s.rd b).setWidth 16
    let x := s.core s.myCore
    (v.toNat < 0x60000 → s.rd b = st.signExtend 64 → ∃ c : Vector Cursor 8,
      Becomes (.vcur a b n) s { s.me with pc := s.me.pc + 4, cursors := c } ∧
      ∀ i, (hi : i < 8) → getCursor c i = if i = n.toNat then { addr := v.setWidth 32, stride := st } else s.me.cursors[i]) ∧
    (0x60000 ≤ v.toNat ∨ s.rd b ≠ st.signExtend 64 → TaskAlone s → Traps (.vcur a b n) s 0x01 4 (irWord s)) ∧
    (∀ m, m = (x.vq.filter (fun c => c.slot = s.cur % 4)).length → v.toNat < 16 →
      (m ≤ v.toNat → Jumps (.vfence a) s (s.me.pc + 4)) ∧
      (v.toNat < m → exec (.vfence a) s = .next { s with stalled := true })) ∧
    (∀ i, (hi : i < 8) →
      (v.toNat = i → Gives (.vstat d a) s 4 d (s.me.cursors[i].addr.signExtend 64)) ∧
      (v.toNat = 8 + i → Gives (.vstat d a) s 4 d (s.me.cursors[i].stride.signExtend 64))) ∧
    (16 ≤ v.toNat → TaskAlone s → Traps (.vfence a) s 0x01 4 (irWord s) ∧ Traps (.vstat d a) s 0x01 4 (irWord s)) ∧
    (∀ ok : Prop, (ok ↔ v.toNat / 2 ^ 33 % 2 ^ 30 = 0 ∧ v.toNat / 2 ^ 20 % 2 ^ 4 ≤ 12 ∧ v.toNat % 2 ^ 20 % 64 = 0 ∧
        v.toNat % 2 ^ 20 + 2 ^ (v.toNat / 2 ^ 20 % 2 ^ 4) * (v.toNat / 2 ^ 24 % 2 ^ 8 + 1) * 4 ≤ 0x60000) →
      (¬ ok → TaskAlone s → Traps (.racc d a L) s 0x01 4 (irWord s)) ∧
      (ok → 8 ≤ x.vq.length → exec (.racc d a L) s = .next { s with stalled := true }) ∧
      (ok → x.vq.length < 8 → ∃ t c g, exec (.racc d a L) s = .next t ∧
        t.core s.myCore = { x with vq := x.vq ++ [c] } ∧ c.op = .racc ∧ c.scalar = v ∧ c.dest = s.me.code d ∧
        c.slot = s.cur % 4 ∧ c.flight = s.nextId ∧
        t.me = { s.me with pc := s.me.pc + 4, flights := s.me.flights ++ [g] } ∧ g.id = s.nextId ∧
        g.kind = .vector ∧ g.dests = [s.me.code d] ∧ g.left = (if L = 15 then none else some L.toNat) ∧
        (∀ k, k ≠ s.cur → t.thread k = s.thread k) ∧ (∀ k, k ≠ s.myCore → t.core k = s.core k) ∧
        t = { s with threads := t.threads, cores := t.cores, nextId := s.nextId + 1 }))

/-- R147, R181–R183, R186, R196, R198, R199, R278. Which of several positions at one place stands is the model's choice (DESIGN
CHOICE, log 26). -/
def Sys2Proof.Claim.VectorQueueRunsItsCommands : Prop :=
  (∀ (s : State) (core : Nat) (c : VCmd) (rest : List VCmd), (s.core core).vq = c :: rest →
    s.cmdWatched core c = true →
    (c.op = .ksend → (s.core core).vqStarted = false → exec (.vectorCommandStart core) s = .next s) ∧
    (c.op ≠ .ksend → (s.core core).vqStarted = true → exec (.vectorCommandComplete core) s = .next s)) ∧
  (∀ (s : State) (core : Nat) (c : VCmd) (rest : List VCmd), (s.core core).vq = c :: rest →
    (s.core core).vqStarted = false → (s.die (dieOf core)).pwrState = 0 →
    (c.op ≠ .ksend → ∃ t, exec (.vectorCommandStart core) s = .next t ∧ (t.core core).vqStarted = true ∧
      (t.core core).vq = c :: rest ∧ t.threads = s.threads ∧ t.clusters = s.clusters ∧
      (∀ k, k ≠ core → t.core k = s.core k)) ∧
    (c.op = .ksend → s.cmdWatched core c = false →
      ∃ t, exec (.vectorCommandStart core) s = .next t ∧ (t.core core).vqStarted = true ∧
      (t.core core).vq = { c with away := activeCount c.mask (streamN c.sw)
                                  used := (compute ((s.pinCommand core c).core core) c).used } :: rest ∧
      ((∀ f < 24, (s.core core).pinned f = true) →
        let x := s.core core
        let M := c.scalar.toNat / 2 ^ 14 % 64 + 1
        let T := c.scalar.toNat / 2 ^ 10 % 16
        let key (r : Nat) : Word := BitVec.ofNat 64 (elemAt x c 8 1 r).v
        let goes (r : Nat) : Nat := c.scalar.toNat % 1024 +
          (if T = 0 then 0 else ((key r * 0x9E3779B97F4A7C15) >>> (64 - T)).toNat)
        ∀ y, (t.core y).ksends = (s.core y).ksends ++
          ((List.range (streamN c.sw)).filter (fun r => c.mask.getLsbD (r % 64) && decide (goes r = y))).map (fun r =>
            { sender := core, flight := c.flight, index := r, key := key r
              values := (List.range M).map (fun i => (elemAt x c 4 2 (r * M + i)).v) })))) ∧
  (∀ (s : State) (core : Nat) (c : VCmd) (rest : List VCmd), (s.core core).vq = c :: rest →
    (s.core core).vqStarted = true → c.away = 0 → c.refused = none → (s.die (dieOf core)).pwrState = 0 →
    (compute ((s.pinCommand core c).core core) c).fault = none → s.cmdWatched core c = false →
    ∃ t, exec (.vectorCommandComplete core) s = .next t ∧ (t.core core).vq = rest ∧ (t.core core).vqStarted = false ∧
      (∀ f ∈ (t.thread (tidOf core c.slot)).flights, f.id ≠ c.flight) ∧
      (t.thread (tidOf core c.slot)).deferred = (s.thread (tidOf core c.slot)).deferred ∧
      ((∀ f < 24, (s.core core).pinned f = true) → let r := compute (s.core core) c
        (∀ y, (t.core core).scratch.read y = (lastByte r.writes y).getD ((s.core core).scratch.read y)) ∧
        ((∃ g ∈ (s.thread (tidOf core c.slot)).flights, g.id = c.flight) →
          (t.thread (tidOf core c.slot)).vcond = ((s.thread (tidOf core c.slot)).vcond.or
            { ue := !(if c.op = .ksend then c.used else r.used).isEmpty }).or r.cond)) ∧
      (c.op ≠ .racc → ∀ k, (t.thread (tidOf core c.slot)).readCode k = (s.thread (tidOf core c.slot)).readCode k) ∧
      (c.op = .racc → c.dest < 108 → let x := s.core core
        (t.thread (tidOf core c.slot)).readCode c.dest = (if c.dest = 96 then 0 else BitVec.ofNat 64
          (x.raccCount.toNat + (if x.raccNv then 2 ^ 32 else 0) + (if x.raccOf then 2 ^ 33 else 0))) ∧
        (∀ k, k ≠ c.dest → (t.thread (tidOf core c.slot)).readCode k = (s.thread (tidOf core c.slot)).readCode k) ∧
        (t.core core).raccDesc = c.scalar ∧ (t.core core).raccCount = 0 ∧ (t.core core).raccNv = false ∧
        (t.core core).raccOf = false) ∧
      (∀ k, k ≠ core → t.core k = s.core k) ∧ (∀ k, k ≠ tidOf core c.slot → t.thread k = s.thread k)) ∧
  (∀ (s : State) (core : Nat) (k : KeyRecord) (rest : List KeyRecord) (h : VCmd) (q : List VCmd),
    (s.core core).ksends = k :: rest → k.sender ≠ core → (s.core k.sender).vq = h :: q →
    (∀ v ∈ q, v.flight ≠ k.flight) →
    (s.core core).spilling = false → (s.die (dieOf core)).pwrState = 0 → (s.core core).iso = false →
    (s.die (dieOf core)).fenced = false →
    ∃ t, exec (.ksendRecordApply core) s = .next t ∧ (t.core core).ksends = rest ∧ t.threads = s.threads ∧
      -- R238: the sender's slot has given the ksend up
      (h.flight ≠ k.flight → (t.core k.sender).vq = h :: q) ∧
      ((s.core core).raccDesc.getLsbD 63 = true →
        (h.flight = k.flight → (t.core k.sender).vq = { h with away := h.away - 1 } :: q) ∧
        ((s.core core).raccCount ≠ BitVec.allOnes 32 → (t.core core).raccCount = (s.core core).raccCount + 1)) ∧
      ((s.core core).raccDesc.getLsbD 63 = false →
        (h.flight = k.flight → (t.core k.sender).vq = { h with
          away := h.away - 1
          refused := (match h.refused with
            | some p => if k.index < p.1 then some (k.index, core) else some p
            | none => some (k.index, core)) } :: q) ∧
        (t.core core).raccCount = (s.core core).raccCount ∧ (t.core core).scratch = (s.core core).scratch))

/-- Cursor and queue controls, racc, and the queue's progress: the statements above together. -/
def Obligations.VectorControlsAndQueue : Prop :=
  Claim.VectorControlsActAtIssue ∧ Claim.VectorQueueRunsItsCommands

/-- R174, R175, R177, R186, R190. -/
def Sys2Proof.Claim.VectorIntegerElements : Prop :=
  ∀ (x : Core) (c : VCmd) (k z i : Nat) (X Y : BitVec (8 * z)),
    c.op = .int k → k < 16 → c.fmt < 4 → z = 8 / 2 ^ c.fmt → i < streamN c.sw →
    let cur (r : Nat) : Cursor := getCursor c.cursors (cursorOf c.sw r)
    let elem (r : Nat) : Nat := (x.elem ((cur r).at i).toNat z).v
    X = BitVec.ofNat (8 * z) (elem 1) →
    Y = BitVec.ofNat (8 * z) (if c.sw.getLsbD 17 then c.scalar.toNat else elem 2) →
    let n := Y.toNat % (8 * z)
    let results : List (BitVec (8 * z)) :=
      [X + Y, X - Y, X * Y, if X.toInt ≤ Y.toInt then X else Y, if X.toInt ≤ Y.toInt then Y else X,
       if X.toNat ≤ Y.toNat then X else Y, if X.toNat ≤ Y.toNat then Y else X, X &&& Y, X ||| Y, X ^^^ Y,
       X <<< n, X >>> n, X.sshiftRight n, if X = Y then BitVec.allOnes _ else 0,
       if X.toInt < Y.toInt then BitVec.allOnes _ else 0, if X.toNat < Y.toNat then BitVec.allOnes _ else 0]
    let r := compute x c
    let spot := ((cur 0).at i).toNat
    r.cond = {} ∧ r.fault = none ∧
    (∀ p, p ∈ r.used ↔ (p.1 = 1 ∨ p.1 = 2 ∧ c.sw.getLsbD 17 = false) ∧ p.2 < streamN c.sw ∧ activeIn c p.2 ∧
      (elemAt x c z p.1 p.2).bad = true) ∧
    (∀ off, x.elem off z = if ∃ w ∈ x.scratchBad, w % 8 = 0 ∧ w < off + z ∧ off < w + 8 then ⟨0, true⟩
      else ⟨le x.scratch off z, false⟩) ∧
    (c.mask.getLsbD (i % 64) = true → ∀ v, results[k]? = some v → (spot, z, v.toNat) ∈ r.writes) ∧
    (c.mask.getLsbD (i % 64) = false → c.sw.getLsbD 20 = true → (spot, z, 0) ∈ r.writes) ∧
    (∀ q ∈ r.writes, ∃ j, j < streamN c.sw ∧ (c.mask.getLsbD (j % 64) = true ∨ c.sw.getLsbD 20 = true) ∧
      q.1 = ((cur 0).at j).toNat ∧ q.2.1 = z)

/-- R157, R159, R160, R164, R174, R187–R189. -/
def Sys2Proof.Claim.VectorFloatElements : Prop :=
  ∀ (x : Core) (c : VCmd) (k : Nat), c.op = .float k → k < 15 → c.fmt < 3 →
    let f := fmtOf c.fmt
    let z := f.size
    let N := streamN c.sw
    let r := compute x c
    let rnd (i : Nat) (n : Machine.Num) : Nat × Cond := roundNum f false c.rm.toNat (drawR c.seed c.taskix c.srctr i) n
    let K := c.scalar.toNat % 2 ^ (8 * z)
    let X (i : Nat) : Nat := (elemAt x c z 1 i).v
    let A (i : Nat) : Machine.Num := decodeNum f false (X i)
    let ones : Nat := 2 ^ (8 * z) - 1
    (k ≠ 12 → k ≠ 13 → ∃ v : Nat → Nat × Cond, Elementwise r c z v ∧ ∀ i < N, activeIn c i →
      let Y : Nat := if c.sw.getLsbD 17 then K else (elemAt x c z 2 i).v
      let a := A i
      let b := decodeNum f false Y
      let m := decodeNum f false K
      let rounds (q : ℚ) : Prop := ∃ n, real n = some q ∧ v i = rnd i n
      (∀ p q, real a = some p → real b = some q →
        (k = 0 → rounds (p + q)) ∧ (k = 1 → rounds (p - q)) ∧ (k = 2 → rounds (p * q)) ∧
        (∀ w, real m = some w → (k = 3 → rounds (p * w + q)) ∧ (k = 4 → rounds (p * w - q))) ∧
        (p < q → (k = 5 → v i = (X i, {})) ∧ (k = 6 → v i = (Y, {}))) ∧
        (q < p → (k = 5 → v i = (Y, {})) ∧ (k = 6 → v i = (X i, {}))) ∧
        (k = 9 → v i = (if p = q then ones else 0, {})) ∧ (k = 10 → v i = (if p < q then ones else 0, {})) ∧
        (k = 11 → v i = (if p ≤ q then ones else 0, {}))) ∧
      (k = 14 → ∀ p, real a = some p → rounds (p * (2 : ℚ) ^ max (-1024) (min 1023 (BitVec.ofNat (8 * z) Y).toInt))) ∧
      (a = .nan ∨ b = .nan → (k ≤ 2 → v i = (f.nan, {})) ∧ (k = 9 ∨ k = 10 ∨ k = 11 → v i = (0, {}))) ∧
      (a = .nan ∨ b = .nan ∨ m = .nan → k = 3 ∨ k = 4 → (v i).1 = f.nan) ∧
      (∀ n, a = .inf n → b = .inf !n → k = 0 → v i = (f.nan, { nv := true })) ∧
      (k = 5 ∨ k = 6 → (a = .nan → b = .nan → v i = (f.nan, {})) ∧ (a = .nan → b ≠ .nan → v i = (Y, {})) ∧
        (a ≠ .nan → b = .nan → v i = (X i, {}))) ∧
      (a = .nan → k = 7 ∨ k = 8 ∨ k = 14 → v i = (f.nan, {})) ∧
      (a ≠ .nan → (k = 7 → v i = (X i % 2 ^ (8 * z - 1), {})) ∧ (k = 8 → v i = (X i ^^^ 2 ^ (8 * z - 1), {})))) ∧
    (let on := (List.range N).filter (fun i => c.mask.getLsbD (i % 64));
      (k = 12 → ∃ v : Nat × Cond, r.writes = [(spotOf c 0 0, z, v.1)] ∧ r.cond = v.2 ∧ r.fault = none ∧
        (∀ p : Nat → ℚ, (∀ i ∈ on, real (A i) = some (p i)) → ∃ n, real n = some (on.map p).sum ∧ v = rnd 0 n) ∧
        ((∃ i ∈ on, A i = .nan) → v = (f.nan, {})) ∧ (on = [] → v = (0, {}))) ∧
      (k = 13 → ∃ v, r.writes = [(spotOf c 0 0, z, v)] ∧ r.cond = {} ∧ r.fault = none ∧
        (on = [] → v = f.top + 1 + 2 ^ (8 * z - 1)) ∧
        (∀ p : Nat → ℚ, on ≠ [] → (∀ i ∈ on, real (A i) = some (p i)) →
          ∃ j ∈ on, v = X j ∧ ∀ i ∈ on, p i ≤ p j)))

/-- R164, R165, R174, R191, R192. -/
def Sys2Proof.Claim.VectorFunctionAndConversionElements : Prop :=
  (∀ (x : Core) (c : VCmd) (k : Nat), c.op = .fn k → k < 10 → c.fmt < 3 →
    let f := fmtOf c.fmt
    let z := f.size
    let rnd (i : Nat) (n : Machine.Num) : Nat × Cond := roundNum f false c.rm.toNat (drawR c.seed c.taskix c.srctr i) n
    let zero (n : Bool) : Nat × Cond := (f.signed n 0, {})
    let inf (n : Bool) : Nat × Cond := (f.signed n (f.top + 1), {})
    let byZero (n : Bool) : Nat × Cond := (f.signed n (f.top + 1), { dz := true })
    let nan : Nat × Cond := (f.nan, {})
    let invalid : Nat × Cond := (f.nan, { nv := true })
    ∃ v : Nat → Nat × Cond, Elementwise (compute x c) c z v ∧ ∀ i < streamN c.sw, activeIn c i →
      let a := decodeNum f false (elemAt x c z 1 i).v
      let b := decodeNum f false (if c.sw.getLsbD 17 then c.scalar.toNat % 2 ^ (8 * z) else (elemAt x c z 2 i).v)
      let rounds (q : ℚ) : Prop := ∃ n, real n = some q ∧ v i = rnd i n
      (a = .nan → v i = nan) ∧ (k = 9 → b = .nan → v i = nan) ∧
      (∀ n e, a = .fin n 0 e →
        (k = 0 ∨ k = 1 → v i = byZero n) ∧ (k = 2 ∨ k = 5 ∨ k = 7 ∨ k = 8 → v i = zero n) ∧ (k = 3 → rounds 1) ∧
        (k = 4 → v i = byZero true) ∧ (k = 6 → rounds (1 / 2))) ∧
      (∀ n, a = .inf n →
        (k = 0 → v i = zero n) ∧ (k = 1 → v i = if n then invalid else zero false) ∧
        (k = 2 ∨ k = 4 → v i = if n then invalid else inf false) ∧ (k = 3 → v i = if n then zero false else inf false) ∧
        (k = 5 → rounds (if n then -1 else 1)) ∧ (k = 6 → if n then v i = zero false else rounds 1) ∧
        (k = 7 ∨ k = 8 → v i = if n then zero true else inf false)) ∧
      (∀ p, real a = some p → p < 0 → k = 1 ∨ k = 2 ∨ k = 4 → v i = invalid) ∧
      (∀ (p : ℚ) (t : ℤ), real a = some p →
        (p = 2 ^ t → (k = 0 → rounds (2 ^ (-t))) ∧ (k = 4 → rounds t)) ∧
        (k = 3 → p = t → |t| < 1024 → rounds (2 ^ t))) ∧
      (k = 9 →
        (∀ n m e g h j, a = .fin n m e → b = .fin g h j → h = 0 → v i = if m = 0 then invalid else byZero (n != g)) ∧
        (∀ n e g h j, a = .fin n 0 e → b = .fin g h j → h ≠ 0 → v i = zero (n != g)) ∧
        (∀ n g, a = .inf n → b = .inf g → v i = invalid) ∧
        (∀ n g m e, a = .inf n → b = .fin g m e → v i = inf (n != g)) ∧
        (∀ n m e g, a = .fin n m e → b = .inf g → v i = zero (n != g)))) ∧
  (∀ (x : Core) (c : VCmd) (k : Nat), c.op = .cvt k → k < 8 → c.fmt < 8 →
    let f := fmtOf c.fmt
    ∃ v : Nat → Nat × Cond, Elementwise (compute x c) c f.size v ∧ ∀ i < streamN c.sw, activeIn c i →
      let a := decodeNum (fmtOf k) c.tcm (elemAt x c (fmtOf k).size 1 i).v
      v i = roundNum f c.tcm c.rm.toNat (drawR c.seed c.taskix c.srctr i) a ∧
      (a = .nan → (c.fmt < 5 → v i = (f.nan, {})) ∧ (c.fmt = 7 → v i = (0, { nv := true }))) ∧
      (∀ t : ℤ, real a = some (t : ℚ) → c.fmt = 7 → -2 ^ 31 ≤ t → t < 2 ^ 31 → v i = ((BitVec.ofInt 32 t).toNat, {})))

/-- R174, R193–R195. -/
def Sys2Proof.Claim.VectorMoveElements : Prop :=
  ∀ (x : Core) (c : VCmd) (k : Nat), c.op = .move k → k < 12 →
    let z := 8 / 2 ^ (c.sw.toNat / 2 ^ 18 % 4)
    let N := streamN c.sw
    let r := compute x c
    let X (i : Nat) : Nat := (elemAt x c z 1 i).v
    let on := (List.range N).filter (fun i => c.mask.getLsbD (i % 64))
    let rank (i : Nat) : Nat := (on.filter (· < i)).length
    let D (i v : Nat) : Prop := (spotOf c 0 i, z, v) ∈ r.writes
    r.cond = {} ∧
    (k = 0 → Elementwise r c z (fun i => (if c.sw.getLsbD 17 then c.scalar.toNat % 2 ^ (8 * z) else X i, {}))) ∧
    (∀ i ∈ on,
      (k = 1 → D i (X 0)) ∧ (k = 4 → D (rank i) (X i)) ∧ (k = 5 → D i (X (rank i))) ∧
      (k = 6 → D i (((on.filter (· ≤ i)).map X).sum % 2 ^ (8 * z))) ∧ (k = 7 → D i (X (N - 1 - i))) ∧
      (k = 8 → let m := i ^^^ 2 ^ (c.scalar.toNat % 8)
        D i (if N ≤ m then X i else if decide (i < m) = !(i.testBit (c.scalar.toNat / 8 % 16)) then min (X i) (X m)
          else max (X i) (X m))) ∧
      (k = 11 → D i ((on.filter (fun j => X j < X i ∨ X j = X i ∧ j < i)).length % 2 ^ (8 * z)))) ∧
    (k = 9 → ∀ i < N, D i (if c.mask.getLsbD (i % 64) then X i else (elemAt x c z 2 i).v)) ∧
    (k = 10 → ∃ l : List Nat, l.Pairwise (· ≤ ·) ∧
      l.Perm ((List.range N).map (fun i => if c.mask.getLsbD (i % 64) then X i else 2 ^ (8 * z) - 1)) ∧
      ∀ i, (hi : i < l.length) → D i l[i]) ∧
    (k ≠ 0 → k ≠ 3 → ∀ q ∈ r.writes, ∃ j < N, q.1 = spotOf c 0 j ∧ q.2.1 = z ∧
      (k = 4 → j < on.length) ∧ (k ≠ 4 → k ≠ 9 → k ≠ 10 → j ∈ on)) ∧
    (k ≠ 2 → k ≠ 3 → r.fault = none) ∧
    (let base : Int := (getCursor c.cursors (cursorOf c.sw (if k = 2 then 1 else 0))).addr.toInt
      let at_ (i : Nat) : Int := base + (elemAt x c 4 2 i).v * z
      let ok (i : Nat) : Prop := 0 ≤ at_ i ∧ at_ i + z ≤ 0x60000
      k = 2 ∨ k = 3 →
      (∀ i ∈ on, ok i → (k = 2 → D i (x.elem (at_ i).toNat z).v) ∧ (k = 3 → ((at_ i).toNat, z, X i) ∈ r.writes)) ∧
      (k = 3 → ∀ q ∈ r.writes, ∃ i ∈ on, ok i ∧ q = ((at_ i).toNat, z, X i)) ∧
      ((∀ i ∈ on, ok i) → r.fault = none) ∧
      (∀ i ∈ on, ¬ ok i → (∀ j ∈ on, j < i → ok j) → r.fault = some (0xF0 * 2 ^ 56 + BitVec.ofInt 64 (at_ i))))

/-- What the vector commands compute: integer, floating, functions, conversions and moves: the statements above together. -/
def Obligations.VectorElementsAreComputed : Prop :=
  Claim.VectorIntegerElements ∧ Claim.VectorFloatElements ∧ Claim.VectorFunctionAndConversionElements ∧ Claim.VectorMoveElements

/-- R229–R233, R239–R243, R332, R333. -/
def Sys2Proof.Claim.LaunchRecordsPatchAndArm : Prop :=
  (∀ (s : State) (d a b : Reg) (v c r j : Nat), v = (s.rd a).toNat → c = s.myCluster → r = v % 2 ^ 16 →
    j = v / 2 ^ 16 % 8 →
    (2 ^ 19 ≤ v → TaskAlone s → Traps (.lpatch d a b) s 0x01 4 (irWord s)) ∧
    (v < 2 ^ 19 → ¬ Drained s → exec (.lpatch d a b) s = .next { s with stalled := true }) ∧
    (v < 2 ^ 19 → Drained s →
      ((s.cluster c).lrCount ≤ r → Gives (.lpatch d a b) s 4 d 3) ∧
      (r < (s.cluster c).lrCount → s.recState c r ≠ 0 → Gives (.lpatch d a b) s 4 d 2) ∧
      (r < (s.cluster c).lrCount → s.recState c r = 0 → PlainRec s c r → ∃ t, exec (.lpatch d a b) s = .next t ∧ PassesWith s t d 0 ∧
        t = { s with threads := t.threads, mem := t.mem, memBad := t.memBad } ∧ t.recWord c r (0x40 + 8 * j) = s.rd b ∧
        RecordBytes s t c r [0x40 + 8 * j]))) ∧
  (∀ (s : State) (d a : Reg) (v c : Nat), v = (s.rd a).toNat → c = s.myCluster → ∀ i ∈ [Instr.spawn d a, .spawnc d a],
    (2 ^ 16 ≤ v → TaskAlone s → Traps i s 0x01 4 (irWord s)) ∧
    (v < 2 ^ 16 → ¬ Drained s → exec i s = .next { s with stalled := true }) ∧
    (v < 2 ^ 16 → Drained s →
      ((s.cluster c).lrCount ≤ v → Gives i s 4 d 3) ∧
      (v < (s.cluster c).lrCount → s.recState c v ≠ 0 → Gives i s 4 d 2) ∧
      (v < (s.cluster c).lrCount → s.recState c v = 0 → s.malformed c v = true → Gives i s 4 d 5) ∧
      (Armable s c v → 256 ≤ (s.cluster c).used → Gives (.spawn d a) s 4 d 1) ∧
      (Armable s c v → (s.cluster c).used < 256 → PlainRec s c v → ∃ t, exec i s = .next t ∧ PassesWith s t d 0 ∧
        t = { s with threads := t.threads, clusters := t.clusters, mem := t.mem, memBad := t.memBad } ∧
        Entered s t c v 1 none ∧ RecordBytes s t c v [0xC0, 0xE0, 0xE8, 0xF0, 0xF8] ∧
        t.cluster c = { s.cluster c with used := (s.cluster c).used + 1, entering := (t.cluster c).entering } ∧
        ∀ k, k ≠ c → t.cluster k = s.cluster k)))

/-- R30, R244, R248, R258, R259. -/
def Sys2Proof.Claim.TasksEndAndSchedules : Prop :=
  (∀ (s : State) (c : Nat), c = s.myCluster → s.me.gang = false → s.me.inl = false → s.me.visitor = none →
    (s.me.joina = 0 → ¬ Drained s → exec .done s = .next { s with stalled := true }) ∧
    (s.me.joina ≠ 0 → objectAt .join s.me.joina = none → TaskAlone s → Traps .done s 0x04 1 s.me.joina) ∧
    -- R260: an uncorrectable STATE word is left to the host
    (s.me.joina = 0 → Drained s → s.stateBad c s.me.recIx = true → Becomes .done s { s.me with life := .free, wait := none }) ∧
    (s.me.joina = 0 → Drained s → s.stateBad c s.me.recIx = false → PlainRec s c s.me.recIx → ∃ t, exec .done s = .next t ∧
      t = { s with threads := t.threads, mem := t.mem, memBad := t.memBad } ∧
      t.me = { s.me with life := .free, wait := none } ∧ (∀ k, k ≠ s.cur → t.thread k = s.thread k) ∧
      t.recWord c s.me.recIx 0xC0 = 0 ∧ RecordBytes s t c s.me.recIx [0xC0]) ∧
    (∀ e i, s.me.joina ≠ 0 → Here s .join s.me.joina e i → Drained s → 1 < (s.join e i).count →
      s.stateBad c s.me.recIx = false → PlainRec s c s.me.recIx → ∃ t, exec .done s = .next t ∧
        t = { s with threads := t.threads, mem := t.mem, memBad := t.memBad, clusters := t.clusters } ∧
        t.me = { s.me with life := .free, wait := none } ∧ (∀ k, k ≠ s.cur → t.thread k = s.thread k) ∧
        t.recWord c s.me.recIx 0xC0 = 0 ∧ RecordBytes s t c s.me.recIx [0xC0] ∧
        t.join e i = { s.join e i with count := (s.join e i).count - 1 })) ∧
  (∀ (s : State) (d : Reg), let x := s.core s.myCore
    let a := x.scht.toNat + 8 * x.schCur
    (x.schLen ≤ x.schCur → Gives (.schedNext d) s 4 d (BitVec.allOnes 64)) ∧
    (x.schCur < x.schLen → s.lost a = true → TaskAlone s → Traps (.schedNext d) s 0x0D 0 (BitVec.ofNat 64 a)) ∧
    (x.schCur < x.schLen → s.lost a = false → s.unowned a = true → TaskAlone s →
      Traps (.schedNext d) s 0x05 3 (BitVec.ofNat 64 a)) ∧
    (x.schCur < x.schLen → s.lost a = false → s.unowned a = false → a % 8 = 0 → a ∈ s.memBad → s.windowOf a = none →
      TaskAlone s → Traps (.schedNext d) s 0x0D 0 (BitVec.ofNat 64 a)) ∧
    (x.schCur < x.schLen → s.lost a = false → s.unowned a = false → (∀ w ∈ s.memBad, w + 8 ≤ a ∨ a + 8 ≤ w) →
      (∀ i < 8, s.windowOf (a + i) = none ∧ inTier2 (a + i) = false) → ∃ t, exec (.schedNext d) s = .next t ∧ PassesWith s t d (BitVec.ofNat 64 (le s.mem a 8)) ∧
        t = { s with threads := t.threads, cores := t.cores } ∧ t.core s.myCore = { x with schCur := x.schCur + 1 } ∧
        ∀ k, k ≠ s.myCore → t.core k = s.core k))

/-- Launch records, the end of a task, and the schedule table: the statements above together. -/
def Obligations.LaunchesTasksAndSchedules : Prop :=
  Claim.LaunchRecordsPatchAndArm ∧ Claim.TasksEndAndSchedules

/-- R243, R244: the state of the child right after spawnc, and what its done brings back. -/
def Obligations.InlineChildRunsAndReturns : Prop :=
  ∀ (s : State) (d a : Reg) (r c : Nat), r = (s.rd a).toNat → c = s.myCluster → r < 2 ^ 16 → Drained s →
    Armable s c r → 256 ≤ (s.cluster c).used → PlainRec s c r →
    (7 < s.me.depth → TaskAlone s → Traps (.spawnc d a) s 0x06 0 2) ∧
    (s.me.depth ≤ 7 → ∃ t, exec (.spawnc d a) s = .next t ∧
      t = { s with threads := t.threads, mem := t.mem, memBad := t.memBad } ∧
      (∀ k, k ≠ s.cur → t.thread k = s.thread k) ∧ t.recState c r = 4 ∧ RecordBytes s t c r [0xC0, 0xC8, 0xD0, 0xD8] ∧
      t.me = { s.me with pc := s.recWord c r 0, wb := (s.me.wb + 2) % 12, depth := s.me.depth + 2, recIx := r, inl := true
                         joina := s.recWord c r 0x28, regs := t.me.regs, badRegs := t.me.badRegs } ∧
      (∀ i < 8, t.me.rd (BitVec.ofNat 5 i) = s.recWord c r (0x40 + 8 * i)) ∧
      (∀ j, 1 ≤ j → j < 64 → (t.me.rd 23).getLsbD j = (s.me.pc + 4).getLsbD j) ∧ (t.me.rd 23).getLsbD 0 = true ∧
      (s.me.wb < 12 → s.me.recIx < 2 ^ 16 → s.me.pc.getLsbD 0 = false → s.recWord c r 0x28 = 0 → s.me.gang = false →
        ∃ u, exec .done t = .next u ∧ u = { t with threads := u.threads, mem := u.mem, memBad := u.memBad } ∧
          u.me = { s.me with pc := s.me.pc + 4, regs := u.me.regs, badRegs := u.me.badRegs } ∧
          u.me.rd d = (if d = 24 then 0 else 1) ∧ u.recState c r = 0))

/-- R245–R248, R241. -/
def Obligations.JoinCountersSignalAndWait : Prop :=
  (∀ (s : State) (d a b : Reg) (c i n : Nat) (j : JoinCounter), n = (s.rd b).toNat → j = s.join c i →
    Here s .join (s.rd a) c i → n < 2 ^ 32 → Drained s →
    let k : JoinCounter := { j with count := j.count - n, under := j.under || decide (j.count < n) }
    (NoneParked s → (n < j.count ∨ j.count = 0 ∨ j.cen = false) → ∃ t, exec (.jsig d a b) s = .next t ∧
      PassesWith s t d (BitVec.ofNat 64 j.count) ∧ ClusterOnly s t c ∧ t.join c i = k ∧
      t.cluster c = { s.cluster c with joins := (t.cluster c).joins } ∧ ∀ h, h ≠ i → t.join c h = s.join c h) ∧
    (NoneParked s → 0 < j.count → j.count ≤ n → j.cen = true →
      (Armable s c j.crec → PlainRec s c j.crec → ∃ t, exec (.jsig d a b) s = .next t ∧ PassesWith s t d (BitVec.ofNat 64 j.count) ∧
        t.join c i = { k with cen := false, cq := true } ∧ Entered s t c j.crec 5 (some i) ∧
        (t.cluster c).used = (s.cluster c).used ∧ RecordBytes s t c j.crec [0xC0, 0xE0, 0xE8, 0xF0, 0xF8]) ∧
      (¬ Armable s c j.crec → ∃ t, exec (.jsig d a b) s = .next t ∧ PassesWith s t d (BitVec.ofNat 64 j.count) ∧
        t.join c i = { k with cen := false, cfail := true } ∧ (t.cluster c).entering = (s.cluster c).entering)) ∧
    (risingKeys s.threads.cells = true → 0 < j.count → j.count ≤ n → j.cen = false →
      ∃ t, exec (.jsig d a b) s = .next t ∧ (t.join c i).count = 0 ∧
        ∀ m l va u, m ≠ s.cur → (s.thread m).waits = some (.jwait c i va l u) →
          (t.thread m).life = .ready ∧ (t.thread m).wait = none ∧ (t.thread m).pc = (s.thread m).pc + 4)) ∧
  (∀ (s : State) (a b : Reg) (c i n : Nat), n = (s.rd b).toNat → Here s .join (s.rd a) c i → n < 2 ^ 32 →
    ((s.join c i).count = 0 → (s.die s.myDie).rdcEpoch ≠ BitVec.allOnes 32 → Acquires (.jwait a b) s) ∧
    ((s.join c i).count ≠ 0 → Parks (.jwait a b) s (.jwait c i (s.rd a) n 0))) ∧
  (∀ (s : State) (core slot c i l u : Nat) (va : Word),
    (s.thread (tidOf core slot)).waits = some (.jwait c i va l u) →
    (l = 0 ∨ u < l → exec (.jwaitTimeout core slot) s = .next s) ∧
    (l ≠ 0 → l ≤ u → (s.thread (tidOf core slot)).mode = false → (s.thread (tidOf core slot)).gang = false →
      (s.die (dieOf core)).pwrState = 0 → ∃ t, exec (.jwaitTimeout core slot) s = .next t ∧
        t.thread (tidOf core slot) = trapped (s.thread (tidOf core slot)) 0x0E 0 va ∧
        ∀ k, k ≠ tidOf core slot → t.thread k = s.thread k)) ∧
  (∀ (s : State) (who : Who) (c i : Nat) (v : Word), c < 32 → i < 4096 → MayStore s who (joinAddr c i) →
    0x40000 + 0x10 * i ∉ (s.cluster c).poisoned → (s.join c i).cq = false → NoneParked s →
    ∃ t, exec (.joinCountStore who c i v) s = .next t ∧ t.threads = s.threads ∧ t.mem = s.mem ∧
      t.join c i = { s.join c i with count := v.toNat % 2 ^ 32, under := (s.join c i).under && !v.getLsbD 32 } ∧
      (∀ h, h ≠ i → t.join c h = s.join c h) ∧ ∀ k, k ≠ c → t.cluster k = s.cluster k)

/-- R249–R251, R239, R241. -/
def Obligations.BarriersCountPhases : Prop :=
  (∀ (s : State) (d a : Reg) (c i : Nat) (b : Barrier), Here s .barrier (s.rd a) c i → Drained s → b = s.bar c i →
    Settled s c b →
    (let b' := { b with arrived := b.arrived + 1 }
     b.arrived < 0xFFFF → Settled s c b' → (due s c b = 0 → b.arrived = 0) → b.arrived < due s c b ∨ b.arrived = 0 →
      ∃ t, exec (.barArr d a) s = .next t ∧ PassesWith s t d (b.phase.zeroExtend 64) ∧ ClusterOnly s t c ∧
        t.bar c i = b' ∧ t.cluster c = { s.cluster c with bars := (t.cluster c).bars } ∧
        ∀ k, k ≠ i → t.bar c k = s.bar c k) ∧
    (0xFFFF ≤ b.arrived → ∃ t, exec (.barArr d a) s = .next t ∧ t.bar c i = { b with ovf := true } ∧
      PassesWith s t d ((b.phase + BitVec.ofNat 32 (b.arrived / max 1 (due s c b))).zeroExtend 64)) ∧
    (b.arrived < 0xFFFF → b.arrived + 1 = due s c b → b.bytes = 0 →
      (NoneParked s → ∃ t, exec (.barArr d a) s = .next t ∧ PassesWith s t d (b.phase.zeroExtend 64) ∧
        ClusterOnly s t c ∧ t.bar c i = { b with arrived := 0, phase := b.phase + 1 }) ∧
      (risingKeys s.threads.cells = true → ∃ t, exec (.barArr d a) s = .next t ∧
        ∀ m, m ≠ s.cur → (s.thread m).waits = some (.barWait c i b.phase) ∨
            (s.thread m).waits = some (.barT1 c i (b.phase.getLsbD 0)) →
          (t.thread m).life = .ready ∧ (t.thread m).wait = none ∧ (t.thread m).pc = (s.thread m).pc + 4))) ∧
  (∀ (s : State) (a b : Reg) (c i v : Nat) (x : Barrier), Here s .barrier (s.rd a) c i → x = s.bar c i →
    v = (s.rd b).toNat →
    (v < 2 ^ 32 → ∀ gone, gone = (x.phase - BitVec.ofNat 32 v).toNat →
      (1 ≤ gone → gone ≤ 2 ^ 31 → (s.die s.myDie).rdcEpoch ≠ BitVec.allOnes 32 → Acquires (.barWait a b) s) ∧
      (gone = 0 ∨ 2 ^ 31 < gone → Parks (.barWait a b) s (.barWait c i (BitVec.ofNat 32 v)))) ∧
    (v < 2 → (x.phase.getLsbD 0 ≠ decide (v = 1) → (s.die s.myDie).rdcEpoch ≠ BitVec.allOnes 32 →
        Acquires (.barT1 a b) s) ∧
      (x.phase.getLsbD 0 = decide (v = 1) → Parks (.barT1 a b) s (.barT1 c i (decide (v = 1))))) ∧
    (2 ^ 16 < v → v < 2 ^ 17 → SetsBarrier (.barSet a b) s c i
      { x with expect := v % 2 ^ 16, bound := false, arrived := 0, bytes := 0, ovf := false, under := false }) ∧
    (0 < v → v < 2 ^ 16 → Settled s c { x with expect := v, bound := false } →
      SetsBarrier (.barSet a b) s c i { x with expect := v, bound := false }) ∧
    (v % 2 ^ 16 = 0 → TaskAlone s → Traps (.barSet a b) s 0x01 4 (irWord s)) ∧
    (v < 2 ^ 28 → Drained s → let n := x.bytes + v
      (n < 2 ^ 28 → Settled s c { x with bytes := n } → SetsBarrier (.barBytes a b) s c i { x with bytes := n }) ∧
      (2 ^ 28 ≤ n → SetsBarrier (.barBytes a b) s c i { x with bytes := 2 ^ 28 - 1, ovf := true })) ∧
    (v < 2 ^ 8 → 0x60000 + 8 * v ∉ (s.cluster c).poisoned → Settled s c { x with bound := true, set := v } →
      SetsBarrier (.barBind a b) s c i { x with bound := true, set := v }) ∧
    (2 ^ 8 ≤ v → v < 2 ^ 9 → Settled s c { x with bound := false } →
      SetsBarrier (.barBind a b) s c i { x with bound := false }))

/-- R252–R254, R251, R241. -/
def Sys2Proof.Claim.FuturesAndSets : Prop :=
  (∀ (s : State) (d a b : Reg) (c i : Nat) (x : FutureCell), Here s .cell (s.rd a) c i → x = s.cell c i →
    (x.full = true → (s.die s.myDie).rdcEpoch ≠ BitVec.allOnes 32 → ∃ t, exec (.ldf d a) s = .next t ∧
      t = { s with threads := t.threads, dies := t.dies } ∧ (∀ k, k ≠ s.cur → t.thread k = s.thread k) ∧
      Writes s.me t.me d x.value ∧ t.me.pc = s.me.pc + 4 ∧ t.me.acqEpoch = (s.die s.myDie).rdcEpoch + 1) ∧
    (x.full = false → Parks (.ldf d a) s (.ldf c i (s.me.code d))) ∧
    (Drained s → x.full = true → Gives (.stf d a b) s 4 d 1) ∧
    (Drained s → x.full = false → NoneParked s → ∃ t, exec (.stf d a b) s = .next t ∧ PassesWith s t d 0 ∧
      ClusterOnly s t c ∧ t.cell c i = { value := s.rd b, full := true } ∧ (∀ k, k ≠ i → t.cell c k = s.cell c k) ∧
      t.cluster c = { s.cluster c with cells := (t.cluster c).cells }) ∧
    (Drained s → x.full = false → risingKeys s.threads.cells = true → ∃ t, exec (.stf d a b) s = .next t ∧
      ∀ m r, m ≠ s.cur → (s.thread m).waits = some (.ldf c i r) → r < 108 → r ≠ 96 →
        (t.thread m).life = .ready ∧ (t.thread m).pc = (s.thread m).pc + 4 ∧ (t.thread m).readCode r = s.rd b)) ∧
  (∀ (s : State) (who : Who) (c i : Nat), c < 32 → i < 4096 → MayStore s who (clusterReg c (0x20008 + 0x10 * i)) →
    0x20000 + 0x10 * i ∉ (s.cluster c).poisoned →
    ∃ t, exec (.futureEmpty who c i) s = .next t ∧ t.cell c i = { s.cell c i with full := false } ∧
      (∀ k, k ≠ i → t.cell c k = s.cell c k) ∧ (∀ k, k ≠ c → t.cluster k = s.cluster k) ∧ t.threads = s.threads ∧
      t.mem = s.mem) ∧
  (∀ (s : State) (d a : Reg) (c i n : Nat), Here s .set (s.rd a) c i → Drained s → n = s.setCount c i →
    let alone := ∀ b ∈ (s.cluster c).bars.cells, b.2.bound = true → b.2.set ≠ i
    let leads (x : Instr) (m : Nat) := ∃ t, exec x s = .next t ∧ PassesWith s t d (BitVec.ofNat 64 n) ∧ ClusterOnly s t c ∧
      t.setCount c i = m ∧ (∀ k, k ≠ i → t.setCount c k = s.setCount c k) ∧
      t.cluster c = { s.cluster c with sets := (t.cluster c).sets }
    (n = 0xFFFF → Gives (.gjoin d a) s 4 d (BitVec.allOnes 64)) ∧
    (n ≠ 0xFFFF → alone → leads (.gjoin d a) (n + 1)) ∧
    (n = 0 → Gives (.gleave d a) s 4 d 0) ∧
    (0 < n → alone → leads (.gleave d a) (n - 1)) ∧
    (∀ j b, (s.cluster c).bars.cells = [(j, b)] → b.bound = true → b.set = i → b.bytes = 0 → NoneParked s →
      (1 < n → b.arrived = n - 1 → ∃ t, exec (.gleave d a) s = .next t ∧ PassesWith s t d (BitVec.ofNat 64 n) ∧
        t.setCount c i = n - 1 ∧ t.bar c j = { b with arrived := 0, phase := b.phase + 1 }) ∧
      (n ≠ 0xFFFF → b.arrived ≤ n → ∃ t, exec (.gjoin d a) s = .next t ∧ PassesWith s t d (BitVec.ofNat 64 n) ∧
        t.setCount c i = n + 1 ∧ t.bar c j = b) ∧
      (n ≠ 0xFFFF → b.arrived = n + 1 → ∃ t, exec (.gjoin d a) s = .next t ∧ PassesWith s t d (BitVec.ofNat 64 n) ∧
        t.setCount c i = n + 1 ∧ t.bar c j = { b with arrived := 0, phase := b.phase + 1 })))

/-- R255–R257, R234, R260. -/
def Sys2Proof.Claim.ScoreboardReleases : Prop :=
  (∀ (s : State) (d a b : Reg) (v m r x y c k : Nat), v = (s.rd a).toNat → m = (s.rd b).toNat → v < 2 ^ 33 → m < 2 ^ 24 →
    r = v % 2 ^ 16 → x = v / 2 ^ 16 % 2 ^ 6 → y = v / 2 ^ 22 % 2 ^ 6 → c = v / 2 ^ 28 → k = 64 * y + x →
    (s.die (c / 8)).part = s.partOf s.cur → 0x80000 + 8 * k ∉ (s.cluster c).poisoned →
    let old (x y : Nat) := ((s.cluster c).retired.get 0 y).getLsbD x
    ((s.cluster c).lrCount ≤ r → Gives (.sbBind d a b) s 4 d 3) ∧
    (r < (s.cluster c).lrCount → s.recState c r ≠ 0 → Gives (.sbBind d a b) s 4 d 2) ∧
    (r < (s.cluster c).lrCount → s.recState c r = 0 → s.malformed c r = true → Gives (.sbBind d a b) s 4 d 5) ∧
    (Armable s c r →
      (((s.cluster c).binds.find k).any Binding.v = true → Gives (.sbBind d a b) s 4 d 4) ∧
      (((s.cluster c).binds.find k).any Binding.v = false → 256 ≤ (s.cluster c).used → Gives (.sbBind d a b) s 4 d 1) ∧
      (((s.cluster c).binds.find k).any Binding.v = false → (s.cluster c).used < 256 → PlainRec s c r →
        (¬ TilesDone old x y (BitVec.ofNat 24 m) → ∃ t, exec (.sbBind d a b) s = .next t ∧ PassesWith s t d 0 ∧
          t = { s with threads := t.threads, clusters := t.clusters, mem := t.mem, memBad := t.memBad } ∧
          t.recState c r = 2 ∧
          (t.cluster c).binds.find k = some { mask := BitVec.ofNat 24 m, recIx := r, v := true } ∧
          (t.cluster c).used = (s.cluster c).used + 1 ∧ (t.cluster c).entering = (s.cluster c).entering ∧
          RecordBytes s t c r [0xC0]) ∧
        (TilesDone old x y (BitVec.ofNat 24 m) → ∃ t, exec (.sbBind d a b) s = .next t ∧ PassesWith s t d 0 ∧
          Entered s t c r 1 none ∧
          (t.cluster c).binds.find k = some { mask := BitVec.ofNat 24 m, recIx := r, v := false } ∧
          (t.cluster c).used = (s.cluster c).used + 1)))) ∧
  (∀ (s : State) (a : Reg) (v x y c : Nat), v = (s.rd a).toNat → v < 2 ^ 33 → v % 2 ^ 16 = 0 → Drained s →
    x = v / 2 ^ 16 % 2 ^ 6 → y = v / 2 ^ 22 % 2 ^ 6 → c = v / 2 ^ 28 →
    (s.die (c / 8)).part = s.partOf s.cur → 0x70000 + 8 * y ∉ (s.cluster c).poisoned →
    let new (i j : Nat) := ((s.cluster c).retired.get 0 j).getLsbD i || (decide (i = x) && decide (j = y))
    ((∀ b ∈ (s.cluster c).binds.cells, b.2.v = false) → ∃ t, exec (.sbRet a) s = .next t ∧ Passes s t ∧ ClusterOnly s t c ∧
      (∀ i < 64, ∀ j, ((t.cluster c).retired.get 0 j).getLsbD i = new i j) ∧
      t.cluster c = { s.cluster c with retired := (t.cluster c).retired }) ∧
    (∀ k b, (s.cluster c).binds.cells = [(k, b)] → b.v = true → PlainRec s c b.recIx →
      (TilesDone new (k % 64) (k / 64) b.mask → k < 4096 → s.stateBad c b.recIx = false →
        ∃ t, exec (.sbRet a) s = .next t ∧ Passes s t ∧ (t.cluster c).binds.cells = [(k, { b with v := false })] ∧
          Entered s t c b.recIx 1 none) ∧
      (¬ TilesDone new (k % 64) (k / 64) b.mask → ∃ t, exec (.sbRet a) s = .next t ∧ Passes s t ∧ ClusterOnly s t c ∧
        (t.cluster c).binds.cells = [(k, b)] ∧ (t.cluster c).entering = (s.cluster c).entering))) ∧
  (∀ (s : State) (who : Who) (c : Nat), c < 32 → MayStore s who (clusterReg c 0x18) →
    ((∀ b ∈ (s.cluster c).binds.cells, b.2.v = false) → ∃ t, exec (.sbctlClear who c) s = .next t ∧ t.threads = s.threads ∧
      t.mem = s.mem ∧ t.cluster c = { s.cluster c with retired := {} } ∧ ∀ k, k ≠ c → t.cluster k = s.cluster k) ∧
    ((∃ b ∈ (s.cluster c).binds.cells, b.2.v = true) → ∃ t, exec (.sbctlClear who c) s = .next t ∧ t.clusters = s.clusters))

/-- Futures, membership sets and the scoreboard: the statements above together. -/
def Obligations.FuturesSetsAndScoreboard : Prop :=
  Claim.FuturesAndSets ∧ Claim.ScoreboardReleases

/-- R234, R239, R260. -/
def Obligations.ClusterObjectsAreChecked : Prop :=
  (∀ c i, c < 32 →
    (i < 256 → objectAt .barrier (BitVec.ofNat 64 (0xF2 * 2 ^ 56 + c * 2 ^ 32 + 0x10000 + 0x20 * i)) = some (c, i)) ∧
    (i < 4096 → objectAt .cell (BitVec.ofNat 64 (0xF2 * 2 ^ 56 + c * 2 ^ 32 + 0x20000 + 0x10 * i)) = some (c, i)) ∧
    (i < 4096 → objectAt .join (BitVec.ofNat 64 (0xF2 * 2 ^ 56 + c * 2 ^ 32 + 0x40000 + 0x10 * i)) = some (c, i)) ∧
    (i < 256 → objectAt .set (BitVec.ofNat 64 (0xF2 * 2 ^ 56 + c * 2 ^ 32 + 0x60000 + 8 * i)) = some (c, i))) ∧
  (∀ (s : State) (d a b : Reg), TaskAlone s → s.rd b = 1 → ∀ p ∈ [(Instr.jsig d a b, ObjKind.join), (.jwait a b, .join),
      (.barArr d a, .barrier), (.barWait a b, .barrier), (.barT1 a b, .barrier), (.barSet a b, .barrier),
      (.barBytes a b, .barrier), (.barBind a b, .barrier), (.ldf d a, .cell), (.stf d a b, .cell), (.gjoin d a, .set),
      (.gleave d a, .set)],
    (objectAt p.2 (s.rd a) = none → Traps p.1 s 0x04 1 (s.rd a)) ∧
    (∀ c i, objectAt p.2 (s.rd a) = some (c, i) → (s.die (c / 8)).part ≠ s.partOf s.cur →
      Traps p.1 s 0x05 3 (s.rd a)) ∧
    (∀ c i, objectAt p.2 (s.rd a) = some (c, i) → (s.die (c / 8)).part = s.partOf s.cur →
      (s.rd a).toNat % 2 ^ 32 ∈ (s.cluster c).poisoned → Traps p.1 s 0x0D 0 (s.rd a)))

/-- R57, R208, R211–R224. -/
def Obligations.MatrixInstructionsEnterTheQueue : Prop :=
  (∀ (s : State) (L : BitVec 4) (p : Block) (x : Mma), x = mmaOf p → p.toNat < 2 ^ 112 →
    (pairDepth x.fa x.fb = none → TaskAlone s → Traps (.mma L p) s 0x0C 7 (s.me.pc + 4)) ∧
    (∀ d, pairDepth x.fa x.fb = some d →
      let l := mmaLimits s.me.gangSz s.me.gangIx d x
      (AllHold l → IssuesMatrix (.mma L p) s 20 0 L p 0 0) ∧
      (∀ before f after, l = before ++ f :: after → AllHold before → ¬ f.2 → TaskAlone s →
        Traps (.mma L p) s 0x0C (BitVec.ofNat 8 f.1) (s.me.pc + 4)))) ∧
  (∀ (s : State) (a : Reg) (L : BitVec 4) (p : Block) (x : Mepi), x = mepiOf p → p.toNat < 2 ^ 98 → x.act ≤ 5 →
    (x.add = true → x.fo = 0) → 1 ≤ x.m → x.m ≤ 128 → 32 * x.q + x.m ≤ 128 → 1 ≤ x.n → x.n ≤ 128 * s.me.gangSz →
    x.ldc % (fmtOf x.fo).size = 0 →
    (if x.be = true then x.bias % 4 = 0 ∧ x.bias + 4 * min 128 (x.n - 128 * s.me.gangIx) ≤ 0x60000 else x.bias = 0) →
    ((s.rd a).toNat % (fmtOf x.fo).size = 0 →
      IssuesMatrix (.mepi a L p) s 20 1 L p (s.rd a) (if s.me.rm = 4 ∧ x.fo ≠ 0 then 128 * x.m else 0)) ∧
    ((s.rd a).toNat % (fmtOf x.fo).size ≠ 0 → TaskAlone s → Traps (.mepi a L p) s 0x03 0 (s.rd a))) ∧
  (∀ (s : State) (a : Reg) (L : BitVec 4) (p : Block) (x : Mldb), x = mldbOf p → p.toNat < 2 ^ 59 → x.fmt ≠ 0 →
    x.fmt ≠ 7 → 1 ≤ x.k → x.k ≤ 8192 → (x.sc = true → x.k ≤ 2048) → 1 ≤ x.nc → x.nc ≤ 128 → x.b % 64 = 0 →
    x.ldb % 64 = 0 → ∀ h, h = 64 * ((x.k * (fmtOf x.fmt).size + 63) / 64) + (if x.sc = true then 64 else 0) →
    x.b + (x.nc + 63) / 64 * h ≤ 8192 → h ≤ x.ldb →
    ((s.rd a).toNat % 64 = 0 → space (s.rd a) ≤ 1 ∨ space (s.rd a) = 0xF0 →
      IssuesMatrix (.mldb a L p) s 20 2 L p (s.rd a) 0) ∧
    ((s.rd a).toNat % 64 ≠ 0 → TaskAlone s → Traps (.mldb a L p) s 0x03 0 (s.rd a))) ∧
  (∀ (s : State) (a b : Reg) (L : BitVec 4) (v o : Nat), v = (s.rd b).toNat → o = (s.rd a).toNat →
    (v < 16 → v % 4 + v / 4 < 4 →
      IssuesMatrix (.mzero b L) s 4 3 L (BitVec.ofNat 128 v) 0 0 ∧
      (o % 64 = 0 → o + 0x4000 * (v / 4 + 1) ≤ 0x60000 →
        IssuesMatrix (.msave a b L) s 4 4 L (BitVec.ofNat 128 v) (s.rd a) 0 ∧
        IssuesMatrix (.mrest a b L) s 4 5 L (BitVec.ofNat 128 v) (s.rd a) 0)) ∧
    (16 ≤ v ∨ 4 ≤ v % 4 + v / 4 → TaskAlone s →
      ∀ i ∈ [Instr.mzero b L, .msave a b L, .mrest a b L], Traps i s 0x01 4 (irWord s)) ∧
    (16 ≤ o → TaskAlone s → Traps (.mwait a) s 0x01 4 (irWord s)) ∧
    (o < 16 → ∀ n, n = ((s.core s.myCore).mq.filter (fun e => e.slot = s.cur % 4)).length +
        ((s.core s.myCore).recorded.filter (fun e => e.slot = s.cur % 4)).length →
      (n ≤ o → Jumps (.mwait a) s (s.me.pc + 4)) ∧
      (o < n → exec (.mwait a) s = .next { s with stalled := true })))

/-- R206–R209, R214, R215, R223, R128. -/
def Sys2Proof.Claim.MatrixEntriesStartAndComplete : Prop :=
  (∀ (s : State) (core : Nat) (e : MEntry) (rest : List MEntry), (s.core core).mq = e :: rest →
    e.op = 0 ∨ 3 ≤ e.op → (e.op = 0 → e.gang = 1 ∧ e.gangIx = 0) →
    (e.started = false → (s.die (dieOf core)).pwrState = 0 → ∃ t, exec (.matrixEntryStart core) s = .next t ∧ t = { s with cores := t.cores } ∧
      t.core core = { s.core core with mq := { e with started := true } :: rest } ∧
      ∀ k, k ≠ core → t.core k = s.core k) ∧
    (e.started = false → exec (.matrixEntryComplete core) s = .next s) ∧
    (e.started = true → s.mguarded (s.leadBlock core e) core e (mmaOf e.block).groups = true → exec (.matrixEntryComplete core) s = .next s) ∧
    (e.started = true → e.op ≤ 5 → s.mguarded (s.leadBlock core e) core e (mmaOf e.block).groups = false →
      (s.die (dieOf core)).pwrState = 0 → AllPinned (s.core core) → (s.core core).accBad = [] → (s.core core).scratchBad = [] →
      (s.core core).bstackBad = [] → (∀ q, e.op ≠ 0 → q = e.block.toNat → q < 16 ∧ q % 4 + q / 4 < 4) →
      (e.op ≠ 0 → e.a.toNat + 0x4000 * (e.block.toNat / 4 + 1) ≤ 0x60000) → e.reqs = [] →
      ∀ (x : Mma) (lo n : Nat), x = mmaOf e.block → lo = e.block.toNat % 4 → n = e.block.toNat / 4 + 1 →
      (e.op = 0 → 1 ≤ x.m ∧ 32 * x.q + x.m ≤ 128 ∧ 1 ≤ x.n ∧ x.n ≤ 128 ∧
        x.a + (x.m - 1) * x.lda + x.k * 8 ≤ 0x60000 ∧ (x.sc = true → x.as + 64 * x.m ≤ 0x60000)) →
      ∃ t, exec (.matrixEntryComplete core) s = .next t ∧ (t.core core).mq = rest ∧ t.mem = s.mem ∧
        (∀ k, k ≠ core → t.core k = s.core k) ∧
        (∀ f ∈ (t.thread (tidOf core e.slot)).flights, f.id ≠ e.flight) ∧
        (t.thread (tidOf core e.slot)).regs = (s.thread (tidOf core e.slot)).regs ∧
        (t.thread (tidOf core e.slot)).pc = (s.thread (tidOf core e.slot)).pc ∧
        let inside (w : Nat) := 0x4000 * lo ≤ w ∧ w < 0x4000 * (lo + n)
        let at_ (w : Nat) := e.a.toNat + (w - 0x4000 * lo)
        (3 ≤ e.op → (t.core core).bstack = (s.core core).bstack) ∧
        (e.op = 3 → (t.core core).scratch = (s.core core).scratch ∧ ∀ w, (inside w → (t.core core).acc.read w = 0) ∧
          (¬ inside w → (t.core core).acc.read w = (s.core core).acc.read w)) ∧
        (e.op = 4 → (t.core core).acc = (s.core core).acc ∧
          (∀ w, inside w → (t.core core).scratch.read (at_ w) = (s.core core).acc.read w) ∧
          ∀ w, w < e.a.toNat ∨ e.a.toNat + 0x4000 * n ≤ w →
            (t.core core).scratch.read w = (s.core core).scratch.read w) ∧
        (e.op = 5 → (t.core core).scratch = (s.core core).scratch ∧ ∀ w,
          (inside w → (t.core core).acc.read w = (s.core core).scratch.read (at_ w)) ∧
          (¬ inside w → (t.core core).acc.read w = (s.core core).acc.read w)) ∧
        (e.op = 0 → (t.core core).scratch = (s.core core).scratch ∧ (t.core core).bstack = (s.core core).bstack ∧
          ∀ i c, c < 128 →
            (32 * x.q ≤ i → i < 32 * x.q + x.m → c < x.n → (t.core core).acc.readNat (512 * i + 4 * c) 4 =
              (mmaElem x ((pairDepth x.fa x.fb).getD 1) (operandsOf (s.core core) (s.core core) x) e.rm.toNat e.tcm
                e.next ((x.k + (pairDepth x.fa x.fb).getD 1 - 1) / (pairDepth x.fa x.fb).getD 1 - e.next) (i - 32 * x.q) c
                (if x.zc = true ∧ e.next = 0 then 0 else (s.core core).acc.readNat (512 * i + 4 * c) 4)).1 % 2 ^ 32) ∧
            (i < 32 * x.q ∨ 32 * x.q + x.m ≤ i ∨ x.n ≤ c →
              (t.core core).acc.readNat (512 * i + 4 * c) 4 = (s.core core).acc.readNat (512 * i + 4 * c) 4)))) ∧
  (∀ (s : State) (core slot : Nat) (ep : Bool) (blk : Nat → Block) (dst : Nat → Word) (look : Nat → Nat),
    (s.thread (tidOf core slot)).gang = true → slot < 4 → 1 ≤ (s.thread (tidOf core slot)).gangSz →
    (∀ m ∈ s.gangOf (tidOf core slot), (s.thread m).waits = some (.rowJoin ep (blk m) (dst m) (look m))) →
    ∀ lead, lead = (s.gangOf (tidOf core slot)).headD 0 →
    let same := ∀ m ∈ s.gangOf (tidOf core slot), joinKey ep (blk m) = joinKey ep (blk lead) ∧
      (s.thread m).rm = (s.thread lead).rm ∧ (s.thread m).tcm = (s.thread lead).tcm
    (same → (∀ m ∈ s.gangOf (tidOf core slot), (s.core (coreOf m)).mq.length < 4) →
      ∃ t, exec (.gangRowBarrierJoin core slot) s = .next t ∧ ∀ m ∈ s.gangOf (tidOf core slot),
        (t.thread m).life = .ready ∧ (t.thread m).wait = none ∧ (t.thread m).pc = (s.thread m).pc + 20 ∧
        (t.thread m).gang = (s.thread m).gang ∧ ∃ e, (t.core (coreOf m)).mq = (s.core (coreOf m)).mq ++ [e] ∧
          e.block = blk m ∧ e.a = dst m ∧ e.op = (if ep then 1 else 0)) ∧
    (¬ same → (∀ m ∈ s.gangOf (tidOf core slot), (s.thread m).mode = false) →
      ∃ t, exec (.gangRowBarrierJoin core slot) s = .next t ∧ t.cores = s.cores ∧ ∀ m ∈ s.gangOf (tidOf core slot),
        (t.thread m).causeCode = 0x0C ∧ (t.thread m).causeSub = 0xFE ∧ (t.thread m).eval = (s.thread m).pc + 4 ∧
        (t.thread m).epc = (s.thread m).pc ∧ (t.thread m).mode = true ∧ (t.thread m).gang = false)) ∧
  (∀ (s : State) (core : Nat) (x : Core), x = s.core core →
    (∀ q, (h : q < 4) →
      (x.accFrames[q].ctx = some x.sctx → exec (.accRegionRefill core q) s = .next s) ∧
      (x.accFrames[q].ctx ≠ some x.sctx → x.accFrames[q].dirty = false →
        s.meetsWindow (x.sctxBase.toNat + 0x4000 * (24 + q)) 0x4000 = false → ∃ t, exec (.accRegionRefill core q) s = .next t ∧
        (∀ w, 0x4000 * q ≤ w → w < 0x4000 * (q + 1) →
          (t.core core).acc.read w = s.mem.read (x.sctxBase.toNat + 0x60000 + w)) ∧
        (∀ w, w < 0x4000 * q ∨ 0x4000 * (q + 1) ≤ w → (t.core core).acc.read w = x.acc.read w) ∧
        t.mem = s.mem ∧ t.threads = s.threads ∧ (t.core core).scratch = x.scratch ∧
        (t.core core).accFrames = x.accFrames.set q { ctx := some x.sctx, base := x.sctxBase, dirty := false })) ∧
    (∀ f, (h : f < 24) →
      (x.frames[f].ctx = some x.sctx → exec (.scratchFrameRefill core f) s = .next s) ∧
      (x.frames[f].ctx ≠ some x.sctx → x.frames[f].dirty = false →
        s.meetsWindow (x.sctxBase.toNat + 0x4000 * f) 0x4000 = false → ∃ t, exec (.scratchFrameRefill core f) s = .next t ∧
        (∀ w, 0x4000 * f ≤ w → w < 0x4000 * (f + 1) →
          (t.core core).scratch.read w = s.mem.read (x.sctxBase.toNat + w)) ∧
        (∀ w, w < 0x4000 * f ∨ 0x4000 * (f + 1) ≤ w → (t.core core).scratch.read w = x.scratch.read w) ∧
        t.mem = s.mem ∧ t.threads = s.threads ∧ (t.core core).acc = x.acc ∧
        (t.core core).frames = x.frames.set f { ctx := some x.sctx, base := x.sctxBase, dirty := false })))

/-- R218–R220, R222. -/
def Sys2Proof.Claim.MatrixStoresAndLoadsComplete : Prop :=
  ∀ (s : State) (core : Nat) (e : MEntry) (rest : List MEntry), (s.core core).mq = e :: rest → e.slot < 4 →
    e.started = true → e.reqs = [] → (s.die (dieOf core)).pwrState = 0 → AllPinned (s.core core) →
    (s.core core).accBad = [] → (s.core core).scratchBad = [] →
    let Ends (t : State) : Prop := exec (.matrixEntryComplete core) s = .next t ∧ (t.core core).mq = rest ∧
      t.mem = s.mem ∧ (∀ k, k ≠ core → t.core k = s.core k) ∧
      (∀ f ∈ (t.thread (tidOf core e.slot)).flights, f.id ≠ e.flight) ∧
      (t.thread (tidOf core e.slot)).regs = (s.thread (tidOf core e.slot)).regs
    (e.op = 2 → ∀ (x : Mldb) (h : Nat) (w : Nat → Nat → Nat → Byte), x = mldbOf e.block →
      h = 64 * ((x.k * (fmtOf x.fmt).size + 63) / 64) + (if x.sc = true then 64 else 0) →
      x.nc ≤ 128 → x.b + (x.nc + 63) / 64 * h ≤ 8192 → e.a.toNat % 64 = 0 → x.ldb % 64 = 0 →
      (∀ c o, c < x.nc → o < h / 8 → WordThere s core e.slot (e.a + BitVec.ofNat 64 (c * x.ldb + 8 * o)) (w c o)) →
      ∃ t, Ends t ∧ (t.core core).acc = (s.core core).acc ∧ (t.core core).scratch = (s.core core).scratch ∧
        (∀ c o j, c < x.nc → o < h / 8 → j < 8 →
          (t.core core).bstack.read (c % 64 * 8192 + x.b + c / 64 * h + 8 * o + j) = w c o j) ∧
        ∀ p, (∀ c, c < x.nc → p < c % 64 * 8192 + x.b + c / 64 * h ∨ c % 64 * 8192 + x.b + c / 64 * h + h ≤ p) →
          (t.core core).bstack.read p = (s.core core).bstack.read p) ∧
    (e.op = 1 → e.gang = 1 → e.gangIx = 0 → ∀ (x : Mepi) (off z : Nat), x = mepiOf e.block → z = (fmtOf x.fo).size →
      x.add = false → e.a.toNat = 0xF0 * 2 ^ 56 + off → off % z = 0 → x.ldc % z = 0 → (x.m = 1 ∨ x.n * z ≤ x.ldc) →
      1 ≤ x.m → 32 * x.q + x.m ≤ 128 → 1 ≤ x.n → x.n ≤ 128 → off + (x.m - 1) * x.ldc + x.n * z ≤ 0x60000 →
      (x.be = true → x.bias + 4 * x.n ≤ 0x60000) → (∀ o n, s.watched (some core) o n = false) →
      (s.die (dieOf core)).fenced = false →
      let row (i : Nat) : Prop := 16 * e.next ≤ i ∧ i < x.m
      let acc (i c : Nat) : Nat := (s.core core).acc.readNat (512 * (32 * x.q + i) + 4 * c) 4
      let bias (c : Nat) : Nat := if x.be = true then (s.core core).scratch.readNat (x.bias + 4 * c) 4 else 0
      ∃ t, Ends t ∧ (t.core core).bstack = (s.core core).bstack ∧
        (∀ i c, row i → c < x.n → (t.core core).scratch.readNat (off + i * x.ldc + c * z) z =
          (mepiElem x e i c (acc i c) (bias c)).1 % 2 ^ (8 * z)) ∧
        (∀ w, (∀ i, row i → w < off + i * x.ldc ∨ off + i * x.ldc + x.n * z ≤ w) →
          (t.core core).scratch.read w = (s.core core).scratch.read w) ∧
        ∀ i c, i < 128 → c < 128 → (t.core core).acc.readNat (512 * i + 4 * c) 4 =
          if x.za = true ∧ 32 * x.q + 16 * e.next ≤ i ∧ i < 32 * x.q + x.m ∧ c < x.n then 0
          else (s.core core).acc.readNat (512 * i + 4 * c) 4)

/-- The matrix queue: start, row barrier, refills, and what each completed entry leaves: the statements above together. -/
def Obligations.MatrixQueueRunsItsEntries : Prop :=
  Claim.MatrixEntriesStartAndComplete ∧ Claim.MatrixStoresAndLoadsComplete

/-- R15, R94, R95. -/
def Obligations.WindowBlocksSpillAndFill : Prop :=
  ∀ (s : State) (off : Nat) (x : Core), x = s.core s.myCore → s.me.mode = true → s.me.gang = false →
    (s.me.depth = 0 ∨ s.me.spilled = 0xFFFFFF → ∃ t, exec .wspill s = .next t ∧ t.me.life = .halted ∧
      t.me.haltCause = some { code := 0x01, sub := 4, eval := irWord s } ∧ t.me.regs = s.me.regs ∧ t.cores = s.cores) ∧
    (s.me.depth = 9 ∨ s.me.spilled = 0 → ∃ t, exec .wfill s = .next t ∧ t.me.life = .halted ∧
      t.me.haltCause = some { code := 0x01, sub := 4, eval := irWord s } ∧ t.me.regs = s.me.regs ∧ t.cores = s.cores) ∧
    (∀ b, 0 < s.me.depth → s.me.depth ≤ 9 → s.me.spilled < 0xFFFFFF → OwnBytes s s.me.wsp off 64 → off % 64 = 0 →
      b = (s.me.wb + 12 - s.me.depth) % 12 → ∃ t, exec .wspill s = .next t ∧
        (∀ i < 8, ∀ j < 8, (t.core s.myCore).scratch.read (off + 8 * i + j) = byteOf (s.me.readCode (8 * b + i)) j) ∧
        (∀ w, w < off ∨ off + 64 ≤ w → (t.core s.myCore).scratch.read w = x.scratch.read w) ∧
        (∀ c, c ≠ s.myCore → t.core c = s.core c) ∧ (∀ k, k ≠ s.cur → t.thread k = s.thread k) ∧
        t = { s with threads := t.threads, cores := t.cores } ∧
        t.me = { s.me with pc := s.me.pc + 4, wsp := s.me.wsp + 64, depth := s.me.depth - 1, spilled := s.me.spilled + 1 } ∧
        (s.me.wsp.toNat + 64 < 2 ^ 64 → ∃ u, exec .wfill t = .next u ∧ u.me.wsp = s.me.wsp ∧ u.me.depth = s.me.depth ∧
          u.me.spilled = s.me.spilled ∧ u.me.wb = s.me.wb ∧ ∀ k < 108, u.me.readCode k = s.me.readCode k)) ∧
    (∀ b, s.me.depth < 9 → 0 < s.me.spilled → OwnBytes s (s.me.wsp - 64) off 64 → off % 64 = 0 →
      b = (s.me.wb + 12 - s.me.depth - 1) % 12 → ∃ t, exec .wfill s = .next t ∧ OnlyMe s t ∧
        (∀ i < 8, t.me.readCode (8 * b + i) = BitVec.ofNat 64 (le x.scratch (off + 8 * i) 8)) ∧
        (∀ k, k < 8 * b ∨ 8 * b + 8 ≤ k → t.me.readCode k = s.me.readCode k) ∧
        t.me = { s.me with pc := s.me.pc + 4, wsp := s.me.wsp - 64, depth := s.me.depth + 1, spilled := s.me.spilled - 1
                           regs := t.me.regs, badRegs := t.me.badRegs })

/-- R118, R119, R316, R317. That an operation takes its effect at the delivery of its window is read from the order of R316
(DEDUCED, log 21). -/
def Obligations.SequentiallyConsistentOperations : Prop :=
  (∀ (s : State) (d a : Reg) (o : BitVec 8) (L : BitVec 4) (i : Instr) (n k : Nat) (va : Word),
    (i, n, k) ∈ [(Instr.ldScW d a o L, 4, 1), (.ldScD d a o L, 8, 1), (.stScW d a o L, 4, 2), (.stScD d a o L, 8, 2)] →
    va = s.rd a + BitVec.ofNat 64 n * o.signExtend 64 →
    ∀ tgt, s.resolve s.cur (if k = 1 then .scLoad else .scStore) va n = .ok tgt →
    (¬ Drained s → exec i s = .next { s with stalled := true }) ∧
    (Drained s → ∃ t op f, exec i s = .next t ∧
      t = { s with threads := t.threads, scOps := s.scOps ++ [op], nextId := s.nextId + 1 } ∧
      (∀ m, m ≠ s.cur → t.thread m = s.thread m) ∧ t.me = { s.me with pc := s.me.pc + 4, flights := [f] } ∧
      f.id = s.nextId ∧ f.kind = .sc ∧ f.left = (if L = 15 then none else some L.toNat) ∧
      op.flight = s.nextId ∧ op.tid = s.cur ∧ op.window = s.clock / 8 ∧ op.kind = k ∧ op.va = va ∧ op.n = n ∧
      (k = 1 → op.dest = s.me.code d ∧ f.dests = [s.me.code d]) ∧
      (k = 2 → op.data.length = n ∧ ∀ j, (h : j < op.data.length) → op.data[j] = byteOf (s.rd d) j))) ∧
  (∀ (s : State) (w : Nat),
    (s.clock < 8 * w + 31 → exec (.scWindowDelivery w) s = .next s) ∧
    (∀ o ∈ s.scOps, o.window < w → exec (.scWindowDelivery w) s = .next s) ∧
    (∀ (o : ScOp) (l : Leaf), s.scOps = [o] → o.window = w → 8 * w + 31 ≤ s.clock → s.cur = o.tid →
      (s.die s.myDie).rdcEpoch ≠ BitVec.allOnes 32 →
      let ends (t : State) : Prop := t.scOps = [] ∧ (∀ k, k ≠ s.cur → t.thread k = s.thread k) ∧
        t.me.flights = s.me.flights.filter (fun f => f.id ≠ o.flight) ∧ t.me.pc = s.me.pc ∧ t.cores = s.cores
      (o.kind = 0 → o.n < 4 → ∃ t, exec (.scWindowDelivery w) s = .next t ∧ ends t ∧ t.mem = s.mem ∧
        t.me.regs = s.me.regs) ∧
      (o.kind = 1 → 0 < o.n → s.resolve s.cur .scLoad o.va o.n = .ok (.mem l) → HomeServes s l o.n → s.reqs = [] →
        o.dest < 108 → o.dest ≠ 96 → ∃ t, exec (.scWindowDelivery w) s = .next t ∧ ends t ∧ t.mem = s.mem ∧
          t.me.readCode o.dest = loadedAs true o.n (le s.mem l.pa o.n) ∧
          ∀ k, k ≠ o.dest → t.me.readCode k = s.me.readCode k) ∧
      (o.kind = 2 → 0 < o.n → o.data.length = o.n → s.resolve s.cur .scStore o.va o.n = .ok (.mem l) →
        HomeServes s l o.n → s.reqs = [] → ∃ t, exec (.scWindowDelivery w) s = .next t ∧ ends t ∧ t.me.regs = s.me.regs ∧
          (∀ j, (h : j < o.data.length) → t.mem.read (l.pa + j) = o.data[j]) ∧
          ∀ x, x < l.pa ∨ l.pa + o.n ≤ x → t.mem.read x = s.mem.read x)))

/-- R19, R22–R24, R35, R43, R45, R456. -/
def Obligations.FaultsAreTakenAtBoundaries : Prop :=
  (∀ (s : State) (core slot tid : Nat) (x : Thread), tid = tidOf core slot → x = s.thread tid →
    (x.deferred = [] → exec (.deferredTrap core slot) s = .next s) ∧
    (∀ w, x.waits = some w → w.inFlight = true → exec (.deferredTrap core slot) s = .next s) ∧
    ((s.die (dieOf core)).pwrState ≠ 0 → exec (.deferredTrap core slot) s = .next s) ∧
    (∀ f, (s.die (dieOf core)).pwrState = 0 → x.life = .ready ∨ (∃ w, x.waits = some w ∧ w.inFlight = false) → x.mode = false → x.gang = false →
      f ∈ x.deferred → (∀ g ∈ x.deferred, f.order ≤ g.order ∧ (g.order = f.order → g = f)) →
      ∃ t, exec (.deferredTrap core slot) s = .next t ∧ t = { s with threads := t.threads, reqs := t.reqs } ∧
        (∀ k, k ≠ tid → t.thread k = s.thread k) ∧
        t.thread tid = { trapped x f.trap.code f.trap.sub f.trap.eval with
          fpc := f.fpc, causeDef := true, causeMult := decide (1 < x.deferred.length), deferred := [], abort := none })) ∧
  (∀ (s : State), s.me.life = .ready → s.me.skc ≠ 0 → (∀ f ∈ s.me.flights, f.left ≠ some 0) →
    (∀ bs, s.fetchInstr s.cur s.me.pc = .ok s bs → ∃ t, exec .suppressedInstruction s = .next t ∧
      t = { s with threads := t.threads, order := s.order + 1 } ∧ (∀ k, k ≠ s.cur → t.thread k = s.thread k) ∧
      t.me = { s.me with pc := s.me.pc + BitVec.ofNat 64 bs.length, skc := s.me.skc - 1, fetchBuf := []
                         flights := t.me.flights }) ∧
    (∀ u e, s.fetchInstr s.cur s.me.pc = .err u e → u.thread u.cur = s.me → u.cur = s.cur → TaskAlone s →
      ∃ t, exec .suppressedInstruction s = .next t ∧ t.me = { trapped s.me e.code e.sub e.eval with fetchBuf := [] } ∧ t.me.pskc = s.me.skc)) ∧
  (∀ (s : State) (n : Nat) (w : BitVec 32), TaskAlone s →
    Traps (.undefinedEncoding n w) s 0x01 (BitVec.ofNat 8 n) (w.zeroExtend 64))

/-- R101, R102, R24, R131, R315. -/
def Obligations.AccessesArePerformedAndAnswered : Prop :=
  (∀ (s : State) (r : Request) (l : Leaf), s.reqs = [r] → r.tid = s.cur → r.resp = none → r.sent = false →
    r.parts = {} → r.tgts = [.mem l] → l.mode = 0 → 0 < r.n → r.remoteScratch = false →
    let answer (x : Resp) (t : State) : Prop := exec (.homeAccess r.id) s = .next t ∧ t.threads = s.threads ∧
      t.cores = s.cores ∧ ∃ q, t.reqs = [q] ∧ q.id = r.id ∧ q.tid = r.tid ∧ q.dests = r.dests ∧ q.resp = some x
    exec (.remoteScratchAccess r.id) s = .next s ∧
    (∀ sg, r.op = .load sg → HomeServes s l r.n → ∃ t, answer (.data (s.mem.readBytes l.pa r.n)) t ∧ t.mem = s.mem) ∧
    (∀ bs, r.op = .store bs → bs.length = r.n → HomeServes s l r.n → ∃ t, answer .done t ∧
      (∀ j, (h : j < bs.length) → t.mem.read (l.pa + j) = bs[j]) ∧
      ∀ x, x < l.pa ∨ l.pa + r.n ≤ x → t.mem.read x = s.mem.read x) ∧
    (∀ q bs, r.op = .store bs → bs.length = r.n → homeDie l.pa = some s.myDie → s.dead s.myDie = false →
      s.watched none l.pa r.n = false → s.owner s.myDie = some q → q ≠ l.key →
      (∀ f < 5, (h : f < 5) → s.pkg.rings[f].log2 = 0) →
      ∃ t, answer (.err { code := 0x05, sub := 3, eval := r.va }) t ∧ t.mem = s.mem)) ∧
  (∀ (s : State) (r : Request) (c off : Nat) (sg : Bool), s.reqs = [r] → r.tid = s.cur → r.resp = none →
    r.sent = false → r.parts = {} → r.tgts = [.scratch c off] → r.op = .load sg → 0 < r.n → r.remoteScratch = true →
    c ≠ s.myCore → s.watched (some c) off r.n = false → (s.die (dieOf c)).pwrState = 0 →
    (s.die (dieOf c)).fenced = false → (s.core c).iso = false → (∀ f, (s.core c).pinned f = true) →
    exec (.homeAccess r.id) s = .next s ∧
    ((s.core c).windowAccepts (.thread r.tid) .load off r.n = true →
      (∀ w ∈ (s.core c).scratchBad, w + 8 ≤ off ∨ off + r.n ≤ w) →
      ∃ t q, exec (.remoteScratchAccess r.id) s = .next t ∧ t = { s with reqs := [q] } ∧ q.id = r.id ∧
        q.resp = some (.data ((s.core c).scratch.readBytes off r.n))) ∧
    ((s.core c).windowAccepts (.thread r.tid) .load off r.n = false →
      ∃ t q, exec (.remoteScratchAccess r.id) s = .next t ∧ t.reqs = [q] ∧ t.threads = s.threads ∧ t.cores = s.cores ∧
        q.resp = some (.err { code := 0x09, eval := r.va }))) ∧
  (∀ (s : State) (r : Request) (id : Nat) (x : Thread), s.req id = some r → x = s.thread r.tid →
    let gone (t : State) : Prop := t = { s with threads := t.threads, reqs := s.reqs.filter (fun q => q.id ≠ id) } ∧
      ∀ k, k ≠ r.tid → t.thread k = s.thread k
    (∀ bs sg d, r.resp = some (.data bs) → r.op = .load sg → r.engine = false → r.dests = [d] → d < 108 → d ≠ 96 →
      bs.length = r.n → 0 < r.n → r.n ≤ 8 → ∃ t, exec (.loadDataReturn id) s = .next t ∧ gone t ∧
        (t.thread r.tid).readCode d = loadedAs sg r.n (bs.map BitVec.toNat |>.zipIdx.map (fun p => p.1 * 256 ^ p.2)).sum ∧
        (∀ k, k ≠ d → (t.thread r.tid).readCode k = x.readCode k) ∧
        t.thread r.tid = { x with flights := x.flights.filter (fun f => f.id ≠ id)
                                  regs := (t.thread r.tid).regs, badRegs := (t.thread r.tid).badRegs }) ∧
    (r.resp = some .done → (∃ u ∈ x.unacked, u.1 = id) → r.id = id → ∃ t, exec (.storeAcknowledgement id) s = .next t ∧
      gone t ∧ t.thread r.tid = { x with unacked := x.unacked.filter (fun u => u.1 ≠ id)
                                         flights := x.flights.filter (fun f => f.id ≠ id) }) ∧
    (∀ e l, r.resp = some (.err e) → r.id = id → r.op.writes = true → r.tgts = [.far l] → 0 < r.n →
      (∃ u ∈ x.unacked, u.1 = id) → ∃ t, exec (.errorResponse id) s = .next t ∧
        (t.die (dieOf (coreOf r.tid))).rdc.find (rdcKey l) = none ∧ t.reqs = s.reqs.filter (fun q => q.id ≠ id)) ∧
    (∀ e, r.resp = some (.err e) → r.id = id → (r.op.writes = true → ∀ t ∈ r.tgts, t.isFar = false) →
      ((∃ u ∈ x.unacked, u.1 = id) → ∃ t, exec (.errorResponse id) s = .next t ∧ gone t ∧
        t.thread r.tid = { x with unacked := x.unacked.filter (fun u => u.1 ≠ id)
                                  flights := x.flights.filter (fun f => f.id ≠ id)
                                  deferred := x.deferred ++ [{ trap := e, fpc := r.pc, order := r.order
                                                               handler := x.unacked.any (fun u => u.1 = id && u.2) }] }) ∧
      (∀ f, (∀ u ∈ x.unacked, u.1 ≠ id) → r.engine = false → x.flight id = some f →
        (f.later = true ∨ (x.mode = true ∧ f.handler = false) → ∃ t, exec (.errorResponse id) s = .next t ∧ gone t ∧
          t.thread r.tid = { x with flights := x.flights.filter (fun f => f.id ≠ id)
                                    deferred := x.deferred ++ [{ trap := e, fpc := f.pc, order := f.order, handler := f.handler }] }) ∧
        (f.later = false → x.mode = false → x.gang = false → ∃ t, exec (.errorResponse id) s = .next t ∧
          (∀ k, k ≠ r.tid → t.thread k = s.thread k) ∧
          t.thread r.tid = { trapped x e.code e.sub e.eval with
            epc := f.pc, fpc := f.pc, flights := x.flights.filter (fun f => f.id ≠ id) }))))

/-- R324–R337, R339. That Nb(7) is taken before the distances of a boundary is deduced (DEDUCED, log 48). -/
def Sys2Proof.Claim.TasksRouteAndForward : Prop :=
  (∀ (s : State) (c : Nat) (k : Task) (rest : List Task) (x : Cluster), x = s.cluster c → x.entering = k :: rest →
    (s.clock < k.since + 4 → (∀ t ∈ rest, s.clock < t.since + 4) → exec (.routingDecision c) s = .next s) ∧
    (k.since + 4 ≤ s.clock → (s.die (c / 8)).pwrState = 0 → k.pri < 4 → k.visitor = none →
      let pl := min 0xFFFE (x.queuedCost + (x.now s.clock).pbias)
      let key (p : Nat) : Nat := (s.portPub c p).2.1 + x.portCost p
      let best (p : Nat) : Prop := p < 8 ∧ s.portLive c p = true ∧
        ∀ q < 8, s.portLive c q = true → key p < key q ∨ key p = key q ∧ p ≤ q
      let good (p : Nat) : Prop := (s.portPub c p).2.1 < x.pubD ∧ (s.portPub c p).2.2.2 = false ∧
        (s.portPub c p).1 + s.pull c k p + x.hystEff < pl ∧ (p = 7 → s.mayCross c k = true)
      ((s.recWord c k.recIx 0xE0).toNat % 32 = 0 ∨ pl < x.tstayEff ∨ (∀ p < 8, s.portLive c p = false) ∨
          (∃ p, best p ∧ ¬ good p) →
        ∃ t, exec (.routingDecision c) s = .next t ∧ t = { s with clusters := t.clusters } ∧
          (∀ e, e ≠ c → t.cluster e = s.cluster e) ∧
          t.cluster c = { x with entering := rest, queues := (t.cluster c).queues, ranAt := some s.clock } ∧
          ∀ p, (h : p < 4) → (t.cluster c).queues[p] =
            if p = k.pri then x.queues[p] ++ [{ k with since := s.clock }] else x.queues[p]) ∧
      (∀ p n, best p → good p → (s.recWord c k.recIx 0xE0).toNat % 32 ≠ 0 → x.tstayEff ≤ pl → PlainRec s c k.recIx →
        (p < 7 → neighbour c p = some n) →
        (p = 7 → ∃ i e, x.nb7 = some (i, e) ∧ n = 32 + 8 * (s.die (c / 8)).part + i) →
        ∃ t f, exec (.routingDecision c) s = .next t ∧ t.forwards = s.forwards ++ [f] ∧ f.id = s.nextId ∧ f.src = c ∧
          f.dst = n ∧ f.stage = 0 ∧ f.task = { k with since := s.clock } ∧ (t.cluster c).entering = rest ∧
          (t.cluster c).queues = x.queues ∧
          (t.recWord c k.recIx 0xE0).toNat % 32 = (s.recWord c k.recIx 0xE0).toNat % 32 - 1 ∧
          RecordBytes s t c k.recIx [0xE0])) ∧
    (x.published = true → ∀ p n, p < 7 → neighbour c p = some n → (s.cluster n).published = true → s.portPub c p =
      ((s.cluster n).pubP, (s.cluster n).pubD, (s.cluster n).pubDloc, (s.cluster n).pubFull)) ∧
    ∀ i e, x.nb7 = some (i, e) → s.portPub c 7 = (e.ap, e.ad, 255, false)) ∧
  (∀ (s : State) (f : Forward), s.forwards = [f] → f.src < 32 → f.dst < 32 →
    let back := ∃ p < 7, neighbour f.dst p = some f.src ∧ s.portLive f.dst p = true ∧
      ∀ q < p, neighbour f.dst q ≠ some f.src
    let open_ := s.infinite f.dst = false ∧ (s.cluster f.dst).used < 256 ∧ back ∧
      (s.die (f.src / 8)).part = (s.die (f.dst / 8)).part
    (f.stage = 0 → (s.die (f.dst / 8)).pwrState = 0 → open_ → f.task.contOf = none → ∃ t, exec (.forwardArrival f.id) s = .next t ∧
      t = { s with clusters := t.clusters, forwards := [{ f with stage := 1 }] } ∧
      (∀ e, e ≠ f.dst → t.cluster e = s.cluster e) ∧
      t.cluster f.dst = { s.cluster f.dst with
        used := (s.cluster f.dst).used + 1, gcntIn := min ((s.cluster f.dst).gcntIn + 1) 0xFFFFFFFF
        entering := (s.cluster f.dst).entering ++ [{ f.task with since := s.clock }] }) ∧
    (f.stage = 0 → (s.die (f.dst / 8)).pwrState = 0 → ¬ open_ → exec (.forwardArrival f.id) s = .next { s with forwards := [{ f with stage := 2 }] }) ∧
    (f.stage = 1 → f.task.contOf = none → ∃ t, exec (.forwardAcceptance f.id) s = .next t ∧
      t = { s with clusters := t.clusters, forwards := [] } ∧ (∀ e, e ≠ f.src → t.cluster e = s.cluster e) ∧
      t.cluster f.src = { s.cluster f.src with
        used := (s.cluster f.src).used - 1, gcntOut := min ((s.cluster f.src).gcntOut + 1) 0xFFFFFFFF }) ∧
    (f.stage = 2 → ∃ t, exec (.forwardRefusal f.id) s = .next t ∧ t = { s with clusters := t.clusters, forwards := [] } ∧
      (∀ e, e ≠ f.src → t.cluster e = s.cluster e) ∧
      t.cluster f.src = { s.cluster f.src with
        entering := (s.cluster f.src).entering ++ [{ f.task with since := (s.clock / 64 + 1) * 64 }] })) ∧
  (∀ (s : State) (c l : Nat) (x : Cluster), x = s.cluster c →
    (3 ≤ l → ∃ t, exec (.taskAging c l) s = .next t ∧ t.cluster c = x) ∧
    ((s.die (c / 8)).pwrState = 0 → ∀ h : l < 3, ∃ t, exec (.taskAging c l) s = .next t ∧ t = { s with clusters := t.clusters } ∧
      t.cluster c = { x with queues := (t.cluster c).queues } ∧ ∀ p, (hp : p < 4) → (t.cluster c).queues[p] =
        if p = l then x.queues[p].filter (fun k => s.clock < k.since + 65536)
        else if p = l + 1 then x.queues[p] ++ (x.queues[l].filter (fun k => k.since + 65536 ≤ s.clock)).map
          (fun k => { k with since := s.clock })
        else x.queues[p])) ∧
  (∀ (s : State),
    (s.clock < 64 * s.epoch → exec .epochBoundary s = .next s) ∧
    (64 * s.epoch ≤ s.clock → ∃ t, exec .epochBoundary s = .next t ∧
      t = { s with epoch := s.epoch + 1, clusters := t.clusters } ∧
      ∀ c < 32, ∀ x, x = s.cluster c → ∀ y, y = t.cluster c →
        ∀ r, r = (if x.setAt < 64 * s.epoch then x.set else x.was) →
        y.hystEff = r.hyst ∧ y.tstayEff = r.tstay ∧ y.tlowEff = r.tlow ∧ y.gcostEff = r.gcost ∧ y.penEff = r.pen ∧
        y.published = true ∧ y.nb7 = (if r.pen = true then s.gatewayBest (s.die (c / 8)).part else none) ∧
        y.queues = x.queues ∧ y.entering = x.entering ∧ y.used = x.used ∧ y.pubFull = decide (x.used = 256) ∧
        ((x.now s.clock).fen = true → y.pubP = 0xFFFF ∧ y.pubD = 255 ∧ y.pubDloc = 255) ∧
        ((x.now s.clock).fen = false → x.stopped = false → (s.die (c / 8)).fenced = false →
          y.pubP = min 0xFFFE (x.queuedCost + (x.now s.clock).pbias) ∧
          (y.pubP < r.tlow → y.pubD = 0 ∧ y.pubDloc = 0))))

/-- R342–R344. The layout of the ADV payload is the model's choice (DESIGN CHOICE, log 6); that the fabric's response time of a
visitor is FTO from the time its record left is deduced (DEDUCED, log 32). -/
def Sys2Proof.Claim.VisitorsAndAdverts : Prop :=
  (∀ (s : State),
    (s.clock < s.fab.advAt + 1024 → exec .gradientAdvertSend s = .next s) ∧
    (s.fab.advAt + 1024 ≤ s.clock → ∃ t, exec .gradientAdvertSend s = .next t ∧ t.fab.advAt = s.clock ∧
      (∀ q c, (h : q < 4) → s.advertised q = some c → t.fab.advCluster[q] = c) ∧ t.threads = s.threads ∧ t.cores = s.cores ∧
      t.clusters = s.clusters ∧ t.dies = s.dies ∧ t.mem = s.mem ∧ t.clock = s.clock) ∧
    (s.fab.advAt + 1024 ≤ s.clock → (∀ i, (h : i < 32) → s.pkg.peers[i].en = false) →
      ∃ t, exec .gradientAdvertSend s = .next t ∧ t.fab.advAt = s.clock ∧ t.wire = s.wire ∧ t = { s with fab := t.fab }) ∧
    (∀ (i c p k : Nat) (l : List (Nat × Nat)), s.fab.advAt + 1024 ≤ s.clock →
      (∀ j, (h : j < 32) → (s.pkg.peers[j].en = true ↔ j = i)) → s.advertised (i / 8) = some c → c < 32 →
      ∀ x, (∀ h : i < 32, x = s.pkg.peers[i].peer.toNat) → (s.paths (i / 8) x).1 = (p, k) :: l → i < 32 →
      ∃ t f, exec .gradientAdvertSend s = .next t ∧ t.wire = s.wire ++ [f] ∧ f.typ = 0x15 ∧ f.dst = x ∧
        f.src = s.pkg.peer.toNat ∧ f.qs = i / 8 ∧ f.port = p ∧ f.wave = k ∧
        f.payload = leBytes 1 c ++ leBytes 1 (s.cluster c).pubDloc ++ leBytes 2 (s.cluster c).pubP)) ∧
  (∀ (s : State) (q e : Nat) (h : 8 * q + e < 32), let x := s.pkg.peers[8 * q + e]
    (s.clock < x.at_ + 8192 → exec (.advertTimeout q e) s = .next s) ∧
    (x.at_ + 8192 ≤ s.clock → ∃ t, exec (.advertTimeout q e) s = .next t ∧
      t = { s with pkg := { s.pkg with
        peers := s.pkg.peers.set (8 * q + e) { x with live := false, ad := 0xFF, ap := 0xFFFF } } })) ∧
  (∀ (s : State) (f : Flit) (e : Nat) (h : 8 * f.qd + e < 32), e < 8 → f.crcOk = true → f.tagOk = true →
    f.dst = s.pkg.peer.toNat → s.pairOf f.qd f.src = some f.qs → s.pkg.peers[8 * f.qd + e].en = true →
    s.pkg.peers[8 * f.qd + e].peer.toNat = f.src → s.fab.en = true → listedType f.typ = true → f.payload.length = 4 →
    ∃ t, exec (.adv f) s = .next t ∧ ∃ y, y = (t.pkg.peers[8 * f.qd + e]) ∧ y.live = true ∧ y.at_ = s.clock ∧
      y.ad = ((f.payload[1]?).getD 0).toNat ∧
      y.ap = ((f.payload[2]?).getD 0).toNat + 256 * ((f.payload[3]?).getD 0).toNat ∧ t.threads = s.threads) ∧
  (∀ (s : State) (f : Forward), s.forwards = [f] → 32 ≤ f.dst → f.stage = 0 →
    (s.clock < f.task.since + 2400 * s.fab.fto → exec (.visitorOutcomeUnknown f.id) s = .next s) ∧
    (f.task.since + 2400 * s.fab.fto ≤ s.clock → ∃ t, exec (.visitorOutcomeUnknown f.id) s = .next t ∧ t.forwards = [{ f with stage := 3 }] ∧
      t.clusters = s.clusters ∧ t.threads = s.threads ∧ ∀ h : f.dst - 32 < 32, ∀ u,
        u = s.postEvent none 0x08 (BitVec.ofNat 64 f.task.recIx) (s.pkg.peers[f.dst - 32].peer.zeroExtend 64) →
        (t.mem, t.pkg) = (u.mem, u.pkg))) ∧
  (∀ (s : State) (q c r st : Nat) (va : Word), c < 32 → s.owner (c / 8) = some q → r < (s.cluster c).lrCount →
    (∀ e < c, s.owner (e / 8) = some q → (s.cluster e).lrCount ≤ r) → PlainRec s c r →
    (s.stateBad c r = true → ∃ t, exec (.visitorStateChange ⟨q, r⟩ st va false) s = .next t ∧ t = s) ∧ (s.stateBad c r = false →
    st < 8 → (∃ t, exec (.visitorStateChange ⟨q, r⟩ st va false) s = .next t ∧
      t = { s with mem := t.mem, memBad := t.memBad } ∧
      (t.recWord c r 0xC0).toNat % 8 = st ∧ RecordBytes s t c r [0xC0]) ∧
    (∀ e i, objectAt .join va = some (e, i) → s.owner (e / 8) = some q → 1 < (s.join e i).count → ∃ t,
      exec (.visitorStateChange ⟨q, r⟩ st va true) s = .next t ∧ (t.recWord c r 0xC0).toNat % 8 = st ∧
      t.join e i = { s.join e i with count := (s.join e i).count - 1 } ∧ t.threads = s.threads)))

/-- Routing, forwarding, aging, adverts and visitors: the statements above together. -/
def Obligations.TasksRouteForwardAndAdvertise : Prop :=
  Claim.TasksRouteAndForward ∧ Claim.VisitorsAndAdverts

/-- R29, R232, R237, R238, R338. -/
def Obligations.TasksDispatchOntoSlots : Prop :=
  (∀ (s : State) (c : Nat), s.infinite c = true ∨ (s.die (c / 8)).pwrState ≠ 0 ∨ (s.cluster c).ranAt = some s.clock → exec (.dispatch c) s = .next s) ∧
  (∀ (s : State) (c core slot l : Nat) (k : Task) (rest : List Task), s.infinite c = false →
    (s.die (c / 8)).pwrState = 0 → (s.cluster c).ranAt ≠ some s.clock → s.chooseSlot c = some (core, slot) → (h : l < 4) → (s.cluster c).queues[l] = k :: rest →
    (∀ p, (hp : p < 4) → l < p → (s.cluster c).queues[p] = []) →
    ∃ t, exec (.dispatch c) s = .next t ∧ t = { s with threads := t.threads, clusters := t.clusters } ∧
      t.cluster c = { s.cluster c with queues := (s.cluster c).queues.set l rest, ranAt := some s.clock } ∧
      t.thread (tidOf core slot) = { s.thread (tidOf core slot) with life := .reserved, dispatching := some k } ∧
      ∀ m, m ≠ tidOf core slot → t.thread m = s.thread m) ∧
  (∀ (s : State) (c core slot : Nat), s.chooseSlot c = some (core, slot) → core / 32 = c ∧ slot < 4 ∧
    (s.thread (tidOf core slot)).life = .free ∧ (s.core core).iso = false) ∧
  (∀ (s : State) (core slot tid c : Nat) (k : Task), tid = tidOf core slot → slot < 4 → c = core / 32 →
    (s.thread tid).dispatching = some k → k.visitor = none → k.contOf = none → s.recordDead c k = false → PlainRec s c k.recIx →
    (s.die (core / 256)).rdcEpoch ≠ BitVec.allOnes 32 →
    ∃ t, exec (.dispatchComplete core slot) s = .next t ∧ (∀ m, m ≠ tid → t.thread m = s.thread m) ∧
      (t.cluster c).used = (s.cluster c).used - 1 ∧ (t.recWord c k.recIx 0xC0).toNat % 8 = 3 ∧
      RecordBytes s t c k.recIx [0xC0] ∧ ∀ (x : Thread) (w : Nat → Word), x = t.thread tid →
      (∀ o, w o = s.recWord c k.recIx o) →
      x.life = .ready ∧ x.pc = w 0 &&& ~~~1 ∧ x.hvec = w 8 &&& ~~~1 ∧ x.wsp = w 0x10 &&& ~~~63 ∧ x.seed = w 0x18 ∧
      x.taskix = w 0x20 ∧ x.joina = w 0x28 ∧ x.recIx = k.recIx ∧ x.mode = false ∧ x.skc = 0 ∧ x.wb = 0 ∧ x.depth = 0 ∧
      x.spilled = 0 ∧ x.gang = false ∧ x.inl = false ∧ (∀ i < 8, x.readCode i = w (0x40 + 8 * i)) ∧
      ∀ i, 8 ≤ i → x.readCode i = 0) ∧
  (∀ (s : State) (who : Who) (c : Nat) (v : Word) (r : Nat), c < 32 → r = v.toNat % 2 ^ 16 →
    MayStore s who (clusterReg c 0x28) → whoIsThread who = false → PlainRec s c r →
    (Armable s c r → (s.cluster c).used < 256 → ∃ t, exec (.rootlArm who c v) s = .next t ∧ Entered s t c r 1 none ∧
      (t.cluster c).used = (s.cluster c).used + 1 ∧ (t.cluster c).hcst = 0 ∧ t.threads = s.threads) ∧
    (¬ Armable s c r → ∃ t, exec (.rootlArm who c v) s = .next t ∧ (t.cluster c).hcst ≠ 0 ∧ t.threads = s.threads ∧
      t.mem = s.mem ∧ (t.cluster c).used = (s.cluster c).used) ∧
    (∀ core slot, core = 32 * c + v.toNat / 2 ^ 16 % 32 → slot = v.toNat / 2 ^ 26 % 4 → Armable s c r →
      (s.infinite c = false → s.eligible core slot = true → (s.die (core / 256)).rdcEpoch ≠ BitVec.allOnes 32 →
        ∃ t, exec (.rootlPlace who c v) s = .next t ∧ (t.thread (tidOf core slot)).life = .ready ∧
          (t.thread (tidOf core slot)).pc = s.recWord c r 0 &&& ~~~1 ∧ (t.thread (tidOf core slot)).recIx = r ∧
          (t.recWord c r 0xC0).toNat % 8 = 3 ∧ (t.cluster c).hcst = 0 ∧
          ∀ m, m ≠ tidOf core slot → t.thread m = s.thread m) ∧
      (s.eligible core slot = false → ∃ t, exec (.rootlPlace who c v) s = .next t ∧ (t.cluster c).hcst = 6 ∧
        t.threads = s.threads ∧ t.mem = s.mem))) ∧
  (∀ (s : State) (who : Who) (c core slot : Nat) (v : Word), c < 32 → MayStore s who (clusterReg c 0x30) →
    whoIsThread who = false → core = 32 * c + v.toNat / 2 ^ 16 % 32 → slot = v.toNat / 2 ^ 26 % 4 →
    v.toNat / 2 ^ 32 % 4 = 1 →
    ((s.thread (tidOf core slot)).life = .halted → ∃ t, exec (.slotcmdFree who c v) s = .next t ∧
      (t.thread (tidOf core slot)).life = .free ∧ (t.thread (tidOf core slot)).flights = [] ∧
      (t.thread (tidOf core slot)).unacked = [] ∧ (∀ r ∈ t.reqs, r.tid = tidOf core slot → r.engine = true) ∧ t.mem = s.mem ∧
      (∀ v ∈ (t.core core).vq, v.slot ≠ slot) ∧ (t.cluster c).hcst = 0 ∧
      ∀ m, m ≠ tidOf core slot → t.thread m = s.thread m) ∧
    ((s.thread (tidOf core slot)).life = .ready → (s.core core).iso = false → ∃ t,
      exec (.slotcmdFree who c v) s = .next t ∧ (t.cluster c).hcst = 7 ∧ t.threads = s.threads)) ∧
  (∀ (s : State) (core slot c : Nat) (v : Word), c < 32 →
    s.foreign (tidOf core slot) (clusterReg c 0x28) = false →
    ∃ t, exec (.rootlArm (.thread core slot) c v) s = .next t ∧ t.clusters = s.clusters ∧
      (t.thread (tidOf core slot)).deferred = (s.thread (tidOf core slot)).deferred ++
        [{ trap := { code := 0x05, sub := 1, eval := clusterReg c 0x28 }, fpc := (s.thread (tidOf core slot)).pc
           order := s.order, handler := (s.thread (tidOf core slot)).mode }])

/-- R408–R411, R421, R424, R425. EVAL of an add to a peer without a route is the model's choice (DESIGN CHOICE, log 37). -/
def Obligations.CountersAddWaitAndRead : Prop :=
  (∀ (s : State) (d a b : Reg) (v c peer : Nat) (has : Bool), v = (s.rd a).toNat → c = v % 2 ^ 12 → peer = v / 2 ^ 52 →
    has = (s.trg.range (s.partOf s.cur)).hasCounter c →
    (v / 2 ^ 14 % 2 ^ 38 ≠ 0 → TaskAlone s → Traps (.ctrAdd d a b) s 0x01 4 (irWord s)) ∧
    (2 ^ 14 ≤ v → v / 2 ^ 13 % 2 = 0 → TaskAlone s → Traps (.ctrAdd d a b) s 0x01 4 (irWord s)) ∧
    (v < 2 ^ 13 → has = false → TaskAlone s → Traps (.ctrAdd d a b) s 0x05 3 (counterAddr c)) ∧
    (v < 2 ^ 13 → has = true → ¬ Drained s → exec (.ctrAdd d a b) s = .next { s with stalled := true }) ∧
    (v < 2 ^ 13 → has = true → Drained s → CountersIdle s →
      ∃ t, exec (.ctrAdd d a b) s = .next t ∧ PassesWith s t d (s.counter c).value ∧
        SetsCounter s t c (if 2 ^ 12 ≤ v then { s.counter c with value := s.rd b } else added (s.counter c) (s.rd b))) ∧
    (v / 2 ^ 14 % 2 ^ 38 = 0 → v / 2 ^ 13 % 2 = 1 →
      (v / 2 ^ 12 % 2 = 1 ∨ peer = s.pkg.peer.toNat → TaskAlone s → Traps (.ctrAdd d a b) s 0x01 4 (irWord s)) ∧
      (v / 2 ^ 12 % 2 = 0 → peer ≠ s.pkg.peer.toNat → Drained s →
        (s.hasRoute (s.partOf s.cur) peer = false → TaskAlone s →
          Traps (.ctrAdd d a b) s 0x10 5 (BitVec.ofNat 64 (peer * 2 ^ 52 + c * 2 ^ 40))) ∧
        (s.hasRoute (s.partOf s.cur) peer = true → ∃ t o, exec (.ctrAdd d a b) s = .next t ∧ Writes s.me t.me d 0 ∧
          (∀ k, k ≠ s.cur → t.thread k = s.thread k) ∧
          t.me = { s.me with pc := s.me.pc + 4, unacked := [(s.nextId, s.me.mode)]
                             regs := t.me.regs, badRegs := t.me.badRegs } ∧
          t.fab = { s.fab with ops := s.fab.ops ++ [o] } ∧ o.owner = .store s.cur s.nextId ∧ o.peer = peer ∧
          o.part = s.partOf s.cur ∧ o.flits = [trgFlit 0 c (leBytes 8 (s.rd b).toNat)] ∧ o.count = 1 ∧ t.trg = s.trg)))) ∧
  (∀ (s : State) (d a b : Reg) (c : Nat) (x : Counter), c = (s.rd a).toNat → x = s.counter c →
    (2 ^ 12 ≤ c → TaskAlone s → Traps (.ctrWait d a b) s 0x01 4 (irWord s)) ∧
    (c < 2 ^ 12 → (s.trg.range (s.partOf s.cur)).hasCounter c = false → TaskAlone s →
      Traps (.ctrWait d a b) s 0x05 3 (counterAddr c)) ∧
    (c < 2 ^ 12 → (s.trg.range (s.partOf s.cur)).hasCounter c = true →
      ((s.rd b).toNat ≤ x.value.toNat ∨ x.err = true ∨ x.cfail = true →
        (s.die s.myDie).rdcEpoch ≠ BitVec.allOnes 32 → AcquiresWith (.ctrWait d a b) s d x.value) ∧
      (x.value.toNat < (s.rd b).toNat → x.err = false → x.cfail = false →
        Parks (.ctrWait d a b) s (.ctrWait c (s.rd b) (s.me.code d))))) ∧
  (∀ (s : State) (d a : Reg) (v c : Nat) (x : Counter), v = (s.rd a).toNat → c = v % 2 ^ 12 → x = s.counter c →
    (2 ^ 13 ≤ v → TaskAlone s → Traps (.ctrRd d a) s 0x01 4 (irWord s)) ∧
    (v < 2 ^ 13 → (s.trg.range (s.partOf s.cur)).hasCounter c = true → (s.die s.myDie).rdcEpoch ≠ BitVec.allOnes 32 →
      AcquiresWith (.ctrRd d a) s d (if v < 2 ^ 12 then x.value
        else BitVec.ofNat 64 (x.armed + x.fent * 2 ^ 32 + x.cfail.toNat * 2 ^ 61 + x.sat.toNat * 2 ^ 62 +
          x.err.toNat * 2 ^ 63)))) ∧
  (∀ (s : State) (who : Who) (c : Nat) (v : Word), c < 4096 → CountersIdle s →
    (MayStore s who (counterAddr c + 0x10) → ∃ t, exec (.counterAddStore who c v) s = .next t ∧ t.threads = s.threads ∧
      SetsCounter s t c (added (s.counter c) v)) ∧
    (∀ fn, who = .host fn → MayStore s who (counterAddr c) → ∃ t, exec (.counterSet who c v) s = .next t ∧
      t.threads = s.threads ∧ SetsCounter s t c { s.counter c with value := v }) ∧
    (∀ core slot, who = .thread core slot → MayStore s who (counterAddr c) → ∃ t, exec (.counterSet who c v) s = .next t ∧
      t = { s with threads := t.threads } ∧ (∀ k, k ≠ tidOf core slot → t.thread k = s.thread k) ∧
      t.thread (tidOf core slot) = { s.thread (tidOf core slot) with
        deferred := (s.thread (tidOf core slot)).deferred ++
          [{ trap := { code := 0x05, sub := 1, eval := counterAddr c }, fpc := (s.thread (tidOf core slot)).pc
             order := s.order, handler := (s.thread (tidOf core slot)).mode }] }))

/-- R411, R413–R419, R421–R423. The trap of a run that passes entry 0x3FFF is the model's choice (DESIGN CHOICE, log 37). -/
def Obligations.TriggerEntriesArmFireAndEnd : Prop :=
  (∀ (s : State) (d a b : Reg) (va : Word) (v e n : Nat), va = s.rd a → v = (s.rd b).toNat → e = v % 2 ^ 14 →
    n = v / 2 ^ 16 % 2 ^ 14 + 1 →
    (2 ^ 30 ≤ v ∨ v / 2 ^ 14 % 4 ≠ 0 ∨ 2 ^ 14 < e + n → TaskAlone s → Traps (.trgPost d a b) s 0x01 4 (irWord s)) ∧
    (v < 2 ^ 30 → v / 2 ^ 14 % 4 = 0 → e + n ≤ 2 ^ 14 → TaskAlone s →
      (va.toNat % 32 ≠ 0 → Traps (.trgPost d a b) s 0x03 0 va) ∧
      (va.toNat % 32 = 0 → va.toNat / 2 ^ 56 = 0xF1 → Traps (.trgPost d a b) s 0x04 0 va) ∧
      (va.toNat % 32 = 0 → va.toNat / 2 ^ 56 = 0xF0 → (s.trg.range (s.partOf s.cur)).hasEntry e = false →
        Traps (.trgPost d a b) s 0x05 3 (entryAddr e))) ∧
    (∀ (off : Nat) (c thr : Nat → Nat), v < 2 ^ 30 → v / 2 ^ 14 % 4 = 0 → e + n ≤ 2 ^ 14 → va.toNat % 32 = 0 →
      OwnBytes s va off (32 * n) → Drained s → s.reqs = [] → (∀ q, (h : q < 4) → s.trg.queues[q] = []) →
      (∀ k, k < n → (s.trg.range (s.partOf s.cur)).hasEntry (e + k) = true ∧ c k < 2 ^ 12 ∧ thr k < 2 ^ 40 ∧
        (s.trg.range (s.partOf s.cur)).hasCounter (c k) = true ∧
        le (s.core s.myCore).scratch (off + 32 * k) 8 = 8 * 2 ^ 60 + c k * 2 ^ 48 + thr k ∧
        ∀ j, 8 ≤ j → j < 32 → (s.core s.myCore).scratch.read (off + 32 * k + j) = 0) →
      let w (k : Nat) : Word := BitVec.ofNat 64 (8 * 2 ^ 60 + c k * 2 ^ 48 + thr k)
      let x (k : Nat) : TEntry := { w0 := w k, part := s.partOf s.cur, die := s.myDie, tcm := s.me.tcm, core := s.myCore
                                    eval := (s.entry (e + k)).eval, ftime := (s.entry (e + k)).ftime
                                    res := (s.entry (e + k)).res }
      let free := ∀ k, k < n → (s.entry (e + k)).state ≠ 1 ∧ (s.entry (e + k)).state ≠ 2
      (¬ free → Gives (.trgPost d a b) s 4 d 1) ∧
      (free → (∀ k, k < n → (s.counter (c k)).value.toNat < thr k) →
        ∃ t, exec (.trgPost d a b) s = .next t ∧ PassesWith s t d 0 ∧
          (∀ k, k < n → t.entry (e + k) = { x k with state := 1 }) ∧
          (∀ k, k < e ∨ e + n ≤ k → t.entry k = s.entry k) ∧
          (∀ q, t.counter q = { s.counter q with
            armed := (s.counter q).armed + ((List.range n).filter (fun k => c k = q)).length }) ∧
          t.mem = s.mem ∧ t.trg.queues = s.trg.queues) ∧
      (free → n = 1 → thr 0 ≤ (s.counter (c 0)).value.toNat → s.partOf s.cur < 4 →
        ∃ t, exec (.trgPost d a b) s = .next t ∧ PassesWith s t d 0 ∧ (t.entry e).state = 2 ∧
          (t.entry e).ftime = s.gtime ∧ (t.entry e).ended = some none ∧ (t.entry e).w0 = w 0 ∧
          (∀ k, k ≠ e → t.entry k = s.entry k) ∧ (∀ k, t.counter k = s.counter k) ∧
          t.mem = s.mem ∧ t.trg.queues = s.trg.queues))) ∧
  (∀ (s : State) (d a b : Reg) (e n : Nat), e = (s.rd a).toNat → n = (s.rd b).toNat →
    (2 ^ 14 ≤ e ∨ n = 0 ∨ 2 ^ 14 < e + n → TaskAlone s → Traps (.trgCancel d a b) s 0x01 4 (irWord s)) ∧
    (0 < n → e + n ≤ 2 ^ 14 → (s.trg.range (s.partOf s.cur)).hasEntry e = false → TaskAlone s →
      Traps (.trgCancel d a b) s 0x05 3 (entryAddr e)) ∧
    (0 < n → e + n ≤ 2 ^ 14 → (∀ k, e ≤ k → k < e + n → (s.trg.range (s.partOf s.cur)).hasEntry k = true) →
      ∃ t v, exec (.trgCancel d a b) s = .next t ∧ PassesWith s t d v ∧ t.mem = s.mem ∧
        (∀ k, t.entry k = if e ≤ k ∧ k < e + n ∧ (s.entry k).state = 1 then { s.entry k with state := 5 } else s.entry k) ∧
        v = BitVec.ofNat 64 ((List.range n).filter (fun k => (s.entry (e + k)).state = 1)).length ∧
        (∀ c, t.counter c = { s.counter c with armed := (s.counter c).armed - ((List.range n).filter (fun k =>
          (s.entry (e + k)).state = 1 ∧ (s.entry (e + k)).w0.toNat / 2 ^ 48 % 2 ^ 12 = c)).length }) ∧
        ((∀ k, e ≤ k → k < e + n → (s.entry k).state ≠ 1) → t.trg = s.trg))) ∧
  (∀ (s : State) (who : Who) (e c : Nat) (v : Word) (x : TEntry), c < 4096 → MayStore s who (counterAddr c + 0x10) →
    s.trg.entries.cells = [(e, x)] → (∀ q, (h : q < 4) → s.trg.queues[q] = []) → NoneParked s → x.state = 1 → x.part < 4 →
    x.w0.toNat / 2 ^ 60 = 8 → x.w0.toNat / 2 ^ 48 % 2 ^ 12 = c →
    ((added (s.counter c) v).value.toNat < x.w0.toNat % 2 ^ 40 → ∃ t, exec (.counterAddStore who c v) s = .next t ∧
      SetsCounter s t c (added (s.counter c) v)) ∧
    (x.w0.toNat % 2 ^ 40 ≤ (added (s.counter c) v).value.toNat → ∃ t, exec (.counterAddStore who c v) s = .next t ∧
      t.entry e = { x with state := 2, ftime := s.gtime, started := true, ended := some none } ∧
      (∀ k, k ≠ e → t.entry k = s.entry k) ∧ t.threads = s.threads ∧
      t.counter c = { added (s.counter c) v with armed := (s.counter c).armed - 1 } ∧
      ∀ k, k ≠ c → t.counter k = s.counter k)) ∧
  (∀ (s : State) (e : Nat) (x : TEntry), x = s.entry e → (∀ q, (h : q < 4) → s.trg.queues[q] = []) →
    let allowed := (if x.w0.toNat / 2 ^ 40 % 2 ^ 8 = 0 then s.fab.fto else x.w0.toNat / 2 ^ 40 % 2 ^ 8) * 1000
    let gone : TEntry := { x with late := decide (x.ftime.toNat + allowed < s.gtime.toNat), ended := none, started := false }
    (x.state ≠ 2 ∨ x.ended = none → exec (.triggerEntryComplete e) s = .next s) ∧
    (x.state = 2 → x.ended = some none → x.w1.getLsbD 63 = false →
      ∃ t, exec (.triggerEntryComplete e) s = .next t ∧ t.entry e = { gone with state := 3 } ∧
        (∀ k, k ≠ e → t.entry k = s.entry k) ∧ t = { s with trg := { s.trg with entries := t.trg.entries } }) ∧
    (x.state = 2 → x.ended = some none → x.w1.getLsbD 63 = true → s.trg.entries.cells = [(e, x)] → NoneParked s →
      ∃ t, exec (.triggerEntryComplete e) s = .next t ∧ t.entry e = { gone with state := 3 } ∧ t.threads = s.threads ∧
        ∀ k, t.counter k = if k = x.w1.toNat / 2 ^ 51 % 2 ^ 12 then added (s.counter k) 1 else s.counter k) ∧
    (∀ r, x.state = 2 → x.ended = some (some r) → NoneParked s →
      ∃ t, exec (.triggerEntryComplete e) s = .next t ∧
        t.entry e = { gone with state := 4, cause := r.code, sub := r.sub, eval := r.eval } ∧ t.threads = s.threads ∧
        (∀ k, k ≠ e → t.entry k = s.entry k) ∧
        ∀ k, t.counter k = if x.w1.getLsbD 63 = true ∧ k = x.w1.toNat / 2 ^ 51 % 2 ^ 12 then
          { s.counter k with err := true, fent := if (s.counter k).err then (s.counter k).fent else e } else s.counter k))

/-- R427–R430. -/
def Obligations.GroupsTakeSmallContributions : Prop :=
  (∀ a b : Word, smallOp 0 a b = a + b ∧ smallOp 1 a b = (if a.slt b then a else b) ∧
    smallOp 2 a b = (if a.slt b then b else a) ∧ smallOp 3 a b = a &&& b ∧ smallOp 4 a b = a ||| b ∧
    smallOp 5 a b = a ^^^ b ∧
    let x : Machine.Num := decodeNum .f32 false (a.toNat % 2 ^ 32)
    let y : Machine.Num := decodeNum .f32 false (b.toNat % 2 ^ 32)
    let A : Word := BitVec.ofNat 64 (a.toNat % 2 ^ 32)
    let B : Word := BitVec.ofNat 64 (b.toNat % 2 ^ 32)
    (∀ p q, real x = some p → real y = some q →
      (∃ n, real n = some (p + q) ∧ smallOp 6 a b = BitVec.ofNat 64 (roundNum .f32 false 0 0 n).1) ∧
      (p < q → smallOp 7 a b = B) ∧ (q < p → smallOp 7 a b = A) ∧ (p = q → smallOp 7 a b = A ∨ smallOp 7 a b = B)) ∧
    (x = .nan ∨ y = .nan → smallOp 6 a b = 0x7FC00000) ∧ (∀ n, x = .inf n → y = .inf !n → smallOp 6 a b = 0x7FC00000) ∧
    (∀ n, x = .inf n → y ≠ .nan → (y ≠ .inf !n → smallOp 6 a b = A) ∧ smallOp 7 a b = if n then B else A) ∧
    (∀ n, y = .inf n → x ≠ .nan → (x ≠ .inf !n → smallOp 6 a b = B) ∧ smallOp 7 a b = if n then A else B) ∧
    (x = .nan → smallOp 7 a b = if y = .nan then 0x7FC00000 else B) ∧ (x ≠ .nan → y = .nan → smallOp 7 a b = A)) ∧
  (∀ (s : State) (d a b : Reg) (g : Nat) (x : Group), g = (s.rd a).toNat → x = s.group g →
    (256 ≤ g → TaskAlone s → Traps (.grpSt d a b) s 0x01 4 (irWord s)) ∧
    (256 ≤ g ∨ 2 ^ 32 ≤ (s.rd b).toNat → TaskAlone s → Traps (.grpLd d a b) s 0x01 4 (irWord s)) ∧
    (g < 256 → (s.trg.range (s.partOf s.cur)).hasGroup g = false → TaskAlone s →
      Traps (.grpSt d a b) s 0x05 3 (groupAddr g) ∧
      ((s.rd b).toNat < 2 ^ 32 → Traps (.grpLd d a b) s 0x05 3 (groupAddr g))) ∧
    (g < 256 → (s.trg.range (s.partOf s.cur)).hasGroup g = true →
      (x.en = false ∨ x.localN = 0 → TaskAlone s → Traps (.grpSt d a b) s 0x01 4 (irWord s)) ∧
      (x.en = true → 0 < x.localN → ¬ Drained s → exec (.grpSt d a b) s = .next { s with stalled := true }) ∧
      (x.en = true → 0 < x.localN → Drained s → x.localN ≤ x.locals.length →
        Parks (.grpSt d a b) s (.grpSt g (s.rd b) (s.me.code d))) ∧
      (GroupReady s (s.partOf s.cur) g x → Drained s → x.locals.length < x.localN → x.root = true → x.cmask = 0 →
        x.upDone = false → ∃ t, exec (.grpSt d a b) s = .next t ∧ PassesWith s t d (x.epoch.zeroExtend 64) ∧
          t.group g = contributedTo x (s.rd b) ∧ GroupOnly s t g) ∧
      ((s.rd b).toNat < 2 ^ 32 →
        let rounds := (x.epoch - (s.rd b).extractLsb' 0 32).toNat
        (1 ≤ rounds → rounds ≤ 2 ^ 31 → (s.die s.myDie).rdcEpoch ≠ BitVec.allOnes 32 →
          AcquiresWith (.grpLd d a b) s d x.gres) ∧
        (rounds = 0 ∨ 2 ^ 31 < rounds → Parks (.grpLd d a b) s (.grpLd g (s.rd b) (s.me.code d)))))) ∧
  (∀ (s : State) (who : Who) (g : Nat) (v : Word) (x : Group), g < 256 → MayStore s who (groupAddr g + 0x28) →
    x = s.group g → x.en = true → 0 < x.localN → x.waiting = [] → NoneParked s →
    (x.locals.length < x.localN → x.root = true → x.cmask = 0 → x.upDone = false →
      ∃ t, exec (.groupContributionStore who g v) s = .next t ∧ t.threads = s.threads ∧
        t.group g = contributedTo x v ∧ GroupOnly s t g) ∧
    (∀ core slot, who = .thread core slot → x.localN ≤ x.locals.length →
      ∃ t, exec (.groupContributionStore who g v) s = .next t ∧ GroupOnly s t g ∧
        t.group g = { x with waiting := [(v, .store (tidOf core slot) s.nextId)] } ∧
        t.thread (tidOf core slot) = { s.thread (tidOf core slot) with
          unacked := (s.thread (tidOf core slot)).unacked ++ [(s.nextId, (s.thread (tidOf core slot)).mode)] })) ∧
  (∀ (s : State) (f : Flit) (x : Group) (v ep : Nat), NextInOrder s f → GroupReady s f.qd f.hdl x →
    s.groupPart f.hdl = f.qd → f.payload = leBytes 8 v ++ leBytes 4 ep → v < 2 ^ 64 → ep < 2 ^ 32 → x.upDone = false →
    (∀ k, (h : k < 8) → x.cmask = BitVec.ofNat 8 (2 ^ k) → x.kids[k] = f.src → x.arrived.cells = [] →
      (ep ≠ x.epoch.toNat → ∃ t, exec (.trgSmallContribution f) s = .next t ∧ Delivered s t f [] ∧ t.trg = s.trg ∧
        t.threads = s.threads) ∧
      (ep = x.epoch.toNat → x.locals.length < x.localN → ∃ t, exec (.trgSmallContribution f) s = .next t ∧
        Delivered s t f [] ∧ t.threads = s.threads ∧ GroupOnly s t f.hdl ∧
        t.group f.hdl = { x with arrived := ⟨[(k, BitVec.ofNat 64 v)]⟩ }) ∧
      (ep = x.epoch.toNat → x.locals.length = x.localN → x.root = true →
        let w := combineSmall x.op (x.locals ++ [BitVec.ofNat 64 v])
        ∃ t, exec (.trgSmallContribution f) s = .next t ∧ t.threads = s.threads ∧ GroupOnly s t f.hdl ∧
          Delivered s t f [trgFlit 2 f.hdl (leBytes 8 w.toNat ++ leBytes 4 ep)] ∧
          (t.group f.hdl).gres = w ∧ (t.group f.hdl).epoch = x.epoch + 1 ∧
          (t.group f.hdl).locals = [] ∧ (t.group f.hdl).arrived.cells = []))) ∧
  (∀ (s : State) (f : Flit) (x : Group) (v ep : Nat), NextInOrder s f → GroupReady s f.qd f.hdl x →
    f.payload = leBytes 8 v ++ leBytes 4 ep → v < 2 ^ 64 → ep < 2 ^ 32 → x.cmask = 0 →
    (x.root = false → x.parent = f.src → x.upDone = true → ep = x.epoch.toNat →
      ∃ t, exec (.trgSmallResult f) s = .next t ∧ Delivered s t f [] ∧ t.threads = s.threads ∧ GroupOnly s t f.hdl ∧
        t.group f.hdl = { x with gres := BitVec.ofNat 64 v, epoch := x.epoch + 1, locals := [], arrived := {}, upDone := false }) ∧
    (x.root = true ∨ x.parent ≠ f.src ∨ x.upDone = false ∨ ep ≠ x.epoch.toNat →
      ∃ t, exec (.trgSmallResult f) s = .next t ∧ Delivered s t f [] ∧ t.trg = s.trg ∧ t.threads = s.threads)) ∧
  (∀ (s : State) (f : Flit) (n : Nat), NextInOrder s f → f.payload = leBytes 8 n → n < 2 ^ 64 →
    (CountersIdle s → (s.trg.range f.qd).hasCounter f.hdl = true → ∃ t, exec (.trgCounterAdd f) s = .next t ∧
      Delivered s t f [] ∧ SetsCounter s t f.hdl (added (s.counter f.hdl) (BitVec.ofNat 64 n)) ∧ t.threads = s.threads) ∧
    ((s.trg.range f.qd).hasCounter f.hdl = false → ∃ t, exec (.trgCounterAdd f) s = .next t ∧
      Delivered s t f [{ typ := 0x0A, len := 10, payload := [1, 0x0C, 0, 0, 0, 0, 0, 0] ++ leBytes 3 f.seq }] ∧
      t.trg = s.trg ∧ t.threads = s.threads))

/-- R427, R431–R435. How a package below a failed edge learns of it, and the byte that says so, are the model's choice (DESIGN
CHOICE, log 38; DESIGN CHOICE, log 6). -/
def Obligations.CollectivesQueueWaitAndAbort : Prop :=
  (∀ (s : State) (d a b : Reg) (L : BitVec 4) (p : Block) (g : Nat) (x : Group), g = p.toNat % 2 ^ 8 → x = s.group g →
    x.en = true → (s.trg.range (s.partOf s.cur)).hasGroup g = true →
    (p.toNat = 3 * 2 ^ 108 + g →
      (x.colls = [] → Gives (.coll d a b L p) s 20 d 5) ∧
      (∀ c, x.colls = [c] → x.root = true → x.cmask = 0 → c.committed = false → c.entry = none → c.cen = false →
        x.aborts = [] → x.tails = [] → x.doomed = [] → x.inbox = [] → s.me.flights = [] →
        ∃ t, exec (.coll d a b L p) s = .next t ∧ Writes s.me t.me d 0 ∧ (∀ k, k ≠ s.cur → t.thread k = s.thread k) ∧
          t.me = { s.me with pc := s.me.pc + 20, regs := t.me.regs, badRegs := t.me.badRegs } ∧
          (t.group g).colls = [] ∧ (t.group g).aborts = [] ∧ GroupOnly s t g ∧ t.trg.counters = s.trg.counters ∧
          ∀ i, (h : i < 4) → (t.group g).cres[i] = if i = c.seq % 4 then
            { seq := c.seq, late := decide (c.dl < s.gtime.toNat), status := 2 } else x.cres[i])) ∧
    (∀ (len kind op fmt dl cen ctr es : Nat), kind < 3 → op < 3 → (fmt, es) ∈ [(0, 4), (1, 2), (2, 2), (7, 4)] → 0 < len →
      len ≤ 0x80000000 → len % es = 0 → dl < 2 ^ 56 → cen < 2 → ctr < 2 ^ 12 → (cen = 0 → ctr = 0) →
      p.toNat = g + len * 2 ^ 8 + dl * 2 ^ 40 + ctr * 2 ^ 96 + kind * 2 ^ 108 + op * 2 ^ 110 + fmt * 2 ^ 113 + cen * 2 ^ 116 →
      (cen = 1 → (s.trg.range (s.partOf s.cur)).hasCounter ctr = true) →
      ((s.rd a).toNat % es ≠ 0 → TaskAlone s → Traps (.coll d a b L p) s 0x03 0 (s.rd a)) ∧
      (∀ l m, (s.rd a).toNat % es = 0 → (s.rd b).toNat % es = 0 → s.collSpans s.cur p (s.rd a) (s.rd b) = .ok (l, m) →
        let sq := x.next.toNat
        let fresh (c : Coll) : Prop := c.seq = sq ∧ c.kind = kind ∧ c.op = op ∧ c.fmt = fmt ∧ c.len = len ∧ c.ctr = ctr ∧
          c.cen = decide (cen = 1) ∧ c.dl = (if dl = 0 then s.gtime.toNat + s.fab.fto * 1000 else dl) ∧ c.srcs = l ∧
          c.dsts = m ∧ c.tid = some s.cur ∧ c.run = some s.me.run ∧ c.core = s.myCore ∧ c.up = 0 ∧ c.down = 0
        let queued (t : State) : Prop := exec (.coll d a b L p) s = .next t ∧ GroupOnly s t g ∧
          Writes s.me t.me d (BitVec.ofNat 64 (sq * 2 ^ 16)) ∧ (∀ k, k ≠ s.cur → t.thread k = s.thread k) ∧
          t.me = { s.me with pc := s.me.pc + 20, regs := t.me.regs, badRegs := t.me.badRegs }
        (4 ≤ x.colls.length → Gives (.coll d a b L p) s 20 d 1) ∧
        (∀ c0 k, AwaitsChild x c0 k → c0.checked = [] → ∃ t c, queued t ∧ fresh c ∧ c.started = false ∧
          t.group g = { x with next := x.next + 1, colls := [c0, c] }) ∧
        (∀ k, x.colls = [] → x.tails = [] → x.root = false → k < 8 → x.cmask.getLsbD k = true → x.doomed = [] → x.inbox = [] →
          ∃ t c, queued t ∧ fresh c ∧ c.started = true ∧ t.group g = { x with next := x.next + 1, colls := [c] } ∧
            (t.conn (s.groupPart g) x.parent).urgent = (s.conn (s.groupPart g) x.parent).urgent ++
              [{ flit := trgFlit 7 g (leBytes 4 sq ++ leBytes 4 len ++
                  leBytes 2 (kind + op * 4 + fmt * 32 + cen * 256)) }])))) ∧
  (∀ (s : State) (f : Flit) (x : Group), NextInOrder s f → GroupReady s f.qd f.hdl x → x.inbox = [] → x.tails = [] →
    (x.colls = [] → ∃ t u, exec (.trgBulkChunkDown f) s = .next t ∧ Delivered s t f [] ∧ t.threads = s.threads ∧
      u = { f with typ := 0x0C, aux := 4 } ∧ GroupOnly s t f.hdl ∧
      t.group f.hdl = { x with inbox := if x.root = true ∨ x.parent ≠ f.src then [] else [u] }) ∧
    (x.colls = [] → ∀ q, f.payload = leBytes 4 q ++ f.payload.drop 4 → q < 2 ^ 32 →
      ∃ t u, exec (.trgDescriptorCheck f) s = .next t ∧ Delivered s t f [] ∧ t.threads = s.threads ∧
        u = { f with typ := 0x0C, aux := 7 } ∧ GroupOnly s t f.hdl ∧
        t.group f.hdl = { x with inbox := if x.slotOf f.src = none ∨ q < x.next.toNat then [] else [u] }) ∧
    (∀ c n, x.root = false → x.parent = f.src → x.cmask = 0 → x.colls = [c] → x.doomed = [] → c.kind = 2 →
      c.started = true → c.halted = false → c.bad = false → c.subs = [] → c.lost = [] → c.fed = 0 → c.wrote = 0 →
      c.down = 0 → c.finals.cells = [] → f.off = 0 → n = f.len + 1 → f.payload.length = n →
      (n < min 65536 c.len → ∃ t, exec (.trgBulkChunkDown f) s = .next t ∧ Delivered s t f [] ∧ t.threads = s.threads ∧
        GroupOnly s t f.hdl ∧ (t.group f.hdl).colls = [{ c with fed := n, finals := ⟨[(0, f.payload)]⟩ }]) ∧
      (∀ k a, n = c.len → n ≤ 65536 → c.cen = false → c.entry = none → c.core = k →
        c.dsts = [{ start := 0, len := n, core := some k, addr := a }] → a + n ≤ 0x60000 →
        s.watched (some k) a n = false → (s.die (dieOf k)).fenced = false → (s.core k).scratchBad = [] →
        (∀ i, (s.core k).pinned i = true) → ∃ t, exec (.trgBulkChunkDown f) s = .next t ∧ Delivered s t f [] ∧
          t.threads = s.threads ∧ t.mem = s.mem ∧ (t.group f.hdl).colls = [] ∧
          (∀ j, (h : j < f.payload.length) → (t.core k).scratch.read (a + j) = f.payload[j]) ∧
          (∀ w, w < a ∨ a + n ≤ w → (t.core k).scratch.read w = (s.core k).scratch.read w) ∧
          ∀ i, (hi : i < 4) → (t.group f.hdl).cres[i] = if i = c.seq % 4 then
            { seq := c.seq, late := decide (c.dl < s.gtime.toNat), status := 0 } else x.cres[i])) ∧
    (∀ c k q, (h : k < 8) → AwaitsChild x c k → x.kids[k] = f.src → s.groupPart f.hdl = f.qd → c.seq = q → q < 2 ^ 32 →
      (∀ len ctl, c.checked = [] → f.payload = leBytes 4 q ++ leBytes 4 len ++ leBytes 2 ctl → f.len = 9 → len < 2 ^ 32 →
        ctl < 2 ^ 16 →
        (len = c.len → ctl = c.ctl → ∃ t, exec (.trgDescriptorCheck f) s = .next t ∧ Delivered s t f [] ∧
          t.threads = s.threads ∧ (t.group f.hdl).colls = [{ c with checked := [k] }] ∧ GroupOnly s t f.hdl ∧
          (t.group f.hdl).inbox = [] ∧ (t.group f.hdl).kidSeq.get 0 k = q) ∧
        (len ≠ c.len ∨ ctl ≠ c.ctl → ∃ t, exec (.trgDescriptorCheck f) s = .next t ∧
          Delivered s t f [trgFlit 6 f.hdl (leBytes 4 q ++ leBytes 2 s.pkg.peer.toNat ++ [0])] ∧
          (t.group f.hdl).colls = [] ∧ GroupOnly s t f.hdl ∧ t.threads = s.threads ∧
          ∀ i, (hi : i < 4) → (t.group f.hdl).cres[i] = if i = q % 4 then
            { seq := q, late := decide (c.dl < s.gtime.toNat), status := 2 } else x.cres[i])) ∧
      (c.checked = [k] → x.kidSeq.get 0 k = q → f.off = 0 → f.payload.length = f.len + 1 → f.len + 1 < min 65536 c.len →
        ∃ t, exec (.trgBulkChunkUp f) s = .next t ∧ Delivered s t f [] ∧ t.threads = s.threads ∧ GroupOnly s t f.hdl ∧
          (t.group f.hdl).colls = [{ c with chunks := ⟨[(2 ^ 20 * k, f.payload)]⟩ }]) ∧
      (∀ peer, f.payload = leBytes 4 q ++ leBytes 2 peer → peer < 2 ^ 16 →
        ∃ t, exec (.trgAbortRequest f) s = .next t ∧ GroupOnly s t f.hdl ∧ t.threads = s.threads ∧
          Delivered s t f [trgFlit 6 f.hdl (leBytes 4 q ++ leBytes 2 peer ++ [0])] ∧ (t.group f.hdl).colls = [] ∧
          ∀ i, (hi : i < 4) → (t.group f.hdl).cres[i] = if i = q % 4 then
            { seq := q, late := decide (c.dl < s.gtime.toNat), status := 2 } else x.cres[i])) ∧
    (∀ q peer, f.payload = leBytes 4 q ++ leBytes 2 peer → q < 2 ^ 32 → peer < 2 ^ 16 → x.colls = [] →
      s.groupPart f.hdl = f.qd →
      (x.root = true → q < x.next.toNat → peer ≠ s.pkg.peer.toNat → ∃ t, exec (.trgAbortRequest f) s = .next t ∧
        Delivered s t f [trgFlit 6 f.hdl (leBytes 4 q ++ leBytes 2 peer ++ [1])] ∧ t.threads = s.threads ∧
        GroupOnly s t f.hdl ∧ (t.group f.hdl).paths.get 0 peer = f.src) ∧
      (x.root = false → x.parent = f.src → ∃ t, exec (.trgAbortRequest f) s = .next t ∧
        Delivered s t f [trgFlit 5 f.hdl (leBytes 4 q ++ leBytes 2 peer)] ∧ t.threads = s.threads ∧ GroupOnly s t f.hdl)) ∧
    (∀ q peer c, f.payload = leBytes 4 q ++ leBytes 2 peer ++ [2] → q < 2 ^ 32 → peer < 2 ^ 16 → x.colls = [c] →
      c.seq = q → c.cen = false → c.entry = none → x.cmask = 0 → x.aborts = [] →
      ∃ t, exec (.trgAbortDecision f) s = .next t ∧ Delivered s t f [] ∧ t.threads = s.threads ∧ GroupOnly s t f.hdl ∧
        (t.group f.hdl).colls = [] ∧ ∀ i, (hi : i < 4) → (t.group f.hdl).cres[i] = if i = q % 4 then
          { seq := q, late := decide (c.dl < s.gtime.toNat), status := 3 } else x.cres[i]) ∧
    (∀ q peer late, f.payload = leBytes 4 q ++ leBytes 2 peer ++ [if late then 1 else 0] → q < 2 ^ 32 → peer < 2 ^ 16 →
      (∀ c, late = false → x.colls = [c] → c.seq = q → c.cen = false → c.entry = none → x.cmask = 0 → x.aborts = [] →
        ∃ t, exec (.trgAbortDecision f) s = .next t ∧ Delivered s t f [] ∧ t.threads = s.threads ∧ GroupOnly s t f.hdl ∧
          (t.group f.hdl).colls = [] ∧ ∀ i, (hi : i < 4) → (t.group f.hdl).cres[i] = if i = q % 4 then
            { seq := q, late := decide (c.dl < s.gtime.toNat), status := 2 } else x.cres[i]) ∧
      (∀ tid fl d g, late = true → peer = s.pkg.peer.toNat → x.colls = [] →
        x.aborts = [{ tid := tid, flight := fl, seq := q, d := d }] → (s.thread tid).flight fl = some g → d < 108 → d ≠ 96 →
        ∃ t, exec (.trgAbortDecision f) s = .next t ∧ Delivered s t f [] ∧ GroupOnly s t f.hdl ∧
          t.group f.hdl = { x with aborts := [] } ∧ (t.thread tid).readCode d = 4 ∧ (t.thread tid).flight fl = none ∧
          (∀ k, k ≠ d → (t.thread tid).readCode k = (s.thread tid).readCode k) ∧
          ∀ k, k ≠ tid → t.thread k = s.thread k)))

/-- R383, R384, R388, R394–R396, R398, R399, R402, R403. The layouts of ERR and ATR are the model's choice (DESIGN CHOICE, log 6);
that kind 2 also answers once the revocation is over is deduced (DEDUCED, log 61). -/
def Obligations.FlitsActOnRegisteredMemory : Prop :=
  ∀ (s : State) (f : Flit), NextInOrder s f →
    (∀ (r : Region) (pa n : Nat), Admits s f r pa n → s.watched none pa n = false →
      (∀ i, i ∈ [Instr.putFlit f, Instr.pst f] → r.wr = true → n = f.len + 1 → f.payload.length = n →
        ∃ t, Performs i s f [] t ∧ PutsBytes s t pa f.payload) ∧
      (∀ id, f.payload = leBytes 4 n ++ leBytes 1 id → id < 256 → r.rd = true →
        ∃ t, Performs (.getq f) s f
          [{ typ := 0x03, nar := f.nar, tcm := f.nar && r.tcm, hdl := f.hdl, off := 0
             len := n - 1, aux := id, payload := s.mem.readBytes pa n }] t ∧ t.mem = s.mem) ∧
      (∀ b, n = 8 → f.payload = leBytes 8 b → b < 2 ^ 64 → r.at_ = true →
        ∃ t, Performs (.raddFlit f) s f
          [{ typ := 0x06, hdl := f.hdl, off := f.off, len := 10
             payload := leBytes 8 (le s.mem pa 8) ++ leBytes 3 f.seq }] t ∧
          PutsBytes s t pa (leBytes 8 ((le s.mem pa 8 + b) % 2 ^ 64))) ∧
      (∀ e b, n = 8 → f.payload = leBytes 8 e ++ leBytes 8 b → e < 2 ^ 64 → b < 2 ^ 64 → r.at_ = true →
        ∃ t, Performs (.rcasFlit f) s f
          [{ typ := 0x06, hdl := f.hdl, off := f.off, len := 10
             payload := leBytes 8 (le s.mem pa 8) ++ leBytes 3 f.seq }] t ∧
          (le s.mem pa 8 = e → PutsBytes s t pa (leBytes 8 b)) ∧ (le s.mem pa 8 ≠ e → t.mem = s.mem)) ∧
      (∀ v, n = 4 → f.len = 3 → f.payload = leBytes 4 v → v < 2 ^ 32 → r.at_ = true →
        ∃ t, Performs (.fadd f) s f [] t ∧ PutsBytes s t pa (leBytes 4 (fp32Add (le s.mem pa 4) v).1)) ∧
      (n = f.len + 1 → r.rd = true → ∃ t, Performs (.pld f) s f
        [{ typ := 0x03, hdl := 0xFFF, off := leNat (f.payload.take 2), len := n - 1
           payload := s.mem.readBytes pa n }] t ∧ t.mem = s.mem)) ∧
    (f.hdl ≠ 0xFFF → ∀ i typ, (i, typ) ∈ [(Instr.putFlit f, 0x01), (Instr.getq f, 0x02), (Instr.raddFlit f, 0x04),
        (Instr.rcasFlit f, 0x05), (Instr.fadd f, 0x07), (Instr.pld f, 0x08), (Instr.pst f, 0x09)] →
      ((s.region f.hdl).v = false → (s.region f.hdl).part = f.qd → (s.region f.hdl).revoked = true → ∃ t, exec i s = .next t ∧
        Delivered s t f [refusal f typ 2] ∧ t.threads = s.threads ∧ t.cores = s.cores) ∧
      ((s.region f.hdl).v = false ∧ (s.region f.hdl).revoked = false ∨ (s.region f.hdl).part ≠ f.qd → ∃ t, exec i s = .next t ∧
        Delivered s t f [refusal f typ 1] ∧ t.threads = s.threads ∧ t.cores = s.cores) ∧
      ((s.region f.hdl).v = true → (s.region f.hdl).part = f.qd → (s.region f.hdl).drain = true →
        ∃ t, exec i s = .next t ∧ Delivered s t f [refusal f typ 2] ∧ t.threads = s.threads ∧ t.cores = s.cores) ∧
      ((s.region f.hdl).v = true → (s.region f.hdl).part = f.qd → (s.region f.hdl).drain = false →
        (s.region f.hdl).rd = false → (s.region f.hdl).wr = false → (s.region f.hdl).at_ = false →
        (s.region f.hdl).revoked = false →
        ∃ t, exec i s = .next t ∧ Delivered s t f [refusal f typ 1] ∧ t.threads = s.threads ∧ t.cores = s.cores))

/-- R388, R389, R398–R401. The layouts of ERR and ATR are the model's choice (DESIGN CHOICE, log 6). -/
def Obligations.ResponsesReachTheirOperations : Prop :=
  (∀ (s : State) (f : Flit) (o : RemoteOp) (tid fl : Nat), NextInOrder s f → s.fab.ops = [o] → s.trg.groups.cells = [] → o.part = f.qd →
    o.peer = f.src → o.owner = .thread tid fl →
    (∀ c a n, o.kind = .get → o.y.toNat = f.aux → f.hdl ≠ 0xFFF → o.stopped = false → o.fault = none → f.nar = o.nar →
      (o.nar = false ∨ f.tcm = o.tcm) → n = f.len + 1 → f.payload.length = n → f.off + n ≤ o.len → o.core = c →
      o.spans = [{ start := 0, len := o.len, core := some c, addr := a }] → a + o.len ≤ 0x60000 → s.watched (some c) (a + f.off) n = false →
      (s.die (dieOf c)).fenced = false → (s.core c).scratchBad = [] → (∀ x, (s.core c).pinned x = true) →
      ∃ t, exec (.getr f) s = .next t ∧ Delivered s t f [] ∧ t.fab.ops = [{ o with got := o.got + n }] ∧
        t.threads = s.threads ∧ t.mem = s.mem ∧
        (∀ j, (h : j < f.payload.length) → (t.core c).scratch.read (a + f.off + j) = f.payload[j]) ∧
        ∀ x, x < a + f.off ∨ a + f.off + n ≤ x → (t.core c).scratch.read x = (s.core c).scratch.read x) ∧
    (∀ q old d g, f.payload = leBytes 8 old ++ leBytes 3 q → old < 2 ^ 64 → q < 2 ^ 24 → o.seqs = [(q, 0)] → o.d = d →
      d < 108 → d ≠ 96 → (s.thread tid).flight fl = some g → ∃ t, exec (.atr f) s = .next t ∧ Delivered s t f [] ∧
        t.fab.ops = [{ o with answered := true }] ∧ (t.thread tid).readCode d = BitVec.ofNat 64 old ∧
        (∀ k, k ≠ d → (t.thread tid).readCode k = (s.thread tid).readCode k) ∧ t.mem = s.mem ∧
        ∀ k, k ≠ tid → t.thread k = s.thread k) ∧
    (∀ q kind typ off, f.payload = leBytes 1 kind ++ leBytes 1 typ ++ leBytes 6 0 ++ leBytes 3 q → kind < 256 →
      q < 2 ^ 24 → o.seqs = [(q, off)] → o.refused = none → o.kind ≠ .page → ∃ t, exec (.errFlit f) s = .next t ∧
        Delivered s t f [] ∧ t.fab.ops = [{ o with refused := some (kind, off) }] ∧ t.threads = s.threads ∧
        t.mem = s.mem)) ∧
  (∀ (s : State) (f : Flit) (c : Conn), Intact s f → c = s.conn f.qd f.src → s.trg.groups.cells = [] →
    (∀ m o, c.sent = [m] → m.op = some o.id → s.fab.ops = [o] → o.kind ≠ .page → (∃ tid fl, o.owner = .thread tid fl) →
      m.flit.seq < 2 ^ 24 → (f.seq = (m.flit.seq + 1) % 2 ^ 24 → ∃ t, exec (.ack f) s = .next t ∧ t.threads = s.threads ∧
        t.mem = s.mem ∧ t.fab.ops = [{ o with acks := o.acks + 1 }] ∧
        t.conn f.qd f.src = { c with sent := [], acked := f.seq, goBacks := 0, progress := s.clock }) ∧
      (f.seq = m.flit.seq → exec (.ack f) s = .next s)) ∧
    (c.sent = [] → exec (.nak f) s = .next s ∧ exec (.ack f) s = .next s) ∧
    (c.sent ≠ [] → c.goBacks < s.fab.retry → ∃ t, exec (.nak f) s = .next t ∧
      t.wire = s.wire ∧ t.threads = s.threads ∧ t.conn f.qd f.src = { c with
        again := c.sent.filter (fun m => (m.flit.seq % 2 ^ 24 + 2 ^ 24 - f.seq % 2 ^ 24) % 2 ^ 24 < 2 ^ 23)
        goBacks := c.goBacks + 1, progress := s.clock }) ∧
    (c.sent ≠ [] → s.fab.retry ≤ c.goBacks → OnlyThreadOps s → c.held = none →
      ∃ t, exec (.nak f) s = .next t ∧ Fails s t f.qd f.src)) ∧
  (∀ (s : State) (o : RemoteOp) (tid fl : Nat) (g : Flight), s.fab.ops = [o] → o.owner = .thread tid fl →
    (s.thread tid).flight fl = some g → o.tag = none → o.subs = [] →
    let left := { s.thread tid with flights := (s.thread tid).flights.filter (fun f => f.id ≠ fl) }
    let goes (t : State) : Prop := exec (.remoteOpComplete o.id) s = .next t ∧ t.fab.ops = [] ∧ t.mem = s.mem ∧
      ∀ k, k ≠ tid → t.thread k = s.thread k
    (o.failed = false → o.refused = none → o.answered = false → o.kind = .radd ∨ o.kind = .rcas →
      exec (.remoteOpComplete o.id) s = .next s) ∧
    (o.failed = false → o.kind = .put → o.next < o.count → exec (.remoteOpComplete o.id) s = .next s) ∧
    (o.failed = false → o.refused = none → o.stopped = false → o.fault = none → o.ctr = none →
      (o.kind = .put ∧ o.next = o.count ∧ o.seqs.length ≤ o.acks ∨
       o.kind = .get ∧ o.next = o.count ∧ o.len ≤ o.got ∨ (o.kind = .radd ∨ o.kind = .rcas) ∧ o.answered = true) →
      ∃ t, goes t ∧ t.thread tid = left) ∧
    (∀ k off, o.failed = false → o.refused = some (k, off) → k ≠ 6 → o.kind = .get ∨ o.kind = .radd ∨ o.kind = .rcas →
      ∃ t, goes t ∧ t.thread tid = { left with deferred := left.deferred ++
        [{ trap := { code := 0x10, sub := BitVec.ofNat 8 k
                     eval := BitVec.ofNat 64 (o.peer * 2 ^ 52 + o.hdl * 2 ^ 40 + off % 2 ^ 40) }, fpc := o.pc, order := o.order
           handler := g.handler }] }) ∧
    (o.failed = true → o.kind ≠ .page → ∃ t, goes t ∧ t.thread tid = { left with deferred := left.deferred ++
        [{ trap := { code := 0x10, sub := 5
                     eval := BitVec.ofNat 64 (o.peer * 2 ^ 52 + o.hdl * 2 ^ 40 + o.off % 2 ^ 40) }, fpc := o.pc, order := o.order
           handler := g.handler }] }))

/-- R343, R344, R352, R387–R389, R392, R393, R406, R407, R437. The layouts of PAUSE, SYNC and VIS payloads are the model's choice
(DESIGN CHOICE, log 6); so are the order in which what waits is sent, refusals before acknowledgements, and the layout of a
context's backing (DESIGN CHOICE, log 35). -/
def Obligations.ConnectionsSendAndRecover : Prop :=
  (∀ (s : State) (q x : Nat) (c : Conn), c = s.conn q x →
    (∀ o r p k y, s.hasRoute q x = true → c.cached = true → s.openPaths q x = [(p, k)] → c.again = [] → c.urgent = o :: r →
      o.op = none → c.sent.length < 8192 → s.pairOf q x = some y →
      let f := { o.flit with dst := x, src := s.pkg.peer.toNat, qs := q, qd := y, seq := c.seq, port := p, wave := k,
                             nonce := 2 ^ 24 * c.wrap + c.seq }
      ∃ t, exec (.fabricSend q x) s = .next t ∧ t.wire = s.wire ++ [f] ∧ t.threads = s.threads ∧ t.mem = s.mem ∧
        t.conn q x = { c with
          urgent := r, seq := (c.seq + 1) % 2 ^ 24, sent := c.sent ++ [{ o with flit := f }], stripe := 16 * p + k
          wrap := (if c.seq + 1 = 2 ^ 24 then (c.wrap + 1) % 2 ^ 43 else c.wrap), used := s.clock
          progress := if c.sent = [] then s.clock else c.progress }) ∧
    (s.hasRoute q x = true → c.cached = false → exec (.fabricSend q x) s = .next s) ∧
    (∀ idle : Prop, s.hasRoute q x = false → s.trg.groups.cells = [] → OnlyThreadOps s →
      (idle ↔ c.again = [] ∧ c.urgent = [] ∧ c.sent = [] ∧
        ∀ o ∈ s.fab.ops, o.part = q → o.peer = x → o.failed = true ∨ o.finished = true) →
      (idle → exec (.fabricSend q x) s = .next s) ∧
      (¬ idle → c.held = none → ∃ t, exec (.fabricSend q x) s = .next t ∧ Fails s t q x)) ∧
    (c.fresh = 0 ∨ s.clock < c.freshAt + 480 ∧ c.fresh < 32 ∨ (∃ o ∈ c.urgent, o.flit.typ = 0x0A) →
      exec (.ackTimer q x) s = .next s) ∧
    (∀ p k l, 0 < c.fresh → c.freshAt + 480 ≤ s.clock ∨ 32 ≤ c.fresh → (∀ o ∈ c.urgent, o.flit.typ ≠ 0x0A) →
      (s.paths q x).1 = (p, k) :: l → ∃ t, exec (.ackTimer q x) s = .next t ∧ t.conn q x = { c with
          fresh := 0, usend := (c.usend + 1) % 2 ^ 24
          uwrap := if c.usend + 1 = 2 ^ 24 then (c.uwrap + 1) % 2 ^ 43 else c.uwrap } ∧
        t.threads = s.threads ∧ ∃ f, t.wire = s.wire ++ [f] ∧ f.typ = 0x10 ∧ f.seq = c.expected ∧ f.dst = x ∧
          f.src = s.pkg.peer.toNat ∧ f.port = p ∧ f.wave = k) ∧
    (c.gapAt = none → exec (.nakGapTimeout q x) s = .next s) ∧
    (∀ g p k l, c.gapAt = some g → c.early ≠ [] → c.held = none → (s.paths q x).1 = (p, k) :: l →
      (s.clock < g + 4800 → exec (.nakGapTimeout q x) s = .next s) ∧
      (g + 4800 ≤ s.clock → ∃ t, exec (.nakGapTimeout q x) s = .next t ∧ t.threads = s.threads ∧
        t.conn q x = { c with
          gapAt := some s.clock, usend := (c.usend + 1) % 2 ^ 24
          uwrap := if c.usend + 1 = 2 ^ 24 then (c.uwrap + 1) % 2 ^ 43 else c.uwrap } ∧
        ∃ f, t.wire = s.wire ++ [f] ∧ f.typ = 0x11 ∧ f.seq = c.expected ∧ f.dst = x ∧ f.port = p ∧ f.wave = k)) ∧
    (c.sent = [] ∨ s.clock < c.progress + 48000 → exec (.goBackTimeout q x) s = .next s) ∧
    (c.sent ≠ [] → c.progress + 48000 ≤ s.clock → c.goBacks < s.fab.retry → ∃ t, exec (.goBackTimeout q x) s = .next t ∧
      t.threads = s.threads ∧ t.wire = s.wire ∧ t.conn q x = { c with
        again := c.sent, goBacks := c.goBacks + 1, progress := s.clock }) ∧
    (c.sent ≠ [] → c.progress + 48000 ≤ s.clock → s.fab.retry ≤ c.goBacks → s.trg.groups.cells = [] → OnlyThreadOps s →
      c.held = none → ∃ t, exec (.goBackTimeout q x) s = .next t ∧ Fails s t q x) ∧
    (c.cached = true ∨ s.pairOf q x = none → exec (.contextFetchComplete q x) s = .next s) ∧
    (∀ y, c.cached = false → s.pairOf q x = some y → s.fab.conns.cells.length < 4096 →
      (∀ p < 32, ∀ k < 16, ((s.port p).lane k).miss = [] ∧ ((s.port p).lane k).input = []) → ∃ t, exec (.contextFetchComplete q x) s = .next t ∧
        t.threads = s.threads ∧ t.wire = s.wire ∧ (∀ e, e ≠ 4096 * q + x → t.fab.conns.find e = s.fab.conns.find e) ∧
        (c.stored = false → t.conn q x = { c with
          keys := s.fab.keys.get {} (4096 * q + x), cached := true, used := s.clock }) ∧
        ∀ b, b = s.fab.ccbase.toNat + 128 * (4096 * q + x) → c.stored = true → (∀ j < 128, s.windowOf (b + j) = none ∧
          inTier2 (b + j) = false ∧ s.lost (b + j) = false) → (t.conn q x).cached = true ∧
          (t.conn q x).seq = le s.mem b 3 ∧ (t.conn q x).expected = le s.mem (b + 3) 3)) ∧
  (∀ (s : State) (f : Flit) (p k : Nat), Intact s f → f.typ = 0x12 → p < 32 → k < 16 → s.pausedWaves f = [(p, k)] →
    ∃ t, exec (.pause f) s = .next t ∧ t = { s with fab := { s.fab with ports := t.fab.ports } } ∧
      (t.port p).slot k = { (s.port p).slot k with paused := decide (leNat ((f.payload.drop 2).take 1) % 2 = 0) } ∧
      ∀ a b, (a, b) ≠ (p, k) → (t.port a).slot b = (s.port a).slot b) ∧
  (∀ (s : State) (f : Flit), s.fab.en = true → f.crcOk = true → f.tagOk = true → f.dst = s.pkg.peer.toNat →
    listedType f.typ = true → ((s.port f.port).lane f.wave).assigned = true →
    (∀ t1 u, f.aux = 0 → f.payload = leBytes 8 t1 → t1 < 2 ^ 64 →
      s.sendSync f.src { typ := 0x14, aux := 1, len := 15, payload := leBytes 8 t1 ++ leBytes 8 s.gtime.toNat } = some u →
      exec (.sync f) s = .next u) ∧
    (∀ t1 t2, f.aux = 1 → f.payload = leBytes 8 t1 ++ leBytes 8 t2 → t1 < 2 ^ 64 → t2 < 2 ^ 64 →
      (s.fab.tsync = true → f.src = s.fab.parent → s.fab.root = false → t1 ≤ s.gtime.toNat →
        ∃ t, exec (.sync f) s = .next t ∧ t.fab = { s.fab with syncAt := s.clock, syncLost := false } ∧
          t.pkg = { s.pkg with gtSlew := (t2 : Int) + ((s.gtime.toNat - t1) / 2 : Nat) - s.gtime.toNat } ∧
          t.threads = s.threads) ∧
      (s.fab.tsync = false ∨ f.src ≠ s.fab.parent → exec (.sync f) s = .next s))) ∧
  (∀ (s : State),
    (s.fab.tsync = false ∨ s.fab.en = false ∨ s.clock < s.fab.syncSent + 2400000 → exec .timeSync s = .next s) ∧
    (∀ u, s.fab.tsync = true → s.fab.en = true → s.fab.syncSent + 2400000 ≤ s.clock →
      s.sendSync s.fab.parent { typ := 0x14, len := 7, payload := leBytes 8 s.gtime.toNat } = some u →
      exec .timeSync s = .next { u with fab := { u.fab with syncSent := s.clock } }) ∧
    (s.fab.tsync = false ∨ s.fab.syncLost = true ∨ s.clock < s.fab.syncAt + 24000000 →
      exec .timeSyncLost s = .next s) ∧
    (s.fab.tsync = true → s.fab.syncLost = false → s.fab.syncAt + 24000000 ≤ s.clock → ∃ t, exec .timeSyncLost s = .next t ∧
      t.fab = { s.fab with syncLost := true } ∧ t.pkg.gtSlew = 0 ∧ t.threads = s.threads)) ∧
  (∀ (s : State) (f : Flit), NextInOrder s f →
    (2 < f.aux → f.aux < 16 → ∃ t, exec (.vis f) s = .next t ∧ Delivered s t f [] ∧
      t.fab.discards = s.fab.discards + 1 ∧ t.mem = s.mem ∧ t.threads = s.threads) ∧
    (∀ c st, f.aux = 16 + st → st < 8 → c < 32 → s.owner (c / 8) = some f.qd → f.off < (s.cluster c).lrCount →
      (∀ e < c, s.owner (e / 8) = some f.qd → (s.cluster e).lrCount ≤ f.off) → PlainRec s c f.off → s.stateBad c f.off = false → ∃ t, exec (.vis f) s = .next t ∧ Delivered s t f [] ∧
        (t.recWord c f.off 0xC0).toNat % 8 = st ∧ RecordBytes s t c f.off [0xC0] ∧ t.threads = s.threads))

/-- R272–R284. -/
def Obligations.EnginesCopyAndGather : Prop :=
  (∀ (s : State) (core slot die ch v tid t : Nat) (x : Channel), tid = tidOf core slot → slot < 4 → x = s.channel die ch →
    t = v % 2 ^ 12 → v < 2 ^ 64 →
    let drained := s.settled tid = true
    let may := s.templateOk die t = true ∧ v < 2 ^ 19 ∧ x.err = false ∧ core / 256 = die
    (¬ drained ∨ 8 ≤ x.copies.length → exec (.btStart core slot die ch (BitVec.ofNat 64 v)) s = .next s) ∧
    (drained → x.copies.length < 8 → ¬ may → (s.thread tid).mode = false → (s.thread tid).gang = false →
      TrapsThread (.btStart core slot die ch (BitVec.ofNat 64 v)) s tid 0x05 1 (dieReg die (0x31000 + 8 * ch))) ∧
    (drained → x.copies.length < 8 → may → v / 2 ^ 18 % 2 = 0 →
      ∃ u c, exec (.btStart core slot die ch (BitVec.ofNat 64 v)) s = .next u ∧ u = { s with dies := u.dies } ∧
        (∀ d, d ≠ die → u.die d = s.die d) ∧
        u.channel die ch = { x with copies := x.copies ++ [c], row := if x.copies = [] then 0 else x.row
                                    col := if x.copies = [] then 0 else x.col } ∧
        c.core = core ∧ c.slot = slot ∧ c.run = some (s.thread tid).run ∧ c.tag = none ∧ c.src = s.template die t 0 ∧ c.dst = s.template die t 1 ∧
        c.rlen = (s.template die t 2).toNat % 2 ^ 24 ∧ c.rows1 = (s.template die t 2).toNat / 2 ^ 24 % 2 ^ 16 ∧
        c.sstr = s.template die t 3 ∧ c.dstr = s.template die t 4 ∧ c.bar = s.template die t 5 ∧
        c.wme = (s.template die t 7).getLsbD 1) ∧
    (s.templateOk die t = true → (s.template die t 7).getLsbD 0 = true ∧ 0 < (s.template die t 2).toNat % 2 ^ 24 ∧
      (s.template die t 2).toNat < 2 ^ 40 ∧ (s.template die t 6).toNat < 2 ^ 13 ∧ (s.template die t 7).toNat < 4)) ∧
  (∀ (s : State) (die ch : Nat) (D : Die) (x : Channel) (c : Copy) (rest : List Copy), s.dies.cells = [(die, D)] →
    D.channels.cells = [(ch, x)] → x.copies = c :: rest → x.col = 0 → x.bytes = none → x.reqs = [] → dieOf c.core = die →
    let fails : Prop := ∃ t, exec (.copyFail die ch) s = .next t ∧
      (∀ k, k ≠ tidOf c.core c.slot → t.thread k = s.thread k) ∧
      t.thread (tidOf c.core c.slot) = withFault (s.thread (tidOf c.core c.slot)) 0x04 1
        (BitVec.ofNat 64 (0xF0 * 2 ^ 56 + 0x60000)) c.pc c.order c.handler ∧
      (t.channel die ch).copies = [] ∧ (t.channel die ch).err = true ∧ (t.channel die ch).ecause = 0x04 ∧
      (t.channel die ch).esub = 1 ∧ (t.channel die ch).eaddr = BitVec.ofNat 64 (0xF0 * 2 ^ 56 + 0x60000) ∧
      (t.channel die ch).wm = c.wmEnd
    (∀ a b, c.slot < 4 → x.row ≤ c.rows1 → c.rowSrc x.row = BitVec.ofNat 64 (0xF0 * 2 ^ 56 + a) →
      c.rowDst x.row = BitVec.ofNat 64 (0xF0 * 2 ^ 56 + b) → 0 < c.rlen → a + c.rlen ≤ 0x60000 → c.bar = 0 →
      ScratchClear s c.core →
      (b + c.rlen ≤ 0x60000 → (∃ t, exec (.copyRowPerformed die ch) s = .next t ∧ t.threads = s.threads ∧
          PutsCore s t c.core b ((s.core c.core).scratch.readBytes a c.rlen) ∧
          t.channel die ch = { x with row := x.row + 1 }) ∧
        exec (.copyFail die ch) s = .next s) ∧
      (b < 0x60000 → 0x60000 < b + c.rlen → s.stillRuns c.core c.slot c.taskix = true → (∀ k ∈ x.copies, k.tag = none ∧ k.slot < 4) →
        fails)) ∧
    (∀ a, c.slot < 4 → c.rowSrc x.row = BitVec.ofNat 64 (0xF0 * 2 ^ 56 + a) → a < 0x60000 → 0x60000 < a + c.rlen →
      s.stillRuns c.core c.slot c.taskix = true → (∀ k ∈ x.copies, k.tag = none ∧ k.slot < 4) → fails) ∧
    (x.row ≤ c.rows1 → exec (.copyComplete die ch) s = .next s) ∧
    (c.rows1 < x.row → c.tag = none → c.ctr = none → c.slot < 4 → ∃ t, exec (.copyComplete die ch) s = .next t ∧
      t = { s with dies := t.dies } ∧ t.channel die ch = { x with
        copies := rest, row := 0, wm := c.dst + BitVec.ofNat 64 (c.rlen * (c.rows1 + 1)) })) ∧
  (∀ (s : State) (core slot v tid : Nat), tid = tidOf core slot → slot < 4 → v < 2 ^ 64 → s.settled tid = true →
    (s.die (dieOf core)).streams.length < 256 →
    (v % 32 ≠ 0 ∨ 0x60000 < v + 32 → (s.thread tid).mode = false → (s.thread tid).gang = false →
      TrapsThread (.streamerPost core slot (BitVec.ofNat 64 v)) s tid 0x05 1 (dieReg (dieOf core) 0x40000)) ∧
    (∀ r, v % 32 = 0 → v + 32 ≤ 0x60000 → ScratchClear s core →
      (∀ a n, s.watched (some core) a n = false) → s.streamOf core slot v (s.thread tid).pc = some r → r.tag = none →
      ∃ t, exec (.streamerPost core slot (BitVec.ofNat 64 v)) s = .next t ∧ t.threads = s.threads ∧
        PutsCore s t core r.cnt (List.replicate (4 * r.nc) 0) ∧
        t.die (dieOf core) = { s.die (dieOf core) with streams := (s.die (dieOf core)).streams ++ [r] })) ∧
  (∀ (s : State) (die : Nat) (r : StreamReq) (rest : List StreamReq), (s.die die).streams = r :: rest →
    (∀ u oo lo k, r.next < r.n → r.scatter = false → r.cb + u % r.nc = r.core → oo = r.tb + u / r.nc * r.rl →
      lo = r.lb + r.next * r.rl → k = r.cnt + 4 * (u % r.nc) → oo + r.rl ≤ 0x60000 → lo + r.rl ≤ 0x60000 → 0 < r.rl →
      k + 4 ≤ 0x60000 → r.idx + 4 * r.next + 4 ≤ 0x60000 → (k + 4 ≤ lo ∨ lo + r.rl ≤ k) → ScratchClear s r.core →
      (∀ a n, s.watched (some r.core) a n = false) → u = (s.core r.core).scratch.readNat (r.idx + 4 * r.next) 4 →
      ∃ t, exec (.streamerRow die) s = .next t ∧ t.threads = s.threads ∧ t.mem = s.mem ∧
        (t.die die).streams = { r with next := r.next + 1 } :: rest ∧
        (t.core r.core).scratch.readBytes lo r.rl = (s.core r.core).scratch.readBytes oo r.rl ∧
        (t.core r.core).scratch.readNat k 4 = ((s.core r.core).scratch.readNat k 4 + 1) % 2 ^ 32 ∧
        ∀ y, y < lo ∨ lo + r.rl ≤ y → y < k ∨ k + 4 ≤ y →
          (t.core r.core).scratch.read y = (s.core r.core).scratch.read y) ∧
    (r.n ≤ r.next → exec (.streamerRow die) s = .next s) ∧
    (r.next < r.n → exec (.streamerComplete die) s = .next s) ∧
    (r.n ≤ r.next → r.tag = none → r.skipped = none → ∃ t, exec (.streamerComplete die) s = .next t ∧
      t = { s with dies := t.dies } ∧ t.die die = { s.die die with streams := rest }) ∧
    (∀ e, r.n ≤ r.next → r.tag = none → r.skipped = some e → s.stillRuns r.core r.slot r.taskix = true →
      ∃ t, exec (.streamerComplete die) s = .next t ∧ t.die die = { s.die die with streams := rest } ∧
        (∀ j, j ≠ tidOf r.core r.slot → t.thread j = s.thread j) ∧
        t.thread (tidOf r.core r.slot) = withFault (s.thread (tidOf r.core r.slot)) e.code e.sub e.eval r.pc r.order r.handler))

/-- R285–R289. -/
def Obligations.TilePumpsFeedTheirQueues : Prop :=
  (∀ (s : State) (d a b : Reg) (v q n m : Nat) (x : Core) (p : Pump), v = (s.rd a).toNat → x = s.core s.myCore →
    (hq : q < 8) → q = v % 8 → p = x.pumps[q] →
    let at_ (k : Nat) : Word := BitVec.ofNat 64 (p.qring.toNat % 2 ^ 20 +
      64 * (p.qring.toNat / 2 ^ 20 % 2 ^ 12) * (k % (p.qring.toNat / 2 ^ 32 % 2 ^ 8 + 1)))
    let gives (i : Instr) (y : Pump) (w : Word) : Prop := ∃ t, exec i s = .next t ∧
      t = { s with threads := t.threads, cores := t.cores, dies := t.dies } ∧
      (∀ k, k ≠ s.cur → t.thread k = s.thread k) ∧ (∀ k, k ≠ s.myCore → t.core k = s.core k) ∧
      t.core s.myCore = { x with pumps := x.pumps.set q y } ∧ (∀ e, e ≠ s.myDie → t.die e = s.die e) ∧
      t.die s.myDie = { s.die s.myDie with rdcEpoch := (s.die s.myDie).rdcEpoch + 1 } ∧ Writes s.me t.me d w ∧
      t.me = { s.me with pc := s.me.pc + 4, regs := t.me.regs, badRegs := t.me.badRegs
                         acqEpoch := (s.die s.myDie).rdcEpoch + 1 }
    (16 ≤ v ∨ 2 ^ 32 ≤ (s.rd b).toNat ∨ p.en = false ∨ p.slot ≠ s.cur % 4 → TaskAlone s →
      Traps (.qpop d a b) s 0x01 4 (irWord s) ∧ Traps (.qpush d a b) s 0x01 4 (irWord s)) ∧
    (v < 16 → (s.rd b).toNat < 2 ^ 32 → p.en = true → p.slot = s.cur % 4 →
      (p.role = true → TaskAlone s → Traps (.qpop d a b) s 0x01 4 (irWord s)) ∧
      (p.role = false → TaskAlone s → Traps (.qpush d a b) s 0x01 4 (irWord s)) ∧
      (p.fail = true → TaskAlone s → ∀ e, e = BitVec.ofNat 64 (q + p.role.toNat * 8 + p.p % 2 ^ 24 * 2 ^ 8 +
          p.c % 2 ^ 24 * 2 ^ 32) →
        (p.role = false → Traps (.qpop d a b) s 0x08 2 e) ∧ (p.role = true → Traps (.qpush d a b) s 0x08 2 e)) ∧
      (p.fail = false → ¬ Drained s → (p.role = false → exec (.qpop d a b) s = .next { s with stalled := true }) ∧
        (p.role = true → exec (.qpush d a b) s = .next { s with stalled := true })) ∧
      (p.fail = false → Drained s → (s.die s.myDie).rdcEpoch ≠ BitVec.allOnes 32 →
        (p.role = false → n = p.c + p.held.toNat →
          (8 ≤ v → gives (.qpop d a b) { p with c := n, held := false } 0) ∧
          (v < 8 → n = p.nt → gives (.qpop d a b) { p with c := n, held := false } (BitVec.allOnes 64)) ∧
          (v < 8 → n ≠ p.nt → n < p.p → gives (.qpop d a b) { p with c := n, held := true } (at_ n)) ∧
          (v < 8 → n ≠ p.nt → p.p ≤ n → Parks (.qpop d a b) s (.qpop q (s.me.code d) (s.rd b).toNat 0))) ∧
        (p.role = true → m = p.p + p.held.toNat →
          (8 ≤ v → gives (.qpush d a b) { p with p := m, held := false } 0) ∧
          (v < 8 → m = p.nt → gives (.qpush d a b) { p with p := m, held := false } (BitVec.allOnes 64)) ∧
          (v < 8 → m ≠ p.nt → m - p.c < p.qring.toNat / 2 ^ 32 % 2 ^ 8 + 1 →
            gives (.qpush d a b) { p with p := m, held := true } (at_ m)) ∧
          (v < 8 → m ≠ p.nt → p.qring.toNat / 2 ^ 32 % 2 ^ 8 + 1 ≤ m - p.c →
            Parks (.qpush d a b) s (.qpush q (s.me.code d) (s.rd b).toNat 0)))))) ∧
  (∀ (s : State) (core slot q code limit used tid : Nat), tid = tidOf core slot → q < 8 →
    (limit = 0 ∨ used < limit → (s.thread tid).waits = some (.qpop q code limit used) ∨
      (s.thread tid).waits = some (.qpush q code limit used) → exec (.queueWaitTimeout core slot) s = .next s) ∧
    (limit ≠ 0 → limit ≤ used → (s.die (dieOf core)).pwrState = 0 → (s.thread tid).mode = false → (s.thread tid).gang = false →
      ((s.thread tid).waits = some (.qpop q code limit used) →
        TrapsThread (.queueWaitTimeout core slot) s tid 0x08 0 ((s.pump core q).eval q)) ∧
      ((s.thread tid).waits = some (.qpush q code limit used) →
        TrapsThread (.queueWaitTimeout core slot) s tid 0x08 1 ((s.pump core q).eval q)))) ∧
  (∀ (s : State) (core slot q : Nat) (v : Word) (p : Pump) (x : Core), slot < 4 → (hq : q < 8) → x = s.core core →
    p = x.pumps[q] → MayStore s (.thread core slot) (queueReg core q 0x18) →
    let sets (i : Instr) (y : Pump) : Prop := ∃ t, exec i s = .next t ∧ t = { s with cores := t.cores } ∧
      (∀ k, k ≠ core → t.core k = s.core k) ∧ t.core core = { x with pumps := x.pumps.set q y }
    (p.en = false → 0 < p.rows → 0 < p.rlen → p.rows * p.rlen ≤ p.sl → 0 < v.toNat % 2 ^ 32 → 2 ≤ p.ns →
      p.rb + 64 * p.sl * p.ns ≤ 0x60000 → p.rb % 64 = 0 → p.qaddr.toNat < 2 ^ 57 → p.qaddr.toNat % 64 = 0 →
      sets (.queueSubscribe core slot q v) { p with
        en := true, role := v.getLsbD 62, fail := false, slot := slot, nt := v.toNat % 2 ^ 32, p := 0, c := 0, held := false
        fpc := (s.thread (tidOf core slot)).pc, taskix := (s.thread (tidOf core slot)).taskix, run := (s.thread (tidOf core slot)).run, order := s.order
        handler := (s.thread (tidOf core slot)).mode, paused := false, reqs := [], ending := [] }) ∧
    (p.en = true ∨ v.toNat % 2 ^ 32 = 0 ∨ p.ns < 2 → ∃ t, exec (.queueSubscribe core slot q v) s = .next t ∧
      t.cores = s.cores ∧ t.thread (tidOf core slot) = withFault (s.thread (tidOf core slot)) 0x05 1
        (queueReg core q 0x18) (s.thread (tidOf core slot)).pc s.order (s.thread (tidOf core slot)).mode) ∧
    (p.en = false → sets (.queueUnsubscribe core slot q v) { p with role := v.getLsbD 62, nt := v.toNat % 2 ^ 32 }) ∧
    (p.en = true → p.reqs = [] → p.fail = true ∨ p.role = false ∨ p.c = p.p →
      sets (.queueUnsubscribe core slot q v) { p with
        en := false, role := v.getLsbD 62, nt := v.toNat % 2 ^ 32, fail := false, ending := [] }) ∧
    (p.en = true → p.fail = false → p.role = true → p.c ≠ p.p → ∃ t, exec (.queueUnsubscribe core slot q v) s = .next t ∧
      t.core core = { x with pumps := x.pumps.set q { p with
        ending := p.ending ++ [(some (tidOf core slot, s.nextId), v &&& ~~~(1#64 <<< 63))] } } ∧
      t.thread (tidOf core slot) = { s.thread (tidOf core slot) with
        unacked := (s.thread (tidOf core slot)).unacked ++ [(s.nextId, (s.thread (tidOf core slot)).mode)] })) ∧
  (∀ (s : State) (core q n pa key slotOff tid : Nat) (p : Pump) (va : Word), (hq : q < 8) → p = (s.core core).pumps[q] →
    (s.die (dieOf core)).pwrState = 0 → p.en = true → p.fail = false → p.paused = false → p.reqs = [] → p.ending = [] → p.rows = 1 → n = 64 * p.rlen →
    tid = tidOf core p.slot → p.slot < 4 → NoneParked s → ScratchClear s core → s.guarded tid va n = false →
    (∀ a k, s.watched (some core) a k = false) → Serves s key pa n → slotOff + n ≤ 0x60000 →
    (p.role = false → p.nt ≤ p.p ∨ p.ns ≤ p.p - p.c → exec (.pumpLoadTile core q) s = .next s) ∧
    (p.role = false → p.p < p.nt → p.p - p.c < p.ns → va = p.rowAt p.p 0 → slotOff = p.slotAt p.p →
      s.runPieces tid .load va n = .ok [.here { start := 0, len := n, core := none, addr := pa, key := key }] →
      ∃ t, exec (.pumpLoadTile core q) s = .next t ∧ t.threads = s.threads ∧
        PutsCore s t core slotOff (s.mem.readBytes pa n) ∧ t.pump core q = { p with p := p.p + 1 }) ∧
    (p.role = true → p.p ≤ p.c → exec (.pumpStoreTile core q) s = .next s) ∧
    (p.role = true → p.c < p.p → va = p.rowAt p.c 0 → slotOff = p.slotAt p.c →
      s.runPieces tid .store va n = .ok [.here { start := 0, len := n, core := none, addr := pa, key := key }] →
      ∃ t, exec (.pumpStoreTile core q) s = .next t ∧ t.threads = s.threads ∧
        PutsBytes s t pa ((s.core core).scratch.readBytes slotOff n) ∧ t.pump core q = { p with c := p.c + 1 }))

/-- R132, R378, R382, R397–R400. -/
def Obligations.FabricInstructionsStartOperations : Prop :=
  (∀ (s : State) (d a b : Reg) (L : BitVec 4) (v len peer hdl off q : Nat) (ra va : Word) (isGet : Bool) (i : Instr),
    (isGet = false ∧ i = .put d a b L ∧ ra = s.rd a ∧ va = s.rd b ∨ isGet = true ∧ i = .get d a b L ∧ ra = s.rd b ∧ va = s.rd a) →
    v = (s.rd d).toNat → len = v % 2 ^ 32 → peer = ra.toNat / 2 ^ 52 → hdl = ra.toNat / 2 ^ 40 % 2 ^ 12 →
    off = ra.toNat % 2 ^ 40 → q = s.partOf s.cur →
    let good := v < 2 ^ 54 ∧ v / 2 ^ 39 % 2 = 0 ∧ 0 < len ∧ len ≤ 0x80000000
    let tag : Option Nat := if v / 2 ^ 38 % 2 = 1 then some (v / 2 ^ 32 % 2 ^ 6) else none
    (¬ good → TaskAlone s → Traps i s 0x01 4 (irWord s)) ∧
    (good → peer = s.pkg.peer.toNat ∨ hdl = 0xFFF → TaskAlone s → Traps i s 0x01 4 (irWord s)) ∧
    (∀ l, good → peer ≠ s.pkg.peer.toNat → hdl ≠ 0xFFF →
      s.rangeSpans s.cur (if isGet then .store else .load) va len = .ok l →
      (s.hasRoute q peer = false → L = 0 → TaskAlone s → Traps i s 0x10 5 ra) ∧
      (s.hasRoute q peer = false → L ≠ 0 → FaultsLate i s L [] 0x10 5 ra) ∧
      (s.hasRoute q peer = true →
        (∀ g, (h : g < 64) → tag = some g → 4095 ≤ (s.core s.myCore).tagCount[g] →
          exec i s = .next { s with stalled := true }) ∧
        ((∀ g, (h : g < 64) → tag = some g → (s.core s.myCore).tagCount[g] < 4095) →
          let o : RemoteOp := {
            id := s.nextId + 1, kind := .put, owner := .thread s.cur s.nextId, part := q, peer := peer, core := s.myCore
            hdl := hdl, off := off, len := len, nar := decide (v / 2 ^ 53 % 2 = 1), tcm := s.me.tcm, tag := tag
            ctr := if v / 2 ^ 52 % 2 = 1 then some (v / 2 ^ 40 % 2 ^ 12) else none, x := va, spans := l
            count := (len + 255) / 256, deadline := s.gtime.toNat + s.fab.fto * 1000, pc := s.me.pc, order := s.order }
          (isGet = false → StartsOp i s L [] o) ∧
          (isGet = true → (∀ r ∈ s.fab.ops, r.part = q → r.peer = peer → r.kind ≠ .get) →
            StartsOp i s L [] { o with
              kind := .get, y := 0, count := 1
              flits := [{ typ := 0x02, nar := o.nar, hdl := hdl, off := off, len := 4
                          payload := leBytes 4 len ++ leBytes 1 0 }] }))))) ∧
  (∀ (s : State) (d a b : Reg) (L : BitVec 4) (ra : Word) (peer hdl off q : Nat), ra = s.rd a → peer = ra.toNat / 2 ^ 52 →
    hdl = ra.toNat / 2 ^ 40 % 2 ^ 12 → off = ra.toNat % 2 ^ 40 → q = s.partOf s.cur →
    ∀ i kind f, (i, kind, f) ∈ [(Instr.radd d a b L, OpKind.radd,
          ({ typ := 0x04, len := 7, hdl := hdl, off := off, payload := leBytes 8 (s.rd b).toNat } : Flit)),
        (Instr.rcas d a b L, OpKind.rcas,
          ({ typ := 0x05, len := 15, hdl := hdl, off := off
             payload := leBytes 8 (s.rd d).toNat ++ leBytes 8 (s.rd b).toNat } : Flit))] →
      (peer = s.pkg.peer.toNat ∨ hdl = 0xFFF → TaskAlone s → Traps i s 0x01 4 (irWord s)) ∧
      (peer ≠ s.pkg.peer.toNat → hdl ≠ 0xFFF →
        (off % 8 ≠ 0 → TaskAlone s → Traps i s 0x03 0 ra) ∧
        (off % 8 = 0 → s.hasRoute q peer = false → L = 0 → TaskAlone s → Traps i s 0x10 5 ra) ∧
        (off % 8 = 0 → s.hasRoute q peer = false → L ≠ 0 → FaultsLate i s L [s.me.code d] 0x10 5 ra) ∧
        (off % 8 = 0 → s.hasRoute q peer = true → StartsOp i s L [s.me.code d]
          { id := s.nextId + 1, kind := kind, owner := .thread s.cur s.nextId, part := q, peer := peer, core := s.myCore
            hdl := hdl, off := off, len := 8, d := s.me.code d, flits := [f], count := 1
            deadline := s.gtime.toNat + s.fab.fto * 1000, pc := s.me.pc, order := s.order }))) ∧
  (∀ (s : State) (d a b : Reg) (x q v n : Nat), x = (s.rd a).toNat → q = s.partOf s.cur → v = (s.rd b).toNat → n = v % 2 ^ 6 →
    let mine (p k : Nat) : Bool := decide (((s.port p).slot k).lease = some (q, x))
    let is (l : Light) (p k : Nat) : Bool := decide (((s.port p).slot k).light = l)
    let held := countWaves (fun p k => mine p k && (is .training p k || is .lit p k))
    let shape := 2 ^ 17 ≤ v ∨ v / 2 ^ 14 % 4 ≠ 0 ∨ v / 2 ^ 6 % 4 ≠ 0 ∨ 32 < n ∨ n < v / 2 ^ 8 % 2 ^ 6
    let job (rel : Bool) : LeaseJob := if rel then
        { tid := some s.cur, entry := none, part := q, peer := x, rel := true, n := v, min := 0, nt := true }
      else { tid := some s.cur, entry := none, part := q, peer := x, rel := false, n := n, min := v / 2 ^ 8 % 2 ^ 6
             nt := decide (v / 2 ^ 16 % 2 = 1) }
    let waits (i : Instr) (j : LeaseJob) : Prop := ∃ t, exec i s = .next t ∧
      t = { s with threads := t.threads, order := s.order + 1, fab := { s.fab with jobs := s.fab.jobs ++ [j] } } ∧
      (∀ k, k ≠ s.cur → t.thread k = s.thread k) ∧
      t.me = { s.me with life := .parked, wait := some (.lease x (s.me.code d)), parkedAt := s.order }
    let ends (i : Instr) (w : Word) : Prop := ∃ t, exec i s = .next t ∧
      t = { s with threads := t.threads, order := s.order + 1 } ∧ (∀ k, k ≠ s.cur → t.thread k = s.thread k) ∧
      Writes s.me t.me d w ∧ t.me = { s.me with
        pc := s.me.pc + 4, life := .ready, wait := none, parkedAt := s.order, regs := t.me.regs, badRegs := t.me.badRegs }
    (2 ^ 12 ≤ x ∨ x = s.pkg.peer.toNat → TaskAlone s → Traps (.lqry d a) s 0x01 4 (irWord s) ∧
      Traps (.lease d a b) s 0x01 4 (irWord s) ∧ Traps (.lrel d a b) s 0x01 4 (irWord s)) ∧
    (x < 2 ^ 12 → x ≠ s.pkg.peer.toNat →
      Gives (.lqry d a) s 4 d (BitVec.ofNat 64 (held + countWaves (fun p k => mine p k && is .draining p k) * 2 ^ 8 +
        countWaves (fun p k => mine p k && is .lost p k) * 2 ^ 16 +
        countWaves (fun p k => ((s.port p).slot k).base && decide ((s.port p).reaches k = some x) && is .lit p k) * 2 ^ 24 +
        (if s.hasRoute q x = true ∧ (s.paths q x).2 = true then 2 ^ 32 else 0))) ∧
      (shape → TaskAlone s → Traps (.lease d a b) s 0x01 4 (irWord s)) ∧
      (32 < v → TaskAlone s → Traps (.lrel d a b) s 0x01 4 (irWord s)) ∧
      (∀ j0 r, s.fab.jobs = j0 :: r → j0.begun = true → j0.phase = 1 →
        (¬ shape → waits (.lease d a b) (job false)) ∧ (v ≤ 32 → waits (.lrel d a b) (job true))) ∧
      (s.fab.jobs = [] → s.fab.laneRequests = [] → s.savedWait s.cur = none →
        (¬ shape → n = held → ends (.lease d a b) (BitVec.ofNat 64 n)) ∧
        (v ≤ 32 → (∀ p k, mine p k = false) → ends (.lrel d a b) 0))))

/-- R374–R376, R379–R382, R391, R407. The payload of LCTL flits and the release are the model's (DESIGN CHOICE, log 6), as is
the request that waits for a victim (DESIGN CHOICE, log 60); what a write of PLIT to an enabled port leaves, and the relit
base wavelength (DEDUCED, log 34); what a sender that knows of its loss does with a notice (DEDUCED, log 40). -/
def Obligations.WavelengthsFollowTheLight : Prop :=
  (∀ (s : State) (who : Who) (p : Nat) (v : Word) (x : Port), p < 32 → x = s.port p → MayStore s who (plitReg p) →
    s.fab.jobs = [] → s.fab.laneRequests = [] →
    let base := v.extractLsb' 32 16
    let pos := v.toNat / 2 ^ 48 % 16
    (∀ fn, who = .host fn → x.en = false → base.getLsbD 0 = false → ((List.range 16).filter base.getLsbD).length ≤ 8 →
      x.peerAt pos = some s.pkg.peer.toNat → ∃ t, exec (.portEnable who p v) s = .next t ∧ t.threads = s.threads ∧
        (∀ k, k ≠ p → t.port k = s.port k) ∧
        t.port p = { x with en := true, pos := pos, base := base, tx := (t.port p).tx } ∧
        ∀ k, k < 16 → (t.port p).slot k = if base.getLsbD k then
          { light := if x.txf.getLsbD k then .lost else .lit, base := true, since := s.clock } else x.slot k) ∧
    (∀ fn, who = .host fn → x.en = true → ∃ t, exec (.portDisable who p v) s = .next t ∧ t.threads = s.threads ∧
        (∀ k, k ≠ p → t.port k = s.port k) ∧ t.port p = { x with en := false, tx := (t.port p).tx } ∧
        ∀ k, k < 16 → (t.port p).slot k = if (x.slot k).light = .lit ∨ (x.slot k).light = .training then
          { x.slot k with light := .draining, since := s.clock } else x.slot k) ∧
    (∀ core slot, who = .thread core slot → ∀ i, i ∈ [Instr.portEnable who p v, Instr.portDisable who p v] →
      ∃ t, exec i s = .next t ∧ t.fab = s.fab ∧ t.thread (tidOf core slot) =
        withFault (s.thread (tidOf core slot)) 0x05 1 (plitReg p) (s.thread (tidOf core slot)).pc s.order (s.thread (tidOf core slot)).mode)) ∧
  (∀ (s : State) (p k : Nat) (x : TxSlot), p < 32 → k < 16 → x = (s.port p).slot k → s.fab.jobs = [] → s.fab.laneRequests = [] →
    let becomes (i : Instr) (y : TxSlot) : Prop := ∃ t, exec i s = .next t ∧ (t.port p).slot k = y ∧
      t.threads = s.threads ∧ t.mem = s.mem ∧ ∀ a b, (a, b) ≠ (p, k) → (t.port a).slot b = (s.port a).slot b
    let busy := ∃ c ∈ s.fab.conns.cells, ∃ o ∈ c.2.sent, o.flit.port = p ∧ o.flit.wave = k ∧ ∀ g ∈ c.2.again, g.flit.seq ≠ o.flit.seq
    (x.light ≠ .training ∨ s.clock < x.since + 1200 ∨ x.since + 4800 ≤ s.clock →
      exec (.wavelengthLock p k) s = .next s) ∧
    (x.light = .training → x.since + 1200 ≤ s.clock → s.clock < x.since + 4800 →
      becomes (.wavelengthLock p k) { x with light := .lit, since := s.clock }) ∧
    (x.light ≠ .training ∨ s.clock < x.since + 4800 → exec (.trainingTimeout p k) s = .next s) ∧
    (x.light = .training → x.since + 4800 ≤ s.clock → becomes (.trainingTimeout p k) { since := s.clock }) ∧
    (x.light ≠ .draining ∨ busy ∧ s.clock < x.since + 24000 → exec (.wavelengthDrained p k) s = .next s) ∧
    (x.light = .draining → ¬ busy ∨ x.since + 24000 ≤ s.clock →
      becomes (.wavelengthDrained p k) { since := s.clock }) ∧
    (∀ (f : Flit) (q : Nat), q < 4 → (s.port p).reaches k = some f.src →
      (Says s f useRevocation p k q → x.light = .lit ∨ x.light = .training → x.base = false → x.lease = some (q, f.src) →
        becomes (.lctlRevocation f) { x with light := .draining, since := s.clock }) ∧
      (Says s f useLoss p k q → x.light = .lit ∨ x.light = .training ∨ x.light = .draining →
        becomes (.lctlLossNotice f) { x with light := .lost, since := s.clock }) ∧
      (Says s f useLoss p k q → x.light = .dark ∨ x.light = .lost → exec (.lctlLossNotice f) s = .next s))) ∧
  (∀ (s : State) (m : Nat), s.fab.jobs = [] → s.fab.laneRequests = [] → m < 16 →
    let fed (p k : Nat) : Prop := p < 32 ∧ k < 16 ∧ p / 8 = m / 4 ∧ k / 4 = m % 4
    ((∀ p k, fed p k → (s.port p).txf.getLsbD k = true) → exec (.laserFeedFailure m) s = .next s) ∧
    ((∃ p k, fed p k ∧ (s.port p).txf.getLsbD k = false) → ∃ t, exec (.laserFeedFailure m) s = .next t ∧
      t.threads = s.threads ∧ ∀ p k, p < 32 → k < 16 →
        (fed p k → (t.port p).txf.getLsbD k = true ∧ ((t.port p).slot k).light =
          (if ((s.port p).slot k).light = .dark then .dark else .lost)) ∧
        (¬ fed p k → (t.port p).txf.getLsbD k = (s.port p).txf.getLsbD k ∧ (t.port p).slot k = (s.port p).slot k)) ∧
    ((∀ p k, fed p k → (s.port p).txf.getLsbD k = false ∧ ((s.port p).slot k).light ≠ .lost) →
      exec (.lightRestored m) s = .next s) ∧
    ((∃ p k, fed p k ∧ (s.port p).txf.getLsbD k = true) → ∃ t, exec (.lightRestored m) s = .next t ∧
      t.threads = s.threads ∧ ∀ p k, p < 32 → k < 16 →
        (fed p k → (t.port p).txf.getLsbD k = false ∧ (t.port p).slot k =
          (if ((s.port p).slot k).light ≠ .lost then (s.port p).slot k
           else if (s.port p).en = true ∧ (s.port p).base.getLsbD k = true ∧ ((s.port p).slot k).base = true then
             { light := .lit, base := true, since := s.clock }
           else { since := s.clock })) ∧
        (¬ fed p k → (t.port p).txf.getLsbD k = (s.port p).txf.getLsbD k ∧ (t.port p).slot k = (s.port p).slot k))) ∧
  (∀ (s : State) (p k : Nat) (r : RxLane), p < 32 → k < 16 → r = (s.port p).lane k →
    (r.assigned = false ∨ r.los = true → exec (.lossOfLight p k) s = .next s) ∧
    (r.assigned = true → r.los = false → ∃ t, exec (.lossOfLight p k) s = .next t ∧ (t.port p).lane k = { r with los := true, losAt := s.clock } ∧
      t.threads = s.threads ∧ ∀ a b, (a, b) ≠ (p, k) → (t.port a).lane b = (s.port a).lane b) ∧
    (r.los = false → exec (.lightRestored (16 + 16 * p + k)) s = .next s) ∧
    (r.los = true → ∃ t, exec (.lightRestored (16 + 16 * p + k)) s = .next t ∧ (t.port p).lane k = { r with los := false } ∧
      t.threads = s.threads)) ∧
  (∀ (s : State) (f : Flit) (p k q : Nat) (r : RxLane), p < 32 → k < 16 → q < 4 → r = (s.port p).lane k →
    let lanes (i : Instr) (g : Nat → RxLane) : Prop := ∃ t, exec i s = .next t ∧ t.threads = s.threads ∧ t.mem = s.mem ∧
      (∀ a b, a < 32 → b < 16 → (t.port a).lane b = if a = p then g b else (s.port a).lane b) ∧ t.fab.laneRequests = []
    let only (y : RxLane) (b : Nat) : RxLane := if b = k then y else (s.port p).lane b
    let given : RxLane := { r with assigned := true, lease := some (q, f.src), los := false, revoked := false, heir := none }
    let mine := (s.port p).en = true ∧ (s.port p).hears k = some f.src
    (∀ j l, s.fab.jobs = j :: l → j.begun = true → j.phase = 1 → Says s f useRequest p k q →
      exec (.lctlLaneRequest f) s = .next { s with fab := { s.fab with laneRequests := s.fab.laneRequests ++ [f] } }) ∧
    (s.fab.jobs = [] → s.fab.laneRequests = [] → Says s f useRequest p k q → mine →
      (r.assigned = false → (s.port p).rxHeld < 8 → lanes (.lctlLaneRequest f) (only given)) ∧
      (r.assigned = false → 8 ≤ (s.port p).rxHeld → (∀ v, s.rxVictim p q f.src = some v →
        lanes (.lctlLaneRequest f) (fun b => if b = v then { (s.port p).lane v with revoked := true, heir := none }
          else (s.port p).lane b)) ∧
        (s.rxVictim p q f.src = none → lanes (.lctlLaneRequest f) (s.port p).lane)) ∧
      (∀ z y, r.assigned = true → r.lease = some (z, y) → r.revoked = false → (z, y) ≠ (q, f.src) →
        (s.revocable z (s.rxHeldBy z y) q (s.rxHeldBy q f.src) = true →
          lanes (.lctlLaneRequest f) (only { r with revoked := true, heir := some (q, f.src) })) ∧
        (s.revocable z (s.rxHeldBy z y) q (s.rxHeldBy q f.src) = false →
          lanes (.lctlLaneRequest f) (s.port p).lane)) ∧
      (r.assigned = true → r.lease = none → lanes (.lctlLaneRequest f) (s.port p).lane)) ∧
    (s.fab.laneRequests = [] → s.fab.laneWaits = [] → Says s f useRelease p k q → mine → r.lease = some (q, f.src) →
      (∀ z y, r.heir = some (z, y) → lanes (.lctlRevocation f)
        (only { r with assigned := true, lease := some (z, y), los := false, revoked := false, heir := none })) ∧
      (r.heir = none → lanes (.lctlRevocation f)
        (only { r with assigned := false, lease := none, los := false, revoked := false }))) ∧
    (s.fab.jobs = [] → Says s f useRefusal p k q → exec (.lctlGrant f) s = .next s) ∧
    (s.fab.jobs = [] → s.fab.laneRequests = [] → Says s f useGrant p k q → lanes (.lctlGrant f) (s.port p).lane) ∧
    (∀ j, s.fab.jobs = [j] → j.begun = true → j.phase = 1 → j.victim = none → j.port = p → j.wave = k → j.part = q →
      f.src = j.peer → (∀ a, p < a → a < 32 → (s.port a).en = false) → ((s.port p).slot k).light = .dark →
      (s.port p).txf.getLsbD k = false → Says s f useGrant p k q →
      ∃ t, exec (.lctlGrant f) s = .next t ∧ t.threads = s.threads ∧
        (t.port p).slot k = { light := .training, lease := some (j.part, j.peer), since := s.clock } ∧
        t.fab.jobs = [{ j with answered := j.answered + 1, port := 32, phase := 3, lit := j.lit ++ [(p, k)] }])) ∧
  (∀ (s : State) (j : LeaseJob) (r : List LeaseJob), s.fab.jobs = j :: r →
    (j.begun = false ∨ j.phase ≠ 1 ∨ s.clock < j.since + s.fab.fto * 2400 →
      exec .laneRequestTimeout s = .next s) ∧
    (∀ p i k u, j.begun = true → j.phase = 1 → j.since + s.fab.fto * 2400 ≤ s.clock → p = j.port + 1 → p < 32 →
      (s.port p).en = true → i < 16 → i ≠ (s.port p).pos → (s.port p).peerAt i = some j.peer →
      (∀ a, a < i → a = (s.port p).pos ∨ (s.port p).peerAt a ≠ some j.peer) → k = (i + 16 - (s.port p).pos) % 16 →
      (s.port p).slot k = { since := ((s.port p).slot k).since } → (s.port p).base.getLsbD k = false →
      (s.port p).txf.getLsbD k = false → s.heldBy j.part j.peer < j.n → s.heldAll j.part < s.qmaxOf j.part →
      (s.port p).txHeld < 8 → s.sendPair j.peer (lctl useRequest j.part p k) = some u →
      ∃ t, exec .laneRequestTimeout s = .next t ∧ t.threads = s.threads ∧ t.fab.ports = s.fab.ports ∧ t.wire = u.wire ∧
        t.fab.jobs = { j with
          port := p, wave := k, victim := none, since := s.clock, plane := true, asked := j.asked + 1 } :: r) ∧
    (∀ tid d, r = [] → j.begun = true → j.phase = 1 → j.since + s.fab.fto * 2400 ≤ s.clock →
      (∀ p, j.port < p → p < 32 → (s.port p).en = false) → j.lit = [] →
      s.fab.laneRequests = [] → j.tid = some tid → j.rel = false → j.min = 0 → j.revoked < 64 →
      (s.thread tid).waits = some (.lease j.peer d) → s.savedWait tid = none → s.heldBy j.part j.peer < 64 →
      ∃ t, exec .laneRequestTimeout s = .next t ∧ t.fab = { s.fab with jobs := [] } ∧
        (∀ k, k ≠ tid → t.thread k = s.thread k) ∧ (t.thread tid).life = .ready ∧ (t.thread tid).wait = none ∧
        (t.thread tid).pc = (s.thread tid).pc + 4 ∧ (d < 108 → d ≠ 96 → (t.thread tid).readCode d =
          BitVec.ofNat 64 (s.heldBy j.part j.peer + j.revoked * 2 ^ 16))))

/-- R28, R31, R129, R144, R145. The areas of a save and a restore, and what is kept beside them, are the model's (DESIGN
CHOICE, log 28). -/
def Obligations.ContextsAreSavedAndRestored : Prop :=
  (∀ (s : State) (who : Who) (core : Nat) (v : Word) (x : Core), x = s.core core →
    MayStore s who (coreReg core 0x10) → whoIsThread who = false →
    let m := v.extractLsb' 0 4
    let area := v &&& ~~~0xFFF
    let sets (i : Instr) (y : Core) : Prop := ∃ t, exec i s = .next t ∧ t.threads = s.threads ∧ t.core core = y ∧
      ∀ k, k ≠ core → t.core k = s.core k
    (m = 0 → x.preBusy = false →
      sets (.preemptSave who core v) { x with preSave := area, preRestore := false, preSlots := 0 } ∧
      sets (.preemptRestore who core v) { x with preSave := area, preRestore := true, preSlots := 0 }) ∧
    (m ≠ 0 → x.preBusy = true → sets (.preemptSave who core v) x ∧ sets (.preemptRestore who core v) x) ∧
    (m ≠ 0 → x.preBusy = false → (∀ k < 4, (s.thread (tidOf core k)).gang = false) →
      (∀ q, (h : q < 8) → x.pumps[q].en = false) → x.mq = [] → PlainArea s area.toNat →
      ∃ t, exec (.preemptSave who core v) s = .next t ∧ t.threads = s.threads ∧ t.core core = { x with preSave := area, preRestore := false, preSlots := m, preBusy := true } ∧
        t.mem.readNat (area.toNat + 0x1028) 8 = 0 ∧
        ∀ a, a < area.toNat + 0x1028 ∨ area.toNat + 0x1030 ≤ a → t.mem.read a = s.mem.read a) ∧
    (m ≠ 0 → x.preBusy = false →
      (s.homeNat (area.toNat + 0x1028) 8 = 0 → (∀ k < 4, m.getLsbD k = true → (s.thread (tidOf core k)).life = .free ∨ (s.thread (tidOf core k)).life = .suspended) →
        sets (.preemptRestore who core v) { x with preSave := area, preRestore := true, preSlots := m, preBusy := true }) ∧
      (∀ k < 4, m.getLsbD k = true → (s.thread (tidOf core k)).life = .ready → sets (.preemptRestore who core v) x))) ∧
  (∀ (s : State) (core slot c2 : Nat) (v : Word), ∀ i, i ∈ [Instr.preemptSave (.thread core slot) c2 v,
      Instr.preemptRestore (.thread core slot) c2 v] → MayStore s (.thread core slot) (coreReg c2 0x10) →
    ∃ t, exec i s = .next t ∧ t.cores = s.cores ∧ t.thread (tidOf core slot) =
      withFault (s.thread (tidOf core slot)) 0x05 1 (coreReg c2 0x10) (s.thread (tidOf core slot)).pc s.order (s.thread (tidOf core slot)).mode) ∧
  (∀ (s : State) (core k tid a : Nat) (x : Core) (y : Thread), x = s.core core → tid = tidOf core k → y = s.thread tid →
    a = x.preSave.toNat →
    (x.preBusy = false ∨ x.preRestore = true → exec (.preemptSaveComplete core) s = .next s) ∧
    (x.preBusy = false ∨ x.preRestore = false → exec (.preemptRestoreComplete core) s = .next s) ∧
    (k < 4 → x.preBusy = true → x.preRestore = false → x.preSlots = BitVec.ofNat 4 (2 ^ k) → y.life = .ready → y.gang = false →
      (∀ e ∈ x.mq, e.slot ≠ k) → (∀ e ∈ x.recorded, e.slot ≠ k) → (∀ q, (h : q < 8) → x.pumps[q].en = false) →
      y.deferred = [] → y.abort = none → y.weft = [] → PlainArea s a →
      (y.flights = [] → y.unacked = [] → s.reqs = [] → ∃ t, exec (.preemptSaveComplete core) s = .next t ∧
        (∀ j, j ≠ tid → t.thread j = s.thread j) ∧
        t.thread tid = { y with life := .suspended, savedAt := some a, yielding := false, yieldSet := [] } ∧ (t.core core).preBusy = false ∧
        (∀ o w, (o, w) ∈ [(0x00, y.pc), (0x18, y.epc), (0x20, y.eval), (0x28, y.hvec), (0x30, y.fpc), (0x38, y.wsp),
            (0xA0, y.seed), (0xA8, y.srctr)] → t.mem.readNat (a + 0x400 * k + o) 8 = w.toNat) ∧
        (∀ i < 96, t.mem.readNat (a + 0x400 * k + 0x100 + 8 * i) 8 = (y.readCode i).toNat) ∧
        t.mem.readNat (a + 0x1500 + 0x20 * k) 8 = y.taskix.toNat ∧
        ∀ b, b < a ∨ a + 0x3000 ≤ b → t.mem.read b = s.mem.read b) ∧
      (∀ f ∈ y.flights, f.kind = .memory → ∃ t, exec (.preemptSaveComplete core) s = .next t ∧ t.threads = s.threads ∧
        t.mem = s.mem ∧ (t.core core).preBusy = true)) ∧
    (k < 4 → x.preBusy = true → x.preRestore = true → x.preSlots = BitVec.ofNat 4 (2 ^ k) →
      (∀ j, s.savedFrom a j = none) → PlainArea s a → s.mem.readNat (a + 0x1028) 8 = 0 →
      (∀ i < 4, s.mem.readNat (a + 0x1100 + 0x100 * k + 0x40 * i + 0x18) 4 = 0) →
      (∀ q < 8, s.mem.readNat (a + 0x1600 + 0x40 * q + 0x18) 8 < 2 ^ 63) →
      (s.die (dieOf core)).rdcEpoch ≠ BitVec.allOnes 32 →
      let w (o : Nat) : Word := BitVec.ofNat 64 (s.mem.readNat (a + 0x400 * k + o) 8)
      ∃ t z, exec (.preemptRestoreComplete core) s = .next t ∧ z = t.thread tid ∧ (∀ j, j ≠ tid → t.thread j = s.thread j) ∧
        t.mem = s.mem ∧ (t.core core).preBusy = false ∧ z.life = .ready ∧ z.wait = none ∧ z.gang = false ∧ z.pc = w 0 ∧
        z.mode = (w 8).getLsbD 0 ∧ z.skc = (w 8).extractLsb' 10 3 ∧ z.causeCode = (w 0x10).extractLsb' 0 8 ∧ z.epc = w 0x18 ∧
        z.eval = w 0x20 ∧ z.hvec = w 0x28 ∧ z.fpc = w 0x30 ∧ z.wsp = w 0x38 ∧ z.seed = w 0xA0 ∧ z.srctr = w 0xA8 ∧
        z.taskix = BitVec.ofNat 64 (s.mem.readNat (a + 0x1500 + 0x20 * k) 8) ∧
        (∀ i < 96, z.readCode i = w (0x100 + 8 * i)) ∧ z.acqEpoch = (s.die (dieOf core)).rdcEpoch + 1)) ∧
  (∀ (s : State) (who : Who) (core : Nat) (v : Word), MayStore s who (coreReg core 0) →
    let base := v &&& ~~~0x3FFF
    (whoIsThread who = false → (∀ k < 4, (s.thread (tidOf core k)).life = .free ∨ (s.thread (tidOf core k)).life = .suspended) →
      homeDie base.toNat = some (dieOf core) → ∃ t, exec (.sctxWrite who core v) s = .next t ∧ t.threads = s.threads ∧
        (∀ k, k ≠ core → t.core k = s.core k) ∧
        t.core core = { s.core core with sctxBase := base, sctx := v.extractLsb' 0 8 }) ∧
    (whoIsThread who = false → ((∃ k < 4, (s.thread (tidOf core k)).life = .ready) ∨ homeDie base.toNat ≠ some (dieOf core)) →
      ∃ t, exec (.sctxWrite who core v) s = .next t ∧ t.cores = s.cores ∧ t.threads = s.threads))

/-- R147, R169, R172, R260, R267, R291, R294–R302, R345–R347, R355, R356. When a heartbeat fails, which dies a
link joins and the one table of a die's TLBs are the model's (DESIGN CHOICE, logs 9, 11, 18). -/
def Obligations.DiesTranslateFenceAndRepair : Prop :=
  (∀ (s : State) (d a : Nat) (va : Word) (x : Die), x = s.die d → a = va.toNat % 2 ^ 57 → x.tlb.cells.length < 32768 →
    (x.ptEn = false ∨ (s.tlbHit d a).isSome = true → exec (.pageWalk d va) s = .next s) ∧
    (∀ e n, x.ptEn = true → s.tlbHit d a = none → s.walk d a = .leaf e n → ∃ t, exec (.pageWalk d va) s = .next t ∧
      t = { s with dies := t.dies } ∧ (∀ k, k ≠ d → t.die k = s.die k) ∧
      t.die d = { x with tlb := x.tlb.put (a / 2 ^ n * 64 + n) { entry := BitVec.ofNat 64 e, bits := n } }) ∧
    (x.ptEn = true → s.tlbHit d a = none → s.walk d a = .fault none → exec (.pageWalk d va) s = .next s)) ∧
  (∀ (s : State) (who : Who) (d : Nat) (v : Word) (x : Die), x = s.die d → whoIsThread who = false →
    (MayStore s who (dieReg d 0x18) → x.tlbInv = none → ∃ t, exec (.tlbInvalidate who d v) s = .next t ∧
      t.threads = s.threads ∧ (∀ k, k ≠ d → t.die k = s.die k) ∧ t.die d = { x with tlbInv := some v }) ∧
    (∀ r, MayStore s who (dieReg d 0x18) → x.tlbInv = some r → ∃ t, exec (.tlbInvalidate who d v) s = .next t ∧
      t.threads = s.threads ∧ (∀ k, k ≠ d → t.die k = s.die k) ∧ t.die d = { x with tlbWait := x.tlbWait ++ [v] }) ∧
    (x.tlbInv = none → exec (.tlbInvalidateDone d) s = .next s) ∧
    (∀ r, x.tlbInv = some v → r ∈ s.reqs → dieOf (coreOf r.tid) = d → r.resp = none →
      exec (.tlbInvalidateDone d) s = .next s) ∧
    (∀ o, x.tlbInv = some v → o ∈ s.fab.ops → dieOf o.core = d → o.spans ≠ [] → exec (.tlbInvalidateDone d) s = .next s) ∧
    (x.tlbInv = some v → s.reqs = [] → s.fab.ops = [] → s.trg.groups.cells = [] → v.getLsbD 63 = true → ∃ t, exec (.tlbInvalidateDone d) s = .next t ∧
      t = { s with dies := t.dies } ∧ t.die d = { x with tlbInv := x.tlbWait.head?, tlbWait := x.tlbWait.drop 1, tlb := {} }) ∧
    (∀ i, i = .heartbeatTimeout d ∨ i = .dieFence who d ∧ MayStore s who (dieReg d 0x08) → d < 4 → x.fenced = false →
      (∀ b, s.windowOf b = none) →
      ∃ t, exec i s = .next t ∧ t.threads = s.threads ∧ t.cores = s.cores ∧ (∀ k, k ≠ d → t.die k = s.die k) ∧
        t.die d = { x with fenced := true, answered := false } ∧
        t.clusters = s.clusters ∧ ∀ c, c / 8 = d → t.infinite c = true) ∧
    (x.fenced = true → exec (.heartbeatTimeout d) s = .next s) ∧
    (x.fenced = false ∨ x.answered = true → exec (.fenceResponse d) s = .next s) ∧
    (∀ r tgt, x.fenced = true → x.answered = false → s.reqs = [r] → r.resp = none → r.tgts = [tgt] →
      ∃ t, exec (.fenceResponse d) s = .next t ∧ t.threads = s.threads ∧
        (t.die d).answered = true ∧ (∀ l, tgt = .mem l → t.mem = s.mem ∧ t.die d = { x with answered := true }) ∧
        (∀ l, tgt = .mem l → homeDie l.pa = some d → t.reqs = [{ r with resp := some (.err { code := 0x0D, eval := r.va }) }]) ∧
        (∀ c o, tgt = .scratch c o → dieOf c = d → t.reqs = [{ r with resp := some (.err { code := 0x09, eval := r.va }) }]) ∧
        (∀ l, tgt = .mem l → homeDie l.pa ≠ some d → t.reqs = s.reqs))) ∧
  (∀ (s : State) (c d : Nat) (x : Core) (y : Die), d = dieOf c → x = s.core c → y = s.die d →
    (x.iso = true ∨ x.stopped = false ∧ y.spol.getLsbD 2 = false → exec (.coreIsolate c) s = .next s) ∧
    (x.iso = false → x.stopped = true → y.spol.getLsbD 0 = true → ∃ t, exec (.coreIsolate c) s = .next t ∧
      t.core c = { x with iso := true } ∧ (∀ k, k ≠ c → t.core k = s.core k) ∧ t.threads = s.threads) ∧
    (x.iso = false ∨ y.spol.getLsbD 1 = false ∨ y.spares = 0 → exec (.spareSubstitute c) s = .next s) ∧
    (x.iso = true → y.spol.getLsbD 1 = true → 0 < y.spares → c % 256 / 8 ∉ y.spareUsed →
      (∀ k < 4, (s.thread (tidOf c k)).life = .free) → NoneParked s → ∃ t z, exec (.spareSubstitute c) s = .next t ∧
        z = t.core c ∧ z.iso = false ∧ z.stopped = false ∧ z.subst = true ∧ z.win = Vector.replicate 4 0 ∧
        z.tagReady = BitVec.allOnes 64 ∧ z.chan = Vector.replicate 8 [] ∧ z.spilling = false ∧ t.threads = s.threads ∧
        (t.die d).spares = y.spares - 1 ∧ (t.die d).spareUsed = c % 256 / 8 :: y.spareUsed)) ∧
  (∀ (s : State) (who : Who) (d i : Nat) (v : Word) (h : i < 16) (w : FormatWindow), w = (s.die d).fw[i] →
    MayStore s who (dieReg d (0x20000 + 0x20 * i)) → whoIsThread who = false →
    let enabled : FormatWindow := { w with fwctl := (v ||| 1#64 <<< 63) &&& 0xF1FFFFFFFFFFFF00 }
    let disabled : FormatWindow := { w with fwctl := (v &&& ~~~(1#64 <<< 63)) &&& 0xF1FFFFFFFFFFFF00 }
    let sets (j : Instr) (y : FormatWindow) : Prop := ∃ t, exec j s = .next t ∧ t.threads = s.threads ∧ t.mem = s.mem ∧
      t.die d = { s.die d with fw := (s.die d).fw.set i y }
    (w.fwctl.getLsbD 63 = false → (s.die d).mayEnable d i enabled = true → sets (.formatWindowEnable who d i v) enabled) ∧
    (w.fwctl.getLsbD 63 = false → (s.die d).mayEnable d i enabled = false → sets (.formatWindowEnable who d i v) w) ∧
    (w.fwctl.getLsbD 63 = true → (s.die d).container.cells = [] → sets (.formatWindowDisable who d i v) disabled)) ∧
  (∀ (s : State) (core slot p pa : Nat),
    (pa / 8 * 8 ∉ s.memBad → exec (.softError (.memory pa) true) s = .next { s with memBad := (pa / 8 * 8) :: s.memBad }) ∧
    (p < 108 → p ≠ 96 → p ∉ (s.thread (tidOf core slot)).badRegs → ∃ t,
      exec (.softError (.register core slot p) true) s = .next t ∧ (∀ k, k ≠ tidOf core slot → t.thread k = s.thread k) ∧
      t.thread (tidOf core slot) = { s.thread (tidOf core slot) with badRegs := p :: (s.thread (tidOf core slot)).badRegs }) ∧
    (∃ t, exec (.softError (.coreControl core) true) s = .next t ∧ t.core core = { s.core core with stopped := true } ∧
      t.threads = s.threads) ∧
    (∃ t, exec (.softError (.scratch core pa) false) s = .next t ∧ t = { s with cores := t.cores } ∧
      t.core core = { s.core core with cerr := min ((s.core core).cerr + 1) 0xFFFFFFFF })) ∧
  (∀ (s : State) (l : Nat),
    let dieLink := l < 6 ∨ 8 ≤ l ∧ l < 12
    (¬ dieLink → exec (.laneRepair l) s = .next s ∧ exec (.dieLinkDown l) s = .next s) ∧
    (dieLink → (∃ t, exec (.laneRepair l) s = .next t ∧ t.pkg.spareLanes.get 0 l = s.pkg.spareLanes.get 0 l + 1 ∧
        t.threads = s.threads) ∧
      (∃ t, exec (.linkUp l) s = .next t ∧ t.pkg.linksUp.getLsbD l = true ∧ t.threads = s.threads ∧
        ∀ k, k ≠ l → t.pkg.linksUp.getLsbD k = s.pkg.linksUp.getLsbD k) ∧
      (s.pkg.linksUp.getLsbD l = false → exec (.dieLinkDown l) s = .next s) ∧
      (s.pkg.linksUp.getLsbD l = true → ∃ t, exec (.dieLinkDown l) s = .next t ∧ t.threads = s.threads ∧
        (∀ k, t.pkg.linksUp.getLsbD k = (decide (k ≠ l) && s.pkg.linksUp.getLsbD k)) ∧
        ∀ d < 4, (t.die d).fenced = ((s.die d).fenced || (dieLinks d).all (fun k => decide (k = l) || !s.pkg.linksUp.getLsbD k)))) ∧
    (16 ≤ l → l < 24 → ∃ t, exec (.linkUp l) s = .next t ∧ t.pkg.cxlUp.getLsbD (l - 16) = true ∧ t.threads = s.threads) ∧
    (s.pkg.cxlUp.getLsbD l = false → exec (.cxlPortDown l) s = .next s) ∧
    (l < 8 → s.pkg.cxlUp.getLsbD l = true → ∃ t, exec (.cxlPortDown l) s = .next t ∧ t.threads = s.threads ∧
      ∀ k, t.pkg.cxlUp.getLsbD k = (decide (k ≠ l) && s.pkg.cxlUp.getLsbD k)))

/-- R349, R350, R357, R360, R361, R386. The numbers of reply kinds and the offset of the register window are the model's
(DESIGN CHOICE, log 12), as are what zeroing leaves of a cluster (DEDUCED, log 13) and what a session is needed for (DEDUCED, log 33). -/
def Obligations.HostsReachMemoryAndPartitions : Prop :=
  (∀ (s : State) (fn off size pa q : Nat) (w : Bool) (data : List Byte) (h : fn < 5),
    pa = s.pkg.hmwin[fn].toNat * 2 ^ 36 + off → off < 2 ^ 36 →
    let fits := off % size = 0 ∧ (size ∈ [1, 2, 4, 8] ∨ size = 64 ∧ w = true)
    let answers (n : Nat) : Prop := SetsPackage (.hostMemoryAccess fn w off size data) s { s.pkg with hostStatus := n }
    (¬ fits → answers 1) ∧
    (s.pkg.stage = 0xFF ∨ fn ≠ 0 ∧ (s.part (fn - 1)).tdi = 3 → answers 1) ∧
    (fits → s.pkg.stage ≠ 0xFF → fn = 0 ∧ (s.part q).tdi = 0 ∨ fn = q + 1 ∧ (s.part q).tdi ≠ 3 → Serves s q pa size →
      s.watched none pa size = false →
      (w = false → SetsPackage (.hostMemoryAccess fn w off size data) s
        { s.pkg with hostStatus := 0, hostData := BitVec.ofNat 64 (le s.mem pa size) }) ∧
      (w = true → ∃ t, exec (.hostMemoryAccess fn w off size data) s = .next t ∧
        t = { s with mem := t.mem, pkg := { s.pkg with hostStatus := 0 } } ∧ PutsBytes s t pa (data.take size)))) ∧
  (∀ (s : State) (fn off : Nat) (v : Word), fn < 5 → off < 0x4000000 → off % 8 = 0 →
    exec (.hostMemoryAccess fn true (2 ^ 37 + off) 8 (leBytes 8 v.toNat)) s =
      exec (.registerWrite (.host fn) (pkgReg off) (.double v)) s) ∧
  (∀ (s : State) (fn q : Nat) (v : Word) (h : q < 4) (p : Partition), p = s.pkg.parts[q] → HostMay s fn (0x100 + 8 * q) →
    let dies := v.extractLsb' 0 4
    let free (m : BitVec 4) : Prop := ∀ k, m.getLsbD (dieOf (coreOf k)) = true → (s.thread k).life = .free
    let sets (i : Instr) (x : Partition) : Prop :=
      SetsPackage i s { s.pkg with parts := s.pkg.parts.set q x, hostStatus := 0 }
    let refuses (i : Instr) : Prop := SetsPackage i s { s.pkg with hostStatus := 2 }
    (p.en = false → p.busy = false →
      (dies ≠ 0 → p.tdi = 0 → free dies →
        (∀ r, (hr : r < 4) → r ≠ q → s.pkg.parts[r].en = true → s.pkg.parts[r].dies &&& dies = 0) →
        sets (.partitionCreate (.host fn) q v) { p with en := true, dies := dies, busy := true, work := 1 }) ∧
      (dies = 0 ∨ p.tdi ≠ 0 ∨ ¬ free dies ∨
        (∃ r, ∃ hr : r < 4, r ≠ q ∧ s.pkg.parts[r].en = true ∧ s.pkg.parts[r].dies &&& dies ≠ 0) →
        refuses (.partitionCreate (.host fn) q v))) ∧
    (p.en = true → p.busy = false →
      (p.tdi = 0 → dies = p.dies → free p.dies →
        sets (.partitionDestroy (.host fn) q v) { p with en := false, busy := true, work := 2 }) ∧
      (p.tdi ≠ 0 ∨ dies ≠ p.dies ∨ ¬ free p.dies → refuses (.partitionDestroy (.host fn) q v))) ∧
    (p.busy = true → refuses (.partitionCreate (.host fn) q v) ∧ refuses (.partitionDestroy (.host fn) q v))) ∧
  (∀ (s : State) (q : Nat) (h : q < 4) (p : Partition), p = s.pkg.parts[q] →
    (p.busy = false → exec (.partitionScrubDone q) s = .next s) ∧
    (p.busy = true → ∃ t, exec (.partitionScrubDone q) s = .next t ∧ t.threads = s.threads ∧
      t.part q = { p with busy := false, work := 0, keyGen := p.keyGen + 1, tdi := if p.work = 3 then 0 else p.tdi } ∧
      (∀ r, r ≠ q → t.part r = s.part r) ∧
      (∀ c, p.dies.getLsbD (dieOf c) = true → (t.core c).scratch = {}) ∧
      (∀ c, p.dies.getLsbD (dieOf c) = false → t.core c = s.core c) ∧
      (∀ c, p.dies.getLsbD (c / 8) = true → (t.cluster c).queues = Vector.replicate 4 [] ∧ (t.cluster c).entering = [] ∧
        (t.cluster c).poisoned = []) ∧
      (∀ c, p.dies.getLsbD (c / 8) = false → t.cluster c = s.cluster c) ∧
      (p.work ≠ 2 → ∀ d, p.dies.getLsbD d = true → (t.die d).part = q) ∧
      (p.work = 2 → t.mem = s.mem) ∧
      (p.work ≠ 2 → p.strEn = false → ∀ a, t.mem.read a =
        if (homeDie a).any p.dies.getLsbD then 0 else s.mem.read a))) ∧
  (∀ (s : State) (q : Nat), s.pkg.sessions = 0 → ∀ i, i ∈ [Instr.lockInterfaceRequest q, .startInterfaceRequest q,
      .stopInterfaceRequest q, .getTdispVersion q, .getTdispCapabilities q, .getDeviceInterfaceReport q,
      .getDeviceInterfaceState q] → exec i s = .next s) ∧
  (∀ (s : State) (q : Nat) (h : q < 4) (p : Partition), p = s.pkg.parts[q] → s.pkg.sessions ≠ 0 →
    let enters (i : Instr) (kind : Nat) (x : Partition) : Prop := SetsPackage i s
      { s.pkg with parts := s.pkg.parts.set q x, replies := s.pkg.replies ++ [{ kind := kind, status := 0 }] }
    (p.en = true → p.busy = false → p.tdi = 0 → enters (.lockInterfaceRequest q) 0x13 { p with tdi := 1 }) ∧
    (p.en = false ∨ p.busy = true ∨ p.tdi ≠ 0 → Replies (.lockInterfaceRequest q) s 0x13 1 []) ∧
    (p.tdi = 1 → enters (.startInterfaceRequest q) 0x14 { p with tdi := 2 }) ∧
    (p.tdi ≠ 1 → Replies (.startInterfaceRequest q) s 0x14 1 []) ∧
    (p.tdi ≠ 0 → p.busy = false → ∃ t, exec (.stopInterfaceRequest q) s = .next t ∧ t.mem = s.mem ∧
      t.part q = { p with busy := true, work := 3 } ∧ t.pkg.replies = s.pkg.replies ++ [{ kind := 0x15, status := 0 }] ∧
      (∀ k, p.dies.getLsbD (dieOf (coreOf k)) = true → (t.thread k).life = .free) ∧
      (∀ k, p.dies.getLsbD (dieOf (coreOf k)) = false → t.thread k = s.thread k) ∧
      ∀ r ∈ t.reqs, r ∈ s.reqs ∧ p.dies.getLsbD (dieOf (coreOf r.tid)) = false) ∧
    (p.tdi = 0 ∨ p.busy = true → Replies (.stopInterfaceRequest q) s 0x15 1 []) ∧
    (∀ i k, (i, k) ∈ [(Instr.getTdispVersion q, 0x10), (.getTdispCapabilities q, 0x11)] → ∃ data : List Byte,
      data.length = 8 ∧ exec i s = .next { s with
        free := s.free + 1
        pkg := { s.pkg with replies := s.pkg.replies ++ [{ kind := k, status := 0, data := data }] } }) ∧
    Replies (.getDeviceInterfaceReport q) s 0x12 0 (BitVec.ofNat 8 p.dies.toNat ::
      ([0x3DF73F7FFF7F07FF, 0x1F, 0x100004000001, p.facc0.toNat, p.facc1.toNat, 0x8000000, 0x1000000000,
        p.strBase + (if p.strEn then 0x8000 else 0) + p.strLimit * 2 ^ 32].flatMap (leBytes 8))) ∧
    Replies (.getDeviceInterfaceState q) s 0x16 0 [BitVec.ofNat 8 p.tdi.toNat]) ∧
  (∀ (s : State) (q : Nat) (h : q < 4), ∀ i, i ∈ [Instr.ideIntegrityFailure q, .functionLevelReset q] →
    SetsPackage i s { s.pkg with parts := s.pkg.parts.set q { s.pkg.parts[q] with tdi := 3 } }) ∧
  (∀ (s : State) (rq : SpdmRequest),
    (s.pkg.stage = 1 → ∀ i, i ∈ [Instr.spdmCert rq, .spdmChal rq, .spdmMeas rq, .spdmKeyEx rq] → exec i s = .next s) ∧
    (s.pkg.stage ≠ 1 →
      (∀ i k (offered : Prop), (i, k, offered) ∈ [(Instr.spdmCert rq, 1, rq.index < 2), (.spdmChal rq, 2, rq.index < 2),
          (.spdmMeas rq, 3, 1 ≤ rq.index ∧ rq.index ≤ 3 ∨ 0x10 ≤ rq.index ∧ rq.index ≤ 0x13)] →
        (offered → ∃ data, Replies i s k 0 data) ∧ (¬ offered → Replies i s k 1 [])) ∧
      ∃ data, SetsPackage (.spdmKeyEx rq) s { s.pkg with
        sessions := s.pkg.sessions + 1, replies := s.pkg.replies ++ [{ kind := 4, status := 0, data := data }] })) ∧
  (∀ (s : State) (q peer remote : Nat), peer < 4096 →
    (Config.exchangePasses s.free = false → exec (.partitionPairing q peer remote) s = .next { s with free := s.free + 1 }) ∧
    (Config.exchangePasses s.free = true → ∃ t, exec (.partitionPairing q peer remote) s = .next t ∧
      t = { s with free := s.free + 1
                   fab := { s.fab with pairs := t.fab.pairs, keys := t.fab.keys, pairKeys := t.fab.pairKeys } } ∧
      t.pairOf q peer = some (remote % 4) ∧ (∀ r x, x < 4096 → (r, x) ≠ (q, peer) → t.pairOf r x = s.pairOf r x) ∧
      (∀ typ, typ ≠ 0x13 → typ ≠ 0x14 → t.flitKeys typ q peer = keysOf s.free 0 (s.part q).keyGen ∧
        ∀ r x, x < 4096 → (r, x) ≠ (q, peer) → t.flitKeys typ r x = s.flitKeys typ r x) ∧
      ∀ r, t.flitKeys 0x13 r peer = keysOf s.free 1 0 ∧ t.flitKeys 0x14 r peer = keysOf s.free 1 0 ∧
        ∀ x, x ≠ peer → t.flitKeys 0x13 r x = s.flitKeys 0x13 r x))

/-- R351, R352, R363–R367, R371, R377. The fields that a die reset brings to their reset values (DESIGN CHOICE, log 14), memory
that reads 0 after it (DEDUCED, log 31) and the clock in which VERIFY ends (DESIGN CHOICE, log 19) are the model's. -/
def Obligations.PackagesStartAndChangePower : Prop :=
  (∀ (s : State),
    (s.pkg.perst = true → exec .perstDeassert s = .next s) ∧
    (s.pkg.perst = false → exec .perstDeassert s = .next { s with
      free := s.free + 1, pkg := { s.pkg with perst := true, stage := 2, slotKey := Config.freeValue s.free } }) ∧
    SetsPackage .hostLinkUp s
      { s.pkg with hostLink := true, stage := if s.pkg.stage = 2 then 3 else s.pkg.stage } ∧
    SetsPackage .thermTrip s { s.pkg with thermTripN := true } ∧
    (∀ fn, HostMay s fn 0x310 →
      (s.pkg.stage ≠ 3 → SetsPackage (.fwgo (.host fn)) s { s.pkg with hostStatus := 0 }) ∧
      (s.pkg.stage = 3 → SetsPackage (.fwgo (.host fn)) s { s.pkg with stage := 4, hostStatus := 0 })) ∧
    (s.pkg.stage = 4 →
      let m := s.pkg.staging
      let key := m.readBytes 0x1300 2592
      let kind (i : Nat) : Nat := le m (0x1D20 + 16 * i) 4
      let fails (n : BitVec 16) : Prop := s.endVerify = { s with pkg := { s.pkg with stage := 0xFF, ecode := n } }
      let header := le m 0 4 = 0x57464B47 ∧ le m 4 4 = 1 ∧ le m 8 8 = s.pkg.fwlen ∧ s.pkg.fwlen ≤ 0x4000000
      let keyed := Config.sha3 key = Config.fusedKey
      let signed := Config.signed key (m.readBytes 0 0x80) (m.readBytes 0x80 4627) = true
      let whole := Config.sha3 (m.readBytes 0x1D20 (s.pkg.fwlen - 0x1D20)) = m.readBytes 0x40 64
      let recent := Config.fusedVersion ≤ le m 0x10 8
      let sections := (∀ i < 16, kind i ≠ 0 → le m (0x1D28 + 16 * i) 4 + le m (0x1D2C + 16 * i) 4 ≤ s.pkg.fwlen) ∧
        ∀ k, k = 1 ∨ k = 2 ∨ k = 3 → ∃ i < 16, kind i = k ∧ ∀ j < 16, kind j = k → j = i
      (¬ header → fails 1) ∧ (header → ¬ keyed → fails 2) ∧ (header → keyed → ¬ signed → fails 3) ∧
      (header → keyed → signed → ¬ whole → fails 4) ∧ (header → keyed → signed → whole → ¬ recent → fails 5) ∧
      (header → keyed → signed → whole → recent → ¬ sections → fails 6) ∧
      (header → keyed → signed → whole → recent → sections → ∃ p, s.endVerify = { s with pkg := p } ∧ p.stage = 5 ∧
        p.secVersion = BitVec.ofNat 32 (le m 0x10 8) ∧ p.digest = m.readBytes 0x40 64)) ∧
    (s.pkg.stage ≠ 4 → s.endVerify = s) ∧
    (∀ core slot, ∃ t, exec (.fwgo (.thread core slot)) s = .next t ∧ t = { s with threads := t.threads } ∧
      t.thread (tidOf core slot) =
        withFault (s.thread (tidOf core slot)) 0x05 1 (pkgReg 0x310) (s.thread (tidOf core slot)).pc s.order
          (s.thread (tidOf core slot)).mode)) ∧
  (∀ (s : State) (failed : BitVec 4),
    (s.pkg.stage ≠ 5 → s.pkg.stage ≠ 6 → exec (.bootInitComplete failed) s = .next s) ∧
    (s.pkg.stage = 5 → ∃ t, exec (.bootInitComplete failed) s = .next t ∧ t.pkg.stage = 6 ∧ t.gtime = 0 ∧
      t.threads = s.threads ∧ t.cores = s.cores ∧
      (t.part 0).en = true ∧ (t.part 0).dies = ~~~failed ∧ (∀ q < 4, (t.part q).facc0 = 0 ∧ (t.part q).facc1 = 0) ∧
      ∀ d < 4, (t.die d).spol = 0 ∧ (t.die d).live = !failed.getLsbD d ∧
        (t.die d).fenced = ((s.die d).fenced || failed.getLsbD d)) ∧
    (s.pkg.stage = 6 → ∃ t, exec (.bootInitComplete failed) s = .next t ∧ t.threads = s.threads ∧ t.cores = s.cores ∧
      ∀ d < 4, ((s.die d).live = true → (∀ b, s.windowOf b = none) → t.die d = s.die d) ∧
        ((s.die d).live = false → (t.die d).live = !failed.getLsbD d ∧
          (t.die d).fenced = ((s.die d).fenced || failed.getLsbD d)))) ∧
  (∀ (s : State) (d : Nat) (x : Die), x = s.die d →
    (x.pwrState ≠ 3 → exec (.dieReset d) s = .next s) ∧
    (x.pwrState = 3 → ∃ t, exec (.dieReset d) s = .next t ∧ t.pkg = s.pkg ∧ t.die d = { live := false, vSeq := x.vSeq, vLost := x.vLost, tripped := x.tripped, trArm := x.trArm, ttrip := x.ttrip, temp := x.temp, freeFrames := x.freeFrames } ∧
      (∀ k, k ≠ d → t.die k = s.die k) ∧
      (∀ k, t.thread k = if dieOf (coreOf k) = d then {} else s.thread k) ∧
      (∀ c, t.core c = if dieOf c = d then {} else s.core c) ∧
      (∀ a, t.mem.read a = if 0x6000000000 * d ≤ a ∧ a < 0x6000000000 * (d + 1) then 0 else s.mem.read a)) ∧
    (∀ fn v tgt, tgt = v.extractLsb' 0 2 → HostMay s fn (0x200 + 8 * d) →
      let bad := x.pwrBusy = true ∨ x.pwrState = 3 ∨
        (tgt = 1 ∨ tgt = 2) ∧ (∃ k < 8, ((s.cluster (8 * d + k)).now s.clock).fen = false) ∨
        tgt = 2 ∧ (∃ k, dieOf (coreOf k) = d ∧ (s.thread k).life ≠ .free ∧ (s.thread k).life ≠ .suspended) ∨
        tgt = 3 ∧ x.fenced = false
      (bad → SetsPackage (.powerStateCommand (.host fn) d v) s { s.pkg with hostStatus := 2 }) ∧
      (¬ bad → ∃ t, exec (.powerStateCommand (.host fn) d v) s = .next t ∧
        t = { s with dies := t.dies, pkg := { s.pkg with hostStatus := 0 } } ∧ (∀ k, k ≠ d → t.die k = s.die k) ∧
        t.die d = { x with pwrBusy := true, pwrTgt := tgt })) ∧
    (x.pwrBusy = false → exec (.powerTransitionDone d) s = .next s) ∧
    (x.pwrBusy = true →
      (x.pwrTgt = 1 ∨ x.pwrTgt = 0 ∧ NoneParked s → ∃ t, exec (.powerTransitionDone d) s = .next t ∧
        t = { s with dies := t.dies } ∧ (∀ k, k ≠ d → t.die k = s.die k) ∧
        t.die d = { x with pwrBusy := false, pwrState := x.pwrTgt }) ∧
      (x.pwrTgt = 2 → x.container.cells = [] → ∃ t, exec (.powerTransitionDone d) s = .next t ∧
        t = { s with dies := t.dies } ∧ t.die d = { x with pwrBusy := false, pwrState := 2, rdc := {} }) ∧
      (x.pwrTgt = 3 → ∃ t, exec (.powerTransitionDone d) s = .next t ∧ t.threads = s.threads ∧ t.mem = s.mem ∧
        (t.die d).pwrBusy = false ∧ (t.die d).pwrState = 3 ∧ (∀ c, dieOf c = d → (t.core c).scratch = {}) ∧
        ∀ c, dieOf c ≠ d → t.core c = s.core c)) ∧
    (∀ temp,
      let sampled : Die := { x with temp := temp, tmax := if x.tmax.toInt < temp.toInt then temp else x.tmax }
      (x.trArm = false ∨ temp.toInt < x.ttrip.toInt → ∃ t, exec (.thermalSample d temp) s = .next t ∧
        t = { s with dies := t.dies } ∧ (∀ k, k ≠ d → t.die k = s.die k) ∧ t.die d = sampled) ∧
      (x.trArm = true → x.ttrip.toInt ≤ temp.toInt → ∃ t, exec (.thermalSample d temp) s = .next t ∧
        t.threads = s.threads ∧ ((∀ b, s.windowOf b = none) → t.die d = { sampled with tripped := true }) ∧ t.pkg.msix1 = s.pkg.msix1 + 1)) ∧
    (∀ fn v, HostMay s fn (0x3008C0 + 8 * d) →
      let frame := v.toNat / 2 ^ 18 % 2 ^ 30 * 2 ^ 18
      (x.freeFrames.length < 64 → homeDie frame = some d → ∃ t, exec (.mfreePush (.host fn) d v) s = .next t ∧
        t = { s with dies := t.dies, pkg := { s.pkg with hostStatus := 0 } } ∧ (∀ k, k ≠ d → t.die k = s.die k) ∧
        t.die d = { x with freeFrames := x.freeFrames ++ [frame] }) ∧
      (64 ≤ x.freeFrames.length ∨ homeDie frame ≠ some d →
        SetsPackage (.mfreePush (.host fn) d v) s { s.pkg with hostStatus := 2 }))) ∧
  (∀ (s : State) (fn : Nat) (v : Word),
    (HostMay s fn 0x28 →
      (s.pkg.stage = 6 → s.pkg.dispatched = false → (∀ k, (s.thread k).life = .free) →
        ∃ p, SetsPackage (.gtimeLoad (.host fn) v) s p ∧ p.hostStatus = 0 ∧ ({ s with pkg := p } : State).gtime = v) ∧
      (s.pkg.stage ≠ 6 ∨ s.pkg.dispatched = true ∨ (∃ k, (s.thread k).life ≠ .free) →
        SetsPackage (.gtimeLoad (.host fn) v) s { s.pkg with hostStatus := 2 })) ∧
    (HostMay s fn 0 →
      ((∀ k, (s.thread k).life = .free) → SetsPackage (.registerWrite (.host fn) (pkgReg 0) (.double v)) s
        { s.pkg with peer := v.extractLsb' 0 12, hostStatus := 0 }) ∧
      ((∃ k, (s.thread k).life ≠ .free) →
        SetsPackage (.registerWrite (.host fn) (pkgReg 0) (.double v)) s { s.pkg with hostStatus := 2 })) ∧
    (∀ core slot, ∃ t, exec (.registerWrite (.thread core slot) (pkgReg 0) (.double v)) s = .next t ∧ t = { s with threads := t.threads } ∧
      t.thread (tidOf core slot) =
        withFault (s.thread (tidOf core slot)) 0x05 1 (pkgReg 0) (s.thread (tidOf core slot)).pc s.order
          (s.thread (tidOf core slot)).mode) ∧
    (∀ d, exec (.registerWrite (.supervisor d) (pkgReg 0) (.double v)) s = .next s)) ∧
  (∀ (s : State) (f : Nat),
    (5 ≤ f → exec (.msixEventSignal f) s = .next s) ∧
    (∀ h : f < 5, ∀ r, r = s.pkg.rings[f] →
      (r.signal = true → r.signalled = 0 ∨ r.signalled + 2400 ≤ s.clock → SetsPackage (.msixEventSignal f) s
        { s.pkg with rings := s.pkg.rings.set f { r with signal := false, signalled := s.clock } }) ∧
      (r.signal = false ∨ r.signalled ≠ 0 ∧ s.clock < r.signalled + 2400 → exec (.msixEventSignal f) s = .next s)))

/-- R394, R396, R404. That an entry remembers its revocation is the model's reading (DEDUCED, log 61). -/
def Obligations.RegionsAreRegisteredAndPagesMigrate : Prop :=
  (∀ (s : State) (who : Who) (h q a : Nat) (v : Word) (r : Region), r = s.region h → a = r.base.toNat →
    MayStore s who (regionReg h 0x10) → r.drain = false →
    who = .host (q + 1) ∨ (∃ core slot, who = .thread core slot ∧ (s.thread (tidOf core slot)).mode = true ∧
      q = s.partOf (tidOf core slot)) →
    let sets (i : Instr) (x : Region) : Prop := ∃ t, exec i s = .next t ∧ t.region h = x ∧ t.threads = s.threads ∧
      t.mem = s.mem ∧ (∀ k, k ≠ h → t.region k = s.region k)
    (r.v = false → 0 < r.len → a + r.len ≤ 0x18000000000 →
      (∀ d, a / 0x6000000000 ≤ d → d ≤ (a + r.len - 1) / 0x6000000000 → s.owner d = some q) →
      (∀ c ∈ s.fab.regs.cells, c.1 ≠ h → c.2.v = true → c.2.part = q →
        a + r.len ≤ c.2.base.toNat ∨ c.2.base.toNat + c.2.len ≤ a) →
      sets (.regionRegister who h v) { r with
        v := true, part := q, revoked := false, rd := v.getLsbD 61, wr := v.getLsbD 60, at_ := v.getLsbD 59, tcm := v.getLsbD 58
        anyp := v.getLsbD 12, peer := v.toNat % 2 ^ 12 }) ∧
    (r.v = false → r.len = 0 → ∃ t, exec (.regionRegister who h v) s = .next t ∧ t.fab = s.fab) ∧
    (r.v = true → r.part = q →
      (∀ f, who = .host f → sets (.regionRevoke who h v) { r with drain := true, waiter := none }) ∧
      (∀ core slot tid, who = .thread core slot → tid = tidOf core slot → ∃ t, exec (.regionRevoke who h v) s = .next t ∧
        t.region h = { r with drain := true, waiter := some (tid, s.nextId) } ∧ t.nextId = s.nextId + 1 ∧
        (∀ k, k ≠ tid → t.thread k = s.thread k) ∧
        t.thread tid = { s.thread tid with unacked := (s.thread tid).unacked ++ [(s.nextId, true)] }))) ∧
  (∀ (s : State) (h : Nat) (r : Region), r = s.region h →
    (r.drain = false ∨ r.infl ≠ 0 → exec (.regionRevokeDone h) s = .next s) ∧
    (r.drain = true → r.infl = 0 → ∃ t, exec (.regionRevokeDone h) s = .next t ∧ t.mem = s.mem ∧
      t.region h = { r with v := false, drain := false, waiter := none, revoked := true } ∧ (∀ k, k ≠ h → t.region k = s.region k) ∧
      (r.waiter = none → t.threads = s.threads) ∧
      ∀ tid id, r.waiter = some (tid, id) → (∀ k, k ≠ tid → t.thread k = s.thread k) ∧
        t.thread tid = { s.thread tid with
          unacked := (s.thread tid).unacked.filter (fun u => decide (u.1 ≠ id))
          flights := (s.thread tid).flights.filter (fun f => decide (f.id ≠ id)) })) ∧
  (∀ (s : State) (d e page a n : Nat) (va : Word) (x : Die), x = s.die d → a = va.toNat % 2 ^ 57 → page = a / 2 ^ 18 →
    s.walk d a = .leaf e 18 → n = x.counts.get 0 page →
    (e / 2 ^ 6 % 4 ≠ 3 ∨ n ≤ 2 ^ (e / 2 ^ 10 % 2 ^ 4) → exec (.pageMigration d va) s = .next s) ∧
    (e / 2 ^ 6 % 4 = 3 → 2 ^ (e / 2 ^ 10 % 2 ^ 4) < n → d < 4 → (∀ k < 4, (s.die k).migrations = []) →
      let src := e / 2 ^ 18 % 2 ^ 30 * 2 ^ 18
      let m : Migration := { va := va, frame := 0, peer := e / 2 ^ 52 % 2 ^ 12, srcPa := src, begun := false }
      (∀ r ∈ s.reqs, s.partOf r.tid = x.part → r.sent = true → r.resp = none → pageOf r.va = page →
        ∃ t, exec (.pageMigration d va) s = .next t ∧ t = { s with dies := t.dies } ∧ (∀ k, k ≠ d → t.die k = s.die k) ∧
          t.die d = { x with migrations := [m] }) ∧
      (s.reqs = [] → s.fab.ops = [] → s.trg.groups.cells = [] → x.freeFrames = [] → ∃ t, exec (.pageMigration d va) s = .next t ∧
        t.threads = s.threads ∧ ((∀ b, s.windowOf b = none) → t.die d = { x with counts := x.counts.put page 0 })) ∧
      (∀ f l, s.reqs = [] → s.fab.ops = [] → s.trg.groups.cells = [] → x.freeFrames = f :: l → ∃ t o,
        exec (.pageMigration d va) s = .next t ∧
        t = { s with dies := t.dies, fab := { s.fab with ops := [o] }, nextId := s.nextId + 1 } ∧
        (∀ k, k ≠ d → t.die k = s.die k) ∧
        t.die d = { x with freeFrames := l, migrations := [{ m with frame := f, begun := true }] } ∧
        o.id = s.nextId ∧ o.kind = .page ∧ o.owner = .frame d ∧ o.part = x.part ∧ o.peer = m.peer ∧ o.x = va ∧ o.len = 0x40000 ∧
        o.count = 1024 ∧ o.flits.length = 1024 ∧ ∀ i < 1024, o.flits[i]? = some {
          typ := 0x08, hdl := 0xFFF, off := (src + 256 * i) % 2 ^ 40, aux := (src + 256 * i) / 2 ^ 40, len := 255
          payload := leBytes 2 (s.nextId % 65536) }))) ∧
  (∀ (s : State) (d : Nat) (frame : List Byte) (x : Die) (m : Migration) (l : List Migration) (o : RemoteOp), x = s.die d →
    ((∀ y ∈ x.migrations, y.begun = false) → ∀ ok, exec (.pageMigrationDone d ok frame) s = .next s) ∧
    (x.migrations = m :: l → m.begun = true → (∀ y ∈ l, y.begun = false ∧ pageOf y.va ≠ pageOf m.va) → s.fab.ops = [o] →
      o.owner = .frame d → pageOf o.x = pageOf m.va →
      (o.failed = false → o.refused = none → o.answered = false → ∀ ok, exec (.pageMigrationDone d ok frame) s = .next s) ∧
      (o.failed = true ∨ o.refused ≠ none → exec (.pageMigrationDone d true frame) s = .next s ∧
        ∃ t, exec (.pageMigrationDone d false frame) s = .next t ∧ t.threads = s.threads ∧ t.fab.ops = [] ∧
        ((∀ b, s.windowOf b = none) → t.die d = { x with
          migrations := l, freeFrames := m.frame :: x.freeFrames, counts := x.counts.put (pageOf m.va) 0 })) ∧
      (o.failed = false → o.refused = none → o.answered = true → frame ≠ m.bytes →
        exec (.pageMigrationDone d true frame) s = .next s) ∧
      (∀ p, p = s.leafAddr d (m.va.toNat % 2 ^ 57) → o.failed = false → o.refused = none → o.answered = true →
        frame = m.bytes → frame.length = 0x40000 → p + 8 ≤ m.frame ∨ m.frame + 0x40000 ≤ p →
        s.pkg.rings[0].log2 = 0 → (∀ b, s.windowOf b = none) →
        (∀ b, m.frame ≤ b ∧ b < m.frame + 0x40000 ∨ p ≤ b ∧ b < p + 8 → ∃ k, homeDie b = some k ∧ s.dead k = false) →
        ∃ t, exec (.pageMigrationDone d true frame) s = .next t ∧ t.threads = s.threads ∧ t.fab.ops = [] ∧
        t.mem.readNat m.frame 0x40000 = leNat frame ∧
        t.mem.readNat p 8 = (BitVec.ofNat 64 (s.mem.readNat p 8) &&& 0x3F3F ||| BitVec.ofNat 64 m.frame).toNat ∧
        (∀ b, (b < m.frame ∨ m.frame + 0x40000 ≤ b) → (b < p ∨ p + 8 ≤ b) → t.mem.read b = s.mem.read b))))
end

