-- ==== Sys2Proof/Laws/Encoding.lean ====
section
/-! SUPPORT. Laws of bit fields and of the framing of instruction words (R32, R33): a field of a concatenation,
bytes put together again, and what `frame` reads from the bytes of a word. -/

namespace Sys2Proof

/-- A field that lies in the low part of a concatenation. -/
theorem ext_low {m n : Nat} (x : BitVec m) (y : BitVec n) (lo k : Nat) (h : lo + k ≤ n) :
    (x ++ y).extractLsb' lo k = y.extractLsb' lo k := by
  ext i hi
  simp [BitVec.getElem_extractLsb', BitVec.getLsbD_append]
  omega

/-- A field that lies in the high part of a concatenation. -/
theorem ext_high {m n : Nat} (x : BitVec m) (y : BitVec n) (lo k : Nat) (h : n ≤ lo) :
    (x ++ y).extractLsb' lo k = x.extractLsb' (lo - n) k := by
  ext i hi
  simp [BitVec.getElem_extractLsb', BitVec.getLsbD_append, show ¬ lo + i < n by omega,
    show lo + i - n = lo - n + i by omega]

/-- A field that is the whole. -/
theorem ext_all {n : Nat} (x : BitVec n) : x.extractLsb' 0 n = x := by
  ext i hi
  simp

/-- A halfword from its two bytes. -/
theorem ofBytes16_bytes (h : Half) : ofBytes16 (h.extractLsb' 0 8) (h.extractLsb' 8 8) = h := by
  apply BitVec.eq_of_getLsbD_eq
  intro i hi
  simp only [ofBytes16, BitVec.getLsbD_append, BitVec.getLsbD_extractLsb']
  by_cases h0 : i < 8
  · simp [h0]
  · simp [h0, show i - 8 < 8 by omega, show 8 + (i - 8) = i by omega]

/-- A word from its four bytes. -/
theorem ofBytes32_bytes (w : BitVec 32) :
    ofBytes32 (w.extractLsb' 0 8) (w.extractLsb' 8 8) (w.extractLsb' 16 8) (w.extractLsb' 24 8) = w := by
  apply BitVec.eq_of_getLsbD_eq
  intro i hi
  simp only [ofBytes32, BitVec.getLsbD_append, BitVec.getLsbD_extractLsb']
  by_cases h0 : i < 8
  · simp [h0]
  · by_cases h1 : i < 16
    · simp [h0, show i - 8 < 8 by omega, show 8 + (i - 8) = i by omega]
    · by_cases h2 : i < 24
      · simp [h0, show ¬ i - 8 < 8 by omega, show i - 8 - 8 < 8 by omega, show 16 + (i - 8 - 8) = i by omega]
      · simp [h0, show ¬ i - 8 < 8 by omega, show ¬ i - 8 - 8 < 8 by omega,
          show i - 8 - 8 - 8 < 8 by omega, show 24 + (i - 8 - 8 - 8) = i by omega]

/-- The low half of a word from its two low bytes. -/
theorem ofBytes16_low (w : BitVec 32) :
    (ofBytes16 (w.extractLsb' 0 8) (w.extractLsb' 8 8)).extractLsb' 0 1 = w.extractLsb' 0 1 := by
  simp only [ofBytes16]
  rw [ext_low _ _ _ _ (by decide)]
  ext i hi
  simp

/-- A parameter block from its four words. -/
theorem blockOfWords_words (p : Block) :
    blockOfWords (p.extractLsb' 0 32) (p.extractLsb' 32 32) (p.extractLsb' 64 32) (p.extractLsb' 96 32) = p := by
  apply BitVec.eq_of_getLsbD_eq
  intro i hi
  simp only [blockOfWords, BitVec.getLsbD_append, BitVec.getLsbD_extractLsb']
  by_cases h0 : i < 32
  · simp [h0]
  · by_cases h1 : i < 64
    · simp [h0, show i - 32 < 32 by omega, show 32 + (i - 32) = i by omega]
    · by_cases h2 : i < 96
      · simp [h0, show ¬ i - 32 < 32 by omega, show i - 32 - 32 < 32 by omega,
          show 64 + (i - 32 - 32) = i by omega]
      · simp [h0, show ¬ i - 32 < 32 by omega, show ¬ i - 32 - 32 < 32 by omega,
          show i - 32 - 32 - 32 < 32 by omega, show 96 + (i - 32 - 32 - 32) = i by omega]

/-- R32: the framing of a halfword. -/
theorem frame_half (h : Half) (rest : List Byte) (h0 : h.extractLsb' 0 1 = 0) :
    frame ((Parcel.half h).bytes ++ rest) = some (.half h) := by
  simp [Parcel.bytes, halfBytes, frame, ofBytes16_bytes, h0]

/-- R32: the framing of a word with no inline words. -/
theorem frame_word (w : BitVec 32) (rest : List Byte) (h1 : w.extractLsb' 0 1 = 1) (hn : inlineBytes w = 0) :
    frame ((Parcel.word w).bytes ++ rest) = some (.word w) := by
  simp [Parcel.bytes, wordBytes, frame, ofBytes16_low, h1, ofBytes32_bytes, frameWord, hn]

/-- R33: the framing of a word and its literal. -/
theorem frame_lit (w e : BitVec 32) (rest : List Byte) (h1 : w.extractLsb' 0 1 = 1) (hn : inlineBytes w = 4) :
    frame ((Parcel.lit w e).bytes ++ rest) = some (.lit w e) := by
  simp [Parcel.bytes, wordBytes, frame, ofBytes16_low, h1, ofBytes32_bytes, frameWord, hn]

/-- R33, R56: the framing of a word and its parameter block. -/
theorem frame_block (w : BitVec 32) (p : Block) (rest : List Byte) (h1 : w.extractLsb' 0 1 = 1)
    (hn : inlineBytes w = 16) : frame ((Parcel.block w p).bytes ++ rest) = some (.block w p) := by
  have hb := blockOfWords_words p
  rw [← ofBytes32_bytes (p.extractLsb' 0 32)] at hb
  simp at hb
  simp [Parcel.bytes, blockBytes, wordBytes, frame, ofBytes16_low, h1, ofBytes32_bytes, frameWord, hn, hb]

/-- A word whose major opcode has no inline words (R33). -/
theorem inlineBytes_none (w : BitVec 32) (m : Nat) (h : fMajor w = m)
    (hm : m ≠ 0x07 ∧ m ≠ 0x30 ∧ m ≠ 0x31 ∧ m ≠ 0x32 ∧ m ≠ 0x3D) : inlineBytes w = 0 := by
  unfold inlineBytes
  rw [h]
  split <;> simp_all

end Sys2Proof
end

