-- ==== Sys2Proof/Laws/Operands.lean ====
section
/-! SUPPORT. What the operand forms and the scalar arithmetic of Machine/Operands.lean compute, said over integers,
naturals and single bits (R38, R70–R79). -/

namespace Sys2Proof.Machine

theorem minS_eq (x y : Word) : minS x y = if x.toInt ≤ y.toInt then x else y := by
  unfold minS; simp only [BitVec.slt, decide_eq_true_eq]
  split_ifs with h1 h2 h2 <;> first | rfl | omega | exact BitVec.eq_of_toInt_eq (by omega)
theorem maxS_eq (x y : Word) : maxS x y = if x.toInt ≤ y.toInt then y else x := by
  unfold maxS; simp only [BitVec.slt, decide_eq_true_eq]
  split_ifs with h1 h2 h2 <;> first | rfl | omega | exact BitVec.eq_of_toInt_eq (by omega)
theorem minU_eq (x y : Word) : minU x y = if x.toNat ≤ y.toNat then x else y := by
  unfold minU; simp only [BitVec.ult, decide_eq_true_eq]
  split_ifs with h1 h2 h2 <;> first | rfl | omega | exact BitVec.eq_of_toNat_eq (by omega)
theorem maxU_eq (x y : Word) : maxU x y = if x.toNat ≤ y.toNat then y else x := by
  unfold maxU; simp only [BitVec.ult, decide_eq_true_eq]
  split_ifs with h1 h2 h2 <;> first | rfl | omega | exact BitVec.eq_of_toNat_eq (by omega)
theorem sltW_eq (x y : Word) : sltW x y = if x.toInt < y.toInt then 1 else 0 := by
  simp [sltW, flag, BitVec.slt]
theorem sltuW_eq (x y : Word) : sltuW x y = if x.toNat < y.toNat then 1 else 0 := by
  simp [sltuW, flag, BitVec.ult]
theorem seqW_eq (x y : Word) : seqW x y = if x = y then 1 else 0 := by
  simp [seqW, flag]

/-- The number of clear bits from bit `i` on, when bit `i + k` is the first that is set, or none of the `n` bits is. -/
theorem lowestSet_eq (a : Word) (k : Nat) : ∀ i n, k ≤ n → (∀ j < k, a.getLsbD (i + j) = false) →
    (k = n ∨ a.getLsbD (i + k) = true) → lowestSet a i n = i + k := by
  induction k with
  | zero =>
    intro i n _ _ h
    cases n with
    | zero => rfl
    | succ n => simp at h; simp [lowestSet, h]
  | succ k ih =>
    intro i n hk hz h
    cases n with
    | zero => omega
    | succ n =>
      have h0 : a.getLsbD i = false := hz 0 (by omega)
      rw [lowestSet, h0, if_neg (by decide), ih (i + 1) n (by omega)]
      · omega
      · intro j hj; have := hz (j + 1) (by omega); rwa [show i + 1 + j = i + (j + 1) by omega]
      · rcases h with h | h
        · exact .inl (by omega)
        · exact .inr (by rwa [show i + 1 + k = i + (k + 1) by omega])

theorem countOnes_eq {w : Nat} (a : BitVec w) (n : Nat) :
    countOnes a n = (List.range n).countP (fun i => a.getLsbD i) := by
  induction n with
  | zero => rfl
  | succ n ih => rw [countOnes, ih, List.range_succ, List.countP_append]; simp [List.countP_singleton]

theorem halfwords_eq {n : Nat} (i : BitVec n) : halfwords i = 2 * i.signExtend 64 := by
  apply BitVec.eq_of_toNat_eq
  simp [halfwords, Nat.shiftLeft_eq, Nat.mul_comm]

theorem scaled_eq (a b : Word) (z : BitVec 2) : scaled a b z = a + BitVec.ofNat 64 (2 ^ z.toNat) * b := by
  have hz : b <<< z.toNat = BitVec.ofNat 64 (2 ^ z.toNat) * b := by
    apply BitVec.eq_of_toNat_eq
    simp [BitVec.toNat_mul, Nat.shiftLeft_eq, Nat.mul_comm]
  rw [scaled, hz]

end Sys2Proof.Machine
end

