-- ==== Sys2Proof/Laws/Tab.lean ====
section
/-! SUPPORT. Laws of sparse tables and of the byte memory: a read after a write, and that every memory
operation keeps the canonical form. -/

namespace Sys2Proof.Machine

/-! ### Keyed lists -/

theorem lookKey_putKey_same {α : Type} (k : Nat) (v : α) (l : List (Nat × α)) : lookKey k (putKey k v l) = some v := by
  induction l with
  | nil => simp [putKey, lookKey]
  | cons c l ih =>
    obtain ⟨j, u⟩ := c
    unfold putKey
    split
    · simp [lookKey]
    · split <;> simp_all [lookKey]

theorem lookKey_putKey_other {α : Type} (k j : Nat) (v : α) (l : List (Nat × α)) (h : j ≠ k) :
    lookKey j (putKey k v l) = lookKey j l := by
  induction l with
  | nil => simp [putKey, lookKey, h]
  | cons c l ih =>
    obtain ⟨i, u⟩ := c
    unfold putKey
    split
    · simp [lookKey, h]
    · split
      · subst_vars; simp [lookKey, h]
      · simp only [lookKey, ih]

theorem lookKey_delKey_same {α : Type} (k : Nat) (l : List (Nat × α)) : lookKey k (delKey k l) = none := by
  induction l with
  | nil => rfl
  | cons c l ih =>
    obtain ⟨i, u⟩ := c
    unfold delKey
    split
    · exact ih
    · simp_all [lookKey]

theorem lookKey_delKey_other {α : Type} (k j : Nat) (l : List (Nat × α)) (h : j ≠ k) :
    lookKey j (delKey k l) = lookKey j l := by
  induction l with
  | nil => rfl
  | cons c l ih =>
    obtain ⟨i, u⟩ := c
    unfold delKey
    split
    · subst_vars; simp [lookKey, h, ih]
    · simp only [lookKey, ih]

@[simp] theorem Tab.get_put_same {α : Type} (t : Tab α) (d : α) (k : Nat) (v : α) : (t.put k v).get d k = v := by
  simp [Tab.get, Tab.put, lookKey_putKey_same]

theorem Tab.get_put_other {α : Type} (t : Tab α) (d : α) (k j : Nat) (v : α) (h : j ≠ k) :
    (t.put k v).get d j = t.get d j := by
  simp [Tab.get, Tab.put, lookKey_putKey_other _ _ _ _ h]

@[simp] theorem Tab.find_put_same {α : Type} (t : Tab α) (k : Nat) (v : α) : (t.put k v).find k = some v := by
  simp [Tab.find, Tab.put, lookKey_putKey_same]

theorem Tab.find_put_other {α : Type} (t : Tab α) (k j : Nat) (v : α) (h : j ≠ k) :
    (t.put k v).find j = t.find j := by
  simp [Tab.find, Tab.put, lookKey_putKey_other _ _ _ _ h]

@[simp] theorem Tab.find_del_same {α : Type} (t : Tab α) (k : Nat) : (t.del k).find k = none := by
  simp [Tab.find, Tab.del, lookKey_delKey_same]

theorem Tab.get_find {α : Type} (t : Tab α) (d : α) (k : Nat) : t.get d k = (t.find k).getD d := rfl

/-! ### Rising keys -/

/-- Rising keys as a relation between the entries. -/
theorem risingKeys_iff {α : Type} (l : List (Nat × α)) :
    risingKeys l = true ↔ l.Pairwise (fun a b => a.1 < b.1) := by
  induction l with
  | nil => simp [risingKeys]
  | cons c l ih =>
    obtain ⟨j, u⟩ := c
    cases l with
    | nil => simp [risingKeys]
    | cons d r =>
      obtain ⟨k, v⟩ := d
      rw [risingKeys, Bool.and_eq_true, ih, decide_eq_true_eq, List.pairwise_cons (a := (j, u))]
      constructor
      · rintro ⟨h, hp⟩
        refine ⟨fun b hb => ?_, hp⟩
        rcases List.mem_cons.mp hb with rfl | hb
        · exact h
        · exact Nat.lt_trans h ((List.pairwise_cons.mp hp).1 b hb)
      · rintro ⟨h, hp⟩
        exact ⟨h _ List.mem_cons_self, hp⟩

theorem mem_putKey {α : Type} (k : Nat) (v : α) (l : List (Nat × α)) (c : Nat × α) (h : c ∈ putKey k v l) :
    c = (k, v) ∨ c ∈ l := by
  induction l with
  | nil => simpa [putKey] using h
  | cons e l ih =>
    obtain ⟨j, u⟩ := e
    unfold putKey at h
    split at h
    · simpa using h
    · split at h
      · rcases List.mem_cons.mp h with h | h
        · exact .inl h
        · exact .inr (List.mem_cons_of_mem _ h)
      · rcases List.mem_cons.mp h with h | h
        · exact .inr (h ▸ List.mem_cons_self)
        · exact (ih h).imp id (List.mem_cons_of_mem _)

theorem mem_delKey {α : Type} (k : Nat) (l : List (Nat × α)) (c : Nat × α) (h : c ∈ delKey k l) : c ∈ l := by
  induction l with
  | nil => exact h
  | cons e l ih =>
    obtain ⟨j, u⟩ := e
    unfold delKey at h
    split at h
    · exact List.mem_cons_of_mem _ (ih h)
    · rcases List.mem_cons.mp h with h | h
      · exact h ▸ List.mem_cons_self
      · exact List.mem_cons_of_mem _ (ih h)

theorem rising_putKey {α : Type} (k : Nat) (v : α) (l : List (Nat × α))
    (h : l.Pairwise (fun a b => a.1 < b.1)) : (putKey k v l).Pairwise (fun a b => a.1 < b.1) := by
  induction l with
  | nil => simp [putKey]
  | cons e l ih =>
    obtain ⟨j, u⟩ := e
    obtain ⟨hj, hl⟩ := List.pairwise_cons.mp h
    unfold putKey
    split
    · refine List.pairwise_cons.mpr ⟨fun b hb => ?_, h⟩
      rcases List.mem_cons.mp hb with rfl | hb
      · assumption
      · exact Nat.lt_trans ‹k < j› (hj b hb)
    · split
      · subst_vars; exact List.pairwise_cons.mpr ⟨hj, hl⟩
      · refine List.pairwise_cons.mpr ⟨fun b hb => ?_, ih hl⟩
        rcases mem_putKey _ _ _ _ hb with rfl | hb
        · simp only; omega
        · exact hj b hb

theorem rising_delKey {α : Type} (k : Nat) (l : List (Nat × α))
    (h : l.Pairwise (fun a b => a.1 < b.1)) : (delKey k l).Pairwise (fun a b => a.1 < b.1) := by
  induction l with
  | nil => simp [delKey]
  | cons e l ih =>
    obtain ⟨j, u⟩ := e
    obtain ⟨hj, hl⟩ := List.pairwise_cons.mp h
    unfold delKey
    split
    · exact ih hl
    · exact List.pairwise_cons.mpr ⟨fun b hb => hj b (mem_delKey _ _ _ hb), ih hl⟩

/-! ### Memory -/

/-- The canonical form as two facts about the entries. -/
theorem Memory.wf_iff (m : Memory) : m.wf = true ↔
    m.cells.Pairwise (fun a b => a.1 < b.1) ∧ ∀ c ∈ m.cells, c.2 ≠ Memory.unlisted := by
  simp [Memory.wf, risingKeys_iff]

theorem Memory.wf_empty : ({} : Memory).wf = true := rfl

@[simp] theorem Memory.read_write_same (m : Memory) (a : Nat) (b : Byte) : (m.write a b).read a = b := by
  unfold Memory.write Memory.read
  split
  · simp [lookKey_delKey_same, *]
  · simp [lookKey_putKey_same]

theorem Memory.read_write_other (m : Memory) (a c : Nat) (b : Byte) (h : c ≠ a) :
    (m.write a b).read c = m.read c := by
  unfold Memory.write Memory.read
  split
  · simp [lookKey_delKey_other _ _ _ h]
  · simp [lookKey_putKey_other _ _ _ _ h]

/-- A write of one byte keeps the canonical form. -/
theorem Memory.wf_write (m : Memory) (a : Nat) (b : Byte) (h : m.wf = true) : (m.write a b).wf = true := by
  rw [Memory.wf_iff] at h ⊢
  obtain ⟨hr, hn⟩ := h
  unfold Memory.write
  split
  · exact ⟨rising_delKey _ _ hr, fun c hc => hn c (mem_delKey _ _ _ hc)⟩
  · refine ⟨rising_putKey _ _ _ hr, fun c hc => ?_⟩
    rcases mem_putKey _ _ _ _ hc with rfl | hc
    · assumption
    · exact hn c hc

/-- A write of bytes keeps the canonical form. -/
theorem Memory.wf_writeBytes (m : Memory) (a : Nat) (bs : List Byte) (h : m.wf = true) :
    (m.writeBytes a bs).wf = true := by
  induction bs generalizing m a with
  | nil => exact h
  | cons b r ih => exact ih _ _ (m.wf_write a b h)

theorem Memory.wf_writeNat (m : Memory) (a n v : Nat) (h : m.wf = true) : (m.writeNat a n v).wf = true :=
  m.wf_writeBytes a _ h

/-- Zeroing bytes keeps the canonical form. -/
theorem Memory.wf_zero (m : Memory) (a n : Nat) (h : m.wf = true) : (m.zero a n).wf = true := by
  rw [Memory.wf_iff] at h ⊢
  exact ⟨h.1.filter _, fun c hc => h.2 c (List.mem_filter.mp hc).1⟩

/-- Copying bytes keeps the canonical form. -/
theorem Memory.wf_blit (src dst : Memory) (a b n : Nat) (hs : src.wf = true) (hd : dst.wf = true) :
    (src.blit a dst b n).wf = true := by
  rw [Memory.wf_iff] at hs hd ⊢
  obtain ⟨hsr, hsn⟩ := hs
  obtain ⟨hdr, hdn⟩ := hd
  have hmid : ∀ c ∈ shiftCells a b n src.cells, b ≤ c.1 ∧ c.1 < b + n ∧ c.2 ≠ Memory.unlisted := by
    intro c hc
    obtain ⟨e, he, rfl⟩ := List.mem_map.mp hc
    obtain ⟨hm, hp⟩ := List.mem_filter.mp he
    simp only [Bool.and_eq_true, decide_eq_true_eq] at hp
    exact ⟨by simp only; omega, by simp only; omega, hsn e hm⟩
  have hsh : (shiftCells a b n src.cells).Pairwise (fun a b => a.1 < b.1) := by
    unfold shiftCells
    rw [List.pairwise_map]
    refine (List.Pairwise.and_mem.mp (hsr.filter _)).imp ?_
    rintro x y ⟨hx, hy, hxy⟩
    have := (List.mem_filter.mp hx).2
    have := (List.mem_filter.mp hy).2
    simp only [Bool.and_eq_true, decide_eq_true_eq] at *
    omega
  refine ⟨?_, ?_⟩
  · unfold Memory.blit
    simp only
    rw [List.pairwise_append, List.pairwise_append]
    refine ⟨⟨hdr.filter _, hsh, ?_⟩, hdr.filter _, ?_⟩
    · intro x hx y hy
      have := (List.mem_filter.mp hx).2
      have := (hmid y hy).1
      simp only [decide_eq_true_eq] at *
      omega
    · intro x hx y hy
      have hyb := (List.mem_filter.mp hy).2
      simp only [decide_eq_true_eq] at hyb
      rcases List.mem_append.mp hx with hx | hx
      · have := (List.mem_filter.mp hx).2
        simp only [decide_eq_true_eq] at this
        omega
      · have := hmid x hx
        omega
  · intro c hc
    rcases List.mem_append.mp hc with hc | hc
    · rcases List.mem_append.mp hc with hc | hc
      · exact hdn c (List.mem_filter.mp hc).1
      · exact (hmid c hc).2.2
    · exact hdn c (List.mem_filter.mp hc).1

/-- A write of bytes leaves every byte outside them alone. -/
theorem Memory.read_writeBytes_outside (m : Memory) (a c : Nat) (bs : List Byte) (h : c < a ∨ a + bs.length ≤ c) :
    (m.writeBytes a bs).read c = m.read c := by
  induction bs generalizing m a with
  | nil => rfl
  | cons b r ih =>
    simp only [List.length_cons] at h
    rw [Memory.writeBytes, ih _ _ (by omega), Memory.read_write_other _ _ _ _ (by omega)]

/-- Bytes written are the bytes read. -/
theorem Memory.readBytes_writeBytes (m : Memory) (a : Nat) (bs : List Byte) :
    (m.writeBytes a bs).readBytes a bs.length = bs := by
  induction bs generalizing m a with
  | nil => rfl
  | cons b r ih =>
    simp only [Memory.writeBytes, List.length_cons, Memory.readBytes, ih]
    rw [Memory.read_writeBytes_outside _ _ _ _ (by omega), Memory.read_write_same]

@[simp] theorem leBytes_length (n w : Nat) : (leBytes n w).length = n := by
  induction n generalizing w with
  | zero => rfl
  | succ n ih => simp [leBytes, ih]

/-- Little-endian bytes stand for the number they were made from. -/
theorem leNat_leBytes (n w : Nat) : leNat (leBytes n w) = w % 256 ^ n := by
  induction n generalizing w with
  | zero => simp [leBytes, leNat, Nat.mod_one]
  | succ n ih =>
    simp only [leBytes, leNat, ih, BitVec.toNat_ofNat, Nat.reducePow]
    rw [Nat.pow_succ', Nat.mod_mul]

/-- A number written and read back. -/
theorem Memory.readNat_writeNat (m : Memory) (a n v : Nat) : (m.writeNat a n v).readNat a n = v % 256 ^ n := by
  unfold Memory.readNat Memory.writeNat
  conv => lhs; rw [← leBytes_length n v]
  rw [leBytes_length n v]
  have := Memory.readBytes_writeBytes m a (leBytes n v)
  rw [leBytes_length] at this
  rw [this, leNat_leBytes]

end Sys2Proof.Machine
end

