-- ==== Sys2Proof/Laws/State.lean ====
section
/-! SUPPORT. Laws of the state's updates: which field each update leaves alone, one lemma per field, and what the
updated tables read as. -/

namespace Sys2Proof.Machine

/-! ### setThread -/

@[simp] theorem State.setThread_cur (s : State) (t : Nat) (x : Thread) : (s.setThread t x).cur = s.cur := rfl
@[simp] theorem State.setThread_ir (s : State) (t : Nat) (x : Thread) : (s.setThread t x).ir = s.ir := rfl
@[simp] theorem State.setThread_fwd (s : State) (t : Nat) (x : Thread) : (s.setThread t x).fwd = s.fwd := rfl
@[simp] theorem State.setThread_stalled (s : State) (t : Nat) (x : Thread) : (s.setThread t x).stalled = s.stalled := rfl
@[simp] theorem State.setThread_agenda (s : State) (t : Nat) (x : Thread) : (s.setThread t x).agenda = s.agenda := rfl
@[simp] theorem State.setThread_clock (s : State) (t : Nat) (x : Thread) : (s.setThread t x).clock = s.clock := rfl
@[simp] theorem State.setThread_phase (s : State) (t : Nat) (x : Thread) : (s.setThread t x).phase = s.phase := rfl
@[simp] theorem State.setThread_epoch (s : State) (t : Nat) (x : Thread) : (s.setThread t x).epoch = s.epoch := rfl
@[simp] theorem State.setThread_free (s : State) (t : Nat) (x : Thread) : (s.setThread t x).free = s.free := rfl
@[simp] theorem State.setThread_order (s : State) (t : Nat) (x : Thread) : (s.setThread t x).order = s.order := rfl
@[simp] theorem State.setThread_cores (s : State) (t : Nat) (x : Thread) : (s.setThread t x).cores = s.cores := rfl
@[simp] theorem State.setThread_clusters (s : State) (t : Nat) (x : Thread) : (s.setThread t x).clusters = s.clusters := rfl
@[simp] theorem State.setThread_dies (s : State) (t : Nat) (x : Thread) : (s.setThread t x).dies = s.dies := rfl
@[simp] theorem State.setThread_pkg (s : State) (t : Nat) (x : Thread) : (s.setThread t x).pkg = s.pkg := rfl
@[simp] theorem State.setThread_fab (s : State) (t : Nat) (x : Thread) : (s.setThread t x).fab = s.fab := rfl
@[simp] theorem State.setThread_trg (s : State) (t : Nat) (x : Thread) : (s.setThread t x).trg = s.trg := rfl
@[simp] theorem State.setThread_mem (s : State) (t : Nat) (x : Thread) : (s.setThread t x).mem = s.mem := rfl
@[simp] theorem State.setThread_memBad (s : State) (t : Nat) (x : Thread) : (s.setThread t x).memBad = s.memBad := rfl
@[simp] theorem State.setThread_tierKeys (s : State) (t : Nat) (x : Thread) : (s.setThread t x).tierKeys = s.tierKeys := rfl
@[simp] theorem State.setThread_reqs (s : State) (t : Nat) (x : Thread) : (s.setThread t x).reqs = s.reqs := rfl
@[simp] theorem State.setThread_nextId (s : State) (t : Nat) (x : Thread) : (s.setThread t x).nextId = s.nextId := rfl
@[simp] theorem State.setThread_forwards (s : State) (t : Nat) (x : Thread) : (s.setThread t x).forwards = s.forwards := rfl
@[simp] theorem State.setThread_scOps (s : State) (t : Nat) (x : Thread) : (s.setThread t x).scOps = s.scOps := rfl
@[simp] theorem State.setThread_contexts (s : State) (t : Nat) (x : Thread) : (s.setThread t x).contexts = s.contexts := rfl
@[simp] theorem State.setThread_spillExcess (s : State) (t : Nat) (x : Thread) : (s.setThread t x).spillExcess = s.spillExcess := rfl
@[simp] theorem State.setThread_wire (s : State) (t : Nat) (x : Thread) : (s.setThread t x).wire = s.wire := rfl

/-! ### modThread -/

@[simp] theorem State.modThread_cur (s : State) (t : Nat) (f : Thread → Thread) : (s.modThread t f).cur = s.cur := rfl
@[simp] theorem State.modThread_ir (s : State) (t : Nat) (f : Thread → Thread) : (s.modThread t f).ir = s.ir := rfl
@[simp] theorem State.modThread_fwd (s : State) (t : Nat) (f : Thread → Thread) : (s.modThread t f).fwd = s.fwd := rfl
@[simp] theorem State.modThread_stalled (s : State) (t : Nat) (f : Thread → Thread) : (s.modThread t f).stalled = s.stalled := rfl
@[simp] theorem State.modThread_agenda (s : State) (t : Nat) (f : Thread → Thread) : (s.modThread t f).agenda = s.agenda := rfl
@[simp] theorem State.modThread_clock (s : State) (t : Nat) (f : Thread → Thread) : (s.modThread t f).clock = s.clock := rfl
@[simp] theorem State.modThread_phase (s : State) (t : Nat) (f : Thread → Thread) : (s.modThread t f).phase = s.phase := rfl
@[simp] theorem State.modThread_epoch (s : State) (t : Nat) (f : Thread → Thread) : (s.modThread t f).epoch = s.epoch := rfl
@[simp] theorem State.modThread_free (s : State) (t : Nat) (f : Thread → Thread) : (s.modThread t f).free = s.free := rfl
@[simp] theorem State.modThread_order (s : State) (t : Nat) (f : Thread → Thread) : (s.modThread t f).order = s.order := rfl
@[simp] theorem State.modThread_cores (s : State) (t : Nat) (f : Thread → Thread) : (s.modThread t f).cores = s.cores := rfl
@[simp] theorem State.modThread_clusters (s : State) (t : Nat) (f : Thread → Thread) : (s.modThread t f).clusters = s.clusters := rfl
@[simp] theorem State.modThread_dies (s : State) (t : Nat) (f : Thread → Thread) : (s.modThread t f).dies = s.dies := rfl
@[simp] theorem State.modThread_pkg (s : State) (t : Nat) (f : Thread → Thread) : (s.modThread t f).pkg = s.pkg := rfl
@[simp] theorem State.modThread_fab (s : State) (t : Nat) (f : Thread → Thread) : (s.modThread t f).fab = s.fab := rfl
@[simp] theorem State.modThread_trg (s : State) (t : Nat) (f : Thread → Thread) : (s.modThread t f).trg = s.trg := rfl
@[simp] theorem State.modThread_mem (s : State) (t : Nat) (f : Thread → Thread) : (s.modThread t f).mem = s.mem := rfl
@[simp] theorem State.modThread_memBad (s : State) (t : Nat) (f : Thread → Thread) : (s.modThread t f).memBad = s.memBad := rfl
@[simp] theorem State.modThread_tierKeys (s : State) (t : Nat) (f : Thread → Thread) : (s.modThread t f).tierKeys = s.tierKeys := rfl
@[simp] theorem State.modThread_reqs (s : State) (t : Nat) (f : Thread → Thread) : (s.modThread t f).reqs = s.reqs := rfl
@[simp] theorem State.modThread_nextId (s : State) (t : Nat) (f : Thread → Thread) : (s.modThread t f).nextId = s.nextId := rfl
@[simp] theorem State.modThread_forwards (s : State) (t : Nat) (f : Thread → Thread) : (s.modThread t f).forwards = s.forwards := rfl
@[simp] theorem State.modThread_scOps (s : State) (t : Nat) (f : Thread → Thread) : (s.modThread t f).scOps = s.scOps := rfl
@[simp] theorem State.modThread_contexts (s : State) (t : Nat) (f : Thread → Thread) : (s.modThread t f).contexts = s.contexts := rfl
@[simp] theorem State.modThread_spillExcess (s : State) (t : Nat) (f : Thread → Thread) : (s.modThread t f).spillExcess = s.spillExcess := rfl
@[simp] theorem State.modThread_wire (s : State) (t : Nat) (f : Thread → Thread) : (s.modThread t f).wire = s.wire := rfl

/-! ### setMe -/

@[simp] theorem State.setMe_cur (s : State) (x : Thread) : (s.setMe x).cur = s.cur := rfl
@[simp] theorem State.setMe_ir (s : State) (x : Thread) : (s.setMe x).ir = s.ir := rfl
@[simp] theorem State.setMe_fwd (s : State) (x : Thread) : (s.setMe x).fwd = s.fwd := rfl
@[simp] theorem State.setMe_stalled (s : State) (x : Thread) : (s.setMe x).stalled = s.stalled := rfl
@[simp] theorem State.setMe_agenda (s : State) (x : Thread) : (s.setMe x).agenda = s.agenda := rfl
@[simp] theorem State.setMe_clock (s : State) (x : Thread) : (s.setMe x).clock = s.clock := rfl
@[simp] theorem State.setMe_phase (s : State) (x : Thread) : (s.setMe x).phase = s.phase := rfl
@[simp] theorem State.setMe_epoch (s : State) (x : Thread) : (s.setMe x).epoch = s.epoch := rfl
@[simp] theorem State.setMe_free (s : State) (x : Thread) : (s.setMe x).free = s.free := rfl
@[simp] theorem State.setMe_order (s : State) (x : Thread) : (s.setMe x).order = s.order := rfl
@[simp] theorem State.setMe_cores (s : State) (x : Thread) : (s.setMe x).cores = s.cores := rfl
@[simp] theorem State.setMe_clusters (s : State) (x : Thread) : (s.setMe x).clusters = s.clusters := rfl
@[simp] theorem State.setMe_dies (s : State) (x : Thread) : (s.setMe x).dies = s.dies := rfl
@[simp] theorem State.setMe_pkg (s : State) (x : Thread) : (s.setMe x).pkg = s.pkg := rfl
@[simp] theorem State.setMe_fab (s : State) (x : Thread) : (s.setMe x).fab = s.fab := rfl
@[simp] theorem State.setMe_trg (s : State) (x : Thread) : (s.setMe x).trg = s.trg := rfl
@[simp] theorem State.setMe_mem (s : State) (x : Thread) : (s.setMe x).mem = s.mem := rfl
@[simp] theorem State.setMe_memBad (s : State) (x : Thread) : (s.setMe x).memBad = s.memBad := rfl
@[simp] theorem State.setMe_tierKeys (s : State) (x : Thread) : (s.setMe x).tierKeys = s.tierKeys := rfl
@[simp] theorem State.setMe_reqs (s : State) (x : Thread) : (s.setMe x).reqs = s.reqs := rfl
@[simp] theorem State.setMe_nextId (s : State) (x : Thread) : (s.setMe x).nextId = s.nextId := rfl
@[simp] theorem State.setMe_forwards (s : State) (x : Thread) : (s.setMe x).forwards = s.forwards := rfl
@[simp] theorem State.setMe_scOps (s : State) (x : Thread) : (s.setMe x).scOps = s.scOps := rfl
@[simp] theorem State.setMe_contexts (s : State) (x : Thread) : (s.setMe x).contexts = s.contexts := rfl
@[simp] theorem State.setMe_spillExcess (s : State) (x : Thread) : (s.setMe x).spillExcess = s.spillExcess := rfl
@[simp] theorem State.setMe_wire (s : State) (x : Thread) : (s.setMe x).wire = s.wire := rfl

/-! ### modMe -/

@[simp] theorem State.modMe_cur (s : State) (f : Thread → Thread) : (s.modMe f).cur = s.cur := rfl
@[simp] theorem State.modMe_ir (s : State) (f : Thread → Thread) : (s.modMe f).ir = s.ir := rfl
@[simp] theorem State.modMe_fwd (s : State) (f : Thread → Thread) : (s.modMe f).fwd = s.fwd := rfl
@[simp] theorem State.modMe_stalled (s : State) (f : Thread → Thread) : (s.modMe f).stalled = s.stalled := rfl
@[simp] theorem State.modMe_agenda (s : State) (f : Thread → Thread) : (s.modMe f).agenda = s.agenda := rfl
@[simp] theorem State.modMe_clock (s : State) (f : Thread → Thread) : (s.modMe f).clock = s.clock := rfl
@[simp] theorem State.modMe_phase (s : State) (f : Thread → Thread) : (s.modMe f).phase = s.phase := rfl
@[simp] theorem State.modMe_epoch (s : State) (f : Thread → Thread) : (s.modMe f).epoch = s.epoch := rfl
@[simp] theorem State.modMe_free (s : State) (f : Thread → Thread) : (s.modMe f).free = s.free := rfl
@[simp] theorem State.modMe_order (s : State) (f : Thread → Thread) : (s.modMe f).order = s.order := rfl
@[simp] theorem State.modMe_cores (s : State) (f : Thread → Thread) : (s.modMe f).cores = s.cores := rfl
@[simp] theorem State.modMe_clusters (s : State) (f : Thread → Thread) : (s.modMe f).clusters = s.clusters := rfl
@[simp] theorem State.modMe_dies (s : State) (f : Thread → Thread) : (s.modMe f).dies = s.dies := rfl
@[simp] theorem State.modMe_pkg (s : State) (f : Thread → Thread) : (s.modMe f).pkg = s.pkg := rfl
@[simp] theorem State.modMe_fab (s : State) (f : Thread → Thread) : (s.modMe f).fab = s.fab := rfl
@[simp] theorem State.modMe_trg (s : State) (f : Thread → Thread) : (s.modMe f).trg = s.trg := rfl
@[simp] theorem State.modMe_mem (s : State) (f : Thread → Thread) : (s.modMe f).mem = s.mem := rfl
@[simp] theorem State.modMe_memBad (s : State) (f : Thread → Thread) : (s.modMe f).memBad = s.memBad := rfl
@[simp] theorem State.modMe_tierKeys (s : State) (f : Thread → Thread) : (s.modMe f).tierKeys = s.tierKeys := rfl
@[simp] theorem State.modMe_reqs (s : State) (f : Thread → Thread) : (s.modMe f).reqs = s.reqs := rfl
@[simp] theorem State.modMe_nextId (s : State) (f : Thread → Thread) : (s.modMe f).nextId = s.nextId := rfl
@[simp] theorem State.modMe_forwards (s : State) (f : Thread → Thread) : (s.modMe f).forwards = s.forwards := rfl
@[simp] theorem State.modMe_scOps (s : State) (f : Thread → Thread) : (s.modMe f).scOps = s.scOps := rfl
@[simp] theorem State.modMe_contexts (s : State) (f : Thread → Thread) : (s.modMe f).contexts = s.contexts := rfl
@[simp] theorem State.modMe_spillExcess (s : State) (f : Thread → Thread) : (s.modMe f).spillExcess = s.spillExcess := rfl
@[simp] theorem State.modMe_wire (s : State) (f : Thread → Thread) : (s.modMe f).wire = s.wire := rfl

/-! ### wr -/

@[simp] theorem State.wr_cur (s : State) (r : Reg) (v : Word) : (s.wr r v).cur = s.cur := rfl
@[simp] theorem State.wr_ir (s : State) (r : Reg) (v : Word) : (s.wr r v).ir = s.ir := rfl
@[simp] theorem State.wr_fwd (s : State) (r : Reg) (v : Word) : (s.wr r v).fwd = s.fwd := rfl
@[simp] theorem State.wr_stalled (s : State) (r : Reg) (v : Word) : (s.wr r v).stalled = s.stalled := rfl
@[simp] theorem State.wr_agenda (s : State) (r : Reg) (v : Word) : (s.wr r v).agenda = s.agenda := rfl
@[simp] theorem State.wr_clock (s : State) (r : Reg) (v : Word) : (s.wr r v).clock = s.clock := rfl
@[simp] theorem State.wr_phase (s : State) (r : Reg) (v : Word) : (s.wr r v).phase = s.phase := rfl
@[simp] theorem State.wr_epoch (s : State) (r : Reg) (v : Word) : (s.wr r v).epoch = s.epoch := rfl
@[simp] theorem State.wr_free (s : State) (r : Reg) (v : Word) : (s.wr r v).free = s.free := rfl
@[simp] theorem State.wr_order (s : State) (r : Reg) (v : Word) : (s.wr r v).order = s.order := rfl
@[simp] theorem State.wr_cores (s : State) (r : Reg) (v : Word) : (s.wr r v).cores = s.cores := rfl
@[simp] theorem State.wr_clusters (s : State) (r : Reg) (v : Word) : (s.wr r v).clusters = s.clusters := rfl
@[simp] theorem State.wr_dies (s : State) (r : Reg) (v : Word) : (s.wr r v).dies = s.dies := rfl
@[simp] theorem State.wr_pkg (s : State) (r : Reg) (v : Word) : (s.wr r v).pkg = s.pkg := rfl
@[simp] theorem State.wr_fab (s : State) (r : Reg) (v : Word) : (s.wr r v).fab = s.fab := rfl
@[simp] theorem State.wr_trg (s : State) (r : Reg) (v : Word) : (s.wr r v).trg = s.trg := rfl
@[simp] theorem State.wr_mem (s : State) (r : Reg) (v : Word) : (s.wr r v).mem = s.mem := rfl
@[simp] theorem State.wr_memBad (s : State) (r : Reg) (v : Word) : (s.wr r v).memBad = s.memBad := rfl
@[simp] theorem State.wr_tierKeys (s : State) (r : Reg) (v : Word) : (s.wr r v).tierKeys = s.tierKeys := rfl
@[simp] theorem State.wr_reqs (s : State) (r : Reg) (v : Word) : (s.wr r v).reqs = s.reqs := rfl
@[simp] theorem State.wr_nextId (s : State) (r : Reg) (v : Word) : (s.wr r v).nextId = s.nextId := rfl
@[simp] theorem State.wr_forwards (s : State) (r : Reg) (v : Word) : (s.wr r v).forwards = s.forwards := rfl
@[simp] theorem State.wr_scOps (s : State) (r : Reg) (v : Word) : (s.wr r v).scOps = s.scOps := rfl
@[simp] theorem State.wr_contexts (s : State) (r : Reg) (v : Word) : (s.wr r v).contexts = s.contexts := rfl
@[simp] theorem State.wr_spillExcess (s : State) (r : Reg) (v : Word) : (s.wr r v).spillExcess = s.spillExcess := rfl
@[simp] theorem State.wr_wire (s : State) (r : Reg) (v : Word) : (s.wr r v).wire = s.wire := rfl

/-! ### advance -/

@[simp] theorem State.advance_cur (s : State) (n : Nat) : (s.advance n).cur = s.cur := rfl
@[simp] theorem State.advance_ir (s : State) (n : Nat) : (s.advance n).ir = s.ir := rfl
@[simp] theorem State.advance_fwd (s : State) (n : Nat) : (s.advance n).fwd = s.fwd := rfl
@[simp] theorem State.advance_stalled (s : State) (n : Nat) : (s.advance n).stalled = s.stalled := rfl
@[simp] theorem State.advance_agenda (s : State) (n : Nat) : (s.advance n).agenda = s.agenda := rfl
@[simp] theorem State.advance_clock (s : State) (n : Nat) : (s.advance n).clock = s.clock := rfl
@[simp] theorem State.advance_phase (s : State) (n : Nat) : (s.advance n).phase = s.phase := rfl
@[simp] theorem State.advance_epoch (s : State) (n : Nat) : (s.advance n).epoch = s.epoch := rfl
@[simp] theorem State.advance_free (s : State) (n : Nat) : (s.advance n).free = s.free := rfl
@[simp] theorem State.advance_order (s : State) (n : Nat) : (s.advance n).order = s.order := rfl
@[simp] theorem State.advance_cores (s : State) (n : Nat) : (s.advance n).cores = s.cores := rfl
@[simp] theorem State.advance_clusters (s : State) (n : Nat) : (s.advance n).clusters = s.clusters := rfl
@[simp] theorem State.advance_dies (s : State) (n : Nat) : (s.advance n).dies = s.dies := rfl
@[simp] theorem State.advance_pkg (s : State) (n : Nat) : (s.advance n).pkg = s.pkg := rfl
@[simp] theorem State.advance_fab (s : State) (n : Nat) : (s.advance n).fab = s.fab := rfl
@[simp] theorem State.advance_trg (s : State) (n : Nat) : (s.advance n).trg = s.trg := rfl
@[simp] theorem State.advance_mem (s : State) (n : Nat) : (s.advance n).mem = s.mem := rfl
@[simp] theorem State.advance_memBad (s : State) (n : Nat) : (s.advance n).memBad = s.memBad := rfl
@[simp] theorem State.advance_tierKeys (s : State) (n : Nat) : (s.advance n).tierKeys = s.tierKeys := rfl
@[simp] theorem State.advance_reqs (s : State) (n : Nat) : (s.advance n).reqs = s.reqs := rfl
@[simp] theorem State.advance_nextId (s : State) (n : Nat) : (s.advance n).nextId = s.nextId := rfl
@[simp] theorem State.advance_forwards (s : State) (n : Nat) : (s.advance n).forwards = s.forwards := rfl
@[simp] theorem State.advance_scOps (s : State) (n : Nat) : (s.advance n).scOps = s.scOps := rfl
@[simp] theorem State.advance_contexts (s : State) (n : Nat) : (s.advance n).contexts = s.contexts := rfl
@[simp] theorem State.advance_spillExcess (s : State) (n : Nat) : (s.advance n).spillExcess = s.spillExcess := rfl
@[simp] theorem State.advance_wire (s : State) (n : Nat) : (s.advance n).wire = s.wire := rfl

/-! ### goto -/

@[simp] theorem State.goto_cur (s : State) (v : Word) : (s.goto v).cur = s.cur := rfl
@[simp] theorem State.goto_ir (s : State) (v : Word) : (s.goto v).ir = s.ir := rfl
@[simp] theorem State.goto_fwd (s : State) (v : Word) : (s.goto v).fwd = s.fwd := rfl
@[simp] theorem State.goto_stalled (s : State) (v : Word) : (s.goto v).stalled = s.stalled := rfl
@[simp] theorem State.goto_agenda (s : State) (v : Word) : (s.goto v).agenda = s.agenda := rfl
@[simp] theorem State.goto_clock (s : State) (v : Word) : (s.goto v).clock = s.clock := rfl
@[simp] theorem State.goto_phase (s : State) (v : Word) : (s.goto v).phase = s.phase := rfl
@[simp] theorem State.goto_epoch (s : State) (v : Word) : (s.goto v).epoch = s.epoch := rfl
@[simp] theorem State.goto_free (s : State) (v : Word) : (s.goto v).free = s.free := rfl
@[simp] theorem State.goto_order (s : State) (v : Word) : (s.goto v).order = s.order := rfl
@[simp] theorem State.goto_cores (s : State) (v : Word) : (s.goto v).cores = s.cores := rfl
@[simp] theorem State.goto_clusters (s : State) (v : Word) : (s.goto v).clusters = s.clusters := rfl
@[simp] theorem State.goto_dies (s : State) (v : Word) : (s.goto v).dies = s.dies := rfl
@[simp] theorem State.goto_pkg (s : State) (v : Word) : (s.goto v).pkg = s.pkg := rfl
@[simp] theorem State.goto_fab (s : State) (v : Word) : (s.goto v).fab = s.fab := rfl
@[simp] theorem State.goto_trg (s : State) (v : Word) : (s.goto v).trg = s.trg := rfl
@[simp] theorem State.goto_mem (s : State) (v : Word) : (s.goto v).mem = s.mem := rfl
@[simp] theorem State.goto_memBad (s : State) (v : Word) : (s.goto v).memBad = s.memBad := rfl
@[simp] theorem State.goto_tierKeys (s : State) (v : Word) : (s.goto v).tierKeys = s.tierKeys := rfl
@[simp] theorem State.goto_reqs (s : State) (v : Word) : (s.goto v).reqs = s.reqs := rfl
@[simp] theorem State.goto_nextId (s : State) (v : Word) : (s.goto v).nextId = s.nextId := rfl
@[simp] theorem State.goto_forwards (s : State) (v : Word) : (s.goto v).forwards = s.forwards := rfl
@[simp] theorem State.goto_scOps (s : State) (v : Word) : (s.goto v).scOps = s.scOps := rfl
@[simp] theorem State.goto_contexts (s : State) (v : Word) : (s.goto v).contexts = s.contexts := rfl
@[simp] theorem State.goto_spillExcess (s : State) (v : Word) : (s.goto v).spillExcess = s.spillExcess := rfl
@[simp] theorem State.goto_wire (s : State) (v : Word) : (s.goto v).wire = s.wire := rfl

/-! ### setCore -/

@[simp] theorem State.setCore_cur (s : State) (c : Nat) (x : Core) : (s.setCore c x).cur = s.cur := rfl
@[simp] theorem State.setCore_ir (s : State) (c : Nat) (x : Core) : (s.setCore c x).ir = s.ir := rfl
@[simp] theorem State.setCore_fwd (s : State) (c : Nat) (x : Core) : (s.setCore c x).fwd = s.fwd := rfl
@[simp] theorem State.setCore_stalled (s : State) (c : Nat) (x : Core) : (s.setCore c x).stalled = s.stalled := rfl
@[simp] theorem State.setCore_agenda (s : State) (c : Nat) (x : Core) : (s.setCore c x).agenda = s.agenda := rfl
@[simp] theorem State.setCore_clock (s : State) (c : Nat) (x : Core) : (s.setCore c x).clock = s.clock := rfl
@[simp] theorem State.setCore_phase (s : State) (c : Nat) (x : Core) : (s.setCore c x).phase = s.phase := rfl
@[simp] theorem State.setCore_epoch (s : State) (c : Nat) (x : Core) : (s.setCore c x).epoch = s.epoch := rfl
@[simp] theorem State.setCore_free (s : State) (c : Nat) (x : Core) : (s.setCore c x).free = s.free := rfl
@[simp] theorem State.setCore_order (s : State) (c : Nat) (x : Core) : (s.setCore c x).order = s.order := rfl
@[simp] theorem State.setCore_threads (s : State) (c : Nat) (x : Core) : (s.setCore c x).threads = s.threads := rfl
@[simp] theorem State.setCore_clusters (s : State) (c : Nat) (x : Core) : (s.setCore c x).clusters = s.clusters := rfl
@[simp] theorem State.setCore_dies (s : State) (c : Nat) (x : Core) : (s.setCore c x).dies = s.dies := rfl
@[simp] theorem State.setCore_pkg (s : State) (c : Nat) (x : Core) : (s.setCore c x).pkg = s.pkg := rfl
@[simp] theorem State.setCore_fab (s : State) (c : Nat) (x : Core) : (s.setCore c x).fab = s.fab := rfl
@[simp] theorem State.setCore_trg (s : State) (c : Nat) (x : Core) : (s.setCore c x).trg = s.trg := rfl
@[simp] theorem State.setCore_mem (s : State) (c : Nat) (x : Core) : (s.setCore c x).mem = s.mem := rfl
@[simp] theorem State.setCore_memBad (s : State) (c : Nat) (x : Core) : (s.setCore c x).memBad = s.memBad := rfl
@[simp] theorem State.setCore_tierKeys (s : State) (c : Nat) (x : Core) : (s.setCore c x).tierKeys = s.tierKeys := rfl
@[simp] theorem State.setCore_reqs (s : State) (c : Nat) (x : Core) : (s.setCore c x).reqs = s.reqs := rfl
@[simp] theorem State.setCore_nextId (s : State) (c : Nat) (x : Core) : (s.setCore c x).nextId = s.nextId := rfl
@[simp] theorem State.setCore_forwards (s : State) (c : Nat) (x : Core) : (s.setCore c x).forwards = s.forwards := rfl
@[simp] theorem State.setCore_scOps (s : State) (c : Nat) (x : Core) : (s.setCore c x).scOps = s.scOps := rfl
@[simp] theorem State.setCore_contexts (s : State) (c : Nat) (x : Core) : (s.setCore c x).contexts = s.contexts := rfl
@[simp] theorem State.setCore_spillExcess (s : State) (c : Nat) (x : Core) : (s.setCore c x).spillExcess = s.spillExcess := rfl
@[simp] theorem State.setCore_wire (s : State) (c : Nat) (x : Core) : (s.setCore c x).wire = s.wire := rfl

/-! ### modCore -/

@[simp] theorem State.modCore_cur (s : State) (c : Nat) (f : Core → Core) : (s.modCore c f).cur = s.cur := rfl
@[simp] theorem State.modCore_ir (s : State) (c : Nat) (f : Core → Core) : (s.modCore c f).ir = s.ir := rfl
@[simp] theorem State.modCore_fwd (s : State) (c : Nat) (f : Core → Core) : (s.modCore c f).fwd = s.fwd := rfl
@[simp] theorem State.modCore_stalled (s : State) (c : Nat) (f : Core → Core) : (s.modCore c f).stalled = s.stalled := rfl
@[simp] theorem State.modCore_agenda (s : State) (c : Nat) (f : Core → Core) : (s.modCore c f).agenda = s.agenda := rfl
@[simp] theorem State.modCore_clock (s : State) (c : Nat) (f : Core → Core) : (s.modCore c f).clock = s.clock := rfl
@[simp] theorem State.modCore_phase (s : State) (c : Nat) (f : Core → Core) : (s.modCore c f).phase = s.phase := rfl
@[simp] theorem State.modCore_epoch (s : State) (c : Nat) (f : Core → Core) : (s.modCore c f).epoch = s.epoch := rfl
@[simp] theorem State.modCore_free (s : State) (c : Nat) (f : Core → Core) : (s.modCore c f).free = s.free := rfl
@[simp] theorem State.modCore_order (s : State) (c : Nat) (f : Core → Core) : (s.modCore c f).order = s.order := rfl
@[simp] theorem State.modCore_threads (s : State) (c : Nat) (f : Core → Core) : (s.modCore c f).threads = s.threads := rfl
@[simp] theorem State.modCore_clusters (s : State) (c : Nat) (f : Core → Core) : (s.modCore c f).clusters = s.clusters := rfl
@[simp] theorem State.modCore_dies (s : State) (c : Nat) (f : Core → Core) : (s.modCore c f).dies = s.dies := rfl
@[simp] theorem State.modCore_pkg (s : State) (c : Nat) (f : Core → Core) : (s.modCore c f).pkg = s.pkg := rfl
@[simp] theorem State.modCore_fab (s : State) (c : Nat) (f : Core → Core) : (s.modCore c f).fab = s.fab := rfl
@[simp] theorem State.modCore_trg (s : State) (c : Nat) (f : Core → Core) : (s.modCore c f).trg = s.trg := rfl
@[simp] theorem State.modCore_mem (s : State) (c : Nat) (f : Core → Core) : (s.modCore c f).mem = s.mem := rfl
@[simp] theorem State.modCore_memBad (s : State) (c : Nat) (f : Core → Core) : (s.modCore c f).memBad = s.memBad := rfl
@[simp] theorem State.modCore_tierKeys (s : State) (c : Nat) (f : Core → Core) : (s.modCore c f).tierKeys = s.tierKeys := rfl
@[simp] theorem State.modCore_reqs (s : State) (c : Nat) (f : Core → Core) : (s.modCore c f).reqs = s.reqs := rfl
@[simp] theorem State.modCore_nextId (s : State) (c : Nat) (f : Core → Core) : (s.modCore c f).nextId = s.nextId := rfl
@[simp] theorem State.modCore_forwards (s : State) (c : Nat) (f : Core → Core) : (s.modCore c f).forwards = s.forwards := rfl
@[simp] theorem State.modCore_scOps (s : State) (c : Nat) (f : Core → Core) : (s.modCore c f).scOps = s.scOps := rfl
@[simp] theorem State.modCore_contexts (s : State) (c : Nat) (f : Core → Core) : (s.modCore c f).contexts = s.contexts := rfl
@[simp] theorem State.modCore_spillExcess (s : State) (c : Nat) (f : Core → Core) : (s.modCore c f).spillExcess = s.spillExcess := rfl
@[simp] theorem State.modCore_wire (s : State) (c : Nat) (f : Core → Core) : (s.modCore c f).wire = s.wire := rfl

/-! ### setCluster -/

@[simp] theorem State.setCluster_cur (s : State) (c : Nat) (x : Cluster) : (s.setCluster c x).cur = s.cur := rfl
@[simp] theorem State.setCluster_ir (s : State) (c : Nat) (x : Cluster) : (s.setCluster c x).ir = s.ir := rfl
@[simp] theorem State.setCluster_fwd (s : State) (c : Nat) (x : Cluster) : (s.setCluster c x).fwd = s.fwd := rfl
@[simp] theorem State.setCluster_stalled (s : State) (c : Nat) (x : Cluster) : (s.setCluster c x).stalled = s.stalled := rfl
@[simp] theorem State.setCluster_agenda (s : State) (c : Nat) (x : Cluster) : (s.setCluster c x).agenda = s.agenda := rfl
@[simp] theorem State.setCluster_clock (s : State) (c : Nat) (x : Cluster) : (s.setCluster c x).clock = s.clock := rfl
@[simp] theorem State.setCluster_phase (s : State) (c : Nat) (x : Cluster) : (s.setCluster c x).phase = s.phase := rfl
@[simp] theorem State.setCluster_epoch (s : State) (c : Nat) (x : Cluster) : (s.setCluster c x).epoch = s.epoch := rfl
@[simp] theorem State.setCluster_free (s : State) (c : Nat) (x : Cluster) : (s.setCluster c x).free = s.free := rfl
@[simp] theorem State.setCluster_order (s : State) (c : Nat) (x : Cluster) : (s.setCluster c x).order = s.order := rfl
@[simp] theorem State.setCluster_threads (s : State) (c : Nat) (x : Cluster) : (s.setCluster c x).threads = s.threads := rfl
@[simp] theorem State.setCluster_cores (s : State) (c : Nat) (x : Cluster) : (s.setCluster c x).cores = s.cores := rfl
@[simp] theorem State.setCluster_dies (s : State) (c : Nat) (x : Cluster) : (s.setCluster c x).dies = s.dies := rfl
@[simp] theorem State.setCluster_pkg (s : State) (c : Nat) (x : Cluster) : (s.setCluster c x).pkg = s.pkg := rfl
@[simp] theorem State.setCluster_fab (s : State) (c : Nat) (x : Cluster) : (s.setCluster c x).fab = s.fab := rfl
@[simp] theorem State.setCluster_trg (s : State) (c : Nat) (x : Cluster) : (s.setCluster c x).trg = s.trg := rfl
@[simp] theorem State.setCluster_mem (s : State) (c : Nat) (x : Cluster) : (s.setCluster c x).mem = s.mem := rfl
@[simp] theorem State.setCluster_memBad (s : State) (c : Nat) (x : Cluster) : (s.setCluster c x).memBad = s.memBad := rfl
@[simp] theorem State.setCluster_tierKeys (s : State) (c : Nat) (x : Cluster) : (s.setCluster c x).tierKeys = s.tierKeys := rfl
@[simp] theorem State.setCluster_reqs (s : State) (c : Nat) (x : Cluster) : (s.setCluster c x).reqs = s.reqs := rfl
@[simp] theorem State.setCluster_nextId (s : State) (c : Nat) (x : Cluster) : (s.setCluster c x).nextId = s.nextId := rfl
@[simp] theorem State.setCluster_forwards (s : State) (c : Nat) (x : Cluster) : (s.setCluster c x).forwards = s.forwards := rfl
@[simp] theorem State.setCluster_scOps (s : State) (c : Nat) (x : Cluster) : (s.setCluster c x).scOps = s.scOps := rfl
@[simp] theorem State.setCluster_contexts (s : State) (c : Nat) (x : Cluster) : (s.setCluster c x).contexts = s.contexts := rfl
@[simp] theorem State.setCluster_spillExcess (s : State) (c : Nat) (x : Cluster) : (s.setCluster c x).spillExcess = s.spillExcess := rfl
@[simp] theorem State.setCluster_wire (s : State) (c : Nat) (x : Cluster) : (s.setCluster c x).wire = s.wire := rfl

/-! ### modCluster -/

@[simp] theorem State.modCluster_cur (s : State) (c : Nat) (f : Cluster → Cluster) : (s.modCluster c f).cur = s.cur := rfl
@[simp] theorem State.modCluster_ir (s : State) (c : Nat) (f : Cluster → Cluster) : (s.modCluster c f).ir = s.ir := rfl
@[simp] theorem State.modCluster_fwd (s : State) (c : Nat) (f : Cluster → Cluster) : (s.modCluster c f).fwd = s.fwd := rfl
@[simp] theorem State.modCluster_stalled (s : State) (c : Nat) (f : Cluster → Cluster) : (s.modCluster c f).stalled = s.stalled := rfl
@[simp] theorem State.modCluster_agenda (s : State) (c : Nat) (f : Cluster → Cluster) : (s.modCluster c f).agenda = s.agenda := rfl
@[simp] theorem State.modCluster_clock (s : State) (c : Nat) (f : Cluster → Cluster) : (s.modCluster c f).clock = s.clock := rfl
@[simp] theorem State.modCluster_phase (s : State) (c : Nat) (f : Cluster → Cluster) : (s.modCluster c f).phase = s.phase := rfl
@[simp] theorem State.modCluster_epoch (s : State) (c : Nat) (f : Cluster → Cluster) : (s.modCluster c f).epoch = s.epoch := rfl
@[simp] theorem State.modCluster_free (s : State) (c : Nat) (f : Cluster → Cluster) : (s.modCluster c f).free = s.free := rfl
@[simp] theorem State.modCluster_order (s : State) (c : Nat) (f : Cluster → Cluster) : (s.modCluster c f).order = s.order := rfl
@[simp] theorem State.modCluster_threads (s : State) (c : Nat) (f : Cluster → Cluster) : (s.modCluster c f).threads = s.threads := rfl
@[simp] theorem State.modCluster_cores (s : State) (c : Nat) (f : Cluster → Cluster) : (s.modCluster c f).cores = s.cores := rfl
@[simp] theorem State.modCluster_dies (s : State) (c : Nat) (f : Cluster → Cluster) : (s.modCluster c f).dies = s.dies := rfl
@[simp] theorem State.modCluster_pkg (s : State) (c : Nat) (f : Cluster → Cluster) : (s.modCluster c f).pkg = s.pkg := rfl
@[simp] theorem State.modCluster_fab (s : State) (c : Nat) (f : Cluster → Cluster) : (s.modCluster c f).fab = s.fab := rfl
@[simp] theorem State.modCluster_trg (s : State) (c : Nat) (f : Cluster → Cluster) : (s.modCluster c f).trg = s.trg := rfl
@[simp] theorem State.modCluster_mem (s : State) (c : Nat) (f : Cluster → Cluster) : (s.modCluster c f).mem = s.mem := rfl
@[simp] theorem State.modCluster_memBad (s : State) (c : Nat) (f : Cluster → Cluster) : (s.modCluster c f).memBad = s.memBad := rfl
@[simp] theorem State.modCluster_tierKeys (s : State) (c : Nat) (f : Cluster → Cluster) : (s.modCluster c f).tierKeys = s.tierKeys := rfl
@[simp] theorem State.modCluster_reqs (s : State) (c : Nat) (f : Cluster → Cluster) : (s.modCluster c f).reqs = s.reqs := rfl
@[simp] theorem State.modCluster_nextId (s : State) (c : Nat) (f : Cluster → Cluster) : (s.modCluster c f).nextId = s.nextId := rfl
@[simp] theorem State.modCluster_forwards (s : State) (c : Nat) (f : Cluster → Cluster) : (s.modCluster c f).forwards = s.forwards := rfl
@[simp] theorem State.modCluster_scOps (s : State) (c : Nat) (f : Cluster → Cluster) : (s.modCluster c f).scOps = s.scOps := rfl
@[simp] theorem State.modCluster_contexts (s : State) (c : Nat) (f : Cluster → Cluster) : (s.modCluster c f).contexts = s.contexts := rfl
@[simp] theorem State.modCluster_spillExcess (s : State) (c : Nat) (f : Cluster → Cluster) : (s.modCluster c f).spillExcess = s.spillExcess := rfl
@[simp] theorem State.modCluster_wire (s : State) (c : Nat) (f : Cluster → Cluster) : (s.modCluster c f).wire = s.wire := rfl

/-! ### setDie -/

@[simp] theorem State.setDie_cur (s : State) (d : Nat) (x : Die) : (s.setDie d x).cur = s.cur := rfl
@[simp] theorem State.setDie_ir (s : State) (d : Nat) (x : Die) : (s.setDie d x).ir = s.ir := rfl
@[simp] theorem State.setDie_fwd (s : State) (d : Nat) (x : Die) : (s.setDie d x).fwd = s.fwd := rfl
@[simp] theorem State.setDie_stalled (s : State) (d : Nat) (x : Die) : (s.setDie d x).stalled = s.stalled := rfl
@[simp] theorem State.setDie_agenda (s : State) (d : Nat) (x : Die) : (s.setDie d x).agenda = s.agenda := rfl
@[simp] theorem State.setDie_clock (s : State) (d : Nat) (x : Die) : (s.setDie d x).clock = s.clock := rfl
@[simp] theorem State.setDie_phase (s : State) (d : Nat) (x : Die) : (s.setDie d x).phase = s.phase := rfl
@[simp] theorem State.setDie_epoch (s : State) (d : Nat) (x : Die) : (s.setDie d x).epoch = s.epoch := rfl
@[simp] theorem State.setDie_free (s : State) (d : Nat) (x : Die) : (s.setDie d x).free = s.free := rfl
@[simp] theorem State.setDie_order (s : State) (d : Nat) (x : Die) : (s.setDie d x).order = s.order := rfl
@[simp] theorem State.setDie_threads (s : State) (d : Nat) (x : Die) : (s.setDie d x).threads = s.threads := rfl
@[simp] theorem State.setDie_cores (s : State) (d : Nat) (x : Die) : (s.setDie d x).cores = s.cores := rfl
@[simp] theorem State.setDie_clusters (s : State) (d : Nat) (x : Die) : (s.setDie d x).clusters = s.clusters := rfl
@[simp] theorem State.setDie_pkg (s : State) (d : Nat) (x : Die) : (s.setDie d x).pkg = s.pkg := rfl
@[simp] theorem State.setDie_fab (s : State) (d : Nat) (x : Die) : (s.setDie d x).fab = s.fab := rfl
@[simp] theorem State.setDie_trg (s : State) (d : Nat) (x : Die) : (s.setDie d x).trg = s.trg := rfl
@[simp] theorem State.setDie_mem (s : State) (d : Nat) (x : Die) : (s.setDie d x).mem = s.mem := rfl
@[simp] theorem State.setDie_memBad (s : State) (d : Nat) (x : Die) : (s.setDie d x).memBad = s.memBad := rfl
@[simp] theorem State.setDie_tierKeys (s : State) (d : Nat) (x : Die) : (s.setDie d x).tierKeys = s.tierKeys := rfl
@[simp] theorem State.setDie_reqs (s : State) (d : Nat) (x : Die) : (s.setDie d x).reqs = s.reqs := rfl
@[simp] theorem State.setDie_nextId (s : State) (d : Nat) (x : Die) : (s.setDie d x).nextId = s.nextId := rfl
@[simp] theorem State.setDie_forwards (s : State) (d : Nat) (x : Die) : (s.setDie d x).forwards = s.forwards := rfl
@[simp] theorem State.setDie_scOps (s : State) (d : Nat) (x : Die) : (s.setDie d x).scOps = s.scOps := rfl
@[simp] theorem State.setDie_contexts (s : State) (d : Nat) (x : Die) : (s.setDie d x).contexts = s.contexts := rfl
@[simp] theorem State.setDie_spillExcess (s : State) (d : Nat) (x : Die) : (s.setDie d x).spillExcess = s.spillExcess := rfl
@[simp] theorem State.setDie_wire (s : State) (d : Nat) (x : Die) : (s.setDie d x).wire = s.wire := rfl

/-! ### modDie -/

@[simp] theorem State.modDie_cur (s : State) (d : Nat) (f : Die → Die) : (s.modDie d f).cur = s.cur := rfl
@[simp] theorem State.modDie_ir (s : State) (d : Nat) (f : Die → Die) : (s.modDie d f).ir = s.ir := rfl
@[simp] theorem State.modDie_fwd (s : State) (d : Nat) (f : Die → Die) : (s.modDie d f).fwd = s.fwd := rfl
@[simp] theorem State.modDie_stalled (s : State) (d : Nat) (f : Die → Die) : (s.modDie d f).stalled = s.stalled := rfl
@[simp] theorem State.modDie_agenda (s : State) (d : Nat) (f : Die → Die) : (s.modDie d f).agenda = s.agenda := rfl
@[simp] theorem State.modDie_clock (s : State) (d : Nat) (f : Die → Die) : (s.modDie d f).clock = s.clock := rfl
@[simp] theorem State.modDie_phase (s : State) (d : Nat) (f : Die → Die) : (s.modDie d f).phase = s.phase := rfl
@[simp] theorem State.modDie_epoch (s : State) (d : Nat) (f : Die → Die) : (s.modDie d f).epoch = s.epoch := rfl
@[simp] theorem State.modDie_free (s : State) (d : Nat) (f : Die → Die) : (s.modDie d f).free = s.free := rfl
@[simp] theorem State.modDie_order (s : State) (d : Nat) (f : Die → Die) : (s.modDie d f).order = s.order := rfl
@[simp] theorem State.modDie_threads (s : State) (d : Nat) (f : Die → Die) : (s.modDie d f).threads = s.threads := rfl
@[simp] theorem State.modDie_cores (s : State) (d : Nat) (f : Die → Die) : (s.modDie d f).cores = s.cores := rfl
@[simp] theorem State.modDie_clusters (s : State) (d : Nat) (f : Die → Die) : (s.modDie d f).clusters = s.clusters := rfl
@[simp] theorem State.modDie_pkg (s : State) (d : Nat) (f : Die → Die) : (s.modDie d f).pkg = s.pkg := rfl
@[simp] theorem State.modDie_fab (s : State) (d : Nat) (f : Die → Die) : (s.modDie d f).fab = s.fab := rfl
@[simp] theorem State.modDie_trg (s : State) (d : Nat) (f : Die → Die) : (s.modDie d f).trg = s.trg := rfl
@[simp] theorem State.modDie_mem (s : State) (d : Nat) (f : Die → Die) : (s.modDie d f).mem = s.mem := rfl
@[simp] theorem State.modDie_memBad (s : State) (d : Nat) (f : Die → Die) : (s.modDie d f).memBad = s.memBad := rfl
@[simp] theorem State.modDie_tierKeys (s : State) (d : Nat) (f : Die → Die) : (s.modDie d f).tierKeys = s.tierKeys := rfl
@[simp] theorem State.modDie_reqs (s : State) (d : Nat) (f : Die → Die) : (s.modDie d f).reqs = s.reqs := rfl
@[simp] theorem State.modDie_nextId (s : State) (d : Nat) (f : Die → Die) : (s.modDie d f).nextId = s.nextId := rfl
@[simp] theorem State.modDie_forwards (s : State) (d : Nat) (f : Die → Die) : (s.modDie d f).forwards = s.forwards := rfl
@[simp] theorem State.modDie_scOps (s : State) (d : Nat) (f : Die → Die) : (s.modDie d f).scOps = s.scOps := rfl
@[simp] theorem State.modDie_contexts (s : State) (d : Nat) (f : Die → Die) : (s.modDie d f).contexts = s.contexts := rfl
@[simp] theorem State.modDie_spillExcess (s : State) (d : Nat) (f : Die → Die) : (s.modDie d f).spillExcess = s.spillExcess := rfl
@[simp] theorem State.modDie_wire (s : State) (d : Nat) (f : Die → Die) : (s.modDie d f).wire = s.wire := rfl

/-! ### modPkg -/

@[simp] theorem State.modPkg_cur (s : State) (f : Package → Package) : (s.modPkg f).cur = s.cur := rfl
@[simp] theorem State.modPkg_ir (s : State) (f : Package → Package) : (s.modPkg f).ir = s.ir := rfl
@[simp] theorem State.modPkg_fwd (s : State) (f : Package → Package) : (s.modPkg f).fwd = s.fwd := rfl
@[simp] theorem State.modPkg_stalled (s : State) (f : Package → Package) : (s.modPkg f).stalled = s.stalled := rfl
@[simp] theorem State.modPkg_agenda (s : State) (f : Package → Package) : (s.modPkg f).agenda = s.agenda := rfl
@[simp] theorem State.modPkg_clock (s : State) (f : Package → Package) : (s.modPkg f).clock = s.clock := rfl
@[simp] theorem State.modPkg_phase (s : State) (f : Package → Package) : (s.modPkg f).phase = s.phase := rfl
@[simp] theorem State.modPkg_epoch (s : State) (f : Package → Package) : (s.modPkg f).epoch = s.epoch := rfl
@[simp] theorem State.modPkg_free (s : State) (f : Package → Package) : (s.modPkg f).free = s.free := rfl
@[simp] theorem State.modPkg_order (s : State) (f : Package → Package) : (s.modPkg f).order = s.order := rfl
@[simp] theorem State.modPkg_threads (s : State) (f : Package → Package) : (s.modPkg f).threads = s.threads := rfl
@[simp] theorem State.modPkg_cores (s : State) (f : Package → Package) : (s.modPkg f).cores = s.cores := rfl
@[simp] theorem State.modPkg_clusters (s : State) (f : Package → Package) : (s.modPkg f).clusters = s.clusters := rfl
@[simp] theorem State.modPkg_dies (s : State) (f : Package → Package) : (s.modPkg f).dies = s.dies := rfl
@[simp] theorem State.modPkg_fab (s : State) (f : Package → Package) : (s.modPkg f).fab = s.fab := rfl
@[simp] theorem State.modPkg_trg (s : State) (f : Package → Package) : (s.modPkg f).trg = s.trg := rfl
@[simp] theorem State.modPkg_mem (s : State) (f : Package → Package) : (s.modPkg f).mem = s.mem := rfl
@[simp] theorem State.modPkg_memBad (s : State) (f : Package → Package) : (s.modPkg f).memBad = s.memBad := rfl
@[simp] theorem State.modPkg_tierKeys (s : State) (f : Package → Package) : (s.modPkg f).tierKeys = s.tierKeys := rfl
@[simp] theorem State.modPkg_reqs (s : State) (f : Package → Package) : (s.modPkg f).reqs = s.reqs := rfl
@[simp] theorem State.modPkg_nextId (s : State) (f : Package → Package) : (s.modPkg f).nextId = s.nextId := rfl
@[simp] theorem State.modPkg_forwards (s : State) (f : Package → Package) : (s.modPkg f).forwards = s.forwards := rfl
@[simp] theorem State.modPkg_scOps (s : State) (f : Package → Package) : (s.modPkg f).scOps = s.scOps := rfl
@[simp] theorem State.modPkg_contexts (s : State) (f : Package → Package) : (s.modPkg f).contexts = s.contexts := rfl
@[simp] theorem State.modPkg_spillExcess (s : State) (f : Package → Package) : (s.modPkg f).spillExcess = s.spillExcess := rfl
@[simp] theorem State.modPkg_wire (s : State) (f : Package → Package) : (s.modPkg f).wire = s.wire := rfl

/-! ### took -/

@[simp] theorem State.took_cur (s : State) : (s.took).cur = s.cur := rfl
@[simp] theorem State.took_ir (s : State) : (s.took).ir = s.ir := rfl
@[simp] theorem State.took_fwd (s : State) : (s.took).fwd = s.fwd := rfl
@[simp] theorem State.took_stalled (s : State) : (s.took).stalled = s.stalled := rfl
@[simp] theorem State.took_agenda (s : State) : (s.took).agenda = s.agenda := rfl
@[simp] theorem State.took_clock (s : State) : (s.took).clock = s.clock := rfl
@[simp] theorem State.took_phase (s : State) : (s.took).phase = s.phase := rfl
@[simp] theorem State.took_epoch (s : State) : (s.took).epoch = s.epoch := rfl
@[simp] theorem State.took_order (s : State) : (s.took).order = s.order := rfl
@[simp] theorem State.took_threads (s : State) : (s.took).threads = s.threads := rfl
@[simp] theorem State.took_cores (s : State) : (s.took).cores = s.cores := rfl
@[simp] theorem State.took_clusters (s : State) : (s.took).clusters = s.clusters := rfl
@[simp] theorem State.took_dies (s : State) : (s.took).dies = s.dies := rfl
@[simp] theorem State.took_pkg (s : State) : (s.took).pkg = s.pkg := rfl
@[simp] theorem State.took_fab (s : State) : (s.took).fab = s.fab := rfl
@[simp] theorem State.took_trg (s : State) : (s.took).trg = s.trg := rfl
@[simp] theorem State.took_mem (s : State) : (s.took).mem = s.mem := rfl
@[simp] theorem State.took_memBad (s : State) : (s.took).memBad = s.memBad := rfl
@[simp] theorem State.took_tierKeys (s : State) : (s.took).tierKeys = s.tierKeys := rfl
@[simp] theorem State.took_reqs (s : State) : (s.took).reqs = s.reqs := rfl
@[simp] theorem State.took_nextId (s : State) : (s.took).nextId = s.nextId := rfl
@[simp] theorem State.took_forwards (s : State) : (s.took).forwards = s.forwards := rfl
@[simp] theorem State.took_scOps (s : State) : (s.took).scOps = s.scOps := rfl
@[simp] theorem State.took_contexts (s : State) : (s.took).contexts = s.contexts := rfl
@[simp] theorem State.took_spillExcess (s : State) : (s.took).spillExcess = s.spillExcess := rfl
@[simp] theorem State.took_wire (s : State) : (s.took).wire = s.wire := rfl

/-! ### returnFromTrap -/

@[simp] theorem State.returnFromTrap_cur (s : State) (t : Nat) : (s.returnFromTrap t).cur = s.cur := rfl
@[simp] theorem State.returnFromTrap_ir (s : State) (t : Nat) : (s.returnFromTrap t).ir = s.ir := rfl
@[simp] theorem State.returnFromTrap_fwd (s : State) (t : Nat) : (s.returnFromTrap t).fwd = s.fwd := rfl
@[simp] theorem State.returnFromTrap_stalled (s : State) (t : Nat) : (s.returnFromTrap t).stalled = s.stalled := rfl
@[simp] theorem State.returnFromTrap_agenda (s : State) (t : Nat) : (s.returnFromTrap t).agenda = s.agenda := rfl
@[simp] theorem State.returnFromTrap_clock (s : State) (t : Nat) : (s.returnFromTrap t).clock = s.clock := rfl
@[simp] theorem State.returnFromTrap_phase (s : State) (t : Nat) : (s.returnFromTrap t).phase = s.phase := rfl
@[simp] theorem State.returnFromTrap_epoch (s : State) (t : Nat) : (s.returnFromTrap t).epoch = s.epoch := rfl
@[simp] theorem State.returnFromTrap_free (s : State) (t : Nat) : (s.returnFromTrap t).free = s.free := rfl
@[simp] theorem State.returnFromTrap_order (s : State) (t : Nat) : (s.returnFromTrap t).order = s.order := rfl
@[simp] theorem State.returnFromTrap_cores (s : State) (t : Nat) : (s.returnFromTrap t).cores = s.cores := rfl
@[simp] theorem State.returnFromTrap_clusters (s : State) (t : Nat) : (s.returnFromTrap t).clusters = s.clusters := rfl
@[simp] theorem State.returnFromTrap_dies (s : State) (t : Nat) : (s.returnFromTrap t).dies = s.dies := rfl
@[simp] theorem State.returnFromTrap_pkg (s : State) (t : Nat) : (s.returnFromTrap t).pkg = s.pkg := rfl
@[simp] theorem State.returnFromTrap_fab (s : State) (t : Nat) : (s.returnFromTrap t).fab = s.fab := rfl
@[simp] theorem State.returnFromTrap_trg (s : State) (t : Nat) : (s.returnFromTrap t).trg = s.trg := rfl
@[simp] theorem State.returnFromTrap_mem (s : State) (t : Nat) : (s.returnFromTrap t).mem = s.mem := rfl
@[simp] theorem State.returnFromTrap_memBad (s : State) (t : Nat) : (s.returnFromTrap t).memBad = s.memBad := rfl
@[simp] theorem State.returnFromTrap_tierKeys (s : State) (t : Nat) : (s.returnFromTrap t).tierKeys = s.tierKeys := rfl
@[simp] theorem State.returnFromTrap_reqs (s : State) (t : Nat) : (s.returnFromTrap t).reqs = s.reqs := rfl
@[simp] theorem State.returnFromTrap_nextId (s : State) (t : Nat) : (s.returnFromTrap t).nextId = s.nextId := rfl
@[simp] theorem State.returnFromTrap_forwards (s : State) (t : Nat) : (s.returnFromTrap t).forwards = s.forwards := rfl
@[simp] theorem State.returnFromTrap_scOps (s : State) (t : Nat) : (s.returnFromTrap t).scOps = s.scOps := rfl
@[simp] theorem State.returnFromTrap_contexts (s : State) (t : Nat) : (s.returnFromTrap t).contexts = s.contexts := rfl
@[simp] theorem State.returnFromTrap_spillExcess (s : State) (t : Nat) : (s.returnFromTrap t).spillExcess = s.spillExcess := rfl
@[simp] theorem State.returnFromTrap_wire (s : State) (t : Nat) : (s.returnFromTrap t).wire = s.wire := rfl

/-! ### deferFault -/

@[simp] theorem State.deferFault_cur (s : State) (t : Nat) (x : Trap) (a : Word) (n : Nat) (h : Bool) : (s.deferFault t x a n h).cur = s.cur := rfl
@[simp] theorem State.deferFault_ir (s : State) (t : Nat) (x : Trap) (a : Word) (n : Nat) (h : Bool) : (s.deferFault t x a n h).ir = s.ir := rfl
@[simp] theorem State.deferFault_fwd (s : State) (t : Nat) (x : Trap) (a : Word) (n : Nat) (h : Bool) : (s.deferFault t x a n h).fwd = s.fwd := rfl
@[simp] theorem State.deferFault_stalled (s : State) (t : Nat) (x : Trap) (a : Word) (n : Nat) (h : Bool) : (s.deferFault t x a n h).stalled = s.stalled := rfl
@[simp] theorem State.deferFault_agenda (s : State) (t : Nat) (x : Trap) (a : Word) (n : Nat) (h : Bool) : (s.deferFault t x a n h).agenda = s.agenda := rfl
@[simp] theorem State.deferFault_clock (s : State) (t : Nat) (x : Trap) (a : Word) (n : Nat) (h : Bool) : (s.deferFault t x a n h).clock = s.clock := rfl
@[simp] theorem State.deferFault_phase (s : State) (t : Nat) (x : Trap) (a : Word) (n : Nat) (h : Bool) : (s.deferFault t x a n h).phase = s.phase := rfl
@[simp] theorem State.deferFault_epoch (s : State) (t : Nat) (x : Trap) (a : Word) (n : Nat) (h : Bool) : (s.deferFault t x a n h).epoch = s.epoch := rfl
@[simp] theorem State.deferFault_free (s : State) (t : Nat) (x : Trap) (a : Word) (n : Nat) (h : Bool) : (s.deferFault t x a n h).free = s.free := rfl
@[simp] theorem State.deferFault_order (s : State) (t : Nat) (x : Trap) (a : Word) (n : Nat) (h : Bool) : (s.deferFault t x a n h).order = s.order := rfl
@[simp] theorem State.deferFault_cores (s : State) (t : Nat) (x : Trap) (a : Word) (n : Nat) (h : Bool) : (s.deferFault t x a n h).cores = s.cores := rfl
@[simp] theorem State.deferFault_clusters (s : State) (t : Nat) (x : Trap) (a : Word) (n : Nat) (h : Bool) : (s.deferFault t x a n h).clusters = s.clusters := rfl
@[simp] theorem State.deferFault_dies (s : State) (t : Nat) (x : Trap) (a : Word) (n : Nat) (h : Bool) : (s.deferFault t x a n h).dies = s.dies := rfl
@[simp] theorem State.deferFault_pkg (s : State) (t : Nat) (x : Trap) (a : Word) (n : Nat) (h : Bool) : (s.deferFault t x a n h).pkg = s.pkg := rfl
@[simp] theorem State.deferFault_fab (s : State) (t : Nat) (x : Trap) (a : Word) (n : Nat) (h : Bool) : (s.deferFault t x a n h).fab = s.fab := rfl
@[simp] theorem State.deferFault_trg (s : State) (t : Nat) (x : Trap) (a : Word) (n : Nat) (h : Bool) : (s.deferFault t x a n h).trg = s.trg := rfl
@[simp] theorem State.deferFault_mem (s : State) (t : Nat) (x : Trap) (a : Word) (n : Nat) (h : Bool) : (s.deferFault t x a n h).mem = s.mem := rfl
@[simp] theorem State.deferFault_memBad (s : State) (t : Nat) (x : Trap) (a : Word) (n : Nat) (h : Bool) : (s.deferFault t x a n h).memBad = s.memBad := rfl
@[simp] theorem State.deferFault_tierKeys (s : State) (t : Nat) (x : Trap) (a : Word) (n : Nat) (h : Bool) : (s.deferFault t x a n h).tierKeys = s.tierKeys := rfl
@[simp] theorem State.deferFault_reqs (s : State) (t : Nat) (x : Trap) (a : Word) (n : Nat) (h : Bool) : (s.deferFault t x a n h).reqs = s.reqs := rfl
@[simp] theorem State.deferFault_nextId (s : State) (t : Nat) (x : Trap) (a : Word) (n : Nat) (h : Bool) : (s.deferFault t x a n h).nextId = s.nextId := rfl
@[simp] theorem State.deferFault_forwards (s : State) (t : Nat) (x : Trap) (a : Word) (n : Nat) (h : Bool) : (s.deferFault t x a n h).forwards = s.forwards := rfl
@[simp] theorem State.deferFault_scOps (s : State) (t : Nat) (x : Trap) (a : Word) (n : Nat) (h : Bool) : (s.deferFault t x a n h).scOps = s.scOps := rfl
@[simp] theorem State.deferFault_contexts (s : State) (t : Nat) (x : Trap) (a : Word) (n : Nat) (h : Bool) : (s.deferFault t x a n h).contexts = s.contexts := rfl
@[simp] theorem State.deferFault_spillExcess (s : State) (t : Nat) (x : Trap) (a : Word) (n : Nat) (h : Bool) : (s.deferFault t x a n h).spillExcess = s.spillExcess := rfl
@[simp] theorem State.deferFault_wire (s : State) (t : Nat) (x : Trap) (a : Word) (n : Nat) (h : Bool) : (s.deferFault t x a n h).wire = s.wire := rfl

/-! ### unpark -/

@[simp] theorem State.unpark_cur (s : State) (t d : Nat) (v : Word) : (s.unpark t d v).cur = s.cur := rfl
@[simp] theorem State.unpark_ir (s : State) (t d : Nat) (v : Word) : (s.unpark t d v).ir = s.ir := rfl
@[simp] theorem State.unpark_fwd (s : State) (t d : Nat) (v : Word) : (s.unpark t d v).fwd = s.fwd := rfl
@[simp] theorem State.unpark_stalled (s : State) (t d : Nat) (v : Word) : (s.unpark t d v).stalled = s.stalled := rfl
@[simp] theorem State.unpark_agenda (s : State) (t d : Nat) (v : Word) : (s.unpark t d v).agenda = s.agenda := rfl
@[simp] theorem State.unpark_clock (s : State) (t d : Nat) (v : Word) : (s.unpark t d v).clock = s.clock := rfl
@[simp] theorem State.unpark_phase (s : State) (t d : Nat) (v : Word) : (s.unpark t d v).phase = s.phase := rfl
@[simp] theorem State.unpark_epoch (s : State) (t d : Nat) (v : Word) : (s.unpark t d v).epoch = s.epoch := rfl
@[simp] theorem State.unpark_free (s : State) (t d : Nat) (v : Word) : (s.unpark t d v).free = s.free := rfl
@[simp] theorem State.unpark_order (s : State) (t d : Nat) (v : Word) : (s.unpark t d v).order = s.order := rfl
@[simp] theorem State.unpark_cores (s : State) (t d : Nat) (v : Word) : (s.unpark t d v).cores = s.cores := rfl
@[simp] theorem State.unpark_clusters (s : State) (t d : Nat) (v : Word) : (s.unpark t d v).clusters = s.clusters := rfl
@[simp] theorem State.unpark_dies (s : State) (t d : Nat) (v : Word) : (s.unpark t d v).dies = s.dies := rfl
@[simp] theorem State.unpark_pkg (s : State) (t d : Nat) (v : Word) : (s.unpark t d v).pkg = s.pkg := rfl
@[simp] theorem State.unpark_fab (s : State) (t d : Nat) (v : Word) : (s.unpark t d v).fab = s.fab := rfl
@[simp] theorem State.unpark_trg (s : State) (t d : Nat) (v : Word) : (s.unpark t d v).trg = s.trg := rfl
@[simp] theorem State.unpark_mem (s : State) (t d : Nat) (v : Word) : (s.unpark t d v).mem = s.mem := rfl
@[simp] theorem State.unpark_memBad (s : State) (t d : Nat) (v : Word) : (s.unpark t d v).memBad = s.memBad := rfl
@[simp] theorem State.unpark_tierKeys (s : State) (t d : Nat) (v : Word) : (s.unpark t d v).tierKeys = s.tierKeys := rfl
@[simp] theorem State.unpark_reqs (s : State) (t d : Nat) (v : Word) : (s.unpark t d v).reqs = s.reqs := rfl
@[simp] theorem State.unpark_nextId (s : State) (t d : Nat) (v : Word) : (s.unpark t d v).nextId = s.nextId := rfl
@[simp] theorem State.unpark_forwards (s : State) (t d : Nat) (v : Word) : (s.unpark t d v).forwards = s.forwards := rfl
@[simp] theorem State.unpark_scOps (s : State) (t d : Nat) (v : Word) : (s.unpark t d v).scOps = s.scOps := rfl
@[simp] theorem State.unpark_contexts (s : State) (t d : Nat) (v : Word) : (s.unpark t d v).contexts = s.contexts := rfl
@[simp] theorem State.unpark_spillExcess (s : State) (t d : Nat) (v : Word) : (s.unpark t d v).spillExcess = s.spillExcess := rfl
@[simp] theorem State.unpark_wire (s : State) (t d : Nat) (v : Word) : (s.unpark t d v).wire = s.wire := rfl

/-! ### land -/

@[simp] theorem State.land_cur (s : State) (t n : Nat) : (s.land t n).cur = s.cur := rfl
@[simp] theorem State.land_ir (s : State) (t n : Nat) : (s.land t n).ir = s.ir := rfl
@[simp] theorem State.land_fwd (s : State) (t n : Nat) : (s.land t n).fwd = s.fwd := rfl
@[simp] theorem State.land_stalled (s : State) (t n : Nat) : (s.land t n).stalled = s.stalled := rfl
@[simp] theorem State.land_agenda (s : State) (t n : Nat) : (s.land t n).agenda = s.agenda := rfl
@[simp] theorem State.land_clock (s : State) (t n : Nat) : (s.land t n).clock = s.clock := rfl
@[simp] theorem State.land_phase (s : State) (t n : Nat) : (s.land t n).phase = s.phase := rfl
@[simp] theorem State.land_epoch (s : State) (t n : Nat) : (s.land t n).epoch = s.epoch := rfl
@[simp] theorem State.land_free (s : State) (t n : Nat) : (s.land t n).free = s.free := rfl
@[simp] theorem State.land_order (s : State) (t n : Nat) : (s.land t n).order = s.order := rfl
@[simp] theorem State.land_cores (s : State) (t n : Nat) : (s.land t n).cores = s.cores := rfl
@[simp] theorem State.land_clusters (s : State) (t n : Nat) : (s.land t n).clusters = s.clusters := rfl
@[simp] theorem State.land_dies (s : State) (t n : Nat) : (s.land t n).dies = s.dies := rfl
@[simp] theorem State.land_pkg (s : State) (t n : Nat) : (s.land t n).pkg = s.pkg := rfl
@[simp] theorem State.land_fab (s : State) (t n : Nat) : (s.land t n).fab = s.fab := rfl
@[simp] theorem State.land_trg (s : State) (t n : Nat) : (s.land t n).trg = s.trg := rfl
@[simp] theorem State.land_mem (s : State) (t n : Nat) : (s.land t n).mem = s.mem := rfl
@[simp] theorem State.land_memBad (s : State) (t n : Nat) : (s.land t n).memBad = s.memBad := rfl
@[simp] theorem State.land_tierKeys (s : State) (t n : Nat) : (s.land t n).tierKeys = s.tierKeys := rfl
@[simp] theorem State.land_reqs (s : State) (t n : Nat) : (s.land t n).reqs = s.reqs := rfl
@[simp] theorem State.land_nextId (s : State) (t n : Nat) : (s.land t n).nextId = s.nextId := rfl
@[simp] theorem State.land_forwards (s : State) (t n : Nat) : (s.land t n).forwards = s.forwards := rfl
@[simp] theorem State.land_scOps (s : State) (t n : Nat) : (s.land t n).scOps = s.scOps := rfl
@[simp] theorem State.land_contexts (s : State) (t n : Nat) : (s.land t n).contexts = s.contexts := rfl
@[simp] theorem State.land_spillExcess (s : State) (t n : Nat) : (s.land t n).spillExcess = s.spillExcess := rfl
@[simp] theorem State.land_wire (s : State) (t n : Nat) : (s.land t n).wire = s.wire := rfl

/-! ### dropWaits -/

@[simp] theorem State.dropWaits_cur (s : State) (t : Nat) : (s.dropWaits t).cur = s.cur := rfl
@[simp] theorem State.dropWaits_ir (s : State) (t : Nat) : (s.dropWaits t).ir = s.ir := rfl
@[simp] theorem State.dropWaits_fwd (s : State) (t : Nat) : (s.dropWaits t).fwd = s.fwd := rfl
@[simp] theorem State.dropWaits_stalled (s : State) (t : Nat) : (s.dropWaits t).stalled = s.stalled := rfl
@[simp] theorem State.dropWaits_agenda (s : State) (t : Nat) : (s.dropWaits t).agenda = s.agenda := rfl
@[simp] theorem State.dropWaits_clock (s : State) (t : Nat) : (s.dropWaits t).clock = s.clock := rfl
@[simp] theorem State.dropWaits_phase (s : State) (t : Nat) : (s.dropWaits t).phase = s.phase := rfl
@[simp] theorem State.dropWaits_epoch (s : State) (t : Nat) : (s.dropWaits t).epoch = s.epoch := rfl
@[simp] theorem State.dropWaits_free (s : State) (t : Nat) : (s.dropWaits t).free = s.free := rfl
@[simp] theorem State.dropWaits_order (s : State) (t : Nat) : (s.dropWaits t).order = s.order := rfl
@[simp] theorem State.dropWaits_threads (s : State) (t : Nat) : (s.dropWaits t).threads = s.threads := rfl
@[simp] theorem State.dropWaits_cores (s : State) (t : Nat) : (s.dropWaits t).cores = s.cores := rfl
@[simp] theorem State.dropWaits_clusters (s : State) (t : Nat) : (s.dropWaits t).clusters = s.clusters := rfl
@[simp] theorem State.dropWaits_dies (s : State) (t : Nat) : (s.dropWaits t).dies = s.dies := rfl
@[simp] theorem State.dropWaits_pkg (s : State) (t : Nat) : (s.dropWaits t).pkg = s.pkg := rfl
@[simp] theorem State.dropWaits_fab (s : State) (t : Nat) : (s.dropWaits t).fab = s.fab := rfl
@[simp] theorem State.dropWaits_trg (s : State) (t : Nat) : (s.dropWaits t).trg = s.trg := rfl
@[simp] theorem State.dropWaits_mem (s : State) (t : Nat) : (s.dropWaits t).mem = s.mem := rfl
@[simp] theorem State.dropWaits_memBad (s : State) (t : Nat) : (s.dropWaits t).memBad = s.memBad := rfl
@[simp] theorem State.dropWaits_tierKeys (s : State) (t : Nat) : (s.dropWaits t).tierKeys = s.tierKeys := rfl
@[simp] theorem State.dropWaits_nextId (s : State) (t : Nat) : (s.dropWaits t).nextId = s.nextId := rfl
@[simp] theorem State.dropWaits_forwards (s : State) (t : Nat) : (s.dropWaits t).forwards = s.forwards := rfl
@[simp] theorem State.dropWaits_scOps (s : State) (t : Nat) : (s.dropWaits t).scOps = s.scOps := rfl
@[simp] theorem State.dropWaits_contexts (s : State) (t : Nat) : (s.dropWaits t).contexts = s.contexts := rfl
@[simp] theorem State.dropWaits_spillExcess (s : State) (t : Nat) : (s.dropWaits t).spillExcess = s.spillExcess := rfl
@[simp] theorem State.dropWaits_wire (s : State) (t : Nat) : (s.dropWaits t).wire = s.wire := rfl

/-! ### launch -/

@[simp] theorem State.launch_cur (s : State) (k : FlightKind) (n : Nat) (a b : List Nat) : (s.launch k n a b).cur = s.cur := rfl
@[simp] theorem State.launch_ir (s : State) (k : FlightKind) (n : Nat) (a b : List Nat) : (s.launch k n a b).ir = s.ir := rfl
@[simp] theorem State.launch_fwd (s : State) (k : FlightKind) (n : Nat) (a b : List Nat) : (s.launch k n a b).fwd = s.fwd := rfl
@[simp] theorem State.launch_stalled (s : State) (k : FlightKind) (n : Nat) (a b : List Nat) : (s.launch k n a b).stalled = s.stalled := rfl
@[simp] theorem State.launch_agenda (s : State) (k : FlightKind) (n : Nat) (a b : List Nat) : (s.launch k n a b).agenda = s.agenda := rfl
@[simp] theorem State.launch_clock (s : State) (k : FlightKind) (n : Nat) (a b : List Nat) : (s.launch k n a b).clock = s.clock := rfl
@[simp] theorem State.launch_phase (s : State) (k : FlightKind) (n : Nat) (a b : List Nat) : (s.launch k n a b).phase = s.phase := rfl
@[simp] theorem State.launch_epoch (s : State) (k : FlightKind) (n : Nat) (a b : List Nat) : (s.launch k n a b).epoch = s.epoch := rfl
@[simp] theorem State.launch_free (s : State) (k : FlightKind) (n : Nat) (a b : List Nat) : (s.launch k n a b).free = s.free := rfl
@[simp] theorem State.launch_order (s : State) (k : FlightKind) (n : Nat) (a b : List Nat) : (s.launch k n a b).order = s.order := rfl
@[simp] theorem State.launch_cores (s : State) (k : FlightKind) (n : Nat) (a b : List Nat) : (s.launch k n a b).cores = s.cores := rfl
@[simp] theorem State.launch_clusters (s : State) (k : FlightKind) (n : Nat) (a b : List Nat) : (s.launch k n a b).clusters = s.clusters := rfl
@[simp] theorem State.launch_dies (s : State) (k : FlightKind) (n : Nat) (a b : List Nat) : (s.launch k n a b).dies = s.dies := rfl
@[simp] theorem State.launch_pkg (s : State) (k : FlightKind) (n : Nat) (a b : List Nat) : (s.launch k n a b).pkg = s.pkg := rfl
@[simp] theorem State.launch_fab (s : State) (k : FlightKind) (n : Nat) (a b : List Nat) : (s.launch k n a b).fab = s.fab := rfl
@[simp] theorem State.launch_trg (s : State) (k : FlightKind) (n : Nat) (a b : List Nat) : (s.launch k n a b).trg = s.trg := rfl
@[simp] theorem State.launch_mem (s : State) (k : FlightKind) (n : Nat) (a b : List Nat) : (s.launch k n a b).mem = s.mem := rfl
@[simp] theorem State.launch_memBad (s : State) (k : FlightKind) (n : Nat) (a b : List Nat) : (s.launch k n a b).memBad = s.memBad := rfl
@[simp] theorem State.launch_tierKeys (s : State) (k : FlightKind) (n : Nat) (a b : List Nat) : (s.launch k n a b).tierKeys = s.tierKeys := rfl
@[simp] theorem State.launch_reqs (s : State) (k : FlightKind) (n : Nat) (a b : List Nat) : (s.launch k n a b).reqs = s.reqs := rfl
@[simp] theorem State.launch_forwards (s : State) (k : FlightKind) (n : Nat) (a b : List Nat) : (s.launch k n a b).forwards = s.forwards := rfl
@[simp] theorem State.launch_scOps (s : State) (k : FlightKind) (n : Nat) (a b : List Nat) : (s.launch k n a b).scOps = s.scOps := rfl
@[simp] theorem State.launch_contexts (s : State) (k : FlightKind) (n : Nat) (a b : List Nat) : (s.launch k n a b).contexts = s.contexts := rfl
@[simp] theorem State.launch_spillExcess (s : State) (k : FlightKind) (n : Nat) (a b : List Nat) : (s.launch k n a b).spillExcess = s.spillExcess := rfl
@[simp] theorem State.launch_wire (s : State) (k : FlightKind) (n : Nat) (a b : List Nat) : (s.launch k n a b).wire = s.wire := rfl

/-! ### park -/

@[simp] theorem State.park_cur (s : State) (w : Wait) : (s.park w).cur = s.cur := rfl
@[simp] theorem State.park_ir (s : State) (w : Wait) : (s.park w).ir = s.ir := rfl
@[simp] theorem State.park_fwd (s : State) (w : Wait) : (s.park w).fwd = s.fwd := rfl
@[simp] theorem State.park_stalled (s : State) (w : Wait) : (s.park w).stalled = s.stalled := rfl
@[simp] theorem State.park_agenda (s : State) (w : Wait) : (s.park w).agenda = s.agenda := rfl
@[simp] theorem State.park_clock (s : State) (w : Wait) : (s.park w).clock = s.clock := rfl
@[simp] theorem State.park_phase (s : State) (w : Wait) : (s.park w).phase = s.phase := rfl
@[simp] theorem State.park_epoch (s : State) (w : Wait) : (s.park w).epoch = s.epoch := rfl
@[simp] theorem State.park_free (s : State) (w : Wait) : (s.park w).free = s.free := rfl
@[simp] theorem State.park_cores (s : State) (w : Wait) : (s.park w).cores = s.cores := rfl
@[simp] theorem State.park_clusters (s : State) (w : Wait) : (s.park w).clusters = s.clusters := rfl
@[simp] theorem State.park_dies (s : State) (w : Wait) : (s.park w).dies = s.dies := rfl
@[simp] theorem State.park_pkg (s : State) (w : Wait) : (s.park w).pkg = s.pkg := rfl
@[simp] theorem State.park_fab (s : State) (w : Wait) : (s.park w).fab = s.fab := rfl
@[simp] theorem State.park_trg (s : State) (w : Wait) : (s.park w).trg = s.trg := rfl
@[simp] theorem State.park_mem (s : State) (w : Wait) : (s.park w).mem = s.mem := rfl
@[simp] theorem State.park_memBad (s : State) (w : Wait) : (s.park w).memBad = s.memBad := rfl
@[simp] theorem State.park_tierKeys (s : State) (w : Wait) : (s.park w).tierKeys = s.tierKeys := rfl
@[simp] theorem State.park_reqs (s : State) (w : Wait) : (s.park w).reqs = s.reqs := rfl
@[simp] theorem State.park_nextId (s : State) (w : Wait) : (s.park w).nextId = s.nextId := rfl
@[simp] theorem State.park_forwards (s : State) (w : Wait) : (s.park w).forwards = s.forwards := rfl
@[simp] theorem State.park_scOps (s : State) (w : Wait) : (s.park w).scOps = s.scOps := rfl
@[simp] theorem State.park_contexts (s : State) (w : Wait) : (s.park w).contexts = s.contexts := rfl
@[simp] theorem State.park_spillExcess (s : State) (w : Wait) : (s.park w).spillExcess = s.spillExcess := rfl
@[simp] theorem State.park_wire (s : State) (w : Wait) : (s.park w).wire = s.wire := rfl

/-! ### modReq -/

@[simp] theorem State.modReq_cur (s : State) (n : Nat) (f : Request → Request) : (s.modReq n f).cur = s.cur := rfl
@[simp] theorem State.modReq_ir (s : State) (n : Nat) (f : Request → Request) : (s.modReq n f).ir = s.ir := rfl
@[simp] theorem State.modReq_fwd (s : State) (n : Nat) (f : Request → Request) : (s.modReq n f).fwd = s.fwd := rfl
@[simp] theorem State.modReq_stalled (s : State) (n : Nat) (f : Request → Request) : (s.modReq n f).stalled = s.stalled := rfl
@[simp] theorem State.modReq_agenda (s : State) (n : Nat) (f : Request → Request) : (s.modReq n f).agenda = s.agenda := rfl
@[simp] theorem State.modReq_clock (s : State) (n : Nat) (f : Request → Request) : (s.modReq n f).clock = s.clock := rfl
@[simp] theorem State.modReq_phase (s : State) (n : Nat) (f : Request → Request) : (s.modReq n f).phase = s.phase := rfl
@[simp] theorem State.modReq_epoch (s : State) (n : Nat) (f : Request → Request) : (s.modReq n f).epoch = s.epoch := rfl
@[simp] theorem State.modReq_free (s : State) (n : Nat) (f : Request → Request) : (s.modReq n f).free = s.free := rfl
@[simp] theorem State.modReq_order (s : State) (n : Nat) (f : Request → Request) : (s.modReq n f).order = s.order := rfl
@[simp] theorem State.modReq_threads (s : State) (n : Nat) (f : Request → Request) : (s.modReq n f).threads = s.threads := rfl
@[simp] theorem State.modReq_cores (s : State) (n : Nat) (f : Request → Request) : (s.modReq n f).cores = s.cores := rfl
@[simp] theorem State.modReq_clusters (s : State) (n : Nat) (f : Request → Request) : (s.modReq n f).clusters = s.clusters := rfl
@[simp] theorem State.modReq_dies (s : State) (n : Nat) (f : Request → Request) : (s.modReq n f).dies = s.dies := rfl
@[simp] theorem State.modReq_pkg (s : State) (n : Nat) (f : Request → Request) : (s.modReq n f).pkg = s.pkg := rfl
@[simp] theorem State.modReq_fab (s : State) (n : Nat) (f : Request → Request) : (s.modReq n f).fab = s.fab := rfl
@[simp] theorem State.modReq_trg (s : State) (n : Nat) (f : Request → Request) : (s.modReq n f).trg = s.trg := rfl
@[simp] theorem State.modReq_mem (s : State) (n : Nat) (f : Request → Request) : (s.modReq n f).mem = s.mem := rfl
@[simp] theorem State.modReq_memBad (s : State) (n : Nat) (f : Request → Request) : (s.modReq n f).memBad = s.memBad := rfl
@[simp] theorem State.modReq_tierKeys (s : State) (n : Nat) (f : Request → Request) : (s.modReq n f).tierKeys = s.tierKeys := rfl
@[simp] theorem State.modReq_nextId (s : State) (n : Nat) (f : Request → Request) : (s.modReq n f).nextId = s.nextId := rfl
@[simp] theorem State.modReq_forwards (s : State) (n : Nat) (f : Request → Request) : (s.modReq n f).forwards = s.forwards := rfl
@[simp] theorem State.modReq_scOps (s : State) (n : Nat) (f : Request → Request) : (s.modReq n f).scOps = s.scOps := rfl
@[simp] theorem State.modReq_contexts (s : State) (n : Nat) (f : Request → Request) : (s.modReq n f).contexts = s.contexts := rfl
@[simp] theorem State.modReq_spillExcess (s : State) (n : Nat) (f : Request → Request) : (s.modReq n f).spillExcess = s.spillExcess := rfl
@[simp] theorem State.modReq_wire (s : State) (n : Nat) (f : Request → Request) : (s.modReq n f).wire = s.wire := rfl

/-! ### dropReq -/

@[simp] theorem State.dropReq_cur (s : State) (n : Nat) : (s.dropReq n).cur = s.cur := rfl
@[simp] theorem State.dropReq_ir (s : State) (n : Nat) : (s.dropReq n).ir = s.ir := rfl
@[simp] theorem State.dropReq_fwd (s : State) (n : Nat) : (s.dropReq n).fwd = s.fwd := rfl
@[simp] theorem State.dropReq_stalled (s : State) (n : Nat) : (s.dropReq n).stalled = s.stalled := rfl
@[simp] theorem State.dropReq_agenda (s : State) (n : Nat) : (s.dropReq n).agenda = s.agenda := rfl
@[simp] theorem State.dropReq_clock (s : State) (n : Nat) : (s.dropReq n).clock = s.clock := rfl
@[simp] theorem State.dropReq_phase (s : State) (n : Nat) : (s.dropReq n).phase = s.phase := rfl
@[simp] theorem State.dropReq_epoch (s : State) (n : Nat) : (s.dropReq n).epoch = s.epoch := rfl
@[simp] theorem State.dropReq_free (s : State) (n : Nat) : (s.dropReq n).free = s.free := rfl
@[simp] theorem State.dropReq_order (s : State) (n : Nat) : (s.dropReq n).order = s.order := rfl
@[simp] theorem State.dropReq_threads (s : State) (n : Nat) : (s.dropReq n).threads = s.threads := rfl
@[simp] theorem State.dropReq_cores (s : State) (n : Nat) : (s.dropReq n).cores = s.cores := rfl
@[simp] theorem State.dropReq_clusters (s : State) (n : Nat) : (s.dropReq n).clusters = s.clusters := rfl
@[simp] theorem State.dropReq_dies (s : State) (n : Nat) : (s.dropReq n).dies = s.dies := rfl
@[simp] theorem State.dropReq_pkg (s : State) (n : Nat) : (s.dropReq n).pkg = s.pkg := rfl
@[simp] theorem State.dropReq_fab (s : State) (n : Nat) : (s.dropReq n).fab = s.fab := rfl
@[simp] theorem State.dropReq_trg (s : State) (n : Nat) : (s.dropReq n).trg = s.trg := rfl
@[simp] theorem State.dropReq_mem (s : State) (n : Nat) : (s.dropReq n).mem = s.mem := rfl
@[simp] theorem State.dropReq_memBad (s : State) (n : Nat) : (s.dropReq n).memBad = s.memBad := rfl
@[simp] theorem State.dropReq_tierKeys (s : State) (n : Nat) : (s.dropReq n).tierKeys = s.tierKeys := rfl
@[simp] theorem State.dropReq_nextId (s : State) (n : Nat) : (s.dropReq n).nextId = s.nextId := rfl
@[simp] theorem State.dropReq_forwards (s : State) (n : Nat) : (s.dropReq n).forwards = s.forwards := rfl
@[simp] theorem State.dropReq_scOps (s : State) (n : Nat) : (s.dropReq n).scOps = s.scOps := rfl
@[simp] theorem State.dropReq_contexts (s : State) (n : Nat) : (s.dropReq n).contexts = s.contexts := rfl
@[simp] theorem State.dropReq_spillExcess (s : State) (n : Nat) : (s.dropReq n).spillExcess = s.spillExcess := rfl
@[simp] theorem State.dropReq_wire (s : State) (n : Nat) : (s.dropReq n).wire = s.wire := rfl

/-! ### request -/

@[simp] theorem State.request_cur (s : State) (r : Request) : (s.request r).cur = s.cur := rfl
@[simp] theorem State.request_ir (s : State) (r : Request) : (s.request r).ir = s.ir := rfl
@[simp] theorem State.request_fwd (s : State) (r : Request) : (s.request r).fwd = s.fwd := rfl
@[simp] theorem State.request_stalled (s : State) (r : Request) : (s.request r).stalled = s.stalled := rfl
@[simp] theorem State.request_agenda (s : State) (r : Request) : (s.request r).agenda = s.agenda := rfl
@[simp] theorem State.request_clock (s : State) (r : Request) : (s.request r).clock = s.clock := rfl
@[simp] theorem State.request_phase (s : State) (r : Request) : (s.request r).phase = s.phase := rfl
@[simp] theorem State.request_epoch (s : State) (r : Request) : (s.request r).epoch = s.epoch := rfl
@[simp] theorem State.request_free (s : State) (r : Request) : (s.request r).free = s.free := rfl
@[simp] theorem State.request_order (s : State) (r : Request) : (s.request r).order = s.order := rfl
@[simp] theorem State.request_threads (s : State) (r : Request) : (s.request r).threads = s.threads := rfl
@[simp] theorem State.request_cores (s : State) (r : Request) : (s.request r).cores = s.cores := rfl
@[simp] theorem State.request_clusters (s : State) (r : Request) : (s.request r).clusters = s.clusters := rfl
@[simp] theorem State.request_dies (s : State) (r : Request) : (s.request r).dies = s.dies := rfl
@[simp] theorem State.request_pkg (s : State) (r : Request) : (s.request r).pkg = s.pkg := rfl
@[simp] theorem State.request_fab (s : State) (r : Request) : (s.request r).fab = s.fab := rfl
@[simp] theorem State.request_trg (s : State) (r : Request) : (s.request r).trg = s.trg := rfl
@[simp] theorem State.request_mem (s : State) (r : Request) : (s.request r).mem = s.mem := rfl
@[simp] theorem State.request_memBad (s : State) (r : Request) : (s.request r).memBad = s.memBad := rfl
@[simp] theorem State.request_tierKeys (s : State) (r : Request) : (s.request r).tierKeys = s.tierKeys := rfl
@[simp] theorem State.request_forwards (s : State) (r : Request) : (s.request r).forwards = s.forwards := rfl
@[simp] theorem State.request_scOps (s : State) (r : Request) : (s.request r).scOps = s.scOps := rfl
@[simp] theorem State.request_contexts (s : State) (r : Request) : (s.request r).contexts = s.contexts := rfl
@[simp] theorem State.request_spillExcess (s : State) (r : Request) : (s.request r).spillExcess = s.spillExcess := rfl
@[simp] theorem State.request_wire (s : State) (r : Request) : (s.request r).wire = s.wire := rfl

/-! ### requestStore -/

@[simp] theorem State.requestStore_cur (s : State) (r : Request) (h : Bool) : (s.requestStore r h).cur = s.cur := rfl
@[simp] theorem State.requestStore_ir (s : State) (r : Request) (h : Bool) : (s.requestStore r h).ir = s.ir := rfl
@[simp] theorem State.requestStore_fwd (s : State) (r : Request) (h : Bool) : (s.requestStore r h).fwd = s.fwd := rfl
@[simp] theorem State.requestStore_stalled (s : State) (r : Request) (h : Bool) : (s.requestStore r h).stalled = s.stalled := rfl
@[simp] theorem State.requestStore_agenda (s : State) (r : Request) (h : Bool) : (s.requestStore r h).agenda = s.agenda := rfl
@[simp] theorem State.requestStore_clock (s : State) (r : Request) (h : Bool) : (s.requestStore r h).clock = s.clock := rfl
@[simp] theorem State.requestStore_phase (s : State) (r : Request) (h : Bool) : (s.requestStore r h).phase = s.phase := rfl
@[simp] theorem State.requestStore_epoch (s : State) (r : Request) (h : Bool) : (s.requestStore r h).epoch = s.epoch := rfl
@[simp] theorem State.requestStore_free (s : State) (r : Request) (h : Bool) : (s.requestStore r h).free = s.free := rfl
@[simp] theorem State.requestStore_order (s : State) (r : Request) (h : Bool) : (s.requestStore r h).order = s.order := rfl
@[simp] theorem State.requestStore_cores (s : State) (r : Request) (h : Bool) : (s.requestStore r h).cores = s.cores := rfl
@[simp] theorem State.requestStore_clusters (s : State) (r : Request) (h : Bool) : (s.requestStore r h).clusters = s.clusters := rfl
@[simp] theorem State.requestStore_dies (s : State) (r : Request) (h : Bool) : (s.requestStore r h).dies = s.dies := rfl
@[simp] theorem State.requestStore_pkg (s : State) (r : Request) (h : Bool) : (s.requestStore r h).pkg = s.pkg := rfl
@[simp] theorem State.requestStore_fab (s : State) (r : Request) (h : Bool) : (s.requestStore r h).fab = s.fab := rfl
@[simp] theorem State.requestStore_trg (s : State) (r : Request) (h : Bool) : (s.requestStore r h).trg = s.trg := rfl
@[simp] theorem State.requestStore_mem (s : State) (r : Request) (h : Bool) : (s.requestStore r h).mem = s.mem := rfl
@[simp] theorem State.requestStore_memBad (s : State) (r : Request) (h : Bool) : (s.requestStore r h).memBad = s.memBad := rfl
@[simp] theorem State.requestStore_tierKeys (s : State) (r : Request) (h : Bool) : (s.requestStore r h).tierKeys = s.tierKeys := rfl
@[simp] theorem State.requestStore_forwards (s : State) (r : Request) (h : Bool) : (s.requestStore r h).forwards = s.forwards := rfl
@[simp] theorem State.requestStore_scOps (s : State) (r : Request) (h : Bool) : (s.requestStore r h).scOps = s.scOps := rfl
@[simp] theorem State.requestStore_contexts (s : State) (r : Request) (h : Bool) : (s.requestStore r h).contexts = s.contexts := rfl
@[simp] theorem State.requestStore_spillExcess (s : State) (r : Request) (h : Bool) : (s.requestStore r h).spillExcess = s.spillExcess := rfl
@[simp] theorem State.requestStore_wire (s : State) (r : Request) (h : Bool) : (s.requestStore r h).wire = s.wire := rfl

/-! ### Reading an updated table -/

@[simp] theorem State.thread_setThread (s : State) (t : Nat) (x : Thread) : (s.setThread t x).thread t = x :=
  Tab.get_put_same _ _ _ _
theorem State.thread_setThread_other (s : State) (t k : Nat) (x : Thread) (h : k ≠ t) :
    (s.setThread t x).thread k = s.thread k := Tab.get_put_other _ _ _ _ _ h
@[simp] theorem State.thread_modThread (s : State) (t : Nat) (f : Thread → Thread) :
    (s.modThread t f).thread t = f (s.thread t) := Tab.get_put_same _ _ _ _
theorem State.thread_modThread_other (s : State) (t k : Nat) (f : Thread → Thread) (h : k ≠ t) :
    (s.modThread t f).thread k = s.thread k := Tab.get_put_other _ _ _ _ _ h
@[simp] theorem State.me_setMe (s : State) (x : Thread) : (s.setMe x).me = x := Tab.get_put_same _ _ _ _
@[simp] theorem State.me_modMe (s : State) (f : Thread → Thread) : (s.modMe f).me = f s.me := Tab.get_put_same _ _ _ _
theorem State.thread_modMe_other (s : State) (k : Nat) (f : Thread → Thread) (h : k ≠ s.cur) :
    (s.modMe f).thread k = s.thread k := Tab.get_put_other _ _ _ _ _ h
@[simp] theorem State.me_wr (s : State) (r : Reg) (v : Word) : (s.wr r v).me = s.me.wr r v := Tab.get_put_same _ _ _ _
@[simp] theorem State.me_advance (s : State) (n : Nat) :
    (s.advance n).me = { s.me with pc := s.me.pc + BitVec.ofNat 64 n } := Tab.get_put_same _ _ _ _
@[simp] theorem State.me_goto (s : State) (v : Word) : (s.goto v).me = { s.me with pc := v } :=
  Tab.get_put_same _ _ _ _
theorem State.thread_wr_other (s : State) (k : Nat) (r : Reg) (v : Word) (h : k ≠ s.cur) :
    (s.wr r v).thread k = s.thread k := Tab.get_put_other _ _ _ _ _ h
theorem State.thread_advance_other (s : State) (k n : Nat) (h : k ≠ s.cur) :
    (s.advance n).thread k = s.thread k := Tab.get_put_other _ _ _ _ _ h

@[simp] theorem State.core_setCore (s : State) (c : Nat) (x : Core) : (s.setCore c x).core c = x :=
  Tab.get_put_same _ _ _ _
@[simp] theorem State.core_modCore (s : State) (c : Nat) (f : Core → Core) : (s.modCore c f).core c = f (s.core c) :=
  Tab.get_put_same _ _ _ _
theorem State.core_modCore_other (s : State) (c k : Nat) (f : Core → Core) (h : k ≠ c) :
    (s.modCore c f).core k = s.core k := Tab.get_put_other _ _ _ _ _ h
@[simp] theorem State.cluster_setCluster (s : State) (c : Nat) (x : Cluster) : (s.setCluster c x).cluster c = x :=
  Tab.get_put_same _ _ _ _
@[simp] theorem State.cluster_modCluster (s : State) (c : Nat) (f : Cluster → Cluster) :
    (s.modCluster c f).cluster c = f (s.cluster c) := Tab.get_put_same _ _ _ _
theorem State.cluster_modCluster_other (s : State) (c k : Nat) (f : Cluster → Cluster) (h : k ≠ c) :
    (s.modCluster c f).cluster k = s.cluster k := Tab.get_put_other _ _ _ _ _ h
@[simp] theorem State.die_setDie (s : State) (d : Nat) (x : Die) : (s.setDie d x).die d = x :=
  Tab.get_put_same _ _ _ _
@[simp] theorem State.die_modDie (s : State) (d : Nat) (f : Die → Die) : (s.modDie d f).die d = f (s.die d) :=
  Tab.get_put_same _ _ _ _
theorem State.die_modDie_other (s : State) (d k : Nat) (f : Die → Die) (h : k ≠ d) :
    (s.modDie d f).die k = s.die k := Tab.get_put_other _ _ _ _ _ h

theorem State.core_of_cores (s t : State) (h : t.cores = s.cores) (c : Nat) : t.core c = s.core c := by
  simp only [State.core, h]
theorem State.cluster_of_clusters (s t : State) (h : t.clusters = s.clusters) (c : Nat) : t.cluster c = s.cluster c := by
  simp only [State.cluster, h]
theorem State.die_of_dies (s t : State) (h : t.dies = s.dies) (d : Nat) : t.die d = s.die d := by
  simp only [State.die, h]
theorem State.thread_of_threads (s t : State) (h : t.threads = s.threads) (k : Nat) : t.thread k = s.thread k := by
  simp only [State.thread, h]

end Sys2Proof.Machine
end

