-- ==== Sys2Proof/Laws/Ops.lean ====
section
/-! SUPPORT. One spec lemma for each shared operation of Machine/Ops.lean and Machine/Operands.lean: the register
file, how an instruction ends, what taking a trap does. -/

namespace Sys2Proof.Machine

/-! ### The register file (R10–R12) -/

theorem Thread.code_lt (t : Thread) (r : Reg) : t.code r < 108 := by
  have := r.isLt
  unfold Thread.code
  dsimp only
  split_ifs <;> omega

theorem Thread.code_g0 (t : Thread) : t.code 24 = 96 := by
  unfold Thread.code; rfl

/-- Code 96 belongs to g0 alone. -/
theorem Thread.code_eq_96 (t : Thread) (r : Reg) : t.code r = 96 ↔ r = 24 := by
  constructor
  · intro h
    have := r.isLt
    apply BitVec.eq_of_toNat_eq
    unfold Thread.code at h
    dsimp only at h
    show r.toNat = 24
    split_ifs at h <;> omega
  · rintro rfl; exact t.code_g0

/-- Different specifiers name different physical registers. -/
theorem Thread.code_inj (t : Thread) (a b : Reg) (h : t.code a = t.code b) : a = b := by
  apply BitVec.eq_of_toNat_eq
  have := a.isLt
  have := b.isLt
  unfold Thread.code at h
  dsimp only at h
  split_ifs at h <;> omega

theorem Thread.readCode_writeCode (t : Thread) (k j : Nat) (v : Word) (hk : k < 108) :
    (t.writeCode k v).readCode j = if j = 96 then 0 else if j = k then v else t.readCode j := by
  unfold Thread.writeCode Thread.readCode
  by_cases hj : j = 96
  · simp [hj]
  · by_cases hk96 : k = 96
    · subst hk96; simp [hj]
    · simp only [hk96, hj, hk, if_false, dif_pos]
      by_cases hj' : j < 108
      · simp only [hj', dif_pos, Vector.getElem_set]
        by_cases h : k = j
        · simp [h]
        · simp [h, Ne.symm h]
      · simp [hj', show j ≠ k by omega]

/-- What a write leaves alone. -/
theorem Thread.writeCode_frame (t : Thread) (k : Nat) (v : Word) :
    t.writeCode k v = { t with regs := (t.writeCode k v).regs, badRegs := (t.writeCode k v).badRegs } := by
  unfold Thread.writeCode; split_ifs <;> rfl

theorem Thread.writeCode_badRegs (t : Thread) (k : Nat) (v : Word) (hk : k < 108) :
    (t.writeCode k v).badRegs = if k = 96 then t.badRegs else t.badRegs.filter (· ≠ k) := by
  unfold Thread.writeCode; split_ifs <;> rfl

theorem Thread.code_congr {t u : Thread} (h : u.wb = t.wb) (m : u.mode = t.mode) (r : Reg) : u.code r = t.code r := by
  unfold Thread.code; rw [h, m]

theorem Thread.writeCode_wb (t : Thread) (k : Nat) (v : Word) : (t.writeCode k v).wb = t.wb := by
  rw [t.writeCode_frame]
theorem Thread.writeCode_mode (t : Thread) (k : Nat) (v : Word) : (t.writeCode k v).mode = t.mode := by
  rw [t.writeCode_frame]
theorem Thread.code_wr (t : Thread) (d r : Reg) (v : Word) : (t.wr d v).code r = t.code r :=
  Thread.code_congr (t.writeCode_wb _ _) (t.writeCode_mode _ _) r

/-- R10: what a register reads as after a write. -/
theorem Thread.rd_wr (t : Thread) (d r : Reg) (v : Word) :
    (t.wr d v).rd r = if r = 24 then 0 else if r = d then v else t.rd r := by
  unfold Thread.rd
  rw [t.code_wr]
  unfold Thread.wr
  rw [t.readCode_writeCode _ _ _ (t.code_lt d)]
  simp only [t.code_eq_96]
  by_cases h2 : r = d
  · simp [h2]
  · have : t.code r ≠ t.code d := fun e => h2 (t.code_inj r d e)
    simp [h2, this]

theorem Thread.readCode_96 (t : Thread) : t.readCode 96 = 0 := by simp [Thread.readCode]

theorem Thread.readCode_wr_other (t : Thread) (d : Reg) (v : Word) (k : Nat) (h : k ≠ t.code d) :
    (t.wr d v).readCode k = t.readCode k := by
  unfold Thread.wr
  rw [t.readCode_writeCode _ _ _ (t.code_lt d)]
  by_cases h2 : k = 96
  · simp [h2, t.readCode_96]
  · simp [h, h2]

theorem Thread.badRegs_wr (t : Thread) (d : Reg) (v : Word) :
    (t.wr d v).badRegs = if d = 24 then t.badRegs else t.badRegs.filter (· ≠ t.code d) := by
  unfold Thread.wr
  rw [t.writeCode_badRegs _ _ (t.code_lt d)]
  simp [t.code_eq_96]

/-! ### How an instruction ends -/

/-- A state that differs from `s` in the thread in hand alone. -/
theorem State.modMe_frame (s : State) (f : Thread → Thread) :
    s.modMe f = { s with threads := (s.modMe f).threads } ∧ ∀ k, k ≠ s.cur → (s.modMe f).thread k = s.thread k :=
  ⟨rfl, fun k h => s.thread_modMe_other k f h⟩

/-- An instruction that writes one register: everything it does. -/
theorem State.ends_next (s : State) (len : Nat) (d : Reg) (v : Word) :
    ∃ t, s.ends len d v = .next t ∧ t = { s with threads := t.threads } ∧
      (∀ k, k ≠ s.cur → t.thread k = s.thread k) ∧
      t.me = { s.me.wr d v with pc := s.me.pc + BitVec.ofNat 64 len } := by
  refine ⟨(s.wr d v).advance len, rfl, rfl, fun k h => ?_, ?_⟩
  · rw [State.thread_advance_other _ _ _ (by simpa using h), State.thread_wr_other _ _ _ _ h]
  · simp [Thread.wr]
    rw [Thread.writeCode_frame]

/-! ### Taking a trap (R23–R27) -/

theorem State.breakGang_alone (s : State) (tid : Nat) (h : (s.thread tid).gang = false) : s.breakGang tid = s := by
  simp [State.breakGang, h]

/-- R26: a trap in handler mode halts the slot. -/
theorem State.takeTrap_handler (s : State) (tid : Nat) (t : Trap) (fpc resume : Word) (d m : Bool)
    (h : (s.thread tid).mode = true) : s.takeTrap tid t fpc resume d m = s.halt tid t d m := by
  simp [State.takeTrap, h]

/-- R23: a trap in task mode, outside a gang. -/
theorem State.takeTrap_alone (s : State) (tid : Nat) (t : Trap) (fpc resume : Word) (d m : Bool)
    (h : (s.thread tid).mode = false) (g : (s.thread tid).gang = false) :
    s.takeTrap tid t fpc resume d m = (s.dropWaits tid).modThread tid (fun u =>
      { u with
        life := .ready, wait := none
        causeMult := m, causeDef := d, causeSub := t.sub, causeCode := t.code
        epc := resume, fpc := fpc, eval := t.eval
        pmode := u.mode, pskc := u.skc, skc := 0, mode := true, pc := u.hvec }) := by
  simp [State.takeTrap, h, s.breakGang_alone tid g, Thread.trapped]

/-- An instruction that traps in task mode, outside a gang: everything it does. -/
theorem State.trap_next (s : State) (t : Trap) (h : s.me.mode = false) (g : s.me.gang = false) :
    ∃ u, s.takeTrap s.cur t s.me.pc s.me.pc false false = u ∧
      u = { s with threads := u.threads, reqs := u.reqs } ∧ (∀ k, k ≠ s.cur → u.thread k = s.thread k) ∧
      u.me = { s.me with
        life := .ready, wait := none
        causeMult := false, causeDef := false, causeSub := t.sub, causeCode := t.code
        epc := s.me.pc, fpc := s.me.pc, eval := t.eval
        pmode := s.me.mode, pskc := s.me.skc, skc := 0, mode := true, pc := s.me.hvec } ∧
      ∀ r ∈ u.reqs, r ∈ s.reqs := by
  refine ⟨_, rfl, ?_⟩
  rw [State.takeTrap_alone _ _ _ _ _ _ _ h g]
  refine ⟨rfl, fun k hk => ?_, State.thread_modThread _ _ _, fun r hr => ?_⟩
  · exact State.thread_modThread_other _ _ _ _ hk
  · exact (List.mem_filter.1 hr).1

end Sys2Proof.Machine
end

