-- ==== Sys2Proof/Laws/PerInstr.lean ====
section
/-! SUPPORT. One lemma per constructor of the instruction type: the length rule of R32 and R33, read from the
first word alone, takes exactly the words that the encoder gives the instruction, whatever bytes follow them. -/

namespace Sys2Proof.Laws.Framed

/-- The words of an instruction are framed as they were encoded; an event has none. -/
def Statement (i : Instr) : Prop :=
  ∀ (p : Parcel) (rest : List Byte), encodeParcel i = some p → frame (p.bytes ++ rest) = some p

theorem shortMvReg (d s : Reg) : Statement (.shortMvReg d s) := by
  intro p rest h; cases h
  exact frame_half _ _ (by simp (disch := decide) only [ext_low]; rfl)
theorem shortMvImm (d : Reg) (i : BitVec 5) : Statement (.shortMvImm d i) := by
  intro p rest h; cases h
  exact frame_half _ _ (by simp (disch := decide) only [ext_low]; rfl)
theorem shortAddReg (d s : Reg) : Statement (.shortAddReg d s) := by
  intro p rest h; cases h
  exact frame_half _ _ (by simp (disch := decide) only [ext_low]; rfl)
theorem shortAddImm (d : Reg) (i : BitVec 5) : Statement (.shortAddImm d i) := by
  intro p rest h; cases h
  exact frame_half _ _ (by simp (disch := decide) only [ext_low]; rfl)
theorem shortSubReg (d s : Reg) : Statement (.shortSubReg d s) := by
  intro p rest h; cases h
  exact frame_half _ _ (by simp (disch := decide) only [ext_low]; rfl)
theorem shortSubImm (d : Reg) (i : BitVec 5) : Statement (.shortSubImm d i) := by
  intro p rest h; cases h
  exact frame_half _ _ (by simp (disch := decide) only [ext_low]; rfl)
theorem shortAndReg (d s : Reg) : Statement (.shortAndReg d s) := by
  intro p rest h; cases h
  exact frame_half _ _ (by simp (disch := decide) only [ext_low]; rfl)
theorem shortAndImm (d : Reg) (i : BitVec 5) : Statement (.shortAndImm d i) := by
  intro p rest h; cases h
  exact frame_half _ _ (by simp (disch := decide) only [ext_low]; rfl)
theorem shortOrReg (d s : Reg) : Statement (.shortOrReg d s) := by
  intro p rest h; cases h
  exact frame_half _ _ (by simp (disch := decide) only [ext_low]; rfl)
theorem shortOrImm (d : Reg) (i : BitVec 5) : Statement (.shortOrImm d i) := by
  intro p rest h; cases h
  exact frame_half _ _ (by simp (disch := decide) only [ext_low]; rfl)
theorem shortXorReg (d s : Reg) : Statement (.shortXorReg d s) := by
  intro p rest h; cases h
  exact frame_half _ _ (by simp (disch := decide) only [ext_low]; rfl)
theorem shortXorImm (d : Reg) (i : BitVec 5) : Statement (.shortXorImm d i) := by
  intro p rest h; cases h
  exact frame_half _ _ (by simp (disch := decide) only [ext_low]; rfl)
theorem shortShlReg (d s : Reg) : Statement (.shortShlReg d s) := by
  intro p rest h; cases h
  exact frame_half _ _ (by simp (disch := decide) only [ext_low]; rfl)
theorem shortShlImm (d : Reg) (i : BitVec 5) : Statement (.shortShlImm d i) := by
  intro p rest h; cases h
  exact frame_half _ _ (by simp (disch := decide) only [ext_low]; rfl)
theorem shortShrReg (d s : Reg) : Statement (.shortShrReg d s) := by
  intro p rest h; cases h
  exact frame_half _ _ (by simp (disch := decide) only [ext_low]; rfl)
theorem shortShrImm (d : Reg) (i : BitVec 5) : Statement (.shortShrImm d i) := by
  intro p rest h; cases h
  exact frame_half _ _ (by simp (disch := decide) only [ext_low]; rfl)
theorem shortSraReg (d s : Reg) : Statement (.shortSraReg d s) := by
  intro p rest h; cases h
  exact frame_half _ _ (by simp (disch := decide) only [ext_low]; rfl)
theorem shortSraImm (d : Reg) (i : BitVec 5) : Statement (.shortSraImm d i) := by
  intro p rest h; cases h
  exact frame_half _ _ (by simp (disch := decide) only [ext_low]; rfl)
theorem shortMinReg (d s : Reg) : Statement (.shortMinReg d s) := by
  intro p rest h; cases h
  exact frame_half _ _ (by simp (disch := decide) only [ext_low]; rfl)
theorem shortMinImm (d : Reg) (i : BitVec 5) : Statement (.shortMinImm d i) := by
  intro p rest h; cases h
  exact frame_half _ _ (by simp (disch := decide) only [ext_low]; rfl)
theorem shortMaxReg (d s : Reg) : Statement (.shortMaxReg d s) := by
  intro p rest h; cases h
  exact frame_half _ _ (by simp (disch := decide) only [ext_low]; rfl)
theorem shortMaxImm (d : Reg) (i : BitVec 5) : Statement (.shortMaxImm d i) := by
  intro p rest h; cases h
  exact frame_half _ _ (by simp (disch := decide) only [ext_low]; rfl)
theorem shortSltReg (d s : Reg) : Statement (.shortSltReg d s) := by
  intro p rest h; cases h
  exact frame_half _ _ (by simp (disch := decide) only [ext_low]; rfl)
theorem shortSltImm (d : Reg) (i : BitVec 5) : Statement (.shortSltImm d i) := by
  intro p rest h; cases h
  exact frame_half _ _ (by simp (disch := decide) only [ext_low]; rfl)
theorem shortMulReg (d s : Reg) : Statement (.shortMulReg d s) := by
  intro p rest h; cases h
  exact frame_half _ _ (by simp (disch := decide) only [ext_low]; rfl)
theorem shortMulImm (d : Reg) (i : BitVec 5) : Statement (.shortMulImm d i) := by
  intro p rest h; cases h
  exact frame_half _ _ (by simp (disch := decide) only [ext_low]; rfl)
theorem shortLdReg (d s : Reg) : Statement (.shortLdReg d s) := by
  intro p rest h; cases h
  exact frame_half _ _ (by simp (disch := decide) only [ext_low]; rfl)
theorem shortLdOff (d : Reg) (i : BitVec 5) : Statement (.shortLdOff d i) := by
  intro p rest h; cases h
  exact frame_half _ _ (by simp (disch := decide) only [ext_low]; rfl)
theorem shortStReg (d s : Reg) : Statement (.shortStReg d s) := by
  intro p rest h; cases h
  exact frame_half _ _ (by simp (disch := decide) only [ext_low]; rfl)
theorem shortStImm (d : Reg) (i : BitVec 5) : Statement (.shortStImm d i) := by
  intro p rest h; cases h
  exact frame_half _ _ (by simp (disch := decide) only [ext_low]; rfl)
theorem skz (s : Reg) (n : BitVec 2) : Statement (.skz s n) := by
  intro p rest h; cases h
  exact frame_half _ _ (by simp (disch := decide) only [ext_low]; rfl)
theorem skzN (s : Reg) (n : BitVec 2) : Statement (.skzN s n) := by
  intro p rest h; cases h
  exact frame_half _ _ (by simp (disch := decide) only [ext_low]; rfl)
theorem add (d a b : Reg) : Statement (.add d a b) := by
  intro p rest h; cases h
  exact frame_word _ _ (by simp (disch := decide) only [ext_low]; rfl)
    (inlineBytes_none _ 0 (by unfold fMajor; simp (disch := decide) only [ext_low]; rfl) (by decide))
theorem sub (d a b : Reg) : Statement (.sub d a b) := by
  intro p rest h; cases h
  exact frame_word _ _ (by simp (disch := decide) only [ext_low]; rfl)
    (inlineBytes_none _ 0 (by unfold fMajor; simp (disch := decide) only [ext_low]; rfl) (by decide))
theorem and (d a b : Reg) : Statement (.and d a b) := by
  intro p rest h; cases h
  exact frame_word _ _ (by simp (disch := decide) only [ext_low]; rfl)
    (inlineBytes_none _ 0 (by unfold fMajor; simp (disch := decide) only [ext_low]; rfl) (by decide))
theorem or (d a b : Reg) : Statement (.or d a b) := by
  intro p rest h; cases h
  exact frame_word _ _ (by simp (disch := decide) only [ext_low]; rfl)
    (inlineBytes_none _ 0 (by unfold fMajor; simp (disch := decide) only [ext_low]; rfl) (by decide))
theorem xor (d a b : Reg) : Statement (.xor d a b) := by
  intro p rest h; cases h
  exact frame_word _ _ (by simp (disch := decide) only [ext_low]; rfl)
    (inlineBytes_none _ 0 (by unfold fMajor; simp (disch := decide) only [ext_low]; rfl) (by decide))
theorem andn (d a b : Reg) : Statement (.andn d a b) := by
  intro p rest h; cases h
  exact frame_word _ _ (by simp (disch := decide) only [ext_low]; rfl)
    (inlineBytes_none _ 0 (by unfold fMajor; simp (disch := decide) only [ext_low]; rfl) (by decide))
theorem shl (d a b : Reg) : Statement (.shl d a b) := by
  intro p rest h; cases h
  exact frame_word _ _ (by simp (disch := decide) only [ext_low]; rfl)
    (inlineBytes_none _ 0 (by unfold fMajor; simp (disch := decide) only [ext_low]; rfl) (by decide))
theorem shr (d a b : Reg) : Statement (.shr d a b) := by
  intro p rest h; cases h
  exact frame_word _ _ (by simp (disch := decide) only [ext_low]; rfl)
    (inlineBytes_none _ 0 (by unfold fMajor; simp (disch := decide) only [ext_low]; rfl) (by decide))
theorem sra (d a b : Reg) : Statement (.sra d a b) := by
  intro p rest h; cases h
  exact frame_word _ _ (by simp (disch := decide) only [ext_low]; rfl)
    (inlineBytes_none _ 0 (by unfold fMajor; simp (disch := decide) only [ext_low]; rfl) (by decide))
theorem rol (d a b : Reg) : Statement (.rol d a b) := by
  intro p rest h; cases h
  exact frame_word _ _ (by simp (disch := decide) only [ext_low]; rfl)
    (inlineBytes_none _ 0 (by unfold fMajor; simp (disch := decide) only [ext_low]; rfl) (by decide))
theorem min (d a b : Reg) : Statement (.min d a b) := by
  intro p rest h; cases h
  exact frame_word _ _ (by simp (disch := decide) only [ext_low]; rfl)
    (inlineBytes_none _ 0 (by unfold fMajor; simp (disch := decide) only [ext_low]; rfl) (by decide))
theorem max (d a b : Reg) : Statement (.max d a b) := by
  intro p rest h; cases h
  exact frame_word _ _ (by simp (disch := decide) only [ext_low]; rfl)
    (inlineBytes_none _ 0 (by unfold fMajor; simp (disch := decide) only [ext_low]; rfl) (by decide))
theorem minu (d a b : Reg) : Statement (.minu d a b) := by
  intro p rest h; cases h
  exact frame_word _ _ (by simp (disch := decide) only [ext_low]; rfl)
    (inlineBytes_none _ 0 (by unfold fMajor; simp (disch := decide) only [ext_low]; rfl) (by decide))
theorem maxu (d a b : Reg) : Statement (.maxu d a b) := by
  intro p rest h; cases h
  exact frame_word _ _ (by simp (disch := decide) only [ext_low]; rfl)
    (inlineBytes_none _ 0 (by unfold fMajor; simp (disch := decide) only [ext_low]; rfl) (by decide))
theorem slt (d a b : Reg) : Statement (.slt d a b) := by
  intro p rest h; cases h
  exact frame_word _ _ (by simp (disch := decide) only [ext_low]; rfl)
    (inlineBytes_none _ 0 (by unfold fMajor; simp (disch := decide) only [ext_low]; rfl) (by decide))
theorem sltu (d a b : Reg) : Statement (.sltu d a b) := by
  intro p rest h; cases h
  exact frame_word _ _ (by simp (disch := decide) only [ext_low]; rfl)
    (inlineBytes_none _ 0 (by unfold fMajor; simp (disch := decide) only [ext_low]; rfl) (by decide))
theorem seq (d a b : Reg) : Statement (.seq d a b) := by
  intro p rest h; cases h
  exact frame_word _ _ (by simp (disch := decide) only [ext_low]; rfl)
    (inlineBytes_none _ 0 (by unfold fMajor; simp (disch := decide) only [ext_low]; rfl) (by decide))
theorem mul (d a b : Reg) : Statement (.mul d a b) := by
  intro p rest h; cases h
  exact frame_word _ _ (by simp (disch := decide) only [ext_low]; rfl)
    (inlineBytes_none _ 0 (by unfold fMajor; simp (disch := decide) only [ext_low]; rfl) (by decide))
theorem mulh (d a b : Reg) : Statement (.mulh d a b) := by
  intro p rest h; cases h
  exact frame_word _ _ (by simp (disch := decide) only [ext_low]; rfl)
    (inlineBytes_none _ 0 (by unfold fMajor; simp (disch := decide) only [ext_low]; rfl) (by decide))
theorem mulhu (d a b : Reg) : Statement (.mulhu d a b) := by
  intro p rest h; cases h
  exact frame_word _ _ (by simp (disch := decide) only [ext_low]; rfl)
    (inlineBytes_none _ 0 (by unfold fMajor; simp (disch := decide) only [ext_low]; rfl) (by decide))
theorem div (d a b : Reg) : Statement (.div d a b) := by
  intro p rest h; cases h
  exact frame_word _ _ (by simp (disch := decide) only [ext_low]; rfl)
    (inlineBytes_none _ 0 (by unfold fMajor; simp (disch := decide) only [ext_low]; rfl) (by decide))
theorem divu (d a b : Reg) : Statement (.divu d a b) := by
  intro p rest h; cases h
  exact frame_word _ _ (by simp (disch := decide) only [ext_low]; rfl)
    (inlineBytes_none _ 0 (by unfold fMajor; simp (disch := decide) only [ext_low]; rfl) (by decide))
theorem rem (d a b : Reg) : Statement (.rem d a b) := by
  intro p rest h; cases h
  exact frame_word _ _ (by simp (disch := decide) only [ext_low]; rfl)
    (inlineBytes_none _ 0 (by unfold fMajor; simp (disch := decide) only [ext_low]; rfl) (by decide))
theorem remu (d a b : Reg) : Statement (.remu d a b) := by
  intro p rest h; cases h
  exact frame_word _ _ (by simp (disch := decide) only [ext_low]; rfl)
    (inlineBytes_none _ 0 (by unfold fMajor; simp (disch := decide) only [ext_low]; rfl) (by decide))
theorem clz (d a : Reg) : Statement (.clz d a) := by
  intro p rest h; cases h
  exact frame_word _ _ (by simp (disch := decide) only [ext_low]; rfl)
    (inlineBytes_none _ 0 (by unfold fMajor; simp (disch := decide) only [ext_low]; rfl) (by decide))
theorem ctz (d a : Reg) : Statement (.ctz d a) := by
  intro p rest h; cases h
  exact frame_word _ _ (by simp (disch := decide) only [ext_low]; rfl)
    (inlineBytes_none _ 0 (by unfold fMajor; simp (disch := decide) only [ext_low]; rfl) (by decide))
theorem popc (d a : Reg) : Statement (.popc d a) := by
  intro p rest h; cases h
  exact frame_word _ _ (by simp (disch := decide) only [ext_low]; rfl)
    (inlineBytes_none _ 0 (by unfold fMajor; simp (disch := decide) only [ext_low]; rfl) (by decide))
theorem bswap (d a : Reg) : Statement (.bswap d a) := by
  intro p rest h; cases h
  exact frame_word _ _ (by simp (disch := decide) only [ext_low]; rfl)
    (inlineBytes_none _ 0 (by unfold fMajor; simp (disch := decide) only [ext_low]; rfl) (by decide))
theorem brev (d a : Reg) : Statement (.brev d a) := by
  intro p rest h; cases h
  exact frame_word _ _ (by simp (disch := decide) only [ext_low]; rfl)
    (inlineBytes_none _ 0 (by unfold fMajor; simp (disch := decide) only [ext_low]; rfl) (by decide))
theorem sext (d a : Reg) (w : BitVec 2) : Statement (.sext d a w) := by
  intro p rest h; cases h
  exact frame_word _ _ (by simp (disch := decide) only [ext_low]; rfl)
    (inlineBytes_none _ 0 (by unfold fMajor; simp (disch := decide) only [ext_low]; rfl) (by decide))
theorem zext (d a : Reg) (w : BitVec 2) : Statement (.zext d a w) := by
  intro p rest h; cases h
  exact frame_word _ _ (by simp (disch := decide) only [ext_low]; rfl)
    (inlineBytes_none _ 0 (by unfold fMajor; simp (disch := decide) only [ext_low]; rfl) (by decide))
theorem addi (d a : Reg) (i : BitVec 15) : Statement (.addi d a i) := by
  intro p rest h; cases h
  exact frame_word _ _ (by simp (disch := decide) only [ext_low]; rfl)
    (inlineBytes_none _ 1 (by unfold fMajor; simp (disch := decide) only [ext_low]; rfl) (by decide))
theorem andi (d a : Reg) (i : BitVec 15) : Statement (.andi d a i) := by
  intro p rest h; cases h
  exact frame_word _ _ (by simp (disch := decide) only [ext_low]; rfl)
    (inlineBytes_none _ 2 (by unfold fMajor; simp (disch := decide) only [ext_low]; rfl) (by decide))
theorem ori (d a : Reg) (i : BitVec 15) : Statement (.ori d a i) := by
  intro p rest h; cases h
  exact frame_word _ _ (by simp (disch := decide) only [ext_low]; rfl)
    (inlineBytes_none _ 3 (by unfold fMajor; simp (disch := decide) only [ext_low]; rfl) (by decide))
theorem xori (d a : Reg) (i : BitVec 15) : Statement (.xori d a i) := by
  intro p rest h; cases h
  exact frame_word _ _ (by simp (disch := decide) only [ext_low]; rfl)
    (inlineBytes_none _ 4 (by unfold fMajor; simp (disch := decide) only [ext_low]; rfl) (by decide))
theorem shli (d a : Reg) (n : BitVec 6) : Statement (.shli d a n) := by
  intro p rest h; cases h
  exact frame_word _ _ (by simp (disch := decide) only [ext_low]; rfl)
    (inlineBytes_none _ 5 (by unfold fMajor; simp (disch := decide) only [ext_low]; rfl) (by decide))
theorem shri (d a : Reg) (n : BitVec 6) : Statement (.shri d a n) := by
  intro p rest h; cases h
  exact frame_word _ _ (by simp (disch := decide) only [ext_low]; rfl)
    (inlineBytes_none _ 5 (by unfold fMajor; simp (disch := decide) only [ext_low]; rfl) (by decide))
theorem srai (d a : Reg) (n : BitVec 6) : Statement (.srai d a n) := by
  intro p rest h; cases h
  exact frame_word _ _ (by simp (disch := decide) only [ext_low]; rfl)
    (inlineBytes_none _ 5 (by unfold fMajor; simp (disch := decide) only [ext_low]; rfl) (by decide))
theorem roli (d a : Reg) (n : BitVec 6) : Statement (.roli d a n) := by
  intro p rest h; cases h
  exact frame_word _ _ (by simp (disch := decide) only [ext_low]; rfl)
    (inlineBytes_none _ 5 (by unfold fMajor; simp (disch := decide) only [ext_low]; rfl) (by decide))
theorem slti (d a : Reg) (k : BitVec 13) : Statement (.slti d a k) := by
  intro p rest h; cases h
  exact frame_word _ _ (by simp (disch := decide) only [ext_low]; rfl)
    (inlineBytes_none _ 6 (by unfold fMajor; simp (disch := decide) only [ext_low]; rfl) (by decide))
theorem sltui (d a : Reg) (k : BitVec 13) : Statement (.sltui d a k) := by
  intro p rest h; cases h
  exact frame_word _ _ (by simp (disch := decide) only [ext_low]; rfl)
    (inlineBytes_none _ 6 (by unfold fMajor; simp (disch := decide) only [ext_low]; rfl) (by decide))
theorem seqi (d a : Reg) (k : BitVec 13) : Statement (.seqi d a k) := by
  intro p rest h; cases h
  exact frame_word _ _ (by simp (disch := decide) only [ext_low]; rfl)
    (inlineBytes_none _ 6 (by unfold fMajor; simp (disch := decide) only [ext_low]; rfl) (by decide))
theorem lit (d : Reg) (e : BitVec 32) : Statement (.lit d e) := by
  intro p rest h; cases h
  exact frame_lit _ _ _ (by simp (disch := decide) only [ext_low]; rfl)
    (by unfold inlineBytes fMajor; simp (disch := decide) only [ext_low, fFunc, ext_high]; rfl)
theorem litZ (d : Reg) (e : BitVec 32) : Statement (.litZ d e) := by
  intro p rest h; cases h
  exact frame_lit _ _ _ (by simp (disch := decide) only [ext_low]; rfl)
    (by unfold inlineBytes fMajor; simp (disch := decide) only [ext_low, fFunc, ext_high]; rfl)
theorem litH (d : Reg) (e : BitVec 32) : Statement (.litH d e) := by
  intro p rest h; cases h
  exact frame_lit _ _ _ (by simp (disch := decide) only [ext_low]; rfl)
    (by unfold inlineBytes fMajor; simp (disch := decide) only [ext_low, fFunc, ext_high]; rfl)
theorem sel (d a b c : Reg) : Statement (.sel d a b c) := by
  intro p rest h; cases h
  exact frame_word _ _ (by simp (disch := decide) only [ext_low]; rfl)
    (inlineBytes_none _ 8 (by unfold fMajor; simp (disch := decide) only [ext_low]; rfl) (by decide))
theorem selN (d a b c : Reg) : Statement (.selN d a b c) := by
  intro p rest h; cases h
  exact frame_word _ _ (by simp (disch := decide) only [ext_low]; rfl)
    (inlineBytes_none _ 8 (by unfold fMajor; simp (disch := decide) only [ext_low]; rfl) (by decide))
theorem skipEq (a b : Reg) (n : BitVec 2) : Statement (.skipEq a b n) := by
  intro p rest h; cases h
  exact frame_word _ _ (by simp (disch := decide) only [ext_low]; rfl)
    (inlineBytes_none _ 9 (by unfold fMajor; simp (disch := decide) only [ext_low]; rfl) (by decide))
theorem skipNe (a b : Reg) (n : BitVec 2) : Statement (.skipNe a b n) := by
  intro p rest h; cases h
  exact frame_word _ _ (by simp (disch := decide) only [ext_low]; rfl)
    (inlineBytes_none _ 9 (by unfold fMajor; simp (disch := decide) only [ext_low]; rfl) (by decide))
theorem skipLt (a b : Reg) (n : BitVec 2) : Statement (.skipLt a b n) := by
  intro p rest h; cases h
  exact frame_word _ _ (by simp (disch := decide) only [ext_low]; rfl)
    (inlineBytes_none _ 9 (by unfold fMajor; simp (disch := decide) only [ext_low]; rfl) (by decide))
theorem skipGe (a b : Reg) (n : BitVec 2) : Statement (.skipGe a b n) := by
  intro p rest h; cases h
  exact frame_word _ _ (by simp (disch := decide) only [ext_low]; rfl)
    (inlineBytes_none _ 9 (by unfold fMajor; simp (disch := decide) only [ext_low]; rfl) (by decide))
theorem skipLtu (a b : Reg) (n : BitVec 2) : Statement (.skipLtu a b n) := by
  intro p rest h; cases h
  exact frame_word _ _ (by simp (disch := decide) only [ext_low]; rfl)
    (inlineBytes_none _ 9 (by unfold fMajor; simp (disch := decide) only [ext_low]; rfl) (by decide))
theorem skipGeu (a b : Reg) (n : BitVec 2) : Statement (.skipGeu a b n) := by
  intro p rest h; cases h
  exact frame_word _ _ (by simp (disch := decide) only [ext_low]; rfl)
    (inlineBytes_none _ 9 (by unfold fMajor; simp (disch := decide) only [ext_low]; rfl) (by decide))
theorem lea (d : Reg) (s : BitVec 2) (a b : Reg) : Statement (.lea d s a b) := by
  intro p rest h; cases h
  exact frame_word _ _ (by simp (disch := decide) only [ext_low]; rfl)
    (inlineBytes_none _ 10 (by unfold fMajor; simp (disch := decide) only [ext_low]; rfl) (by decide))
theorem leaPc (d : Reg) (i : BitVec 14) : Statement (.leaPc d i) := by
  intro p rest h; cases h
  exact frame_word _ _ (by simp (disch := decide) only [ext_low]; rfl)
    (inlineBytes_none _ 10 (by unfold fMajor; simp (disch := decide) only [ext_low]; rfl) (by decide))
theorem bEq (a b : Reg) (i : BitVec 12) : Statement (.bEq a b i) := by
  intro p rest h; cases h
  exact frame_word _ _ (by simp (disch := decide) only [ext_low]; rfl)
    (inlineBytes_none _ 16 (by unfold fMajor; simp (disch := decide) only [ext_low]; rfl) (by decide))
theorem bNe (a b : Reg) (i : BitVec 12) : Statement (.bNe a b i) := by
  intro p rest h; cases h
  exact frame_word _ _ (by simp (disch := decide) only [ext_low]; rfl)
    (inlineBytes_none _ 16 (by unfold fMajor; simp (disch := decide) only [ext_low]; rfl) (by decide))
theorem bLt (a b : Reg) (i : BitVec 12) : Statement (.bLt a b i) := by
  intro p rest h; cases h
  exact frame_word _ _ (by simp (disch := decide) only [ext_low]; rfl)
    (inlineBytes_none _ 16 (by unfold fMajor; simp (disch := decide) only [ext_low]; rfl) (by decide))
theorem bGe (a b : Reg) (i : BitVec 12) : Statement (.bGe a b i) := by
  intro p rest h; cases h
  exact frame_word _ _ (by simp (disch := decide) only [ext_low]; rfl)
    (inlineBytes_none _ 16 (by unfold fMajor; simp (disch := decide) only [ext_low]; rfl) (by decide))
theorem bLtu (a b : Reg) (i : BitVec 12) : Statement (.bLtu a b i) := by
  intro p rest h; cases h
  exact frame_word _ _ (by simp (disch := decide) only [ext_low]; rfl)
    (inlineBytes_none _ 16 (by unfold fMajor; simp (disch := decide) only [ext_low]; rfl) (by decide))
theorem bGeu (a b : Reg) (i : BitVec 12) : Statement (.bGeu a b i) := by
  intro p rest h; cases h
  exact frame_word _ _ (by simp (disch := decide) only [ext_low]; rfl)
    (inlineBytes_none _ 16 (by unfold fMajor; simp (disch := decide) only [ext_low]; rfl) (by decide))
theorem bz (a : Reg) (i : BitVec 15) : Statement (.bz a i) := by
  intro p rest h; cases h
  exact frame_word _ _ (by simp (disch := decide) only [ext_low]; rfl)
    (inlineBytes_none _ 17 (by unfold fMajor; simp (disch := decide) only [ext_low]; rfl) (by decide))
theorem bnz (a : Reg) (i : BitVec 15) : Statement (.bnz a i) := by
  intro p rest h; cases h
  exact frame_word _ _ (by simp (disch := decide) only [ext_low]; rfl)
    (inlineBytes_none _ 17 (by unfold fMajor; simp (disch := decide) only [ext_low]; rfl) (by decide))
theorem j (i : BitVec 25) : Statement (.j i) := by
  intro p rest h; cases h
  exact frame_word _ _ (by simp (disch := decide) only [ext_low]; rfl)
    (inlineBytes_none _ 18 (by unfold fMajor; simp (disch := decide) only [ext_low]; rfl) (by decide))
theorem call8 (i : BitVec 25) : Statement (.call8 i) := by
  intro p rest h; cases h
  exact frame_word _ _ (by simp (disch := decide) only [ext_low]; rfl)
    (inlineBytes_none _ 19 (by unfold fMajor; simp (disch := decide) only [ext_low]; rfl) (by decide))
theorem call16 (i : BitVec 25) : Statement (.call16 i) := by
  intro p rest h; cases h
  exact frame_word _ _ (by simp (disch := decide) only [ext_low]; rfl)
    (inlineBytes_none _ 20 (by unfold fMajor; simp (disch := decide) only [ext_low]; rfl) (by decide))
theorem jr (a : Reg) : Statement (.jr a) := by
  intro p rest h; cases h
  exact frame_word _ _ (by simp (disch := decide) only [ext_low]; rfl)
    (inlineBytes_none _ 21 (by unfold fMajor; simp (disch := decide) only [ext_low]; rfl) (by decide))
theorem callr8 (a : Reg) : Statement (.callr8 a) := by
  intro p rest h; cases h
  exact frame_word _ _ (by simp (disch := decide) only [ext_low]; rfl)
    (inlineBytes_none _ 21 (by unfold fMajor; simp (disch := decide) only [ext_low]; rfl) (by decide))
theorem callr16 (a : Reg) : Statement (.callr16 a) := by
  intro p rest h; cases h
  exact frame_word _ _ (by simp (disch := decide) only [ext_low]; rfl)
    (inlineBytes_none _ 21 (by unfold fMajor; simp (disch := decide) only [ext_low]; rfl) (by decide))
theorem ret : Statement (.ret) := by
  intro p rest h; cases h
  exact frame_word _ _ (by decide) (by decide)
theorem loop (a : Reg) (i : BitVec 15) : Statement (.loop a i) := by
  intro p rest h; cases h
  exact frame_word _ _ (by simp (disch := decide) only [ext_low]; rfl)
    (inlineBytes_none _ 22 (by unfold fMajor; simp (disch := decide) only [ext_low]; rfl) (by decide))
theorem ldB (d a : Reg) (o : BitVec 8) (L : BitVec 4) : Statement (.ldB d a o L) := by
  intro p rest h; cases h
  exact frame_word _ _ (by simp (disch := decide) only [ext_low]; rfl)
    (inlineBytes_none _ 24 (by unfold fMajor; simp (disch := decide) only [ext_low]; rfl) (by decide))
theorem ldH (d a : Reg) (o : BitVec 8) (L : BitVec 4) : Statement (.ldH d a o L) := by
  intro p rest h; cases h
  exact frame_word _ _ (by simp (disch := decide) only [ext_low]; rfl)
    (inlineBytes_none _ 24 (by unfold fMajor; simp (disch := decide) only [ext_low]; rfl) (by decide))
theorem ldW (d a : Reg) (o : BitVec 8) (L : BitVec 4) : Statement (.ldW d a o L) := by
  intro p rest h; cases h
  exact frame_word _ _ (by simp (disch := decide) only [ext_low]; rfl)
    (inlineBytes_none _ 24 (by unfold fMajor; simp (disch := decide) only [ext_low]; rfl) (by decide))
theorem ldD (d a : Reg) (o : BitVec 8) (L : BitVec 4) : Statement (.ldD d a o L) := by
  intro p rest h; cases h
  exact frame_word _ _ (by simp (disch := decide) only [ext_low]; rfl)
    (inlineBytes_none _ 24 (by unfold fMajor; simp (disch := decide) only [ext_low]; rfl) (by decide))
theorem ldBu (d a : Reg) (o : BitVec 8) (L : BitVec 4) : Statement (.ldBu d a o L) := by
  intro p rest h; cases h
  exact frame_word _ _ (by simp (disch := decide) only [ext_low]; rfl)
    (inlineBytes_none _ 24 (by unfold fMajor; simp (disch := decide) only [ext_low]; rfl) (by decide))
theorem ldHu (d a : Reg) (o : BitVec 8) (L : BitVec 4) : Statement (.ldHu d a o L) := by
  intro p rest h; cases h
  exact frame_word _ _ (by simp (disch := decide) only [ext_low]; rfl)
    (inlineBytes_none _ 24 (by unfold fMajor; simp (disch := decide) only [ext_low]; rfl) (by decide))
theorem ldWu (d a : Reg) (o : BitVec 8) (L : BitVec 4) : Statement (.ldWu d a o L) := by
  intro p rest h; cases h
  exact frame_word _ _ (by simp (disch := decide) only [ext_low]; rfl)
    (inlineBytes_none _ 24 (by unfold fMajor; simp (disch := decide) only [ext_low]; rfl) (by decide))
theorem stB (d a : Reg) (o : BitVec 8) (L : BitVec 4) : Statement (.stB d a o L) := by
  intro p rest h; cases h
  exact frame_word _ _ (by simp (disch := decide) only [ext_low]; rfl)
    (inlineBytes_none _ 25 (by unfold fMajor; simp (disch := decide) only [ext_low]; rfl) (by decide))
theorem stH (d a : Reg) (o : BitVec 8) (L : BitVec 4) : Statement (.stH d a o L) := by
  intro p rest h; cases h
  exact frame_word _ _ (by simp (disch := decide) only [ext_low]; rfl)
    (inlineBytes_none _ 25 (by unfold fMajor; simp (disch := decide) only [ext_low]; rfl) (by decide))
theorem stW (d a : Reg) (o : BitVec 8) (L : BitVec 4) : Statement (.stW d a o L) := by
  intro p rest h; cases h
  exact frame_word _ _ (by simp (disch := decide) only [ext_low]; rfl)
    (inlineBytes_none _ 25 (by unfold fMajor; simp (disch := decide) only [ext_low]; rfl) (by decide))
theorem stD (d a : Reg) (o : BitVec 8) (L : BitVec 4) : Statement (.stD d a o L) := by
  intro p rest h; cases h
  exact frame_word _ _ (by simp (disch := decide) only [ext_low]; rfl)
    (inlineBytes_none _ 25 (by unfold fMajor; simp (disch := decide) only [ext_low]; rfl) (by decide))
theorem ldx (d : Reg) (s : BitVec 2) (a b : Reg) (z : BitVec 3) (L : BitVec 4) : Statement (.ldx d s a b z L) := by
  intro p rest h; cases h
  exact frame_word _ _ (by simp (disch := decide) only [ext_low]; rfl)
    (inlineBytes_none _ 26 (by unfold fMajor; simp (disch := decide) only [ext_low]; rfl) (by decide))
theorem stx (d : Reg) (s : BitVec 2) (a b : Reg) (z : BitVec 3) (L : BitVec 4) : Statement (.stx d s a b z L) := by
  intro p rest h; cases h
  exact frame_word _ _ (by simp (disch := decide) only [ext_low]; rfl)
    (inlineBytes_none _ 26 (by unfold fMajor; simp (disch := decide) only [ext_low]; rfl) (by decide))
theorem ldp (d a : Reg) (o : BitVec 8) (L : BitVec 4) : Statement (.ldp d a o L) := by
  intro p rest h; cases h
  exact frame_word _ _ (by simp (disch := decide) only [ext_low]; rfl)
    (inlineBytes_none _ 27 (by unfold fMajor; simp (disch := decide) only [ext_low]; rfl) (by decide))
theorem ldq (d a : Reg) (o : BitVec 8) (L : BitVec 4) : Statement (.ldq d a o L) := by
  intro p rest h; cases h
  exact frame_word _ _ (by simp (disch := decide) only [ext_low]; rfl)
    (inlineBytes_none _ 27 (by unfold fMajor; simp (disch := decide) only [ext_low]; rfl) (by decide))
theorem stp (d a : Reg) (o : BitVec 8) (L : BitVec 4) : Statement (.stp d a o L) := by
  intro p rest h; cases h
  exact frame_word _ _ (by simp (disch := decide) only [ext_low]; rfl)
    (inlineBytes_none _ 27 (by unfold fMajor; simp (disch := decide) only [ext_low]; rfl) (by decide))
theorem stq (d a : Reg) (o : BitVec 8) (L : BitVec 4) : Statement (.stq d a o L) := by
  intro p rest h; cases h
  exact frame_word _ _ (by simp (disch := decide) only [ext_low]; rfl)
    (inlineBytes_none _ 27 (by unfold fMajor; simp (disch := decide) only [ext_low]; rfl) (by decide))
theorem amoSwap (d : Reg) (s : BitVec 3) (a b : Reg) (z : BitVec 1) (o : BitVec 2) : Statement (.amoSwap d s a b z o) := by
  intro p rest h; cases h
  exact frame_word _ _ (by simp (disch := decide) only [ext_low]; rfl)
    (inlineBytes_none _ 28 (by unfold fMajor; simp (disch := decide) only [ext_low]; rfl) (by decide))
theorem amoAdd (d : Reg) (s : BitVec 3) (a b : Reg) (z : BitVec 1) (o : BitVec 2) : Statement (.amoAdd d s a b z o) := by
  intro p rest h; cases h
  exact frame_word _ _ (by simp (disch := decide) only [ext_low]; rfl)
    (inlineBytes_none _ 28 (by unfold fMajor; simp (disch := decide) only [ext_low]; rfl) (by decide))
theorem amoAnd (d : Reg) (s : BitVec 3) (a b : Reg) (z : BitVec 1) (o : BitVec 2) : Statement (.amoAnd d s a b z o) := by
  intro p rest h; cases h
  exact frame_word _ _ (by simp (disch := decide) only [ext_low]; rfl)
    (inlineBytes_none _ 28 (by unfold fMajor; simp (disch := decide) only [ext_low]; rfl) (by decide))
theorem amoOr (d : Reg) (s : BitVec 3) (a b : Reg) (z : BitVec 1) (o : BitVec 2) : Statement (.amoOr d s a b z o) := by
  intro p rest h; cases h
  exact frame_word _ _ (by simp (disch := decide) only [ext_low]; rfl)
    (inlineBytes_none _ 28 (by unfold fMajor; simp (disch := decide) only [ext_low]; rfl) (by decide))
theorem amoXor (d : Reg) (s : BitVec 3) (a b : Reg) (z : BitVec 1) (o : BitVec 2) : Statement (.amoXor d s a b z o) := by
  intro p rest h; cases h
  exact frame_word _ _ (by simp (disch := decide) only [ext_low]; rfl)
    (inlineBytes_none _ 28 (by unfold fMajor; simp (disch := decide) only [ext_low]; rfl) (by decide))
theorem amoMin (d : Reg) (s : BitVec 3) (a b : Reg) (z : BitVec 1) (o : BitVec 2) : Statement (.amoMin d s a b z o) := by
  intro p rest h; cases h
  exact frame_word _ _ (by simp (disch := decide) only [ext_low]; rfl)
    (inlineBytes_none _ 28 (by unfold fMajor; simp (disch := decide) only [ext_low]; rfl) (by decide))
theorem amoMax (d : Reg) (s : BitVec 3) (a b : Reg) (z : BitVec 1) (o : BitVec 2) : Statement (.amoMax d s a b z o) := by
  intro p rest h; cases h
  exact frame_word _ _ (by simp (disch := decide) only [ext_low]; rfl)
    (inlineBytes_none _ 28 (by unfold fMajor; simp (disch := decide) only [ext_low]; rfl) (by decide))
theorem amoMinu (d : Reg) (s : BitVec 3) (a b : Reg) (z : BitVec 1) (o : BitVec 2) : Statement (.amoMinu d s a b z o) := by
  intro p rest h; cases h
  exact frame_word _ _ (by simp (disch := decide) only [ext_low]; rfl)
    (inlineBytes_none _ 28 (by unfold fMajor; simp (disch := decide) only [ext_low]; rfl) (by decide))
theorem amoMaxu (d : Reg) (s : BitVec 3) (a b : Reg) (z : BitVec 1) (o : BitVec 2) : Statement (.amoMaxu d s a b z o) := by
  intro p rest h; cases h
  exact frame_word _ _ (by simp (disch := decide) only [ext_low]; rfl)
    (inlineBytes_none _ 28 (by unfold fMajor; simp (disch := decide) only [ext_low]; rfl) (by decide))
theorem amoCas (d : Reg) (s : BitVec 3) (a b : Reg) (z : BitVec 1) (o : BitVec 2) : Statement (.amoCas d s a b z o) := by
  intro p rest h; cases h
  exact frame_word _ _ (by simp (disch := decide) only [ext_low]; rfl)
    (inlineBytes_none _ 28 (by unfold fMajor; simp (disch := decide) only [ext_low]; rfl) (by decide))
theorem fence (s : BitVec 3) (o : BitVec 2) : Statement (.fence s o) := by
  intro p rest h; cases h
  exact frame_word _ _ (by simp (disch := decide) only [ext_low]; rfl)
    (inlineBytes_none _ 29 (by unfold fMajor; simp (disch := decide) only [ext_low]; rfl) (by decide))
theorem qfence (a b : Reg) : Statement (.qfence a b) := by
  intro p rest h; cases h
  exact frame_word _ _ (by simp (disch := decide) only [ext_low]; rfl)
    (inlineBytes_none _ 29 (by unfold fMajor; simp (disch := decide) only [ext_low]; rfl) (by decide))
theorem pfL2 (a : Reg) (L : BitVec 4) : Statement (.pfL2 a L) := by
  intro p rest h; cases h
  exact frame_word _ _ (by simp (disch := decide) only [ext_low]; rfl)
    (inlineBytes_none _ 30 (by unfold fMajor; simp (disch := decide) only [ext_low]; rfl) (by decide))
theorem pfRdc (a : Reg) (L : BitVec 4) : Statement (.pfRdc a L) := by
  intro p rest h; cases h
  exact frame_word _ _ (by simp (disch := decide) only [ext_low]; rfl)
    (inlineBytes_none _ 30 (by unfold fMajor; simp (disch := decide) only [ext_low]; rfl) (by decide))
theorem cln (a : Reg) (L : BitVec 4) : Statement (.cln a L) := by
  intro p rest h; cases h
  exact frame_word _ _ (by simp (disch := decide) only [ext_low]; rfl)
    (inlineBytes_none _ 30 (by unfold fMajor; simp (disch := decide) only [ext_low]; rfl) (by decide))
theorem inv (a : Reg) (L : BitVec 4) : Statement (.inv a L) := by
  intro p rest h; cases h
  exact frame_word _ _ (by simp (disch := decide) only [ext_low]; rfl)
    (inlineBytes_none _ 30 (by unfold fMajor; simp (disch := decide) only [ext_low]; rfl) (by decide))
theorem flush (a : Reg) (L : BitVec 4) : Statement (.flush a L) := by
  intro p rest h; cases h
  exact frame_word _ _ (by simp (disch := decide) only [ext_low]; rfl)
    (inlineBytes_none _ 30 (by unfold fMajor; simp (disch := decide) only [ext_low]; rfl) (by decide))
theorem zln (a : Reg) (L : BitVec 4) : Statement (.zln a L) := by
  intro p rest h; cases h
  exact frame_word _ _ (by simp (disch := decide) only [ext_low]; rfl)
    (inlineBytes_none _ 30 (by unfold fMajor; simp (disch := decide) only [ext_low]; rfl) (by decide))
theorem ldScW (d a : Reg) (o : BitVec 8) (L : BitVec 4) : Statement (.ldScW d a o L) := by
  intro p rest h; cases h
  exact frame_word _ _ (by simp (disch := decide) only [ext_low]; rfl)
    (inlineBytes_none _ 31 (by unfold fMajor; simp (disch := decide) only [ext_low]; rfl) (by decide))
theorem ldScD (d a : Reg) (o : BitVec 8) (L : BitVec 4) : Statement (.ldScD d a o L) := by
  intro p rest h; cases h
  exact frame_word _ _ (by simp (disch := decide) only [ext_low]; rfl)
    (inlineBytes_none _ 31 (by unfold fMajor; simp (disch := decide) only [ext_low]; rfl) (by decide))
theorem stScW (d a : Reg) (o : BitVec 8) (L : BitVec 4) : Statement (.stScW d a o L) := by
  intro p rest h; cases h
  exact frame_word _ _ (by simp (disch := decide) only [ext_low]; rfl)
    (inlineBytes_none _ 31 (by unfold fMajor; simp (disch := decide) only [ext_low]; rfl) (by decide))
theorem stScD (d a : Reg) (o : BitVec 8) (L : BitVec 4) : Statement (.stScD d a o L) := by
  intro p rest h; cases h
  exact frame_word _ _ (by simp (disch := decide) only [ext_low]; rfl)
    (inlineBytes_none _ 31 (by unfold fMajor; simp (disch := decide) only [ext_low]; rfl) (by decide))
theorem nop : Statement (.nop) := by
  intro p rest h; cases h
  exact frame_word _ _ (by decide) (by decide)
theorem trap (d : Reg) (n : BitVec 10) : Statement (.trap d n) := by
  intro p rest h; cases h
  exact frame_word _ _ (by simp (disch := decide) only [ext_low]; rfl)
    (inlineBytes_none _ 32 (by unfold fMajor; simp (disch := decide) only [ext_low]; rfl) (by decide))
theorem rte : Statement (.rte) := by
  intro p rest h; cases h
  exact frame_word _ _ (by decide) (by decide)
theorem done : Statement (.done) := by
  intro p rest h; cases h
  exact frame_word _ _ (by decide) (by decide)
theorem yield : Statement (.yield) := by
  intro p rest h; cases h
  exact frame_word _ _ (by decide) (by decide)
theorem mfs (d : Reg) (x : BitVec 12) : Statement (.mfs d x) := by
  intro p rest h; cases h
  exact frame_word _ _ (by simp (disch := decide) only [ext_low]; rfl)
    (inlineBytes_none _ 33 (by unfold fMajor; simp (disch := decide) only [ext_low]; rfl) (by decide))
theorem mts (a : Reg) (x : BitVec 12) : Statement (.mts a x) := by
  intro p rest h; cases h
  exact frame_word _ _ (by simp (disch := decide) only [ext_low]; rfl)
    (inlineBytes_none _ 33 (by unfold fMajor; simp (disch := decide) only [ext_low]; rfl) (by decide))
theorem wspill : Statement (.wspill) := by
  intro p rest h; cases h
  exact frame_word _ _ (by decide) (by decide)
theorem wfill : Statement (.wfill) := by
  intro p rest h; cases h
  exact frame_word _ _ (by decide) (by decide)
theorem wstat (d : Reg) : Statement (.wstat d) := by
  intro p rest h; cases h
  exact frame_word _ _ (by simp (disch := decide) only [ext_low]; rfl)
    (inlineBytes_none _ 34 (by unfold fMajor; simp (disch := decide) only [ext_low]; rfl) (by decide))
theorem twany (d a : Reg) : Statement (.twany d a) := by
  intro p rest h; cases h
  exact frame_word _ _ (by simp (disch := decide) only [ext_low]; rfl)
    (inlineBytes_none _ 35 (by unfold fMajor; simp (disch := decide) only [ext_low]; rfl) (by decide))
theorem twall (d a : Reg) : Statement (.twall d a) := by
  intro p rest h; cases h
  exact frame_word _ _ (by simp (disch := decide) only [ext_low]; rfl)
    (inlineBytes_none _ 35 (by unfold fMajor; simp (disch := decide) only [ext_low]; rfl) (by decide))
theorem tffr (d a : Reg) : Statement (.tffr d a) := by
  intro p rest h; cases h
  exact frame_word _ _ (by simp (disch := decide) only [ext_low]; rfl)
    (inlineBytes_none _ 35 (by unfold fMajor; simp (disch := decide) only [ext_low]; rfl) (by decide))
theorem tclr (a : Reg) : Statement (.tclr a) := by
  intro p rest h; cases h
  exact frame_word _ _ (by simp (disch := decide) only [ext_low]; rfl)
    (inlineBytes_none _ 35 (by unfold fMajor; simp (disch := decide) only [ext_low]; rfl) (by decide))
theorem chsnd (a b : Reg) : Statement (.chsnd a b) := by
  intro p rest h; cases h
  exact frame_word _ _ (by simp (disch := decide) only [ext_low]; rfl)
    (inlineBytes_none _ 36 (by unfold fMajor; simp (disch := decide) only [ext_low]; rfl) (by decide))
theorem chrcv (d a : Reg) : Statement (.chrcv d a) := by
  intro p rest h; cases h
  exact frame_word _ _ (by simp (disch := decide) only [ext_low]; rfl)
    (inlineBytes_none _ 36 (by unfold fMajor; simp (disch := decide) only [ext_low]; rfl) (by decide))
theorem chtry (d a b : Reg) : Statement (.chtry d a b) := by
  intro p rest h; cases h
  exact frame_word _ _ (by simp (disch := decide) only [ext_low]; rfl)
    (inlineBytes_none _ 36 (by unfold fMajor; simp (disch := decide) only [ext_low]; rfl) (by decide))
theorem gang2 : Statement (.gang2) := by
  intro p rest h; cases h
  exact frame_word _ _ (by decide) (by decide)
theorem gang4 : Statement (.gang4) := by
  intro p rest h; cases h
  exact frame_word _ _ (by decide) (by decide)
theorem gang8 : Statement (.gang8) := by
  intro p rest h; cases h
  exact frame_word _ _ (by decide) (by decide)
theorem disband : Statement (.disband) := by
  intro p rest h; cases h
  exact frame_word _ _ (by decide) (by decide)
theorem rng (d : Reg) : Statement (.rng d) := by
  intro p rest h; cases h
  exact frame_word _ _ (by simp (disch := decide) only [ext_low]; rfl)
    (inlineBytes_none _ 38 (by unfold fMajor; simp (disch := decide) only [ext_low]; rfl) (by decide))
theorem vaddFp (d a b : Reg) (t : BitVec 2) (L : BitVec 4) : Statement (.vaddFp d a b t L) := by
  intro p rest h; cases h
  exact frame_word _ _ (by simp (disch := decide) only [ext_low]; rfl)
    (inlineBytes_none _ 40 (by unfold fMajor; simp (disch := decide) only [ext_low]; rfl) (by decide))
theorem vsubFp (d a b : Reg) (t : BitVec 2) (L : BitVec 4) : Statement (.vsubFp d a b t L) := by
  intro p rest h; cases h
  exact frame_word _ _ (by simp (disch := decide) only [ext_low]; rfl)
    (inlineBytes_none _ 40 (by unfold fMajor; simp (disch := decide) only [ext_low]; rfl) (by decide))
theorem vmulFp (d a b : Reg) (t : BitVec 2) (L : BitVec 4) : Statement (.vmulFp d a b t L) := by
  intro p rest h; cases h
  exact frame_word _ _ (by simp (disch := decide) only [ext_low]; rfl)
    (inlineBytes_none _ 40 (by unfold fMajor; simp (disch := decide) only [ext_low]; rfl) (by decide))
theorem vfma (d a b : Reg) (t : BitVec 2) (L : BitVec 4) : Statement (.vfma d a b t L) := by
  intro p rest h; cases h
  exact frame_word _ _ (by simp (disch := decide) only [ext_low]; rfl)
    (inlineBytes_none _ 40 (by unfold fMajor; simp (disch := decide) only [ext_low]; rfl) (by decide))
theorem vfms (d a b : Reg) (t : BitVec 2) (L : BitVec 4) : Statement (.vfms d a b t L) := by
  intro p rest h; cases h
  exact frame_word _ _ (by simp (disch := decide) only [ext_low]; rfl)
    (inlineBytes_none _ 40 (by unfold fMajor; simp (disch := decide) only [ext_low]; rfl) (by decide))
theorem vminFp (d a b : Reg) (t : BitVec 2) (L : BitVec 4) : Statement (.vminFp d a b t L) := by
  intro p rest h; cases h
  exact frame_word _ _ (by simp (disch := decide) only [ext_low]; rfl)
    (inlineBytes_none _ 40 (by unfold fMajor; simp (disch := decide) only [ext_low]; rfl) (by decide))
theorem vmaxFp (d a b : Reg) (t : BitVec 2) (L : BitVec 4) : Statement (.vmaxFp d a b t L) := by
  intro p rest h; cases h
  exact frame_word _ _ (by simp (disch := decide) only [ext_low]; rfl)
    (inlineBytes_none _ 40 (by unfold fMajor; simp (disch := decide) only [ext_low]; rfl) (by decide))
theorem vabs (a b : Reg) (t : BitVec 2) (L : BitVec 4) : Statement (.vabs a b t L) := by
  intro p rest h; cases h
  exact frame_word _ _ (by simp (disch := decide) only [ext_low]; rfl)
    (inlineBytes_none _ 40 (by unfold fMajor; simp (disch := decide) only [ext_low]; rfl) (by decide))
theorem vneg (a b : Reg) (t : BitVec 2) (L : BitVec 4) : Statement (.vneg a b t L) := by
  intro p rest h; cases h
  exact frame_word _ _ (by simp (disch := decide) only [ext_low]; rfl)
    (inlineBytes_none _ 40 (by unfold fMajor; simp (disch := decide) only [ext_low]; rfl) (by decide))
theorem vceqFp (d a b : Reg) (t : BitVec 2) (L : BitVec 4) : Statement (.vceqFp d a b t L) := by
  intro p rest h; cases h
  exact frame_word _ _ (by simp (disch := decide) only [ext_low]; rfl)
    (inlineBytes_none _ 40 (by unfold fMajor; simp (disch := decide) only [ext_low]; rfl) (by decide))
theorem vcltFp (d a b : Reg) (t : BitVec 2) (L : BitVec 4) : Statement (.vcltFp d a b t L) := by
  intro p rest h; cases h
  exact frame_word _ _ (by simp (disch := decide) only [ext_low]; rfl)
    (inlineBytes_none _ 40 (by unfold fMajor; simp (disch := decide) only [ext_low]; rfl) (by decide))
theorem vcle (d a b : Reg) (t : BitVec 2) (L : BitVec 4) : Statement (.vcle d a b t L) := by
  intro p rest h; cases h
  exact frame_word _ _ (by simp (disch := decide) only [ext_low]; rfl)
    (inlineBytes_none _ 40 (by unfold fMajor; simp (disch := decide) only [ext_low]; rfl) (by decide))
theorem vsum (a b : Reg) (t : BitVec 2) (L : BitVec 4) : Statement (.vsum a b t L) := by
  intro p rest h; cases h
  exact frame_word _ _ (by simp (disch := decide) only [ext_low]; rfl)
    (inlineBytes_none _ 40 (by unfold fMajor; simp (disch := decide) only [ext_low]; rfl) (by decide))
theorem vmaxr (a b : Reg) (t : BitVec 2) (L : BitVec 4) : Statement (.vmaxr a b t L) := by
  intro p rest h; cases h
  exact frame_word _ _ (by simp (disch := decide) only [ext_low]; rfl)
    (inlineBytes_none _ 40 (by unfold fMajor; simp (disch := decide) only [ext_low]; rfl) (by decide))
theorem vscale (d a b : Reg) (t : BitVec 2) (L : BitVec 4) : Statement (.vscale d a b t L) := by
  intro p rest h; cases h
  exact frame_word _ _ (by simp (disch := decide) only [ext_low]; rfl)
    (inlineBytes_none _ 40 (by unfold fMajor; simp (disch := decide) only [ext_low]; rfl) (by decide))
theorem vaddInt (d a b : Reg) (w : BitVec 2) (L : BitVec 4) : Statement (.vaddInt d a b w L) := by
  intro p rest h; cases h
  exact frame_word _ _ (by simp (disch := decide) only [ext_low]; rfl)
    (inlineBytes_none _ 41 (by unfold fMajor; simp (disch := decide) only [ext_low]; rfl) (by decide))
theorem vsubInt (d a b : Reg) (w : BitVec 2) (L : BitVec 4) : Statement (.vsubInt d a b w L) := by
  intro p rest h; cases h
  exact frame_word _ _ (by simp (disch := decide) only [ext_low]; rfl)
    (inlineBytes_none _ 41 (by unfold fMajor; simp (disch := decide) only [ext_low]; rfl) (by decide))
theorem vmulInt (d a b : Reg) (w : BitVec 2) (L : BitVec 4) : Statement (.vmulInt d a b w L) := by
  intro p rest h; cases h
  exact frame_word _ _ (by simp (disch := decide) only [ext_low]; rfl)
    (inlineBytes_none _ 41 (by unfold fMajor; simp (disch := decide) only [ext_low]; rfl) (by decide))
theorem vminInt (d a b : Reg) (w : BitVec 2) (L : BitVec 4) : Statement (.vminInt d a b w L) := by
  intro p rest h; cases h
  exact frame_word _ _ (by simp (disch := decide) only [ext_low]; rfl)
    (inlineBytes_none _ 41 (by unfold fMajor; simp (disch := decide) only [ext_low]; rfl) (by decide))
theorem vmaxInt (d a b : Reg) (w : BitVec 2) (L : BitVec 4) : Statement (.vmaxInt d a b w L) := by
  intro p rest h; cases h
  exact frame_word _ _ (by simp (disch := decide) only [ext_low]; rfl)
    (inlineBytes_none _ 41 (by unfold fMajor; simp (disch := decide) only [ext_low]; rfl) (by decide))
theorem vminu (d a b : Reg) (w : BitVec 2) (L : BitVec 4) : Statement (.vminu d a b w L) := by
  intro p rest h; cases h
  exact frame_word _ _ (by simp (disch := decide) only [ext_low]; rfl)
    (inlineBytes_none _ 41 (by unfold fMajor; simp (disch := decide) only [ext_low]; rfl) (by decide))
theorem vmaxu (d a b : Reg) (w : BitVec 2) (L : BitVec 4) : Statement (.vmaxu d a b w L) := by
  intro p rest h; cases h
  exact frame_word _ _ (by simp (disch := decide) only [ext_low]; rfl)
    (inlineBytes_none _ 41 (by unfold fMajor; simp (disch := decide) only [ext_low]; rfl) (by decide))
theorem vand (d a b : Reg) (w : BitVec 2) (L : BitVec 4) : Statement (.vand d a b w L) := by
  intro p rest h; cases h
  exact frame_word _ _ (by simp (disch := decide) only [ext_low]; rfl)
    (inlineBytes_none _ 41 (by unfold fMajor; simp (disch := decide) only [ext_low]; rfl) (by decide))
theorem vor (d a b : Reg) (w : BitVec 2) (L : BitVec 4) : Statement (.vor d a b w L) := by
  intro p rest h; cases h
  exact frame_word _ _ (by simp (disch := decide) only [ext_low]; rfl)
    (inlineBytes_none _ 41 (by unfold fMajor; simp (disch := decide) only [ext_low]; rfl) (by decide))
theorem vxor (d a b : Reg) (w : BitVec 2) (L : BitVec 4) : Statement (.vxor d a b w L) := by
  intro p rest h; cases h
  exact frame_word _ _ (by simp (disch := decide) only [ext_low]; rfl)
    (inlineBytes_none _ 41 (by unfold fMajor; simp (disch := decide) only [ext_low]; rfl) (by decide))
theorem vshl (d a b : Reg) (w : BitVec 2) (L : BitVec 4) : Statement (.vshl d a b w L) := by
  intro p rest h; cases h
  exact frame_word _ _ (by simp (disch := decide) only [ext_low]; rfl)
    (inlineBytes_none _ 41 (by unfold fMajor; simp (disch := decide) only [ext_low]; rfl) (by decide))
theorem vshr (d a b : Reg) (w : BitVec 2) (L : BitVec 4) : Statement (.vshr d a b w L) := by
  intro p rest h; cases h
  exact frame_word _ _ (by simp (disch := decide) only [ext_low]; rfl)
    (inlineBytes_none _ 41 (by unfold fMajor; simp (disch := decide) only [ext_low]; rfl) (by decide))
theorem vsra (d a b : Reg) (w : BitVec 2) (L : BitVec 4) : Statement (.vsra d a b w L) := by
  intro p rest h; cases h
  exact frame_word _ _ (by simp (disch := decide) only [ext_low]; rfl)
    (inlineBytes_none _ 41 (by unfold fMajor; simp (disch := decide) only [ext_low]; rfl) (by decide))
theorem vceqInt (d a b : Reg) (w : BitVec 2) (L : BitVec 4) : Statement (.vceqInt d a b w L) := by
  intro p rest h; cases h
  exact frame_word _ _ (by simp (disch := decide) only [ext_low]; rfl)
    (inlineBytes_none _ 41 (by unfold fMajor; simp (disch := decide) only [ext_low]; rfl) (by decide))
theorem vcltInt (d a b : Reg) (w : BitVec 2) (L : BitVec 4) : Statement (.vcltInt d a b w L) := by
  intro p rest h; cases h
  exact frame_word _ _ (by simp (disch := decide) only [ext_low]; rfl)
    (inlineBytes_none _ 41 (by unfold fMajor; simp (disch := decide) only [ext_low]; rfl) (by decide))
theorem vcltu (d a b : Reg) (w : BitVec 2) (L : BitVec 4) : Statement (.vcltu d a b w L) := by
  intro p rest h; cases h
  exact frame_word _ _ (by simp (disch := decide) only [ext_low]; rfl)
    (inlineBytes_none _ 41 (by unfold fMajor; simp (disch := decide) only [ext_low]; rfl) (by decide))
theorem vrcp (a b : Reg) (t : BitVec 2) (L : BitVec 4) : Statement (.vrcp a b t L) := by
  intro p rest h; cases h
  exact frame_word _ _ (by simp (disch := decide) only [ext_low]; rfl)
    (inlineBytes_none _ 42 (by unfold fMajor; simp (disch := decide) only [ext_low]; rfl) (by decide))
theorem vrsqrt (a b : Reg) (t : BitVec 2) (L : BitVec 4) : Statement (.vrsqrt a b t L) := by
  intro p rest h; cases h
  exact frame_word _ _ (by simp (disch := decide) only [ext_low]; rfl)
    (inlineBytes_none _ 42 (by unfold fMajor; simp (disch := decide) only [ext_low]; rfl) (by decide))
theorem vsqrt (a b : Reg) (t : BitVec 2) (L : BitVec 4) : Statement (.vsqrt a b t L) := by
  intro p rest h; cases h
  exact frame_word _ _ (by simp (disch := decide) only [ext_low]; rfl)
    (inlineBytes_none _ 42 (by unfold fMajor; simp (disch := decide) only [ext_low]; rfl) (by decide))
theorem vexp2 (a b : Reg) (t : BitVec 2) (L : BitVec 4) : Statement (.vexp2 a b t L) := by
  intro p rest h; cases h
  exact frame_word _ _ (by simp (disch := decide) only [ext_low]; rfl)
    (inlineBytes_none _ 42 (by unfold fMajor; simp (disch := decide) only [ext_low]; rfl) (by decide))
theorem vlog2 (a b : Reg) (t : BitVec 2) (L : BitVec 4) : Statement (.vlog2 a b t L) := by
  intro p rest h; cases h
  exact frame_word _ _ (by simp (disch := decide) only [ext_low]; rfl)
    (inlineBytes_none _ 42 (by unfold fMajor; simp (disch := decide) only [ext_low]; rfl) (by decide))
theorem vtanh (a b : Reg) (t : BitVec 2) (L : BitVec 4) : Statement (.vtanh a b t L) := by
  intro p rest h; cases h
  exact frame_word _ _ (by simp (disch := decide) only [ext_low]; rfl)
    (inlineBytes_none _ 42 (by unfold fMajor; simp (disch := decide) only [ext_low]; rfl) (by decide))
theorem vsigm (a b : Reg) (t : BitVec 2) (L : BitVec 4) : Statement (.vsigm a b t L) := by
  intro p rest h; cases h
  exact frame_word _ _ (by simp (disch := decide) only [ext_low]; rfl)
    (inlineBytes_none _ 42 (by unfold fMajor; simp (disch := decide) only [ext_low]; rfl) (by decide))
theorem vgelu (a b : Reg) (t : BitVec 2) (L : BitVec 4) : Statement (.vgelu a b t L) := by
  intro p rest h; cases h
  exact frame_word _ _ (by simp (disch := decide) only [ext_low]; rfl)
    (inlineBytes_none _ 42 (by unfold fMajor; simp (disch := decide) only [ext_low]; rfl) (by decide))
theorem vsilu (a b : Reg) (t : BitVec 2) (L : BitVec 4) : Statement (.vsilu a b t L) := by
  intro p rest h; cases h
  exact frame_word _ _ (by simp (disch := decide) only [ext_low]; rfl)
    (inlineBytes_none _ 42 (by unfold fMajor; simp (disch := decide) only [ext_low]; rfl) (by decide))
theorem vdiv (d a b : Reg) (t : BitVec 2) (L : BitVec 4) : Statement (.vdiv d a b t L) := by
  intro p rest h; cases h
  exact frame_word _ _ (by simp (disch := decide) only [ext_low]; rfl)
    (inlineBytes_none _ 42 (by unfold fMajor; simp (disch := decide) only [ext_low]; rfl) (by decide))
theorem vmov (d a b : Reg) (L : BitVec 4) : Statement (.vmov d a b L) := by
  intro p rest h; cases h
  exact frame_word _ _ (by simp (disch := decide) only [ext_low]; rfl)
    (inlineBytes_none _ 43 (by unfold fMajor; simp (disch := decide) only [ext_low]; rfl) (by decide))
theorem vbcast (a b : Reg) (L : BitVec 4) : Statement (.vbcast a b L) := by
  intro p rest h; cases h
  exact frame_word _ _ (by simp (disch := decide) only [ext_low]; rfl)
    (inlineBytes_none _ 43 (by unfold fMajor; simp (disch := decide) only [ext_low]; rfl) (by decide))
theorem vgath (a b : Reg) (L : BitVec 4) : Statement (.vgath a b L) := by
  intro p rest h; cases h
  exact frame_word _ _ (by simp (disch := decide) only [ext_low]; rfl)
    (inlineBytes_none _ 43 (by unfold fMajor; simp (disch := decide) only [ext_low]; rfl) (by decide))
theorem vscat (a b : Reg) (L : BitVec 4) : Statement (.vscat a b L) := by
  intro p rest h; cases h
  exact frame_word _ _ (by simp (disch := decide) only [ext_low]; rfl)
    (inlineBytes_none _ 43 (by unfold fMajor; simp (disch := decide) only [ext_low]; rfl) (by decide))
theorem vcomp (a b : Reg) (L : BitVec 4) : Statement (.vcomp a b L) := by
  intro p rest h; cases h
  exact frame_word _ _ (by simp (disch := decide) only [ext_low]; rfl)
    (inlineBytes_none _ 43 (by unfold fMajor; simp (disch := decide) only [ext_low]; rfl) (by decide))
theorem vexpd (a b : Reg) (L : BitVec 4) : Statement (.vexpd a b L) := by
  intro p rest h; cases h
  exact frame_word _ _ (by simp (disch := decide) only [ext_low]; rfl)
    (inlineBytes_none _ 43 (by unfold fMajor; simp (disch := decide) only [ext_low]; rfl) (by decide))
theorem vscan (a b : Reg) (L : BitVec 4) : Statement (.vscan a b L) := by
  intro p rest h; cases h
  exact frame_word _ _ (by simp (disch := decide) only [ext_low]; rfl)
    (inlineBytes_none _ 43 (by unfold fMajor; simp (disch := decide) only [ext_low]; rfl) (by decide))
theorem vrev (a b : Reg) (L : BitVec 4) : Statement (.vrev a b L) := by
  intro p rest h; cases h
  exact frame_word _ _ (by simp (disch := decide) only [ext_low]; rfl)
    (inlineBytes_none _ 43 (by unfold fMajor; simp (disch := decide) only [ext_low]; rfl) (by decide))
theorem vcmx (d a b : Reg) (L : BitVec 4) : Statement (.vcmx d a b L) := by
  intro p rest h; cases h
  exact frame_word _ _ (by simp (disch := decide) only [ext_low]; rfl)
    (inlineBytes_none _ 43 (by unfold fMajor; simp (disch := decide) only [ext_low]; rfl) (by decide))
theorem vmrg (a b : Reg) (L : BitVec 4) : Statement (.vmrg a b L) := by
  intro p rest h; cases h
  exact frame_word _ _ (by simp (disch := decide) only [ext_low]; rfl)
    (inlineBytes_none _ 43 (by unfold fMajor; simp (disch := decide) only [ext_low]; rfl) (by decide))
theorem vbton (a b : Reg) (L : BitVec 4) : Statement (.vbton a b L) := by
  intro p rest h; cases h
  exact frame_word _ _ (by simp (disch := decide) only [ext_low]; rfl)
    (inlineBytes_none _ 43 (by unfold fMajor; simp (disch := decide) only [ext_low]; rfl) (by decide))
theorem vrank (a b : Reg) (L : BitVec 4) : Statement (.vrank a b L) := by
  intro p rest h; cases h
  exact frame_word _ _ (by simp (disch := decide) only [ext_low]; rfl)
    (inlineBytes_none _ 43 (by unfold fMajor; simp (disch := decide) only [ext_low]; rfl) (by decide))
theorem vcvt (s : BitVec 3) (a b : Reg) (f : BitVec 3) (L : BitVec 4) : Statement (.vcvt s a b f L) := by
  intro p rest h; cases h
  exact frame_word _ _ (by simp (disch := decide) only [ext_low]; rfl)
    (inlineBytes_none _ 43 (by unfold fMajor; simp (disch := decide) only [ext_low]; rfl) (by decide))
theorem vcur (a b : Reg) (n : BitVec 3) : Statement (.vcur a b n) := by
  intro p rest h; cases h
  exact frame_word _ _ (by simp (disch := decide) only [ext_low]; rfl)
    (inlineBytes_none _ 44 (by unfold fMajor; simp (disch := decide) only [ext_low]; rfl) (by decide))
theorem vfence (a : Reg) : Statement (.vfence a) := by
  intro p rest h; cases h
  exact frame_word _ _ (by simp (disch := decide) only [ext_low]; rfl)
    (inlineBytes_none _ 44 (by unfold fMajor; simp (disch := decide) only [ext_low]; rfl) (by decide))
theorem vstat (d a : Reg) : Statement (.vstat d a) := by
  intro p rest h; cases h
  exact frame_word _ _ (by simp (disch := decide) only [ext_low]; rfl)
    (inlineBytes_none _ 44 (by unfold fMajor; simp (disch := decide) only [ext_low]; rfl) (by decide))
theorem ksend (d a b : Reg) (L : BitVec 4) : Statement (.ksend d a b L) := by
  intro p rest h; cases h
  exact frame_word _ _ (by simp (disch := decide) only [ext_low]; rfl)
    (inlineBytes_none _ 45 (by unfold fMajor; simp (disch := decide) only [ext_low]; rfl) (by decide))
theorem racc (d a : Reg) (L : BitVec 4) : Statement (.racc d a L) := by
  intro p rest h; cases h
  exact frame_word _ _ (by simp (disch := decide) only [ext_low]; rfl)
    (inlineBytes_none _ 45 (by unfold fMajor; simp (disch := decide) only [ext_low]; rfl) (by decide))
theorem mma (L : BitVec 4) (p : Block) : Statement (.mma L p) := by
  intro p rest h; cases h
  exact frame_block _ _ _ (by simp (disch := decide) only [ext_low]; rfl)
    (by unfold inlineBytes fMajor; simp (disch := decide) only [ext_low, fFunc, ext_high]; rfl)
theorem mepi (a : Reg) (L : BitVec 4) (p : Block) : Statement (.mepi a L p) := by
  intro p rest h; cases h
  exact frame_block _ _ _ (by simp (disch := decide) only [ext_low]; rfl)
    (by unfold inlineBytes fMajor; simp (disch := decide) only [ext_low, fFunc, ext_high]; rfl)
theorem mldb (a : Reg) (L : BitVec 4) (p : Block) : Statement (.mldb a L p) := by
  intro p rest h; cases h
  exact frame_block _ _ _ (by simp (disch := decide) only [ext_low]; rfl)
    (by unfold inlineBytes fMajor; simp (disch := decide) only [ext_low, fFunc, ext_high]; rfl)
theorem mzero (b : Reg) (L : BitVec 4) : Statement (.mzero b L) := by
  intro p rest h; cases h
  exact frame_word _ _ (by simp (disch := decide) only [ext_low]; rfl)
    (by unfold inlineBytes fMajor fFunc; simp (disch := decide) only [ext_low, ext_high]; rfl)
theorem msave (a b : Reg) (L : BitVec 4) : Statement (.msave a b L) := by
  intro p rest h; cases h
  exact frame_word _ _ (by simp (disch := decide) only [ext_low]; rfl)
    (by unfold inlineBytes fMajor fFunc; simp (disch := decide) only [ext_low, ext_high]; rfl)
theorem mrest (a b : Reg) (L : BitVec 4) : Statement (.mrest a b L) := by
  intro p rest h; cases h
  exact frame_word _ _ (by simp (disch := decide) only [ext_low]; rfl)
    (by unfold inlineBytes fMajor fFunc; simp (disch := decide) only [ext_low, ext_high]; rfl)
theorem mwait (a : Reg) : Statement (.mwait a) := by
  intro p rest h; cases h
  exact frame_word _ _ (by simp (disch := decide) only [ext_low]; rfl)
    (by unfold inlineBytes fMajor fFunc; simp (disch := decide) only [ext_low, ext_high]; rfl)
theorem lpatch (d a b : Reg) : Statement (.lpatch d a b) := by
  intro p rest h; cases h
  exact frame_word _ _ (by simp (disch := decide) only [ext_low]; rfl)
    (inlineBytes_none _ 52 (by unfold fMajor; simp (disch := decide) only [ext_low]; rfl) (by decide))
theorem spawn (d a : Reg) : Statement (.spawn d a) := by
  intro p rest h; cases h
  exact frame_word _ _ (by simp (disch := decide) only [ext_low]; rfl)
    (inlineBytes_none _ 52 (by unfold fMajor; simp (disch := decide) only [ext_low]; rfl) (by decide))
theorem spawnc (d a : Reg) : Statement (.spawnc d a) := by
  intro p rest h; cases h
  exact frame_word _ _ (by simp (disch := decide) only [ext_low]; rfl)
    (inlineBytes_none _ 52 (by unfold fMajor; simp (disch := decide) only [ext_low]; rfl) (by decide))
theorem jsig (d a b : Reg) : Statement (.jsig d a b) := by
  intro p rest h; cases h
  exact frame_word _ _ (by simp (disch := decide) only [ext_low]; rfl)
    (inlineBytes_none _ 53 (by unfold fMajor; simp (disch := decide) only [ext_low]; rfl) (by decide))
theorem jwait (a b : Reg) : Statement (.jwait a b) := by
  intro p rest h; cases h
  exact frame_word _ _ (by simp (disch := decide) only [ext_low]; rfl)
    (inlineBytes_none _ 53 (by unfold fMajor; simp (disch := decide) only [ext_low]; rfl) (by decide))
theorem barArr (d a : Reg) : Statement (.barArr d a) := by
  intro p rest h; cases h
  exact frame_word _ _ (by simp (disch := decide) only [ext_low]; rfl)
    (inlineBytes_none _ 54 (by unfold fMajor; simp (disch := decide) only [ext_low]; rfl) (by decide))
theorem barWait (a b : Reg) : Statement (.barWait a b) := by
  intro p rest h; cases h
  exact frame_word _ _ (by simp (disch := decide) only [ext_low]; rfl)
    (inlineBytes_none _ 54 (by unfold fMajor; simp (disch := decide) only [ext_low]; rfl) (by decide))
theorem barT1 (a b : Reg) : Statement (.barT1 a b) := by
  intro p rest h; cases h
  exact frame_word _ _ (by simp (disch := decide) only [ext_low]; rfl)
    (inlineBytes_none _ 54 (by unfold fMajor; simp (disch := decide) only [ext_low]; rfl) (by decide))
theorem barSet (a b : Reg) : Statement (.barSet a b) := by
  intro p rest h; cases h
  exact frame_word _ _ (by simp (disch := decide) only [ext_low]; rfl)
    (inlineBytes_none _ 54 (by unfold fMajor; simp (disch := decide) only [ext_low]; rfl) (by decide))
theorem barBytes (a b : Reg) : Statement (.barBytes a b) := by
  intro p rest h; cases h
  exact frame_word _ _ (by simp (disch := decide) only [ext_low]; rfl)
    (inlineBytes_none _ 54 (by unfold fMajor; simp (disch := decide) only [ext_low]; rfl) (by decide))
theorem barBind (a b : Reg) : Statement (.barBind a b) := by
  intro p rest h; cases h
  exact frame_word _ _ (by simp (disch := decide) only [ext_low]; rfl)
    (inlineBytes_none _ 54 (by unfold fMajor; simp (disch := decide) only [ext_low]; rfl) (by decide))
theorem ldf (d a : Reg) : Statement (.ldf d a) := by
  intro p rest h; cases h
  exact frame_word _ _ (by simp (disch := decide) only [ext_low]; rfl)
    (inlineBytes_none _ 55 (by unfold fMajor; simp (disch := decide) only [ext_low]; rfl) (by decide))
theorem stf (d a b : Reg) : Statement (.stf d a b) := by
  intro p rest h; cases h
  exact frame_word _ _ (by simp (disch := decide) only [ext_low]; rfl)
    (inlineBytes_none _ 55 (by unfold fMajor; simp (disch := decide) only [ext_low]; rfl) (by decide))
theorem gjoin (d a : Reg) : Statement (.gjoin d a) := by
  intro p rest h; cases h
  exact frame_word _ _ (by simp (disch := decide) only [ext_low]; rfl)
    (inlineBytes_none _ 55 (by unfold fMajor; simp (disch := decide) only [ext_low]; rfl) (by decide))
theorem gleave (d a : Reg) : Statement (.gleave d a) := by
  intro p rest h; cases h
  exact frame_word _ _ (by simp (disch := decide) only [ext_low]; rfl)
    (inlineBytes_none _ 55 (by unfold fMajor; simp (disch := decide) only [ext_low]; rfl) (by decide))
theorem sbBind (d a b : Reg) : Statement (.sbBind d a b) := by
  intro p rest h; cases h
  exact frame_word _ _ (by simp (disch := decide) only [ext_low]; rfl)
    (inlineBytes_none _ 55 (by unfold fMajor; simp (disch := decide) only [ext_low]; rfl) (by decide))
theorem sbRet (a : Reg) : Statement (.sbRet a) := by
  intro p rest h; cases h
  exact frame_word _ _ (by simp (disch := decide) only [ext_low]; rfl)
    (inlineBytes_none _ 55 (by unfold fMajor; simp (disch := decide) only [ext_low]; rfl) (by decide))
theorem qpop (d a b : Reg) : Statement (.qpop d a b) := by
  intro p rest h; cases h
  exact frame_word _ _ (by simp (disch := decide) only [ext_low]; rfl)
    (inlineBytes_none _ 56 (by unfold fMajor; simp (disch := decide) only [ext_low]; rfl) (by decide))
theorem qpush (d a b : Reg) : Statement (.qpush d a b) := by
  intro p rest h; cases h
  exact frame_word _ _ (by simp (disch := decide) only [ext_low]; rfl)
    (inlineBytes_none _ 56 (by unfold fMajor; simp (disch := decide) only [ext_low]; rfl) (by decide))
theorem schedNext (d : Reg) : Statement (.schedNext d) := by
  intro p rest h; cases h
  exact frame_word _ _ (by simp (disch := decide) only [ext_low]; rfl)
    (inlineBytes_none _ 56 (by unfold fMajor; simp (disch := decide) only [ext_low]; rfl) (by decide))
theorem put (d a b : Reg) (L : BitVec 4) : Statement (.put d a b L) := by
  intro p rest h; cases h
  exact frame_word _ _ (by simp (disch := decide) only [ext_low]; rfl)
    (inlineBytes_none _ 58 (by unfold fMajor; simp (disch := decide) only [ext_low]; rfl) (by decide))
theorem get (d a b : Reg) (L : BitVec 4) : Statement (.get d a b L) := by
  intro p rest h; cases h
  exact frame_word _ _ (by simp (disch := decide) only [ext_low]; rfl)
    (inlineBytes_none _ 58 (by unfold fMajor; simp (disch := decide) only [ext_low]; rfl) (by decide))
theorem radd (d a b : Reg) (L : BitVec 4) : Statement (.radd d a b L) := by
  intro p rest h; cases h
  exact frame_word _ _ (by simp (disch := decide) only [ext_low]; rfl)
    (inlineBytes_none _ 58 (by unfold fMajor; simp (disch := decide) only [ext_low]; rfl) (by decide))
theorem rcas (d a b : Reg) (L : BitVec 4) : Statement (.rcas d a b L) := by
  intro p rest h; cases h
  exact frame_word _ _ (by simp (disch := decide) only [ext_low]; rfl)
    (inlineBytes_none _ 58 (by unfold fMajor; simp (disch := decide) only [ext_low]; rfl) (by decide))
theorem lease (d a b : Reg) : Statement (.lease d a b) := by
  intro p rest h; cases h
  exact frame_word _ _ (by simp (disch := decide) only [ext_low]; rfl)
    (inlineBytes_none _ 59 (by unfold fMajor; simp (disch := decide) only [ext_low]; rfl) (by decide))
theorem lrel (d a b : Reg) : Statement (.lrel d a b) := by
  intro p rest h; cases h
  exact frame_word _ _ (by simp (disch := decide) only [ext_low]; rfl)
    (inlineBytes_none _ 59 (by unfold fMajor; simp (disch := decide) only [ext_low]; rfl) (by decide))
theorem lqry (d a : Reg) : Statement (.lqry d a) := by
  intro p rest h; cases h
  exact frame_word _ _ (by simp (disch := decide) only [ext_low]; rfl)
    (inlineBytes_none _ 59 (by unfold fMajor; simp (disch := decide) only [ext_low]; rfl) (by decide))
theorem trgPost (d a b : Reg) : Statement (.trgPost d a b) := by
  intro p rest h; cases h
  exact frame_word _ _ (by simp (disch := decide) only [ext_low]; rfl)
    (inlineBytes_none _ 60 (by unfold fMajor; simp (disch := decide) only [ext_low]; rfl) (by decide))
theorem trgCancel (d a b : Reg) : Statement (.trgCancel d a b) := by
  intro p rest h; cases h
  exact frame_word _ _ (by simp (disch := decide) only [ext_low]; rfl)
    (inlineBytes_none _ 60 (by unfold fMajor; simp (disch := decide) only [ext_low]; rfl) (by decide))
theorem ctrAdd (d a b : Reg) : Statement (.ctrAdd d a b) := by
  intro p rest h; cases h
  exact frame_word _ _ (by simp (disch := decide) only [ext_low]; rfl)
    (inlineBytes_none _ 60 (by unfold fMajor; simp (disch := decide) only [ext_low]; rfl) (by decide))
theorem ctrWait (d a b : Reg) : Statement (.ctrWait d a b) := by
  intro p rest h; cases h
  exact frame_word _ _ (by simp (disch := decide) only [ext_low]; rfl)
    (inlineBytes_none _ 60 (by unfold fMajor; simp (disch := decide) only [ext_low]; rfl) (by decide))
theorem ctrRd (d a : Reg) : Statement (.ctrRd d a) := by
  intro p rest h; cases h
  exact frame_word _ _ (by simp (disch := decide) only [ext_low]; rfl)
    (inlineBytes_none _ 60 (by unfold fMajor; simp (disch := decide) only [ext_low]; rfl) (by decide))
theorem coll (d a b : Reg) (L : BitVec 4) (p : Block) : Statement (.coll d a b L p) := by
  intro p rest h; cases h
  exact frame_block _ _ _ (by simp (disch := decide) only [ext_low]; rfl)
    (by unfold inlineBytes fMajor; simp (disch := decide) only [ext_low, fFunc, ext_high]; rfl)
theorem grpSt (d a b : Reg) : Statement (.grpSt d a b) := by
  intro p rest h; cases h
  exact frame_word _ _ (by simp (disch := decide) only [ext_low]; rfl)
    (by unfold inlineBytes fMajor fFunc; simp (disch := decide) only [ext_low, ext_high]; rfl)
theorem grpLd (d a b : Reg) : Statement (.grpLd d a b) := by
  intro p rest h; cases h
  exact frame_word _ _ (by simp (disch := decide) only [ext_low]; rfl)
    (by unfold inlineBytes fMajor fFunc; simp (disch := decide) only [ext_low, ext_high]; rfl)
theorem suppressedInstruction : Statement (.suppressedInstruction) := by
  intro p rest h; cases h
theorem deferredTrap (core slot : Nat) : Statement (.deferredTrap core slot) := by
  intro p rest h; cases h
theorem gangAbort (core slot : Nat) : Statement (.gangAbort core slot) := by
  intro p rest h; cases h
theorem gangFormation (core slot : Nat) : Statement (.gangFormation core slot) := by
  intro p rest h; cases h
theorem gangRowBarrierJoin (core slot : Nat) : Statement (.gangRowBarrierJoin core slot) := by
  intro p rest h; cases h
theorem homeAccess (req : Nat) : Statement (.homeAccess req) := by
  intro p rest h; cases h
theorem remoteScratchAccess (req : Nat) : Statement (.remoteScratchAccess req) := by
  intro p rest h; cases h
theorem loadDataReturn (req : Nat) : Statement (.loadDataReturn req) := by
  intro p rest h; cases h
theorem storeAcknowledgement (req : Nat) : Statement (.storeAcknowledgement req) := by
  intro p rest h; cases h
theorem errorResponse (req : Nat) : Statement (.errorResponse req) := by
  intro p rest h; cases h
theorem scratchFrameRefill (core frame : Nat) : Statement (.scratchFrameRefill core frame) := by
  intro p rest h; cases h
theorem accRegionRefill (core region : Nat) : Statement (.accRegionRefill core region) := by
  intro p rest h; cases h
theorem serviceReply (core slot : Nat) : Statement (.serviceReply core slot) := by
  intro p rest h; cases h
theorem pageWalk (die : Nat) (va : Word) : Statement (.pageWalk die va) := by
  intro p rest h; cases h
theorem scWindowDelivery (window : Nat) : Statement (.scWindowDelivery window) := by
  intro p rest h; cases h
theorem vectorCommandStart (core : Nat) : Statement (.vectorCommandStart core) := by
  intro p rest h; cases h
theorem vectorCommandComplete (core : Nat) : Statement (.vectorCommandComplete core) := by
  intro p rest h; cases h
theorem ksendRecordApply (core : Nat) : Statement (.ksendRecordApply core) := by
  intro p rest h; cases h
theorem matrixEntryStart (core : Nat) : Statement (.matrixEntryStart core) := by
  intro p rest h; cases h
theorem matrixEntryComplete (core : Nat) : Statement (.matrixEntryComplete core) := by
  intro p rest h; cases h
theorem dispatch (cluster : Nat) : Statement (.dispatch cluster) := by
  intro p rest h; cases h
theorem dispatchComplete (core slot : Nat) : Statement (.dispatchComplete core slot) := by
  intro p rest h; cases h
theorem routingDecision (cluster : Nat) : Statement (.routingDecision cluster) := by
  intro p rest h; cases h
theorem forwardArrival (fwd : Nat) : Statement (.forwardArrival fwd) := by
  intro p rest h; cases h
theorem forwardAcceptance (fwd : Nat) : Statement (.forwardAcceptance fwd) := by
  intro p rest h; cases h
theorem forwardRefusal (fwd : Nat) : Statement (.forwardRefusal fwd) := by
  intro p rest h; cases h
theorem taskAging (cluster level : Nat) : Statement (.taskAging cluster level) := by
  intro p rest h; cases h
theorem epochBoundary : Statement (.epochBoundary) := by
  intro p rest h; cases h
theorem gradientAdvertSend : Statement (.gradientAdvertSend) := by
  intro p rest h; cases h
theorem advertTimeout (part entry : Nat) : Statement (.advertTimeout part entry) := by
  intro p rest h; cases h
theorem visitorOutcomeUnknown (fwd : Nat) : Statement (.visitorOutcomeUnknown fwd) := by
  intro p rest h; cases h
theorem jwaitTimeout (core slot : Nat) : Statement (.jwaitTimeout core slot) := by
  intro p rest h; cases h
theorem queueWaitTimeout (core slot : Nat) : Statement (.queueWaitTimeout core slot) := by
  intro p rest h; cases h
theorem rootlArm (who : Who) (cluster : Nat) (value : Word) : Statement (.rootlArm who cluster value) := by
  intro p rest h; cases h
theorem rootlPlace (who : Who) (cluster : Nat) (value : Word) : Statement (.rootlPlace who cluster value) := by
  intro p rest h; cases h
theorem slotcmdFree (who : Who) (cluster : Nat) (value : Word) : Statement (.slotcmdFree who cluster value) := by
  intro p rest h; cases h
theorem joinCountStore (who : Who) (cluster idx : Nat) (value : Word) : Statement (.joinCountStore who cluster idx value) := by
  intro p rest h; cases h
theorem futureEmpty (who : Who) (cluster idx : Nat) : Statement (.futureEmpty who cluster idx) := by
  intro p rest h; cases h
theorem sbctlClear (who : Who) (cluster : Nat) : Statement (.sbctlClear who cluster) := by
  intro p rest h; cases h
theorem preemptSave (who : Who) (core : Nat) (value : Word) : Statement (.preemptSave who core value) := by
  intro p rest h; cases h
theorem preemptSaveComplete (core : Nat) : Statement (.preemptSaveComplete core) := by
  intro p rest h; cases h
theorem preemptRestore (who : Who) (core : Nat) (value : Word) : Statement (.preemptRestore who core value) := by
  intro p rest h; cases h
theorem sctxWrite (who : Who) (core : Nat) (value : Word) : Statement (.sctxWrite who core value) := by
  intro p rest h; cases h
theorem btStart (core slot die channel : Nat) (value : Word) : Statement (.btStart core slot die channel value) := by
  intro p rest h; cases h
theorem copyRowPerformed (die channel : Nat) : Statement (.copyRowPerformed die channel) := by
  intro p rest h; cases h
theorem copyComplete (die channel : Nat) : Statement (.copyComplete die channel) := by
  intro p rest h; cases h
theorem copyFail (die channel : Nat) : Statement (.copyFail die channel) := by
  intro p rest h; cases h
theorem streamerPost (core slot : Nat) (value : Word) : Statement (.streamerPost core slot value) := by
  intro p rest h; cases h
theorem streamerRow (die : Nat) : Statement (.streamerRow die) := by
  intro p rest h; cases h
theorem streamerComplete (die : Nat) : Statement (.streamerComplete die) := by
  intro p rest h; cases h
theorem queueSubscribe (core slot queue : Nat) (value : Word) : Statement (.queueSubscribe core slot queue value) := by
  intro p rest h; cases h
theorem queueUnsubscribe (core slot queue : Nat) (value : Word) : Statement (.queueUnsubscribe core slot queue value) := by
  intro p rest h; cases h
theorem pumpLoadTile (core queue : Nat) : Statement (.pumpLoadTile core queue) := by
  intro p rest h; cases h
theorem pumpStoreTile (core queue : Nat) : Statement (.pumpStoreTile core queue) := by
  intro p rest h; cases h
theorem tlbInvalidate (who : Who) (die : Nat) (value : Word) : Statement (.tlbInvalidate who die value) := by
  intro p rest h; cases h
theorem tlbInvalidateDone (die : Nat) : Statement (.tlbInvalidateDone die) := by
  intro p rest h; cases h
theorem dieFence (who : Who) (die : Nat) : Statement (.dieFence who die) := by
  intro p rest h; cases h
theorem heartbeatTimeout (die : Nat) : Statement (.heartbeatTimeout die) := by
  intro p rest h; cases h
theorem fenceResponse (die : Nat) : Statement (.fenceResponse die) := by
  intro p rest h; cases h
theorem coreIsolate (core : Nat) : Statement (.coreIsolate core) := by
  intro p rest h; cases h
theorem spareSubstitute (core : Nat) : Statement (.spareSubstitute core) := by
  intro p rest h; cases h
theorem formatWindowEnable (who : Who) (die win : Nat) (value : Word) : Statement (.formatWindowEnable who die win value) := by
  intro p rest h; cases h
theorem formatWindowDisable (who : Who) (die win : Nat) (value : Word) : Statement (.formatWindowDisable who die win value) := by
  intro p rest h; cases h
theorem registerWrite (who : Who) (addr : Word) (value : Stored) :
    Statement (.registerWrite who addr value) := by
  intro p rest h; cases h
theorem hostMemoryAccess (fn : Nat) (isWrite : Bool) (off size : Nat) (data : List Byte) : Statement (.hostMemoryAccess fn isWrite off size data) := by
  intro p rest h; cases h
theorem partitionCreate (who : Who) (part : Nat) (value : Word) : Statement (.partitionCreate who part value) := by
  intro p rest h; cases h
theorem partitionDestroy (who : Who) (part : Nat) (value : Word) : Statement (.partitionDestroy who part value) := by
  intro p rest h; cases h
theorem partitionScrubDone (part : Nat) : Statement (.partitionScrubDone part) := by
  intro p rest h; cases h
theorem lockInterfaceRequest (part : Nat) : Statement (.lockInterfaceRequest part) := by
  intro p rest h; cases h
theorem startInterfaceRequest (part : Nat) : Statement (.startInterfaceRequest part) := by
  intro p rest h; cases h
theorem stopInterfaceRequest (part : Nat) : Statement (.stopInterfaceRequest part) := by
  intro p rest h; cases h
theorem getTdispVersion (part : Nat) : Statement (.getTdispVersion part) := by
  intro p rest h; cases h
theorem getTdispCapabilities (part : Nat) : Statement (.getTdispCapabilities part) := by
  intro p rest h; cases h
theorem getDeviceInterfaceReport (part : Nat) : Statement (.getDeviceInterfaceReport part) := by
  intro p rest h; cases h
theorem getDeviceInterfaceState (part : Nat) : Statement (.getDeviceInterfaceState part) := by
  intro p rest h; cases h
theorem ideIntegrityFailure (part : Nat) : Statement (.ideIntegrityFailure part) := by
  intro p rest h; cases h
theorem functionLevelReset (part : Nat) : Statement (.functionLevelReset part) := by
  intro p rest h; cases h
theorem spdmCert (rq : SpdmRequest) : Statement (.spdmCert rq) := by
  intro p rest h; cases h
theorem spdmChal (rq : SpdmRequest) : Statement (.spdmChal rq) := by
  intro p rest h; cases h
theorem spdmMeas (rq : SpdmRequest) : Statement (.spdmMeas rq) := by
  intro p rest h; cases h
theorem spdmKeyEx (rq : SpdmRequest) : Statement (.spdmKeyEx rq) := by
  intro p rest h; cases h
theorem partitionPairing (part peer remote : Nat) : Statement (.partitionPairing part peer remote) := by
  intro p rest h; cases h
theorem perstDeassert : Statement (.perstDeassert) := by
  intro p rest h; cases h
theorem fwgo (who : Who) : Statement (.fwgo who) := by
  intro p rest h; cases h
theorem bootInitComplete (failedDies : BitVec 4) : Statement (.bootInitComplete failedDies) := by
  intro p rest h; cases h
theorem dieReset (die : Nat) : Statement (.dieReset die) := by
  intro p rest h; cases h
theorem powerStateCommand (who : Who) (die : Nat) (value : Word) : Statement (.powerStateCommand who die value) := by
  intro p rest h; cases h
theorem powerTransitionDone (die : Nat) : Statement (.powerTransitionDone die) := by
  intro p rest h; cases h
theorem thermalSample (die : Nat) (temp : BitVec 16) : Statement (.thermalSample die temp) := by
  intro p rest h; cases h
theorem thermTrip : Statement (.thermTrip) := by
  intro p rest h; cases h
theorem gtimeLoad (who : Who) (value : Word) : Statement (.gtimeLoad who value) := by
  intro p rest h; cases h
theorem laneRepair (link : Nat) : Statement (.laneRepair link) := by
  intro p rest h; cases h
theorem dieLinkDown (link : Nat) : Statement (.dieLinkDown link) := by
  intro p rest h; cases h
theorem cxlPortDown (port : Nat) : Statement (.cxlPortDown port) := by
  intro p rest h; cases h
theorem mfreePush (who : Who) (die : Nat) (value : Word) : Statement (.mfreePush who die value) := by
  intro p rest h; cases h
theorem portEnable (who : Who) (port : Nat) (value : Word) : Statement (.portEnable who port value) := by
  intro p rest h; cases h
theorem portDisable (who : Who) (port : Nat) (value : Word) : Statement (.portDisable who port value) := by
  intro p rest h; cases h
theorem laserFeedFailure (laser : Nat) : Statement (.laserFeedFailure laser) := by
  intro p rest h; cases h
theorem lossOfLight (port wave : Nat) : Statement (.lossOfLight port wave) := by
  intro p rest h; cases h
theorem lightRestored (laser : Nat) : Statement (.lightRestored laser) := by
  intro p rest h; cases h
theorem wavelengthLock (port wave : Nat) : Statement (.wavelengthLock port wave) := by
  intro p rest h; cases h
theorem trainingTimeout (port wave : Nat) : Statement (.trainingTimeout port wave) := by
  intro p rest h; cases h
theorem wavelengthDrained (port wave : Nat) : Statement (.wavelengthDrained port wave) := by
  intro p rest h; cases h
theorem laneRequestTimeout : Statement (.laneRequestTimeout) := by
  intro p rest h; cases h
theorem regionRegister (who : Who) (entry : Nat) (value : Word) : Statement (.regionRegister who entry value) := by
  intro p rest h; cases h
theorem regionRevoke (who : Who) (entry : Nat) (value : Word) : Statement (.regionRevoke who entry value) := by
  intro p rest h; cases h
theorem regionRevokeDone (entry : Nat) : Statement (.regionRevokeDone entry) := by
  intro p rest h; cases h
theorem pageMigration (die : Nat) (va : Word) : Statement (.pageMigration die va) := by
  intro p rest h; cases h
theorem pageMigrationDone (die : Nat) (ok : Bool) (frame : List Byte) : Statement (.pageMigrationDone die ok frame) := by
  intro p rest h; cases h
theorem contextFetchComplete (part peer : Nat) : Statement (.contextFetchComplete part peer) := by
  intro p rest h; cases h
theorem fabricSend (part peer : Nat) : Statement (.fabricSend part peer) := by
  intro p rest h; cases h
theorem ackTimer (part peer : Nat) : Statement (.ackTimer part peer) := by
  intro p rest h; cases h
theorem nakGapTimeout (part peer : Nat) : Statement (.nakGapTimeout part peer) := by
  intro p rest h; cases h
theorem goBackTimeout (part peer : Nat) : Statement (.goBackTimeout part peer) := by
  intro p rest h; cases h
theorem remoteOpComplete (op : Nat) : Statement (.remoteOpComplete op) := by
  intro p rest h; cases h
theorem putFlit (f : Flit) : Statement (.putFlit f) := by
  intro p rest h; cases h
theorem getq (f : Flit) : Statement (.getq f) := by
  intro p rest h; cases h
theorem getr (f : Flit) : Statement (.getr f) := by
  intro p rest h; cases h
theorem raddFlit (f : Flit) : Statement (.raddFlit f) := by
  intro p rest h; cases h
theorem rcasFlit (f : Flit) : Statement (.rcasFlit f) := by
  intro p rest h; cases h
theorem atr (f : Flit) : Statement (.atr f) := by
  intro p rest h; cases h
theorem fadd (f : Flit) : Statement (.fadd f) := by
  intro p rest h; cases h
theorem pld (f : Flit) : Statement (.pld f) := by
  intro p rest h; cases h
theorem pst (f : Flit) : Statement (.pst f) := by
  intro p rest h; cases h
theorem errFlit (f : Flit) : Statement (.errFlit f) := by
  intro p rest h; cases h
theorem vis (f : Flit) : Statement (.vis f) := by
  intro p rest h; cases h
theorem trgCounterAdd (f : Flit) : Statement (.trgCounterAdd f) := by
  intro p rest h; cases h
theorem trgSmallContribution (f : Flit) : Statement (.trgSmallContribution f) := by
  intro p rest h; cases h
theorem trgSmallResult (f : Flit) : Statement (.trgSmallResult f) := by
  intro p rest h; cases h
theorem trgBulkChunkUp (f : Flit) : Statement (.trgBulkChunkUp f) := by
  intro p rest h; cases h
theorem trgBulkChunkDown (f : Flit) : Statement (.trgBulkChunkDown f) := by
  intro p rest h; cases h
theorem trgAbortRequest (f : Flit) : Statement (.trgAbortRequest f) := by
  intro p rest h; cases h
theorem trgAbortDecision (f : Flit) : Statement (.trgAbortDecision f) := by
  intro p rest h; cases h
theorem trgDescriptorCheck (f : Flit) : Statement (.trgDescriptorCheck f) := by
  intro p rest h; cases h
theorem ack (f : Flit) : Statement (.ack f) := by
  intro p rest h; cases h
theorem nak (f : Flit) : Statement (.nak f) := by
  intro p rest h; cases h
theorem pause (f : Flit) : Statement (.pause f) := by
  intro p rest h; cases h
theorem lctlLaneRequest (f : Flit) : Statement (.lctlLaneRequest f) := by
  intro p rest h; cases h
theorem lctlGrant (f : Flit) : Statement (.lctlGrant f) := by
  intro p rest h; cases h
theorem lctlRevocation (f : Flit) : Statement (.lctlRevocation f) := by
  intro p rest h; cases h
theorem lctlLossNotice (f : Flit) : Statement (.lctlLossNotice f) := by
  intro p rest h; cases h
theorem sync (f : Flit) : Statement (.sync f) := by
  intro p rest h; cases h
theorem timeSync : Statement (.timeSync) := by
  intro p rest h; cases h
theorem timeSyncLost : Statement (.timeSyncLost) := by
  intro p rest h; cases h
theorem adv (f : Flit) : Statement (.adv f) := by
  intro p rest h; cases h
theorem counterAddStore (who : Who) (ctr : Nat) (value : Word) : Statement (.counterAddStore who ctr value) := by
  intro p rest h; cases h
theorem counterSet (who : Who) (ctr : Nat) (value : Word) : Statement (.counterSet who ctr value) := by
  intro p rest h; cases h
theorem triggerEntryComplete (entry : Nat) : Statement (.triggerEntryComplete entry) := by
  intro p rest h; cases h
theorem groupContributionStore (who : Who) (group : Nat) (value : Word) : Statement (.groupContributionStore who group value) := by
  intro p rest h; cases h
theorem undefinedEncoding (sub : Nat) (word : BitVec 32) : Statement (.undefinedEncoding sub word) := by
  intro p rest h; cases h
theorem softError (site : Site) (uncorrectable : Bool) : Statement (.softError site uncorrectable) := by
  intro p rest h; cases h
theorem linkUp (link : Nat) : Statement (.linkUp link) := by
  intro p rest h; cases h
theorem hostLinkUp : Statement (.hostLinkUp) := by
  intro p rest h; cases h
theorem preemptRestoreComplete (core : Nat) : Statement (.preemptRestoreComplete core) := by
  intro p rest h; cases h
theorem visitorStateChange (name : RecordName) (state : Nat) (joina : Word) (done : Bool) :
    Statement (.visitorStateChange name state joina done) := by
  intro p rest h; cases h
theorem msixEventSignal (fn : Nat) : Statement (.msixEventSignal fn) := by
  intro p rest h; cases h

end Sys2Proof.Laws.Framed
end

