-- ==== Sys2Proof/Tests/Slice0.lean ====
section
/-! SUPPORT. Tests of the model: words written out from the spec's encodings and what they decode to, ill-formed
terms, single steps of the spec's own examples, and for every obligation with hypotheses a state and operands that
meet them. -/

namespace Sys2Proof.Tests

open Sys2Proof Sys2Proof.Machine Sys2Proof.Claim

-- One theorem at a time: each is a kernel evaluation, and many at once need more stack space than the checks give.
set_option Elab.async false

/-! ## Helpers -/

/-- Registers by physical code. -/
def regs (l : List (Nat × Word)) : Vector Word 108 := l.foldl (fun v p => v.set! p.1 p.2) (Vector.replicate 108 0)

/-- Reset, with thread 0 ready and as given. -/
def having (x : Thread) : State := State.reset.setThread 0 { x with life := .ready }

/-- What an instruction that completes leaves, seen through `f`. -/
def sees {α : Type} (i : Instr) (s : State) (f : State → α) : Option α :=
  match exec i s with
  | .next t => some (f t)
  | _ => none

/-- Specifiers 1, 2 and 3 of a thread. -/
def three (a b c : Word) : Thread := { regs := regs [(1, a), (2, b), (3, c)] }

/-- A die 0 whose page table, at 0x40_0000, maps the first 8 pages of 256 KiB of virtual memory onto themselves,
readable, writable and executable (R292). -/
def paged (s : State) : State :=
  let m := (s.mem.writeNat 0x400000 8 0x410001).writeNat 0x410000 8 0x420001
  { s.setDie 0 { ptBase := 0x400000, ptEn := true } with
    mem := (List.range 8).foldl (fun m i => m.writeNat (0x420000 + 8 * i) 8 (0x40000 * i + 0xF)) m }

/-! ## Single steps of the spec's examples -/

/-- R71: the table's rows of div. -/
theorem test_div_table :
    [(0x64, 0), (0x8000000000000000, 0xFFFFFFFFFFFFFFFF), (0xFFFFFFFFFFFFFFF9, 2)].map
      (fun p : Word × Word => sees (.div 4 1 2) (having (three p.1 p.2 0)) (fun t => t.rd 4)) =
    [some 0xFFFFFFFFFFFFFFFF, some 0x8000000000000000, some 0xFFFFFFFFFFFFFFFD] := by decide +kernel

/-- R71: the table's rows of rem. -/
theorem test_rem_table :
    [(0x64, 0), (0x8000000000000000, 0xFFFFFFFFFFFFFFFF), (0xFFFFFFFFFFFFFFF9, 2)].map
      (fun p : Word × Word => sees (.rem 4 1 2) (having (three p.1 p.2 0)) (fun t => t.rd 4)) =
    [some 0x64, some 0, some 0xFFFFFFFFFFFFFFFF] := by decide +kernel

/-- R71: the table's row of divu. -/
theorem test_divu_table :
    sees (.divu 4 1 2) (having (three 0x8000000000000000 0xFFFFFFFFFFFFFFFF 0)) (fun t => t.rd 4) = some 0 := by
  decide +kernel

/-- R78: the example's skip of two instructions, taken and not. -/
theorem test_skip_example :
    [0, 1].map (fun v : Word => sees (.skipEq 1 24 1) (having (three v 0 0)) (fun t => t.me.skc)) = [some 2, some 0] := by
  decide +kernel

/-- R81: a loop entered with 0 wraps and is taken; one entered with 1 ends. -/
theorem test_loop_wraps :
    [0, 1].map (fun v : Word => sees (.loop 1 0x7FFE) (having { three v 0 0 with pc := 0x100 })
      (fun t => (t.rd 1, t.me.pc))) = [some (0xFFFFFFFFFFFFFFFF, 0xFC), some (0, 0x104)] := by decide +kernel

/-- R83: an odd target traps misaligned with EVAL the target, before the window check. -/
theorem test_callr_odd :
    sees (.callr16 1) (having { three 0x41 0 0 with depth := 9, hvec := 0x800, pc := 0x100 })
      (fun t => (t.me.causeCode, t.me.eval, t.me.pc, t.me.epc, t.me.depth)) = some (0x03, 0x41, 0x800, 0x100, 9) := by
  decide +kernel

/-- R13: a call wraps the window base and leaves the link word in the new w23; slide 2 sets its bit 0. -/
theorem test_call_wraps :
    sees (.call16 8) (having { wb := 11, depth := 3, pc := 0x100 })
      (fun t => (t.me.wb, t.me.depth, t.me.pc, t.rd 23)) = some (1, 5, 0x110, 0x105) := by decide +kernel

/-- R14: step 6 of the worked example of the window: call.8 at DEPTH 9 traps 0x06 with EVAL 1. -/
theorem test_call_spill_trap :
    sees (.call8 8) (having { wb := 9, depth := 9, hvec := 0x800 })
      (fun t => (t.me.causeCode, t.me.eval, t.me.depth, t.me.wb)) = some (0x06, 1, 9, 9) := by decide +kernel

/-- R14: the fourth ret of the worked example needs two blocks where one is resident and one spilled: EVAL 1. With
nothing spilled bit 63 is set. -/
theorem test_ret_fill_trap :
    [1, 0].map (fun n : Nat => sees .ret (having { depth := 1, spilled := n, regs := regs [(23, 0x105)] })
      (fun t => (t.me.causeCode, t.me.eval))) = [some (0x07, 1), some (0x07, 0x8000000000000001)] := by decide +kernel

/-- R15: step 7 of the worked example: block 0 goes to memory at WSP. -/
theorem test_spill_example :
    sees .wspill (having { wb := 9, depth := 9, mode := true, wsp := 0xF000000000000100, regs := regs [(0, 7)] })
      (fun t => (t.me.depth, t.me.spilled, t.me.wsp, (t.core 0).scratch.readNat 0x100 8)) =
    some (8, 1, 0xF000000000000140, 7) := by decide +kernel

/-- R86: the follower's bz goes the leader's way, whatever its own register. -/
theorem test_follower_branches :
    sees (.bz 6 4) { having { regs := regs [(6, 3)], pc := 0x100, gang := true, gangIx := 1, gangSz := 2 } with
      fwd := some { taken := true, target := 0x108 } } (fun t => t.me.pc) = some 0x108 := by decide +kernel

/-- R26: a trap in handler mode halts the slot and keeps the state registers of the first trap. -/
theorem test_handler_trap_halts :
    sees (.jr 1) (having { three 1 0 0 with mode := true, epc := 0x55 }) (fun t => (t.me.life, t.me.epc)) =
      some (.halted, 0x55) := by decide +kernel

/-- R25: the ldq of the example, with page 7 mapped and page 8 not: EVAL names the third word, no register changes. -/
theorem test_ldq_example :
    sees (.ldq 4 5 0 0) (paged (having { regs := regs [(4, 0x11), (5, 0x1FFFF0), (6, 0x22), (7, 0x33)] }))
      (fun t => (t.me.causeCode, t.me.causeSub, t.me.eval, [4, 5, 6, 7].map t.rd)) =
    some (0x04, 1, 0x200000, [0x11, 0x1FFFF0, 0x22, 0x33]) := by decide +kernel

/-- R134: clock 55 of the tag example. -/
theorem test_tffr_example :
    sees (.tffr 4 6) ((having { regs := regs [(6, 0x220)] }).setCore 0 { tagReady := 0x200 }) (fun t => t.rd 4) =
      some 9 := by decide +kernel

/-- R156: the LNS8 codes 0x0B and 0x0D multiply to 8.0 exactly. -/
theorem test_lns8_product :
    product .lns8 .lns8 false 0x0B 0x0D = (.fin false 0x8000 (-12), false) := by decide +kernel

/-- R160: FP32 3.0 to LNS8, nearest-even and toward zero. -/
theorem test_fp32_to_lns8 :
    [0, 1].map (fun rm => (convert .f32 .lns8 false rm 0 0x40400000).1) = [0x0D, 0x0C] := by decide +kernel

/-- R167, R168: the E4M3 group of the example. -/
theorem test_e4m3_group :
    (groupTotal 0 (product .e4m3 .e4m3 false 0x78 0x78 :: List.replicate 31 (product .e4m3 .e4m3 false 0 0)) 0x25 0x39).1
      = 0x20 ∧ (accAdd 0 0x20).1 = 0x20 := by decide +kernel

/-- R98, R105: a byte load takes its sign from bit 7. -/
theorem test_ldb_sign :
    [sees (.ldB 4 1 1 0), sees (.ldBu 4 1 1 0)].map (fun f => f ((having (three 0xF000000000000FFF 0 0)).setCore 0
      { scratch := ({} : Memory).writeNat 0x1000 1 0x80 }) (fun t => t.rd 4)) = [some 0xFFFFFFFFFFFFFF80, some 0x80] := by
  decide +kernel

/-- R98: a 32-bit store puts its bytes lowest first. -/
theorem test_stw_bytes :
    sees (.stW 2 1 0 0) (having (three 0xF000000000001000 0xAABBCCDD11223344 0))
      (fun t => (t.core 0).scratch.readBytes 0xFFF 6) = some [0, 0x44, 0x33, 0x22, 0x11, 0] := by decide +kernel

/-- R24, R101: the fault of a load with L = 1 is in flight; it is precise when it comes back first, and waits at the next
boundary when an instruction has issued since. -/
theorem test_late_fault :
    [false, true].map (fun later =>
      ((sees (.ldD 4 2 0 1) (having { three 0 0x300000000000000 0 with hvec := 0x800, pc := 0x100 }) (fun t =>
        t.modMe (fun x => { x with flights := x.flights.map (fun f => { f with later := later }) }))).bind (fun t =>
        sees (.errorResponse 0) t (fun u => (u.me.pc, u.me.epc, u.me.causeCode, u.me.deferred.length))))) =
    [some (0x800, 0x100, 0x04, 0), some (0x104, 0, 0, 1)] := by decide +kernel

/-- R111: amo.add.w wraps at 32 bits, returns the old value sign-extended and leaves the next bytes alone. -/
theorem test_amo_add_wraps :
    sees (.amoAdd 4 0 1 2 0 0) ((having (three 0xF000000000001000 2 0)).setCore 0
      { scratch := ({} : Memory).writeNat 0x1000 8 0xFFFFFFFF }) (fun t => (t.rd 4, (t.core 0).scratch.readNat 0x1000 8)) =
    some (0xFFFFFFFFFFFFFFFF, 1) := by decide +kernel

/-- R251: the barrier example with the decrement ordered first: X receives 7, then the phase is 8 and ARRIVED 0. -/
theorem test_barrier_example :
    sees (.barArr 4 1) ((having (three 0xF200000500010000 0 0)).setCluster 5
      { bars := ({} : Tab Barrier).put 0 { phase := 7, arrived := 1, expect := 2 } })
      (fun t => (t.rd 4, (t.bar 5 0).phase, (t.bar 5 0).arrived)) = some (7, 8, 0) := by decide +kernel

/-- R253: the cell example: the writer's store fills the cell and answers 0, the reader then takes 0x2A. -/
theorem test_cell_example :
    (match exec (.stf 4 1 2) (having (three 0xF200000500020400 0x2A 0)) with
     | .next t => (sees (.ldf 5 1) t (fun u => (t.rd 4, u.rd 5, u.cell 5 0x40)))
     | _ => none) = some (0, 0x2A, { value := 0x2A, full := true }) := by decide +kernel

/-- A package whose record 0x11 of cluster 0 is that of R244's example, with join counter 7 of cluster 5 at 1. -/
def inlineExample : State :=
  let s := (having { regs := regs [(9, 0x11)], recIx := 3, pc := 0x100 }).setCluster 0
    { lrBase := 0x10000, lrCount := 0x20, used := 256 }
  let s := s.setCluster 5 { joins := ({} : Tab JoinCounter).put 7 { count := 1 } }
  { s with mem := ((s.mem.writeNat 0x11100 8 0x800).writeNat 0x11140 8 0x28).writeNat 0x11128 8 0xF200000500040070 }

/-- R243: in the child LAUNCH, JOINA, WB and DEPTH are as the example's table has them; the record is RUNNING. -/
theorem test_spawnc_example :
    sees (.spawnc 10 9) inlineExample (fun t => (t.me.joina, [t.me.inl.toNat, t.me.recIx, t.me.wb, t.me.depth,
      (t.rd 0).toNat, t.recState 0 0x11])) = some (0xF200000500040070, [1, 0x11, 2, 2, 0x28, 4]) := by decide +kernel

/-- R244: after the child's DONE. -/
theorem test_done_example :
    (match exec (.spawnc 10 9) inlineExample with
     | .next t => sees .done t (fun u => [u.me.recIx, u.me.inl.toNat, u.me.joina.toNat, u.me.wb,
         (u.rd 10).toNat, u.recState 0 0x11, (u.join 5 7).count])
     | _ => none) = some [3, 0, 0, 0, 1, 0, 0] := by decide +kernel

/-- R291: the walk of the example. -/
theorem test_walk_example :
    let m := ((({} : Memory).writeNat 0x400008 8 0x410001).writeNat 0x412340 8 0x420001).writeNat 0x42ACF0 8 0x12340000B
    let s : State := { State.reset.setDie 0 { ptBase := 0x400000, ptEn := true } with mem := m }
    (match s.translate 0 0x123456789ABC with
     | .ok l => some (l.pa, l.w, l.x, l.mode, homeDie l.pa)
     | .error _ => none) = some (0x123409ABC, true, false, 0, some 0) := by decide +kernel

/-- R169–R171: the format-window example: the byte at 0x40_4105 is read from the scale byte at 0x90_0105, and the
container at 0x40_0007 from bits [23:18] of the word at 0x80_0003. -/
theorem test_window_example :
    let w : FormatWindow := { fwctl := 0x9000000000400000, fwlen := 2, fwpk := 0x800000, fwsc := 0x900000 }
    let s : State := { State.reset.setDie 0 { fw := (Vector.replicate 16 {}).set 3 w } with
      mem := (({} : Memory).writeNat 0x900105 1 0x5A).writeNat 0x800003 3 (11 * 2 ^ 18) }
    (s.homeRead 0x404105 1).2 = [0x5A] ∧ (s.homeRead 0x400007 1).2 = [0x0B] := by
  decide +kernel

/-! ## Words and terms -/

/-- Each word (its width and its bits as the opcode table numbers them) reads as its instruction. -/
def Reads (l : List (Nat × Nat × Instr)) : Prop :=
  l.map (fun e => decodeTableWord e.1 e.2.1) = l.map (fun e => some e.2.2)

/-- Words of the short forms (R37, R38). -/
theorem test_decode_short_0 : Reads
    [(16, 0x14E0, .shortMvReg 7 5), (16, 0xC4E0, .shortMvImm 7 0x11), (16, 0x14E2, .shortAddReg 7 5),
     (16, 0xC4E2, .shortAddImm 7 0x11), (16, 0x14E4, .shortSubReg 7 5), (16, 0xC4E4, .shortSubImm 7 0x11),
     (16, 0x14E6, .shortAndReg 7 5), (16, 0xC4E6, .shortAndImm 7 0x11), (16, 0x14E8, .shortOrReg 7 5),
     (16, 0xC4E8, .shortOrImm 7 0x11), (16, 0x14EA, .shortXorReg 7 5), (16, 0xC4EA, .shortXorImm 7 0x11),
     (16, 0x14EC, .shortShlReg 7 5), (16, 0xC4EC, .shortShlImm 7 0x11), (16, 0x14EE, .shortShrReg 7 5),
     (16, 0xC4EE, .shortShrImm 7 0x11)] := rfl

/-- Words of the short forms (R37, R38). -/
theorem test_decode_short_1 : Reads
    [(16, 0x14F0, .shortSraReg 7 5), (16, 0xC4F0, .shortSraImm 7 0x11), (16, 0x14F2, .shortMinReg 7 5),
     (16, 0xC4F2, .shortMinImm 7 0x11), (16, 0x14F4, .shortMaxReg 7 5), (16, 0xC4F4, .shortMaxImm 7 0x11),
     (16, 0x14F6, .shortSltReg 7 5), (16, 0xC4F6, .shortSltImm 7 0x11), (16, 0x14F8, .shortMulReg 7 5),
     (16, 0xC4F8, .shortMulImm 7 0x11), (16, 0x14FA, .shortLdReg 7 5), (16, 0xC4FA, .shortLdOff 7 0x11),
     (16, 0x14FC, .shortStReg 7 5), (16, 0xC4FC, .shortStImm 7 0x11), (16, 0x147E, .skz 5 3),
     (16, 0x945E, .skzN 5 2)] := rfl

/-- Words of major 0x00, format T (R41, R46, R70). -/
theorem test_decode_alu_0 : Reads
    [(32, 0xC5381, .add 7 5 6), (32, 0x40C5381, .sub 7 5 6), (32, 0x80C5381, .and 7 5 6),
     (32, 0xC0C5381, .or 7 5 6), (32, 0x100C5381, .xor 7 5 6), (32, 0x140C5381, .andn 7 5 6),
     (32, 0x180C5381, .shl 7 5 6), (32, 0x1C0C5381, .shr 7 5 6), (32, 0x200C5381, .sra 7 5 6),
     (32, 0x240C5381, .rol 7 5 6), (32, 0x280C5381, .min 7 5 6), (32, 0x2C0C5381, .max 7 5 6),
     (32, 0x300C5381, .minu 7 5 6), (32, 0x340C5381, .maxu 7 5 6), (32, 0x380C5381, .slt 7 5 6),
     (32, 0x3C0C5381, .sltu 7 5 6)] := rfl

/-- Words of major 0x00, format T (R41, R46, R70). -/
theorem test_decode_alu_1 : Reads
    [(32, 0x400C5381, .seq 7 5 6), (32, 0x440C5381, .mul 7 5 6), (32, 0x480C5381, .mulh 7 5 6),
     (32, 0x4C0C5381, .mulhu 7 5 6), (32, 0x500C5381, .div 7 5 6), (32, 0x540C5381, .divu 7 5 6),
     (32, 0x580C5381, .rem 7 5 6), (32, 0x5C0C5381, .remu 7 5 6), (32, 0x60005381, .clz 7 5),
     (32, 0x64005381, .ctz 7 5), (32, 0x68005381, .popc 7 5), (32, 0x6C005381, .bswap 7 5),
     (32, 0x70005381, .brev 7 5), (32, 0x74045381, .sext 7 5 2), (32, 0x78025381, .zext 7 5 1)] := rfl

/-- Words of majors 0x01 to 0x0A (R41, R42, R46). -/
theorem test_decode_imm_0 : Reads
    [(32, 0x86425383, .addi 7 5 0x4321), (32, 0x86425385, .andi 7 5 0x4321), (32, 0x86425387, .ori 7 5 0x4321),
     (32, 0x86425389, .xori 7 5 0x4321), (32, 0x54538B, .shli 7 5 0x2a), (32, 0x2054538B, .shri 7 5 0x2a),
     (32, 0x4054538B, .srai 7 5 0x2a), (32, 0x6054538B, .roli 7 5 0x2a), (32, 0x2468538D, .slti 7 5 0x1234),
     (32, 0x6468538D, .sltui 7 5 0x1234), (32, 0xA468538D, .seqi 7 5 0x1234),
     (64, 0x89ABCDEF0000038F, .lit 7 0x89abcdef), (64, 0x89ABCDEF0400038F, .litZ 7 0x89abcdef),
     (64, 0x89ABCDEF0800038F, .litH 7 0x89abcdef), (32, 0xC0C5391, .sel 7 5 6 3),
     (32, 0x8C0C5391, .selN 7 5 6 3)] := rfl

/-- Words of majors 0x01 to 0x0A (R41, R42, R46). -/
theorem test_decode_imm_1 : Reads
    [(32, 0xC5113, .skipEq 5 6 2), (32, 0x40C5113, .skipNe 5 6 2), (32, 0x80C5113, .skipLt 5 6 2),
     (32, 0xC0C5113, .skipGe 5 6 2), (32, 0x100C5113, .skipLtu 5 6 2), (32, 0x140C5113, .skipGeu 5 6 2),
     (32, 0xC0C5395, .lea 7 3 5 6), (32, 0x82345395, .leaPc 7 0x2345)] := rfl

/-- Words of majors 0x10 to 0x16, formats B, Z, J and T (R41, R46). -/
theorem test_decode_control : Reads
    [(32, 0x9AB05321, .bEq 5 6 0x9ab), (32, 0x9AB25321, .bNe 5 6 0x9ab), (32, 0x9AB45321, .bLt 5 6 0x9ab),
     (32, 0x9AB65321, .bGe 5 6 0x9ab), (32, 0x9AB85321, .bLtu 5 6 0x9ab), (32, 0x9ABA5321, .bGeu 5 6 0x9ab),
     (32, 0xACF05023, .bz 5 0x5678), (32, 0xACF050A3, .bnz 5 0x5678), (32, 0xD5E6F7A5, .j 0x1abcdef),
     (32, 0xD5E6F7A7, .call8 0x1abcdef), (32, 0xD5E6F7A9, .call16 0x1abcdef), (32, 0x502B, .jr 5),
     (32, 0x400502B, .callr8 5), (32, 0x800502B, .callr16 5), (32, 0xC00002B, .ret),
     (32, 0xACF0502D, .loop 5 0x5678)] := rfl

/-- Words of majors 0x18 to 0x1F, formats M, T and A (R41, R46, R47). -/
theorem test_decode_memory_0 : Reads
    [(32, 0x8C1253B1, .ldB 7 5 0x8c 9), (32, 0x8C3253B1, .ldH 7 5 0x8c 9), (32, 0x8C5253B1, .ldW 7 5 0x8c 9),
     (32, 0x8C7253B1, .ldD 7 5 0x8c 9), (32, 0x8C9253B1, .ldBu 7 5 0x8c 9), (32, 0x8CB253B1, .ldHu 7 5 0x8c 9),
     (32, 0x8CD253B1, .ldWu 7 5 0x8c 9), (32, 0x8C1253B3, .stB 7 5 0x8c 9), (32, 0x8C3253B3, .stH 7 5 0x8c 9),
     (32, 0x8C5253B3, .stW 7 5 0x8c 9), (32, 0x8C7253B3, .stD 7 5 0x8c 9), (32, 0x664C53B5, .ldx 7 1 5 6 6 9),
     (32, 0xBA4C53B5, .stx 7 2 5 6 3 9), (32, 0x8C1253B7, .ldp 7 5 0x8c 9), (32, 0x8C3253B7, .ldq 7 5 0x8c 9),
     (32, 0x8C5253B7, .stp 7 5 0x8c 9)] := rfl

/-- Words of majors 0x18 to 0x1F, formats M, T and A (R41, R46, R47). -/
theorem test_decode_memory_1 : Reads
    [(32, 0x8C7253B7, .stq 7 5 0x8c 9), (32, 0x94C53B9, .amoSwap 7 4 5 6 1 2),
     (32, 0x194C53B9, .amoAdd 7 4 5 6 1 2), (32, 0x294C53B9, .amoAnd 7 4 5 6 1 2),
     (32, 0x394C53B9, .amoOr 7 4 5 6 1 2), (32, 0x494C53B9, .amoXor 7 4 5 6 1 2),
     (32, 0x594C53B9, .amoMin 7 4 5 6 1 2), (32, 0x694C53B9, .amoMax 7 4 5 6 1 2),
     (32, 0x794C53B9, .amoMinu 7 4 5 6 1 2), (32, 0x894C53B9, .amoMaxu 7 4 5 6 1 2),
     (32, 0x994C53B9, .amoCas 7 4 5 6 1 2), (32, 0x7400003B, .fence 5 3), (32, 0x800C503B, .qfence 5 6),
     (32, 0x240503D, .pfL2 5 9), (32, 0x640503D, .pfRdc 5 9), (32, 0xA40503D, .cln 5 9)] := rfl

/-- Words of majors 0x18 to 0x1F, formats M, T and A (R41, R46, R47). -/
theorem test_decode_memory_2 : Reads
    [(32, 0xE40503D, .inv 5 9), (32, 0x1240503D, .flush 5 9), (32, 0x1640503D, .zln 5 9),
     (32, 0x8C1253BF, .ldScW 7 5 0x8c 9), (32, 0x8C3253BF, .ldScD 7 5 0x8c 9),
     (32, 0x8C5253BF, .stScW 7 5 0x8c 9), (32, 0x8C7253BF, .stScD 7 5 0x8c 9)] := rfl

/-- Words of majors 0x20 to 0x26, formats T and X (R41, R42, R46). -/
theorem test_decode_system_0 : Reads
    [(32, 0x41, .nop), (32, 0x8000041, .rte), (32, 0xC000041, .done), (32, 0x10000041, .yield),
     (32, 0x42A53C1, .trap 7 0x2a5), (32, 0x135603C3, .mfs 7 0x9ab), (32, 0x33565043, .mts 5 0x9ab),
     (32, 0x45, .wspill), (32, 0x4000045, .wfill), (32, 0x80003C5, .wstat 7), (32, 0x53C7, .twany 7 5),
     (32, 0x40053C7, .twall 7 5), (32, 0x80053C7, .tffr 7 5), (32, 0xC005047, .tclr 5),
     (32, 0xC5049, .chsnd 5 6), (32, 0x40053C9, .chrcv 7 5)] := rfl

/-- Words of majors 0x20 to 0x26, formats T and X (R41, R42, R46). -/
theorem test_decode_system_1 : Reads
    [(32, 0x80C53C9, .chtry 7 5 6), (32, 0x4B, .gang2), (32, 0x400004B, .gang4), (32, 0x800004B, .gang8),
     (32, 0xC00004B, .disband), (32, 0x3CD, .rng 7)] := rfl

/-- Words of major 0x28 (R46). -/
theorem test_decode_vecfloat : Reads
    [(32, 0xA4C53D1, .vaddFp 7 5 6 2 9), (32, 0x1A4C53D1, .vsubFp 7 5 6 2 9),
     (32, 0x2A4C53D1, .vmulFp 7 5 6 2 9), (32, 0x3A4C53D1, .vfma 7 5 6 2 9), (32, 0x4A4C53D1, .vfms 7 5 6 2 9),
     (32, 0x5A4C53D1, .vminFp 7 5 6 2 9), (32, 0x6A4C53D1, .vmaxFp 7 5 6 2 9), (32, 0x7A4C5051, .vabs 5 6 2 9),
     (32, 0x8A4C5051, .vneg 5 6 2 9), (32, 0x9A4C53D1, .vceqFp 7 5 6 2 9), (32, 0xAA4C53D1, .vcltFp 7 5 6 2 9),
     (32, 0xBA4C53D1, .vcle 7 5 6 2 9), (32, 0xCA4C5051, .vsum 5 6 2 9), (32, 0xDA4C5051, .vmaxr 5 6 2 9),
     (32, 0xEA4C53D1, .vscale 7 5 6 2 9)] := rfl

/-- Words of major 0x29 (R46). -/
theorem test_decode_vecint : Reads
    [(32, 0xE4C53D3, .vaddInt 7 5 6 3 9), (32, 0x1E4C53D3, .vsubInt 7 5 6 3 9),
     (32, 0x2E4C53D3, .vmulInt 7 5 6 3 9), (32, 0x3E4C53D3, .vminInt 7 5 6 3 9),
     (32, 0x4E4C53D3, .vmaxInt 7 5 6 3 9), (32, 0x5E4C53D3, .vminu 7 5 6 3 9),
     (32, 0x6E4C53D3, .vmaxu 7 5 6 3 9), (32, 0x7E4C53D3, .vand 7 5 6 3 9), (32, 0x8E4C53D3, .vor 7 5 6 3 9),
     (32, 0x9E4C53D3, .vxor 7 5 6 3 9), (32, 0xAE4C53D3, .vshl 7 5 6 3 9), (32, 0xBE4C53D3, .vshr 7 5 6 3 9),
     (32, 0xCE4C53D3, .vsra 7 5 6 3 9), (32, 0xDE4C53D3, .vceqInt 7 5 6 3 9),
     (32, 0xEE4C53D3, .vcltInt 7 5 6 3 9), (32, 0xFE4C53D3, .vcltu 7 5 6 3 9)] := rfl

/-- Words of majors 0x2A to 0x2D (R42, R46, R47). -/
theorem test_decode_vecother_0 : Reads
    [(32, 0x64C5055, .vrcp 5 6 1 9), (32, 0x164C5055, .vrsqrt 5 6 1 9), (32, 0x264C5055, .vsqrt 5 6 1 9),
     (32, 0x364C5055, .vexp2 5 6 1 9), (32, 0x464C5055, .vlog2 5 6 1 9), (32, 0x564C5055, .vtanh 5 6 1 9),
     (32, 0x664C5055, .vsigm 5 6 1 9), (32, 0x764C5055, .vgelu 5 6 1 9), (32, 0x864C5055, .vsilu 5 6 1 9),
     (32, 0x964C53D5, .vdiv 7 5 6 1 9), (32, 0x24C53D7, .vmov 7 5 6 9), (32, 0x64C5057, .vbcast 5 6 9),
     (32, 0xA4C5057, .vgath 5 6 9), (32, 0xE4C5057, .vscat 5 6 9), (32, 0x124C5057, .vcomp 5 6 9),
     (32, 0x164C5057, .vexpd 5 6 9)] := rfl

/-- Words of majors 0x2A to 0x2D (R42, R46, R47). -/
theorem test_decode_vecother_1 : Reads
    [(32, 0x1A4C5057, .vscan 5 6 9), (32, 0x1E4C5057, .vrev 5 6 9), (32, 0x224C53D7, .vcmx 7 5 6 9),
     (32, 0x264C5057, .vmrg 5 6 9), (32, 0x2A4C5057, .vbton 5 6 9), (32, 0x2E4C5057, .vrank 5 6 9),
     (32, 0xFA4C52D7, .vcvt 5 5 6 6 9), (32, 0xC52D9, .vcur 5 6 5), (32, 0x4005059, .vfence 5),
     (32, 0x80053D9, .vstat 7 5), (32, 0x24C53DB, .ksend 7 5 6 9), (32, 0x64053DB, .racc 7 5 9)] := rfl

/-- Words of majors 0x30 to 0x32, with their parameter blocks (R46, R56). -/
theorem test_decode_matrix : Reads
    [(160, 0x123456789ABCDEFFEDCBA987654321002400061, .mma 9 0x123456789abcdeffedcba9876543210),
     (160, 0x123456789ABCDEFFEDCBA987654321002405063, .mepi 5 9 0x123456789abcdeffedcba9876543210),
     (160, 0x123456789ABCDEFFEDCBA987654321002405065, .mldb 5 9 0x123456789abcdeffedcba9876543210),
     (32, 0x64C0065, .mzero 6 9), (32, 0xA4C5065, .msave 5 6 9), (32, 0xE4C5065, .mrest 5 6 9),
     (32, 0x10005065, .mwait 5)] := rfl

/-- Words of majors 0x34 to 0x37 (R46). -/
theorem test_decode_cluster_0 : Reads
    [(32, 0xC53E9, .lpatch 7 5 6), (32, 0x40053E9, .spawn 7 5), (32, 0x80053E9, .spawnc 7 5),
     (32, 0xC53EB, .jsig 7 5 6), (32, 0x40C506B, .jwait 5 6), (32, 0x53ED, .barArr 7 5),
     (32, 0x40C506D, .barWait 5 6), (32, 0x80C506D, .barT1 5 6), (32, 0xC0C506D, .barSet 5 6),
     (32, 0x100C506D, .barBytes 5 6), (32, 0x140C506D, .barBind 5 6), (32, 0x53EF, .ldf 7 5),
     (32, 0x40C53EF, .stf 7 5 6), (32, 0x80053EF, .gjoin 7 5), (32, 0xC0053EF, .gleave 7 5),
     (32, 0x100C53EF, .sbBind 7 5 6)] := rfl

/-- Words of majors 0x34 to 0x37 (R46). -/
theorem test_decode_cluster_1 : Reads
    [(32, 0x1400506F, .sbRet 5)] := rfl

/-- Words of majors 0x38 to 0x3D (R46, R56). -/
theorem test_decode_fabric_0 : Reads
    [(32, 0xC53F1, .qpop 7 5 6), (32, 0x40C53F1, .qpush 7 5 6), (32, 0x80003F1, .schedNext 7),
     (32, 0x24C53F5, .put 7 5 6 9), (32, 0x64C53F5, .get 7 5 6 9), (32, 0xA4C53F5, .radd 7 5 6 9),
     (32, 0xE4C53F5, .rcas 7 5 6 9), (32, 0xC53F7, .lease 7 5 6), (32, 0x40C53F7, .lrel 7 5 6),
     (32, 0x80053F7, .lqry 7 5), (32, 0xC53F9, .trgPost 7 5 6), (32, 0x40C53F9, .trgCancel 7 5 6),
     (32, 0x80C53F9, .ctrAdd 7 5 6), (32, 0xC0C53F9, .ctrWait 7 5 6), (32, 0x100053F9, .ctrRd 7 5),
     (160, 0x123456789ABCDEFFEDCBA9876543210024C53FB, .coll 7 5 6 9 0x123456789abcdeffedcba9876543210)] := rfl

/-- Words of majors 0x38 to 0x3D (R46, R56). -/
theorem test_decode_fabric_1 : Reads
    [(32, 0x40C53FB, .grpSt 7 5 6), (32, 0x80C53FB, .grpLd 7 5 6)] := rfl

/-- Terms that no instruction or event of the package is: each check of well-formedness refuses one. -/
theorem test_ill_formed_0 : ([
    .shortMvReg 0 0, .sext 0 0 3, .zext 0 0 3, .ldx 0 0 0 0 7 0, .stx 0 0 0 0 4 0, .amoSwap 0 6 0 0 0 0,
    .amoAdd 0 6 0 0 0 0, .amoAnd 0 6 0 0 0 0, .amoOr 0 6 0 0 0 0, .amoXor 0 6 0 0 0 0, .amoMin 0 6 0 0 0 0,
    .amoMax 0 6 0 0 0 0, .amoMinu 0 6 0 0 0 0, .amoMaxu 0 6 0 0 0 0, .amoCas 0 6 0 0 0 0, .fence 6 0,
    .vaddFp 0 0 0 3 0, .vsubFp 0 0 0 3 0, .vmulFp 0 0 0 3 0, .vfma 0 0 0 3 0, .vfms 0 0 0 3 0,
    .vminFp 0 0 0 3 0, .vmaxFp 0 0 0 3 0, .vabs 0 0 3 0, .vneg 0 0 3 0, .vceqFp 0 0 0 3 0, .vcltFp 0 0 0 3 0,
    .vcle 0 0 0 3 0, .vsum 0 0 3 0, .vmaxr 0 0 3 0, .vscale 0 0 0 3 0, .vrcp 0 0 3 0, .vrsqrt 0 0 3 0,
    .vsqrt 0 0 3 0, .vexp2 0 0 3 0, .vlog2 0 0 3 0, .vtanh 0 0 3 0, .vsigm 0 0 3 0, .vgelu 0 0 3 0,
    .vsilu 0 0 3 0] : List Instr).all (fun i => !i.wellFormed) = true := by decide

/-- Terms that no instruction or event of the package is: each check of well-formedness refuses one. -/
theorem test_ill_formed_1 : ([
    .vdiv 0 0 0 3 0, .deferredTrap 1024 0, .deferredTrap 0 4, .gangAbort 1024 0, .gangAbort 0 4,
    .gangFormation 1024 0, .gangFormation 0 4, .gangRowBarrierJoin 1024 0, .gangRowBarrierJoin 0 4,
    .scratchFrameRefill 1024 0, .accRegionRefill 1024 0, .serviceReply 1024 0, .serviceReply 0 4, .pageWalk 4 0,
    .vectorCommandStart 1024, .vectorCommandComplete 1024, .ksendRecordApply 1024, .matrixEntryStart 1024,
    .matrixEntryComplete 1024, .dispatch 32, .dispatchComplete 1024 0, .dispatchComplete 0 4,
    .routingDecision 32, .taskAging 32 0, .advertTimeout 4 0, .jwaitTimeout 1024 0, .jwaitTimeout 0 4,
    .queueWaitTimeout 1024 0, .queueWaitTimeout 0 4, .rootlArm (.supervisor 0) 32 0,
    .rootlPlace (.supervisor 0) 32 0, .slotcmdFree (.supervisor 0) 32 0, .joinCountStore (.supervisor 0) 32 0 0,
    .futureEmpty (.supervisor 0) 32 0, .sbctlClear (.supervisor 0) 32, .preemptSave (.supervisor 0) 1024 0,
    .preemptSaveComplete 1024, .preemptRestore (.supervisor 0) 1024 0, .sctxWrite (.supervisor 0) 1024 0,
    .btStart 1024 0 0 0 0] : List Instr).all (fun i => !i.wellFormed) = true := by decide

/-- Terms that no instruction or event of the package is: each check of well-formedness refuses one. -/
theorem test_ill_formed_2 : ([
    .btStart 0 4 0 0 0, .btStart 0 0 4 0 0, .btStart 0 0 0 64 0, .copyRowPerformed 4 0, .copyRowPerformed 0 64,
    .copyComplete 4 0, .copyComplete 0 64, .copyFail 4 0, .copyFail 0 64, .streamerPost 1024 0 0,
    .streamerPost 0 4 0, .streamerRow 4, .streamerComplete 4, .queueSubscribe 1024 0 0 0,
    .queueSubscribe 0 4 0 0, .queueSubscribe 0 0 8 0, .queueUnsubscribe 1024 0 0 0, .queueUnsubscribe 0 4 0 0,
    .queueUnsubscribe 0 0 8 0, .pumpLoadTile 1024 0, .pumpLoadTile 0 8, .pumpStoreTile 1024 0,
    .pumpStoreTile 0 8, .tlbInvalidate (.supervisor 0) 4 0, .tlbInvalidateDone 4, .dieFence (.supervisor 0) 4,
    .heartbeatTimeout 4, .fenceResponse 4, .coreIsolate 1024, .spareSubstitute 1024,
    .formatWindowEnable (.supervisor 0) 4 0 0, .formatWindowEnable (.supervisor 0) 0 16 0,
    .formatWindowDisable (.supervisor 0) 4 0 0, .formatWindowDisable (.supervisor 0) 0 16 0,
    .hostMemoryAccess 5 false 0 0 [], .partitionCreate (.supervisor 0) 4 0,
    .partitionDestroy (.supervisor 0) 4 0, .partitionScrubDone 4, .lockInterfaceRequest 4,
    .startInterfaceRequest 4] : List Instr).all (fun i => !i.wellFormed) = true := by decide

/-- Terms that no instruction or event of the package is: each check of well-formedness refuses one. -/
theorem test_ill_formed_3 : ([
    .stopInterfaceRequest 4, .getTdispVersion 4, .getTdispCapabilities 4, .getDeviceInterfaceReport 4,
    .getDeviceInterfaceState 4, .ideIntegrityFailure 4, .functionLevelReset 4, .partitionPairing 4 0 0,
    .dieReset 4, .powerStateCommand (.supervisor 0) 4 0, .powerTransitionDone 4, .thermalSample 4 0,
    .cxlPortDown 32, .mfreePush (.supervisor 0) 4 0, .portEnable (.supervisor 0) 32 0,
    .portDisable (.supervisor 0) 32 0, .lossOfLight 32 0, .lossOfLight 0 16, .wavelengthLock 32 0,
    .wavelengthLock 0 16, .trainingTimeout 32 0, .trainingTimeout 0 16, .wavelengthDrained 32 0,
    .wavelengthDrained 0 16, .pageMigration 4 0, .pageMigrationDone 4 false [], .contextFetchComplete 4 0,
    .fabricSend 4 0, .ackTimer 4 0, .nakGapTimeout 4 0, .goBackTimeout 4 0, .preemptRestoreComplete 1024,
    .msixEventSignal 5] : List Instr).all (fun i => !i.wellFormed) = true := by decide

/-! ## A step of the machine -/

/-- R123: the bytes at the PC of a thread are fetched, decoded and executed: the short add of −1 to w4. -/
theorem test_step_runs_placed_word :
    (match step (State.reset.withFetchWord 16 0xFC82) with
     | .next t => some ((t.thread 0).readCode 4, (t.thread 0).pc - ((State.reset.withFetchWord 16 0xFC82).thread 0).pc)
     | _ => none) = some (BitVec.allOnes 64, 2) := by decide +kernel

/-! ## Witnesses: what the hypotheses of each statement ask is met, clause by clause -/

theorem having_me (x : Thread) : (having x).me = { x with life := .ready } := by
  simp [having, State.me, State.thread, State.setThread, State.reset]

theorem having_other (x : Thread) (k : Nat) (h : k ≠ 0) : (having x).thread k = {} := by
  exact Tab.get_put_other _ _ _ _ _ h

theorem having_thread (x : Thread) (k : Nat) : (having x).thread k = if k = 0 then { x with life := .ready } else {} := by
  split
  · subst_vars; exact having_me x
  · exact having_other x k ‹_›

theorem having_kept (x : Thread) (h : x.wb < 12 ∧ x.depth ≤ 9) : Kept (having x) :=
  ⟨rfl, fun k => by rw [having_thread]; split <;> simp [h]⟩

theorem having_none_parked (x : Thread) : NoneParked (having x) := fun k => by
  rw [having_thread]; split <;> rfl

theorem reset_none_parked : NoneParked State.reset := fun _ => rfl

/-- An add is well formed and has an encoding. -/
theorem witness_DecodingInvertsEncoding :
    (Instr.add 4 5 6).wellFormed = true ∧ ∃ p, encodeParcel (.add 4 5 6) = some p := ⟨by decide, _, rfl⟩

/-- Op 1 has an instruction, op 15 with bits above its fields is reserved. -/
theorem witness_HalfwordsAreInstructionsButZero :
    TaskAlone (having {}) ∧
    ((0x0002 : Half) ≠ 0 ∧ (0x0002 : Half).getLsbD 0 = false ∧
      ¬ ((0x0002 : Half).extractLsb' 1 4 = 15 ∧ (0x0002 : Half).extractLsb' 7 3 ≠ 0)) ∧
    ((0x009E : Half) ≠ 0 ∧ (0x009E : Half).getLsbD 0 = false ∧ (0x009E : Half).extractLsb' 1 4 = 15 ∧
      (0x009E : Half).extractLsb' 7 3 ≠ 0) := by
  unfold TaskAlone; decide +kernel

/-- The placed word's slot may issue, its bytes are fetched, framed, and name no uncorrectable register; the three
cases are an accepted instruction, which completes or waits at issue, one of a major that the driver has not accepted,
and a reserved major. -/
theorem witness_StepRunsTheDecodedInstruction :
    let fetched (s : State) (f : State → Parcel → Bool) : Bool :=
      let s0 : State := { s with agenda := [], cur := 0 }
      let x := s0.thread 0
      decide (x.life = .ready ∧ x.gang = false ∧ x.skc = 0 ∧ x.deferred = [] ∧ x.abort = none ∧ x.yielding = false ∧
        x.held = false ∧ (s0.core 0).stopped = false ∧ s0.coreLost 0 = false ∧ (s0.core 0).saving 0 = false ∧
        (s0.die 0).pwrState = 0) &&
      (match s0.fetchInstr 0 x.pc with
       | .ok s1 bs =>
         (match frame bs with
          | some p => decide ((s1.thread 0).badRegs = []) && f { s1 with ir := firstWord p } p
          | none => false)
       | _ => false)
    let add := State.reset.withFetchWord 32 0x040C5201
    fetched add (fun u p => match decodeParcel p with
      | .ok i => u.accepted 0 p i && !((u.thread 0).interlocked i) &&
          (match exec i u with | .next t => !t.stalled | _ => false)
      | _ => false) = true ∧
    fetched ((State.reset.withFetchWord 32 0x7400003B).modThread 0 (fun x => { x with unacked := [(0, false)] }))
      (fun u p => match decodeParcel p with
      | .ok i => u.accepted 0 p i && !((u.thread 0).interlocked i) &&
          (match exec i u with | .next t => t.stalled | _ => false)
      | _ => false) = true ∧
    fetched (add.modPkg (fun p => { p with parts := p.parts.map (fun q => { q with facc0 := 0 }) }))
      (fun u p => match decodeParcel p with
      | .ok i => !u.accepted 0 p i
      | _ => false) = true ∧
    fetched (State.reset.withFetchWord 32 0xFFFFFFFF)
      (fun _ p => match decodeParcel p with | .ok _ => false | _ => true) = true := by
  decide +kernel

/-- A page that may be executed. -/
theorem witness_StepRunsTheDecodedInstruction_fetch :
    ∃ l, (paged State.reset).translate 0 0x40 = .ok l ∧ l.x = true ∧ l.mode = 0 ∧
      Serves (paged State.reset) l.key l.pa 2 :=
  ⟨{ pa := 0x40, key := 0, mode := 0, peer := 0, t := 0, w := true, x := true }, by decide +kernel, rfl, rfl, 0,
    by decide +kernel⟩

/-- A call at DEPTH 7 and a return keep the window in range. -/
theorem witness_ScalarInstructionsKeepTheInvariant :
    Kept (having { depth := 7, wb := 11 }) ∧
    (sees (.call16 8) (having { depth := 7, wb := 11 }) (fun _ => ())).isSome = true ∧
    (sees .ret (having { depth := 7, wb := 11 }) (fun _ => ())).isSome = true :=
  ⟨having_kept _ (by decide), by decide +kernel, by decide +kernel⟩

/-- The greatest shifts; the counts of 1 and of 0, where no bit is set; the reversals of a word. -/
theorem witness_OneOperandAndImmediateFormsGiveTheirResult :
    ((63 : Nat) = ((having (three 0x7F 0 0)).rd 1).toNat % 64 ∧ (31 : Nat) = (31 : BitVec 5).toNat) ∧
    ((∀ i < 63, (1 : Word).getLsbD (63 - i) = false) ∧ (1 : Word).getLsbD (63 - 63) = true) ∧
    (∀ i < 64, (0 : Word).getLsbD (63 - i) = false) ∧
    ((∀ i < 63, (BitVec.ofNat 64 (2 ^ 63)).getLsbD i = false) ∧ (BitVec.ofNat 64 (2 ^ 63)).getLsbD 63 = true) ∧
    (∀ k < 8, (0x0807060504030201 : Word).extractLsb' (8 * k) 8 =
      (0x0102030405060708 : Word).extractLsb' (56 - 8 * k) 8) ∧
    (∀ k < 64, (BitVec.ofNat 64 (2 ^ 63)).getLsbD k = (1 : Word).getLsbD (63 - k)) := by decide +kernel

/-- A shift by 63, a division by 0. -/
theorem witness_AluGivesItsResult :
    (5 : Word) = (having (three 5 0x7F 0)).rd 1 ∧ (0x7F : Word) = (having (three 5 0x7F 0)).rd 2 ∧
    (63 : Nat) = (0x7F : Word).toNat % 64 ∧ (0 : Word) = (having (three 5 0x7F 0)).rd 3 := by decide +kernel

/-- Each condition and its contrary, on two words that differ in sign. -/
theorem witness_SelectAndSkip :
    let s := having (three 0 (BitVec.allOnes 64) 0)
    let x := s.rd 1
    let y := s.rd 2
    (x = 0 ∧ y ≠ 0) ∧ (x = x ∧ x ≠ y) ∧ (y.toInt < x.toInt ∧ ¬ x.toInt < y.toInt) ∧
    (x.toNat < y.toNat ∧ ¬ y.toNat < x.toNat) := by decide +kernel

/-- Branches whose condition holds and fails, an even and an odd target, the last round of a loop. -/
theorem witness_BranchesJumpsAndLoops :
    let s := having (three 0 (BitVec.allOnes 64) 1)
    s.fwd = none ∧ TaskAlone s ∧ (s.rd 1 = 0 ∧ s.rd 2 ≠ 0) ∧ (s.rd 2).toInt < (s.rd 1).toInt ∧
    (s.rd 1).toNat < (s.rd 2).toNat ∧ (s.rd 1).getLsbD 0 = false ∧ (s.rd 2).getLsbD 0 = true ∧ s.rd 3 = 1 ∧
    (3 : Reg) ≠ 24 := by
  unfold TaskAlone; decide +kernel

/-- A call that fills the window and one that does not fit; a return with just enough blocks and with too few; a
register target of either slide. -/
theorem witness_CallsAndReturnsSlideTheWindow :
    let s (d : Nat) (link : Word) := having { regs := regs [(1, 0x40), (23, link)], depth := d, pc := 0x100 }
    ((s 7 0).fwd = none ∧ (s 7 0).me.depth + 2 ≤ 9 ∧ ((s 7 0).rd 1).getLsbD 0 = false) ∧
    (9 < (s 8 0).me.depth + 2 ∧ TaskAlone (s 8 0)) ∧
    ((s 7 0).me.wb < 12 ∧ (s 7 0).me.pc.getLsbD 0 = false ∧ (sees (.call16 4) (s 7 0) (fun _ => ())).isSome = true) ∧
    ((2 = 1 + ((s 2 1).rd 23).toNat % 2) ∧ 2 ≤ (s 2 1).me.depth) ∧
    ((2 = 1 + ((s 1 1).rd 23).toNat % 2) ∧ (s 1 1).me.depth < 2 ∧ TaskAlone (s 1 1)) := by
  unfold TaskAlone; decide +kernel

/-- A leader that took its branch and one that suppressed it; a slide that just fits. -/
theorem witness_FollowersGoTheLeadersWay :
    let s (o : Outcome) : State := { having { depth := 7 } with fwd := some o }
    (∃ o, (s { taken := true, target := 8, slide := 2 }).fwd = some o ∧ o.taken = true ∧ o.suppressed = false ∧
      (s o).me.depth + o.slide ≤ 9) ∧
    (∃ o, (s { suppressed := true }).fwd = some o ∧ o.suppressed = true) :=
  ⟨⟨_, rfl, by decide +kernel⟩, ⟨_, rfl, by decide +kernel⟩⟩

/-- A thread of task mode, and one of handler mode with nothing of the handler in flight. -/
theorem witness_TrapEntrySavesAndRedirects :
    (((having {}).thread 0).gang = false ∧ ((having {}).thread 0).mode = false) ∧
    ((having { mode := true }).me.mode = true ∧ (having { mode := true }).me.gang = false ∧
      (having { mode := true }).me.handlerWork = false) := by decide +kernel

/-- A thread in handler mode. -/
theorem witness_HandlerModeTrapHalts :
    ((having { mode := true }).thread 0).mode = true ∧ ((having { mode := true }).thread 0).gang = false := by
  decide +kernel

/-- A gang of two on cores 0 and 1, and a thread that the abort signal has reached. -/
theorem witness_TrappingMemberBreaksItsGang :
    let s := (having { gang := true, gangSz := 2 }).setThread 4 { life := .ready, gang := true, gangSz := 2, gangIx := 1 }
    ((s.thread 0).mode = false ∧ (s.thread 0).gang = true ∧ 4 ∈ s.gangOf 0 ∧ 4 ≠ 0 ∧ (s.thread 4).gang = true) ∧
    (let x := (having { abort := some 1 }).thread (tidOf 0 0)
     x.abort = some 1 ∧ x.life = .ready ∧ x.mode = false ∧ x.deferred = [] ∧ x.weft = []) := by decide +kernel

/-- A handler with nothing in flight, one with a store in flight, and a thread that traps in task mode. -/
theorem witness_ReturnFromTrapRestores :
    ((having { mode := true }).me.mode = true ∧ (having { mode := true }).me.handlerWork = false) ∧
    (having { mode := true, unacked := [(0, true)] }).me.handlerWork = true ∧
    ((having {}).me.mode = false ∧ (having {}).me.gang = false ∧ (having {}).me.handlerWork = false) := by
  decide +kernel

/-- A thread in task mode and in no gang. -/
theorem witness_PrivilegedInstructionsTrapInTaskMode : TaskAlone (having {}) := by unfold TaskAlone; decide +kernel

/-- A handler's mfs; RM values of both kinds; a depth at its bound; an address with its top bit set. -/
theorem witness_StateRegistersAreReadAndWritten :
    (having { mode := true }).me.mode = true ∧
    (0x18 : Word).extractLsb' 3 3 = 3 ∧
    (5 ≤ ((0x28 : Word).extractLsb' 3 3).toNat ∧ TaskAlone (having {})) ∧
    ((0x109 : Word).extractLsb' 0 4).toNat ≤ 9 ∧ 9 < ((0x10A : Word).extractLsb' 0 4).toNat ∧
    ((0x20 : Word).extractLsb' 3 3 = 4 ∧ (0x006 : BitVec 12) ∉ [(0x005 : BitVec 12), 0x008]) ∧ (BitVec.ofNat 64 (2 ^ 63)).getLsbD 63 = true := by
  unfold TaskAlone; decide +kernel

/-- A parked request for service 0 and one for a service that the image does not have, each the first at its die, and one
that came after; a follower and a thread that is in no gang. -/
theorem witness_SystemAndServiceInstructions :
    let x (n at_ : Nat) : Thread := { life := .parked, parkedAt := at_, wait := some (.service n 5 7 0 4) }
    let s (n : Nat) := (State.reset.setThread 0 (x n 1)).setThread 1 (x n 2)
    (∀ n ∈ [0, 4], ((s n).thread (tidOf 0 0)).life = .parked ∧
      ((s n).thread (tidOf 0 0)).wait = some (.service n 5 7 0 (((s n).thread (tidOf 0 0)).code 4)) ∧
      (s n).savedWait (tidOf 0 0) = none ∧ (∀ p ∈ (s n).servicesAt (dieOf (0 % 1024)), ((s n).thread (tidOf 0 0)).parkedAt ≤ p) ∧
      (∃ p ∈ (s n).servicesAt (dieOf (0 % 1024)), p < ((s n).thread (tidOf 0 1)).parkedAt)) ∧ 4 ∉ (s 4).pkg.services ∧
    (having { gang := true, gangIx := 1 }).me.gang = true ∧ (having { gang := true, gangIx := 1 }).me.gangIx ≠ 0 ∧
    (having {}).me.gang = false := by decide +kernel

/-- The frames of reset are pinned. -/
theorem reset_pinned (f : Nat) : ({} : Core).pinned f = true := by
  simp only [Core.pinned]
  split
  · simp
  · rfl

/-- The first and the last bytes of the own scratchpad. -/
theorem own_bytes (s : State) (va : Word) (off n : Nat) (hva : va.toNat = 0xF0 * 2 ^ 56 + off)
    (hn : off + n ≤ 0x60000) (h1 : (s.die s.myDie).fenced = false) (h2 : s.core s.myCore = {})
    (h3 : s.watched (some s.myCore) off n = false) (h4 : s.scPending = false) (h5 : s.reqs = []) : OwnBytes s va off n :=
  ⟨hva, hn, h1, fun f _ _ => by rw [h2]; exact reset_pinned f, h3, fun w hw => (by rw [h2] at hw; cases hw), h4,
    fun r hr => by rw [h5] at hr; cases hr⟩

/-- A doubleword at offset 0 and the last one of the scratchpad; a register pair that is not aligned, and one that is. -/
theorem witness_ScratchLoadsReadTheirBytes :
    let s := having (three 0xF000000000000000 0xF00000000005FFF8 0xF00000000005FFE0)
    OwnBytes s (s.rd 1 + (0 : BitVec 8).signExtend 64) 0 1 ∧ OwnBytes s (s.rd 2 + 8 * (0 : BitVec 8).signExtend 64) 0x5FFF8 8 ∧
    0x5FFF8 % 8 = 0 ∧ ((5 : Reg).toNat % 2 ≠ 0 ∧ TaskAlone s) ∧
    ((4 : Reg).toNat % 4 = 0 ∧ OwnBytes s (s.rd 3 + 8 * (0 : BitVec 8).signExtend 64) 0x5FFE0 (8 * 4) ∧ 0x5FFE0 % 8 = 0) := by
  refine ⟨?_, ?_, rfl, ?_, rfl, ?_, rfl⟩
  · apply own_bytes <;> decide +kernel
  · apply own_bytes <;> decide +kernel
  · unfold TaskAlone; decide +kernel
  · apply own_bytes <;> decide +kernel

/-- The same places for stores, and the last line of the scratchpad. -/
theorem witness_ScratchStoresWriteTheirBytes :
    let s := having (three 0xF000000000000000 0xF00000000005FFF8 0xF00000000005FF00)
    OwnBytes s (s.rd 1) 0 8 ∧ OwnBytes s (s.rd 2 + 8 * (0 : BitVec 8).signExtend 64) 0x5FFF8 8 ∧
    ((6 : Reg).toNat % 4 ≠ 0 ∧ TaskAlone s) ∧ ((4 : Reg).toNat % 4 = 0 ∧ OwnBytes s (s.rd 3) 0x5FF00 (8 * 4)) ∧
    OwnBytes s (s.rd 3) 0x5FF00 256 ∧ 0x5FF00 % 256 = 0 := by
  refine ⟨?_, ?_, ?_, ⟨rfl, ?_⟩, ?_, rfl⟩
  · apply own_bytes <;> decide +kernel
  · apply own_bytes <;> decide +kernel
  · unfold TaskAlone; decide +kernel
  · apply own_bytes <;> decide +kernel
  · apply own_bytes <;> decide +kernel

/-- The page at 0 of die 0 as the access of a thread with `x` sees it. -/
def leaf (pa : Nat) : Leaf := { pa := pa, key := 0, mode := 0, peer := 0, t := 0, w := true, x := true }

/-- A request of thread 0 of `n` bytes at 0xF8. -/
def request (op : ReqOp) (n : Nat) (t : Target) (resp : Option Resp) : Request :=
  { id := 5, tid := 0, op := op, va := 0xF8, n := n, pc := 0x40, order := 0, tgts := [t], resp := resp, dests := [4] }

/-- Thread 0 as given, and a store of the die's thread 1 to another package that is not acknowledged. -/
def awaiting (x : Thread) : State :=
  { having x with reqs := [{ request (.store [5]) 1 (.far (leaf 0xF8)) none with tid := 1 }] }

theorem home_serves (s : State) (l : Leaf) (n : Nat)
    (h : homeDie l.pa = some s.myDie ∧ s.dead s.myDie = false ∧ s.owner s.myDie = some l.key ∧
      (s.die s.myDie).windowAt l.pa = none ∧ l.pa % 256 + n ≤ 256 ∧ s.watched none l.pa n = false)
    (hb : s.memBad = []) : HomeServes s l n :=
  ⟨h.1, h.2.1, h.2.2.1, h.2.2.2.1, h.2.2.2.2.1, h.2.2.2.2.2, fun w hw => by rw [hb] at hw; cases hw⟩

/-- A doubleword at the end of a line, and a byte. -/
theorem witness_MemoryLoadsAndStoresAtTheirHome :
    let s := paged (having (three 0xF8 0 0))
    ((0xF8 : Word) = s.rd 1 + BitVec.ofNat 64 8 * (0 : BitVec 8).signExtend 64 ∧
      s.resolve s.cur .load 0xF8 8 = .ok (.mem (leaf 0xF8)) ∧ HomeBytes s (leaf 0xF8) 8) ∧
    (s.resolve s.cur .store 0xF8 8 = .ok (.mem (leaf 0xF8))) ∧
    (s.resolve s.cur .load 0xF8 1 = .ok (.mem (leaf 0xF8)) ∧ HomeBytes s (leaf 0xF8) 1) ∧
    ((0 : BitVec 4) = 0 ∧ (15 : BitVec 4) ≠ 0) := by
  refine ⟨⟨by decide +kernel, by decide +kernel, ⟨home_serves _ _ _ (by decide +kernel) rfl, rfl, rfl⟩⟩,
    by decide +kernel, ⟨by decide +kernel, ⟨home_serves _ _ _ (by decide +kernel) rfl, rfl, rfl⟩⟩, by decide⟩

/-- Words of both widths at the end of the scratchpad; a thread with nothing and one with a store outstanding; a store of
the die to another package that a release of system scope waits for. -/
theorem witness_AtomicsCombineAtTheirHome :
    let s := having (three 0xF00000000005FFF8 0xFFFFFFFFFFFFFFFF 5)
    OwnBytes s (s.rd 1) 0x5FFF8 8 ∧ OwnBytes s (s.rd 1) 0x5FFF8 4 ∧ 0x5FFF8 % 8 = 0 ∧
    (s.me.drained = true ∧ s.settled s.cur = true ∧ (2 : BitVec 2) ≠ 0 ∧
      (having { unacked := [(0, false)] }).me.drained = false ∧ (awaiting {}).settled (awaiting {}).cur = false ∧
      2 ≤ (3 : BitVec 2).toNat ∧ 4 ≤ (7 : BitVec 3).toNat) := by
  refine ⟨?_, ?_, rfl, by decide +kernel⟩
  · apply own_bytes <;> decide +kernel
  · apply own_bytes <;> decide +kernel

/-- The package of `paged` whose page 1 lies on package 5, in mode 2 (R292). -/
def far (s : State) : State := let m := paged s; { m with mem := m.mem.writeNat 0x420008 8 0x500000000C008F }
/-- That page at an offset, as an access sees it. -/
def farLeaf (pa : Nat) : Leaf := { pa := pa, key := 0, mode := 2, peer := 5, t := 0, w := true, x := true }

/-- Pairs and quads at the end of a line, a part each; a byte of a page on another package. -/
theorem witness_MemoryLoadsAndStoresAtTheirHome_groups :
    (let s := paged (having (three 0xE0 0xF0 0))
     (∀ q < 4, ∀ acc ∈ [Acc.load, .store], s.resolve s.cur acc ((0xE0 : Word) + 8 * BitVec.ofNat 64 q) 8 false =
        .ok (.mem { leaf 0xE0 with pa := (leaf 0xE0).pa + 8 * q })) ∧ HomeBytes s (leaf 0xE0) 32 ∧
      ∀ q < 4, s.watched none ((leaf 0xE0).pa + 8 * q) 8 = false) ∧
    (let s := far (having (three 0x40000 0 0))
     (∀ acc ∈ [Acc.load, .store], s.resolve s.cur acc 0x40000 1 = .ok (.far (farLeaf 0xC0000))) ∧ s.scPending = false ∧
      s.walkerFull s.cur (s.missesOf s.cur 0x40000 1) = false ∧ s.migrating (s.partOf s.cur) 0x40000 = false ∧
      s.storesTo s.myDie (farLeaf 0xC0000) = false ∧
      s.resolve s.cur .cache 0x40000 1 = .ok (.far (farLeaf 0xC0000))) := by
  refine ⟨⟨by decide +kernel, ⟨home_serves _ _ _ (by decide +kernel) rfl, rfl, rfl⟩, by decide +kernel⟩, by decide +kernel⟩

/-- Fences of each order with nothing and with something outstanding, by the thread and by its die; reserved and free
fence masks; an address of the own scratchpad. -/
theorem witness_FencesAndCacheOperations :
    let s := having (three 0x80 1 0xF00000000005FFFF)
    ((s.me.drained = true ∧ s.settled s.cur = true ∧ (having { unacked := [(0, false)] }).me.drained = false) ∧
      ((awaiting {}).settled (awaiting {}).cur = false ∧ (2 : BitVec 2) ≠ 0)) ∧
    ((2 : BitVec 2) ≠ 3 ∧ (3 : BitVec 3).toNat < 4) ∧ (4 ≤ (4 : BitVec 3).toNat ∧ (s.die s.myDie).rdcEpoch ≠ 0xFFFFFFFF) ∧
    ((2 ^ 7 ≤ (s.rd 1).toNat ∧ TaskAlone s) ∧ (s.rd 24 = 0 ∧ s.queueBusy (s.rd 24) (s.rd 24) = false) ∧
      (having { regs := regs [(1, 0x20)], flights := [{ id := 0, kind := .fabric, left := none }] }).queueBusy 0x20 0 = true) ∧
    ((s.rd 3).toNat / 2 ^ 20 = 0xF0 * 2 ^ 36 ∧ (s.rd 3).toNat % 2 ^ 20 < 0x60000 ∧ s.scPending = false) := by
  unfold TaskAlone; decide +kernel

/-- A line of die 1 that die 0 may hold in its remote-data cache. -/
theorem witness_FencesAndCacheOperations_inv :
    let s := paged (having (three 0x40040 0 0))
    let m := { s with mem := s.mem.writeNat 0x420008 8 0x600000000F }
    ∃ l, m.resolve m.cur .cache (m.rd 1) 1 = .ok (.mem l) ∧ m.reqs = [] ∧ m.scPending = false ∧
      cacheable m.myDie l = true :=
  ⟨leaf 0x6000000040, by decide +kernel, rfl, rfl, by decide +kernel⟩

/-- A dirty line of an enabled window whose format keeps 256 bytes at a time. -/
theorem witness_FencesAndCacheOperations_window :
    let w : FormatWindow := { fwctl := 0xA000000000040000, fwlen := 1, fwpk := 0x80000, fwsc := 0x90000 }
    let x : HeldLine := { bytes := Vector.replicate 256 7, dirty := true }
    let s := (paged (having (three 0x40000 0 0))).modDie 0 (fun d => { d with
      fw := (Vector.replicate 16 {}).set 0 w, container := ({} : Tab HeldLine).put 0x400 x })
    s.resolve s.cur .cache (s.rd 1) 1 = .ok (.mem (leaf 0x40000)) ∧ homeDie 0x40000 = some 0 ∧ s.dead 0 = false ∧
    s.owner 0 = some 0 ∧ (s.die 0).windowAt 0x40000 = some w ∧ (s.die 0).container.find (0x40000 / 256) = some x ∧
    (w.storage 0x40000).2 = 256 := by decide +kernel

/-- Odd addresses of translated memory and of the scratchpad. -/
theorem witness_BadAddressesTrap :
    TaskAlone (having {}) ∧ ((0x3 : Word).toNat % 2 ≠ 0 ∧ (0x3 : Word).toNat / 2 ^ 57 = 0) ∧
    ((having (three 0xEFFFFFFFFFFFFFFF 0xF000000000060000 0x200000000000000)).rd 1).toNat / 2 ^ 56 = 0xEF ∧
    (((having (three 0 0xF000000000060000 0)).rd 2).toNat / 2 ^ 56 = 0xF0 ∧
      0x60000 ≤ ((having (three 0 0xF000000000060000 0)).rd 2).toNat % 2 ^ 56) ∧
    1 < (0x200000000000000 : Word).toNat / 2 ^ 56 ∧ (1 : BitVec 4) ≠ 0 ∧ (having {}).scPending = false := by unfold TaskAlone; decide +kernel

/-- Tags ready in part, in whole and not at all; a tag with one operation out and one with two; a channel with room, a
full one, an isolated core, and messages that a receive takes and refuses. -/
theorem witness_TagsAndChannels :
    let r : Word := 0x220
    (r &&& 0x200 ≠ 0 ∧ r &&& 0x200 = 0x200) ∧ (r &&& 1 = 0 ∧ (1 : Word) ≠ 0 ∧ r &&& 1 ≠ 1) ∧
    (((∀ i < 5, (r &&& r).getLsbD i = false) ∧ (r &&& r).getLsbD 5 = true) ∧ ∀ i < 64, (r &&& 1).getLsbD i = false) ∧
    (({ tagCount := (Vector.replicate 64 0).set 63 1 } : Core).tagCount[63] = 1 ∧
      ((State.reset.setCore 0 { tagCount := (Vector.replicate 64 0).set 63 2 }).core 0).tagOut 63 = 2 ∧
      ((State.reset.setCore 0 { tagCount := (Vector.replicate 64 0).set 63 1 }).core 0).tagOut 63 = 1) ∧
    (let s := having (three (2 ^ 14) 0x3FFF 0x1C01)
     (2 ^ 14 ≤ (s.rd 1).toNat ∧ TaskAlone s) ∧ (s.rd 2).toNat < 2 ^ 14 ∧
     ((s.rd 3).toNat % 2 ^ 10 = 1 ∧ (s.rd 3).toNat / 2 ^ 10 % 8 = 7) ∧
     ((s.core 1).iso = false ∧ (s.die (dieOf 1)).fenced = false ∧ (s.die (dieOf 1)).pwrState = 0 ∧
       (s.core 1).spilling = false ∧ (s.core 1).spilled 7 = 0 ∧ ((s.core 1).channel 7).length < 16)) ∧
    (({ chan := (Vector.replicate 8 []).set 7 (List.replicate 16 { value := 0, sender := 0 }) } : Core).channel 7).length = 16 ∧
    ((State.reset.setCore 1 { iso := true }).core 1).iso = true ∧
    (let s := (having (three 16 15 7)).setCore 0
       { chan := (Vector.replicate 8 []).set 7 [{ value := 5, sender := 1 }, { value := 6, sender := 1, narrow := true, tcm := true }] }
     (16 ≤ (s.rd 1).toNat ∧ TaskAlone s) ∧ (8 ≤ (s.rd 2).toNat ∧ (s.rd 2).toNat < 16) ∧
     ((s.rd 3).toNat < 8 ∧ (s.core 0).channel 6 = [] ∧ (s.core 0).spilling = false ∧ (s.core 0).spilled 7 = 0) ∧
     (∃ m l, (s.core 0).channel 7 = m :: l ∧ m.bad = false ∧ m.narrow = false)) ∧
    (let s := (having (three 7 0 0)).setCore 0
       { chan := (Vector.replicate 8 []).set 7 [{ value := 6, sender := 1, narrow := true, tcm := true }] }
     ∃ m l, (s.core 0).channel 7 = m :: l ∧ m.bad = false ∧ m.narrow = true ∧ m.tcm ≠ s.me.tcm ∧ TaskAlone s) := by
  unfold TaskAlone
  refine ⟨by decide +kernel, by decide +kernel, by decide +kernel, by decide +kernel, by decide +kernel,
    by decide +kernel, by decide +kernel,
    ⟨by decide +kernel, by decide +kernel, by decide +kernel, _, _, rfl, by decide +kernel⟩, _, _, rfl, by decide +kernel⟩

/-- The one operation of tag 63 ends; threads of the core wait for it and for more. -/
theorem witness_TagsAndChannels_waiting :
    let s := (((having {}).setThread 1 { life := .parked, wait := some (.tagAny (1#64 <<< 63) 4) }).setThread 2
      { life := .parked, wait := some (.tagAll (BitVec.allOnes 64) 4) }).setCore 0
        { tagCount := (Vector.replicate 64 0).set 63 1, tagReady := BitVec.allOnes 64 >>> 1 }
    (s.core 0).tagOut 63 = 1 ∧ (s.thread 1).waits = some (.tagAny (1#64 <<< 63) 4) ∧
    (s.thread 2).waits = some (.tagAll (BitVec.allOnes 64) 4) ∧ (s.thread 0).waits = none ∧
    ∀ k < 3, k / 4 = 0 := by decide +kernel

/-- Two threads that name gangs of different sizes. -/
theorem witness_GangsFormAndDisband_mismatch :
    let s := (State.reset.setThread (tidOf 2 3) { life := .parked, wait := some (.gang 2) }).setThread (tidOf 3 3)
      { life := .parked, wait := some (.gang 4) }
    (s.thread (tidOf 2 3)).waits = some (.gang 2) ∧ (∀ j < 2, ∃ h ∈ [2, 4], (s.thread (tidOf (2 / 2 * 2 + j) 3)).waits = some (.gang h)) ∧
    (∃ j < 2, (s.thread (tidOf (2 / 2 * 2 + j) 3)).waits ≠ some (.gang 2)) ∧
    ∀ j < 2, (s.thread (tidOf (2 / 2 * 2 + j) 3)).mode = false ∧ (s.thread (tidOf (2 / 2 * 2 + j) 3)).gang = false := by
  decide +kernel

/-- No thread is parked there, and the spelled table's keys rise. -/
theorem witness_NoneParked : NoneParked (having {}) ∧ risingKeys (having {}).threads.cells = true :=
  ⟨having_none_parked _, rfl⟩

/-- A thread in no gang and one in a gang; two threads that wait for a gang, and one that waits alone. -/
theorem witness_GangsFormAndDisband :
    ((having {}).me.gang = false ∧ (having { gang := true }).me.gang = true ∧ (having { gang := true }).me.mode = false) ∧
    (let w : Thread := { life := .parked, wait := some (.gang 2) }
     let s := (State.reset.setThread (tidOf 2 3) w).setThread (tidOf 3 3) w
     (3 < 4 ∧ (s.thread (tidOf 3 3)).waits = some (.gang 2)) ∧
     ∀ j < 2, (s.thread (tidOf (3 / 2 * 2 + j) 3)).waits = some (.gang 2)) ∧
    (let s := State.reset.setThread (tidOf 3 3) { life := .parked, wait := some (.gang 2) }
     (s.thread (tidOf 3 3)).waits = some (.gang 2) ∧ (s.thread (tidOf (3 / 2 * 2 + 0) 3)).waits = none) := by
  decide +kernel

/-- Eight elements of 4 bytes on cursors 0, 1 and 2. -/
def strip : Thread :=
  { regs := regs [(1, 0xE88), (2, BitVec.allOnes 64), (3, 2 ^ 21), (4, 0x41)]
    cursors := ((Vector.replicate 8 {}).set 0 { addr := 0, stride := 4 }).set 1 { addr := 0x5FFE0, stride := 4 } |>.set 2
      { addr := 0x100, stride := 4 } }

/-- A stream word with a reserved bit; an FP32 add of eight elements up to the last byte of the scratchpad; the same
with a broadcast; a vcmx with a step word; a ksend with a route word; a conversion; a queue with room and a full one. -/
theorem witness_VectorCommandsEnterTheQueue :
    (2 ^ 21 ≤ ((having strip).rd 3).toNat ∧ TaskAlone (having strip)) ∧
    VectorReady (having strip) (.float 0) 0 0xE88 (BitVec.allOnes 64) 0 ∧
    VectorReady (having strip) (.float 0) 0 0x20E08 (BitVec.allOnes 64) 2 ∧
    VectorReady (having strip) (.move 8) 0 0x40E08 (BitVec.allOnes 64) 4 ∧
    VectorReady (having strip) .ksend 0 0x98 (BitVec.allOnes 64) 5 ∧
    VectorReady (having strip) (.cvt 7) 0 0xE08 (BitVec.allOnes 64) 24 ∧
    (((having strip).core 0).vq.length < 8 ∧ 8 ≤ (List.replicate 8 0).length) := by
  unfold TaskAlone VectorReady
  refine ⟨by decide +kernel, ?_, ?_, ?_, ?_, ?_, by decide +kernel⟩
  all_goals refine ⟨by decide +kernel, by decide +kernel, by decide +kernel, by decide +kernel, by decide +kernel,
      by decide +kernel, by decide +kernel, by decide +kernel, fun _ h => ?_, by decide +kernel⟩
  all_goals cases h
  decide

/-- A vector command of slot 0. -/
def command (op : Vop) : VCmd :=
  { slot := 0, flight := 0, op := op, fmt := 0, sw := 0x88, mask := 1, scalar := 0, rm := 0, tcm := false, seed := 0
    taskix := 0, srctr := 0, cursors := Vector.replicate 8 {}, pc := 0, order := 0 }

/-- Cursor values in range and out; queue bounds met and exceeded; racc words that are well formed and not, with room in
the queue and without. -/
theorem witness_VectorControlsAndQueue_controls :
    ((0x5FFFF : Word).toNat < 0x60000 ∧ (having (three 0 0xFFFFFFFFFFFF8000 0)).rd 2 =
      (((having (three 0 0xFFFFFFFFFFFF8000 0)).rd 2).setWidth 16).signExtend 64) ∧
    (0x60000 ≤ (0x60000 : Word).toNat ∧ TaskAlone (having {})) ∧
    (let s := (having {}).setCore 0 { vq := [command (.int 0)] }
     1 = ((s.core 0).vq.filter (fun c => c.slot = s.cur % 4)).length) ∧
    ((15 : Word).toNat < 16 ∧ (15 : Word).toNat = 8 + 7 ∧ 16 ≤ (16 : Word).toNat) ∧
    (let v := (0x80000000000C0FC0 - 0xC0000 : Word).toNat
     v / 2 ^ 33 % 2 ^ 30 = 0 ∧ v / 2 ^ 20 % 2 ^ 4 ≤ 12 ∧ v % 2 ^ 20 % 64 = 0 ∧
     v % 2 ^ 20 + 2 ^ (v / 2 ^ 20 % 2 ^ 4) * (v / 2 ^ 24 % 2 ^ 8 + 1) * 4 ≤ 0x60000 ∧ (1 : Nat) % 64 ≠ 0) ∧
    (((having {}).core 0).vq.length < 8 ∧
      8 ≤ (((having {}).setCore 0 { vq := List.replicate 8 (command .racc) }).core 0).vq.length) := by
  unfold TaskAlone; decide +kernel

/-- Core 0 with one command at the head of its vector queue. -/
def queued (op : Vop) (started : Bool) : State := State.reset.setCore 0 { vq := [command op], vqStarted := started }

/-- Core 1 with a record that core 0's ksend has sent it. -/
def sending (d : Word) : State :=
  (queued .ksend true).setCore 1 { ksends := [{ sender := 0, index := 0, key := 1, values := [5] }], raccDesc := d }

/-- A queue's head before its start, complete, and a record of a ksend that is accepted and one that is refused. -/
theorem witness_VectorControlsAndQueue :
    (∀ op b, ((queued op b).core 0).vq = [command op]) ∧
    (((queued (.int 0) false).core 0).vqStarted = false ∧ (queued (.int 0) false).cmdWatched 0 (command (.int 0)) = false ∧
      (queued .ksend false).cmdWatched 0 (command .ksend) = false ∧ ((queued (.int 0) true).core 0).vqStarted = true) ∧
    ((command (.int 0)).away = 0 ∧ (command (.int 0)).refused = none ∧ (command .racc).dest < 108 ∧
      (compute (((queued (.int 0) true).pinCommand 0 (command (.int 0))).core 0) (command (.int 0))).fault = none ∧
      (compute (((queued .racc true).pinCommand 0 (command .racc)).core 0) (command .racc)).fault = none) ∧
    (let s := sending 0
     (s.core 1).ksends.length = 1 ∧ (∀ k ∈ (s.core 1).ksends, k.sender = 0) ∧ (s.core 0).vq.length = 1 ∧
      (∀ c ∈ (s.core 0).vq, c.op = .ksend ∧ c.refused = none) ∧ (s.core 1).spilling = false ∧
      (s.core 1).iso = false ∧ (s.core 1).raccDesc.getLsbD 63 = false) ∧
    ((sending 0).die 0).pwrState = 0 ∧ ((sending 0).die 0).fenced = false ∧
    ((sending 0x8000000000000000).core 1).raccDesc.getLsbD 63 = true ∧
    ((sending 0x8000000000000000).core 1).raccCount ≠ BitVec.allOnes 32 := by
  refine ⟨fun _ _ => rfl, ?_, ?_, ?_, ?_, ?_, ?_, ?_⟩ <;> decide +kernel

/-- A watching copy of 64 bytes to offset 0 of core 0. -/
def watching : Copy :=
  { tpl := 0, core := 0, slot := 0, taskix := 0, tag := none, src := 0, dst := 0xF000000000000000, rlen := 64, rows1 := 0
    sstr := 0, dstr := 64, bar := 0, ctr := none, wme := true, pc := 0, order := 0 }

/-- Core 0 with one command at the head of its queue, and a channel with that copy. -/
def queuedWatched (op : Vop) (started : Bool) : State :=
  (queued op started).modDie 0 (fun d => { d with channels := ({} : Tab Channel).put 0 ({ copies := [watching] } : Channel) })

/-- A command whose bytes a copy has still to write, before its start and complete. -/
theorem witness_VectorControlsAndQueue_watched :
    (queuedWatched (.int 0) false).cmdWatched 0 (command (.int 0)) = true ∧
    (queuedWatched (.int 0) true).cmdWatched 0 (command (.int 0)) = true ∧
    (queuedWatched .ksend false).cmdWatched 0 (command .ksend) = true := by decide +kernel

/-- Core 0 with the FP32 numbers 1, -0, infinity, NaN, -1 at offset 0x1000, and -1, 1, infinity, 0, 0 at 0x2000. -/
def numbers : Core :=
  let put (m : Memory) (a : Nat) (l : List Nat) : Memory := (numbered 0 l).foldl (fun m x => m.writeNat (a + 4 * x.1) 4 x.2) m
  { scratch := put (put {} 0x1000 [0x3F800000, 0x80000000, 0x7F800000, 0x7FC00000, 0xBF800000]) 0x2000
      [0xBF800000, 0x3F800000, 0x7F800000, 0, 0] }
/-- A command on their five elements, with results at offset 0; positions 0 to 3 are active, or all five. -/
def onNumbers (op : Vop) (fmt : Nat) (all : Bool) : VCmd :=
  { command op with
    fmt := fmt, sw := 0x40888, mask := if all then 0x1F else 0xF
    cursors := ((Vector.replicate 8 {}).set 0 { addr := 0, stride := 4 }).set 1 { addr := 0x1000, stride := 4 } |>.set 2
      { addr := 0x2000, stride := 4 } }

/-- Sums of numbers, of infinities of one sign and of a NaN; a division by zero and an invalid one; a conversion to an
integer; index words within range and beyond it. -/
theorem witness_VectorElementsAreComputed_values :
    (∀ op ∈ [Vop.float 0, .fn 9, .cvt 0, .move 2], (onNumbers op 0 true).op = op) ∧ streamN 0x40888 = 5 ∧
    (activeIn (onNumbers (.float 12) 0 false) 3 ∧ ¬ activeIn (onNumbers (.float 12) 0 false) 4) ∧
    decodeNum .f32 false (elemAt numbers (onNumbers (.float 0) 0 true) 4 1 0).v = .fin false 0x800000 (-23) ∧
    decodeNum .f32 false (elemAt numbers (onNumbers (.float 0) 0 true) 4 1 1).v = .fin true 0 (-149) ∧
    decodeNum .f32 false (elemAt numbers (onNumbers (.float 0) 0 true) 4 1 2).v = .inf false ∧
    decodeNum .f32 false (elemAt numbers (onNumbers (.float 0) 0 true) 4 1 3).v = .nan ∧
    decodeNum .f32 false (elemAt numbers (onNumbers (.float 0) 0 true) 4 2 2).v = .inf false ∧
    (elemAt numbers (onNumbers (.move 2) 0 true) 4 2 3).v = 0 ∧
    (elemAt numbers (onNumbers (.move 2) 0 true) 4 2 1).v * 4 + 4 > 0x60000 := by
  unfold activeIn; decide +kernel

/-- The sum of the five has a NaN, and the division -1 / 0 is one by zero, as the tables of R189 and R191 have them. -/
theorem test_vector_special_values :
    ((compute numbers (onNumbers (.float 0) 0 true)).writes.map (·.2.2),
     (compute numbers (onNumbers (.fn 9) 0 true)).writes.map (·.2.2)) =
    ([0, 0x3F800000, 0x7F800000, 0x7FC00000, 0xBF800000], [0xBF800000, 0x80000000, 0x7FC00000, 0x7FC00000, 0xFF800000]) := by
  decide +kernel

/-- The only element of a 64-bit add, active and not. -/
theorem witness_VectorIntegerElements :
    let c := command (.int 0)
    c.op = .int 0 ∧ 0 < 16 ∧ c.fmt < 4 ∧ 8 = 8 / 2 ^ c.fmt ∧ 0 < streamN c.sw ∧ c.mask.getLsbD (0 % 64) = true ∧
    c.mask.getLsbD (1 % 64) = false ∧ ({ c with sw := 0x100088 } : VCmd).sw.getLsbD 20 = true := by decide +kernel

/-- Cluster 0 with a table of 32 records at 0x1_0000, all zeros: IDLE and well formed; record 0x1F as `st` and with the
first word `entry`, and `used` pool slots taken. -/
def records (x : Thread) (used : Nat) (st entry : Nat) : State :=
  let s := (having x).setCluster 0 { lrBase := 0x10000, lrCount := 0x20, used := used }
  { s with mem := (s.mem.writeNat (0x11F00 + 0xC0) 8 st).writeNat 0x11F00 8 entry }

/-- Each status of the launch instructions: a reserved bit, a record past the table, one not IDLE, one malformed, a full
pool and one with one slot; the last argument. A thread with something outstanding waits. -/
theorem witness_LaunchesTasksAndSchedules_arm :
    let s := records (three 0x7001F 0x80000 0x20) 255 0 0
    (2 ^ 19 ≤ (s.rd 2).toNat ∧ TaskAlone s) ∧ ((s.rd 1).toNat < 2 ^ 19 ∧ Drained s) ∧
     ¬ Drained (having { unacked := [(0, false)] }) ∧ ¬ Drained (awaiting {}) ∧ (PlainRec s 0 0x1F) ∧
    ((s.rd 1).toNat % 2 ^ 16 = 0x1F ∧ (s.rd 1).toNat / 2 ^ 16 % 8 = 7) ∧
    ((s.cluster 0).lrCount ≤ (s.rd 3).toNat ∧ (s.rd 3).toNat < 2 ^ 16 ∧ 2 ^ 16 ≤ (s.rd 1).toNat) ∧
    (Armable s 0 0x1F ∧ (s.cluster 0).used < 256) ∧
    (Armable (records {} 256 0 0) 0 0x1F ∧ 256 ≤ ((records {} 256 0 0).cluster 0).used) ∧
    (0x1F < ((records {} 0 1 0).cluster 0).lrCount ∧ (records {} 0 1 0).recState 0 0x1F ≠ 0) ∧
    ((records {} 0 0 1).recState 0 0x1F = 0 ∧ (records {} 0 0 1).malformed 0 0x1F = true) := by
  unfold TaskAlone Drained Armable PlainRec
  refine ⟨?_, ?_, ?_, ?_, ?_, ?_, ?_, ?_, ?_, ?_, ?_⟩ <;> decide +kernel

/-- A task with no join counter, one whose JOINA names none, and one whose counter, the last of its cluster, stands at
2; a schedule at its end, at its last entry, and one whose entry is uncorrectable. -/
theorem witness_LaunchesTasksAndSchedules_end :
    (let s := having {}
     s.me.gang = false ∧ s.me.inl = false ∧ s.me.visitor = none ∧ s.me.joina = 0 ∧ Drained s ∧ PlainRec s 0 s.me.recIx) ∧
    ¬ Drained (having { unacked := [(0, false)] }) ∧
    (let s := having { joina := 8 }
     s.me.joina ≠ 0 ∧ objectAt .join s.me.joina = none ∧ TaskAlone s) ∧
    (let s := (having { joina := 0xF20000010004FFF0 }).setCluster 1 { joins := ({} : Tab JoinCounter).put 4095 { count := 2 } }
     s.me.joina ≠ 0 ∧ Here s .join s.me.joina 1 4095 ∧ Drained s ∧ 1 < (s.join 1 4095).count ∧
       PlainRec s 0 s.me.recIx) ∧
    (let x : Core := { scht := 0x8000, schLen := 2, schCur := 1 }
     x.schCur < x.schLen ∧ ({ x with schCur := 2 } : Core).schLen ≤ 2 ∧ x.scht.toNat + 8 * x.schCur ∈ [0x8008]) ∧
    ((0x8008 ∉ State.reset.memBad) ∧ (homeDie 0x8008 = some 0 ∧ (State.reset.die 0).fenced = false ∧
      (State.reset.die 0).pwrState ≠ 3) ∧
      ∀ i < 8, State.reset.windowOf (0x8008 + i) = none) := by
  unfold TaskAlone Drained Here PlainRec; refine ⟨?_, ?_, ?_, ?_, ?_, ?_, ?_⟩ <;> decide +kernel

/-- A full pool, at the deepest window that still has room and past it. -/
theorem witness_InlineChildRunsAndReturns :
    let s (d : Nat) := records { three 0x1F 0 0 with depth := d, wb := 11 } 256 0 0
    (∀ d ∈ [7, 8], ((s d).rd 1).toNat < 2 ^ 16 ∧ Drained (s d) ∧ Armable (s d) 0 0x1F ∧ 256 ≤ ((s d).cluster 0).used ∧
      PlainRec (s d) 0 0x1F) ∧
    (7 < (s 8).me.depth ∧ TaskAlone (s 8)) ∧
    ((s 7).me.depth ≤ 7 ∧ (s 7).me.wb < 12 ∧ (s 7).me.recIx < 2 ^ 16 ∧ (s 7).me.pc.getLsbD 0 = false ∧
      (s 7).recWord 0 0x1F 0x28 = 0 ∧ (s 7).me.gang = false) := by
  unfold TaskAlone Drained Armable PlainRec; refine ⟨?_, ?_, ?_⟩ <;> decide +kernel

/-- A thread whose w1 names join counter 4095 of cluster 0, which is `j`. -/
def joined (x : Thread) (j : JoinCounter) : State :=
  (records { x with regs := regs [(1, 0xF20000000004FFF0), (2, 2), (3, 0)] } 0 0 0).modCluster 0
    (fun c => { c with joins := ({} : Tab JoinCounter).put 4095 j })

/-- A signal that leaves 1, one that reaches 0 with and without a continuation, and a waiter of it; a timeout that has
come and one that has not; a store to COUNT by the host and by a thread. -/
theorem witness_JoinCountersSignalAndWait :
    (let s := joined {} { count := 3 }
     Here s .join (s.rd 1) 0 4095 ∧ (s.rd 2).toNat < 2 ^ 32 ∧ Drained s ∧ (s.rd 2).toNat < (s.join 0 4095).count ∧
     (s.die s.myDie).rdcEpoch ≠ BitVec.allOnes 32 ∧ (s.join 0 4095).count ≠ 0) ∧
    (let s := joined {} { count := 2, cen := true, crec := 0x1F }
     Here s .join (s.rd 1) 0 4095 ∧ 0 < (s.join 0 4095).count ∧ (s.join 0 4095).count ≤ (s.rd 2).toNat ∧
     (s.join 0 4095).cen = true ∧ Armable s 0 (s.join 0 4095).crec ∧ PlainRec s 0 (s.join 0 4095).crec) ∧
    (let s := joined {} { count := 2, cen := true, crec := 0x20 }
     Here s .join (s.rd 1) 0 4095 ∧ ¬ Armable s 0 (s.join 0 4095).crec) ∧
    (let s := (joined {} { count := 2 }).setThread 1 { life := .parked, wait := some (.jwait 0 4095 0xF20000000004FFF0 8 8) }
     Here s .join (s.rd 1) 0 4095 ∧ risingKeys s.threads.cells = true ∧ (s.join 0 4095).count ≤ (s.rd 2).toNat ∧
     (s.join 0 4095).cen = false ∧ 1 ≠ s.cur ∧ (s.thread 1).waits = some (.jwait 0 4095 0xF20000000004FFF0 8 8) ∧
     tidOf 0 1 = 1 ∧ 8 ≠ 0 ∧ 8 ≤ 8 ∧ (s.thread 1).mode = false ∧ (s.thread 1).gang = false ∧ 7 < 8) ∧
    (let s := joined {} {}
     Here s .join (s.rd 1) 0 4095 ∧ (s.join 0 4095).count = 0 ∧ 0x40000 + 0x10 * 4095 ∉ (s.cluster 0).poisoned ∧
     (s.join 0 4095).cq = false ∧ s.foreign (tidOf 0 0) (joinAddr 0 4095) = false ∧
     s.hostRefusal 0 true (joinAddr 0 4095) = 0) := by
  unfold Here Drained Armable PlainRec; refine ⟨?_, ?_, ?_, ?_, ?_⟩ <;> decide +kernel

theorem joined_none_parked (j : JoinCounter) : NoneParked (joined {} j) := fun k => by
  show ((having _).thread k).waits = none
  exact having_none_parked _ k

/-- A thread whose w1 names barrier 255 of cluster 0, which is `b`, and whose w2 is `v`. -/
def atBarrier (b : Barrier) (v : Word) : State :=
  (having { regs := regs [(1, 0xF200000000011FE0), (2, v)] }).setCluster 0 { bars := ({} : Tab Barrier).put 255 b }

/-- An arrival below the count, one held back by bytes, one at the field's bound, one that completes a phase; waits on
the phase before, on the one 2^31 back, on the current one; every operand form at its bounds. -/
theorem witness_BarriersCountPhases :
    (let s := atBarrier { expect := 2 } 0
     let b := s.bar 0 255
     Here s .barrier (s.rd 1) 0 255 ∧ Drained s ∧ Settled s 0 b ∧ Settled s 0 { b with arrived := b.arrived + 1 } ∧
     b.arrived < due s 0 b ∧ due s 0 b ≠ 0) ∧
    (let s := atBarrier { arrived := 0xFFFF, expect := 0xFFFF, bytes := 1 } 0
     Settled s 0 (s.bar 0 255) ∧ 0xFFFF ≤ (s.bar 0 255).arrived) ∧
    (let s := (atBarrier { arrived := 0xFFFE, expect := 0xFFFF, phase := 7 } 0).setThread 1
       { life := .parked, wait := some (.barWait 0 255 7) }
     let b := s.bar 0 255
     Settled s 0 b ∧ b.arrived + 1 = due s 0 b ∧ b.bytes = 0 ∧ risingKeys s.threads.cells = true ∧
     (s.thread 1).waits = some (.barWait 0 255 b.phase)) ∧
    (let g (v : Word) := ((atBarrier { phase := 8 } v).bar 0 255).phase - BitVec.ofNat 32 v.toNat
     (1 ≤ (g 7).toNat ∧ (g 0x80000008).toNat ≤ 2 ^ 31 ∧ (g 8).toNat = 0 ∧ 2 ^ 31 < (g 9).toNat) ∧
     (8 : BitVec 32).getLsbD 0 = decide ((0 : Nat) = 1) ∧ (8 : BitVec 32).getLsbD 0 ≠ decide ((1 : Nat) = 1)) ∧
    (let s := atBarrier {} 0
     (∀ v ∈ [1, 0xFFFF], 0 < v ∧ v < 2 ^ 16 ∧ Settled s 0 { s.bar 0 255 with expect := v, bound := false }) ∧
     (2 ^ 16 < 0x10001 ∧ 0x1FFFF < 2 ^ 17 ∧ 0x10000 % 2 ^ 16 = 0 ∧ TaskAlone s) ∧
     (2 ^ 28 - 1 < 2 ^ 28 ∧ Settled s 0 { s.bar 0 255 with bytes := (s.bar 0 255).bytes + (2 ^ 28 - 1) }) ∧
     2 ^ 28 ≤ ((atBarrier { bytes := 1 } 0).bar 0 255).bytes + (2 ^ 28 - 1) ∧
     Settled s 0 { s.bar 0 255 with bound := true, set := 255 } ∧ Settled s 0 { s.bar 0 255 with bound := false }) := by
  unfold Here Drained Settled due TaskAlone; refine ⟨?_, ?_, ?_, ?_, ?_⟩ <;> decide +kernel

theorem atBarrier_none_parked (b : Barrier) (v : Word) : NoneParked (atBarrier b v) := fun k => by
  show ((having _).thread k).waits = none
  exact having_none_parked _ k

/-- A cell, the last, full and empty with a reader parked on it; a set, the last, at 0, at its bound, and bound to a
barrier that its decrement completes. -/
theorem witness_FuturesSetsAndScoreboard_objects :
    (let s (f : Bool) := ((having (three 0xF20000000002FFF0 0x2A 0)).setCluster 0
       { cells := ({} : Tab FutureCell).put 4095 { full := f } }).setThread 1 { life := .parked, wait := some (.ldf 0 4095 4) }
     Here (s true) .cell ((s true).rd 1) 0 4095 ∧ ((s true).cell 0 4095).full = true ∧ ((s false).cell 0 4095).full = false ∧
     Drained (s false) ∧ ((s true).die (s true).myDie).rdcEpoch ≠ BitVec.allOnes 32 ∧
     risingKeys (s false).threads.cells = true ∧ ((s false).thread 1).waits = some (.ldf 0 4095 4) ∧
     (s false).foreign (tidOf 0 0) (clusterReg 0 (0x20008 + 0x10 * 4095)) = false ∧
     (s false).hostRefusal 0 true (clusterReg 0 (0x20008 + 0x10 * 4095)) = 0) ∧
    (let s (n : Nat) := (having (three 0xF2000000000607F8 0 0)).setCluster 0 { sets := ({} : Tab Nat).put 255 n }
     Here (s 0) .set ((s 0).rd 1) 0 255 ∧ (s 0).setCount 0 255 = 0 ∧ (s 0xFFFF).setCount 0 255 = 0xFFFF ∧
     ∀ b ∈ ((s 1).cluster 0).bars.cells, b.2.bound = true → b.2.set ≠ 255) ∧
    (let b : Barrier := { bound := true, set := 255, arrived := 1 }
     let s := (having (three 0xF2000000000607F8 0 0)).setCluster 0
       { sets := ({} : Tab Nat).put 255 2, bars := ({} : Tab Barrier).put 0 b }
     (s.cluster 0).bars.cells = [(0, b)] ∧ b.bytes = 0 ∧ 1 < s.setCount 0 255 ∧ b.arrived = s.setCount 0 255 - 1) := by
  unfold Here Drained; refine ⟨?_, ?_, ?_⟩ <;> decide +kernel

/-- Tile (1, 1), with both its neighbours retired or not. -/
theorem tiles_done (retired : Nat → Nat → Bool) (x y : Nat) : TilesDone retired x y 0 := fun b _ h => by simp at h

theorem tiles_not_done : ¬ TilesDone (fun _ _ => false) 1 1 0x880 := fun h => by
  have := h 7 (by decide) (by decide) 7 rfl 0 (-1) (by decide) (by decide)
  simp at this

/-- A binding of record 0x1F to the last tile of cluster 0: past the table, not IDLE, bound already, no pool slot, and
ready; a retirement with no valid binding and with one; a clear. -/
theorem witness_FuturesSetsAndScoreboard_board :
    (let v := 0xFFF001F
     v < 2 ^ 33 ∧ v % 2 ^ 16 = 0x1F ∧ v / 2 ^ 16 % 2 ^ 6 = 63 ∧ v / 2 ^ 22 % 2 ^ 6 = 63 ∧ v / 2 ^ 28 = 0) ∧
    (let s := (records (three 0xFFF001F 0 0xFFF0000) 255 0 0).modCluster 0 (fun c =>
       { c with binds := ({} : Tab Binding).put 64 { mask := 0, recIx := 0x1E, v := false } })
     (s.die (0 / 8)).part = s.partOf s.cur ∧ 0x80000 + 8 * 4095 ∉ (s.cluster 0).poisoned ∧ Armable s 0 0x1F ∧
     PlainRec s 0 0x1F ∧ ((s.cluster 0).binds.find 4095).any Binding.v = false ∧ (s.cluster 0).used < 256 ∧
     (s.rd 2).toNat < 2 ^ 24 ∧ (s.rd 3).toNat % 2 ^ 16 = 0 ∧ Drained s ∧ 0x70000 + 8 * 63 ∉ (s.cluster 0).poisoned ∧
     (∀ b ∈ (s.cluster 0).binds.cells, b.2.v = false)) ∧
    ((records {} 0 1 0).recState 0 0x1F ≠ 0 ∧ ((records {} 0 0 0).cluster 0).lrCount ≤ 0x20 ∧
      256 ≤ ((records {} 256 0 0).cluster 0).used) ∧
    (let b : Binding := { mask := 0, recIx := 0x1F, v := true }
     let s := (records {} 1 2 0).modCluster 0 (fun c => { c with binds := ({} : Tab Binding).put 65 b })
     ((s.cluster 0).binds.find 65).any Binding.v = true ∧ (s.cluster 0).binds.cells = [(65, b)] ∧ PlainRec s 0 0x1F ∧
     (s.recAddr 0 0x1F + 0xC0 ∉ s.memBad) ∧ homeDie (s.recAddr 0 0x1F + 0xC0) = some 0 ∧ (s.die 0).fenced = false ∧
     (s.die 0).pwrState ≠ 3 ∧ (∃ e ∈ (s.cluster 0).binds.cells, e.2.v = true) ∧
     s.hostRefusal 0 true (clusterReg 0 0x18) = 0) := by
  unfold Drained Armable PlainRec; refine ⟨?_, ?_, ?_, ?_⟩ <;> decide +kernel

/-- An address that names no object, one of a cluster of another partition, and a poisoned one. -/
theorem witness_ClusterObjectsAreChecked :
    (let s := having (three 0xF200000000011FE8 1 0)
     TaskAlone s ∧ s.rd 2 = 1 ∧ objectAt .barrier (s.rd 1) = none) ∧
    (let s := (having (three 0xF200000000011FE0 1 0)).setDie 0 { part := 0 }
     let u := s.setDie 1 { part := 2 }
     objectAt .barrier (s.rd 1) = some (0, 255) ∧ (u.die (8 / 8)).part ≠ u.partOf u.cur ∧
     objectAt .barrier 0xF200000800011FE0 = some (8, 255)) ∧
    (let s := (having (three 0xF200000000011FE0 1 0)).setCluster 0 { poisoned := [0x11FE0] }
     (s.die 0).part = s.partOf s.cur ∧ (s.rd 1).toNat % 2 ^ 32 ∈ (s.cluster 0).poisoned) := by
  unfold TaskAlone; refine ⟨?_, ?_, ?_⟩ <;> decide +kernel

/-- A block of mma of `m` rows, a column and a k, of formats `fa` and `fb`, with its A at offset 0 and AS `as`. -/
def mmaBlock (m fa fb as : Nat) : Block :=
  BitVec.ofNat 128 (m + 2 ^ 8 + 2 ^ 19 + 64 * 2 ^ 53 + as * 2 ^ 82 + fa * 2 ^ 102 + fb * 2 ^ 105)

theorem mma_limits_hold : AllHold (mmaLimits 1 0 2 (mmaOf (mmaBlock 128 1 1 0))) := by
  simp only [AllHold, mmaLimits, List.forall_mem_cons]
  refine ⟨by decide +kernel, by decide +kernel, by decide +kernel, by decide +kernel, by decide +kernel,
    by decide +kernel, by decide +kernel, fun _ h => by cases h⟩

/-- A pair of formats that the array does not take; a block at the bound of M whose limits hold; one that the first
limit refuses, and one that the last refuses. -/
theorem witness_MatrixInstructionsEnterTheQueue_mma :
    (let x := mmaOf (mmaBlock 1 1 2 0)
     pairDepth x.fa x.fb = none ∧ TaskAlone (having {})) ∧
    (let p := mmaBlock 128 1 1 0
     p.toNat < 2 ^ 112 ∧ pairDepth (mmaOf p).fa (mmaOf p).fb = some 2 ∧
     AllHold (mmaLimits (having {}).me.gangSz (having {}).me.gangIx 2 (mmaOf p)) ∧
     (having {}).me.gang = false ∧ ((having {}).core (having {}).myCore).mq.length < 4) ∧
    (∃ f after, mmaLimits 1 0 2 (mmaOf (mmaBlock 129 1 1 0)) = [] ++ f :: after ∧ AllHold [] ∧ ¬ f.2) ∧
    (∃ before f, mmaLimits 1 0 2 (mmaOf (mmaBlock 128 1 1 64)) = before ++ f :: [] ∧ AllHold before ∧ ¬ f.2) := by
  refine ⟨by unfold TaskAlone; decide +kernel,
    ⟨by decide +kernel, by decide +kernel, mma_limits_hold, by decide +kernel, by decide +kernel⟩,
    ⟨_, _, rfl, fun _ h => (by cases h), by decide +kernel⟩, ?_⟩
  refine ⟨[_, _, _, _, _, _], _, rfl, ?_, by decide +kernel⟩
  simp only [AllHold, List.forall_mem_cons]
  refine ⟨by decide +kernel, by decide +kernel, by decide +kernel, by decide +kernel, by decide +kernel,
    by decide +kernel, fun _ h => by cases h⟩

/-- An mepi block of 128 rows and columns of bf16, an mldb block of one column, region words at their bounds, and
queues at their bounds. -/
theorem witness_MatrixInstructionsEnterTheQueue_others :
    (let x := mepiOf (BitVec.ofNat 128 (128 + 128 * 2 ^ 8 + 256 * 2 ^ 19 + 2 ^ 87))
     x.act ≤ 5 ∧ x.add = false ∧ x.m = 128 ∧ 32 * x.q + x.m ≤ 128 ∧ x.n = 128 * (having {}).me.gangSz ∧
     x.ldc % (fmtOf x.fo).size = 0 ∧ x.be = false ∧ x.bias = 0 ∧
     ((having (three 2 1 0)).rd 1).toNat % (fmtOf x.fo).size = 0 ∧ ((having (three 2 1 0)).rd 2).toNat % (fmtOf x.fo).size ≠ 0) ∧
    (let x := mldbOf (BitVec.ofNat 128 (2 ^ 13 + 2 ^ 27 + 64 * 2 ^ 35 + 2 ^ 55))
     x.fmt ≠ 0 ∧ x.fmt ≠ 7 ∧ x.k = 1 ∧ x.sc = false ∧ x.nc = 1 ∧ x.b % 64 = 0 ∧ x.ldb % 64 = 0 ∧
     64 * ((x.k * (fmtOf x.fmt).size + 63) / 64) + 0 ≤ x.ldb ∧ x.b + (x.nc + 63) / 64 * 64 ≤ 8192 ∧
     ((0xF000000000000040 : Word).toNat % 64 = 0 ∧ space 0xF000000000000040 = 0xF0)) ∧
    ((12 < 16 ∧ 12 % 4 + 12 / 4 < 4) ∧ (4 ≤ 15 % 4 + 15 / 4) ∧ 16 ≤ 16 ∧ 0x50000 + 0x4000 * (12 / 4 + 1) ≤ 0x60000) ∧
    (let e : MEntry := { slot := 0, flight := 0, op := 3, block := 0, a := 0, rm := 0, tcm := false, seed := 0, taskix := 0
                         srctr := 0, pc := 0, order := 0, gang := 1, gangIx := 0 }
     let s := (having {}).setCore 0 { mq := [e, e, e, e] }
     4 ≤ (s.core s.myCore).mq.length ∧ 0 < ((s.core s.myCore).mq.filter (fun e => e.slot = s.cur % 4)).length +
       ((s.core s.myCore).recorded.filter (fun e => e.slot = s.cur % 4)).length) := by
  refine ⟨?_, ?_, ?_, ?_⟩ <;> decide +kernel

/-- An entry of the matrix queue. -/
def entry (op : Nat) (b : Block) (a : Word) (started : Bool) : MEntry :=
  { slot := 0, flight := 0, op := op, block := b, a := a, rm := 0, tcm := false, seed := 0, taskix := 0
    srctr := 0, pc := 0, order := 0, gang := 1, gangIx := 0, started := started }

/-- Reset while a copy has still to write 0x4000 bytes at the start of core 0's scratchpad, above its watermark. -/
def guarding : State :=
  let c : Copy := { tpl := 0, core := 0, slot := 0, taskix := 0, tag := none, src := 0, dst := 0xF000000000000000
                    rlen := 0x4000, rows1 := 0, sstr := 0, dstr := 0, bar := 0, ctr := none, wme := true, pc := 0, order := 0 }
  State.reset.setDie 0 { channels := ({} : Tab Channel).put 0 { copies := [c] } }

/-- Entries that start, that wait above a watermark, and that complete: the mma of 128 rows above, and a clear, a save and
a restore of the last region; a region and a frame of another context. -/
theorem witness_MatrixQueueRunsItsEntries :
    (let s := State.reset.setCore 0 { mq := [entry 0 (mmaBlock 128 1 1 0) 0 false] }
     ∃ e rest, (s.core 0).mq = e :: rest ∧ e.op = 0 ∧ e.gang = 1 ∧ e.gangIx = 0 ∧ e.started = false) ∧
    (let e := entry 0 (mmaBlock 128 1 1 0) 0 true
     let s := State.reset.setCore 0 { mq := [e] }
     let x := mmaOf e.block
     s.mguarded (s.leadBlock 0 e) 0 e x.groups = false ∧
     (guarding.setCore 0 { mq := [e] }).mguarded e.block 0 e x.groups = true ∧ (s.die 0).pwrState = 0 ∧
     (guarding.setCore 0 { mq := [e] }).leadBlock 0 e = e.block ∧
     (s.core 0).accBad = [] ∧ (s.core 0).scratchBad = [] ∧ (s.core 0).bstackBad = [] ∧ 1 ≤ x.m ∧ 32 * x.q + x.m ≤ 128 ∧
     1 ≤ x.n ∧ x.n ≤ 128 ∧ x.a + (x.m - 1) * x.lda + x.k * 8 ≤ 0x60000 ∧ x.sc = false) ∧
    (∀ op ∈ [3, 4, 5], let e := entry op 3 0x5C000 true
      let s := State.reset.setCore 0 { mq := [e] }
      s.mguarded (s.leadBlock 0 e) 0 e (mmaOf e.block).groups = false ∧
      3 ≤ e.op ∧ e.op ≤ 5 ∧ e.block.toNat < 16 ∧ e.block.toNat % 4 + e.block.toNat / 4 < 4 ∧
      e.a.toNat + 0x4000 * (e.block.toNat / 4 + 1) ≤ 0x60000 ∧ e.reqs = []) ∧
    (let x : Core := { sctx := 1, frames := (Vector.replicate 24 {}).set 23 { ctx := some 1 } }
     x.accFrames[3].ctx ≠ some x.sctx ∧ x.accFrames[3].dirty = false ∧ x.frames[0].ctx ≠ some x.sctx ∧
     x.frames[0].dirty = false ∧ x.frames[23].ctx = some x.sctx ∧ (({} : Core).accFrames[3].ctx = some ({} : Core).sctx) ∧
     State.reset.meetsWindow (x.sctxBase.toNat + 0x4000 * 27) 0x4000 = false ∧
     State.reset.meetsWindow (x.sctxBase.toNat + 0x4000 * 0) 0x4000 = false) := by
  refine ⟨⟨_, _, rfl, by decide +kernel⟩, ?_, ?_, ?_⟩ <;> decide +kernel

/-- A started mldb of a column of one line in the core's own scratchpad, and a started mepi of one row of 128 bf16
numbers with its destination at the end of the scratchpad, of one that zeroes its accumulator and adds a bias. -/
theorem witness_MatrixQueueRunsItsEntries_stores :
    (let e := entry 2 (BitVec.ofNat 128 (2 ^ 13 + 2 ^ 27 + 64 * 2 ^ 35 + 2 ^ 55)) 0xF00000000005FFC0 true
     let s := (having {}).setCore 0 { mq := [e] }
     let x := mldbOf e.block
     x.nc = 1 ∧ 64 * ((x.k * (fmtOf x.fmt).size + 63) / 64) + (if x.sc = true then 64 else 0) = 64 ∧ x.b + 64 ≤ 8192 ∧
     e.a.toNat % 64 = 0 ∧ x.ldb % 64 = 0 ∧ (s.die 0).pwrState = 0 ∧ (s.core 0).accBad = [] ∧ (s.core 0).scratchBad = [] ∧
     ∀ o, o < 8 → (e.a + BitVec.ofNat 64 (0 * x.ldb + 8 * o)).toNat = 0xF0 * 2 ^ 56 + (0x5FFC0 + 8 * o) ∧
       0x5FFC0 + 8 * o + 8 ≤ 0x60000 ∧ (0x5FFC0 + 8 * o) % 8 = 0 ∧ (s.die (dieOf 0)).fenced = false ∧
       s.watched (some 0) (0x5FFC0 + 8 * o) 8 = false) ∧
    (let x := mepiOf (BitVec.ofNat 128 (1 + 128 * 2 ^ 8 + 256 * 2 ^ 19 + 2 ^ 87))
     x.add = false ∧ (fmtOf x.fo).size = 2 ∧ 0x5FF00 % 2 = 0 ∧ x.ldc % 2 = 0 ∧ x.m = 1 ∧ 32 * x.q + x.m ≤ 128 ∧ x.n = 128 ∧
     0x5FF00 + (x.m - 1) * x.ldc + x.n * 2 ≤ 0x60000 ∧ (x.be = true → x.bias + 4 * x.n ≤ 0x60000)) := by
  refine ⟨?_, ?_⟩ <;> decide +kernel

/-- The row barrier of a gang of two that agrees and of one that does not. -/
theorem witness_MatrixQueueRunsItsEntries_join :
    ∀ same ∈ [true, false],
      let w (b : Block) : Thread := { life := .parked, wait := some (.rowJoin false b 0 15), gang := true, gangSz := 2 }
      let s := (State.reset.setThread 0 (w 1)).setThread 4 { w (if same then 1 else 2) with gangIx := 1 }
      (s.thread (tidOf 0 0)).gang = true ∧ 1 ≤ (s.thread (tidOf 0 0)).gangSz ∧
      (∀ m ∈ s.gangOf (tidOf 0 0), (s.thread m).waits = some (.rowJoin false (if m = 4 ∧ same = false then 2 else 1) 0 15) ∧
        (s.core (coreOf m)).mq.length < 4 ∧ (s.thread m).mode = false ∧ (s.thread m).rm = (s.thread 0).rm ∧
        (s.thread m).tcm = (s.thread 0).tcm) ∧
      (same = true ↔ joinKey false 1 = joinKey false (if same then 1 else 2)) := by
  decide +kernel

theorem reset_all_pinned : AllPinned ({} : Core) := ⟨fun f h => by simp, fun q h => by simp⟩

/-- A handler at each bound of DEPTH and SPILLED, with the last line of the scratchpad for its blocks. -/
theorem witness_WindowBlocksSpillAndFill :
    let s (d n : Nat) (w : Word) := having { mode := true, depth := d, spilled := n, wsp := w }
    (∀ d ∈ [0, 9], (s d 0 0).me.mode = true ∧ (s d 0 0).me.gang = false ∧ (s d 0 0).me.depth = d ∧
      (s d 0 0).me.spilled = 0 ∧ (s d 0xFFFFFF 0).me.spilled = 0xFFFFFF) ∧
    (0 < (s 9 0xFFFFFE 0xF00000000005FFC0).me.depth ∧ (s 9 0xFFFFFE 0xF00000000005FFC0).me.spilled < 0xFFFFFF ∧
      OwnBytes (s 9 0xFFFFFE 0xF00000000005FFC0) (s 9 0xFFFFFE 0xF00000000005FFC0).me.wsp 0x5FFC0 64 ∧ 0x5FFC0 % 64 = 0 ∧
      (s 9 0xFFFFFE 0xF00000000005FFC0).me.wsp.toNat + 64 < 2 ^ 64) ∧
    ((s 8 1 0xF000000000000040).me.depth < 9 ∧ 0 < (s 8 1 0xF000000000000040).me.spilled ∧
      OwnBytes (s 8 1 0xF000000000000040) ((s 8 1 0xF000000000000040).me.wsp - 64) 0 64) := by
  refine ⟨by decide +kernel, ⟨by decide +kernel, by decide +kernel, ?_, rfl, by decide +kernel⟩,
    by decide +kernel, by decide +kernel, ?_⟩
  · apply own_bytes <;> decide +kernel
  · apply own_bytes <;> decide +kernel

/-- An operation of the SC network. -/
def scOp (kind n : Nat) (data : List Byte) : ScOp :=
  { tid := 0, window := 1, flight := 0, kind := kind, va := 0xF8, n := n, data := data, dest := 4 }

/-- A state in which window 1 is due with one operation. -/
def scDue (o : ScOp) : State := { paged (having {}) with scOps := [o], clock := 39 }

/-- An address of memory for ld.sc and st.sc; a thread with something outstanding; windows not due, not the first, and
due with one operation of each kind. -/
theorem witness_SequentiallyConsistentOperations :
    (let s := paged (having (three 0xF8 0 0))
     (0xF8 : Word) = s.rd 1 + BitVec.ofNat 64 8 * (0 : BitVec 8).signExtend 64 ∧
     s.resolve s.cur .scLoad 0xF8 8 = .ok (.mem (leaf 0xF8)) ∧ s.resolve s.cur .scStore 0xF8 8 = .ok (.mem (leaf 0xF8)) ∧
     s.me.flights = [] ∧ s.me.unacked = [] ∧ s.reqs = [] ∧ s.clock < 8 * 1 + 31) ∧
    ¬ Drained (having { unacked := [(0, false)] }) ∧
    (∀ o ∈ [scOp 0 0 [], scOp 1 8 [], scOp 2 1 [5]],
      (scDue o).scOps = [o] ∧ o.window = 1 ∧ o.window < 2 ∧ 8 * 1 + 31 ≤ (scDue o).clock ∧ (scDue o).cur = o.tid ∧
      ((scDue o).die (scDue o).myDie).rdcEpoch ≠ BitVec.allOnes 32 ∧ o.dest < 108 ∧ o.dest ≠ 96 ∧ (o.kind = 0 → o.n < 4) ∧
      (scDue o).reqs = [] ∧ (scDue o).resolve (scDue o).cur .scLoad o.va 8 = .ok (.mem (leaf 0xF8)) ∧
      (scDue o).resolve (scDue o).cur .scStore o.va 1 = .ok (.mem (leaf 0xF8)) ∧ (o.kind = 2 → o.data.length = o.n)) ∧
    ∀ n ∈ [1, 8], HomeServes (scDue (scOp 1 n [])) (leaf 0xF8) n := by
  refine ⟨by decide +kernel, ?_, by decide +kernel, fun n h => home_serves _ _ _ ?_ rfl⟩
  · unfold Drained; decide +kernel
  · revert n; decide +kernel

/-- A deferred fault of a ready thread and two of a parked one, of which one is the older; a service request in flight;
a suppressed instruction that is fetched and one whose page is absent. -/
theorem witness_FaultsAreTakenAtBoundaries :
    (let f : Deferred := { trap := { code := 4 }, fpc := 8, order := 3 }
     let g : Deferred := { trap := { code := 5 }, fpc := 9, order := 4 }
     let x : Thread := { life := .parked, wait := some (.tagAny 1 4), deferred := [g, f] }
     (x.waits = some (.tagAny 1 4) ∧ (Wait.tagAny 1 4).inFlight = false ∧ x.mode = false ∧ x.gang = false ∧ f ∈ x.deferred ∧
       ∀ h ∈ x.deferred, f.order ≤ h.order ∧ (h.order = f.order → h = f)) ∧ (Wait.service 0 0 0 0 0).inFlight = true) ∧
    (let s : State := { State.reset.withFetchWord 32 0x040C5201 with cur := 0 }
     let u := s.modThread 0 (fun t => { t with skc := 4 })
     u.me.life = .ready ∧ u.me.skc ≠ 0 ∧ u.me.flights = [] ∧
     (match u.fetchInstr u.cur u.me.pc with | .ok v bs => decide (v = u ∧ bs.length = 4) | _ => false) = true) ∧
    (let s := having { pc := 0x40, skc := 1 }
     TaskAlone s ∧ s.me.life = .ready ∧
     (match s.fetchInstr s.cur s.me.pc with
      | .err u _ => decide (u.thread u.cur = s.me ∧ u.cur = s.cur) | _ => false) = true) := by
  unfold TaskAlone; refine ⟨?_, ?_, ?_⟩ <;> decide +kernel

/-- A load and a store in memory of the die, one homed on a die of another partition; a load of another core's
scratchpad with and without a window that admits it; data, an acknowledgement and an error for the thread; a refused
store to another package. -/
theorem witness_AccessesArePerformedAndAnswered :
    (∀ op ∈ [ReqOp.load true, .store [1, 2, 3, 4, 5, 6, 7, 8]],
      let r := request op 8 (.mem (leaf 0xF8)) none
      let s : State := { paged (having {}) with reqs := [r] }
      s.reqs = [r] ∧ r.tid = s.cur ∧ r.resp = none ∧ r.sent = false ∧ r.parts = {} ∧ r.tgts = [.mem (leaf 0xF8)] ∧
      (leaf 0xF8).mode = 0 ∧ 0 < r.n ∧ r.remoteScratch = false ∧ homeDie 0xF8 = some s.myDie ∧ s.dead s.myDie = false ∧
      s.watched none 0xF8 r.n = false ∧ s.owner s.myDie = some 0 ∧ 0 ≠ ({ leaf 0xF8 with key := 1 } : Leaf).key ∧
      ∀ f, (h : f < 5) → s.pkg.rings[f].log2 = 0) ∧
    (let r := { request (.load true) 8 (.scratch 1 0) none with remoteScratch := true }
     let s : State := { having {} with reqs := [r] }
     s.reqs = [r] ∧ r.tid = s.cur ∧ r.tgts = [.scratch 1 0] ∧ 0 < r.n ∧ 1 ≠ s.myCore ∧
      s.watched (some 1) 0 r.n = false ∧ (s.die (dieOf 1)).pwrState = 0 ∧ (s.die (dieOf 1)).fenced = false ∧
      (s.core 1).iso = false ∧ (s.core 1).scratchBad = []) ∧
    (let s (win : Word) := (having {}).setCore 1 { win := (Vector.replicate 4 0).set 0 win }
     ((s 0).core 1).windowAccepts (.thread 0) .load 0 8 = false ∧
     ((s 0xA000000000000000).core 1).windowAccepts (.thread 0) .load 0 8 = true) ∧
    (∀ x ∈ [Resp.data (List.replicate 8 5), .done, .err { code := 5 }],
      let r := request (.load true) 8 (.mem (leaf 0xF8)) (some x)
      let s : State := { (having { unacked := [(5, false)] }) with reqs := [r] }
      s.req 5 = some r ∧ r.resp = some x ∧ r.id = 5 ∧ r.dests = [4] ∧ 4 < 108 ∧ 4 ≠ 96 ∧ r.n ≤ 8 ∧ r.engine = false ∧
      r.op.writes = false ∧ ∃ u ∈ (s.thread r.tid).unacked, u.1 = 5) ∧
    (let r := request (.store [5]) 1 (.far (leaf 0xF8)) (some (.err { code := 5 }))
     let s : State := { (having { unacked := [(5, false)] }) with reqs := [r] }
     s.req 5 = some r ∧ r.op.writes = true ∧ r.tgts = [.far (leaf 0xF8)] ∧ 0 < r.n ∧
      ∃ u ∈ (s.thread r.tid).unacked, u.1 = 5) ∧
    (∀ later ∈ [true, false],
      let f : Flight := { id := 5, kind := .memory, left := none, later := later }
      let s := having { flights := [f] }
      (s.thread 0).flight 5 = some f ∧ f.later = later ∧ (∀ u ∈ (s.thread 0).unacked, u.1 ≠ 5) ∧
      (s.thread 0).mode = false ∧ (s.thread 0).gang = false ∧ f.handler = false ∧ (having { mode := true }).me.mode = true) := by
  refine ⟨?_, ?_, ?_, ?_, ?_, ?_⟩ <;> decide +kernel

/-- The home of those accesses serves them. -/
theorem witness_AccessesArePerformedAndAnswered_home :
    HomeServes (paged (having {})) (leaf 0xF8) 8 ∧ ∀ f, (State.reset.core 1).pinned f = true :=
  ⟨home_serves _ _ _ (by decide +kernel) rfl, fun f => reset_pinned f⟩

/-- A task of record 0. -/
def task (pri : Nat) : Task := { recIx := 0, pri := pri }

/-- Cluster 0 with a task that entered at clock 0, its pressure at `pbias`, cluster 1 its one live port, and a travel
budget of `budget`. -/
def routing (clock pbias budget : Nat) : State :=
  let s := (State.reset.setCluster 0 { lrBase := 0x10000, lrCount := 1, entering := [task 3], set := { pbias := pbias }
                                       gcostEff := 0x100, published := true }).setCluster 1 { pubD := 0, published := true }
  { s with clock := clock, mem := s.mem.writeNat 0x100E0 8 budget }

/-- A decision that is not due; one that keeps the task, without budget; one that forwards it to the one live
neighbour. -/
theorem witness_TasksRouteForwardAndAdvertise_decision :
    ((routing 3 0 0).cluster 0).entering = [task 3] ∧ (routing 3 0 0).clock < (task 3).since + 4 ∧
    ((task 3).since + 4 ≤ (routing 4 0 0).clock ∧ (task 3).pri < 4 ∧ (task 3).visitor = none ∧
      ((routing 4 0 0).recWord 0 0 0xE0).toNat % 32 = 0) ∧
    (let s := routing 4 5 16
     neighbour 0 1 = some 1 ∧ s.portLive 0 1 = true ∧ (∀ q < 8, q ≠ 1 → s.portLive 0 q = false) ∧
     (s.cluster 1).pubD < (s.cluster 0).pubD ∧ (s.cluster 1).pubFull = false ∧
     (s.recWord 0 0 0xE0).toNat % 32 ≠ 0 ∧ (s.cluster 0).tstayEff ≤ 5 ∧
     5 = min 0xFFFE ((s.cluster 0).queuedCost + ((s.cluster 0).now s.clock).pbias) ∧
     (s.cluster 1).pubP + s.pull 0 (task 3) 1 + (s.cluster 0).hystEff < 5) := by decide +kernel

theorem routing_plain : PlainRec (routing 4 5 16) 0 0 := by unfold PlainRec; decide +kernel

/-- A forward from cluster 0 to cluster 1, which is `x`, beside cluster 0 published. -/
def onItsWay (x : Cluster) : State :=
  { (State.reset.setCluster 0 { published := true }).setCluster 1 x with
    forwards := [{ id := 0, task := task 0, src := 0, dst := 1 }] }

/-- A task on its way to an open cluster and to a full one, one accepted and one refused; a level's tasks old enough and
not; an epoch's boundary, its routers set before it and in its clock. -/
theorem witness_TasksRouteForwardAndAdvertise_others :
    (let f : Forward := { id := 0, task := task 0, src := 0, dst := 1 }
     let s := onItsWay { gcostEff := 1, published := true }
     (s.forwards = [f] ∧ f.src < 32 ∧ f.dst < 32 ∧ f.stage = 0 ∧ f.task.contOf = none) ∧
     (s.infinite f.dst = false ∧ (s.cluster f.dst).used < 256 ∧ neighbour f.dst 0 = some f.src ∧ s.portLive f.dst 0 = true ∧
       (s.die (f.src / 8)).part = (s.die (f.dst / 8)).part) ∧ ¬ ((onItsWay { used := 256 }).cluster f.dst).used < 256 ∧
     ({ f with stage := 1 } : Forward).stage = 1 ∧ ({ f with stage := 2 } : Forward).stage = 2) ∧
    (64 * State.reset.epoch ≤ State.reset.clock ∧ (let s : State := { State.reset with clock := 64, epoch := 1 }
      64 * s.epoch ≤ s.clock ∧ ({ s with clock := 63 } : State).clock < 64 * s.epoch ∧
      ((s.cluster 31).now s.clock).fen = false ∧ (s.cluster 31).stopped = false ∧
      (s.die (31 / 8)).fenced = false ∧ (s.cluster 31).setAt < 64 * s.epoch ∧
      ¬ ((s.setCluster 31 { setAt := 64 }).cluster 31).setAt < 64 * s.epoch ∧
      (((s.setCluster 31 { set := { fen := true } }).cluster 31).now 64).fen = true ∧
      min 0xFFFE ((s.cluster 31).queuedCost + ((s.cluster 31).now s.clock).pbias) < (s.cluster 31).set.tlow)) := by
  decide +kernel

/-- Reset with the ranges of partition 0 over every counter, entry and group, and thread 0 as given. -/
def ranged (x : Thread) : State :=
  (having x).modTrg (fun t => { t with
    ranges := t.ranges.set 0 { en := true, glim := 255, clim := 4095, elim := 0x3FFF } })

/-- With peer 7 paired, reached on a lit wavelength of port 0. -/
def reaching (x : Thread) : State :=
  (ranged x).modFab (fun b => { b with
    en := true, pairs := ({} : Tab Nat).put (connKey 0 7) 1
    ports := b.ports.set 0 { en := true, pmap := #v[0x8007, 0, 0, 0], tx := (Vector.replicate 16 {}).set 0 { light := .lit, base := true } } })

/-- Reset at a clock, with peer 7 the one enabled entry, number 0, and reached by one wavelength. -/
def advertising (n : Nat) : State :=
  { (reaching {}).modPkg (fun p => { p with peers := p.peers.set 0 { en := true, peer := 7 } }) with clock := n }

/-- Adverts due and not, with no enabled entry and with one whose peer is reached; an entry's timeout; an advert that
arrives. -/
theorem witness_TasksRouteForwardAndAdvertise_adverts :
    (let s (n : Nat) : State := { State.reset with clock := n }
     (s 1023).clock < (s 1023).fab.advAt + 1024 ∧ (s 1024).fab.advAt + 1024 ≤ (s 1024).clock ∧
     (s 1024).advertised 0 = some 0 ∧ (∀ i, (h : i < 32) → (s 1024).pkg.peers[i].en = false) ∧
     (s 8191).clock < (s 8191).pkg.peers[31].at_ + 8192 ∧ (s 8192).pkg.peers[31].at_ + 8192 ≤ (s 8192).clock) ∧
    (let s := advertising 1024
     s.fab.advAt + 1024 ≤ s.clock ∧ (∀ j, (h : j < 32) → (s.pkg.peers[j].en = true ↔ j = 0)) ∧ s.advertised (0 / 8) = some 0 ∧
     s.pkg.peers[0].peer.toNat = 7 ∧ (s.paths (0 / 8) 7).1 = [(0, 0)]) ∧
    (let f : Flit := { typ := 0x15, src := 7, dst := 0, qs := 1, qd := 3, len := 4, payload := [0, 1, 2, 3] }
     let s := (State.reset.modFab (fun b => { b with en := true, pairs := ({} : Tab Nat).put (connKey 3 7) 1 })).modPkg
       (fun p => { p with peers := p.peers.set 31 { en := true, peer := 7 } })
     7 < 8 ∧ f.crcOk = true ∧ f.tagOk = true ∧ f.dst = s.pkg.peer.toNat ∧ s.pairOf f.qd f.src = some f.qs ∧
     s.pkg.peers[31].en = true ∧ s.pkg.peers[31].peer.toNat = f.src ∧ s.fab.en = true ∧ f.payload.length = 4 ∧ listedType f.typ = true) := by
  refine ⟨?_, ?_, ?_⟩ <;> decide +kernel

/-- A task on its way to another package, its outcome open when FTO has passed and before; a record whose home is the
lowest cluster of its partition that has it, and a join counter of the partition. -/
theorem witness_TasksRouteForwardAndAdvertise_visitors :
    (let f : Forward := { id := 0, task := task 0, src := 0, dst := 32 }
     let s (n : Nat) : State := { State.reset with forwards := [f], clock := n }
     32 ≤ f.dst ∧ f.stage = 0 ∧ (s 239999).clock < f.task.since + 2400 * (s 239999).fab.fto ∧
     f.task.since + 2400 * (s 240000).fab.fto ≤ (s 240000).clock) ∧
    (let s := (State.reset.setCluster 0 { lrCount := 1 }).setCluster 1
       { lrBase := 0x10000, lrCount := 2, joins := ({} : Tab JoinCounter).put 4095 { count := 2 } }
     s.owner (1 / 8) = some 0 ∧ 1 < (s.cluster 1).lrCount ∧ (∀ e < 1, s.owner (e / 8) = some 0 → (s.cluster e).lrCount ≤ 1) ∧
     PlainRec s 1 1 ∧ s.stateBad 1 1 = false ∧
     ({ s with memBad := [0x101C0] } : State).stateBad 1 1 = true ∧ objectAt .join 0xF20000010004FFF0 = some (1, 4095) ∧ 1 < (s.join 1 4095).count) := by
  unfold PlainRec; refine ⟨?_, ?_⟩ <;> decide +kernel

/-- A cluster with a task in its highest queue, and slots free; a reserved slot whose record is read; registers that the
host writes with a record that may be armed and one that may not; a slot that is free, one that is not, and one that
is halted. -/
theorem witness_TasksDispatchOntoSlots :
    (let s := State.reset.setCluster 0 { lrCount := 1, queues := (Vector.replicate 4 []).set 3 [task 3] }
     s.infinite 0 = false ∧ s.chooseSlot 0 = some (0, 0) ∧ (s.cluster 0).queues[3] = [task 3] ∧
     (s.cluster 0).ranAt ≠ some s.clock ∧ ((s.setCluster 0 { ranAt := some 0 }).cluster 0).ranAt = some s.clock) ∧
    (let s := State.reset.setThread 3 { life := .reserved, dispatching := some (task 3) }
     (s.thread (tidOf 0 3)).dispatching = some (task 3) ∧ (task 3).visitor = none ∧ (task 3).contOf = none ∧
     s.recordDead 0 (task 3) = false ∧ PlainRec s 0 (task 3).recIx ∧ (s.die (0 / 256)).rdcEpoch ≠ BitVec.allOnes 32) ∧
    (let s := records {} 255 0 0
     s.hostRefusal 0 true (clusterReg 0 0x28) = 0 ∧ s.hostRefusal 0 true (clusterReg 0 0x30) = 0 ∧
     whoIsThread (.host 0) = false ∧ Armable s 0 0x1F ∧ (s.cluster 0).used < 256 ∧ ¬ Armable s 0 0x20 ∧
     PlainRec s 0 0x1F ∧ s.eligible 31 3 = true ∧ s.eligible 0 0 = false ∧
     31 = 32 * 0 + (0xC1F001F : Word).toNat / 2 ^ 16 % 32 ∧ 3 = (0xC1F001F : Word).toNat / 2 ^ 26 % 4 ∧
     s.infinite 0 = false) ∧
    (let v : Word := 0x100000000
     let s (l : Life) := State.reset.setThread 0 { life := l }
     v.toNat / 2 ^ 32 % 4 = 1 ∧ ((s .halted).thread (tidOf 0 0)).life = .halted ∧ ((s .ready).thread (tidOf 0 0)).life = .ready ∧
     ((s .ready).core 0).iso = false ∧
     (s .ready).foreign (tidOf 0 0) (clusterReg 0 0x28) = false) := by
  unfold Armable PlainRec; refine ⟨?_, ?_, ?_, ?_⟩ <;> decide +kernel

theorem ranged_idle (x : Thread) : CountersIdle (ranged x) :=
  ⟨rfl, fun q h => by simp [ranged, having, State.modTrg, State.setThread, State.reset], fun k => having_none_parked x k⟩

/-- Local adds, sets and reads of the last counter; reserved bits; a counter outside every range; a remote add with and
without a route; waits that are met and that park. -/
theorem witness_CountersAddWaitAndRead :
    (let s := ranged (three 0xFFF 5 0x1FFF)
     (s.rd 1).toNat < 2 ^ 13 ∧ (s.rd 1).toNat < 2 ^ 12 ∧ (s.trg.range (s.partOf s.cur)).hasCounter 0xFFF = true ∧ Drained s ∧
     2 ^ 12 ≤ (s.rd 3).toNat ∧ (s.rd 3).toNat < 2 ^ 13 ∧ ¬ Drained (ranged { unacked := [(0, false)] }) ∧
     (s.die s.myDie).rdcEpoch ≠ BitVec.allOnes 32 ∧ (s.counter 0xFFF).value.toNat < (s.rd 2).toNat ∧
     (s.counter 0xFFF).err = false ∧ (s.counter 0xFFF).cfail = false ∧ (s.rd 24).toNat ≤ (s.counter 0xFFF).value.toNat) ∧
    (TaskAlone (having {}) ∧ 0x4000 / 2 ^ 14 % 2 ^ 38 ≠ 0 ∧ (2 ^ 14 ≤ 2 ^ 52 ∧ 2 ^ 52 / 2 ^ 13 % 2 = 0) ∧
      ((having {}).trg.range ((having {}).partOf (having {}).cur)).hasCounter 0xFFF = false) ∧
    (let v := 7 * 2 ^ 52 + 0x2FFF
     v / 2 ^ 14 % 2 ^ 38 = 0 ∧ v / 2 ^ 13 % 2 = 1 ∧ v / 2 ^ 12 % 2 = 0 ∧ v / 2 ^ 52 ≠ State.reset.pkg.peer.toNat ∧
     0x3FFF / 2 ^ 12 % 2 = 1 ∧ 0x2FFF / 2 ^ 52 = State.reset.pkg.peer.toNat) ∧
    (Drained (reaching {}) ∧ (reaching {}).hasRoute 0 7 = true ∧ (ranged {}).hasRoute 0 7 = false) ∧
    (let s := ranged {}
     s.hostRefusal 0 true (counterAddr 4095 + 0x10) = 0 ∧ s.hostRefusal 0 true (counterAddr 4095) = 0 ∧
     s.foreign (tidOf 0 0) (counterAddr 4095) = false) := by
  unfold Drained TaskAlone; refine ⟨?_, ?_, ?_, ?_, ?_⟩ <;> decide +kernel

/-- The descriptor of an arming against counter 4095 with threshold 5, in the own scratchpad. -/
def armingWord : Word := 0x8FFF000000000005

/-- A poster of the last entry, whose descriptor lies at 0x1000; the counter at `n`, the entry in state `st`. -/
def posting (st : Nat) (n : Word) : State :=
  (((ranged (three 0xF000000000001000 0x3FFF 1)).setCore 0 { scratch := ({} : Memory).writeNat 0x1000 8 armingWord.toNat }).modTrg
    (fun t => { t with counters := ({} : Tab Counter).put 4095 { value := n } })).modTrg
      (fun t => { t with entries := ({} : Tab TEntry).put 0x3FFF { w0 := armingWord, state := st } })

/-- Posts that are turned away, that arm and that fire; cancels of no entries, of one past the last, and of the last;
stores to a counter that reach the threshold of its one entry and that do not. -/
theorem witness_TriggerEntriesArmFireAndEnd :
    ((2 ^ 14 < 0x3FFF + 2 ∧ 2 ^ 30 ≤ 2 ^ 30 ∧ 0x4000 / 2 ^ 14 % 4 ≠ 0 ∧ TaskAlone (having {})) ∧ 0x3FFF + 1 ≤ 2 ^ 14 ∧
      (0xF000000000001008 : Word).toNat % 32 ≠ 0 ∧ (0xF100000000001000 : Word).toNat / 2 ^ 56 = 0xF1 ∧
      ((having {}).trg.range 0).hasEntry 0x3FFF = false) ∧
    (∀ st ∈ [0, 1], ∀ m ∈ [4, 5],
      let n := BitVec.ofNat 64 m
      let s := posting st n
      (s.rd 1).toNat % 32 = 0 ∧ (s.rd 1).toNat / 2 ^ 56 = 0xF0 ∧ (s.rd 2).toNat = 0x3FFF ∧
      (s.trg.range (s.partOf s.cur)).hasEntry 0x3FFF = true ∧ Drained s ∧ s.reqs = [] ∧
      s.guarded s.cur (s.rd 1) 32 = false ∧
      armingWord.toNat = 8 * 2 ^ 60 + 4095 * 2 ^ 48 + 5 ∧ (s.trg.range (s.partOf s.cur)).hasCounter 4095 = true ∧
      s.partOf s.cur < 4 ∧ (s.entry 0x3FFF).state = st ∧ (s.counter 4095).value = n) ∧
    (let s := posting 1 4
     (0 < (s.rd 3).toNat ∧ (s.rd 2).toNat + (s.rd 3).toNat ≤ 2 ^ 14) ∧
     (∀ k, 0x3FFF ≤ k → k < 0x3FFF + 1 → (s.trg.range (s.partOf s.cur)).hasEntry k = true) ∧
     (2 ^ 14 ≤ 0x4000 ∧ 2 ^ 14 < 0x3FFF + 2)) ∧
    (let s := posting 1 4
     s.hostRefusal 0 true (counterAddr 4095 + 0x10) = 0 ∧
     (∃ x, s.trg.entries.cells = [(0x3FFF, x)] ∧ x.state = 1 ∧ x.part < 4 ∧ x.w0.toNat / 2 ^ 60 = 8 ∧
       x.w0.toNat / 2 ^ 48 % 2 ^ 12 = 4095 ∧ (added (s.counter 4095) 0).value.toNat < x.w0.toNat % 2 ^ 40 ∧
       x.w0.toNat % 2 ^ 40 ≤ (added (s.counter 4095) 1).value.toNat)) := by
  refine ⟨by unfold TaskAlone; decide +kernel, by unfold Drained; decide +kernel,
    ⟨by decide +kernel, fun k h1 h2 => ?_, by decide⟩, by decide +kernel, _, rfl, by decide +kernel⟩
  have : k = 0x3FFF := by omega
  subst this; decide +kernel

/-- What the engine reads of the descriptor: the word and zeros. -/
theorem witness_TriggerEntriesArmFireAndEnd_read :
    (match (posting 0 4).engineLoad (posting 0 4).cur 0xF000000000001000 32 [] (posting 0 4).me.pc (posting 0 4).order with
     | .done t bs => decide (t = posting 0 4 ∧ bs = leBytes 8 armingWord.toNat ++ List.replicate 24 0)
     | _ => false) = true := by decide +kernel

theorem posting_none_parked (st : Nat) (n : Word) : NoneParked (posting st n) := fun k => having_none_parked _ k

/-- An entry not fired, one that has ended well with and without a counter to raise, and one that has ended badly. -/
theorem witness_TriggerEntriesArmFireAndEnd_complete :
    (∀ r ∈ [none, some { code := 0x10, sub := 1 }], ∀ cen ∈ [true, false],
      let x : TEntry := { w1 := if cen then BitVec.ofNat 64 (2 ^ 63 + 4095 * 2 ^ 51) else 0, state := 2, ended := some r }
      let s := State.reset.modTrg (fun t => { t with entries := ({} : Tab TEntry).put 0x3FFF x })
      x = s.entry 0x3FFF ∧ x.w1.getLsbD 63 = cen ∧ s.trg.entries.cells = [(0x3FFF, x)] ∧ x.ended = some r ∧
      (cen = true → x.w1.toNat / 2 ^ 51 % 2 ^ 12 = 4095)) ∧
    (State.reset.entry 0).state ≠ 2 ∧ (∀ q, (h : q < 4) → State.reset.trg.queues[q] = []) := by
  refine ⟨by decide +kernel, by decide +kernel, by decide +kernel⟩

/-- Peer 7 of partition 0 heard on wavelength 0 of port 0, its next flit the last of the counter's turn. -/
def wired (x : Thread) : State :=
  (reaching x).modFab (fun b => { b with
    ports := b.ports.set 0 { b.ports[0] with rx := (Vector.replicate 16 {}).set 0 { assigned := true } }
    conns := ({} : Tab Conn).put (connKey 0 7) { cached := true, expected := 0xFFFFFF } })

/-- A flit of peer 7 in its turn. -/
def incoming (hdl : Nat) (p : List Byte) : Flit :=
  { typ := 1, src := 7, qs := 1, seq := 0xFFFFFF, hdl := hdl, len := p.length - 1, payload := p }

/-- The same with group 255. -/
def grouped (x : Group) : State := (wired {}).modTrg (fun t => { t with groups := ({} : Tab Group).put 255 x })

theorem grouped_none_parked (x : Group) : NoneParked (grouped x) := fun k => having_none_parked _ k

theorem grouped_ready (x : Group) (h : (grouped x).group 255 = x ∧ x.en = true ∧
    ((grouped x).trg.range 0).hasGroup 255 = true ∧ x.waiting = []) : GroupReady (grouped x) 0 255 x :=
  ⟨h.1, h.2.1, h.2.2.1, h.2.2.2, grouped_none_parked x⟩

/-- A root of two local contributions and child slot 3, peer 7, at round 5 with `n` of them made. -/
def root (n : Nat) (mask : BitVec 8) : Group :=
  { en := true, root := true, cmask := mask, localN := 2, epoch := 5, locals := List.replicate n 9
    kids := (Vector.replicate 8 0).set 3 7 }

/-- A leaf below peer 7 that has made its up step. -/
def below : Group := { en := true, localN := 1, parent := 7, upDone := true, epoch := 5, locals := [9] }

/-- Groups past the last, outside every range, without contributors, full, and with one contribution to come; results
of rounds past, one far back, and to come; stores of a thread and the host; flits of a child's round, a result and a
counter add. -/
theorem witness_GroupsTakeSmallContributions :
    ((256 ≤ 256 ∧ TaskAlone (having {})) ∧ (255 < 256 ∧ ((having {}).trg.range 0).hasGroup 255 = false)) ∧
    (let s := grouped (root 1 0)
     GroupReady s 0 255 (root 1 0) ∧ (s.partOf s.cur = 0 ∧ Drained s ∧ (root 1 0).locals.length < (root 1 0).localN ∧
       (root 1 0).root = true ∧ (root 1 0).cmask = 0 ∧ (root 1 0).upDone = false ∧
       (s.die s.myDie).rdcEpoch ≠ BitVec.allOnes 32)) ∧
    ((root 2 0).localN ≤ (root 2 0).locals.length ∧ ({ root 2 0 with localN := 0 } : Group).localN = 0 ∧
      ¬ Drained (having { unacked := [(0, false)] })) ∧
    (let r (v : Word) := (root 1 0).epoch - v.extractLsb' 0 32
     1 ≤ (r 4).toNat ∧ (r 0x80000005).toNat ≤ 2 ^ 31 ∧ (r 5).toNat = 0 ∧ 2 ^ 31 < (r 6).toNat) ∧
    ((grouped (root 1 0)).hostRefusal 0 true (groupAddr 255 + 0x28) = 0 ∧
      (grouped (root 2 0)).foreign (tidOf 0 0) (groupAddr 255 + 0x28) = false) ∧
    (∀ n ∈ [1, 2], ∀ e ∈ [4, 5],
      let x := root n 8
      let s := grouped x
      let f := incoming 255 (leBytes 8 (2 ^ 64 - 1) ++ leBytes 4 e)
      NextInOrder s f ∧ s.group 255 = x ∧ (s.trg.range f.qd).hasGroup f.hdl = true ∧ s.groupPart f.hdl = f.qd ∧
      x.cmask = BitVec.ofNat 8 (2 ^ 3) ∧ x.kids[3] = f.src ∧ x.arrived.cells = [] ∧ x.upDone = false) ∧
    (let s := grouped below
     NextInOrder s (incoming 255 (leBytes 8 7 ++ leBytes 4 5)) ∧ GroupReady s 0 255 below ∧ below.parent = 7 ∧
     below.upDone = true ∧ below.root = false ∧ 5 = below.epoch.toNat) ∧
    (let s := grouped below
     NextInOrder s (incoming 4095 (leBytes 8 7)) ∧ (s.trg.range 0).hasCounter 4095 = true ∧
     ((s.modTrg (fun t => { t with ranges := Vector.replicate 4 {} })).trg.range 0).hasCounter 4095 = false) := by
  unfold TaskAlone Drained NextInOrder Intact
  refine ⟨by decide +kernel, ⟨grouped_ready _ (by decide +kernel), by decide +kernel⟩, by decide +kernel, by decide +kernel,
    by decide +kernel, by decide +kernel, ⟨by decide +kernel, grouped_ready _ (by decide +kernel), by decide +kernel⟩,
    by decide +kernel⟩

/-- A collective of 64 bytes with sequence number 6. -/
def coll (started : Bool) (checked : List Nat) : Coll :=
  { seq := 6, kind := 1, op := 0, fmt := 0, len := 64, dl := 0, cen := false, ctr := 0, ctl := 1, part := 0
    started := started, checked := checked, core := 0 }

/-- A root of child slot 3, peer 7, with `l` queued. -/
def gathers (l : List Coll) (mask : BitVec 8) : Group :=
  { en := true, root := true, cmask := mask, kids := (Vector.replicate 8 0).set 3 7, colls := l, next := 7
    kidSeq := ({} : Tab Nat).put 3 6 }

/-- An abort with nothing and with one collective queued; a queueing of kind 0, 64 FP32 bytes, from misaligned and
aligned addresses into an empty, a busy and a full group. -/
theorem witness_CollectivesQueueWaitAndAbort_queue :
    (let g := gathers [] 0
     let s := grouped g
     s.group 255 = g ∧ g.en = true ∧ (s.trg.range (s.partOf s.cur)).hasGroup 255 = true ∧ g.colls = [] ∧
     (BitVec.ofNat 128 (3 * 2 ^ 108 + 255)).toNat = 3 * 2 ^ 108 + 255) ∧
    (let g := gathers [coll true []] 0
     g.colls = [coll true []] ∧ g.root = true ∧ g.cmask = 0 ∧ (coll true []).committed = false ∧
     (coll true []).entry = none ∧ (coll true []).cen = false ∧ g.aborts = [] ∧ g.doomed = [] ∧ g.inbox = [] ∧
     (grouped g).me.flights = []) ∧
    (let p : Block := BitVec.ofNat 128 (255 + 64 * 2 ^ 8)
     let s := (grouped (gathers [] 0)).setThread 0 { three 0xF000000000001000 0xF000000000002000 2 with life := .ready }
     p.toNat = 255 + 64 * 2 ^ 8 ∧ 64 % 4 = 0 ∧ ((s.rd 1).toNat % 4 = 0 ∧ (s.rd 2).toNat % 4 = 0) ∧
     ((s.rd 3).toNat % 4 ≠ 0 ∧ TaskAlone s) ∧
     (match s.collSpans s.cur p (s.rd 1) (s.rd 2) with | .ok _ => true | _ => false) = true) ∧
    (4 ≤ (gathers (List.replicate 4 (coll true [])) 0).colls.length ∧
      (let g := { gathers [] 8 with root := false }
       g.colls = [] ∧ g.root = false ∧ 3 < 8 ∧ g.cmask.getLsbD 3 = true ∧ g.doomed = [] ∧ g.inbox = []) ∧
      AwaitsChild (gathers [coll true []] 8) (coll true []) 3) := by
  unfold TaskAlone AwaitsChild; refine ⟨?_, ?_, ?_, ?_⟩ <;> decide +kernel

/-- Flits for an empty group and for one that waits for its child: a check that matches and one that does not, a chunk,
an abort request of both kinds, and decisions on time and late. -/
theorem witness_CollectivesQueueWaitAndAbort_flits :
    GroupReady (grouped (gathers [] 8)) 0 255 (gathers [] 8) ∧
    GroupReady (grouped (gathers [coll true []] 8)) 0 255 (gathers [coll true []] 8) ∧
    (∀ p ∈ [leBytes 4 6 ++ leBytes 4 64 ++ leBytes 2 1, leBytes 4 6 ++ leBytes 4 60 ++ leBytes 2 1, leBytes 4 6 ++ leBytes 2 9,
        List.replicate 8 0, leBytes 4 6 ++ leBytes 2 9 ++ [0]],
      NextInOrder (grouped (gathers [coll true []] 8)) (incoming 255 p) ∧ (gathers [] 8).inbox = []) ∧
    (let x := gathers [coll true [3]] 8
     AwaitsChild x (coll true [3]) 3 ∧ x.kids[3] = 7 ∧ (grouped x).groupPart 255 = 0 ∧ (coll true [3]).seq = 6 ∧
     (coll true [3]).len = 64 ∧ (coll true [3]).ctl = 1 ∧ (coll true [3]).checked = [3] ∧ x.kidSeq.get 0 3 = 6 ∧
     (incoming 255 (List.replicate 8 0)).payload.length = (incoming 255 (List.replicate 8 0)).len + 1 ∧
     (incoming 255 (List.replicate 8 0)).len + 1 < min 65536 64 ∧
     (incoming 255 (leBytes 4 6 ++ leBytes 4 64 ++ leBytes 2 1)).len = 9) ∧
    (let x := gathers [] 8
     x.root = true ∧ 6 < x.next.toNat ∧ 9 ≠ (grouped x).pkg.peer.toNat ∧ { x with root := false, parent := 7 }.parent = 7) ∧
    (let a : AbortWait := { tid := 0, flight := 3, seq := 6, d := 4 }
     let s := (grouped { gathers [] 8 with aborts := [a] }).setThread 0
       { life := .ready, flights := [{ id := 3, kind := .collective, left := none }] }
     (s.group 255).colls = [] ∧ (s.group 255).aborts = [a] ∧ ((s.thread 0).flight 3).isSome = true ∧
     0 = s.pkg.peer.toNat ∧ 4 < 108 ∧ 4 ≠ 96) := by
  unfold NextInOrder Intact AwaitsChild
  refine ⟨grouped_ready _ (by decide +kernel), grouped_ready _ (by decide +kernel), ?_, ?_, ?_, ?_⟩ <;> decide +kernel

/-- A leaf whose broadcast of 64 bytes waits for its chunks, for the last 64 bytes of core 0's scratchpad. -/
def receiver : Group :=
  { en := true, parent := 7, next := 7
    colls := [{ coll true [] with kind := 2, dsts := [{ start := 0, len := 64, core := some 0, addr := 0x5FFC0 }] }] }

/-- A chunk with all its bytes and one with the first 8. -/
theorem witness_CollectivesQueueWaitAndAbort_down :
    GroupReady (grouped receiver) 0 255 receiver ∧
    (∀ n ∈ [8, 64],
      let s := grouped receiver
      let f := incoming 255 (List.replicate n 5)
      NextInOrder s f ∧ receiver.inbox = [] ∧ receiver.root = false ∧ receiver.cmask = 0 ∧ receiver.doomed = [] ∧
      (∀ c ∈ receiver.colls, c.kind = 2 ∧ c.started = true ∧ c.halted = false ∧ c.down = 0 ∧ c.finals.cells = [] ∧
        c.cen = false ∧ c.entry = none ∧ c.core = 0 ∧ (n < min 65536 c.len ∨ n = c.len ∧ n ≤ 65536) ∧
        c.dsts = [{ start := 0, len := c.len, core := some c.core, addr := 0x5FFC0 }] ∧ 0x5FFC0 + c.len ≤ 0x60000) ∧
      receiver.colls.length = 1 ∧ f.off = 0 ∧ n = f.len + 1 ∧ f.payload.length = n ∧ s.watched (some 0) 0x5FFC0 64 = false ∧
      (s.die (dieOf 0)).fenced = false ∧ (s.core 0).scratchBad = []) ∧
    ∀ i, ((grouped receiver).core 0).pinned i = true := by
  unfold NextInOrder Intact
  exact ⟨grouped_ready _ (by decide +kernel), by decide +kernel, fun i => reset_pinned i⟩

/-- Region 0xFFE over 0x1000 bytes at 0x2000, with `v`, `drain` and its rights. -/
def region (v drain ok : Bool) : Region :=
  { base := 0x2000, len := 0x1000, v := v, drain := drain, rd := ok, wr := ok, at_ := ok, peer := 7 }
def regioned (r : Region) : State := (wired {}).modFab (fun b => { b with regs := ({} : Tab Region).put 0xFFE r })

/-- The last 8 bytes of a region by its handle, and by their address; payloads of every kind; regions that are not
valid, draining, and without rights. -/
theorem witness_FlitsActOnRegisteredMemory :
    let s := regioned (region true false true)
    (∀ p ∈ [leBytes 8 5, leBytes 4 8 ++ leBytes 1 255, leBytes 8 5 ++ leBytes 8 6, leBytes 4 5],
      NextInOrder s { incoming 0xFFE p with off := 0xFF8 }) ∧
    Admits s { incoming 0xFFE [] with off := 0xFF8 } (region true false true) 0x2FF8 8 ∧
    Admits s { incoming 0xFFF [] with off := 0x2FF8 } (region true false true) 0x2FF8 8 ∧
    s.watched none 0x2FF8 8 = false ∧
    ((incoming 0xFFE (leBytes 8 5)).len = 7 ∧ (incoming 0xFFE (leBytes 4 5)).len = 3 ∧ 0xFFE ≠ 0xFFF) ∧
    (∀ v ∈ [false, true], ∀ dr ∈ [false, true], ((regioned (region v dr false)).region 0xFFE).v = v ∧
      ((regioned (region v dr false)).region 0xFFE).drain = dr ∧ ((regioned (region v dr false)).region 0xFFE).part = 0 ∧
      ((regioned (region v dr false)).region 0xFFE).rd = false) := by
  refine ⟨by unfold NextInOrder Intact; decide +kernel, ?_, ?_, by decide +kernel, by decide +kernel, by decide +kernel⟩
  · exact ⟨rfl, rfl, rfl, Or.inr rfl, Or.inl rfl, ⟨0, by decide +kernel⟩, by decide +kernel, Or.inl (by decide +kernel)⟩
  · exact ⟨rfl, rfl, rfl, Or.inr rfl, Or.inl rfl, ⟨0, by decide +kernel⟩, by decide +kernel,
      Or.inr ⟨rfl, ⟨0xFFE, rfl⟩, by decide +kernel⟩⟩

/-- An operation of thread 0 towards peer 7. -/
def operation (k : OpKind) : RemoteOp :=
  { id := 9, kind := k, owner := .thread 0 3, part := 0, peer := 7, len := 16, count := 1, next := 1, d := 4
    seqs := [(5, 0)], spans := [{ start := 0, len := 16, core := some 0, addr := 0x5FFF0 }], pc := 0, order := 0 }
def operating (o : RemoteOp) (c : Conn) : State :=
  ((wired { flights := [{ id := 3, kind := .fabric, left := none }] }).modFab (fun b => { b with
    ops := [o], conns := ({} : Tab Conn).put (connKey 0 7) c }))

/-- A get's last bytes, an atomic's answer and a refusal; acknowledgements that cover one flit and none, and a NAK with
and without a retry left; operations of each kind that are complete, refused, failed and not complete. -/
theorem witness_ResponsesReachTheirOperations :
    (∀ k ∈ [OpKind.get, .radd],
      let o := operation k
      let s := operating o { cached := true, expected := 0xFFFFFF }
      let f := { incoming 0 (leBytes 8 7 ++ leBytes 3 5) with off := 8 }
      NextInOrder s f ∧ s.fab.ops = [o] ∧ o.part = f.qd ∧ o.peer = f.src ∧ o.owner = .thread 0 3 ∧ o.y.toNat = f.aux ∧
      o.stopped = false ∧ o.fault = none ∧ f.nar = o.nar ∧ f.off + 8 ≤ o.len ∧ 0x5FFF0 + o.len ≤ 0x60000 ∧
      s.watched (some 0) 0x5FFF8 8 = false ∧ (s.die 0).fenced = false ∧ (s.core 0).scratchBad = [] ∧ o.d = 4 ∧
      o.seqs = [(5, 0)] ∧ ((s.thread 0).flight 3).isSome = true ∧ o.refused = none) ∧
    (let m : Outbound := { flit := { typ := 1, seq := 0xFFFFFF }, op := some 9 }
     let s := operating (operation .put) { cached := true, sent := [m] }
     Intact s { incoming 0 [] with seq := 0 } ∧ (s.conn 0 7).sent = [m] ∧ m.op = some (operation .put).id ∧
     m.flit.seq < 2 ^ 24 ∧ 0 = (m.flit.seq + 1) % 2 ^ 24 ∧ (s.conn 0 7).goBacks < s.fab.retry ∧
     ((wired {}).conn 0 7).sent = []) ∧
    (∀ k ∈ [OpKind.put, .get, .radd],
      let s := operating (operation k) {}
      s.fab.ops = [operation k] ∧ ((s.thread 0).flight 3).isSome = true ∧ (operation k).tag = none ∧
      (operation k).ctr = none ∧ (operation k).next = (operation k).count ∧ (operation k).failed = false ∧
      ({ operation k with acks := 1, got := 16, answered := true } : RemoteOp).len ≤ 16 ∧
      (operation k).seqs.length ≤ 1 ∧ ({ operation k with next := 0 } : RemoteOp).next < (operation k).count ∧
      ({ operation k with refused := some (1, 0) } : RemoteOp).refused = some (1, 0) ∧ 1 ≠ 6 ∧
      ({ operation k with failed := true } : RemoteOp).failed = true ∧ k ≠ .page) := by
  unfold NextInOrder Intact; refine ⟨?_, ?_, ?_⟩ <;> decide +kernel

/-- A connection to peer 7, at clock `n`. -/
def linked (n : Nat) (c : Conn) : State :=
  { (wired {}).modFab (fun b => { b with conns := ({} : Tab Conn).put (connKey 0 7) c }) with clock := n }

/-- A flit ready to be sent on the one open path at the counter's end, a context that is absent, a peer without a route;
each timer due and not; a pause, time exchanges, and a visitor's state. -/
theorem witness_ConnectionsSendAndRecover :
    (let c : Conn := { cached := true, seq := 0xFFFFFF, urgent := [{ flit := { typ := 4 } }] }
     let s := linked 0 c
     s.conn 0 7 = c ∧ s.hasRoute 0 7 = true ∧ s.openPaths 0 7 = [(0, 0)] ∧ c.again = [] ∧ c.sent.length < 8192 ∧
     s.pairOf 0 7 = some 1 ∧ c.seq + 1 = 2 ^ 24 ∧ ((linked 0 {}).conn 0 7).cached = false ∧ s.hasRoute 0 8 = false ∧
     (s.conn 0 8).urgent = [] ∧ s.fab.ops = [] ∧ s.trg.groups.cells = [] ∧ (s.conn 0 8).held = none) ∧
    (let c : Conn := { cached := true, fresh := 1, gapAt := some 0, early := [({ typ := 1, seq := 3 }, 0)], sent := [{ flit := { typ := 1 } }] }
     (linked 479 c).clock < c.freshAt + 480 ∧ c.freshAt + 480 ≤ (linked 480 c).clock ∧ ((linked 480 c).paths 0 7).1 = [(0, 0)] ∧
     (linked 4799 c).clock < 0 + 4800 ∧ 0 + 4800 ≤ (linked 4800 c).clock ∧ c.early ≠ [] ∧ c.held = none ∧
     (linked 47999 c).clock < c.progress + 48000 ∧ c.progress + 48000 ≤ (linked 48000 c).clock ∧ c.sent ≠ [] ∧
     c.goBacks < (linked 0 c).fab.retry ∧ ((linked 0 {}).fab.conns.cells.length < 4096) ∧
     (∀ p < 32, ∀ k < 16, (((linked 0 {}).port p).lane k).miss = [] ∧ (((linked 0 {}).port p).lane k).input = [])) ∧
    (let f : Flit := { incoming 0 [1, 0, 0] with typ := 0x12 }
     Intact (wired {}) f ∧ (wired {}).pausedWaves f = [(0, 0)]) ∧
    (let s := (wired {}).modFab (fun b => { b with tsync := true, parent := 7 })
     s.fab.en = true ∧ ((s.port 0).lane 0).assigned = true ∧ s.fab.root = false ∧
     0 ≤ s.gtime.toNat ∧ (s.sendPair 7 { typ := 0x14 }).isSome = true ∧
     ({ s with clock := 2400000 } : State).fab.syncSent + 2400000 ≤ 2400000 ∧ s.clock < s.fab.syncSent + 2400000 ∧
     ({ s with clock := 24000000 } : State).fab.syncAt + 24000000 ≤ 24000000 ∧ s.fab.syncLost = false ∧
     (wired {}).fab.tsync = false) ∧
    (let s := (wired {}).setCluster 0 { lrBase := 0x10000, lrCount := 1 }
     NextInOrder s { incoming 0 [] with aux := 23 } ∧ NextInOrder s { incoming 0 [] with aux := 15 } ∧ 0 < (s.cluster 0).lrCount ∧
     s.owner (0 / 8) = some 0 ∧ PlainRec s 0 0) := by
  unfold NextInOrder Intact PlainRec; refine ⟨?_, ?_, ?_, ?_, ?_⟩ <;> decide +kernel

/-- A copy of two rows of 64 bytes within the scratchpad of core 0, whose last byte is that of the scratchpad. -/
def copy (dst : Word) : Copy :=
  { tpl := 0, core := 0, slot := 0, taskix := 0, tag := none, src := 0xF000000000001000, dst := dst, rlen := 64, rows1 := 1
    sstr := 64, dstr := 64, bar := 0, ctr := none, wme := false, pc := 0, order := 0 }

theorem reset_scratch_clear (s : State) (c : Nat) (h : (s.die (dieOf c)).fenced = false) (h2 : s.core c = {}) :
    ScratchClear s c := ⟨h, fun f => by rw [h2]; exact reset_pinned f, by rw [h2]⟩

/-- Where no channel has a copy, nothing lies above a watermark. -/
theorem unwatched (s : State) (p : Option Nat) (h : ∀ d ∈ s.dies.cells, d.2.channels.cells = []) (a n : Nat) :
    s.watched p a n = false := by
  simp only [State.watched, State.someWatch, List.any_eq_false]
  intro d hd
  simp [h d hd]

/-- Where no die has a format window, no byte lies in one. -/
theorem no_windows (s : State) (h : ∀ d, (s.die d).fw = Vector.replicate 16 {}) (b : Nat) : s.windowOf b = none := by
  simp only [State.windowOf, Die.windowAt, h]
  split <;> rfl

theorem reset_no_windows : ∀ b, State.reset.windowOf b = none := no_windows _ (fun _ => rfl)

/-- The last template of a die, which may be started, and the one before, which may not; a full channel; a row that
ends at the last byte of the scratchpad and one that ends past it; a copy that is complete; a descriptor at the end of
the scratchpad and past it; a gathered row; a request whose rows are done. -/
theorem witness_EnginesCopyAndGather :
    (let s := (having {}).setDie 0 { templates := ((((({} : Tab Word).put (8 * 4095) 0xF000000000001000).put (8 * 4095 + 1)
       0xF000000000002000).put (8 * 4095 + 2) 64).put (8 * 4095 + 7) 1) }
     s.templateOk 0 4095 = true ∧ s.templateOk 0 4094 = false ∧ s.settled 0 = true ∧ (awaiting {}).settled 0 = false ∧
     (s.channel 0 63).err = false ∧ 0 / 256 = 0 ∧ 4095 % 2 ^ 12 = 4095 ∧ 4095 < 2 ^ 19 ∧ 4095 / 2 ^ 18 % 2 = 0 ∧
     (s.channel 0 63).copies.length < 8 ∧ 8 ≤ ({ copies := List.replicate 8 (copy 0) } : Channel).copies.length ∧
     (s.thread 0).mode = false ∧ (s.thread 0).gang = false) ∧
    (∀ p ∈ [(0xF00000000005FF80, 0x5FFC0), (0xF00000000005FFA0, 0x5FFE0)],
      let c := copy (BitVec.ofNat 64 p.1)
      let x : Channel := { copies := [c], row := 1 }
      let D : Die := { channels := ({} : Tab Channel).put 63 x }
      let s := (having {}).setDie 0 D
      s.dies.cells = [(0, D)] ∧ D.channels.cells = [(63, x)] ∧ x.copies = [c] ∧ x.col = 0 ∧ x.bytes = none ∧ x.reqs = [] ∧
      dieOf c.core = 0 ∧ c.slot < 4 ∧ x.row ≤ c.rows1 ∧ c.rowSrc x.row = BitVec.ofNat 64 (0xF0 * 2 ^ 56 + 0x1040) ∧
      c.rowDst x.row = BitVec.ofNat 64 (0xF0 * 2 ^ 56 + p.2) ∧ 0 < c.rlen ∧ 0x1040 + c.rlen ≤ 0x60000 ∧ c.bar = 0 ∧
      (p.2 = 0x5FFC0 → p.2 + c.rlen ≤ 0x60000) ∧ (p.2 = 0x5FFE0 → p.2 < 0x60000 ∧ 0x60000 < p.2 + c.rlen) ∧
      s.stillRuns c.core c.slot c.taskix = true ∧ (∀ k ∈ x.copies, k.tag = none ∧ k.slot < 4) ∧
      c.rows1 < ({ x with row := 2 } : Channel).row ∧ c.tag = none ∧ c.ctr = none) ∧
    (let m := (((({} : Memory).writeNat 0x5FFE0 8 (0x1000 * 2 ^ 24)).writeNat 0x5FFE8 8 (0x2000 * 2 ^ 32 + 2 ^ 20 + 0x3000)).writeNat
       0x5FFF0 8 (0x4000 * 2 ^ 21 + 2 ^ 10))
     let s := (having {}).setCore 0 { scratch := m }
     s.settled 0 = true ∧ 0x5FFE0 % 32 = 0 ∧ 0x5FFE0 + 32 ≤ 0x60000 ∧ 0x60000 < 0x60000 + 32 ∧ (s.die 0).streams.length < 256 ∧
     (match s.streamOf 0 0 0x5FFE0 0 with | some r => r.tag.isNone | none => false) = true) ∧
    (let r : StreamReq := { core := 0, slot := 0, taskix := 0, tag := none, idx := 0x1000, scatter := false, n := 1, cnt := 0x2000
                            rl := 8, lb := 0x3000, tb := 0x4000, nc := 1, cb := 0, pc := 0, order := 0 }
     let s := (having {}).setDie 0 { streams := [r] }
     (s.die 0).streams = [r] ∧ r.next < r.n ∧ r.cb + 0 % r.nc = r.core ∧ 0x4000 + r.rl ≤ 0x60000 ∧
     r.lb + r.next * r.rl + r.rl ≤ 0x60000 ∧ r.cnt + 4 * (0 % r.nc) + 4 ≤ 0x60000 ∧ r.idx + 4 * r.next + 4 ≤ 0x60000 ∧
     r.cnt + 4 * (0 % r.nc) + 4 ≤ r.lb + r.next * r.rl ∧ (s.core r.core).scratch.readNat (r.idx + 4 * r.next) 4 = 0 ∧
     r.n ≤ ({ r with next := 1 } : StreamReq).next ∧ ({ r with skipped := some { code := 4 } } : StreamReq).skipped.isSome = true ∧
     s.stillRuns r.core r.slot r.taskix = true) := by
  refine ⟨?_, ?_, ?_, ?_⟩ <;> decide +kernel

theorem witness_EnginesCopyAndGather_clear (r : StreamReq) (h : r.core = 0) :
    let s := (having {}).setDie 0 { streams := [r] }
    ScratchClear s r.core ∧ ∀ a n, s.watched (some r.core) a n = false := by
  rw [h]
  exact ⟨reset_scratch_clear _ _ rfl rfl, unwatched _ _ (by simp [having, State.setDie, State.setThread, State.reset, Tab.put, putKey])⟩

/-- A pump of queue 7, role `r`, of 3 tiles of one row of 64 bytes in a ring of two slots, `p` made and `c` taken. -/
def pump (en r fail : Bool) (p c : Nat) : Pump :=
  { qring := 1 * 2 ^ 32 + 1 * 2 ^ 20 + 0x1000, qaddr := 0, qshape := 1 * 2 ^ 40 + 1 * 2 ^ 28 + 1 * 2 ^ 16, en := en, role := r
    fail := fail, nt := 3, p := p, c := c }
def pumped (x : Thread) (p : Pump) : State :=
  (paged (having x)).setCore 0 { pumps := (Vector.replicate 8 {}).set 7 p }

/-- Pops and pushes of every outcome: a bad word, a pump of the other role, a failed one, a release, the end, a tile
that is ready, and none; waits that are over and not; subscriptions that are good and not, and their ends; a tile that
each pump moves, and a pump with nothing to move. -/
theorem witness_TilePumpsFeedTheirQueues :
    (∀ v ∈ [7, 15], v < 16 ∧ v % 8 = 7 ∧ (8 ≤ v ∨ v < 8)) ∧ 16 ≤ 16 ∧
    (∀ r ∈ [true, false], ∀ f ∈ [true, false],
      let p := pump true r f 2 1
      let s := pumped (three 7 15 0) p
      (s.rd 1).toNat = 7 ∧ (s.rd 2).toNat = 15 ∧ (s.rd 3).toNat < 2 ^ 32 ∧ (s.core s.myCore).pumps[7] = p ∧ p.en = true ∧
      p.slot = s.cur % 4 ∧ p.role = r ∧ p.fail = f ∧ TaskAlone s) ∧
    ((let s := pumped (three 7 15 0) (pump true true false 2 1)
      s.me.flights = [] ∧ s.me.unacked = [] ∧ s.reqs = [] ∧ (s.die s.myDie).rdcEpoch ≠ BitVec.allOnes 32) ∧
      (pumped { unacked := [(0, false)] } (pump true true false 2 1)).me.unacked ≠ []) ∧
    ((1 ≠ (pump true false false 2 1).nt ∧ (pump true false false 2 1).c + 0 < (pump true false false 2 1).p) ∧
      (pump true false false 1 1).p ≤ (pump true false false 1 1).c ∧ (pump true false false 3 3).c = (pump true false false 3 3).nt ∧
      (pump true true false 2 1).p - (pump true true false 2 1).c < (pump true true false 2 1).qring.toNat / 2 ^ 32 % 2 ^ 8 + 1 ∧
      (pump true true false 2 0).qring.toNat / 2 ^ 32 % 2 ^ 8 + 1 ≤ (pump true true false 2 0).p - (pump true true false 2 0).c) ∧
    (let x : Thread := { life := .parked, wait := some (.qpop 7 4 8 8) }
     x.waits = some (.qpop 7 4 8 8) ∧ 8 ≠ 0 ∧ 8 ≤ 8 ∧ 7 < 8 ∧ x.mode = false ∧ x.gang = false) ∧
    (let p := pump false false false 0 0
     let s := pumped {} p
     p.en = false ∧ 0 < p.rows ∧ 0 < p.rlen ∧ p.rows * p.rlen ≤ p.sl ∧ 2 ≤ p.ns ∧ p.rb + 64 * p.sl * p.ns ≤ 0x60000 ∧
     p.rb % 64 = 0 ∧ p.qaddr.toNat < 2 ^ 57 ∧ p.qaddr.toNat % 64 = 0 ∧ (pump true true false 2 2).c = (pump true true false 2 2).p ∧
     s.foreign (tidOf 0 0) (queueReg 0 7 0x18) = false) := by
  unfold TaskAlone; refine ⟨?_, ?_, ?_, ?_, ?_, ?_, ?_⟩ <;> decide +kernel

/-- A loader and a storer with a tile to move, and each with none. -/
theorem witness_TilePumpsFeedTheirQueues_tiles :
    (∀ r ∈ [true, false],
      let p := pump true r false 1 0
      let s := pumped {} p
      p.paused = false ∧ p.reqs = [] ∧ p.ending = [] ∧ p.rows = 1 ∧ 64 = 64 * p.rlen ∧ p.slot < 4 ∧
      s.guarded 0 (p.rowAt (if r then 0 else 1) 0) 64 = false ∧
      p.slotAt (if r then 0 else 1) + 64 ≤ 0x60000 ∧ (r = false → p.p < p.nt ∧ p.p - p.c < p.ns) ∧ (r = true → p.c < p.p) ∧
      (match s.runPieces 0 (if r then .store else .load) (p.rowAt (if r then 0 else 1) 0) 64 with
       | .ok [.here q] => decide (q = { start := 0, len := 64, core := none, addr := if r then 0 else 64, key := 0 })
       | _ => false) = true) ∧
    (pump true false false 2 0).ns ≤ (pump true false false 2 0).p - (pump true false false 2 0).c ∧
    (pump true true false 1 1).p ≤ (pump true true false 1 1).c ∧
    Serves (pumped {} (pump true true false 1 0)) 0 64 64 := by
  refine ⟨by decide +kernel, by decide +kernel, by decide +kernel, 0, by decide +kernel⟩

theorem witness_TilePumpsFeedTheirQueues_clear (p : Pump) :
    NoneParked (pumped {} p) ∧ ∀ a n, (pumped {} p).watched (some 0) a n = false :=
  ⟨fun k => having_none_parked {} k,
    unwatched _ _ (by simp [pumped, paged, having, State.setCore, State.setDie, State.setThread, State.reset, Tab.put, putKey])⟩

/-- A put's and a get's control word, the greatest length, a wrong word, a peer without a route and one with; a tag
with no more counts; lease words that are whole and not; a peer past the last. -/
theorem witness_FabricInstructionsStartOperations :
    (let v := 0x80000000 + 63 * 2 ^ 32 + 2 ^ 38
     v < 2 ^ 54 ∧ v / 2 ^ 39 % 2 = 0 ∧ 0 < v % 2 ^ 32 ∧ v % 2 ^ 32 ≤ 0x80000000 ∧ v / 2 ^ 38 % 2 = 1 ∧ v / 2 ^ 32 % 2 ^ 6 = 63 ∧
     ¬ 0 < 0 % 2 ^ 32) ∧
    (let s := (reaching { three 0x007FFE0000000008 0xF000000000001000 64 with life := .ready }).setCore 0
       { tagCount := (Vector.replicate 64 0).set 63 4095 }
     (s.rd 1).toNat / 2 ^ 52 = 7 ∧ 7 ≠ s.pkg.peer.toNat ∧ (s.rd 1).toNat / 2 ^ 40 % 2 ^ 12 = 0xFFE ∧ 0xFFE ≠ 0xFFF ∧
     (s.rd 1).toNat % 2 ^ 40 % 8 = 0 ∧ s.hasRoute (s.partOf s.cur) 7 = true ∧ s.hasRoute (s.partOf s.cur) 8 = false ∧
     TaskAlone s ∧ (s.core s.myCore).tagCount[62] < 4095 ∧ 4095 ≤ (s.core s.myCore).tagCount[63] ∧
     (match s.rangeSpans s.cur .load (s.rd 2) 64 with | .ok _ => true | _ => false) = true ∧
     (match s.rangeSpans s.cur .store (s.rd 2) 64 with | .ok _ => true | _ => false) = true ∧ s.fab.ops = []) ∧
    (let shape (v n : Nat) := 2 ^ 17 ≤ v ∨ v / 2 ^ 14 % 4 ≠ 0 ∨ v / 2 ^ 6 % 4 ≠ 0 ∨ 32 < n ∨ n < v / 2 ^ 8 % 2 ^ 6
     ¬ shape (0x10000 + 32 * 2 ^ 8 + 32) 32 ∧ shape (2 ^ 17) 0 ∧ shape 33 33 ∧ 4095 < 2 ^ 12 ∧ 2 ^ 12 ≤ 4096 ∧ 32 ≤ 32 ∧ 32 < 33) ∧
    ((reaching {}).fab.jobs = [] ∧ (reaching {}).fab.laneRequests = [] ∧ (reaching {}).savedWait (reaching {}).cur = none ∧
      countWaves (fun p k => decide ((((reaching {}).port p).slot k).lease = some (0, 9))) = 0) := by
  unfold TaskAlone; refine ⟨?_, ?_, ?_, ?_⟩ <;> decide +kernel

/-- A job of thread 0 that has asked for wavelength 15 of port 31. -/
def leaseJob : LeaseJob :=
  { tid := some 0, entry := none, part := 0, peer := 7, rel := false, n := 1, min := 0, nt := false, begun := true, port := 31
    phase := 1, wave := 15 }

/-- Port 31, enabled or not, its wavelength 15 in a state since clock 0, at clock `n`. -/
def lighted (en : Bool) (l : Light) (n : Nat) : State :=
  { (wired {}).modFab (fun b => { b with
      ports := b.ports.set 31 { en := en, pmap := #v[0x8000, 0, 0, 0x8007 * 2 ^ 48]
                                tx := (Vector.replicate 16 {}).set 15 { light := l, lease := some (0, 7) } } }) with clock := n }

/-- Each state of a wavelength with its timers due and not; its lease revoked and its light lost; a lane request that
can be granted; a grant; a controller that waits for one and gives up. -/
theorem witness_WavelengthsFollowTheLight :
    (let s := lighted false .dark 0
     (s.port 31).en = false ∧ (s.port 31).peerAt 0 = some s.pkg.peer.toNat ∧ s.hostRefusal 0 true (plitReg 31) = 0 ∧
     s.foreign (tidOf 0 0) (plitReg 31) = false ∧ (0x00FE : BitVec 16).getLsbD 0 = false ∧
     ((List.range 16).filter (0x01FE : BitVec 16).getLsbD).length ≤ 8 ∧ s.fab.jobs = [] ∧ s.fab.laneRequests = []) ∧
    (let x (n : Nat) := ((lighted true .training n).port 31).slot 15
     (x 0).light = .training ∧ 1199 < (x 0).since + 1200 ∧ (x 0).since + 1200 ≤ 1200 ∧ 4799 < (x 0).since + 4800 ∧
     (x 0).since + 4800 ≤ 4800 ∧ (((lighted true .draining 0).port 31).slot 15).light = .draining ∧
     (¬ ∃ c ∈ (lighted true .draining 0).fab.conns.cells, ∃ o ∈ c.2.sent, o.flit.port = 31 ∧ o.flit.wave = 15 ∧ o ∉ c.2.again)) ∧
    (let s := lighted true .lit 0
     let f : Flit := { typ := 0x13, src := 7, hdl := 15, len := 31 }
     f.aux ≠ 5 ∧ s.fab.en = true ∧ f.crcOk = true ∧ f.tagOk = true ∧ f.dst = s.pkg.peer.toNat ∧
     ((s.port f.port).lane f.wave).assigned = true ∧ (s.port 31).reaches 15 = some f.src ∧
     ((s.port 31).slot 15).light = .lit ∧ ((s.port 31).slot 15).base = false ∧ ((s.port 31).slot 15).lease = some (f.qd, f.src) ∧
     (s.port 31).txf.getLsbD 15 = false ∧ 31 / 8 = 15 / 4 ∧ 15 / 4 = 15 % 4 ∧ ((s.port 31).lane 15).assigned = false ∧
     ((s.port 0).lane 0).los = false) ∧
    (let s := lighted true .lit 0
     (s.port 31).hears 1 = some 7 ∧ ((s.port 31).lane 1).assigned = false ∧ (s.port 31).rxHeld < 8) ∧
    (let s : State := { (lighted true .dark 240000).setThread 0 { life := .parked, wait := some (.lease 7 4) } with
       fab := { (lighted true .dark 0).fab with jobs := [leaseJob] } }
     s.fab.jobs = [leaseJob] ∧ leaseJob.victim = none ∧ ((s.port 31).slot 15).light = .dark ∧ leaseJob.lit = [] ∧
     leaseJob.since + s.fab.fto * 2400 ≤ s.clock ∧ 239999 < leaseJob.since + s.fab.fto * 2400 ∧
     (s.thread 0).waits = some (.lease leaseJob.peer 4) ∧ s.savedWait 0 = none ∧ s.heldBy 0 7 < 64) := by
  refine ⟨?_, ?_, ?_, ?_, ?_⟩ <;> decide +kernel

/-- A command to no slot, to a busy core, to a free slot and to a ready one; slot 3 drained and with a load in flight;
an area whose image of slot 3 has nothing in its ways; a context of the core's own die and of another. -/
theorem witness_ContextsAreSavedAndRestored :
    (let s := having {}
     s.hostRefusal 0 true (coreReg 0 0x10) = 0 ∧ s.foreign (tidOf 0 0) (coreReg 0 0x10) = false ∧ whoIsThread (.host 0) = false ∧
     (0x5000 : Word).extractLsb' 0 4 = 0 ∧ (0x5008 : Word).extractLsb' 0 4 ≠ 0 ∧ (s.core 0).preBusy = false ∧
     (∀ k < 4, (s.thread (tidOf 0 k)).gang = false) ∧ (∀ q, (h : q < 8) → (s.core 0).pumps[q].en = false) ∧
     (s.core 0).mq = [] ∧ s.homeNat (0x5000 + 0x1028) 8 = 0 ∧
     (s.thread (tidOf 0 3)).life = .free ∧ (s.thread (tidOf 0 0)).life = .ready ∧ ({ preBusy := true } : Core).preBusy = true) ∧
    (let y (fl : List Flight) : Thread := { life := .ready, flights := fl }
     let s (fl : List Flight) := (State.reset.setThread (tidOf 0 3) (y fl)).setCore 0
       { preBusy := true, preSlots := 8, preSave := 0x5000 }
     (s []).core 0 = { preBusy := true, preSlots := 8, preSave := 0x5000 } ∧ (8 : BitVec 4) = BitVec.ofNat 4 (2 ^ 3) ∧
     (∀ fl ∈ [[], [({ id := 0, kind := .memory, left := none } : Flight)]],
       (((s fl).thread (tidOf 0 3)).life = .ready ∧ ((s fl).thread (tidOf 0 3)).gang = false ∧ ((s fl).core 0).mq = [] ∧
       ((s fl).core 0).recorded = [] ∧ ((s fl).thread (tidOf 0 3)).deferred = [] ∧ ((s fl).thread (tidOf 0 3)).weft = [] ∧
       ((s fl).thread (tidOf 0 3)).abort = none ∧ ((s fl).thread (tidOf 0 3)).unacked = [] ∧
       ((s fl).thread (tidOf 0 3)).flights = fl ∧ (s fl).reqs = []))) ∧
    (let a := 0x5000
     State.reset.mem.readNat (a + 0x1028) 8 = 0 ∧
     (∀ i < 4, State.reset.mem.readNat (a + 0x1100 + 0x100 * 3 + 0x40 * i + 0x18) 4 = 0) ∧
     (∀ q < 8, State.reset.mem.readNat (a + 0x1600 + 0x40 * q + 0x18) 8 < 2 ^ 63) ∧
     (State.reset.die 0).rdcEpoch ≠ BitVec.allOnes 32) ∧
    ((having {}).hostRefusal 0 true (coreReg 0 0) = 0 ∧ homeDie 0x4000 = some (dieOf 0) ∧ homeDie 0x6000000000 ≠ some (dieOf 0) ∧
      (∀ k < 4, (State.reset.thread (tidOf 0 k)).life = .free)) := by
  refine ⟨?_, ?_, ?_, ?_⟩ <;> decide +kernel

theorem reset_nothing_saved (a j : Nat) : State.reset.savedFrom a j = none := rfl

/-- An area at the start of die 0 whose homes serve and which lies in no window. -/
theorem plain_area (s : State) (h : ∀ d, (s.die d).fw = Vector.replicate 16 {}) (h0 : s.dead 0 = false) : PlainArea s 0x5000 := by
  intro o ho
  have hh : homeDie (0x5000 + o) = some 0 := by
    rw [homeDie, if_pos (by omega)]
    exact congrArg some (by omega)
  exact ⟨no_windows _ h _, by simp [inTier2]; omega, by rw [State.lost, hh]; exact h0⟩

theorem reset_plain_area : PlainArea State.reset 0x5000 := plain_area _ (fun _ => rfl) rfl

theorem having_plain_area (x : Thread) : PlainArea (having x) 0x5000 := plain_area _ (fun _ => rfl) rfl

/-- A walk that finds a leaf and one that finds none; an invalidation that waits for a request; a heartbeat that stops;
a fenced die with a request to its memory; a stopped core and one isolated; a window off and on; links of each kind. -/
theorem witness_DiesTranslateFenceAndRepair :
    (let s := paged State.reset
     (s.die 0).ptEn = true ∧ s.tlbHit 0 0x40 = none ∧ (s.die 0).tlb.cells.length < 32768 ∧
     (match s.walk 0 0x40 with | .leaf e n => decide (e = 0xF ∧ n = 18) | _ => false) = true ∧
     (match s.walk 0 0x200000 with | .fault none => true | _ => false) = true ∧ (State.reset.die 0).ptEn = false) ∧
    (let r := request (.load true) 8 (.mem (leaf 0xF8)) none
     let s : State := { State.reset.setDie 0 { tlbInv := some (BitVec.ofNat 64 (2 ^ 63)), fenced := true } with reqs := [r] }
     (s.die 0).tlbInv = some (BitVec.ofNat 64 (2 ^ 63)) ∧ r ∈ s.reqs ∧ dieOf (coreOf r.tid) = 0 ∧ r.resp = none ∧
     (BitVec.ofNat 64 (2 ^ 63)).getLsbD 63 = true ∧ (s.die 0).fenced = true ∧ (s.die 0).answered = false ∧
     homeDie (leaf 0xF8).pa = some 0 ∧ (State.reset.die 0).tlbInv = none ∧ (State.reset.die 3).fenced = false ∧
     State.reset.hostRefusal 0 true (dieReg 0 0x18) = 0 ∧ State.reset.hostRefusal 0 true (dieReg 3 0x08) = 0) ∧
    (let s := (State.reset.setCore 0 { stopped := true }).setDie 0 { spol := 7 }
     (s.core 0).iso = false ∧ (s.core 0).stopped = true ∧ (s.die 0).spol.getLsbD 0 = true ∧
     (State.reset.core 0).stopped = false ∧ (State.reset.die 0).spol.getLsbD 2 = false ∧
     ((s.setCore 0 { iso := true }).core 0).iso = true ∧ (s.die 0).spol.getLsbD 1 = true ∧ 0 < (s.die 0).spares ∧
     0 % 256 / 8 ∉ (s.die 0).spareUsed ∧ (∀ k < 4, (s.thread (tidOf 0 k)).life = .free)) ∧
    (let w : FormatWindow := { fwctl := 0x1000000000400000, fwlen := 2, fwpk := 0x800000, fwsc := 0x900000 }
     let s := State.reset.setDie 0 { fw := (Vector.replicate 16 {}).set 15 w }
     (s.die 0).fw[15] = w ∧ w.fwctl.getLsbD 63 = false ∧
     (s.die 0).mayEnable 0 15 { w with fwctl := (w.fwctl ||| 1#64 <<< 63) &&& 0xF1FFFFFFFFFFFF00 } = true ∧
     (s.die 0).mayEnable 0 15 { w with fwctl := 0x8000000000400000 } = false ∧
     s.hostRefusal 0 true (dieReg 0 (0x20000 + 0x20 * 15)) = 0 ∧ (s.die 0).container.cells = []) ∧
    ((State.reset.pkg.linksUp.getLsbD 5 = true ∧ State.reset.pkg.linksUp.getLsbD 11 = true ∧ ¬ (6 < 6 ∨ 8 ≤ 6 ∧ 6 < 12)) ∧
      (16 ≤ 23 ∧ 23 < 24 ∧ State.reset.pkg.cxlUp.getLsbD 7 = false ∧ (0x80 : BitVec 8).getLsbD 7 = true) ∧
      (0 / 8 * 8 ∉ State.reset.memBad ∧ 107 < 108 ∧ 107 ≠ 96 ∧ 107 ∉ (State.reset.thread (tidOf 0 0)).badRegs)) := by
  refine ⟨?_, ?_, ?_, ?_, ?_⟩ <;> decide +kernel

/-- Accesses of each size that fit and one that does not; a function in ERROR; a partition that can be made, one whose
die is taken, one that can be destroyed and one that is busy; TDISP states; measurement indices at their bounds. -/
theorem witness_HostsReachMemoryAndPartitions :
    ((∀ n ∈ [1, 2, 4, 8], 0xF8 % n = 0) ∧ (0xC0 % 64 = 0) ∧ ¬ (0xFC % 8 = 0) ∧
      0x100F8 = State.reset.pkg.hmwin[4].toNat * 2 ^ 36 + 0x100F8 ∧ State.reset.pkg.stage ≠ 0xFF ∧ (State.reset.part 0).tdi = 0 ∧
      State.reset.watched none 0xF8 8 = false) ∧
    (let s := State.reset.modPkg (fun p => { p with parts := p.parts.set 0 { en := true, dies := 1 } })
     HostMay s 0 (0x100 + 8 * 3) ∧ (s.pkg.parts[3].en = false ∧ s.pkg.parts[3].busy = false ∧ s.pkg.parts[3].tdi = 0) ∧
     (0xE : Word).extractLsb' 0 4 ≠ 0 ∧ (∀ r, (h : r < 4) → r ≠ 3 → s.pkg.parts[r].en = true → s.pkg.parts[r].dies &&& 0xE = 0) ∧
     s.pkg.parts[0].dies &&& 0xF ≠ 0 ∧ HostMay s 0 (0x100 + 8 * 0) ∧ s.pkg.parts[0].en = true ∧
     (1 : Word).extractLsb' 0 4 = s.pkg.parts[0].dies ∧ (2 : Word).extractLsb' 0 4 ≠ s.pkg.parts[0].dies) ∧
    (let s := State.reset.modPkg (fun p => { p with
       sessions := 1, stage := 5, parts := p.parts.set 3 { en := true, dies := 1, tdi := 1, busy := true, work := 1 } })
     s.pkg.parts[3].busy = true ∧ s.pkg.parts[3].tdi = 1 ∧ s.pkg.parts[0].tdi = 0 ∧ s.pkg.parts[0].en = true ∧
     s.pkg.parts[0].busy = false ∧ s.pkg.sessions ≠ 0 ∧ State.reset.pkg.sessions = 0 ∧ s.pkg.stage ≠ 1 ∧ State.reset.pkg.stage = 1 ∧
     s.pkg.parts[3].work ≠ 2 ∧ s.pkg.parts[3].strEn = false) ∧
    ((3 : Nat) < 4 ∧ 4095 < 4096 ∧ 1 < 2 ∧ ¬ 2 < 2 ∧ (0x10 ≤ 0x13 ∧ 0x13 ≤ 0x13) ∧ ¬ (1 ≤ 0x14 ∧ 0x14 ≤ 3 ∨ 0x10 ≤ 0x14 ∧ 0x14 ≤ 0x13)) := by
  unfold HostMay; refine ⟨?_, ?_, ?_, ?_⟩ <;> decide +kernel

theorem witness_HostsReachMemoryAndPartitions_access : Serves State.reset 0 0xF8 8 ∧ Serves State.reset 0 0xC0 64 ∧
    ∀ k, (State.reset.thread k).life = .free :=
  ⟨⟨0, by decide +kernel⟩, ⟨0, by decide +kernel⟩, fun _ => rfl⟩

/-- PERST# asserted and not; each stage that an event reads; images that start well and do not; a die powered off, one
that may be, and one that may not; temperatures on both sides of the trip; a frame of the die's own and of another;
signals due and not. -/
theorem witness_PackagesStartAndChangePower :
    (State.reset.pkg.perst = false ∧ ({ State.reset.pkg with perst := true } : Package).perst = true ∧
      HostMay State.reset 0 0x310 ∧ State.reset.pkg.stage ≠ 3) ∧
    (let m := ((({} : Memory).writeNat 0 4 0x57464B47).writeNat 4 4 1).writeNat 8 8 0x4000000
     let s := State.reset.modPkg (fun p => { p with stage := 3, staging := m, fwlen := 0x4000000 })
     HostMay s 0 0x310 ∧ s.pkg.stage = 3 ∧ s.pkg.staging.readNat 0 4 = 0x57464B47 ∧ s.pkg.staging.readNat 4 4 = 1 ∧
     s.pkg.staging.readNat 8 8 = s.pkg.fwlen ∧ s.pkg.fwlen ≤ 0x4000000 ∧ ({} : Memory).readNat 0 4 ≠ 0x57464B47) ∧
    ((∀ n ∈ [5, 6], ({ stage := BitVec.ofNat 8 n } : Package).stage.toNat = n) ∧ State.reset.pkg.stage ≠ 5 ∧ State.reset.pkg.stage ≠ 6 ∧
      (State.reset.die 0).live = true ∧ ({ live := false } : Die).live = false) ∧
    (let s := State.reset.setDie 3 { fenced := true, trArm := true, ttrip := 100, pwrBusy := false }
     HostMay s 0 (0x200 + 8 * 3) ∧ (s.die 3).fenced = true ∧ (s.die 3).pwrState ≠ 3 ∧ (s.die 3).pwrBusy = false ∧
     (State.reset.die 3).fenced = false ∧ ({ pwrState := 3 } : Die).pwrState = 3 ∧ (∃ k < 8, ((s.cluster (8 * 3 + k)).now s.clock).fen = false) ∧
     (s.die 3).trArm = true ∧ (99 : BitVec 16).toInt < (s.die 3).ttrip.toInt ∧ (s.die 3).ttrip.toInt ≤ (100 : BitVec 16).toInt ∧
     (∀ n < 4, ({ pwrBusy := true, pwrTgt := BitVec.ofNat 2 n } : Die).pwrTgt.toNat = n) ∧ (s.die 3).container.cells = []) ∧
    (HostMay State.reset 0 (0x3008C0 + 8 * 3) ∧ (State.reset.die 3).freeFrames.length < 64 ∧
      homeDie (0x12000040000 / 2 ^ 18 % 2 ^ 30 * 2 ^ 18) = some 3 ∧ homeDie (0 / 2 ^ 18 % 2 ^ 30 * 2 ^ 18) ≠ some 3 ∧
      64 ≤ (List.replicate 64 0).length) ∧
    (HostMay State.reset 0 0x28 ∧ HostMay State.reset 0 0 ∧ State.reset.pkg.dispatched = false ∧ (having {}).me.life ≠ .free) ∧
    (let r : EventRing := { signal := true, signalled := 100 }
     r.signal = true ∧ r.signalled + 2400 ≤ 2500 ∧ 2499 < r.signalled + 2400 ∧ r.signalled ≠ 0 ∧ 5 ≤ 5 ∧ 4 < 5) := by
  unfold HostMay; refine ⟨?_, ?_, ?_, ?_, ?_, ?_, ?_⟩ <;> decide +kernel

/-- A region of the last bytes of die 0 that may be registered by the host and by a handler, one without bytes, one
that is valid; a revocation that is over and one that is not; a page accessed often enough and not, with and without a
free frame; a migration that succeeds and one that fails. -/
theorem witness_RegionsAreRegisteredAndPagesMigrate :
    (let r : Region := { base := 0x5FFFFFFF00, len := 0x100 }
     let s := (having { mode := true }).modFab (fun b => { b with regs := ({} : Tab Region).put 0xFFE r })
     s.region 0xFFE = r ∧ s.hostRefusal 1 true (regionReg 0xFFE 0x10) = 0 ∧ s.foreign (tidOf 0 0) (regionReg 0xFFE 0x10) = false ∧
     r.drain = false ∧ (s.thread (tidOf 0 0)).mode = true ∧ 0 = s.partOf (tidOf 0 0) ∧ r.v = false ∧ 0 < r.len ∧
     r.base.toNat + r.len ≤ 0x18000000000 ∧ r.base.toNat / 0x6000000000 = 0 ∧ (r.base.toNat + r.len - 1) / 0x6000000000 = 0 ∧
     s.owner 0 = some 0 ∧ (∀ c ∈ s.fab.regs.cells, c.1 ≠ 0xFFE → c.2.v = true → c.2.part = 0 →
       r.base.toNat + r.len ≤ c.2.base.toNat ∨ c.2.base.toNat + c.2.len ≤ r.base.toNat) ∧
     (State.reset.region 0xFFE).len = 0 ∧ ({ r with v := true } : Region).v = true ∧ ({ r with v := true } : Region).part = 0) ∧
    (∀ n ∈ [0, 1], ∀ w ∈ [none, some (0, 5)],
      let r := { region true true true with infl := n, waiter := w }
      (regioned r).region 0xFFE = r ∧ r.drain = true ∧ r.infl = n ∧ r.waiter = w) ∧
    (let e := 7 * 2 ^ 52 + 3 * 2 ^ 10 + 0xC0 + 0xB
     let s (n : Nat) (l : List Nat) := { paged State.reset with mem := (paged State.reset).mem.writeNat 0x420000 8 e }.modDie 0
       (fun x => { x with counts := ({} : Tab Nat).put 0 n, freeFrames := l })
     (match (s 8 []).walk 0 0x40 with | .leaf f 18 => decide (f = e) | _ => false) = true ∧ e / 2 ^ 6 % 4 = 3 ∧
     ((s 8 []).die 0).counts.get 0 0 ≤ 2 ^ (e / 2 ^ 10 % 2 ^ 4) ∧ 2 ^ (e / 2 ^ 10 % 2 ^ 4) < ((s 9 []).die 0).counts.get 0 0 ∧
     (s 9 []).reqs = [] ∧ (∀ k < 4, ((s 9 []).die k).migrations = []) ∧ ((s 9 []).die 0).freeFrames = [] ∧
     ((s 9 [0x80000]).die 0).freeFrames = [0x80000]) ∧
    (let m : Migration := { va := 0x40, frame := 0x80000, peer := 7, srcPa := 0 }
     let s := (paged State.reset).modDie 0 (fun x => { x with migrations := [m] })
     (s.die 0).migrations = [m] ∧ (State.reset.die 0).migrations = [] ∧ s.leafAddr 0 (m.va.toNat % 2 ^ 57) = 0x420000 ∧
     m.frame + 0x40000 ≤ 0x420000 ∧ s.pkg.rings[0].log2 = 0) := by
  refine ⟨?_, ?_, ?_, ?_⟩ <;> decide +kernel

/-- Port 31 enabled with wavelength 15 in state `x`, its lane 1 as `r` and `n` lanes from 2 on leased to peer 9 or not
leased, with what the lease controller has in hand. -/
def laned (x : TxSlot) (r : RxLane) (n : Nat) (leased : Bool) (jobs : List LeaseJob) (clock : Nat) : State :=
  let other : RxLane := { assigned := true, lease := if leased then some (1, 9) else none }
  { (lighted true .lit clock).modFab (fun b => { b with
      jobs := jobs, qmax := #v[1, 1, 1, 1]
      ports := b.ports.set 31 { b.ports[31] with
        tx := b.ports[31].tx.set 15 x
        rx := ((List.range n).foldl (fun v k => v.setIfInBounds (k + 2) other) (Vector.replicate 16 {})).set 1 r } }) with clock := clock }
/-- An LCTL flit of peer 7 on a known lane. -/
def told (use p k q : Nat) : Flit := { lctl use q p k with src := 7 }

/-- What a peer says of a wavelength that this package drives (lit and leased, dark) and of a lane that it drives: one that
is free with lanes to spare, with a victim and with none, one of another's lease that gives it up and that keeps it, one
that is not leased, one that its sender releases; a lane request behind a job, and the grant that a job waits for. -/
theorem witness_WavelengthsFollowTheLight_lanes :
    (∀ use ∈ [useRevocation, useLoss], ∀ l ∈ [Light.lit, .dark],
      let s := laned { light := l, lease := some (0, 7) } {} 0 false [] 0
      Says s (told use 31 15 0) use 31 15 0 ∧ (s.port 31).reaches 15 = some 7 ∧ ((s.port 31).slot 15).light = l ∧
      ((s.port 31).slot 15).base = false ∧ ((s.port 31).slot 15).lease = some (0, (told use 31 15 0).src)) ∧
    (∀ use ∈ [useRequest, useRelease, useRefusal, useGrant],
      Says (laned {} {} 0 false [] 0) (told use 31 1 0) use 31 1 0) ∧
    (let s (r : RxLane) (n : Nat) (l : Bool) := laned {} r n l [] 0
     let other : RxLane := { assigned := true, lease := some (1, 9) }
     (∀ n, ((s {} n true).port 31).en = true) ∧ ((s {} 0 true).port 31).hears 1 = some 7 ∧
     ((s {} 7 true).port 31).lane 1 = {} ∧ ((s {} 7 true).port 31).rxHeld < 8 ∧ 8 ≤ ((s {} 8 true).port 31).rxHeld ∧
     ((s {} 8 true).rxVictim 31 0 7).isSome = true ∧ (s {} 8 false).rxVictim 31 0 7 = none ∧
     ((s other 7 true).port 31).lane 1 = other ∧ (s other 7 true).revocable 1 ((s other 7 true).rxHeldBy 1 9) 0
       ((s other 7 true).rxHeldBy 0 7) = true ∧
     (s other 0 true).revocable 1 ((s other 0 true).rxHeldBy 1 9) 0 ((s other 0 true).rxHeldBy 0 7) = false ∧
     ((s { assigned := true } 0 true).port 31).lane 1 = { assigned := true } ∧
     (∀ h ∈ [none, some (1, 9)], ((s { assigned := true, lease := some (0, 7), revoked := true, heir := h } 0 true).port 31).lane 1 =
       { assigned := true, lease := some (0, 7), revoked := true, heir := h }) ∧
     (s {} 0 true).fab.laneRequests = [] ∧ (s {} 0 true).fab.laneWaits = [] ∧ (s {} 0 true).fab.jobs = []) ∧
    (let s := laned {} {} 0 false [leaseJob] 0
     s.fab.jobs = [leaseJob] ∧ leaseJob.begun = true ∧ leaseJob.phase = 1 ∧ leaseJob.victim = none ∧
     Says s (told useGrant 31 15 0) useGrant 31 15 0 ∧ Says s (told useRequest 31 1 0) useRequest 31 1 0 ∧
     ((s.port 31).slot 15).light = .dark ∧ (s.port 31).txf.getLsbD 15 = false) ∧
    (let j := { leaseJob with port := 30 }
     let s := laned {} {} 0 false [j] 240000
     s.fab.jobs = [j] ∧ j.since + s.fab.fto * 2400 ≤ s.clock ∧ (s.port 31).en = true ∧ 15 ≠ (s.port 31).pos ∧
     (s.port 31).peerAt 15 = some j.peer ∧ (∀ a < 15, a = (s.port 31).pos ∨ (s.port 31).peerAt a ≠ some j.peer) ∧
     15 = (15 + 16 - (s.port 31).pos) % 16 ∧ (s.port 31).slot 15 = { since := ((s.port 31).slot 15).since } ∧
     (s.port 31).base.getLsbD 15 = false ∧ (s.port 31).txf.getLsbD 15 = false ∧ s.heldBy j.part j.peer < j.n ∧
     s.heldAll j.part < s.qmaxOf j.part ∧ (s.port 31).txHeld < 8 ∧
     (s.sendPair j.peer (lctl useRequest j.part 31 15)).isSome = true) := by
  unfold Says
  refine ⟨by decide +kernel, by decide +kernel, ⟨fun _ => rfl, ?_⟩, ?_, ?_⟩ <;> decide +kernel

/-- A record that is malformed; a join of the last set that leaves its one barrier's phase, and one that completes it. -/
theorem witness_FuturesSetsAndScoreboard_rest :
    (let s := records {} 0 0 1
     0x1F < (s.cluster 0).lrCount ∧ s.recState 0 0x1F = 0 ∧ s.malformed 0 0x1F = true) ∧
    (∀ n ∈ [2, 3],
      let b : Barrier := { bound := true, set := 255, arrived := n }
      let s := (having (three 0xF2000000000607F8 0 0)).setCluster 0
        { sets := ({} : Tab Nat).put 255 2, bars := ({} : Tab Barrier).put 0 b }
      (s.cluster 0).bars.cells = [(0, b)] ∧ b.bytes = 0 ∧ s.setCount 0 255 = 2 ∧ 2 ≠ 0xFFFF ∧
      (n = 2 → b.arrived ≤ s.setCount 0 255) ∧ (n = 3 → b.arrived = s.setCount 0 255 + 1)) := by
  refine ⟨?_, ?_⟩ <;> decide +kernel

/-- Two descriptors in the own scratchpad, for the last two entries. -/
theorem witness_TriggerEntriesArmFireAndEnd_two :
    let m := (({} : Memory).writeNat 0x1000 8 armingWord.toNat).writeNat 0x1020 8 armingWord.toNat
    let s := (ranged (three 0xF000000000001000 0x13FFE 0)).setCore 0 { scratch := m }
    (s.rd 2).toNat % 2 ^ 14 = 0x3FFE ∧ (s.rd 2).toNat / 2 ^ 16 % 2 ^ 14 + 1 = 2 ∧ (s.rd 2).toNat < 2 ^ 30 ∧
    (s.rd 2).toNat / 2 ^ 14 % 4 = 0 ∧ 0x3FFE + 2 ≤ 2 ^ 14 ∧ Drained s ∧ s.reqs = [] ∧
    (∀ k < 2, (s.trg.range (s.partOf s.cur)).hasEntry (0x3FFE + k) = true ∧ (s.entry (0x3FFE + k)).state = 0 ∧
      le (s.core s.myCore).scratch (0x1000 + 32 * k) 8 = 8 * 2 ^ 60 + 4095 * 2 ^ 48 + 5 ∧
      ∀ j, 8 ≤ j → j < 32 → (s.core s.myCore).scratch.read (0x1000 + 32 * k + j) = 0) ∧
    (s.counter 4095).value.toNat < 5 := by
  unfold Drained; decide +kernel

/-- A NAK with no retry left; a connection without a route that has an operation in progress, and one that is idle. -/
theorem witness_ResponsesReachTheirOperations_spent :
    let m : Outbound := { flit := { typ := 1, seq := 0xFFFFFF }, op := some 9 }
    let s := operating (operation .put) { cached := true, sent := [m], goBacks := 8 }
    Intact s { incoming 0 [] with seq := 0xFFFFFF } ∧ (s.conn 0 7).sent ≠ [] ∧ s.fab.retry ≤ (s.conn 0 7).goBacks ∧
    OnlyThreadOps s ∧ (s.conn 0 7).held = none := by
  unfold Intact OnlyThreadOps
  refine ⟨by decide +kernel, by decide +kernel, by decide +kernel, ?_, rfl⟩
  intro o h
  simp [operating, wired, reaching, State.modFab] at h
  subst h
  exact ⟨by decide, 0, 3, rfl⟩

theorem witness_ConnectionsSendAndRecover_routeless :
    let s := (operating (operation .get) {}).modFab (fun b => { b with ports := Vector.replicate 32 {} })
    s.hasRoute 0 7 = false ∧ s.trg.groups.cells = [] ∧ OnlyThreadOps s ∧ (s.conn 0 7).held = none ∧
    (∃ o ∈ s.fab.ops, o.part = 0 ∧ o.peer = 7 ∧ ¬ (o.failed = true ∨ o.finished = true)) ∧
    (s.conn 0 8).again = [] ∧ (s.conn 0 8).urgent = [] ∧ (s.conn 0 8).sent = [] := by
  have h : ∀ o ∈ ((operating (operation .get) {}).modFab (fun b => { b with ports := Vector.replicate 32 {} })).fab.ops,
      o = operation .get := fun o h => by simpa [operating, wired, reaching, State.modFab, State.fab] using h
  exact ⟨by decide +kernel, rfl, fun o ho => by rw [h o ho]; exact ⟨by decide, 0, 3, rfl⟩, rfl,
    ⟨operation .get, List.mem_singleton.mpr rfl, by decide +kernel⟩, rfl, rfl, rfl⟩

/-- A package below the root, without children, whose parent tells it that the tree has failed. -/
theorem witness_CollectivesQueueWaitAndAbort_told :
    let x : Group := { gathers [coll true []] 0 with root := false, parent := 7 }
    GroupReady (grouped x) 0 255 x ∧ x.colls = [coll true []] ∧ (coll true []).seq = 6 ∧ (coll true []).cen = false ∧
    (coll true []).entry = none ∧ x.cmask = 0 ∧ x.aborts = [] ∧ x.inbox = [] ∧ x.tails = [] ∧
    NextInOrder (grouped x) (incoming 255 (leBytes 4 6 ++ leBytes 2 9 ++ [2])) := by
  unfold NextInOrder Intact
  exact ⟨grouped_ready _ (by decide +kernel), by decide +kernel⟩

/-- A copy whose source row leaves the scratchpad. -/
theorem witness_EnginesCopyAndGather_source :
    let c := { copy 0xF000000000000000 with src := BitVec.ofNat 64 (0xF0 * 2 ^ 56 + 0x5FFE0) }
    let x : Channel := { copies := [c] }
    let D : Die := { channels := ({} : Tab Channel).put 63 x }
    let s := (having {}).setDie 0 D
    s.dies.cells = [(0, D)] ∧ D.channels.cells = [(63, x)] ∧ x.copies = [c] ∧ x.col = 0 ∧ x.bytes = none ∧ x.reqs = [] ∧
    c.rowSrc x.row = BitVec.ofNat 64 (0xF0 * 2 ^ 56 + 0x5FFE0) ∧ 0x5FFE0 < 0x60000 ∧ 0x60000 < 0x5FFE0 + c.rlen ∧
    s.stillRuns c.core c.slot c.taskix = true ∧ (∀ k ∈ x.copies, k.tag = none ∧ k.slot < 4) := by decide +kernel

/-- A queued invalidation, and one that an operation of the fabric holds. -/
theorem witness_DiesTranslateFenceAndRepair_held :
    let s := (operating (operation .put) {}).setDie 0 { tlbInv := some 0 }
    (s.die 0).tlbInv = some 0 ∧ s.fab.ops = [operation .put] ∧ dieOf (operation .put).core = 0 ∧ (operation .put).spans ≠ [] ∧
    s.foreign (tidOf 0 0) (dieReg 0 0x18) = false ∧ s.hostRefusal 0 true (dieReg 0 0x18) = 0 := by decide +kernel

/-- Pairing succeeds or fails; a write of the last register of the window. -/
theorem witness_HostsReachMemoryAndPartitions_pairing :
    (Config.exchangePasses State.reset.free = false ∨ Config.exchangePasses State.reset.free = true) ∧ 4095 < 4096 ∧
    0x3FFFFF8 < 0x4000000 ∧ 0x3FFFFF8 % 8 = 0 :=
  ⟨by cases Config.exchangePasses State.reset.free <;> simp, by decide, by decide, by decide⟩

/-- An image in VERIFY whose header is good, and one whose header is not; the section table of the good one holds what
R367 asks for. -/
theorem witness_PackagesStartAndChangePower_verify :
    let m0 := ((({} : Memory).writeNat 0 4 0x57464B47).writeNat 4 4 1).writeNat 8 8 0x2000
    let m := (List.range 3).foldl (fun m i => (m.writeNat (0x1D20 + 16 * i) 4 (i + 1)).writeNat (0x1D28 + 16 * i) 4 0x1E20) m0
    let s (b : Memory) := State.reset.modPkg (fun p => { p with stage := 4, staging := b, fwlen := 0x2000 })
    (s m).pkg.stage = 4 ∧ (le m 0 4 = 0x57464B47 ∧ le m 4 4 = 1 ∧ le m 8 8 = (s m).pkg.fwlen ∧ (s m).pkg.fwlen ≤ 0x4000000) ∧
    le ({} : Memory) 0 4 ≠ 0x57464B47 ∧
    (∀ i < 16, le m (0x1D20 + 16 * i) 4 ≠ 0 → le m (0x1D28 + 16 * i) 4 + le m (0x1D2C + 16 * i) 4 ≤ (s m).pkg.fwlen) ∧
    (∀ k ∈ [1, 2, 3], ∃ i < 16, le m (0x1D20 + 16 * i) 4 = k ∧ ∀ j < 16, le m (0x1D20 + 16 * j) 4 = k → j = i) ∧
    State.reset.pkg.stage ≠ 4 := by decide +kernel

/-- A migration that has begun with its operation unfinished, refused, failed, and answered; one that waits for an access
to its page. -/
theorem witness_RegionsAreRegisteredAndPagesMigrate_copy :
    (let m : Migration := { va := 0x40, frame := 0x80000, peer := 7, srcPa := 0 }
     let o : RemoteOp := { operation .page with owner := .frame 0, x := 0x40 }
     let s := ((paged State.reset).modDie 0 (fun x => { x with migrations := [m] })).modFab (fun b => { b with ops := [o] })
     (s.die 0).migrations = [m] ∧ m.begun = true ∧ s.fab.ops = [o] ∧ o.owner = .frame 0 ∧ pageOf o.x = pageOf m.va ∧
     o.failed = false ∧ o.refused = none ∧ o.answered = false ∧ ({ o with answered := true } : RemoteOp).answered = true ∧
     ({ o with failed := true } : RemoteOp).failed = true ∧ ({ o with refused := some (1, 0) } : RemoteOp).refused ≠ none ∧
     [(5 : Byte)] ≠ m.bytes) ∧
    (let r := { request (.load true) 8 (.far (leaf 0xF8)) none with va := 0x40, sent := true }
     let s : State := { paged State.reset with reqs := [r] }
     r ∈ s.reqs ∧ s.partOf r.tid = (s.die 0).part ∧ r.sent = true ∧ r.resp = none ∧ pageOf r.va = 0x40 / 2 ^ 18) := by
  refine ⟨?_, ?_⟩ <;> decide +kernel

end Sys2Proof.Tests
end

section
/-! Proofs, family 01 (thread): laws that the statements about traps, calls, state registers and window transfers share. -/

namespace Sys2Proof.Machine

/-! ### Memory at its home touches memory, dies and Selvedge alone (R171, R267, R356, R371) -/

/-- `s` with the memory, the dies, Selvedge, the clock and the free values of `h`: all that an access at a home reads or
changes. -/
def State.withHome (s h : State) : State :=
  { s with mem := h.mem, memBad := h.memBad, tierKeys := h.tierKeys, dies := h.dies, pkg := h.pkg, free := h.free
           clock := h.clock }

@[simp] theorem State.withHome_self (s : State) : s.withHome s = s := rfl
@[simp] theorem State.withHome_thread (s h : State) (k : Nat) : (s.withHome h).thread k = s.thread k := rfl
@[simp] theorem State.withHome_cores (s h : State) : (s.withHome h).cores = s.cores := rfl
@[simp] theorem State.withHome_die (s h : State) (d : Nat) : (s.withHome h).die d = h.die d := rfl
@[simp] theorem State.withHome_memBad (s h : State) : (s.withHome h).memBad = h.memBad := rfl
@[simp] theorem State.withHome_pkg (s h : State) : (s.withHome h).pkg = h.pkg := rfl
@[simp] theorem State.withHome_lost (s h : State) (a : Nat) : (s.withHome h).lost a = h.lost a := rfl
@[simp] theorem State.withHome_windowOf (s h : State) (a : Nat) : (s.withHome h).windowOf a = h.windowOf a := rfl
@[simp] theorem State.withHome_modDie (s h : State) (d : Nat) (f : Die → Die) :
    (s.withHome h).modDie d f = s.withHome (h.modDie d f) := rfl
@[simp] theorem State.withHome_healMem (s h : State) (a n : Nat) :
    (s.withHome h).healMem a n = s.withHome (h.healMem a n) := rfl
@[simp] theorem State.withHome_writeContainer (s h : State) (w : FormatWindow) (a : Nat) (l : List Byte) :
    (s.withHome h).writeContainer w a l = s.withHome (h.writeContainer w a l) := rfl

theorem State.withHome_cleanContainer (s h : State) (d a : Nat) (keep : Bool) :
    (s.withHome h).cleanContainer d a keep = s.withHome (h.cleanContainer d a keep) := by
  unfold State.cleanContainer
  simp only [State.withHome_die]
  split
  · split_ifs <;> rfl
  · rfl

theorem State.withHome_l2Room (s h : State) (d k : Nat) :
    (s.withHome h).l2Room d k = s.withHome (h.l2Room d k) := by
  unfold State.l2Room
  simp only [State.withHome_die, State.withHome_cleanContainer]
  split_ifs <;> rfl

theorem State.withHome_fillLine (s h : State) (d : Nat) (w : FormatWindow) (a : Nat) :
    (s.withHome h).fillLine d w a = s.withHome (h.fillLine d w a) := by
  unfold State.fillLine
  simp only [State.withHome_die, State.withHome_l2Room]
  split <;> rfl

theorem State.withHome_tierWrite (s h : State) (a : Nat) (bs : List Byte) :
    (s.withHome h).tierWrite a bs = s.withHome (h.tierWrite a bs) := by
  unfold State.tierWrite
  have hs : (s.withHome h).strOwner a = h.strOwner a := rfl
  rw [hs]
  split
  · rfl
  · have hk : (s.withHome h).keyAt a = h.keyAt a := rfl
    have ho : ∀ q, (s.withHome h).keyOf q = h.keyOf q := fun _ => rfl
    rw [hk, ho]
    split_ifs <;> rfl

theorem State.withHome_homeWrite (s h : State) (a : Nat) (bs : List Byte) :
    (s.withHome h).homeWrite a bs = s.withHome (h.homeWrite a bs) := by
  unfold State.homeWrite
  simp only [State.withHome_lost, State.withHome_windowOf, State.withHome_fillLine, State.withHome_healMem,
    State.withHome_modDie, State.withHome_tierWrite]
  split
  · rfl
  · split
    · rfl
    · split_ifs <;> rfl

theorem State.withHome_homeWriteAll (s h : State) (a : Nat) (bs : List Byte) :
    (s.withHome h).homeWriteAll a bs = s.withHome (h.homeWriteAll a bs) := by
  unfold State.homeWriteAll
  generalize linePieces _ _ _ = l
  induction l generalizing h with
  | nil => rfl
  | cons p l ih => rw [List.foldl_cons, State.withHome_homeWrite, ih, List.foldl_cons]

theorem State.withHome_ringPut (s h : State) (f w a b : Nat) :
    (s.withHome h).ringPut f w a b = s.withHome (h.ringPut f w a b) := by
  unfold State.ringPut
  by_cases hf : f < 5
  · simp only [dif_pos hf, apply_ite s.withHome]
    refine ite_congr rfl (fun _ => rfl) (fun _ => ?_)
    rw [State.withHome_homeWriteAll]
    rfl
  · simp only [dif_neg hf]

/-- An event changes the home of memory and Selvedge, from what they hold alone (R371). -/
theorem State.withHome_postEvent (s h : State) (d : Option Nat) (k : Nat) (a b : Word) :
    (s.withHome h).postEvent d k a b = s.withHome (h.postEvent d k a b) := by
  unfold State.postEvent
  cases d with
  | none => exact s.withHome_ringPut h _ _ _ _
  | some d =>
    simp only [State.withHome_ringPut, apply_ite s.withHome]
    exact ite_congr rfl (fun _ => rfl) (fun _ => rfl)

/-- What an event leaves alone. -/
theorem State.postEvent_frame (s : State) (d : Option Nat) (k : Nat) (a b : Word) :
    s.postEvent d k a b = s.withHome (s.postEvent d k a b) := s.withHome_postEvent s d k a b


/-! ### Numbers put together from fields -/

theorem toNat_append_eq_add {m n : Nat} (x : BitVec m) (y : BitVec n) :
    (x ++ y).toNat = x.toNat * 2 ^ n + y.toNat := by
  rw [BitVec.toNat_append, ← Nat.shiftLeft_add_eq_or_of_lt y.isLt, Nat.shiftLeft_eq]

/-- A field of one bit, as its place value. -/
theorem ite_eq_toNat_mul (b : Bool) (n : Nat) : (if b then n else 0) = b.toNat * n := by cases b <;> simp

/-- R20: CAUSE is its four fields side by side. -/
theorem causeFields_eq (code sub : BitVec 8) (defr mult : Bool) :
    BitVec.ofNat 64 (code.toNat + sub.toNat * 256 + (if defr then 0x10000 else 0) + (if mult then 0x20000 else 0)) =
      (BitVec.ofBool mult ++ BitVec.ofBool defr ++ sub ++ code).zeroExtend 64 := by
  apply BitVec.eq_of_toNat_eq
  simp only [BitVec.toNat_ofNat, BitVec.truncate_eq_setWidth, BitVec.toNat_setWidth, toNat_append_eq_add,
    BitVec.toNat_ofBool, ite_eq_toNat_mul]
  congr 1
  ring

/-! ### Traps (R23–R27) -/

@[simp] theorem State.thread_dropWaits (s : State) (tid k : Nat) : (s.dropWaits tid).thread k = s.thread k := rfl

/-- R26: outside a gang a halt stops the slot and posts one event. -/
theorem State.halt_alone (s : State) (tid : Nat) (t : Trap) (d m : Bool) (g : (s.thread tid).gang = false) :
    s.halt tid t d m =
      ((s.dropWaits tid).modThread tid
        (fun u => { u with life := .halted, wait := none, haltCause := some t })).withHome
      (s.postEvent (some (dieOf (coreOf tid))) 0x01 (BitVec.ofNat 64 (coreid tid)) (t.causeWord d m)) := by
  simp only [State.halt, s.breakGang_alone tid g]
  exact State.withHome_postEvent
    ((s.dropWaits tid).modThread tid (fun u => { u with life := .halted, wait := none, haltCause := some t })) s _ _ _ _

/-- R26: the slot that halts. -/
theorem State.thread_halt_alone (s : State) (tid : Nat) (t : Trap) (d m : Bool) (g : (s.thread tid).gang = false) :
    (s.halt tid t d m).thread tid = { s.thread tid with life := .halted, wait := none, haltCause := some t } := by
  rw [s.halt_alone tid t d m g, State.withHome_thread, State.thread_modThread, State.thread_dropWaits]

/-- R26: no other slot halts with it. -/
theorem State.thread_halt_alone_other (s : State) (tid k : Nat) (t : Trap) (d m : Bool)
    (g : (s.thread tid).gang = false) (hk : k ≠ tid) : (s.halt tid t d m).thread k = s.thread k := by
  rw [s.halt_alone tid t d m g, State.withHome_thread, State.thread_modThread_other _ _ _ _ hk, State.thread_dropWaits]

/-! ### The end of a gang (R27, R143) -/

/-- R143: one member `m` of the gang that the trap of `tid` breaks. -/
def State.abortMember (tid : Nat) (s : State) (m : Nat) : State :=
  if m = tid || !s.sameGang tid m then s
  else s.modThread m (fun u => { u with pc := s.boundaryPc m, abort := some (u.abort.getD (coreOf tid)) })

theorem State.breakGang_eq (s : State) (tid : Nat) (g : (s.thread tid).gang = true) :
    s.breakGang tid = ((s.gangOf tid).foldl (State.abortMember tid) s).modThread tid
      (fun u => { u with gang := false, gangIx := 0, gangSz := 1, weft := [], abort := none }) := by
  simp only [State.breakGang, g, if_true]
  rfl

/-- What the signal leaves of a thread. -/
theorem State.thread_abortMember (tid : Nat) (s : State) (m k : Nat) :
    (State.abortMember tid s m).thread k =
      { s.thread k with pc := ((State.abortMember tid s m).thread k).pc
                        abort := ((State.abortMember tid s m).thread k).abort } := by
  unfold State.abortMember
  split_ifs
  · rfl
  · by_cases h : k = m
    · subst h; rw [State.thread_modThread]
    · rw [State.thread_modThread_other _ _ _ _ h]

theorem State.sameGang_abortMember (tid : Nat) (s : State) (m a b : Nat) :
    (State.abortMember tid s m).sameGang a b = s.sameGang a b := by
  unfold State.sameGang
  rw [State.thread_abortMember tid s m a, State.thread_abortMember tid s m b]

/-- A thread that is the trapping one or of another gang gets no signal. -/
theorem State.thread_abortMember_outside (tid : Nat) (s : State) (m k : Nat)
    (h : k = tid ∨ s.sameGang tid k = false) : (State.abortMember tid s m).thread k = s.thread k := by
  unfold State.abortMember
  split_ifs with hm
  · rfl
  · refine State.thread_modThread_other _ _ _ _ ?_
    rintro rfl
    simp only [Bool.or_eq_true, decide_eq_true_eq, Bool.not_eq_true', not_or, Bool.not_eq_false] at hm
    rcases h with h | h
    · exact hm.1 h
    · simp [h] at hm

theorem State.thread_abortMembers_outside (tid : Nat) (l : List Nat) (s : State) (k : Nat)
    (h : k = tid ∨ s.sameGang tid k = false) : (l.foldl (State.abortMember tid) s).thread k = s.thread k := by
  induction l generalizing s with
  | nil => rfl
  | cons m l ih =>
    rw [List.foldl_cons, ih _ (by rwa [State.sameGang_abortMember]), State.thread_abortMember_outside tid s m k h]

theorem State.mode_abortMembers (tid : Nat) (l : List Nat) (s : State) (k : Nat) :
    ((l.foldl (State.abortMember tid) s).thread k).mode = (s.thread k).mode := by
  induction l generalizing s with
  | nil => rfl
  | cons m l ih => rw [List.foldl_cons, ih, State.thread_abortMember]

/-- R143: every other member has the signal pending, the first that reached it. -/
theorem State.abort_abortMembers (tid : Nat) (l : List Nat) (s : State) (k : Nat) (hk : k ≠ tid)
    (h : s.sameGang tid k = true) : ((l.foldl (State.abortMember tid) s).thread k).abort =
      if k ∈ l then some ((s.thread k).abort.getD (coreOf tid)) else (s.thread k).abort := by
  induction l generalizing s with
  | nil => rfl
  | cons m l ih =>
    have hm : ((State.abortMember tid s m).thread k).abort =
        if k = m then some ((s.thread k).abort.getD (coreOf tid)) else (s.thread k).abort := by
      by_cases e : k = m
      · subst e; simp [State.abortMember, hk, h]
      · rw [if_neg e]
        unfold State.abortMember
        split_ifs
        · rfl
        · rw [State.thread_modThread_other _ _ _ _ e]
    rw [List.foldl_cons, ih _ (by rwa [State.sameGang_abortMember]), hm]
    by_cases e : k = m <;> by_cases e' : k ∈ l <;> simp [e, e']

end Sys2Proof.Machine
end

section
/-! Proofs, family 01 (thread): laws of scratch frames that the current context owns, of uncorrectable words and of numbers
in bytes (R104, R127, R128). -/

namespace Sys2Proof.Machine

/-! ### Frames and bytes -/

theorem Core.pinned_frame (x : Core) (f : Nat) (h : f < 24) : x.pinned f = decide (x.frames[f].ctx = some x.sctx) := by
  simp [Core.pinned, h]

/-- Two lists of frames with the same owners. -/
def SameOwners (a b : Vector Frame 24) : Prop := ∀ f (h : f < 24), b[f].ctx = a[f].ctx

theorem pinned_congr {x y : Core} (ho : SameOwners x.frames y.frames) (hs : y.sctx = x.sctx) (f : Nat) :
    y.pinned f = x.pinned f := by
  by_cases h : f < 24
  · rw [Core.pinned_frame _ _ h, Core.pinned_frame _ _ h, ho f h, hs]
  · simp [Core.pinned, h]

/-- A state that differs from `s` in the frames of core `c` alone, not in their owners. -/
def Marks (s t : State) (c : Nat) : Prop :=
  t = { s with cores := t.cores } ∧ (∀ k, k ≠ c → t.core k = s.core k) ∧
  t.core c = { s.core c with frames := (t.core c).frames } ∧ SameOwners (s.core c).frames (t.core c).frames

theorem marks_refl (s : State) (c : Nat) : Marks s s c := ⟨rfl, fun _ _ => rfl, rfl, fun _ _ => rfl⟩

theorem marks_trans {s t u : State} {c : Nat} (h : Marks s t c) (k : Marks t u c) : Marks s u c := by
  obtain ⟨ht, hto, htc, htf⟩ := h
  obtain ⟨hu, huo, huc, huf⟩ := k
  refine ⟨by rw [hu, ht], fun j hj => (huo j hj).trans (hto j hj), by rw [huc, htc], fun f hf => (huf f hf).trans (htf f hf)⟩

/-- R128: an access to a pinned frame marks it at most. -/
theorem State.pinFrame_marks (s : State) (c f : Nat) (w : Bool) (h : (s.core c).pinned f = true) :
    Marks s (s.pinFrame c f w) c := by
  simp only [State.pinFrame, h, if_true]
  cases w with
  | false => exact marks_refl s c
  | true =>
    simp only [if_true]
    refine ⟨rfl, fun k hk => State.core_modCore_other _ _ _ _ hk, ?_, ?_⟩
    · rw [State.core_modCore]
      split_ifs <;> rfl
    · rw [State.core_modCore]
      intro g hg
      by_cases hf : f < 24
      · by_cases e : f = g
        · subst e; simp [hf]
        · simp [hf, e]
      · simp [hf]

theorem State.pinFrames_marks (c o : Nat) (w : Bool) (l : List Nat) (s : State)
    (h : ∀ i ∈ l, (s.core c).pinned (o + i) = true) :
    Marks s (l.foldl (fun s i => s.pinFrame c (o + i) w) s) c := by
  induction l generalizing s with
  | nil => exact marks_refl s c
  | cons i l ih =>
    have hi := s.pinFrame_marks c (o + i) w (h i List.mem_cons_self)
    refine marks_trans hi (ih _ fun j hj => ?_)
    obtain ⟨-, -, hc, ho⟩ := hi
    rw [pinned_congr ho (by rw [hc])]
    exact h j (List.mem_cons_of_mem _ hj)

/-- R128: bytes in pinned frames are reached with no frame swapped. -/
theorem State.pinRange_marks (s : State) (c off n : Nat) (w : Bool)
    (h : ∀ f, off / 0x4000 ≤ f → f ≤ (off + n - 1) / 0x4000 → (s.core c).pinned f = true) :
    Marks s (s.pinRange c off n w) c := by
  unfold State.pinRange
  split_ifs with hn
  · exact marks_refl s c
  · refine State.pinFrames_marks c (off / 0x4000) w _ s fun i hi => h _ (Nat.le_add_right _ _) ?_
    have := List.mem_range.mp hi
    omega

/-- R128: a read of pinned frames changes nothing. -/
theorem State.pinRange_read (s : State) (c off n : Nat)
    (h : ∀ f, off / 0x4000 ≤ f → f ≤ (off + n - 1) / 0x4000 → (s.core c).pinned f = true) :
    s.pinRange c off n false = s := by
  have hall (l : List Nat) (hl : ∀ i ∈ l, (s.core c).pinned (off / 0x4000 + i) = true) :
      l.foldl (fun s i => s.pinFrame c (off / 0x4000 + i) false) s = s := by
    induction l with
    | nil => rfl
    | cons i l ih =>
      rw [List.foldl_cons, State.pinFrame, if_pos (hl i List.mem_cons_self)]
      exact ih fun j hj => hl j (List.mem_cons_of_mem _ hj)
  unfold State.pinRange
  split_ifs with hn
  · rfl
  · refine hall _ fun i hi => h _ (Nat.le_add_right _ _) ?_
    have := List.mem_range.mp hi
    omega

/-! ### Uncorrectable words and watermarks -/

/-- R104: bytes that share no uncorrectable word are all good. -/
theorem firstBad_none (bad : List Nat) (a n : Nat) (h : ∀ w ∈ bad, w + 8 ≤ a ∨ a + n ≤ w) : firstBad bad a n = none := by
  rw [firstBad, List.findSome?_eq_none_iff]
  intro i _
  dsimp only
  rw [if_neg]
  simp only [Bool.and_eq_true, decide_eq_true_eq, List.contains_iff_mem, not_and]
  intro hlt hm
  have := h _ hm
  omega

/-! ### Numbers in bytes -/

theorem Memory.read_writeBytes_inside (m : Memory) (a i : Nat) (bs : List Byte) (h : i < bs.length) :
    (m.writeBytes a bs).read (a + i) = bs[i] := by
  induction bs generalizing m a i with
  | nil => simp at h
  | cons b r ih =>
    cases i with
    | zero => rw [Memory.writeBytes, Memory.read_writeBytes_outside _ _ _ _ (by omega)]; simp
    | succ i =>
      rw [Memory.writeBytes, show a + (i + 1) = a + 1 + i by omega, ih _ _ _ (by simpa using h)]
      rfl

theorem leBytes_getElem? (n w j : Nat) (h : j < n) : (leBytes n w)[j]? = some (BitVec.ofNat 8 (w / 256 ^ j)) := by
  induction n generalizing w j with
  | zero => omega
  | succ n ih =>
    cases j with
    | zero => simp [leBytes]
    | succ j =>
      rw [leBytes, List.getElem?_cons_succ, ih _ _ (by omega), Nat.div_div_eq_div_mul, Nat.pow_succ']

theorem Memory.drop_readBytes (m : Memory) (k : Nat) : ∀ a n, (m.readBytes a n).drop k = m.readBytes (a + k) (n - k) := by
  induction k with
  | zero => exact fun a n => rfl
  | succ k ih =>
    intro a n
    cases n with
    | zero => simp [Memory.readBytes]
    | succ n => rw [Memory.readBytes, List.drop_succ_cons, ih]; congr 1 <;> omega

theorem Memory.take_readBytes (m : Memory) (k : Nat) : ∀ a n, k ≤ n → (m.readBytes a n).take k = m.readBytes a k := by
  induction k with
  | zero => exact fun a n _ => by simp [Memory.readBytes]
  | succ k ih =>
    intro a n h
    cases n with
    | zero => omega
    | succ n => rw [Memory.readBytes, List.take_succ_cons, ih _ _ (by omega)]; rfl

/-- Of pieces of `k` elements each, element `j` of piece `i`. -/
theorem getElem?_flatMap_pieces {α β : Type} (f : α → List β) (k : Nat) (l : List α) (hf : ∀ x, (f x).length = k) :
    ∀ i j, j < k → (l.flatMap f)[k * i + j]? = l[i]?.bind (fun x => (f x)[j]?) := by
  induction l with
  | nil => simp
  | cons x l ih =>
    intro i j hj
    rw [List.flatMap_cons]
    cases i with
    | zero => rw [List.getElem?_append_left (by rw [hf]; omega)]; simp
    | succ i =>
      rw [List.getElem?_append_right (by rw [hf, Nat.mul_succ]; omega), hf,
        show k * (i + 1) + j - k = k * i + j by rw [Nat.mul_succ]; omega, ih i j hj]
      simp

end Sys2Proof.Machine
end

section
/-! Proofs, family 01 (thread): how an instruction ends, in the words of the statements (R22, R28, R33). -/

namespace Sys2Proof.Proofs

open Sys2Proof Sys2Proof.Machine Sys2Proof.Claim

theorem onlyMe_setMe (s : State) (x : Thread) : OnlyMe s (s.setMe x) :=
  ⟨rfl, fun _ hk => State.thread_setThread_other _ _ _ _ hk⟩

theorem onlyMe_trans {s t u : State} (h : OnlyMe s t) (k : OnlyMe t u) : OnlyMe s u := by
  obtain ⟨ht, hto⟩ := h
  obtain ⟨hu, huo⟩ := k
  have hc : t.cur = s.cur := by rw [ht]
  refine ⟨by rw [hu, ht], fun j hj => ?_⟩
  rw [huo j (by rwa [hc]), hto j hj]

/-- An instruction that replaces the thread in hand. -/
theorem becomes_of_setMe {i : Instr} {s : State} {x : Thread} (h : exec i s = .next (s.setMe x)) : Becomes i s x :=
  ⟨_, h, onlyMe_setMe s x, State.me_setMe s x⟩

/-- An instruction of `len` bytes that changes its thread by `f`. -/
theorem becomes_of_finish {i : Instr} {s : State} {len : Nat} {f : Thread → Thread}
    (h : exec i s = s.finish len (.ok (s.modMe f))) :
    Becomes i s { f s.me with pc := (f s.me).pc + BitVec.ofNat 64 len } := by
  refine ⟨(s.modMe f).advance len, h, onlyMe_trans (onlyMe_setMe s (f s.me)) (onlyMe_setMe (s.modMe f) _), ?_⟩
  rw [State.me_advance, State.me_modMe]

/-- An instruction of `len` bytes that has no other effect. -/
theorem becomes_of_finish_same {i : Instr} {s : State} {len : Nat} (h : exec i s = s.finish len (.ok s)) :
    Becomes i s { s.me with pc := s.me.pc + BitVec.ofNat 64 len } :=
  ⟨s.advance len, h, onlyMe_setMe s _, State.me_advance s len⟩

/-- An instruction of `len` bytes that writes one register. -/
theorem gives_of_ends {i : Instr} {s : State} {len : Nat} {d : Reg} {v : Word} (h : exec i s = s.ends len d v) :
    Gives i s len d v := by
  obtain ⟨t, ht, hf, ho, hm⟩ := s.ends_next len d v
  have hw : Writes s.me t.me d v := by
    refine ⟨?_, fun k hk => ?_, ?_⟩
    · rw [hm]; exact (s.me.rd_wr d d v).trans (by simp)
    · rw [hm]; exact s.me.readCode_wr_other d v k hk
    · rw [hm]; exact s.me.badRegs_wr d v
  refine ⟨t, h.trans ht, ⟨hf, ho⟩, hw, ?_⟩
  rw [hm, Thread.wr, Thread.writeCode_frame]

/-- An instruction that traps precisely in task mode, outside a gang. -/
theorem traps_of_takeTrap {i : Instr} {s : State} {t : Trap}
    (h : exec i s = .next (s.takeTrap s.cur t s.me.pc s.me.pc false false)) (ha : TaskAlone s) :
    Traps i s t.code t.sub t.eval := by
  obtain ⟨u, hu, hf, ho, hm, hr⟩ := s.trap_next t ha.1 ha.2
  exact ⟨u, by rw [h, hu], hf, ho, hm, hr⟩

/-- An operand that an instruction of handler mode may not have halts its slot (R22, R26). -/
theorem badOperand_halts (s : State) (hm : s.me.mode = true) (hg : s.me.gang = false) :
    ∃ t, s.finish 4 (.error s.badOperand) = .next t ∧ t.cores = s.cores ∧
      t.me = { s.me with life := .halted, wait := none
                         haltCause := some { code := 0x01, sub := 4, eval := irWord s } } := by
  let t : Trap := { code := 0x01, sub := 4, eval := irWord s }
  have hh := s.halt_alone s.cur t false false hg
  have hc : (s.halt s.cur t).cur = s.cur := by rw [hh]; rfl
  refine ⟨s.halt s.cur t, ?_, by rw [hh]; rfl, ?_⟩
  · exact congrArg Host.Outcome.next (s.takeTrap_handler s.cur t _ _ false false hm)
  · rw [State.me, hc, s.thread_halt_alone s.cur t false false hg]
    rfl

end Sys2Proof.Proofs
end

section
/-! Proofs, family 01 (thread): calls, returns and the window (R13, R14, R82, R83). -/

namespace Sys2Proof.Proofs

open Sys2Proof Sys2Proof.Machine Sys2Proof.Claim

/-! ### The link word -/

theorem toNat_mod_two (x : Word) : x.toNat % 2 = if x.getLsbD 0 then 1 else 0 := by
  rw [BitVec.getLsbD, Nat.testBit_zero]
  simp only [decide_eq_true_eq]
  split <;> omega

theorem getLsbD_and_not_one (x : Word) (j : Nat) : (x &&& ~~~1).getLsbD j = (x.getLsbD j && decide (j ≠ 0)) := by
  show (x &&& ~~~1#64).getLsbD j = _
  rw [BitVec.getLsbD_and, BitVec.getLsbD_not, BitVec.getLsbD_one]
  by_cases hj : j < 64
  · simp [hj]
  · simp [BitVec.getLsbD_of_ge x j (by omega)]

/-- R13: the link word is the return address with bit 0 replaced. -/
theorem link_getLsbD (ra : Word) (p : Prop) [Decidable p] (j : Nat) :
    ((ra &&& ~~~1) ||| (if p then 1 else 0)).getLsbD j = if j = 0 then decide p else ra.getLsbD j := by
  have h1 : (if p then (1 : Word) else 0).getLsbD j = (decide p && decide (j = 0)) := by
    by_cases hp : p
    · rw [if_pos hp]; exact (BitVec.getLsbD_one).trans (by simp [hp])
    · rw [if_neg hp]; exact (BitVec.getLsbD_zero).trans (by simp [hp])
  rw [BitVec.getLsbD_or, getLsbD_and_not_one, h1]
  by_cases h0 : j = 0 <;> simp [h0]

/-- An even address that a link word carries is read back from it. -/
theorem evenAddress_of_link (link ra : Word) (hra : ra.getLsbD 0 = false)
    (h : ∀ j, 1 ≤ j → j < 64 → link.getLsbD j = ra.getLsbD j) : link &&& ~~~1 = ra := by
  refine BitVec.eq_of_getLsbD_eq fun j hj => ?_
  rw [getLsbD_and_not_one]
  by_cases h0 : j = 0
  · subst h0; rw [hra]; simp
  · rw [h j (by omega) hj]; simp [h0]

theorem add_four_even (pc : Word) (h : pc.getLsbD 0 = false) : (pc + 4).getLsbD 0 = false := by
  have h2 := toNat_mod_two pc
  have h4 := toNat_mod_two (pc + 4)
  have ha : (pc + 4).toNat = (pc.toNat + 4) % 2 ^ 64 := BitVec.toNat_add _ _
  rw [h] at h2
  cases hb : (pc + 4).getLsbD 0 with
  | false => rfl
  | true => rw [hb, ha] at h4; simp at h2 h4; omega

/-! ### Calls -/

theorem calls_of_leaderless (s : State) (k : Nat) (target : Word) (h : s.fwd = none) :
    s.calls k target = s.finishAt (s.call k target) := by
  simp [State.calls, State.outcome, h]

theorem evenTarget_even (s : State) (a : Word) (h : s.fwd = none) (he : a.getLsbD 0 = false) :
    s.evenTarget a = .ok a := by
  rw [State.evenTarget, h, he]
  rfl

/-- The four calls of a thread that follows no leader, as one: their slide and target. -/
theorem exec_call (s : State) (a : Reg) (m : BitVec 25) (i : Instr) (k : Nat) (target : Word) (hf : s.fwd = none)
    (h : (i, k, target) = (.call8 m, 1, s.me.pc + 2 * m.signExtend 64) ∨
      (i, k, target) = (.call16 m, 2, s.me.pc + 2 * m.signExtend 64) ∨
      ((i, k, target) = (.callr8 a, 1, s.rd a) ∧ (s.rd a).getLsbD 0 = false) ∨
      ((i, k, target) = (.callr16 a, 2, s.rd a) ∧ (s.rd a).getLsbD 0 = false)) :
    exec i s = s.finishAt (s.call k target) := by
  rw [← calls_of_leaderless s k target hf]
  rcases h with h | h | ⟨h, he⟩ | ⟨h, he⟩ <;> cases h
  · show s.calls 1 (s.me.pc + halfwords m) = _
    rw [halfwords_eq]
  · show s.calls 2 (s.me.pc + halfwords m) = _
    rw [halfwords_eq]
  · show execCallr8 a s = _
    rw [execCallr8, evenTarget_even s _ hf he]
  · show execCallr16 a s = _
    rw [execCallr16, evenTarget_even s _ hf he]

/-- R13: the thread in its callee's window, before the link word is written. -/
def slid (t : Thread) (k : Nat) (target : Word) : Thread :=
  { t with wb := (t.wb + k) % 12, depth := t.depth + k, pc := target }
/-- R13: the link word of a call with slide `k`. -/
def linkWord (t : Thread) (k : Nat) : Word := ((t.pc + 4) &&& ~~~1) ||| (if k = 2 then 1 else 0)

theorem call_fits (s : State) (k : Nat) (target : Word) (h : s.me.depth + k ≤ 9) :
    s.call k target = .ok (s.setMe ((slid s.me k target).wr 23 (linkWord s.me k))) := by
  rw [State.call, if_neg (by omega)]
  rfl

theorem call_overflows (s : State) (k : Nat) (target : Word) (h : 9 < s.me.depth + k) :
    s.call k target = .error (.trap { code := 0x06, eval := BitVec.ofNat 64 k }) := by
  rw [State.call, if_pos (by omega)]

/-- R13, R14: a call slides the window and writes its link word, or takes the spill trap. -/
theorem calls_slide_the_window : Claim.CallsSlideTheWindow := by
  intro s a m i k target hf hi
  have hx := exec_call s a m i k target hf hi
  refine ⟨fun hd => ?_, fun hd ha => ?_⟩
  · let y := (slid s.me k target).wr 23 (linkWord s.me k)
    have hy : (s.setMe y).me = y := State.me_setMe s y
    have hframe : y = { slid s.me k target with regs := y.regs, badRegs := y.badRegs } := Thread.writeCode_frame _ _ _
    have hlink : y.rd 23 = linkWord s.me k := (Thread.rd_wr _ _ _ _).trans (by simp)
    have hwb : y.wb = (s.me.wb + k) % 12 := by rw [hframe]; rfl
    have hdepth : y.depth = s.me.depth + k := by rw [hframe]; rfl
    refine ⟨s.setMe y, by rw [hx, call_fits s k target hd]; rfl, onlyMe_setMe s y, ?_⟩
    rw [hy]
    refine ⟨hwb, hdepth, by rw [hframe]; rfl, fun j h1 hj => ?_, ?_, fun c hc => ?_, by rw [hwb, hdepth]; exact hframe⟩
    · rw [hlink, linkWord, link_getLsbD _ _ j, if_neg (by omega)]
    · rw [hlink, linkWord, link_getLsbD _ _ 0, if_pos rfl]
    · exact Thread.readCode_wr_other (slid s.me k target) 23 _ c (by rw [hwb] at hc; exact hc)
  · exact traps_of_takeTrap (by rw [hx, call_overflows s k target hd]; rfl) ha

/-! ### Returns -/

theorem ret_of_leaderless (s : State) (h : s.fwd = none) :
    exec .ret s = s.finishAt (s.unslide s.me.linkSlide (s.rd 23 &&& ~~~1)) := by
  show execRet s = _
  simp [execRet, State.outcome, h]
  rfl

/-- R14: EVAL of a fill trap, with its top bit as a number. -/
theorem fillEval_eq (need spilled : Nat) :
    fillEval need spilled = BitVec.ofNat 64 need ||| (if spilled < need then 1 <<< 63 else 0) := by
  rw [BitVec.or_comm, fillEval]
  split_ifs <;> rfl

/-- R13, R14: a return slides the window back, or takes the fill trap. -/
theorem ret_slides_back (s : State) (k : Nat) (hf : s.fwd = none) (hk : k = 1 + (s.rd 23).toNat % 2) :
    (k ≤ s.me.depth → Becomes .ret s { s.me with wb := (s.me.wb + 12 - k) % 12, depth := s.me.depth - k,
                                                 pc := s.rd 23 &&& ~~~1 }) ∧
    (s.me.depth < k → TaskAlone s → Traps .ret s 0x07 0
      (BitVec.ofNat 64 (k - s.me.depth) ||| (if s.me.spilled < k - s.me.depth then 1 <<< 63 else 0))) := by
  have hx := ret_of_leaderless s hf
  have hl : s.me.linkSlide = k := hk.symm
  rw [hl] at hx
  refine ⟨fun hd => becomes_of_setMe ?_, fun hd ha => ?_⟩
  · rw [hx, State.unslide, if_neg (by omega)]
    rfl
  · rw [← fillEval_eq]
    exact traps_of_takeTrap (t := { code := 0x07, eval := fillEval (k - s.me.depth) s.me.spilled })
      (by rw [hx, State.unslide, if_pos hd]; rfl) ha

/-- R13: a return from a call brings the caller's window back and goes on behind the call. -/
theorem ret_undoes_call (s t : State) (i : Instr) (m : BitVec 25) (k : Nat) (hf : s.fwd = none) (hwb : s.me.wb < 12)
    (hpc : s.me.pc.getLsbD 0 = false) (hi : i = .call8 m ∧ k = 1 ∨ i = .call16 m ∧ k = 2) (hd : s.me.depth + k ≤ 9)
    (he : exec i s = .next t) :
    ∃ u, exec .ret t = .next u ∧ OnlyMe s u ∧ u.me.wb = s.me.wb ∧ u.me.depth = s.me.depth ∧
      u.me.pc = s.me.pc + 4 ∧ ∀ c, c ≠ (8 * ((s.me.wb + k) % 12) + 23) % 96 → u.me.readCode c = s.me.readCode c := by
  have hk : k = 1 ∨ k = 2 := hi.imp And.right And.right
  have hform : (i, k, s.me.pc + 2 * m.signExtend 64) = (.call8 m, 1, s.me.pc + 2 * m.signExtend 64) ∨
      (i, k, s.me.pc + 2 * m.signExtend 64) = (.call16 m, 2, s.me.pc + 2 * m.signExtend 64) := by
    rcases hi with ⟨rfl, rfl⟩ | ⟨rfl, rfl⟩ <;> simp
  obtain ⟨t', he', hot, htwb, htd, -, hbits, hbit0, hregs, -⟩ :=
    (calls_slide_the_window s 0 m i k _ hf (hform.imp_right .inl)).1 hd
  obtain rfl : t' = t := by rw [he] at he'; cases he'; rfl
  have htf : t'.fwd = none := by rw [hot.1]; exact hf
  have hslide : k = 1 + (t'.rd 23).toNat % 2 := by
    rw [toNat_mod_two, State.rd, hbit0]
    rcases hk with rfl | rfl <;> rfl
  obtain ⟨u, hu, hou, hme⟩ := (ret_slides_back t' k htf hslide).1 (by omega)
  refine ⟨u, hu, onlyMe_trans hot hou, ?_, ?_, ?_, fun c hc => ?_⟩
  · rw [hme]
    show (t'.me.wb + 12 - k) % 12 = _
    omega
  · rw [hme]
    show t'.me.depth - k = _
    omega
  · rw [hme]
    exact evenAddress_of_link _ _ (add_four_even _ hpc) hbits
  · rw [hme]
    exact hregs c (by rwa [htwb])

/-- Settles O11: the four calls are one operation, and a return reads the link word that a call has written. -/
theorem callsAndReturnsSlideTheWindow : Obligations.CallsAndReturnsSlideTheWindow :=
  ⟨calls_slide_the_window, ret_undoes_call, ret_slides_back⟩

end Sys2Proof.Proofs
end

section
/-! Proofs, family 01 (thread): traps, their entry and their return (R23–R27, R143). -/

namespace Sys2Proof.Proofs

open Sys2Proof Sys2Proof.Machine Sys2Proof.Claim

/-- R89: rte at a boundary where no work of handler mode is outstanding. -/
theorem rte_becomes (s : State) (hm : s.me.mode = true) (hw : s.me.handlerWork = false) :
    Becomes .rte s { s.me with mode := s.me.pmode, skc := s.me.pskc, pc := s.me.epc } := by
  refine ⟨s.returnFromTrap s.cur, ?_, ⟨rfl, fun k hk => State.thread_modThread_other _ _ _ _ hk⟩,
    State.thread_modThread _ _ _⟩
  show execRte s = _
  simp [execRte, State.mayPrivileged, hm, hw]

/-- Settles O13: in task mode by the law of a trap outside a gang, in handler mode by that of a halt. -/
theorem trapEntrySavesAndRedirects : Obligations.TrapEntrySavesAndRedirects := by
  refine ⟨fun s tid t fpc resume defr mult hg => ⟨fun hm => ?_, fun hm => ?_⟩, rte_becomes⟩
  · simp only [s.takeTrap_alone tid t fpc resume defr mult hm hg, State.thread_modThread, State.thread_dropWaits]
    exact ⟨trivial, fun k hk => State.thread_modThread_other _ _ _ _ hk, rfl, rfl⟩
  · simp only [s.takeTrap_handler tid t fpc resume defr mult hm, s.thread_halt_alone tid t defr mult hg]

/-- Settles O14: the halted slot is a change of the thread in question; the event reads and changes the home of memory and
Selvedge alone. -/
theorem handlerModeTrapHalts : Obligations.HandlerModeTrapHalts := by
  intro s tid t fpc resume defr mult hm hg
  have hb : t.causeWord defr mult =
      (BitVec.ofBool mult ++ BitVec.ofBool defr ++ t.sub ++ t.code).zeroExtend 64 := causeFields_eq _ _ _ _
  simp only [s.takeTrap_handler tid t fpc resume defr mult hm, s.thread_halt_alone tid t defr mult hg]
  refine ⟨trivial, fun k hk => s.thread_halt_alone_other tid k t defr mult hg hk, ?_⟩
  rw [s.halt_alone tid t defr mult hg, hb]
  exact ⟨rfl, rfl, rfl, rfl, rfl⟩

/-- R27: the trap of a member in task mode, after it has broken the gang. -/
theorem takeTrap_member (s : State) (tid : Nat) (t : Trap) (fpc resume : Word) (d m : Bool)
    (hm : (s.thread tid).mode = false) :
    s.takeTrap tid t fpc resume d m =
      ((s.breakGang tid).dropWaits tid).modThread tid (·.trapped t fpc resume d m) := by
  simp [State.takeTrap, hm]

/-- R27, R143: what the trap of a member does to itself and to another member of its gang. -/
theorem member_trap_breaks_gang (s : State) (tid m : Nat) (t : Trap) (fpc resume : Word)
    (hm : (s.thread tid).mode = false) (hg : (s.thread tid).gang = true) (hmem : m ∈ s.gangOf tid) (hne : m ≠ tid) :
    let u := s.takeTrap tid t fpc resume false false
    (u.thread tid).gang = false ∧ (u.thread tid).causeCode = t.code ∧ (u.thread tid).mode = true ∧
    (u.thread m).mode = (s.thread m).mode ∧
    (s.sameGang tid m = true → (u.thread m).abort = some ((s.thread m).abort.getD (coreOf tid))) ∧
    (s.sameGang tid m = false → u.thread m = s.thread m) := by
  have other : (s.takeTrap tid t fpc resume false false).thread m =
      ((s.gangOf tid).foldl (State.abortMember tid) s).thread m := by
    rw [takeTrap_member s tid t fpc resume _ _ hm, State.thread_modThread_other _ _ _ _ hne, State.thread_dropWaits,
      s.breakGang_eq tid hg, State.thread_modThread_other _ _ _ _ hne]
  have self : (s.takeTrap tid t fpc resume false false).thread tid =
      Thread.trapped { ((s.gangOf tid).foldl (State.abortMember tid) s).thread tid with
        gang := false, gangIx := 0, gangSz := 1, weft := [], abort := none } t fpc resume false false := by
    rw [takeTrap_member s tid t fpc resume _ _ hm, State.thread_modThread, State.thread_dropWaits,
      s.breakGang_eq tid hg, State.thread_modThread]
  refine ⟨by rw [self]; rfl, by rw [self]; rfl, by rw [self]; rfl, ?_, fun h => ?_, fun h => ?_⟩
  · rw [other, State.mode_abortMembers]
  · rw [other, State.abort_abortMembers tid _ s m hne h, if_pos hmem]
  · rw [other, State.thread_abortMembers_outside tid _ s m (.inr h)]

/-- R24, R143: with an empty weft buffer a thread's next instruction is the one at its PC. -/
theorem boundaryPc_of_weft_nil (s : State) (tid : Nat) (h : (s.thread tid).weft = []) :
    s.boundaryPc tid = (s.thread tid).pc := by
  unfold State.boundaryPc
  simp only [h]
  split_ifs <;> rfl

/-- R143: a ready member in task mode takes the gang abort that is pending. -/
theorem pending_abort_traps (s : State) (core slot by_ : Nat)
    (ha : (s.thread (tidOf core slot)).abort = some by_) (hl : (s.thread (tidOf core slot)).life = .ready)
    (hm : (s.thread (tidOf core slot)).mode = false) (hw : (s.thread (tidOf core slot)).weft = [])
    (hp : (s.die (dieOf core)).pwrState = 0) :
    ∃ t, exec (.gangAbort core slot) s = .next t ∧
      let x := s.thread (tidOf core slot)
      let y := t.thread (tidOf core slot)
      y.causeCode = 0x0B ∧ y.causeDef = false ∧ y.eval = BitVec.ofNat 64 by_ ∧ y.epc = x.pc ∧ y.fpc = x.pc ∧
      y.pskc = x.skc ∧ y.skc = 0 ∧ y.mode = true ∧ y.pc = x.hvec ∧ y.gang = false ∧ y.abort = none := by
  let s' := s.modThread (tidOf core slot)
    (fun t => { t with abort := none, gang := false, gangIx := 0, gangSz := 1, weft := [] })
  let pc := (s.thread (tidOf core slot)).pc
  refine ⟨s'.takeTrap (tidOf core slot) { code := 0x0B, eval := BitVec.ofNat 64 by_ } pc pc false false, ?_, ?_⟩
  · show execGangAbort core slot s = _
    simp only [execGangAbort, ha, Thread.atBoundary, hl, State.clocked, hp, boundaryPc_of_weft_nil s _ hw]
    rfl
  · have hs : s'.thread (tidOf core slot) = { s.thread (tidOf core slot) with
        abort := none, gang := false, gangIx := 0, gangSz := 1, weft := [] } := State.thread_modThread _ _ _
    rw [State.takeTrap_alone _ _ _ _ _ _ _ (by rw [hs]; exact hm) (by rw [hs]), State.thread_modThread,
      State.thread_dropWaits, hs]
    exact ⟨rfl, rfl, rfl, rfl, rfl, rfl, rfl, rfl, rfl, rfl, rfl⟩

/-- Settles O15: the members of the gang are signalled one after the other, and one that has the signal takes it at its
boundary. -/
theorem trappingMemberBreaksItsGang : Obligations.TrappingMemberBreaksItsGang :=
  ⟨member_trap_breaks_gang, fun s core slot by_ ha hl hm _ hw hp => pending_abort_traps s core slot by_ ha hl hm hw hp⟩

end Sys2Proof.Proofs
end

section
/-! Proofs, family 01 (thread): what Kept says, and what the write-back of a scratch frame needs beside it (R128). -/

namespace Sys2Proof.Proofs

open Sys2Proof Sys2Proof.Machine Sys2Proof.Claim

/-- A core whose scratchpad lists a byte that holds what an unlisted one reads as, in a dirty frame of another context. -/
def unlistedFrame : Core :=
  { scratch := ⟨[(0, Memory.unlisted)]⟩, frames := (Vector.replicate 24 {}).set 0 { ctx := some 1, dirty := true } }

/-- A handler that spills one block to the start of that scratchpad. -/
def spillsOverFrame : State :=
  (State.reset.setThread 0 { life := .ready, mode := true, depth := 1, wsp := 0xF000000000000000 }).setCore 0 unlistedFrame

theorem kept_spillsOverFrame : Kept spillsOverFrame := by
  refine ⟨rfl, fun k => ?_⟩
  by_cases hk : k = 0
  · subst hk; decide +kernel
  · have h : spillsOverFrame.thread k = {} := Tab.get_put_other _ _ _ _ _ hk
    rw [h]; decide

/-- The memory that an outcome leaves is in canonical form. -/
def leavesCanonical : Out → Bool
  | .next t => t.mem.wf
  | _ => true

/-- Refutes O6: Kept asks nothing of the scratchpads. The spill needs frame 0, which is dirty and of another context, so
the frame is written back first (R128); memory then lists the zero byte that the scratchpad listed, and is no longer in
canonical form. -/
theorem not_scalarInstructionsKeepTheInvariant : ¬ Obligations.ScalarInstructionsKeepTheInvariant := by
  intro h
  have hstep : leavesCanonical (exec .wspill spillsOverFrame) = false := by
    show leavesCanonical (execWspill spillsOverFrame) = false
    decide +kernel
  cases he : exec .wspill spillsOverFrame with
  | next t =>
    obtain ⟨hmem, -⟩ := h spillsOverFrame t 0 0 0 0 0 0 0 0 0 0 0 0 0 0 kept_spillsOverFrame .wspill
      (by simp [scalarAndControl]) he
    rw [he, leavesCanonical, hmem] at hstep
    cases hstep
  | fault r => rw [he] at hstep; cases hstep
  | refused r => rw [he] at hstep; cases hstep

end Sys2Proof.Proofs
end

section
/-! Proofs, family 01 (thread): the state registers (R16–R21, R92, R130) and the privileged instructions (R17, R87). -/

namespace Sys2Proof.Proofs

open Sys2Proof Sys2Proof.Machine Sys2Proof.Claim

/-! ### What mfs and mts do with what a register answers -/

theorem mfs_gives {s : State} {x : BitVec 12} {v : Word} (d : Reg) (h : s.readReg x.toNat = .ok v) :
    Gives (.mfs d x) s 4 d v :=
  gives_of_ends (show execMfs d x s = _ by rw [execMfs, h]; rfl)

theorem mfs_traps {s : State} {x : BitVec 12} {t : Trap} (d : Reg) (ha : TaskAlone s)
    (h : s.readReg x.toNat = .error (.trap t)) : Traps (.mfs d x) s t.code t.sub t.eval :=
  traps_of_takeTrap (show execMfs d x s = _ by rw [execMfs, h]; rfl) ha

theorem mts_becomes {s : State} {a : Reg} {x : BitVec 12} {f : Thread → Thread}
    (h : s.writeReg x.toNat (s.rd a) = .ok (s.modMe f)) :
    Becomes (.mts a x) s { f s.me with pc := (f s.me).pc + 4 } :=
  becomes_of_finish (show execMts a x s = _ by rw [execMts, h])

theorem mts_traps {s : State} {a : Reg} {x : BitVec 12} {t : Trap} (ha : TaskAlone s)
    (h : s.writeReg x.toNat (s.rd a) = .error (.trap t)) : Traps (.mts a x) s t.code t.sub t.eval :=
  traps_of_takeTrap (show execMts a x s = _ by rw [execMts, h]; rfl) ha

/-! ### Privileged instructions in task mode (R17, R87) -/

theorem mayPrivileged_of_taskAlone {s : State} (ha : TaskAlone s) : s.mayPrivileged = false := by
  simp [State.mayPrivileged, ha.1, ha.2]

theorem mayPrivileged_of_mode {s : State} (hm : s.me.mode = true) : s.mayPrivileged = true := by
  simp [State.mayPrivileged, hm]

/-- The registers that handler mode alone reads. -/
theorem readReg_privileged (s : State) (h : s.mayPrivileged = false) :
    ∀ x ∈ [0x00C, 0x00D, 0x00E, 0x00F, 0x050, 0x051, 0x052, 0x053], s.readReg x = .error s.privileged := by
  simp [State.readReg, h]

/-- The registers that handler mode alone writes. -/
theorem writeReg_privileged (s : State) (v : Word) (h : s.mayPrivileged = false) :
    ∀ x ∈ [0x001, 0x002, 0x003, 0x004, 0x005, 0x008, 0x009, 0x00C, 0x00D, 0x00E, 0x00F, 0x010, 0x011, 0x012, 0x013, 0x018,
      0x019, 0x01A, 0x020, 0x021, 0x030, 0x042, 0x050, 0x051, 0x052, 0x053], s.writeReg x v = .error s.privileged := by
  simp [State.writeReg, h]

/-- R16: the indices of the state registers. -/
def stateRegisters : List (BitVec 12) :=
  [0x000, 0x001, 0x002, 0x003, 0x004, 0x005, 0x008, 0x009, 0x00C, 0x00D, 0x00E, 0x00F, 0x010, 0x011, 0x012, 0x013, 0x018,
    0x019, 0x01A, 0x020, 0x021, 0x030, 0x040, 0x041, 0x042, 0x050, 0x051, 0x052, 0x053]

theorem readReg_undefined (s : State) (n : Nat) (h : n ∉ stateRegisters.map BitVec.toNat) : s.readReg n = .error s.badOperand := by
  simp [stateRegisters] at h
  simp [State.readReg, h]

theorem writeReg_undefined (s : State) (n : Nat) (v : Word) (h : n ∉ stateRegisters.map BitVec.toNat) :
    s.writeReg n v = .error s.badOperand := by
  simp [stateRegisters] at h
  simp [State.writeReg, h]

/-- rte, wspill and wfill check the mode before anything else. -/
theorem system_privileged (s : State) (ha : TaskAlone s) :
    ∀ i ∈ [Instr.rte, .wspill, .wfill], Traps i s 0x02 0 (irWord s) := by
  have hp := mayPrivileged_of_taskAlone ha
  have trap (i : Instr) (h : exec i s = s.finishAt (.error s.privileged)) : Traps i s 0x02 0 (irWord s) :=
    traps_of_takeTrap (t := { code := 0x02, eval := irWord s }) h ha
  intro i hi
  simp only [List.mem_cons, List.not_mem_nil, or_false] at hi
  rcases hi with rfl | rfl | rfl
  · exact trap _ (show execRte s = _ by simp [execRte, hp])
  · exact trap _ (show execWspill s = _ by simp [execWspill, hp]; rfl)
  · exact trap _ (show execWfill s = _ by simp [execWfill, hp]; rfl)

/-- Settles O17: the answer of each register, privileged or undefined, is the trap that mfs and mts take. -/
theorem privilegedInstructionsTrapInTaskMode : Obligations.PrivilegedInstructionsTrapInTaskMode := by
  intro s d a ha
  have hp := mayPrivileged_of_taskAlone ha
  refine ⟨system_privileged s ha, fun x hx => ?_, fun x hx => ?_, fun x hx => ?_⟩
  · exact mfs_traps d ha (readReg_privileged s hp x.toNat (List.mem_map_of_mem hx))
  · exact mts_traps ha (writeReg_privileged s _ hp x.toNat (List.mem_map_of_mem hx))
  · have hn : x.toNat ∉ stateRegisters.map BitVec.toNat := fun h => by
      obtain ⟨y, hy, e⟩ := List.mem_map.mp h
      exact hx (BitVec.eq_of_toNat_eq e ▸ hy)
    exact ⟨mfs_traps d ha (readReg_undefined s _ hn), mts_traps ha (writeReg_undefined s _ _ hn)⟩

/-! ### The words that state registers read as (R18, R20, R21, R124, R186, R210) -/

/-- R18: STATUS is its fields side by side. -/
theorem status_eq (x : Thread) : x.status =
    (x.pskc ++ x.skc ++ BitVec.ofBool x.gang ++ BitVec.ofBool x.pmode ++ 0#2 ++ x.rm ++ BitVec.ofBool x.tcm ++ 0#1 ++
      BitVec.ofBool x.mode).zeroExtend 64 := by
  apply BitVec.eq_of_toNat_eq
  simp only [Thread.status, BitVec.toNat_ofNat, BitVec.truncate_eq_setWidth, BitVec.toNat_setWidth, toNat_append_eq_add,
    BitVec.toNat_ofBool, ite_eq_toNat_mul]
  congr 1
  omega

theorem wdepth_eq (x : Thread) : x.wdepth = BitVec.ofNat 64 (x.depth + 2 ^ 4 * x.wb + 2 ^ 8 * x.spilled) := by
  rw [Thread.wdepth]
  congr 1
  ring

theorem coreid_eq (n : Nat) : coreid n = n / 4 + 2 ^ 10 * (n % 4) := by
  rw [coreid, slotOf, coreOf]
  ring

/-- R186, R210: the conditions stand in bits 1 to 5 of a status word, below whatever else it holds. -/
theorem conditions_of_bits (c : Cond) (m : Nat) :
    let v := BitVec.ofNat 64 (c.bits + 64 * m)
    v.getLsbD 1 = c.nv ∧ v.getLsbD 2 = c.of ∧ v.getLsbD 3 = c.uz ∧ v.getLsbD 4 = c.dz ∧ v.getLsbD 5 = c.ue := by
  have hb : c.bits = c.nv.toNat * 2 + c.of.toNat * 4 + c.uz.toNat * 8 + c.dz.toNat * 16 + c.ue.toNat * 32 := by
    simp only [Cond.bits, ite_eq_toNat_mul]
  have bit (j : Nat) (b : Bool) (hj : j < 64) (h : (c.bits + 64 * m) / 2 ^ j % 2 = b.toNat) :
      (BitVec.ofNat 64 (c.bits + 64 * m)).getLsbD j = b := by
    rw [BitVec.getLsbD_ofNat, Nat.testBit_eq_decide_div_mod_eq, h]
    cases b <;> simp [hj]
  have h1 := c.nv.toNat_le
  have h2 := c.of.toNat_le
  have h3 := c.uz.toNat_le
  have h4 := c.dz.toNat_le
  have h5 := c.ue.toNat_le
  refine ⟨bit 1 _ ?_ ?_, bit 2 _ ?_ ?_, bit 3 _ ?_ ?_, bit 4 _ ?_ ?_, bit 5 _ ?_ ?_⟩ <;> omega

theorem vstatWord_eq (t : Thread) (x : Core) (slot : Nat) :
    ∃ m, vstatWord t x slot = BitVec.ofNat 64 (t.vcond.bits + 64 * m) := by
  let qn := (x.vq.filter (fun c => c.slot = slot)).length
  refine ⟨(if qn ≠ 0 then 16 else 0) + (if x.vq.isEmpty then 0 else 32) + qn * 64, ?_⟩
  rw [vstatWord]
  congr 1
  split_ifs <;> omega

theorem mstatWord_eq (t : Thread) (x : Core) (slot : Nat) :
    ∃ m, mstatWord t x slot = BitVec.ofNat 64 (t.mcond.bits + 64 * m) := by
  let qn := (x.mq.filter (fun e => e.slot = slot)).length + (x.recorded.filter (fun e => e.slot = slot)).length
  let begun := x.recorded.any (fun e => e.slot = slot && (e.begun || e.started))
  refine ⟨(if begun then 8 else 0) + (if qn ≠ 0 then 16 else 0) + (if x.mq.isEmpty then 0 else 32) + qn * 64, ?_⟩
  rw [mstatWord]
  congr 1
  split_ifs <;> omega

/-- R16–R21, R92: every state register reads as the word of its fields. -/
theorem state_registers_read_as_mapped : Claim.StateRegistersReadAsMapped := by
  intro s d
  refine ⟨mfs_gives d (congrArg Except.ok (status_eq s.me)), mfs_gives d (congrArg Except.ok (causeFields_eq _ _ _ _)),
    mfs_gives d rfl, mfs_gives d rfl, mfs_gives d rfl, mfs_gives d rfl, mfs_gives d rfl,
    mfs_gives d (congrArg Except.ok (wdepth_eq s.me)), mfs_gives d rfl, mfs_gives d rfl, mfs_gives d rfl,
    mfs_gives d rfl, ?_, mfs_gives d rfl, mfs_gives d rfl, mfs_gives d rfl, mfs_gives d rfl, mfs_gives d rfl,
    mfs_gives d rfl, ?_, ?_, fun hm => ?_⟩
  · rw [← coreid_eq]
    exact mfs_gives d rfl
  · obtain ⟨m, hv⟩ := vstatWord_eq s.me (s.core s.myCore) (slotOf s.cur)
    exact ⟨_, mfs_gives d (congrArg Except.ok hv), conditions_of_bits _ m⟩
  · obtain ⟨m, hv⟩ := mstatWord_eq s.me (s.core s.myCore) (slotOf s.cur)
    exact ⟨_, mfs_gives d (congrArg Except.ok hv), conditions_of_bits _ m⟩
  · have hp := mayPrivileged_of_mode hm
    have handler (v : Word) : (if s.mayPrivileged then .ok v else .error s.privileged : Except Stop Word) = .ok v :=
      if_pos hp
    exact ⟨mfs_gives d (handler _), mfs_gives d (handler _), mfs_gives d (handler _), mfs_gives d (handler _),
      mfs_gives d (handler _), mfs_gives d (handler _), mfs_gives d (handler _), mfs_gives d (handler _)⟩

/-! ### What mts writes (R17–R21, R130, R228) -/

/-- R18: a write of STATUS with a rounding mode that the partition may use. -/
theorem writeStatus_accepted (s : State) (v : Word)
    (h : v.extractLsb' 3 3 = 0 ∨ v.extractLsb' 3 3 = 1 ∨ v.extractLsb' 3 3 = 2 ∨ v.extractLsb' 3 3 = 3 ∨
      v.extractLsb' 3 3 = 4 ∧ s.groupOk 1 = true) :
    s.writeStatus v = .ok (s.modMe (fun t =>
      let t := { t with rm := v.extractLsb' 3 3, tcm := v.getLsbD 2 }
      if t.mode then { t with pskc := v.extractLsb' 13 3, pmode := v.getLsbD 8 } else t)) := by
  rcases h with h | h | h | h | ⟨h, hg⟩
  case' inr.inr.inr.inr => simp [State.writeStatus, h, hg]
  all_goals simp [State.writeStatus, h]

/-- R18, R354: rounding mode 4 belongs to feature group 1. -/
theorem writeStatus_notAccepted (s : State) (v : Word) (h : v.extractLsb' 3 3 = 4) (hg : s.groupOk 1 = false) :
    s.writeStatus v = .error s.notAccepted := by
  rw [State.writeStatus, if_pos (by simp [h, hg])]

/-- R18: rounding modes above 4 are reserved. -/
theorem writeStatus_reserved (s : State) (v : Word) (h : 5 ≤ (v.extractLsb' 3 3).toNat) :
    s.writeStatus v = .error s.badOperand := by
  have h4 : v.extractLsb' 3 3 ≠ 4 := fun e => absurd h (by rw [e]; decide)
  rw [State.writeStatus, if_neg (fun e => h4 (of_decide_eq_true (Bool.and_eq_true_iff.mp e).1)), if_pos (by omega)]

/-- R21: WDEPTH takes DEPTH and SPILLED. -/
theorem writeReg_wdepth (s : State) (v : Word) (hp : s.mayPrivileged = true) (hd : (v.extractLsb' 0 4).toNat ≤ 9) :
    s.writeReg 0x009 v = .ok (s.modMe (fun t =>
      { t with depth := (v.extractLsb' 0 4).toNat, spilled := (v.extractLsb' 8 24).toNat })) := by
  have h4 : (v.extractLsb' 0 4).toNat = v.toNat % 16 := by simp [BitVec.extractLsb'_toNat]
  have h24 : (v.extractLsb' 8 24).toNat = bits v.toNat 31 8 := by
    simp [BitVec.extractLsb'_toNat, bits, Nat.shiftRight_eq_div_pow]
  rw [h4] at hd
  rw [h4, h24]
  exact (if_pos hp).trans (if_neg (by omega))

/-- R15, R21, R130: a register of the core that handler mode writes. -/
theorem mts_core {s t : State} {a : Reg} {x : BitVec 12} {f : Core → Core}
    (h : s.writeReg x.toNat (s.rd a) = .ok t) (ht : t = s.modCore s.myCore f) :
    ∃ u, exec (.mts a x) s = .next u ∧ u.me = { s.me with pc := s.me.pc + 4 } ∧
      u.core s.myCore = f (s.core s.myCore) ∧ u.mem = s.mem := by
  subst ht
  refine ⟨(s.modCore s.myCore f).advance 4, ?_, State.me_advance _ 4, State.core_modCore s _ f, rfl⟩
  show execMts a x s = _
  rw [execMts, h]
  rfl

/-- R130: a write of a window changes that window alone. -/
theorem mts_window (s : State) (a : Reg) (k : Nat) (hk : k < 4) (hp : s.mayPrivileged = true) :
    ∃ t, exec (.mts a (BitVec.ofNat 12 (0x050 + k))) s = .next t ∧ t.me = { s.me with pc := s.me.pc + 4 } ∧
      (t.core s.myCore).win[k] = s.rd a &&& 0xF00FFFFFFFFFFF00 ∧
      (∀ j, (hj : j < 4) → j ≠ k → (t.core s.myCore).win[j] = (s.core s.myCore).win[j]) ∧ t.mem = s.mem := by
  have hw : s.writeReg (BitVec.ofNat 12 (0x050 + k)).toNat (s.rd a) = .ok (s.writeWin k (s.rd a)) := by
    interval_cases k <;> simp [State.writeReg, hp]
  obtain ⟨t, ht, hme, hcore, hmem⟩ := mts_core hw rfl
  refine ⟨t, ht, hme, ?_, fun j hj hne => ?_, hmem⟩
  · simp [hcore, hk, winMask]
  · simp [hcore, hk, Ne.symm hne]

/-- R11, R17: a write of a task-mode global through its state register. -/
theorem mts_taskGlobal (s : State) (a : Reg) (k : Nat) (hk : k < 4) (hp : s.mayPrivileged = true) :
    ∃ t, exec (.mts a (BitVec.ofNat 12 (0x00C + k))) s = .next t ∧ OnlyMe s t ∧
      t.me.readCode (100 + k) = s.rd a ∧ (∀ c, c ≠ 100 + k → t.me.readCode c = s.me.readCode c) ∧
      t.me = { s.me with pc := s.me.pc + 4, regs := t.me.regs, badRegs := t.me.badRegs } := by
  have hw : s.writeReg (BitVec.ofNat 12 (0x00C + k)).toNat (s.rd a) =
      .ok (s.modMe (fun t => t.writeCode (100 + k) (s.rd a))) := by
    interval_cases k <;> simp [State.writeReg, hp]
  obtain ⟨t, ht, ho, hme⟩ := mts_becomes hw
  have hread (c : Nat) : t.me.readCode c = (s.me.writeCode (100 + k) (s.rd a)).readCode c := by rw [hme]; rfl
  refine ⟨t, ht, ho, ?_, fun c hc => ?_, ?_⟩
  · rw [hread, Thread.readCode_writeCode _ _ _ _ (by omega), if_neg (by omega), if_pos rfl]
  · rw [hread, Thread.readCode_writeCode _ _ _ _ (by omega), if_neg hc]
    split
    · subst_vars; exact s.me.readCode_96.symm
    · rfl
  · rw [hme, Thread.writeCode_frame]

/-- R17: the registers that a write leaves as they are. -/
theorem mts_readOnly (s : State) (a : Reg) (hp : s.mayPrivileged = true) :
    ∀ i ∈ [(0x010 : BitVec 12), 0x011, 0x013, 0x018, 0x019, 0x01A, 0x030],
      Becomes (.mts a i) s { s.me with pc := s.me.pc + 4 } := by
  have hw : ∀ i ∈ [(0x010 : BitVec 12), 0x011, 0x013, 0x018, 0x019, 0x01A, 0x030],
      s.writeReg i.toNat (s.rd a) = .ok s := by simp [State.writeReg, hp]
  exact fun i hi => becomes_of_finish_same (show execMts a i s = _ by rw [execMts, hw i hi])

/-- R21: WDEPTH above the window's blocks halts the handler that writes it. -/
theorem mts_wdepth_halts (s : State) (a : Reg) (hm : s.me.mode = true) (hg : s.me.gang = false)
    (hd : 9 < ((s.rd a).extractLsb' 0 4).toNat) : ∃ t, exec (.mts a 0x009) s = .next t ∧
      t.me = { s.me with life := .halted, wait := none
                         haltCause := some { code := 0x01, sub := 4, eval := irWord s } } := by
  have hw : s.writeReg 0x009 (s.rd a) = .error s.badOperand := by
    have hv : (s.rd a).toNat % 16 > 9 := by simpa using hd
    simp [State.writeReg, mayPrivileged_of_mode hm, hv]
  obtain ⟨t, ht, -, hme⟩ := badOperand_halts s hm hg
  refine ⟨t, ?_, hme⟩
  show execMts a 0x009 s = _
  rw [execMts, ← ht]
  exact congrArg (s.finish 4) hw

/-- R17–R21, R92, R130, R228: every write reaches the fields of its register and nothing else. -/
theorem state_register_writes_reach_their_fields : Claim.StateRegisterWritesReachTheirFields := by
  rintro s a _ rfl
  refine ⟨fun h hg ha => ?_, fun h => ⟨fun hm => ?_, fun hm => ?_⟩, fun h ha => ?_, ?_, ?_, fun hm => ?_⟩
  · exact mts_traps (t := { code := 0x01, sub := 3, eval := irWord s }) ha (writeStatus_notAccepted s _ h hg)
  · have hb := mts_becomes (x := 0x000) (writeStatus_accepted s _ h)
    simpa [show s.me.mode = false from hm] using hb
  · have hb := mts_becomes (x := 0x000) (writeStatus_accepted s _ h)
    simpa [show s.me.mode = true from hm] using hb
  · exact mts_traps (t := { code := 0x01, sub := 4, eval := irWord s }) ha (writeStatus_reserved s _ h)
  · exact mts_becomes (x := 0x040) (f := fun t => { t with vcond := t.vcond.clear (s.rd a) }) rfl
  · exact mts_becomes (x := 0x041) (f := fun t => { t with mcond := t.mcond.clear (s.rd a) }) rfl
  · have hp : s.mayPrivileged = true := mayPrivileged_of_mode hm
    have mine (i : BitVec 12) (f : Thread → Thread) (h : s.writeReg i.toNat (s.rd a) =
        if s.mayPrivileged then .ok (s.modMe f) else .error s.privileged) :
        Becomes (.mts a i) s { f s.me with pc := (f s.me).pc + 4 } := mts_becomes (h.trans (if_pos hp))
    refine ⟨mine 0x001 (fun t => { t with causeCode := (s.rd a).extractLsb' 0 8, causeSub := (s.rd a).extractLsb' 8 8,
                                           causeDef := (s.rd a).getLsbD 16, causeMult := (s.rd a).getLsbD 17 }) rfl,
      mine 0x002 (fun t => { t with epc := evenW (s.rd a) }) rfl, mine 0x003 (fun t => { t with eval := s.rd a }) rfl,
      mine 0x004 (fun t => { t with hvec := evenW (s.rd a) }) rfl,
      mine 0x005 (fun t => { t with fpc := evenW (s.rd a) }) rfl,
      mine 0x008 (fun t => { t with wsp := s.rd a &&& ~~~63 }) rfl,
      fun hd => mts_becomes (x := 0x009) (writeReg_wdepth s _ hp hd), fun hd hg => mts_wdepth_halts s a hm hg hd,
      fun k hk => mts_taskGlobal s a k hk hp, mine 0x012 (fun t => { t with joina := s.rd a }) rfl,
      mine 0x020 (fun t => { t with seed := s.rd a }) rfl, mine 0x021 (fun t => { t with srctr := s.rd a }) rfl,
      mts_readOnly s a hp, fun k hk => mts_window s a k hk hp, fun hv => ?_⟩
    obtain ⟨t, ht, hme, hcore, hmem⟩ := mts_core (s := s) (a := a) (x := 0x042) (f := fun c => { c with
      derr := if (s.rd a).getLsbD 63 then {} else if (s.rd a).getLsbD 62 then { c.derr with mult := false } else c.derr })
      (if_pos hp) rfl
    exact ⟨t, ht, hme, by rw [hcore, hv]; rfl, hmem⟩

/-- Settles O18: each register's word for mfs, each register's fields for mts. -/
theorem stateRegistersAreReadAndWritten : Obligations.StateRegistersAreReadAndWritten :=
  ⟨state_registers_read_as_mapped, state_register_writes_reach_their_fields⟩

end Sys2Proof.Proofs
end

section
/-! Proofs, family 01 (thread): the bytes of the own scratchpad (R97, R104, R119, R127, R278) and window transfers
(R15, R94, R95). -/

namespace Sys2Proof.Proofs

open Sys2Proof Sys2Proof.Machine Sys2Proof.Claim

/-! ### Accesses to the own scratchpad -/

/-- R97: an address of the own scratchpad. -/
theorem resolve_own (s : State) (tid : Nat) (acc : Acc) (va : Word) (n off : Nat) (single : Bool)
    (hva : va.toNat = 0xF0 * 2 ^ 56 + off) (hoff : off < 0x60000) (hacc : accepts 0xF0 acc n single = true)
    (hal : n ≤ 8 → va.toNat % n = 0) : s.resolve tid acc va n single = .ok (.scratch (coreOf tid) off) := by
  have hsp : space va = 0xF0 := by rw [space, hva]; omega
  have hhi : bits va.toNat 55 20 = 0 := by rw [bits, hva]; omega
  have hlo : bits va.toNat 19 0 = off := by rw [bits, hva]; omega
  have hmod : (decide (n ≤ 8) && decide (va.toNat % n ≠ 0)) = false := by
    simpa using hal
  have hin : (decide (bits va.toNat 55 20 ≠ 0) || decide (off ≥ 0x60000)) = false := by
    simp [hhi, hoff]
  simp only [State.resolve, hsp, hacc, hmod, hlo, hin, if_true]
  rfl

/-- R119, R306: no access that comes before is still to reach the bytes. -/
theorem behind_own {s : State} {va : Word} {off n : Nat} (h : OwnBytes s va off n) (before : Nat) :
    s.behind s.cur before n [.scratch s.myCore off] = false := by
  obtain ⟨-, -, -, -, -, -, -, hreq⟩ := h
  simp only [State.behind, List.any_eq_false]
  intro r hr hb
  simp only [Bool.and_eq_true, Bool.or_eq_true, List.any_eq_true, decide_eq_true_eq, List.mem_singleton] at hb
  obtain ⟨⟨⟨-, hresp⟩, -⟩, ⟨-, t, -, hh, u, rfl, hu⟩ | ⟨htid, t, ht, u, rfl, hu⟩⟩ := hb
  · rw [← hu] at hh
    cases hh
  · rw [hreq r hr htid (Option.isNone_iff_eq_none.mp hresp) t ht] at hu
    cases hu

/-- R127: the die of a thread is not fenced, so that its own scratchpad answers it. -/
theorem scratchCheck_own {s : State} {va : Word} {off n : Nat} (h : OwnBytes s va off n) (rq : Rq) (acc : Acc)
    (k : Nat) (eva : Word) : s.scratchCheck rq true acc s.myCore off k eva = .ok s () := by
  obtain ⟨-, -, hfence, -⟩ := h
  have hf : (s.die (dieOf s.myCore)).fenced = false := hfence
  simp [State.scratchCheck, hf]

/-- R104, R127: a load of the own scratchpad gives its bytes and changes nothing. -/
theorem loadAt_own {s : State} {va : Word} {off n : Nat} (h : OwnBytes s va off n) :
    s.loadAt s.cur .load (.scratch s.myCore off) va n = .ok s ((s.core s.myCore).scratch.readBytes off n) := by
  have hcheck := scratchCheck_own h (.thread s.cur) .load n va
  obtain ⟨-, -, -, hpin, hwatch, hbad, -⟩ := h
  have hown : decide (s.myCore = coreOf s.cur) = true := decide_eq_true rfl
  simp only [State.loadAt, hwatch, Bool.false_eq_true, if_false, State.scratchLoad, hown, hcheck, Did.bind,
    s.pinRange_read _ _ _ hpin, firstBad_none _ _ _ hbad]

/-- Core `c` of `t` holds `bs` from `off` on, and nothing else of the package differs from `s` but the marks of frames. -/
def PutsBytes (s t : State) (c off : Nat) (bs : List Byte) : Prop :=
  t = { s with cores := t.cores } ∧ (∀ k, k ≠ c → t.core k = s.core k) ∧
  t.core c = { s.core c with scratch := (s.core c).scratch.writeBytes off bs, frames := (t.core c).frames } ∧
  SameOwners (s.core c).frames (t.core c).frames

/-- R104, R128: bytes put into pinned frames, over no uncorrectable word. -/
theorem scratchPut_pinned (s : State) (c off : Nat) (bs : List Byte)
    (hpin : ∀ f, off / 0x4000 ≤ f → f ≤ (off + bs.length - 1) / 0x4000 → (s.core c).pinned f = true)
    (hbad : ∀ w ∈ (s.core c).scratchBad, w + 8 ≤ off ∨ off + bs.length ≤ w) :
    PutsBytes s (s.scratchPut c off bs) c off bs := by
  obtain ⟨hs, hother, hcore, howner⟩ := s.pinRange_marks c off bs.length true hpin
  have hkeep : (s.core c).scratchBad.filter (fun w => !(off ≤ w && w + 8 ≤ off + bs.length)) = (s.core c).scratchBad := by
    rw [List.filter_eq_self]
    intro w hw
    have := hbad w hw
    simp only [Bool.not_eq_true', Bool.and_eq_false_iff, decide_eq_false_iff_not]
    omega
  refine ⟨by rw [State.scratchPut, hs]; rfl, fun k hk => ?_, ?_, ?_⟩
  · rw [State.scratchPut, State.core_modCore_other _ _ _ _ hk, hother k hk]
  · rw [State.scratchPut, State.core_modCore]
    rw [hcore]
    simp only [hkeep]
  · rw [State.scratchPut, State.core_modCore]
    exact howner

theorem putsBytes_of_marks {s t u : State} {c off : Nat} {bs : List Byte} (h : Marks s t c) (k : PutsBytes t u c off bs) :
    PutsBytes s u c off bs := by
  obtain ⟨ht, hto, htc, htf⟩ := h
  obtain ⟨hu, huo, huc, huf⟩ := k
  exact ⟨by rw [hu, ht], fun j hj => (huo j hj).trans (hto j hj), by rw [huc, htc],
    fun f hf => (huf f hf).trans (htf f hf)⟩

/-- R104, R127: a store to the own scratchpad puts its bytes and marks their frames. -/
theorem storeAt_own {s : State} {va : Word} {off : Nat} {bs : List Byte} (h : OwnBytes s va off bs.length) :
    ∃ t, s.storeAt s.cur .store (.scratch s.myCore off) va bs = .ok t () ∧ PutsBytes s t s.myCore off bs := by
  have hcheck := scratchCheck_own h (.thread s.cur) .store bs.length va
  obtain ⟨-, -, -, hpin, hwatch, hbad, -⟩ := h
  have hown : decide (s.myCore = coreOf s.cur) = true := decide_eq_true rfl
  have hm := s.pinRange_marks s.myCore off bs.length true hpin
  have hmarks := hm
  generalize hs1 : s.pinRange s.myCore off bs.length true = s1 at hm
  obtain ⟨-, -, hcore, howner⟩ := hm
  have hpin1 : ∀ f, off / 0x4000 ≤ f → f ≤ (off + bs.length - 1) / 0x4000 → (s1.core s.myCore).pinned f = true :=
    fun f h1 h2 => (pinned_congr howner (by rw [hcore]) f).trans (hpin f h1 h2)
  have hbad1 : ∀ w ∈ (s1.core s.myCore).scratchBad, w + 8 ≤ off ∨ off + bs.length ≤ w := by
    rw [hcore]; exact hbad
  have hpartly : (s1.core s.myCore).scratchBad.filter (fun w => w < off + bs.length && off < w + 8 &&
      !(off ≤ w && w + 8 ≤ off + bs.length)) = [] := by
    rw [List.filter_eq_nil_iff]
    intro w hw
    have := hbad1 w hw
    simp only [Bool.and_eq_true, decide_eq_true_eq, not_and]
    omega
  refine ⟨s1.scratchPut s.myCore off bs, ?_,
    putsBytes_of_marks (hs1 ▸ hmarks) (scratchPut_pinned s1 s.myCore off bs hpin1 hbad1)⟩
  simp only [State.storeAt, hwatch, Bool.false_eq_true, if_false, State.scratchStore, hown, hcheck, Did.bind, hs1, hpartly]

end Sys2Proof.Proofs
end

section
/-! Proofs, family 01 (thread): wspill and wfill (R15, R94, R95). -/

namespace Sys2Proof.Proofs

open Sys2Proof Sys2Proof.Machine Sys2Proof.Claim

/-! ### The access of a window transfer -/

theorem transfer_store_own {s : State} {va : Word} {off : Nat} {bs : List Byte} (after : State → List Byte → State)
    (hlen : bs.length = 64) (h : OwnBytes s va off 64) (hoff : off % 64 = 0) :
    ∃ t, s.transfer (.store bs) va after = .next ((after t []).advance 4) ∧ PutsBytes s t s.myCore off bs := by
  have hin : off < 0x60000 := by have := h.2.1; omega
  have hres := resolve_own s s.cur .store va 64 off false h.1 hin rfl (by omega)
  have hbehind := behind_own h s.nextId
  have hsc : s.scPending = false := h.2.2.2.2.2.2.1
  rw [← hlen] at h
  obtain ⟨t, ht, hp⟩ := storeAt_own h
  refine ⟨t, ?_, hp⟩
  have hmine : coreOf s.cur = s.myCore := rfl
  simp only [State.transfer, hsc, Bool.false_eq_true, if_false, hres, hmine, hbehind, ht]

theorem transfer_load_own {s : State} {va : Word} {off : Nat} (after : State → List Byte → State)
    (h : OwnBytes s va off 64) (hoff : off % 64 = 0) :
    s.transfer (.load false) va after =
      .next ((after s ((s.core s.myCore).scratch.readBytes off 64)).advance 4) := by
  have hin : off < 0x60000 := by have := h.2.1; omega
  have hres := resolve_own s s.cur .load va 64 off false h.1 hin rfl (by omega)
  have hbehind := behind_own h s.nextId
  have hsc : s.scPending = false := h.2.2.2.2.2.2.1
  have hmine : coreOf s.cur = s.myCore := rfl
  simp only [State.transfer, hsc, Bool.false_eq_true, if_false, hres, hmine, hbehind, loadAt_own h]

/-! ### The registers of a block -/

theorem blockBytes_length (t : Thread) (b : Nat) : (t.blockBytes b).length = 64 := by
  simp [Thread.blockBytes]

theorem byteOf_eq (v : Word) (j : Nat) : byteOf v j = BitVec.ofNat 8 (v.toNat / 256 ^ j) := by
  apply BitVec.eq_of_toNat_eq
  rw [byteOf, BitVec.extractLsb'_toNat, Nat.shiftRight_eq_div_pow, BitVec.toNat_ofNat, Nat.pow_mul]

/-- Byte `j` of register `i` of a block. -/
theorem blockBytes_getElem? (t : Thread) (b i j : Nat) (hi : i < 8) (hj : j < 8) :
    (t.blockBytes b)[8 * i + j]? = some (byteOf (t.readCode (8 * b + i)) j) := by
  rw [Thread.blockBytes, getElem?_flatMap_pieces _ 8 _ (fun _ => leBytes_length 8 _) i j hj, List.getElem?_range hi,
    Option.bind_some, leBytes_getElem? _ _ _ hj, byteOf_eq]

/-- Eight bytes of a value, read as a little-endian number, are the value. -/
theorem le_of_bytes (m : Memory) (a : Nat) (v : Word) (h : ∀ j < 8, m.read (a + j) = byteOf v j) :
    BitVec.ofNat 64 (le m a 8) = v := by
  have hd (j : Nat) (hj : j < 8) : (m.read (a + j)).toNat = v.toNat / 256 ^ j % 256 := by
    rw [h j hj, byteOf_eq, BitVec.toNat_ofNat]
  have hv := v.isLt
  apply BitVec.eq_of_toNat_eq
  simp only [le, List.range_succ, List.range_zero, List.map_append, List.map_cons, List.map_nil, List.nil_append,
    List.sum_append, List.sum_cons, List.sum_nil, hd, Nat.reduceLT, BitVec.toNat_ofNat]
  omega

theorem leNat_readBytes (m : Memory) (n : Nat) : ∀ a, leNat (m.readBytes a n) = le m a n := by
  induction n with
  | zero => intro a; rfl
  | succ n ih =>
    intro a
    rw [Memory.readBytes, leNat, ih, le, le, List.range_succ_eq_map, List.map_cons, List.sum_cons, List.map_map,
      ← List.sum_map_mul_left]
    simp only [Nat.add_zero, Nat.pow_zero, Nat.mul_one]
    congr 2
    refine List.map_congr_left fun i _ => ?_
    simp only [Function.comp, Nat.pow_succ', Nat.add_assoc, Nat.add_comm 1 i]
    ring

/-- The registers of a block written one after the other. -/
def fillBlock (b n : Nat) (v : Nat → Word) (t : Thread) : Thread :=
  (List.range n).foldl (fun t i => t.writeCode (8 * b + i) (v i)) t

theorem fillBlock_succ (b n : Nat) (v : Nat → Word) (t : Thread) :
    fillBlock b (n + 1) v t = (fillBlock b n v t).writeCode (8 * b + n) (v n) := by
  rw [fillBlock, List.range_succ, List.foldl_append]
  rfl

theorem fillBlock_frame (b n : Nat) (v : Nat → Word) (t : Thread) :
    fillBlock b n v t = { t with regs := (fillBlock b n v t).regs, badRegs := (fillBlock b n v t).badRegs } := by
  induction n with
  | zero => rfl
  | succ n ih =>
    rw [fillBlock_succ, Thread.writeCode_frame]
    rw [ih]

theorem readCode_fillBlock (b n : Nat) (v : Nat → Word) (t : Thread) (h : 8 * b + n ≤ 96) (k : Nat) :
    (fillBlock b n v t).readCode k = if 8 * b ≤ k ∧ k < 8 * b + n then v (k - 8 * b) else t.readCode k := by
  induction n with
  | zero => rw [if_neg (by omega)]; rfl
  | succ n ih =>
    rw [fillBlock_succ, Thread.readCode_writeCode _ _ _ _ (by omega), ih (by omega)]
    by_cases h96 : k = 96
    · subst h96; rw [if_pos rfl, if_neg (by omega), t.readCode_96]
    · rw [if_neg h96]
      by_cases hk : k = 8 * b + n
      · rw [if_pos hk, if_pos (by omega), hk, Nat.add_sub_cancel_left]
      · rw [if_neg hk]
        by_cases hin : 8 * b ≤ k ∧ k < 8 * b + n
        · rw [if_pos hin, if_pos (by omega)]
        · rw [if_neg hin, if_neg (by omega)]

/-! ### wspill -/

/-- What makes bytes of the own scratchpad plain depends on the dies, the accesses on their way and the owners of frames. -/
theorem ownBytes_congr {s t : State} {va : Word} {off n : Nat} (hcur : t.cur = s.cur) (hdies : t.dies = s.dies)
    (hreqs : t.reqs = s.reqs) (hflights : t.me.flights = s.me.flights)
    (howner : SameOwners (s.core s.myCore).frames (t.core s.myCore).frames)
    (hsctx : (t.core s.myCore).sctx = (s.core s.myCore).sctx)
    (hbad : (t.core s.myCore).scratchBad = (s.core s.myCore).scratchBad) (h : OwnBytes s va off n) :
    OwnBytes t va off n := by
  obtain ⟨hva, hin, hfence, hpin, hwatch, hgood, hsc, hreq⟩ := h
  have hmine : t.myCore = s.myCore := by rw [State.myCore, hcur]; rfl
  have hdie : t.die t.myDie = s.die s.myDie := by rw [State.myDie, hmine, State.die_of_dies s t hdies]; rfl
  have hw : t.watched (some s.myCore) off n = s.watched (some s.myCore) off n := by
    simp only [State.watched, State.someWatch, hdies]
  refine ⟨hva, hin, by rw [hdie]; exact hfence, fun f h1 h2 => ?_, by rw [hmine, hw]; exact hwatch, ?_,
    by rw [State.scPending, hflights]; exact hsc, ?_⟩
  · rw [hmine, pinned_congr howner hsctx]; exact hpin f h1 h2
  · rw [hmine, hbad]; exact hgood
  · rw [hreqs, hmine, hcur]; exact hreq

/-- R95: a spill within the limits stores the oldest resident block at WSP and moves past it. -/
theorem wspill_stores (s : State) (off b : Nat) (hm : s.me.mode = true) (hd : 0 < s.me.depth)
    (hn : s.me.spilled < 0xFFFFFF) (hown : OwnBytes s s.me.wsp off 64) (hoff : off % 64 = 0)
    (hb : b = (s.me.wb + 12 - s.me.depth) % 12) :
    ∃ t, exec .wspill s = .next t ∧ t = { s with threads := t.threads, cores := t.cores } ∧
      (∀ k, k ≠ s.cur → t.thread k = s.thread k) ∧
      t.me = { s.me with pc := s.me.pc + 4, wsp := s.me.wsp + 64, depth := s.me.depth - 1, spilled := s.me.spilled + 1 } ∧
      (∀ k, k ≠ s.myCore → t.core k = s.core k) ∧
      t.core s.myCore = { s.core s.myCore with
        scratch := (s.core s.myCore).scratch.writeBytes off (s.me.blockBytes b), frames := (t.core s.myCore).frames } ∧
      SameOwners (s.core s.myCore).frames (t.core s.myCore).frames := by
  let f : Thread → Thread := fun t => { t with wsp := t.wsp + 64, depth := t.depth - 1, spilled := t.spilled + 1 }
  obtain ⟨t, ht, hs, hother, hcore, howner⟩ :=
    transfer_store_own (fun s _ => s.modMe f) (blockBytes_length s.me b) hown hoff
  have hcur : t.cur = s.cur := by rw [hs]
  have hthread (k : Nat) : t.thread k = s.thread k := by rw [hs]; rfl
  have hme : t.me = s.me := by rw [State.me, hcur, hthread]; rfl
  have hlimits : (decide (s.me.depth = 0) || decide (s.me.spilled = 0xFFFFFF)) = false := by
    simp only [Bool.or_eq_false_iff, decide_eq_false_iff_not]
    omega
  refine ⟨(t.modMe f).advance 4, ?_, by rw [hs]; rfl, fun k hk => ?_, ?_, hother, hcore, howner⟩
  · show execWspill s = _
    rw [← ht, hb]
    simp only [execWspill, mayPrivileged_of_mode hm, hlimits, Bool.not_true, Bool.false_eq_true, if_false]
    rfl
  · rw [State.thread_advance_other _ _ _ (by rwa [State.modMe_cur, hcur]),
      State.thread_modMe_other _ _ _ (by rwa [hcur]), hthread]
  · rw [State.me_advance, State.me_modMe, hme]
    rfl

/-! ### wfill -/

/-- R95: a fill within the limits loads the block below the oldest resident one from below WSP. -/
theorem wfill_loads (s : State) (off b : Nat) (hm : s.me.mode = true) (hd : s.me.depth < 9) (hn : 0 < s.me.spilled)
    (hown : OwnBytes s (s.me.wsp - 64) off 64) (hoff : off % 64 = 0) (hb : b = (s.me.wb + 12 - s.me.depth - 1) % 12) :
    ∃ t, exec .wfill s = .next t ∧ OnlyMe s t ∧
      (∀ i < 8, t.me.readCode (8 * b + i) = BitVec.ofNat 64 (le (s.core s.myCore).scratch (off + 8 * i) 8)) ∧
      (∀ k, k < 8 * b ∨ 8 * b + 8 ≤ k → t.me.readCode k = s.me.readCode k) ∧
      t.me = { s.me with pc := s.me.pc + 4, wsp := s.me.wsp - 64, depth := s.me.depth + 1, spilled := s.me.spilled - 1
                         regs := t.me.regs, badRegs := t.me.badRegs } := by
  have hb12 : b < 12 := by rw [hb]; exact Nat.mod_lt _ (by decide)
  let bs := (s.core s.myCore).scratch.readBytes off 64
  let v : Nat → Word := fun i => BitVec.ofNat 64 (leNat ((bs.drop (8 * i)).take 8))
  have hv (i : Nat) (hi : i < 8) : v i = BitVec.ofNat 64 (le (s.core s.myCore).scratch (off + 8 * i) 8) := by
    show BitVec.ofNat 64 (leNat ((bs.drop (8 * i)).take 8)) = _
    rw [Memory.drop_readBytes, Memory.take_readBytes _ _ _ _ (by omega), leNat_readBytes]
  let f : Thread → Thread := fun t =>
    { fillBlock b 8 v t with wsp := (fillBlock b 8 v t).wsp - 64, depth := (fillBlock b 8 v t).depth + 1
                             spilled := (fillBlock b 8 v t).spilled - 1 }
  have hlimits : (decide (s.me.depth = 9) || decide (s.me.spilled = 0)) = false := by
    simp only [Bool.or_eq_false_iff, decide_eq_false_iff_not]
    omega
  have hme : ((s.modMe f).advance 4).me = { f s.me with pc := (f s.me).pc + 4 } := by
    rw [State.me_advance, State.me_modMe]
    rfl
  have hread (k : Nat) : ((s.modMe f).advance 4).me.readCode k = (fillBlock b 8 v s.me).readCode k := by rw [hme]; rfl
  refine ⟨(s.modMe f).advance 4, ?_, onlyMe_trans (onlyMe_setMe s (f s.me)) (onlyMe_setMe (s.modMe f) _), fun i hi => ?_,
    fun k hk => ?_, ?_⟩
  · show execWfill s = _
    simp only [execWfill, mayPrivileged_of_mode hm, hlimits, Bool.not_true, Bool.false_eq_true, if_false,
      transfer_load_own _ hown hoff, ← hb]
    rfl
  · rw [hread, readCode_fillBlock _ _ _ _ (by omega), if_pos (by omega), Nat.add_sub_cancel_left, hv i hi]
  · rw [hread, readCode_fillBlock _ _ _ _ (by omega), if_neg (by omega)]
  · rw [hme]
    simp only [f]
    rw [fillBlock_frame b 8 v s.me]

/-- R15, R95: a fill right behind a spill brings the thread's window back. -/
theorem wfill_undoes_wspill (s t : State) (off b : Nat) (hm : s.me.mode = true) (hd : 0 < s.me.depth)
    (hd9 : s.me.depth ≤ 9) (hown : OwnBytes t s.me.wsp off 64) (hoff : off % 64 = 0)
    (hb : b = (s.me.wb + 12 - s.me.depth) % 12)
    (hme : t.me =
      { s.me with pc := s.me.pc + 4, wsp := s.me.wsp + 64, depth := s.me.depth - 1, spilled := s.me.spilled + 1 })
    (hbytes : ∀ i < 8, ∀ j < 8, (t.core t.myCore).scratch.read (off + 8 * i + j) = byteOf (s.me.readCode (8 * b + i)) j) :
    ∃ u, exec .wfill t = .next u ∧ u.me.wsp = s.me.wsp ∧ u.me.depth = s.me.depth ∧ u.me.spilled = s.me.spilled ∧
      u.me.wb = s.me.wb ∧ ∀ k < 108, u.me.readCode k = s.me.readCode k := by
  have hwsp : t.me.wsp - 64 = s.me.wsp := by
    rw [hme]
    exact BitVec.add_sub_cancel _ _
  have hregs (k : Nat) : t.me.readCode k = s.me.readCode k := by rw [hme]; rfl
  obtain ⟨u, hu, -, hin, hout, hume⟩ := wfill_loads t off b (by rw [hme]; exact hm)
    (by rw [hme]; show s.me.depth - 1 < 9; omega) (by rw [hme]; exact Nat.succ_pos _) (by rwa [hwsp]) hoff
    (by rw [hme, hb]; show _ = (s.me.wb + 12 - (s.me.depth - 1) - 1) % 12; congr 1; omega)
  refine ⟨u, hu, ?_, ?_, ?_, ?_, fun k _ => ?_⟩
  · rw [hume]; exact hwsp
  · rw [hume, hme]; show s.me.depth - 1 + 1 = _; omega
  · rw [hume, hme]; rfl
  · rw [hume, hme]
  · by_cases hk : 8 * b ≤ k ∧ k < 8 * b + 8
    · obtain ⟨i, rfl⟩ := Nat.exists_eq_add_of_le hk.1
      rw [hin i (by omega)]
      exact le_of_bytes _ _ _ (hbytes i (by omega))
    · rw [hout k (by omega), hregs]

/-- Settles O39: the limits are operand checks of a handler; within them the block's bytes are those of its registers. -/
theorem windowBlocksSpillAndFill : Obligations.WindowBlocksSpillAndFill := by
  rintro s off _ rfl hm hg
  have hp := mayPrivileged_of_mode hm
  obtain ⟨h, hh, hcores, hme⟩ := badOperand_halts s hm hg
  refine ⟨fun hlim => ⟨h, ?_, by rw [hme], by rw [hme], by rw [hme], hcores⟩,
    fun hlim => ⟨h, ?_, by rw [hme], by rw [hme], by rw [hme], hcores⟩, fun b hd hd9 hn hown hoff hb => ?_,
    fun b hd hn hown hoff hb => wfill_loads s off b hm hd hn hown hoff hb⟩
  · show execWspill s = _
    rw [← hh]
    simp only [execWspill, hp, Bool.not_true, Bool.false_eq_true, if_false]
    rw [if_pos (by simpa using hlim)]
  · show execWfill s = _
    rw [← hh]
    simp only [execWfill, hp, Bool.not_true, Bool.false_eq_true, if_false]
    rw [if_pos (by simpa using hlim)]
  · obtain ⟨t, ht, hs, hthreads, hme, hother, hcore, howner⟩ := wspill_stores s off b hm hd hn hown hoff hb
    have hcur : t.cur = s.cur := by rw [hs]
    have hmine : t.myCore = s.myCore := by rw [State.myCore, hcur]; rfl
    have hlen := blockBytes_length s.me b
    have hbytes : ∀ i < 8, ∀ j < 8,
        (t.core s.myCore).scratch.read (off + 8 * i + j) = byteOf (s.me.readCode (8 * b + i)) j := by
      intro i hi j hj
      have hget := blockBytes_getElem? s.me b i j hi hj
      rw [List.getElem?_eq_getElem (by omega)] at hget
      rw [hcore, Nat.add_assoc]
      exact (Memory.read_writeBytes_inside _ _ _ _ (by omega)).trans (Option.some.inj hget)
    have hown' : OwnBytes t s.me.wsp off 64 := ownBytes_congr hcur (by rw [hs]) (by rw [hs]) (by rw [hme]) howner
      (by rw [hcore]) (by rw [hcore]) hown
    refine ⟨t, ht, hbytes, fun w hw => ?_, hother, hthreads, hs, hme, fun _ => ?_⟩
    · rw [hcore]
      exact Memory.read_writeBytes_outside _ _ _ _ (by omega)
    · exact wfill_undoes_wspill s t off b hm hd hd9 hown' hoff hb hme (by rwa [hmine])

end Sys2Proof.Proofs
end
section
/-! Proofs, family 02 (encoding): the fields of a halfword and of a word put together from its operands, format by
format (R37, R41, R42). -/

namespace Sys2Proof.Proofs

open Sys2Proof Sys2Proof.Machine Sys2Proof.Claim

/-- R37: a halfword of the short forms decodes to `i` if every halfword with its fields does. -/
theorem decodeHalf_fields {i : Instr} {k : BitVec 1} {s d o : BitVec 5} (h0 : ¬ (k = 0 ∧ s = 0 ∧ d = 0 ∧ o = 0))
    (h : ∀ w : Half, w ≠ 0 → w.extractLsb' 1 4 = o.extractLsb' 1 4 → w.extractLsb' 15 1 = k →
      w.extractLsb' 10 5 = s → w.extractLsb' 5 5 = d → decodeHalf w = .ok i) :
    decodeHalf (k ++ s ++ d ++ o) = .ok i := by
  have fields : (k ++ s ++ d ++ o).extractLsb' 15 1 = k ∧ (k ++ s ++ d ++ o).extractLsb' 10 5 = s ∧
      (k ++ s ++ d ++ o).extractLsb' 5 5 = d ∧ (k ++ s ++ d ++ o).extractLsb' 0 5 = o := by
    simp (disch := decide) only [ext_low, ext_high, ext_all, Nat.reduceSub, and_self]
  obtain ⟨hk, hs, hd, ho⟩ := fields
  refine h _ (fun hw => h0 ?_) (ext_low _ _ _ _ (by decide)) hk hs hd
  rw [hw] at hk hs hd ho
  exact ⟨hk.symm, hs.symm, hd.symm, ho.symm⟩

/-- R39: the same for skz, whose d holds a count below three reserved bits. -/
theorem decodeHalf_skip_fields {i : Instr} {k : BitVec 1} {s : Reg} {n : BitVec 2}
    (h : ∀ w : Half, w ≠ 0 → w.extractLsb' 1 4 = 15 → w.extractLsb' 15 1 = k → w.extractLsb' 10 5 = s →
      w.extractLsb' 7 3 = 0 → w.extractLsb' 5 2 = n → decodeHalf w = .ok i) :
    decodeHalf (k ++ s ++ 0#3 ++ n ++ 30#5) = .ok i := by
  have low : (k ++ s ++ 0#3 ++ n ++ 30#5).extractLsb' 0 5 = 30#5 := by
    simp (disch := decide) only [ext_low, ext_all]
  apply h
  · intro hw
    rw [hw] at low
    exact absurd low (by decide)
  · exact ext_low _ _ _ _ (by decide)
  all_goals simp (disch := decide) only [ext_low, ext_high, ext_all, Nat.reduceSub]
  rfl

/-! The major opcode stands in the low bits, whatever the fields above it (R41). -/

theorem fMajor_low7 (x : BitVec 25) (m : BitVec 7) : fMajor (x ++ m) = (m.extractLsb' 1 6).toNat := by
  simp (disch := decide) only [fMajor, ext_low]
theorem fMajor_low12 (x : BitVec 20) (m : BitVec 12) : fMajor (x ++ m) = (m.extractLsb' 1 6).toNat := by
  simp (disch := decide) only [fMajor, ext_low]
theorem fMajor_low17 (x : BitVec 15) (m : BitVec 17) : fMajor (x ++ m) = (m.extractLsb' 1 6).toNat := by
  simp (disch := decide) only [fMajor, ext_low]
theorem fMajor_low22 (x : BitVec 10) (m : BitVec 22) : fMajor (x ++ m) = (m.extractLsb' 1 6).toNat := by
  simp (disch := decide) only [fMajor, ext_low]
theorem fMajor_low26 (x : BitVec 6) (m : BitVec 26) : fMajor (x ++ m) = (m.extractLsb' 1 6).toNat := by
  simp (disch := decide) only [fMajor, ext_low]

/-- R41: the fields of format T. -/
structure FormatT (w : BitVec 32) (m : Nat) (f : BitVec 6) (L : BitVec 4) (b a d : Reg) : Prop where
  major : fMajor w = m
  func : fFunc w = f
  hint : fL w = L
  b : fB w = b
  a : fA w = a
  d : fD w = d

/-- R41: the fields of format I and of format Z, whose `sel` stands in d. -/
structure FormatI (w : BitVec 32) (m : Nat) (x : BitVec 15) (a d : Reg) : Prop where
  major : fMajor w = m
  imm : w.extractLsb' 17 15 = x
  a : fA w = a
  d : fD w = d

/-- R41: the fields of format M. -/
structure FormatM (w : BitVec 32) (m : Nat) (o : BitVec 8) (z : BitVec 3) (L : BitVec 4) (a d : Reg) : Prop where
  major : fMajor w = m
  size : fSz w = z
  off : fOff w = o
  hint : fLm w = L
  a : fA w = a
  d : fD w = d

/-- R41: the fields of format A. -/
structure FormatA (w : BitVec 32) (m : Nat) (f : BitVec 4) (s : BitVec 3) (o : BitVec 2) (z : BitVec 1) (b a d : Reg) :
    Prop where
  major : fMajor w = m
  op : w.extractLsb' 28 4 = f
  scope : w.extractLsb' 25 3 = s
  order : w.extractLsb' 23 2 = o
  size : w.extractLsb' 22 1 = z
  b : fB w = b
  a : fA w = a
  d : fD w = d

/-- R41: the fields of format B. -/
structure FormatB (w : BitVec 32) (m : Nat) (x : BitVec 12) (c : BitVec 3) (a b : Reg) : Prop where
  major : fMajor w = m
  cond : w.extractLsb' 17 3 = c
  disp : w.extractLsb' 20 12 = x
  a : fA w = a
  b : fD w = b

/-- R41, R46: the fields of format T in the vector unit, where func is an operation and a type. -/
structure FormatV (w : BitVec 32) (m : Nat) (o : BitVec 4) (t : BitVec 2) (L : BitVec 4) (b a d : Reg) : Prop where
  major : fMajor w = m
  op : w.extractLsb' 28 4 = o
  type : w.extractLsb' 26 2 = t
  hint : fL w = L
  b : fB w = b
  a : fA w = a
  d : fD w = d

theorem formatT (c : BitVec 10) (b a d : Reg) (m : BitVec 7) :
    FormatT (c ++ b ++ a ++ d ++ m) (m.extractLsb' 1 6).toNat (c.extractLsb' 4 6) (c.extractLsb' 0 4) b a d := by
  constructor <;> simp (disch := decide) only [fMajor, fFunc, fL, fB, fA, fD, ext_low, ext_high, ext_all, Nat.reduceSub]

theorem formatT_hint (f : BitVec 6) (L : BitVec 4) (b a d : Reg) (m : BitVec 7) :
    FormatT (f ++ L ++ b ++ a ++ d ++ m) (m.extractLsb' 1 6).toNat f L b a d := by
  constructor <;> simp (disch := decide) only [fMajor, fFunc, fL, fB, fA, fD, ext_low, ext_high, ext_all, Nat.reduceSub]

theorem formatT_noD (c : BitVec 10) (b a : Reg) (m : BitVec 12) :
    FormatT (c ++ b ++ a ++ m) (m.extractLsb' 1 6).toNat (c.extractLsb' 4 6) (c.extractLsb' 0 4) b a
      (m.extractLsb' 7 5) := by
  constructor <;> simp (disch := decide) only [fMajor, fFunc, fL, fB, fA, fD, ext_low, ext_high, ext_all, Nat.reduceSub]

theorem formatT_hint_noD (f : BitVec 6) (L : BitVec 4) (b a : Reg) (m : BitVec 12) :
    FormatT (f ++ L ++ b ++ a ++ m) (m.extractLsb' 1 6).toNat f L b a (m.extractLsb' 7 5) := by
  constructor <;> simp (disch := decide) only [fMajor, fFunc, fL, fB, fA, fD, ext_low, ext_high, ext_all, Nat.reduceSub]

theorem formatT_noB (c : BitVec 15) (a d : Reg) (m : BitVec 7) :
    FormatT (c ++ a ++ d ++ m) (m.extractLsb' 1 6).toNat (c.extractLsb' 9 6) (c.extractLsb' 5 4) (c.extractLsb' 0 5)
      a d := by
  constructor <;> simp (disch := decide) only [fMajor, fFunc, fL, fB, fA, fD, ext_low, ext_high, ext_all, Nat.reduceSub]

theorem formatT_onlyA (c : BitVec 15) (a : Reg) (m : BitVec 12) :
    FormatT (c ++ a ++ m) (m.extractLsb' 1 6).toNat (c.extractLsb' 9 6) (c.extractLsb' 5 4) (c.extractLsb' 0 5) a
      (m.extractLsb' 7 5) := by
  constructor <;> simp (disch := decide) only [fMajor, fFunc, fL, fB, fA, fD, ext_low, ext_high, ext_all, Nat.reduceSub]

theorem formatT_onlyD (c : BitVec 20) (d : Reg) (m : BitVec 7) :
    FormatT (c ++ d ++ m) (m.extractLsb' 1 6).toNat (c.extractLsb' 14 6) (c.extractLsb' 10 4) (c.extractLsb' 5 5)
      (c.extractLsb' 0 5) d := by
  constructor <;> simp (disch := decide) only [fMajor, fFunc, fL, fB, fA, fD, ext_low, ext_high, ext_all, Nat.reduceSub]

theorem formatI (x : BitVec 15) (a d : Reg) (m : BitVec 7) :
    FormatI (x ++ a ++ d ++ m) (m.extractLsb' 1 6).toNat x a d := by
  constructor <;> simp (disch := decide) only [fMajor, fA, fD, ext_low, ext_high, ext_all, Nat.reduceSub]

theorem formatZ (x : BitVec 15) (a : Reg) (m : BitVec 12) :
    FormatI (x ++ a ++ m) (m.extractLsb' 1 6).toNat x a (m.extractLsb' 7 5) := by
  constructor <;> simp (disch := decide) only [fMajor, fA, fD, ext_low, ext_high, ext_all, Nat.reduceSub]

theorem formatM (o : BitVec 8) (z : BitVec 3) (L : BitVec 4) (a d : Reg) (m : BitVec 7) :
    FormatM (o ++ z ++ L ++ a ++ d ++ m) (m.extractLsb' 1 6).toNat o z L a d := by
  constructor <;>
    simp (disch := decide) only [fMajor, fOff, fSz, fLm, fA, fD, ext_low, ext_high, ext_all, Nat.reduceSub]

theorem formatA (f : BitVec 4) (s : BitVec 3) (o : BitVec 2) (z : BitVec 1) (b a d : Reg) (m : BitVec 7) :
    FormatA (f ++ s ++ o ++ z ++ b ++ a ++ d ++ m) (m.extractLsb' 1 6).toNat f s o z b a d := by
  constructor <;> simp (disch := decide) only [fMajor, fB, fA, fD, ext_low, ext_high, ext_all, Nat.reduceSub]

theorem formatB (x : BitVec 12) (c : BitVec 3) (a b : Reg) (m : BitVec 7) :
    FormatB (x ++ c ++ a ++ b ++ m) (m.extractLsb' 1 6).toNat x c a b := by
  constructor <;> simp (disch := decide) only [fMajor, fA, fD, ext_low, ext_high, ext_all, Nat.reduceSub]

theorem formatV (o : BitVec 4) (t : BitVec 2) (L : BitVec 4) (b a d : Reg) (m : BitVec 7) :
    FormatV (o ++ t ++ L ++ b ++ a ++ d ++ m) (m.extractLsb' 1 6).toNat o t L b a d := by
  constructor <;> simp (disch := decide) only [fMajor, fL, fB, fA, fD, ext_low, ext_high, ext_all, Nat.reduceSub]

theorem formatV_noD (o : BitVec 4) (t : BitVec 2) (L : BitVec 4) (b a : Reg) (m : BitVec 12) :
    FormatV (o ++ t ++ L ++ b ++ a ++ m) (m.extractLsb' 1 6).toNat o t L b a (m.extractLsb' 7 5) := by
  constructor <;> simp (disch := decide) only [fMajor, fL, fB, fA, fD, ext_low, ext_high, ext_all, Nat.reduceSub]

section
variable {w e : BitVec 32} {p : Block} {i : Instr} {m : Nat}

/-! A word decodes to `i` if every word with its fields does. -/

theorem FormatT.reads {f : BitVec 6} {L : BitVec 4} {b a d : Reg} (hw : FormatT w m f L b a d)
    (h : ∀ v, FormatT v m f L b a d → decodeWord v e p = .ok i) : decodeWord w e p = .ok i := h w hw

theorem FormatI.reads {x : BitVec 15} {a d : Reg} (hw : FormatI w m x a d)
    (h : ∀ v, FormatI v m x a d → decodeWord v e p = .ok i) : decodeWord w e p = .ok i := h w hw

theorem FormatM.reads {o : BitVec 8} {z : BitVec 3} {L : BitVec 4} {a d : Reg} (hw : FormatM w m o z L a d)
    (h : ∀ v, FormatM v m o z L a d → decodeWord v e p = .ok i) : decodeWord w e p = .ok i := h w hw

theorem FormatA.reads {f : BitVec 4} {s : BitVec 3} {o : BitVec 2} {z : BitVec 1} {b a d : Reg}
    (hw : FormatA w m f s o z b a d) (h : ∀ v, FormatA v m f s o z b a d → decodeWord v e p = .ok i) :
    decodeWord w e p = .ok i := h w hw

theorem FormatB.reads {x : BitVec 12} {c : BitVec 3} {a b : Reg} (hw : FormatB w m x c a b)
    (h : ∀ v, FormatB v m x c a b → decodeWord v e p = .ok i) : decodeWord w e p = .ok i := h w hw

theorem FormatV.reads {o : BitVec 4} {t : BitVec 2} {L : BitVec 4} {b a d : Reg} (hw : FormatV w m o t L b a d)
    (h : ∀ v, FormatV v m o t L b a d → decodeWord v e p = .ok i) : decodeWord w e p = .ok i := h w hw

end

end Sys2Proof.Proofs
end
section
/-! Proofs, family 02 (encoding): the words of a well-formed instruction decode to it (R37–R39, R41–R47). -/

namespace Sys2Proof.Proofs

open Sys2Proof Sys2Proof.Machine Sys2Proof.Claim

/-- The words of a well-formed instruction, where it has any, decode to it. -/
def ReadsBack (i : Instr) : Prop :=
  i.wellFormed = true → ∀ p, encodeParcel i = some p → decodeParcel p = .ok i

def AllReadBack (l : List Instr) : Prop := ∀ i ∈ l, ReadsBack i

theorem selected_ok {ok : Bool} {r : Except DecodeError Instr} {i : Instr} (h : ok = true) (hr : r = .ok i) :
    selected ok r = .ok i := by rw [selected, if_pos h, hr]

/-! The rows of R38 and R46, format by format. Each is evaluated for any word that has the row's fields. -/

theorem shortReg_reads (d s : Reg) :
    AllReadBack [.shortAddReg d s, .shortSubReg d s, .shortAndReg d s, .shortOrReg d s, .shortXorReg d s,
      .shortShlReg d s, .shortShrReg d s, .shortSraReg d s, .shortMinReg d s, .shortMaxReg d s, .shortSltReg d s,
      .shortMulReg d s, .shortLdReg d s, .shortStReg d s] := by
  intro i hi
  fin_cases hi <;>
  · rintro - p ⟨⟩
    exact decodeHalf_fields (by simp) fun w h0 ho hk hs hd => by
      rw [decodeHalf, if_neg h0, ho, hk, hs, hd]; rfl

theorem shortImm_reads (d : Reg) (i : BitVec 5) :
    AllReadBack [.shortMvImm d i, .shortAddImm d i, .shortSubImm d i, .shortAndImm d i, .shortOrImm d i,
      .shortXorImm d i, .shortShlImm d i, .shortShrImm d i, .shortSraImm d i, .shortMinImm d i, .shortMaxImm d i,
      .shortSltImm d i, .shortMulImm d i, .shortLdOff d i, .shortStImm d i] := by
  intro i hi
  fin_cases hi <;>
  · rintro - p ⟨⟩
    exact decodeHalf_fields (by simp) fun w h0 ho hk hs hd => by
      rw [decodeHalf, if_neg h0, ho, hk, hs, hd]; rfl

theorem formatT_reads (d a b : Reg) :
    AllReadBack [.add d a b, .sub d a b, .and d a b, .or d a b, .xor d a b, .andn d a b, .shl d a b, .shr d a b,
      .sra d a b, .rol d a b, .min d a b, .max d a b, .minu d a b, .maxu d a b, .slt d a b, .sltu d a b,
      .seq d a b, .mul d a b, .mulh d a b, .mulhu d a b, .div d a b, .divu d a b, .rem d a b, .remu d a b,
      .chtry d a b, .lpatch d a b, .jsig d a b, .stf d a b, .sbBind d a b, .qpop d a b, .qpush d a b,
      .lease d a b, .lrel d a b, .trgPost d a b, .trgCancel d a b, .ctrAdd d a b, .ctrWait d a b, .grpSt d a b,
      .grpLd d a b] := by
  intro i hi
  fin_cases hi <;>
  · rintro - p ⟨⟩
    exact (formatT ..).reads fun w ⟨hm, hf, hL, hb, ha, hd⟩ => by
      rw [decodeWord, hm, decodeAlu, decodeChannels, decodeLaunch, decodeJoin, decodeFutures, decodeQueues,
        decodeLease, decodeTriggers, decodeCollective, hf, hL, hb, ha, hd]; rfl

theorem formatT_noB_reads (d a : Reg) :
    AllReadBack [.clz d a, .ctz d a, .popc d a, .bswap d a, .brev d a, .twany d a, .twall d a, .tffr d a,
      .chrcv d a, .vstat d a, .spawn d a, .spawnc d a, .barArr d a, .ldf d a, .gjoin d a, .gleave d a,
      .lqry d a, .ctrRd d a] := by
  intro i hi
  fin_cases hi <;>
  · rintro - p ⟨⟩
    exact (formatT_noB ..).reads fun w ⟨hm, hf, hL, hb, ha, hd⟩ => by
      rw [decodeWord, hm, decodeAlu, decodeTags, decodeChannels, decodeVecControl, decodeLaunch, decodeBarrier,
        decodeFutures, decodeLease, decodeTriggers, hf, hL, hb, ha, hd]; rfl

theorem formatT_noD_reads (a b : Reg) :
    AllReadBack [.chsnd a b, .jwait a b, .barWait a b, .barT1 a b, .barSet a b, .barBytes a b, .barBind a b] := by
  intro i hi
  fin_cases hi <;>
  · rintro - p ⟨⟩
    exact (formatT_noD ..).reads fun w ⟨hm, hf, hL, hb, ha, hd⟩ => by
      rw [decodeWord, hm, decodeChannels, decodeJoin, decodeBarrier, hf, hL, hb, ha, hd]; rfl

theorem formatT_onlyA_reads (a : Reg) :
    AllReadBack [.jr a, .callr8 a, .callr16 a, .tclr a, .vfence a, .mwait a, .sbRet a] := by
  intro i hi
  fin_cases hi <;>
  · rintro - p ⟨⟩
    exact (formatT_onlyA ..).reads fun w ⟨hm, hf, hL, hb, ha, hd⟩ => by
      rw [decodeWord, hm, decodeJump, decodeTags, decodeVecControl, decodeMatrixGroup, decodeFutures, hf, hL, hb, ha,
        hd]; rfl

theorem formatT_onlyD_reads (d : Reg) (e : BitVec 32) :
    AllReadBack [.lit d e, .litZ d e, .litH d e, .wstat d, .rng d, .schedNext d] := by
  intro i hi
  fin_cases hi <;>
  · rintro - p ⟨⟩
    exact (formatT_onlyD ..).reads fun w ⟨hm, hf, hL, hb, ha, hd⟩ => by
      rw [decodeWord, hm, decodeLit, decodeWindow, decodeRng, decodeQueues, hf, hL, hb, ha, hd]; rfl

theorem formatT_hint_reads (d a b : Reg) (L : BitVec 4) (q : Block) :
    AllReadBack [.vmov d a b L, .vcmx d a b L, .ksend d a b L, .put d a b L, .get d a b L, .radd d a b L,
      .rcas d a b L, .racc d a L, .coll d a b L q] := by
  intro i hi
  fin_cases hi <;>
  · rintro - p ⟨⟩
    exact (formatT_hint ..).reads fun w ⟨hm, hf, hL, hb, ha, hd⟩ => by
      rw [decodeWord, hm, decodeVecMove, decodeKeyed, decodeRemote, decodeCollective, hf, hL, hb, ha, hd]; rfl

theorem formatT_hint_noD_reads (a b : Reg) (L : BitVec 4) (q : Block) :
    AllReadBack [.pfL2 a L, .pfRdc a L, .cln a L, .inv a L, .flush a L, .zln a L, .vbcast a b L, .vgath a b L,
      .vscat a b L, .vcomp a b L, .vexpd a b L, .vscan a b L, .vrev a b L, .vmrg a b L, .vbton a b L,
      .vrank a b L, .msave a b L, .mrest a b L, .mepi a L q, .mldb a L q] := by
  intro i hi
  fin_cases hi <;>
  · rintro - p ⟨⟩
    exact (formatT_hint_noD ..).reads fun w ⟨hm, hf, hL, hb, ha, hd⟩ => by
      rw [decodeWord, hm, decodeCache, decodeVecMove, decodeMepi, decodeMatrixGroup, hf, hL, hb, ha, hd]; rfl

theorem formatI_reads (d a : Reg) (x : BitVec 15) :
    AllReadBack [.addi d a x, .andi d a x, .ori d a x, .xori d a x] := by
  intro i hi
  fin_cases hi <;>
  · rintro - p ⟨⟩
    exact (formatI ..).reads fun w ⟨hm, hx, ha, hd⟩ => by
      rw [decodeWord, hm, decodeAddi, decodeAndi, decodeOri, decodeXori, hx, ha, hd]; rfl

theorem formatZ_reads (a : Reg) (x : BitVec 15) :
    AllReadBack [.bz a x, .bnz a x, .loop a x] := by
  intro i hi
  fin_cases hi <;>
  · rintro - p ⟨⟩
    exact (formatZ ..).reads fun w ⟨hm, hx, ha, hd⟩ => by
      rw [decodeWord, hm, decodeBranchZero, decodeLoop, hx, ha, hd]; rfl

theorem formatB_reads (a b : Reg) (x : BitVec 12) :
    AllReadBack [.bEq a b x, .bNe a b x, .bLt a b x, .bGe a b x, .bLtu a b x, .bGeu a b x] := by
  intro i hi
  fin_cases hi <;>
  · rintro - p ⟨⟩
    exact (formatB ..).reads fun w ⟨hm, hc, hx, ha, hb⟩ => by
      rw [decodeWord, hm, decodeBranch, hc, hx, ha, hb]; rfl

theorem formatM_reads (d a : Reg) (o : BitVec 8) (L : BitVec 4) :
    AllReadBack [.ldB d a o L, .ldH d a o L, .ldW d a o L, .ldD d a o L, .ldBu d a o L, .ldHu d a o L,
      .ldWu d a o L, .stB d a o L, .stH d a o L, .stW d a o L, .stD d a o L, .ldp d a o L, .ldq d a o L,
      .stp d a o L, .stq d a o L, .ldScW d a o L, .ldScD d a o L, .stScW d a o L, .stScD d a o L] := by
  intro i hi
  fin_cases hi <;>
  · rintro - p ⟨⟩
    exact (formatM ..).reads fun w ⟨hm, hz, ho, hL, ha, hd⟩ => by
      rw [decodeWord, hm, decodeLoad, decodeStore, decodeGroup, decodeSc, hz, ho, hL, ha, hd]; rfl

theorem formatA_reads (d : Reg) (s : BitVec 3) (a b : Reg) (z : BitVec 1) (o : BitVec 2) :
    AllReadBack [.amoSwap d s a b z o, .amoAdd d s a b z o, .amoAnd d s a b z o, .amoOr d s a b z o,
      .amoXor d s a b z o, .amoMin d s a b z o, .amoMax d s a b z o, .amoMinu d s a b z o, .amoMaxu d s a b z o,
      .amoCas d s a b z o] := by
  intro i hi
  fin_cases hi <;>
  · rintro hw p ⟨⟩
    exact (formatA ..).reads fun w ⟨hm, hf, hs, ho, hz, hb, ha, hd⟩ => by
      rw [decodeWord, hm, decodeAmo, hf, hs, ho, hz, hb, ha, hd]; exact selected_ok hw rfl

theorem formatV_reads (d a b : Reg) (w : BitVec 2) (L : BitVec 4) :
    AllReadBack [.vaddInt d a b w L, .vsubInt d a b w L, .vmulInt d a b w L, .vminInt d a b w L,
      .vmaxInt d a b w L, .vminu d a b w L, .vmaxu d a b w L, .vand d a b w L, .vor d a b w L, .vxor d a b w L,
      .vshl d a b w L, .vshr d a b w L, .vsra d a b w L, .vceqInt d a b w L, .vcltInt d a b w L,
      .vcltu d a b w L] := by
  intro i hi
  fin_cases hi <;>
  · rintro - p ⟨⟩
    exact (formatV ..).reads fun w ⟨hm, ho, ht, hL, hb, ha, hd⟩ => by
      rw [decodeWord, hm, decodeVecInt, ho, ht, hL, hb, ha, hd]; rfl

/-! The rows of R46 whose type has to be one that the operation has. -/

theorem formatV_typed_reads (d a b : Reg) (t : BitVec 2) (L : BitVec 4) :
    AllReadBack [.vaddFp d a b t L, .vsubFp d a b t L, .vmulFp d a b t L, .vfma d a b t L, .vfms d a b t L,
      .vminFp d a b t L, .vmaxFp d a b t L, .vceqFp d a b t L, .vcltFp d a b t L, .vcle d a b t L,
      .vscale d a b t L, .vdiv d a b t L] := by
  intro i hi
  fin_cases hi <;>
  · rintro hw p ⟨⟩
    exact (formatV ..).reads fun w ⟨hm, ho, ht, hL, hb, ha, hd⟩ => by
      rw [decodeWord, hm, decodeVecFp, decodeVecSpecial, ho, ht, hL, hb, ha, hd]; exact selected_ok hw rfl

theorem formatV_noD_typed_reads (a b : Reg) (t : BitVec 2) (L : BitVec 4) :
    AllReadBack [.vabs a b t L, .vneg a b t L, .vsum a b t L, .vmaxr a b t L, .vrcp a b t L, .vrsqrt a b t L,
      .vsqrt a b t L, .vexp2 a b t L, .vlog2 a b t L, .vtanh a b t L, .vsigm a b t L, .vgelu a b t L,
      .vsilu a b t L] := by
  intro i hi
  fin_cases hi <;>
  · rintro hw p ⟨⟩
    exact (formatV_noD ..).reads fun w ⟨hm, ho, ht, hL, hb, ha, hd⟩ => by
      rw [decodeWord, hm, decodeVecFp, decodeVecSpecial, ho, ht, hL, hb, ha, hd]; exact selected_ok hw rfl

/-! Words that hold other fields than those of the formats: each field is read off the word. -/

theorem shiftImm_reads (d a : Reg) (n : BitVec 6) :
    AllReadBack [.shli d a n, .shri d a n, .srai d a n, .roli d a n] := by
  intro i hi
  fin_cases hi <;>
  · rintro - p ⟨⟩
    rw [decodeParcel, decodeWord, fMajor_low7]
    simp (disch := decide) only [BitVec.reduceExtractLsb', BitVec.reduceToNat, decodeShiftImm, fA, fD, ext_low,
      ext_high, ext_all, Nat.reduceSub]
    rfl

theorem cmpImm_reads (d a : Reg) (k : BitVec 13) :
    AllReadBack [.slti d a k, .sltui d a k, .seqi d a k] := by
  intro i hi
  fin_cases hi <;>
  · rintro - p ⟨⟩
    rw [decodeParcel, decodeWord, fMajor_low7]
    simp (disch := decide) only [BitVec.reduceExtractLsb', BitVec.reduceToNat, decodeCmpImm, fA, fD, ext_low,
      ext_high, ext_all, Nat.reduceSub]

theorem sel_skip_lea_reads (d a b c : Reg) (n : BitVec 2) (x : BitVec 14) :
    AllReadBack [.sel d a b c, .selN d a b c, .skipEq a b n, .skipNe a b n, .skipLt a b n, .skipGe a b n,
      .skipLtu a b n, .skipGeu a b n, .lea d n a b, .leaPc d x] := by
  intro i hi
  fin_cases hi <;>
  · rintro - p ⟨⟩
    rw [decodeParcel, decodeWord, fMajor_low7]
    simp (disch := decide) only [BitVec.reduceExtractLsb', BitVec.reduceToNat, decodeSel, decodeSkip, decodeLea,
      fFunc, fD, fA, fB, fL, ext_low, ext_high, ext_all, Nat.reduceSub]
    rfl

theorem jump_reads (x : BitVec 25) :
    AllReadBack [.j x, .call8 x, .call16 x] := by
  intro i hi
  fin_cases hi <;>
  · rintro - p ⟨⟩
    rw [decodeParcel, decodeWord, fMajor_low7]
    simp (disch := decide) only [BitVec.reduceExtractLsb', BitVec.reduceToNat, decodeJ, decodeCall8, decodeCall16,
      ext_high, ext_all, Nat.reduceSub]

theorem system_reads (d a b : Reg) (n : BitVec 10) (x : BitVec 12) (k : BitVec 3) :
    AllReadBack [.trap d n, .mfs d x, .vcur a b k] := by
  intro i hi
  fin_cases hi <;>
  · rintro - p ⟨⟩
    rw [decodeParcel, decodeWord, fMajor_low7]
    simp (disch := decide) only [BitVec.reduceExtractLsb', BitVec.reduceToNat, decodeSystem, decodeStateReg,
      decodeVecControl, fFunc, fD, fA, fB, fL, ext_low, ext_high, ext_all, Nat.reduceSub]
    rfl

theorem indexed_reads (d a b : Reg) (s : BitVec 2) (z : BitVec 3) (L : BitVec 4) :
    AllReadBack [.ldx d s a b z L, .stx d s a b z L] := by
  intro i hi
  fin_cases hi <;>
  · rintro hw p ⟨⟩
    rw [decodeParcel, decodeWord, fMajor_low7]
    simp (disch := decide) only [BitVec.reduceExtractLsb', BitVec.reduceToNat, decodeIndexed, fD, fA, fB, fL,
      ext_low, ext_high, ext_all, Nat.reduceSub]
    exact selected_ok hw rfl

/-! Rows that select by part of a register field: sext and zext by a width, vcvt by the high bits of func (R42, R70,
R195). -/

theorem width_cases : ∀ w : BitVec 2, w < 3 → w = 0 ∨ w = 1 ∨ w = 2 := by decide

theorem width_eq (w : BitVec 32) : w.extractLsb' 17 2 = (fB w).extractLsb' 0 2 := by
  ext j hj
  simp [fB, show j < 5 by omega]

theorem toNat_seven_append (f : BitVec 3) : (7#3 ++ f).toNat = f.toNat + 44 + 12 := by
  revert f; decide

theorem vcvt_reads (s f : BitVec 3) (a b : Reg) (L : BitVec 4) : ReadsBack (.vcvt s a b f L) := by
  rintro - p ⟨⟩
  have hf : (fFunc (7#3 ++ f ++ L ++ b ++ a ++ 0#2 ++ s ++ 87#7)).toNat = f.toNat + 44 + 12 := by
    simp (disch := decide) only [fFunc, ext_high, ext_all, Nat.reduceSub, toNat_seven_append]
  rw [decodeParcel, decodeWord, fMajor_low7]
  change decodeVecMove _ = _
  rw [decodeVecMove, hf]
  change selected _ (clear _ (.vcvt _ _ _ _ _)) = _
  simp (disch := decide) only [fA, fL, fB, ext_low, ext_high, ext_all, Nat.reduceSub]
  rfl

/-- Every instruction reads back: by its format (R37, R41), or its fields where it departs from the formats; an event
has no words. -/
theorem readsBack (i : Instr) : ReadsBack i := by
  cases i with
  | shortMvReg d s =>
    rintro hw p ⟨⟩
    have h0 : ¬ (0#1 = 0 ∧ s = 0 ∧ d = 0 ∧ 0#5 = 0) := fun ⟨_, hs, hd, _⟩ => by
      subst hs hd; exact absurd hw (by decide)
    exact decodeHalf_fields h0 fun w h0 ho hk hs hd => by
      rw [decodeHalf, if_neg h0, ho, hk, hs, hd]; rfl
  | shortAddReg d s | shortSubReg d s | shortAndReg d s | shortOrReg d s | shortXorReg d s | shortShlReg d s
    | shortShrReg d s | shortSraReg d s | shortMinReg d s | shortMaxReg d s | shortSltReg d s | shortMulReg d s
    | shortLdReg d s | shortStReg d s =>
    exact shortReg_reads d s _ (by simp)
  | shortMvImm d i | shortAddImm d i | shortSubImm d i | shortAndImm d i | shortOrImm d i | shortXorImm d i
    | shortShlImm d i | shortShrImm d i | shortSraImm d i | shortMinImm d i | shortMaxImm d i | shortSltImm d i
    | shortMulImm d i | shortLdOff d i | shortStImm d i =>
    exact shortImm_reads d i _ (by simp)
  | skz s n | skzN s n =>
    rintro - p ⟨⟩
    exact decodeHalf_skip_fields fun w h0 ho hk hs hr hn => by
      rw [decodeHalf, if_neg h0, ho, hk, hs, hr, hn]; rfl
  | add d a b | sub d a b | and d a b | or d a b | xor d a b | andn d a b | shl d a b | shr d a b | sra d a b
    | rol d a b | min d a b | max d a b | minu d a b | maxu d a b | slt d a b | sltu d a b | seq d a b | mul d a b
    | mulh d a b | mulhu d a b | div d a b | divu d a b | rem d a b | remu d a b | chtry d a b | lpatch d a b
    | jsig d a b | stf d a b | sbBind d a b | qpop d a b | qpush d a b | lease d a b | lrel d a b | trgPost d a b
    | trgCancel d a b | ctrAdd d a b | ctrWait d a b | grpSt d a b | grpLd d a b =>
    exact formatT_reads d a b _ (by simp)
  | clz d a | ctz d a | popc d a | bswap d a | brev d a | twany d a | twall d a | tffr d a | chrcv d a | vstat d a
    | spawn d a | spawnc d a | barArr d a | ldf d a | gjoin d a | gleave d a | lqry d a | ctrRd d a =>
    exact formatT_noB_reads d a _ (by simp)
  | chsnd a b | jwait a b | barWait a b | barT1 a b | barSet a b | barBytes a b | barBind a b =>
    exact formatT_noD_reads a b _ (by simp)
  | jr a | callr8 a | callr16 a | tclr a | vfence a | mwait a | sbRet a =>
    exact formatT_onlyA_reads a _ (by simp)
  | lit d e | litZ d e | litH d e =>
    exact formatT_onlyD_reads d e _ (by simp)
  | wstat d | rng d | schedNext d =>
    exact formatT_onlyD_reads d 0 _ (by simp)
  | vmov d a b L | vcmx d a b L | ksend d a b L | put d a b L | get d a b L | radd d a b L | rcas d a b L =>
    exact formatT_hint_reads d a b L 0 _ (by simp)
  | racc d a L =>
    exact formatT_hint_reads d a 0 L 0 _ (by simp)
  | coll d a b L q =>
    exact formatT_hint_reads d a b L q _ (by simp)
  | pfL2 a L | pfRdc a L | cln a L | inv a L | flush a L | zln a L =>
    exact formatT_hint_noD_reads a 0 L 0 _ (by simp)
  | vbcast a b L | vgath a b L | vscat a b L | vcomp a b L | vexpd a b L | vscan a b L | vrev a b L | vmrg a b L
    | vbton a b L | vrank a b L | msave a b L | mrest a b L =>
    exact formatT_hint_noD_reads a b L 0 _ (by simp)
  | mepi a L q | mldb a L q =>
    exact formatT_hint_noD_reads a 0 L q _ (by simp)
  | addi d a x | andi d a x | ori d a x | xori d a x =>
    exact formatI_reads d a x _ (by simp)
  | bz a x | bnz a x | loop a x =>
    exact formatZ_reads a x _ (by simp)
  | bEq a b x | bNe a b x | bLt a b x | bGe a b x | bLtu a b x | bGeu a b x =>
    exact formatB_reads a b x _ (by simp)
  | ldB d a o L | ldH d a o L | ldW d a o L | ldD d a o L | ldBu d a o L | ldHu d a o L | ldWu d a o L | stB d a o L
    | stH d a o L | stW d a o L | stD d a o L | ldp d a o L | ldq d a o L | stp d a o L | stq d a o L
    | ldScW d a o L | ldScD d a o L | stScW d a o L | stScD d a o L =>
    exact formatM_reads d a o L _ (by simp)
  | amoSwap d s a b z o | amoAdd d s a b z o | amoAnd d s a b z o | amoOr d s a b z o | amoXor d s a b z o
    | amoMin d s a b z o | amoMax d s a b z o | amoMinu d s a b z o | amoMaxu d s a b z o | amoCas d s a b z o =>
    exact formatA_reads d s a b z o _ (by simp)
  | vaddInt d a b w L | vsubInt d a b w L | vmulInt d a b w L | vminInt d a b w L | vmaxInt d a b w L
    | vminu d a b w L | vmaxu d a b w L | vand d a b w L | vor d a b w L | vxor d a b w L | vshl d a b w L
    | vshr d a b w L | vsra d a b w L | vceqInt d a b w L | vcltInt d a b w L | vcltu d a b w L =>
    exact formatV_reads d a b w L _ (by simp)
  | vaddFp d a b t L | vsubFp d a b t L | vmulFp d a b t L | vfma d a b t L | vfms d a b t L | vminFp d a b t L
    | vmaxFp d a b t L | vceqFp d a b t L | vcltFp d a b t L | vcle d a b t L | vscale d a b t L | vdiv d a b t L =>
    exact formatV_typed_reads d a b t L _ (by simp)
  | vabs a b t L | vneg a b t L | vsum a b t L | vmaxr a b t L | vrcp a b t L | vrsqrt a b t L | vsqrt a b t L
    | vexp2 a b t L | vlog2 a b t L | vtanh a b t L | vsigm a b t L | vgelu a b t L | vsilu a b t L =>
    exact formatV_noD_typed_reads a b t L _ (by simp)
  | sext d a w | zext d a w =>
    rintro hw p ⟨⟩
    obtain rfl | rfl | rfl := width_cases w (of_decide_eq_true hw) <;>
    exact (formatT_noB ..).reads fun v ⟨hm, hf, hL, hb, ha, hd⟩ => by
      rw [decodeWord, hm, decodeAlu, width_eq, hf, hL, hb, ha, hd]; rfl
  | shli d a n | shri d a n | srai d a n | roli d a n =>
    exact shiftImm_reads d a n _ (by simp)
  | slti d a k | sltui d a k | seqi d a k =>
    exact cmpImm_reads d a k _ (by simp)
  | sel d a b c | selN d a b c =>
    exact sel_skip_lea_reads d a b c 0 0 _ (by simp)
  | skipEq a b n | skipNe a b n | skipLt a b n | skipGe a b n | skipLtu a b n | skipGeu a b n =>
    exact sel_skip_lea_reads 0 a b 0 n 0 _ (by simp)
  | lea d s a b => exact sel_skip_lea_reads d a b 0 s 0 _ (by simp)
  | leaPc d x => exact sel_skip_lea_reads d 0 0 0 0 x _ (by simp)
  | j x | call8 x | call16 x => exact jump_reads x _ (by simp)
  | trap d n => exact system_reads d 0 0 n 0 0 _ (by simp)
  | mfs d x => exact system_reads d 0 0 0 x 0 _ (by simp)
  | vcur a b n => exact system_reads 0 a b 0 0 n _ (by simp)
  | ldx d s a b z L | stx d s a b z L => exact indexed_reads d a b s z L _ (by simp)
  | fence s o =>
    rintro hw p ⟨⟩
    rw [decodeParcel, decodeWord, fMajor_low26]
    simp (disch := decide) only [BitVec.reduceExtractLsb', BitVec.reduceToNat, decodeFence, fD, fA, fB, fL,
      ext_low, ext_high, ext_all, Nat.reduceSub]
    exact selected_ok hw rfl
  | qfence a b =>
    rintro - p ⟨⟩
    rw [decodeParcel, decodeWord, fMajor_low12]
    simp (disch := decide) only [BitVec.reduceExtractLsb', BitVec.reduceToNat, decodeFence, fD, fA, fB, fL,
      ext_low, ext_high, ext_all, Nat.reduceSub]
    rfl
  | mts a x =>
    rintro - p ⟨⟩
    rw [decodeParcel, decodeWord, fMajor_low12]
    simp (disch := decide) only [BitVec.reduceExtractLsb', BitVec.reduceToNat, decodeStateReg, fD, fA,
      ext_low, ext_high, ext_all, Nat.reduceSub]
    rfl
  | vcvt s a b f L =>
    exact vcvt_reads s f a b L
  | mma L p =>
    rintro - p ⟨⟩
    rw [decodeParcel, decodeWord, fMajor_low22]
    simp (disch := decide) only [BitVec.reduceExtractLsb', BitVec.reduceToNat, decodeMma, fFunc, fL, fD, fA, fB,
      ext_low, ext_high, ext_all, Nat.reduceSub]
    rfl
  | mzero b L =>
    rintro - p ⟨⟩
    rw [decodeParcel, decodeWord, fMajor_low17]
    simp (disch := decide) only [BitVec.reduceExtractLsb', BitVec.reduceToNat, decodeMatrixGroup, fFunc, fD, fA, fB, fL,
      ext_low, ext_high, ext_all, Nat.reduceSub]
    rfl
  | ret | nop | rte | done | yield | wspill | wfill | gang2 | gang4 | gang8 | disband =>
    rintro - p ⟨⟩; rfl
  | _ => rintro - p ⟨⟩

end Sys2Proof.Proofs
end
section
/-! Proofs, family 02 (encoding): the statements about the encoder and the decoder (R32, R33, R40, R46). -/

namespace Sys2Proof.Proofs

open Sys2Proof Sys2Proof.Machine Sys2Proof.Claim Sys2Proof.Laws

/-- R32, R33: the words of every instruction are framed as they were encoded. -/
theorem framed (i : Instr) : Framed.Statement i := by
  cases i with
  | shortMvReg d s => exact Framed.shortMvReg d s | shortMvImm d i => exact Framed.shortMvImm d i
  | shortAddReg d s => exact Framed.shortAddReg d s | shortAddImm d i => exact Framed.shortAddImm d i
  | shortSubReg d s => exact Framed.shortSubReg d s | shortSubImm d i => exact Framed.shortSubImm d i
  | shortAndReg d s => exact Framed.shortAndReg d s | shortAndImm d i => exact Framed.shortAndImm d i
  | shortOrReg d s => exact Framed.shortOrReg d s | shortOrImm d i => exact Framed.shortOrImm d i
  | shortXorReg d s => exact Framed.shortXorReg d s | shortXorImm d i => exact Framed.shortXorImm d i
  | shortShlReg d s => exact Framed.shortShlReg d s | shortShlImm d i => exact Framed.shortShlImm d i
  | shortShrReg d s => exact Framed.shortShrReg d s | shortShrImm d i => exact Framed.shortShrImm d i
  | shortSraReg d s => exact Framed.shortSraReg d s | shortSraImm d i => exact Framed.shortSraImm d i
  | shortMinReg d s => exact Framed.shortMinReg d s | shortMinImm d i => exact Framed.shortMinImm d i
  | shortMaxReg d s => exact Framed.shortMaxReg d s | shortMaxImm d i => exact Framed.shortMaxImm d i
  | shortSltReg d s => exact Framed.shortSltReg d s | shortSltImm d i => exact Framed.shortSltImm d i
  | shortMulReg d s => exact Framed.shortMulReg d s | shortMulImm d i => exact Framed.shortMulImm d i
  | shortLdReg d s => exact Framed.shortLdReg d s | shortLdOff d i => exact Framed.shortLdOff d i
  | shortStReg d s => exact Framed.shortStReg d s | shortStImm d i => exact Framed.shortStImm d i
  | skz s n => exact Framed.skz s n | skzN s n => exact Framed.skzN s n | add d a b => exact Framed.add d a b
  | sub d a b => exact Framed.sub d a b | and d a b => exact Framed.and d a b | or d a b => exact Framed.or d a b
  | xor d a b => exact Framed.xor d a b | andn d a b => exact Framed.andn d a b | shl d a b => exact Framed.shl d a b
  | shr d a b => exact Framed.shr d a b | sra d a b => exact Framed.sra d a b | rol d a b => exact Framed.rol d a b
  | min d a b => exact Framed.min d a b | max d a b => exact Framed.max d a b | minu d a b => exact Framed.minu d a b
  | maxu d a b => exact Framed.maxu d a b | slt d a b => exact Framed.slt d a b
  | sltu d a b => exact Framed.sltu d a b | seq d a b => exact Framed.seq d a b | mul d a b => exact Framed.mul d a b
  | mulh d a b => exact Framed.mulh d a b | mulhu d a b => exact Framed.mulhu d a b
  | div d a b => exact Framed.div d a b | divu d a b => exact Framed.divu d a b | rem d a b => exact Framed.rem d a b
  | remu d a b => exact Framed.remu d a b | clz d a => exact Framed.clz d a | ctz d a => exact Framed.ctz d a
  | popc d a => exact Framed.popc d a | bswap d a => exact Framed.bswap d a | brev d a => exact Framed.brev d a
  | sext d a w => exact Framed.sext d a w | zext d a w => exact Framed.zext d a w
  | addi d a i => exact Framed.addi d a i | andi d a i => exact Framed.andi d a i
  | ori d a i => exact Framed.ori d a i | xori d a i => exact Framed.xori d a i
  | shli d a n => exact Framed.shli d a n | shri d a n => exact Framed.shri d a n
  | srai d a n => exact Framed.srai d a n | roli d a n => exact Framed.roli d a n
  | slti d a k => exact Framed.slti d a k | sltui d a k => exact Framed.sltui d a k
  | seqi d a k => exact Framed.seqi d a k | lit d e => exact Framed.lit d e | litZ d e => exact Framed.litZ d e
  | litH d e => exact Framed.litH d e | sel d a b c => exact Framed.sel d a b c
  | selN d a b c => exact Framed.selN d a b c | skipEq a b n => exact Framed.skipEq a b n
  | skipNe a b n => exact Framed.skipNe a b n | skipLt a b n => exact Framed.skipLt a b n
  | skipGe a b n => exact Framed.skipGe a b n | skipLtu a b n => exact Framed.skipLtu a b n
  | skipGeu a b n => exact Framed.skipGeu a b n | lea d s a b => exact Framed.lea d s a b
  | leaPc d i => exact Framed.leaPc d i | bEq a b i => exact Framed.bEq a b i | bNe a b i => exact Framed.bNe a b i
  | bLt a b i => exact Framed.bLt a b i | bGe a b i => exact Framed.bGe a b i | bLtu a b i => exact Framed.bLtu a b i
  | bGeu a b i => exact Framed.bGeu a b i | bz a i => exact Framed.bz a i | bnz a i => exact Framed.bnz a i
  | j i => exact Framed.j i | call8 i => exact Framed.call8 i | call16 i => exact Framed.call16 i
  | jr a => exact Framed.jr a | callr8 a => exact Framed.callr8 a | callr16 a => exact Framed.callr16 a
  | ret => exact Framed.ret | loop a i => exact Framed.loop a i | ldB d a o L => exact Framed.ldB d a o L
  | ldH d a o L => exact Framed.ldH d a o L | ldW d a o L => exact Framed.ldW d a o L
  | ldD d a o L => exact Framed.ldD d a o L | ldBu d a o L => exact Framed.ldBu d a o L
  | ldHu d a o L => exact Framed.ldHu d a o L | ldWu d a o L => exact Framed.ldWu d a o L
  | stB d a o L => exact Framed.stB d a o L | stH d a o L => exact Framed.stH d a o L
  | stW d a o L => exact Framed.stW d a o L | stD d a o L => exact Framed.stD d a o L
  | ldx d s a b z L => exact Framed.ldx d s a b z L | stx d s a b z L => exact Framed.stx d s a b z L
  | ldp d a o L => exact Framed.ldp d a o L | ldq d a o L => exact Framed.ldq d a o L
  | stp d a o L => exact Framed.stp d a o L | stq d a o L => exact Framed.stq d a o L
  | amoSwap d s a b z o => exact Framed.amoSwap d s a b z o | amoAdd d s a b z o => exact Framed.amoAdd d s a b z o
  | amoAnd d s a b z o => exact Framed.amoAnd d s a b z o | amoOr d s a b z o => exact Framed.amoOr d s a b z o
  | amoXor d s a b z o => exact Framed.amoXor d s a b z o | amoMin d s a b z o => exact Framed.amoMin d s a b z o
  | amoMax d s a b z o => exact Framed.amoMax d s a b z o | amoMinu d s a b z o => exact Framed.amoMinu d s a b z o
  | amoMaxu d s a b z o => exact Framed.amoMaxu d s a b z o | amoCas d s a b z o => exact Framed.amoCas d s a b z o
  | fence s o => exact Framed.fence s o | qfence a b => exact Framed.qfence a b | pfL2 a L => exact Framed.pfL2 a L
  | pfRdc a L => exact Framed.pfRdc a L | cln a L => exact Framed.cln a L | inv a L => exact Framed.inv a L
  | flush a L => exact Framed.flush a L | zln a L => exact Framed.zln a L
  | ldScW d a o L => exact Framed.ldScW d a o L | ldScD d a o L => exact Framed.ldScD d a o L
  | stScW d a o L => exact Framed.stScW d a o L | stScD d a o L => exact Framed.stScD d a o L
  | nop => exact Framed.nop | trap d n => exact Framed.trap d n | rte => exact Framed.rte | done => exact Framed.done
  | yield => exact Framed.yield | mfs d x => exact Framed.mfs d x | mts a x => exact Framed.mts a x
  | wspill => exact Framed.wspill | wfill => exact Framed.wfill | wstat d => exact Framed.wstat d
  | twany d a => exact Framed.twany d a | twall d a => exact Framed.twall d a | tffr d a => exact Framed.tffr d a
  | tclr a => exact Framed.tclr a | chsnd a b => exact Framed.chsnd a b | chrcv d a => exact Framed.chrcv d a
  | chtry d a b => exact Framed.chtry d a b | gang2 => exact Framed.gang2 | gang4 => exact Framed.gang4
  | gang8 => exact Framed.gang8 | disband => exact Framed.disband | rng d => exact Framed.rng d
  | vaddFp d a b t L => exact Framed.vaddFp d a b t L | vsubFp d a b t L => exact Framed.vsubFp d a b t L
  | vmulFp d a b t L => exact Framed.vmulFp d a b t L | vfma d a b t L => exact Framed.vfma d a b t L
  | vfms d a b t L => exact Framed.vfms d a b t L | vminFp d a b t L => exact Framed.vminFp d a b t L
  | vmaxFp d a b t L => exact Framed.vmaxFp d a b t L | vabs a b t L => exact Framed.vabs a b t L
  | vneg a b t L => exact Framed.vneg a b t L | vceqFp d a b t L => exact Framed.vceqFp d a b t L
  | vcltFp d a b t L => exact Framed.vcltFp d a b t L | vcle d a b t L => exact Framed.vcle d a b t L
  | vsum a b t L => exact Framed.vsum a b t L | vmaxr a b t L => exact Framed.vmaxr a b t L
  | vscale d a b t L => exact Framed.vscale d a b t L | vaddInt d a b w L => exact Framed.vaddInt d a b w L
  | vsubInt d a b w L => exact Framed.vsubInt d a b w L | vmulInt d a b w L => exact Framed.vmulInt d a b w L
  | vminInt d a b w L => exact Framed.vminInt d a b w L | vmaxInt d a b w L => exact Framed.vmaxInt d a b w L
  | vminu d a b w L => exact Framed.vminu d a b w L | vmaxu d a b w L => exact Framed.vmaxu d a b w L
  | vand d a b w L => exact Framed.vand d a b w L | vor d a b w L => exact Framed.vor d a b w L
  | vxor d a b w L => exact Framed.vxor d a b w L | vshl d a b w L => exact Framed.vshl d a b w L
  | vshr d a b w L => exact Framed.vshr d a b w L | vsra d a b w L => exact Framed.vsra d a b w L
  | vceqInt d a b w L => exact Framed.vceqInt d a b w L | vcltInt d a b w L => exact Framed.vcltInt d a b w L
  | vcltu d a b w L => exact Framed.vcltu d a b w L | vrcp a b t L => exact Framed.vrcp a b t L
  | vrsqrt a b t L => exact Framed.vrsqrt a b t L | vsqrt a b t L => exact Framed.vsqrt a b t L
  | vexp2 a b t L => exact Framed.vexp2 a b t L | vlog2 a b t L => exact Framed.vlog2 a b t L
  | vtanh a b t L => exact Framed.vtanh a b t L | vsigm a b t L => exact Framed.vsigm a b t L
  | vgelu a b t L => exact Framed.vgelu a b t L | vsilu a b t L => exact Framed.vsilu a b t L
  | vdiv d a b t L => exact Framed.vdiv d a b t L | vmov d a b L => exact Framed.vmov d a b L
  | vbcast a b L => exact Framed.vbcast a b L | vgath a b L => exact Framed.vgath a b L
  | vscat a b L => exact Framed.vscat a b L | vcomp a b L => exact Framed.vcomp a b L
  | vexpd a b L => exact Framed.vexpd a b L | vscan a b L => exact Framed.vscan a b L
  | vrev a b L => exact Framed.vrev a b L | vcmx d a b L => exact Framed.vcmx d a b L
  | vmrg a b L => exact Framed.vmrg a b L | vbton a b L => exact Framed.vbton a b L
  | vrank a b L => exact Framed.vrank a b L | vcvt s a b f L => exact Framed.vcvt s a b f L
  | vcur a b n => exact Framed.vcur a b n | vfence a => exact Framed.vfence a | vstat d a => exact Framed.vstat d a
  | ksend d a b L => exact Framed.ksend d a b L | racc d a L => exact Framed.racc d a L
  | mma L p => exact Framed.mma L p | mepi a L p => exact Framed.mepi a L p | mldb a L p => exact Framed.mldb a L p
  | mzero b L => exact Framed.mzero b L | msave a b L => exact Framed.msave a b L
  | mrest a b L => exact Framed.mrest a b L | mwait a => exact Framed.mwait a
  | lpatch d a b => exact Framed.lpatch d a b | spawn d a => exact Framed.spawn d a
  | spawnc d a => exact Framed.spawnc d a | jsig d a b => exact Framed.jsig d a b
  | jwait a b => exact Framed.jwait a b | barArr d a => exact Framed.barArr d a
  | barWait a b => exact Framed.barWait a b | barT1 a b => exact Framed.barT1 a b
  | barSet a b => exact Framed.barSet a b | barBytes a b => exact Framed.barBytes a b
  | barBind a b => exact Framed.barBind a b | ldf d a => exact Framed.ldf d a | stf d a b => exact Framed.stf d a b
  | gjoin d a => exact Framed.gjoin d a | gleave d a => exact Framed.gleave d a
  | sbBind d a b => exact Framed.sbBind d a b | sbRet a => exact Framed.sbRet a
  | qpop d a b => exact Framed.qpop d a b | qpush d a b => exact Framed.qpush d a b
  | schedNext d => exact Framed.schedNext d | put d a b L => exact Framed.put d a b L
  | get d a b L => exact Framed.get d a b L | radd d a b L => exact Framed.radd d a b L
  | rcas d a b L => exact Framed.rcas d a b L | lease d a b => exact Framed.lease d a b
  | lrel d a b => exact Framed.lrel d a b | lqry d a => exact Framed.lqry d a
  | trgPost d a b => exact Framed.trgPost d a b | trgCancel d a b => exact Framed.trgCancel d a b
  | ctrAdd d a b => exact Framed.ctrAdd d a b | ctrWait d a b => exact Framed.ctrWait d a b
  | ctrRd d a => exact Framed.ctrRd d a | coll d a b L p => exact Framed.coll d a b L p
  | grpSt d a b => exact Framed.grpSt d a b | grpLd d a b => exact Framed.grpLd d a b
  | _ => rintro p rest ⟨⟩

theorem bytes_length (p : Parcel) : p.bytes.length = p.length := by
  cases p <;> rfl

/-- Settles O2: what R33 frames from the bytes are the words of the instruction, and these decode to it. -/
theorem decodingInvertsEncoding : Obligations.DecodingInvertsEncoding := by
  intro i p rest hw hp
  constructor
  · simp only [decode, framed i p rest hp, readsBack i hw p hp]
  · simp only [encode, hp, bytes_length]

/-! ### Halfwords (R40) -/

theorem decode_half (h : Half) (rest : List Byte) (hbit : h.getLsbD 0 = false) :
    decode (h.extractLsb' 0 8 :: h.extractLsb' 8 8 :: rest) = (decodeHalf h).map (·, 2) := by
  have hlow : h.extractLsb' 0 1 = 0 := by
    ext j hj
    simpa [show j = 0 by omega] using hbit
  have hframe : frame (h.extractLsb' 0 8 :: h.extractLsb' 8 8 :: rest) = some (.half h) := frame_half h rest hlow
  simp only [decode, hframe, decodeParcel]
  cases decodeHalf h <;> rfl

/-- R38, R39: below op 15 every op is an instruction in both forms; skz is one where its reserved bits are zero. -/
theorem decodeHalf_isOk (h : Half) (h0 : h ≠ 0) (hr : ¬ (h.extractLsb' 1 4 = 15 ∧ h.extractLsb' 7 3 ≠ 0)) :
    ∃ i, decodeHalf h = .ok i := by
  have ho := (h.extractLsb' 1 4).isLt
  have hk := (h.extractLsb' 15 1).isLt
  rw [decodeHalf, if_neg h0]
  by_cases h15 : h.extractLsb' 1 4 = 15
  · have hz : h.extractLsb' 7 3 = 0 := by_contra fun hne => hr ⟨h15, hne⟩
    rw [h15, hz]
    generalize (h.extractLsb' 15 1).toNat = k at hk
    interval_cases k <;> exact ⟨_, rfl⟩
  · have hlt : (h.extractLsb' 1 4).toNat < 15 := by
      have hne : (h.extractLsb' 1 4).toNat ≠ 15 := fun he => h15 (BitVec.eq_of_toNat_eq he)
      omega
    generalize (h.extractLsb' 1 4).toNat = o at hlt
    generalize (h.extractLsb' 15 1).toNat = k at hk
    interval_cases o <;> interval_cases k <;> exact ⟨_, rfl⟩

/-- R39, R43: skz with a reserved bit set. -/
theorem decodeHalf_reserved (h : Half) (h15 : h.extractLsb' 1 4 = 15) (hr : h.extractLsb' 7 3 ≠ 0) :
    decodeHalf h = .error .reservedField := by
  have h0 : h ≠ 0 := by rintro rfl; exact absurd h15 (by decide)
  have hk := (h.extractLsb' 15 1).isLt
  rw [decodeHalf, if_neg h0, h15, beq_eq_false_iff_ne.mpr hr]
  generalize (h.extractLsb' 15 1).toNat = k at hk
  interval_cases k <;> rfl

/-- Settles O3: by the op of the halfword. -/
theorem halfwordsAreInstructionsButZero : Obligations.HalfwordsAreInstructionsButZero := by
  refine ⟨fun rest => decode_half 0 rest rfl, fun s ha => ?_, fun h rest h0 hbit => ?_, rfl⟩
  · exact traps_of_takeTrap rfl ha
      (t := { code := 0x01, sub := BitVec.ofNat 8 0, eval := (0 : BitVec 32).zeroExtend 64 })
  simp only [decode_half h rest hbit]
  refine ⟨fun hr => ?_, fun h15 hr => ?_⟩
  · obtain ⟨i, hi⟩ := decodeHalf_isOk h h0 hr
    exact ⟨i, by rw [hi]; rfl⟩
  · rw [decodeHalf_reserved h h15 hr]; rfl

/-! ### Words written out (R37, R41) -/

/-- Settles O1: each word is closed, so that the decoder runs on it. -/
theorem wordsStandForTheirInstructions : Obligations.WordsStandForTheirInstructions :=
  ⟨rfl, rfl, rfl, rfl, rfl, rfl, rfl, rfl, rfl, rfl, rfl, rfl, rfl, rfl⟩

end Sys2Proof.Proofs
end
section
/-! Proofs, family 02 (encoding): the short forms, the immediate forms and the operations of one source register
(R38, R70, R72–R74, R76, R79). -/

namespace Sys2Proof.Proofs

open Sys2Proof Sys2Proof.Machine Sys2Proof.Claim

/-! ### The arithmetic, in the words of the statements -/

/-- A count that an immediate holds is its own value: it has at most six bits. -/
theorem count_of_immediate {n : Nat} (i : BitVec n) (hn : n ≤ 6) : (i.zeroExtend 64).toNat % 64 = i.toNat := by
  have hi := i.isLt
  have hpow : 2 ^ n ≤ 2 ^ 6 := Nat.pow_le_pow_right (by decide) hn
  rw [BitVec.zeroExtend_eq_setWidth, BitVec.toNat_setWidth, Nat.mod_eq_of_lt (a := i.toNat) (by omega)]
  omega

theorem mul_eq_ofNat (x y : Word) : x * y = BitVec.ofNat 64 (x.toNat * y.toNat) :=
  BitVec.eq_of_toNat_eq (by rw [BitVec.toNat_mul, BitVec.toNat_ofNat])

theorem rolW_immediate (x : Word) (n : BitVec 6) :
    rolW x (n.zeroExtend 64) = x <<< n.toNat ||| x >>> (64 - n.toNat) := by
  rw [rolW, count_of_immediate n (by decide), BitVec.rotateLeft_def, Nat.mod_eq_of_lt n.isLt]

theorem toInt_immediate {n : Nat} (k : BitVec n) (hn : n ≤ 64) : (k.signExtend 64).toInt = k.toInt :=
  BitVec.toInt_signExtend_of_le hn

theorem eq_iff_toInt (x y : Word) : x = y ↔ x.toInt = y.toInt := BitVec.toInt_inj.symm

theorem ctzW_eq (x : Word) {n : Nat} (hn : n ≤ 64) (hz : ∀ i < n, x.getLsbD i = false)
    (h1 : n = 64 ∨ x.getLsbD n = true) : ctzW x = BitVec.ofNat 64 n := by
  rw [ctzW, lowestSet_eq x n 0 64 hn (by simpa using hz) (by simpa using h1), Nat.zero_add]

theorem getLsbD_brevW (x : Word) (i : Nat) (hi : i < 64) : (brevW x).getLsbD i = x.getLsbD (63 - i) := by
  rw [brevW, BitVec.getLsbD_reverse, BitVec.getMsbD_eq_getLsbD, decide_eq_true hi, Bool.true_and]

/-- R70: the leading zeros of a word are the trailing ones of its bits reversed. -/
theorem clzW_eq (x : Word) {n : Nat} (hn : n ≤ 64) (hz : ∀ i < n, x.getLsbD (63 - i) = false)
    (h1 : n = 64 ∨ x.getLsbD (63 - n) = true) : clzW x = BitVec.ofNat 64 n := by
  refine ctzW_eq (brevW x) hn (fun i hi => ?_) ?_
  · rw [getLsbD_brevW x i (by omega), hz i hi]
  · rcases Nat.lt_or_ge n 64 with hlt | hge
    · exact h1.imp_right fun h => by rw [getLsbD_brevW x n hlt, h]
    · exact .inl (by omega)

theorem brevW_eq (x v : Word) (h : ∀ k < 64, v.getLsbD k = x.getLsbD (63 - k)) : brevW x = v :=
  BitVec.eq_of_getLsbD_eq fun k hk => by rw [getLsbD_brevW x k hk, h k hk]

theorem extractLsb'_bswapW (x : Word) {k : Nat} (hk : k < 8) :
    (bswapW x).extractLsb' (8 * k) 8 = x.extractLsb' (56 - 8 * k) 8 := by
  interval_cases k <;> simp (disch := decide) only [bswapW, ext_low, ext_high, ext_all, Nat.reduceSub, Nat.reduceMul]

/-- A word is determined by its bytes. -/
theorem eq_of_bytes {x y : Word} (h : ∀ k < 8, x.extractLsb' (8 * k) 8 = y.extractLsb' (8 * k) 8) : x = y := by
  refine BitVec.eq_of_getLsbD_eq fun j hj => ?_
  have hbit := congrArg (·.getLsbD (j % 8)) (h (j / 8) (by omega))
  simpa only [BitVec.getLsbD_extractLsb', Nat.mod_lt _ (by decide : 8 > 0), decide_true, Bool.true_and,
    Nat.div_add_mod] using hbit

theorem bswapW_eq (x v : Word) (h : ∀ k < 8, v.extractLsb' (8 * k) 8 = x.extractLsb' (56 - 8 * k) 8) : bswapW x = v :=
  eq_of_bytes fun k hk => by rw [extractLsb'_bswapW x hk, h k hk]

/-! ### The instructions -/

/-- What `gives_of_ends` asks for, where the instruction computes its value by another expression. -/
theorem gives_of_ends_eq {i : Instr} {s : State} {len : Nat} {d : Reg} {v v' : Word} (h : exec i s = s.ends len d v)
    (hv : v = v') : Gives i s len d v' := gives_of_ends (hv ▸ h)

theorem short_forms_give_their_result : Claim.ShortFormsGiveTheirResult := by
  intro s d r i v
  have himm : (i.zeroExtend 64).toNat % 64 = i.toNat := count_of_immediate i (by decide)
  refine ⟨?shl, ?shr, ?sra, ?both⟩
  case shl =>
    rintro f g n m ⟨⟩ rfl rfl
    exact ⟨gives_of_ends rfl, gives_of_ends_eq rfl (congrArg (v <<< ·) himm)⟩
  case shr =>
    rintro f g n m ⟨⟩ rfl rfl
    exact ⟨gives_of_ends rfl, gives_of_ends_eq rfl (congrArg (v >>> ·) himm)⟩
  case sra =>
    rintro f g n m ⟨⟩ rfl rfl
    exact ⟨gives_of_ends rfl, gives_of_ends_eq rfl (congrArg v.sshiftRight himm)⟩
  case both =>
    rintro (_ | _) x rfl
    all_goals
      exact ⟨gives_of_ends rfl, gives_of_ends rfl, gives_of_ends rfl, gives_of_ends rfl, gives_of_ends rfl,
        gives_of_ends rfl, gives_of_ends_eq rfl (minS_eq ..), gives_of_ends_eq rfl (maxS_eq ..),
        gives_of_ends_eq rfl (sltW_eq ..), gives_of_ends_eq rfl (mul_eq_ofNat ..)⟩

theorem immediate_forms_give_their_result : Claim.ImmediateFormsGiveTheirResult := by
  rintro s d a b i n k e p z x rfl
  have hn : (n.zeroExtend 64).toNat % 64 = n.toNat := count_of_immediate n (by decide)
  have hk : (k.signExtend 64).toInt = k.toInt := toInt_immediate k (by decide)
  refine ⟨gives_of_ends rfl, gives_of_ends rfl, gives_of_ends rfl, gives_of_ends rfl, ?shl, ?shr, ?sra, ?rol, ?slti,
    ?sltui, ?seqi, gives_of_ends rfl, gives_of_ends rfl, ?litH, ?lea, ?leaPc⟩
  case shl => exact gives_of_ends_eq rfl (congrArg (s.rd a <<< ·) hn)
  case shr => exact gives_of_ends_eq rfl (congrArg (s.rd a >>> ·) hn)
  case sra => exact gives_of_ends_eq rfl (congrArg (s.rd a).sshiftRight hn)
  case rol => exact gives_of_ends_eq rfl (rolW_immediate ..)
  case slti => exact gives_of_ends_eq rfl (by rw [sltW_eq, hk])
  case sltui => exact gives_of_ends_eq rfl (sltuW_eq ..)
  case seqi => exact gives_of_ends_eq rfl (by simp only [seqW_eq, eq_iff_toInt, hk])
  case litH => exact gives_of_ends_eq rfl (by rw [BitVec.setWidth_eq_extractLsb' (by decide)])
  case lea => exact gives_of_ends_eq rfl (scaled_eq ..)
  case leaPc => exact gives_of_ends_eq rfl (by rw [halfwords_eq])

theorem bit_counts_reversals_and_extensions : Claim.BitCountsReversalsAndExtensions := by
  rintro s d a x rfl
  refine ⟨fun n hn hz h1 => gives_of_ends_eq rfl (clzW_eq _ hn hz h1),
    fun n hn hz h1 => gives_of_ends_eq rfl (ctzW_eq _ hn hz h1), gives_of_ends_eq rfl (by rw [popcW, countOnes_eq]),
    fun v hv => gives_of_ends_eq rfl (bswapW_eq _ v hv), fun v hv => gives_of_ends_eq rfl (brevW_eq _ v hv), ?exts⟩
  case exts =>
    rw [BitVec.setWidth_eq_extractLsb' (by decide : 8 ≤ 64), BitVec.setWidth_eq_extractLsb' (by decide : 16 ≤ 64),
      BitVec.setWidth_eq_extractLsb' (by decide : 32 ≤ 64)]
    exact ⟨gives_of_ends rfl, gives_of_ends rfl, gives_of_ends rfl, gives_of_ends rfl, gives_of_ends rfl,
      gives_of_ends rfl⟩

/-- Settles O7: each form ends with one register written, and the value is the one its rule gives. -/
theorem oneOperandAndImmediateFormsGiveTheirResult : Obligations.OneOperandAndImmediateFormsGiveTheirResult :=
  ⟨short_forms_give_their_result, immediate_forms_give_their_result, bit_counts_reversals_and_extensions⟩


end Sys2Proof.Proofs
end
section
/-! Proofs, family 02 (encoding): how a slot comes to issue the instruction at its PC (R35, R48, R51, R123). -/

namespace Sys2Proof.Proofs

open Sys2Proof Sys2Proof.Machine Sys2Proof.Claim

/-! ### An attempt to issue -/

/-- Nothing keeps the slot, which is in no gang, from issuing what stands at its PC (R24, R88, R91, R123, R144,
R363). -/
structure MayIssue (s : State) (tid : Nat) : Prop where
  ready : (s.thread tid).life = .ready
  alone : (s.thread tid).gang = false
  undeferred : (s.thread tid).deferred = []
  unaborted : (s.thread tid).abort = none
  unyielding : (s.thread tid).yielding = false
  unheld : (s.thread tid).held = false
  running : (s.core (coreOf tid)).stopped = false
  here : s.coreLost (coreOf tid) = false
  unsaved : (s.core (coreOf tid)).saving (slotOf tid) = false
  clocked : s.clocked (dieOf (coreOf tid)) = true

theorem followers_alone {s : State} {tid : Nat} (h : (s.thread tid).gang = false) : s.followers tid = [] := by
  simp [State.followers, h]

theorem follows_alone {x : Thread} (h : x.gang = false) : x.follows = false := by simp [Thread.follows, h]

theorem due_of_undeferred {x : Thread} (h : x.deferred = []) : x.due = [] := by simp [Thread.due, h]

theorem beingSaved_alone {s : State} {tid : Nat} (h : (s.thread tid).gang = false) :
    s.beingSaved tid = (s.core (coreOf tid)).saving (slotOf tid) := by
  simp [State.beingSaved, State.gangOf, h]

theorem yieldHolds_unyielding {s : State} {tid : Nat} (h : (s.thread tid).gang = false)
    (hy : (s.thread tid).yielding = false) : s.yieldHolds tid = false := by
  simp [State.yieldHolds, follows_alone h, Thread.yields, hy]

theorem tryIssue_eq_issueOwn {s : State} {tid : Nat} (h : MayIssue s tid) : s.tryIssue tid = s.issueOwn tid := by
  simp [State.tryIssue, h.ready, h.running, h.here, h.clocked, due_of_undeferred h.undeferred, h.unaborted,
    beingSaved_alone h.alone, h.unsaved, yieldHolds_unyielding h.alone h.unyielding, h.unyielding, h.unheld,
    followers_alone h.alone, follows_alone h.alone]

/-! ### What the bytes at the PC issue as -/

theorem badSource_of_goodRegs {x : Thread} (i : Instr) (fwd : Option Outcome) (h : x.badRegs = []) :
    x.badSource i fwd = none := by
  rw [Thread.badSource, h, Option.map_eq_none_iff, List.find?_eq_none]
  simp

/-- R147: an instruction of a thread without uncorrectable registers executes as such. -/
theorem execChecked_of_goodRegs {u : State} {tid : Nat} (i : Instr) (h : (u.thread tid).badRegs = []) :
    u.execChecked tid i = exec i u := by
  rw [State.execChecked, badSource_of_goodRegs i u.fwd h]

/-- What the attempt to issue `i` in `u` came to when `i` ended in `t`. -/
def attempted (u : State) (tid : Nat) (i : Instr) (t : State) : Try :=
  if t.stalled then .waits { t with stalled := false, fwd := none }
  else .issued (State.issuedAs { t with fwd := none } tid i ((u.thread tid).flights.map (·.id)))

theorem execute_next {u t : State} {tid : Nat} {i : Instr} (f : Forwarded) (hbad : (u.thread tid).badRegs = [])
    (ht : exec i u = .next t) : u.execute tid i [] f = attempted u tid i t := by
  rw [State.execute, execChecked_of_goodRegs i hbad, ht]
  rfl

/-- A thread in no gang, suppressing nothing, whose fetch gave the bytes of a parcel. -/
structure Fetched (s s1 : State) (tid : Nat) (bs : List Byte) (p : Parcel) : Prop where
  alone : (s.thread tid).gang = false
  unsuppressed : (s.thread tid).skc = 0
  bytes : State.fetchInstr { s with cur := tid } tid (s.thread tid).pc = .ok s1 bs
  parcel : frame bs = some p

section
variable {s s1 : State} {tid : Nat} {bs : List Byte} {p : Parcel}

theorem issueOwn_instr {i : Instr} (h : Fetched s s1 tid bs p) (hi : decodeParcel p = .ok i)
    (hacc : State.accepted { s1 with ir := firstWord p } tid p i = true)
    (hlock : (s.thread tid).interlocked i = false) :
    ∃ f, s.issueOwn tid = State.execute { s1 with ir := firstWord p } tid i [] f := by
  have hd : decode bs = .ok (i, p.length) := by simp only [decode, h.parcel, hi]
  have hms : State.followers { s with cur := tid } tid = [] := followers_alone h.alone
  simp only [State.issueOwn, h.bytes, h.parcel, hd, h.unsuppressed, hms, Option.map_some, Option.getD_some, hacc, hlock]
  exact ⟨_, rfl⟩

theorem issueOwn_notAccepted {i : Instr} (h : Fetched s s1 tid bs p) (hi : decodeParcel p = .ok i)
    (hacc : State.accepted { s1 with ir := firstWord p } tid p i = false) :
    ∃ f, s.issueOwn tid =
      State.execute { s1 with ir := firstWord p } tid (.undefinedEncoding 3 (firstWord p)) [] f := by
  have hd : decode bs = .ok (i, p.length) := by simp only [decode, h.parcel, hi]
  simp only [State.issueOwn, h.bytes, h.parcel, hd, h.unsuppressed, Option.map_some, Option.getD_some, hacc]
  exact ⟨_, rfl⟩

theorem issueOwn_undecoded {e : DecodeError} (h : Fetched s s1 tid bs p) (he : decodeParcel p = .error e) :
    ∃ f, s.issueOwn tid =
      State.execute { s1 with ir := firstWord p } tid (.undefinedEncoding e.sub (firstWord p)) [] f := by
  have hd : decode bs = .error e := by simp only [decode, h.parcel, he]
  simp only [State.issueOwn, h.bytes, h.parcel, hd, h.unsuppressed]
  exact ⟨_, rfl⟩

end

/-! ### A step -/

theorem coreOf_tidOf {core slot : Nat} (h : slot < 4) : coreOf (tidOf core slot) = core := by
  rw [coreOf, tidOf]; omega

theorem slotOf_tidOf {core slot : Nat} (h : slot < 4) : slotOf (tidOf core slot) = slot := by
  rw [slotOf, tidOf]; omega

/-- How the step of a slot that the agenda names ends. -/
noncomputable def concluded (tid : Nat) : Try → Out
  | .issued t => .next (t.afterIssue tid)
  | .waits t => .next t.idle
  | .stop o => o

theorem concluded_attempted (u : State) (tid : Nat) (i : Instr) (t : State) :
    (t.stalled = false → concluded tid (attempted u tid i t) = .next
      ((State.issuedAs { t with fwd := none } tid i ((u.thread tid).flights.map (·.id))).afterIssue tid)) ∧
    (t.stalled = true →
      concluded tid (attempted u tid i t) = .next (State.idle { t with stalled := false, fwd := none })) :=
  ⟨fun h => by rw [attempted, h]; rfl, fun h => by rw [attempted, h]; rfl⟩

/-- Log 8: a slot at the head of the agenda is offered an issue while its clock has not come past the threads. -/
theorem step_issue {s : State} {core slot : Nat} {l : List Action} (ha : s.agenda = .issue core slot :: l)
    (hc : core < 1024) (hs : slot < 4) (hphase : s.phase ≤ 0x1000) :
    step s = concluded (tidOf core slot) (State.tryIssue { s with agenda := l } (tidOf core slot)) := by
  have hlate : ¬ (Action.issue core slot).turn < s.phase := Nat.not_lt.mpr hphase
  have hturn : ¬ ((Action.issue core slot).turn ≠ 0 && (Action.issue core slot).turn < s.phase) = true := by
    simp [hlate]
  have hplace : ¬ (core ≥ 1024 || slot ≥ 4) = true := by simp [hc, hs]
  rw [step, State.move, ha]
  exact (if_neg hturn).trans (if_neg hplace)

/-! ### The fetch of a halfword -/

theorem homeReadAll_halfword {s : State} {pa d : Nat} (hd : homeDie pa = some d) (hw : (s.die d).windowAt pa = none)
    (hline : pa % 256 + 2 ≤ 256) : s.homeReadAll pa 2 = (s, [s.mem.read pa, s.mem.read (pa + 1)]) := by
  have hpieces : linePieces (2 / 256 + 2) pa 2 = [(pa, 2)] := by
    have hmin : min 2 (256 - pa % 256) = 2 := by omega
    simp [linePieces, hmin]
  have hout : s.windowOf pa = none := by simp [State.windowOf, hd, hw]
  have htier : inTier2 pa = false := by
    have hlt : pa < 0x18000000000 := by
      by_contra hge
      simp [homeDie, hge] at hd
    simp [inTier2]
    omega
  simp [State.homeReadAll, hpieces, State.homeRead, hout, htier, Memory.readBytes]

theorem homeLoad_halfword {s : State} {tid key pa : Nat} {acc : Acc} (va : Word) (h : Serves s key pa 2) :
    s.homeLoad (.thread tid) acc pa 2 key va = .ok s [s.mem.read pa, s.mem.read (pa + 1)] := by
  obtain ⟨d, hd, halive, howner, hw, hline, -, hgood⟩ := h
  have hcheck : s.homeCheck (.thread tid) acc pa key va = .ok s () := by
    simp [State.homeCheck, hd, halive, howner, State.keyMay]
  simp [State.homeLoad, hcheck, Did.bind, homeReadAll_halfword hd hw hline, firstBad_none _ _ _ hgood]

theorem fetchHalf_home {s : State} {tid : Nat} {va : Word} {l : Leaf} (hva : va.toNat < 2 ^ 57)
    (hl : s.translate (dieOf (coreOf tid)) va = .ok l) (hx : l.x = true) (hm : l.mode = 0)
    (h : Serves s l.key l.pa 2) : s.fetchHalf tid va = .ok s [s.mem.read l.pa, s.mem.read (l.pa + 1)] := by
  have hspace : ¬ 1 < space va := by rw [space]; omega
  simp [State.fetchHalf, hspace, hl, hx, hm, homeLoad_halfword va h]

/-- Settles O4: such a slot executes what it fetched, and a step does no more than that and what follows an issue. -/
theorem stepRunsTheDecodedInstruction : Obligations.StepRunsTheDecodedInstruction := by
  refine ⟨?issue, fun s tid va l hva hl hx hm h => fetchHalf_home hva hl hx hm h⟩
  rintro s _ s1 core slot _ l bs p _ ha hc hs rfl rfl hlife hgang hskc hdef habort hyield hheld hphase hrun hlost hsave
    hpwr rfl hfetch hp hbad u runs
  have may : MayIssue { s with agenda := l } (tidOf core slot) :=
    ⟨hlife, hgang, hdef, habort, hyield, hheld, by rwa [coreOf_tidOf hs], by rwa [coreOf_tidOf hs],
      by rwa [coreOf_tidOf hs, slotOf_tidOf hs], by rw [coreOf_tidOf hs]; exact decide_eq_true hpwr⟩
  have fetched : Fetched { s with agenda := l } s1 (tidOf core slot) bs p := ⟨hgang, hskc, hfetch, hp⟩
  have runs_of_issueOwn (j : Instr) (h : ∃ f, State.issueOwn { s with agenda := l } (tidOf core slot) =
      u.execute (tidOf core slot) j [] f) : runs j := by
    intro t ht
    obtain ⟨f, hf⟩ := h
    rw [step_issue ha hc hs hphase, tryIssue_eq_issueOwn may, hf, execute_next (u := u) f hbad ht]
    exact concluded_attempted u _ j t
  exact ⟨fun i hi hacc hlock => runs_of_issueOwn i (issueOwn_instr fetched hi hacc hlock),
    fun i hi hacc => runs_of_issueOwn _ (issueOwn_notAccepted fetched hi hacc),
    fun e he => runs_of_issueOwn _ (issueOwn_undecoded fetched he)⟩

end Sys2Proof.Proofs
end

section
/-! Proofs, family 03 (scalar): the three-register operations of major 0x00 (R70, R71). -/

namespace Sys2Proof.Proofs

open Sys2Proof Sys2Proof.Machine Sys2Proof.Claim

/-! ### Rotation, high products and division, in the words of the statement -/

theorem rolW_eq (x y : Word) : rolW x y = x <<< (y.toNat % 64) ||| x >>> (64 - y.toNat % 64) := by
  rw [rolW, BitVec.rotateLeft_def, Nat.mod_mod]

/-- The upper half of an integer in 128 bits is its quotient by the lower half's range. -/
theorem extractLsb'_upper_ofInt (i : Int) :
    (BitVec.ofInt 128 i).extractLsb' 64 64 = BitVec.ofInt 64 (i / 2 ^ 64) := by
  apply BitVec.eq_of_toNat_eq
  rw [BitVec.extractLsb'_toNat, Nat.shiftRight_eq_div_pow, BitVec.toNat_ofInt, BitVec.toNat_ofInt]
  omega

theorem mulhW_eq (x y : Word) :
    mulhW x y = BitVec.extractLsb' 64 64 (x.signExtend 128 * y.signExtend 128) := by
  rw [BitVec.signExtend, BitVec.signExtend, ← BitVec.ofInt_mul, extractLsb'_upper_ofInt, mulhW]

theorem mulhuW_eq (x y : Word) :
    mulhuW x y = BitVec.extractLsb' 64 64 (x.zeroExtend 128 * y.zeroExtend 128) := by
  have hprod : x.zeroExtend 128 * y.zeroExtend 128 = BitVec.ofInt 128 ↑(x.toNat * y.toNat) := by
    rw [BitVec.zeroExtend_eq_setWidth, BitVec.zeroExtend_eq_setWidth, ← BitVec.ofNat_toNat, ← BitVec.ofNat_toNat,
      ← BitVec.ofNat_mul, BitVec.ofInt_natCast]
  rw [hprod, extractLsb'_upper_ofInt, mulhuW, ← BitVec.ofInt_natCast]
  rfl

/-- R71: the quotient 2^63 that only −2^63 divided by −1 has is −2^63 in 64 bits, as in `BitVec.sdiv`. -/
theorem divW_eq (x y : Word) : divW x y = if y = 0 then BitVec.allOnes 64 else x.sdiv y := by
  rw [divW, ← BitVec.ofInt_toInt (x := x.sdiv y), BitVec.toInt_sdiv, ← BitVec.toInt_ofInt, BitVec.ofInt_toInt]

theorem divuW_eq (x y : Word) : divuW x y = if y = 0 then BitVec.allOnes 64 else x.udiv y := by
  rw [divuW, ← BitVec.udiv_def]
  rfl

theorem remW_eq (x y : Word) : remW x y = if y = 0 then x else x.srem y := by
  rw [remW, ← BitVec.toInt_srem, BitVec.ofInt_toInt]

theorem remuW_eq (x y : Word) : remuW x y = if y = 0 then x else x.umod y := by
  rw [remuW, ← BitVec.umod_def]
  rfl

/-! ### The instructions -/

/-- Settles O8: each operation ends with one register written, and the value is the one R70 or R71 gives. -/
theorem aluGivesItsResult : Obligations.AluGivesItsResult := by
  rintro s d a b _ _ _ rfl rfl rfl
  refine ⟨gives_of_ends rfl, gives_of_ends rfl, gives_of_ends rfl, gives_of_ends rfl, gives_of_ends rfl,
    gives_of_ends rfl, gives_of_ends rfl, gives_of_ends rfl, gives_of_ends rfl, ?rol, ?min, ?max, ?minu, ?maxu, ?slt,
    ?sltu, ?seq, ?mul, ?mulh, ?mulhu, ?div, ?divu, ?rem, ?remu⟩
  case rol => exact gives_of_ends_eq rfl (rolW_eq ..)
  case min => exact gives_of_ends_eq rfl (minS_eq ..)
  case max => exact gives_of_ends_eq rfl (maxS_eq ..)
  case minu => exact gives_of_ends_eq rfl (minU_eq ..)
  case maxu => exact gives_of_ends_eq rfl (maxU_eq ..)
  case slt => exact gives_of_ends_eq rfl (sltW_eq ..)
  case sltu => exact gives_of_ends_eq rfl (sltuW_eq ..)
  case seq => exact gives_of_ends_eq rfl (seqW_eq ..)
  case mul => exact gives_of_ends_eq rfl (mul_eq_ofNat ..)
  case mulh => exact gives_of_ends_eq rfl (mulhW_eq ..)
  case mulhu => exact gives_of_ends_eq rfl (mulhuW_eq ..)
  case div => exact gives_of_ends_eq rfl (divW_eq ..)
  case divu => exact gives_of_ends_eq rfl (divuW_eq ..)
  case rem => exact gives_of_ends_eq rfl (remW_eq ..)
  case remu => exact gives_of_ends_eq rfl (remuW_eq ..)

end Sys2Proof.Proofs
end

section
/-! Proofs, family 03 (scalar): the six conditions, selection and skips (R39, R77, R78). -/

namespace Sys2Proof.Proofs

open Sys2Proof Sys2Proof.Machine Sys2Proof.Claim

/-! ### The conditions (R78) -/

theorem cond_eq_iff (x y : Word) : Machine.cond 0 x y = true ↔ x = y := beq_iff_eq

theorem cond_ne_iff (x y : Word) : Machine.cond 1 x y = true ↔ x ≠ y := bne_iff_ne

theorem cond_lt_iff (x y : Word) : Machine.cond 2 x y = true ↔ x.toInt < y.toInt := BitVec.slt_iff_toInt_lt

theorem cond_ge_iff (x y : Word) : Machine.cond 3 x y = true ↔ y.toInt ≤ x.toInt := by
  rw [← Int.not_lt, ← BitVec.slt_iff_toInt_lt, Bool.not_eq_true, ← Bool.not_eq_true']
  rfl

theorem cond_ltu_iff (x y : Word) : Machine.cond 4 x y = true ↔ x.toNat < y.toNat := BitVec.ult_iff_toNat_lt

theorem cond_geu_iff (x y : Word) : Machine.cond 5 x y = true ↔ y.toNat ≤ x.toNat := by
  rw [← Nat.not_lt, ← BitVec.ult_iff_toNat_lt, Bool.not_eq_true, ← Bool.not_eq_true']
  rfl

/-! ### Skips -/

/-- R78, R19: SKC takes the coded count plus 1, at most 4, in its three bits. -/
theorem skipCount_eq (n : BitVec 2) : n.zeroExtend 3 + 1 = BitVec.ofNat 3 (n.toNat + 1) := by
  rw [BitVec.ofNat_add, BitVec.ofNat_toNat]
  rfl

/-- A skip whose condition is `p`: it sets SKC when `p` holds and passes on otherwise. -/
theorem skips_of_skip {i : Instr} {s : State} {len : Nat} {h : Bool} {n : BitVec 2} {p : Prop}
    (hx : exec i s = s.skip len h n) (hp : h = true ↔ p) :
    (p → Becomes i s { s.me with pc := s.me.pc + BitVec.ofNat 64 len, skc := BitVec.ofNat 3 (n.toNat + 1) }) ∧
    (¬ p → Becomes i s { s.me with pc := s.me.pc + BitVec.ofNat 64 len }) := by
  rw [State.skip, skipCount_eq] at hx
  refine ⟨fun hold => ?_, fun fail => ?_⟩
  · rw [if_pos (hp.mpr hold)] at hx
    exact becomes_of_finish hx
  · rw [if_neg (mt hp.mp fail)] at hx
    exact becomes_of_finish_same hx

/-- Settles O9: a select ends with its choice written, a skip is one operation with the condition of its form. -/
theorem selectAndSkip : Obligations.SelectAndSkip := by
  rintro s d a b c n _ _ rfl rfl skips
  exact ⟨gives_of_ends_eq rfl (ite_not ..), gives_of_ends rfl, skips_of_skip rfl beq_iff_eq, skips_of_skip rfl bne_iff_ne,
    skips_of_skip rfl (cond_eq_iff ..), skips_of_skip rfl (cond_ne_iff ..), skips_of_skip rfl (cond_lt_iff ..),
    skips_of_skip rfl (cond_ge_iff ..), skips_of_skip rfl (cond_ltu_iff ..), skips_of_skip rfl (cond_geu_iff ..)⟩

end Sys2Proof.Proofs
end

section
/-! Proofs, family 03 (control): branches, jumps and loop, of a thread on its own and of a follower (R80–R83, R85, R86). -/

namespace Sys2Proof.Proofs

open Sys2Proof Sys2Proof.Machine Sys2Proof.Claim

theorem target_eq {n : Nat} (s : State) (i : BitVec n) : s.target i = s.me.pc + 2 * i.signExtend 64 := by
  rw [State.target, halfwords_eq]

theorem jumps_of_goto {i : Instr} {s : State} {pc : Word} (h : exec i s = .next (s.goto pc)) : Jumps i s pc :=
  becomes_of_setMe h

theorem jumps_of_advance {i : Instr} {s : State} (h : exec i s = .next (s.advance 4)) : Jumps i s (s.me.pc + 4) :=
  becomes_of_finish_same (len := 4) h

/-! ### A thread that follows no leader -/

theorem outcome_leaderless {s : State} (hf : s.fwd = none) (own : Outcome) : s.outcome own = own := by
  rw [State.outcome, hf, Option.getD_none]

theorem branch_leaderless {s : State} (hf : s.fwd = none) (h : Bool) (target : Word) :
    s.branch h target = .next (if h then s.goto target else s.advance 4) := by
  simp only [State.branch, outcome_leaderless hf, Bool.not_false, Bool.and_true]

/-- R80: a branch whose condition is `p`. -/
theorem ways_of_branch {i : Instr} {s : State} {h : Bool} {target dest : Word} {p : Prop} (hf : s.fwd = none)
    (hx : exec i s = s.branch h target) (hp : h = true ↔ p) (ht : target = dest) :
    (p → Jumps i s dest) ∧ (¬ p → Jumps i s (s.me.pc + 4)) := by
  rw [branch_leaderless hf, ht] at hx
  refine ⟨fun hold => jumps_of_goto ?_, fun fail => jumps_of_advance ?_⟩
  · rw [hx, if_pos (hp.mpr hold)]
  · rw [hx, if_neg (mt hp.mp fail)]

theorem j_jumps {s : State} (m : BitVec 25) (hf : s.fwd = none) : Jumps (.j m) s (s.me.pc + 2 * m.signExtend 64) :=
  jumps_of_goto (show s.branch true (s.target m) = _ by rw [branch_leaderless hf, target_eq, if_pos rfl])

theorem jr_jumps {s : State} {a : Reg} (hf : s.fwd = none) (he : (s.rd a).getLsbD 0 = false) :
    Jumps (.jr a) s (s.rd a) := by
  refine jumps_of_goto ?_
  show execJr a s = _
  simp only [execJr, evenTarget_even s _ hf he, branch_leaderless hf, if_true]

/-! ### loop -/

/-- An instruction that writes one register and sets the PC. -/
theorem wr_goto_writes (s : State) (a : Reg) (v pc : Word) :
    let t := (s.wr a v).goto pc
    OnlyMe s t ∧ Writes s.me t.me a v ∧
      t.me = { s.me with pc := pc, regs := t.me.regs, badRegs := t.me.badRegs } := by
  intro t
  have hme : t.me = { s.me.wr a v with pc := pc } := by rw [State.me_goto, State.me_wr]
  have honly : OnlyMe s t := onlyMe_trans (onlyMe_setMe s (s.me.wr a v)) (onlyMe_setMe (s.wr a v) _)
  refine ⟨honly, ⟨?_, fun k hk => ?_, ?_⟩, ?_⟩
  · rw [hme]; exact (s.me.rd_wr a a v).trans (by simp)
  · rw [hme]; exact s.me.readCode_wr_other a v k hk
  · rw [hme]; exact s.me.badRegs_wr a v
  · rw [hme, Thread.wr, Thread.writeCode_frame]

theorem wr_advance_eq_goto (s : State) (a : Reg) (v : Word) :
    (s.wr a v).advance 4 = (s.wr a v).goto (s.me.pc + 4) := by
  have hpc : (s.wr a v).me.pc = s.me.pc := by rw [State.me_wr, Thread.wr, Thread.writeCode_frame]
  rw [State.advance, State.goto, State.modMe, State.modMe, hpc]
  rfl

/-- R81: the register that loop decrements is not zero unless it was 1. -/
theorem exec_loop {s : State} {a : Reg} (j : BitVec 15) (hf : s.fwd = none) (ha : a ≠ 24) :
    exec (.loop a j) s = .next ((s.wr a (s.rd a - 1)).goto
      (if s.rd a = 1 then s.me.pc + 4 else s.me.pc + 2 * j.signExtend 64)) := by
  have hzero : s.rd a - 1 = 0 ↔ s.rd a = 1 := sub_eq_zero
  show execLoop a j s = _
  simp only [execLoop, outcome_leaderless hf, Bool.false_eq_true, if_false, ha, bne_iff_ne, ne_eq, hzero, ite_not,
    wr_advance_eq_goto, target_eq]
  split_ifs <;> rfl

theorem loop_writes_and_goes {s : State} {a : Reg} (j : BitVec 15) (hf : s.fwd = none) (ha : a ≠ 24) :
    ∃ t, exec (.loop a j) s = .next t ∧ OnlyMe s t ∧ Writes s.me t.me a (s.rd a - 1) ∧
      t.me = { s.me with pc := (if s.rd a = 1 then s.me.pc + 4 else s.me.pc + 2 * j.signExtend 64)
                         regs := t.me.regs, badRegs := t.me.badRegs } :=
  ⟨_, exec_loop j hf ha, wr_goto_writes ..⟩

theorem branches_and_jumps : Claim.BranchesAndJumps := by
  rintro s a b i j m _ _ hf rfl rfl way ti tj
  have hi : s.target i = ti := target_eq s i
  have hj : s.target j = tj := target_eq s j
  exact ⟨ways_of_branch hf rfl (cond_eq_iff ..) hi, ways_of_branch hf rfl (cond_ne_iff ..) hi,
    ways_of_branch hf rfl (cond_lt_iff ..) hi, ways_of_branch hf rfl (cond_ge_iff ..) hi,
    ways_of_branch hf rfl (cond_ltu_iff ..) hi, ways_of_branch hf rfl (cond_geu_iff ..) hi,
    ways_of_branch hf rfl beq_iff_eq hj, ways_of_branch hf rfl bne_iff_ne hj, j_jumps m hf, jr_jumps hf,
    loop_writes_and_goes j hf⟩

/-! ### Their traps -/

theorem evenTarget_odd {s : State} {v : Word} (hf : s.fwd = none) (ho : v.getLsbD 0 = true) :
    s.evenTarget v = .error (.trap { code := 0x03, eval := v }) := by
  rw [State.evenTarget, hf, ho]
  rfl

/-- R83: the target is checked before anything else of the jump or the call. -/
theorem odd_targets_trap {s : State} {a : Reg} (ha : TaskAlone s) (hf : s.fwd = none)
    (ho : (s.rd a).getLsbD 0 = true) :
    ∀ i ∈ [Instr.jr a, .callr8 a, .callr16 a], Traps i s 0x03 0 (s.rd a) := by
  have hodd := evenTarget_odd hf ho
  have trap (i : Instr) (h : exec i s = s.finishAt (.error (.trap { code := 0x03, eval := s.rd a }))) :
      Traps i s 0x03 0 (s.rd a) := traps_of_takeTrap (t := { code := 0x03, eval := s.rd a }) h ha
  simp only [List.forall_mem_cons]
  exact ⟨trap _ (show execJr a s = _ by rw [execJr, hodd]), trap _ (show execCallr8 a s = _ by rw [execCallr8, hodd]),
    trap _ (show execCallr16 a s = _ by rw [execCallr16, hodd]), List.forall_mem_nil _⟩

theorem loop_g0_traps {s : State} (j : BitVec 15) (ha : TaskAlone s) (hf : s.fwd = none) :
    Traps (.loop 24 j) s 0x01 4 (irWord s) := by
  refine traps_of_takeTrap (t := { code := 0x01, sub := 4, eval := irWord s }) ?_ ha
  show execLoop 24 j s = s.finishAt (.error s.badOperand)
  simp only [execLoop, outcome_leaderless hf, Bool.false_eq_true, if_false, if_true]

theorem odd_targets_trap_misaligned : Claim.OddTargetsTrapMisaligned := by
  refine fun s a j ha hf => ⟨fun ho => ?_, loop_g0_traps j ha hf⟩
  have htraps := odd_targets_trap ha hf ho
  exact ⟨htraps (.jr a) (by simp), htraps (.callr8 a) (by simp), htraps (.callr16 a) (by simp)⟩

/-- Settles O10: the branches and jumps are one operation, loop is that operation behind a decrement; an odd target and a
loop of g0 trap before either. -/
theorem branchesJumpsAndLoops : Obligations.BranchesJumpsAndLoops := ⟨branches_and_jumps, odd_targets_trap_misaligned⟩

/-! ### A follower (R85, R86) -/

theorem outcome_follower {s : State} {o : Outcome} (hf : s.fwd = some o) (own : Outcome) : s.outcome own = o := by
  rw [State.outcome, hf, Option.getD_some]

theorem evenTarget_follower {s : State} {o : Outcome} (hf : s.fwd = some o) (v : Word) : s.evenTarget v = .ok v := by
  rw [State.evenTarget, hf]

theorem branch_follower {i : Instr} {s : State} {o : Outcome} (hf : s.fwd = some o)
    (hx : ∃ h target, exec i s = s.branch h target) :
    Jumps i s (if o.taken ∧ o.suppressed = false then o.target else s.me.pc + 4) := by
  obtain ⟨h, target, hx⟩ := hx
  have hway : (o.taken && !o.suppressed) = true ↔ o.taken ∧ o.suppressed = false := by simp
  simp only [State.branch, outcome_follower hf, hway] at hx
  split_ifs at hx ⊢
  · exact jumps_of_goto hx
  · exact jumps_of_advance hx

theorem call_follower {i : Instr} {s : State} {o : Outcome} (hf : s.fwd = some o)
    (hx : ∃ k target, exec i s = s.calls k target) :
    (o.suppressed = true → Jumps i s (s.me.pc + 4)) ∧
    (o.suppressed = false → s.me.depth + o.slide ≤ 9 → ∃ t, exec i s = .next t ∧ OnlyMe s t ∧
      t.me.pc = o.target ∧ t.me.wb = (s.me.wb + o.slide) % 12 ∧ t.me.depth = s.me.depth + o.slide) := by
  obtain ⟨k, target, hx⟩ := hx
  simp only [State.calls, outcome_follower hf] at hx
  refine ⟨fun hs => jumps_of_advance (hx.trans (if_pos hs)), fun hs hd => ?_⟩
  let y := (slid s.me o.slide o.target).wr 23 (linkWord s.me o.slide)
  have hnext : exec i s = .next (s.setMe y) := by
    rw [hx, hs, if_neg Bool.false_ne_true, call_fits s _ _ hd]
    rfl
  have hframe : y = { slid s.me o.slide o.target with regs := y.regs, badRegs := y.badRegs } :=
    Thread.writeCode_frame _ _ _
  refine ⟨s.setMe y, hnext, onlyMe_setMe s y, ?_⟩
  rw [State.me_setMe, hframe]
  exact ⟨rfl, rfl, rfl⟩

/-- Settles O12: the forwarded branches and jumps are one operation and the calls another, and each asks for the outcome
that counts, which in a follower is the leader's. -/
theorem followersGoTheLeadersWay : Obligations.FollowersGoTheLeadersWay := by
  intro s o a b i j m hf
  have heven : s.evenTarget (s.rd a) = .ok (s.rd a) := evenTarget_follower hf _
  have branches : ∀ x ∈ [Instr.bEq a b i, .bNe a b i, .bLt a b i, .bGe a b i, .bLtu a b i, .bGeu a b i, .bz a j,
      .bnz a j, .j m, .jr a], ∃ h target, exec x s = s.branch h target := by
    simp only [List.forall_mem_cons]
    exact ⟨⟨_, _, rfl⟩, ⟨_, _, rfl⟩, ⟨_, _, rfl⟩, ⟨_, _, rfl⟩, ⟨_, _, rfl⟩, ⟨_, _, rfl⟩, ⟨_, _, rfl⟩, ⟨_, _, rfl⟩,
      ⟨_, _, rfl⟩, ⟨_, _, show execJr a s = _ by rw [execJr, heven]⟩, List.forall_mem_nil _⟩
  have calls : ∀ x ∈ [Instr.call8 m, .call16 m, .callr8 a, .callr16 a], ∃ k target, exec x s = s.calls k target := by
    simp only [List.forall_mem_cons]
    exact ⟨⟨_, _, rfl⟩, ⟨_, _, rfl⟩, ⟨_, _, show execCallr8 a s = _ by rw [execCallr8, heven]⟩,
      ⟨_, _, show execCallr16 a s = _ by rw [execCallr16, heven]⟩, List.forall_mem_nil _⟩
  exact ⟨fun x hx => branch_follower hf (branches x hx), fun x hx => call_follower hf (calls x hx)⟩

end Sys2Proof.Proofs
end

section
/-! Proofs, family 03 (control): rte, its wait and its place behind a trap (R23, R89). -/

namespace Sys2Proof.Proofs

open Sys2Proof Sys2Proof.Machine Sys2Proof.Claim

/-- R89: rte waits at issue for outstanding work of handler mode. -/
theorem rte_waits (s : State) (hm : s.me.mode = true) (hw : s.me.handlerWork = true) :
    exec .rte s = .next { s with stalled := true } := by
  show execRte s = _
  simp only [execRte, mayPrivileged_of_mode hm, hw, Bool.not_true, Bool.false_eq_true, if_false, if_true]
  rfl

/-- R23: a trap leaves the registers and the work in flight alone, and saves what rte brings back. -/
theorem rte_returns_from_trap (s : State) (t : Trap) (fpc resume : Word) (defr mult : Bool) (hm : s.me.mode = false)
    (hg : s.me.gang = false) (hw : s.me.handlerWork = false) :
    ∃ u, exec .rte (s.takeTrap s.cur t fpc resume defr mult) = .next u ∧
      u.me.mode = false ∧ u.me.skc = s.me.skc ∧ u.me.pc = resume ∧ ∀ c, u.me.readCode c = s.me.readCode c := by
  let v := s.takeTrap s.cur t fpc resume defr mult
  have hv : v.me = s.me.trapped t fpc resume defr mult := by
    have htake : v = _ := s.takeTrap_alone s.cur t fpc resume defr mult hm hg
    rw [htake]
    exact State.thread_modThread _ _ _
  obtain ⟨u, hu, -, hme⟩ := rte_becomes v (by rw [hv]; rfl) (by rw [hv]; exact hw)
  refine ⟨u, hu, ?_⟩
  rw [hme, hv]
  exact ⟨hm, rfl, rfl, fun _ => rfl⟩

/-- Settles O16: rte in handler mode returns or waits, and behind a trap it finds what the trap saved. -/
theorem returnFromTrapRestores : Obligations.ReturnFromTrapRestores :=
  ⟨fun s hm => ⟨rte_becomes s hm, rte_waits s hm⟩, rte_returns_from_trap⟩

end Sys2Proof.Proofs
end

section
/-! Proofs, family 04 (thread memory): the checks that an access fails at its issuing core, and how its instruction ends
(R24, R97, R99, R101, R107). -/

namespace Sys2Proof.Proofs

open Sys2Proof Sys2Proof.Machine Sys2Proof.Claim

/-! ### How an instruction ends whose access is refused at issue (R24) -/

theorem traps_of_ended {i : Instr} {s : State} {len look : Nat} {dests : List Nat} {t : Trap} (ha : TaskAlone s)
    (hnow : look = 0 ∨ alwaysPrecise t.code = true) (h : exec i s = s.ended len look dests (.err s t)) :
    Traps i s t.code t.sub t.eval := by
  refine traps_of_takeTrap (h.trans ?_) ha
  rw [State.ended, State.fail, if_pos (by simpa using hnow)]

/-- The thread of `s` with the instruction in hand in flight. -/
def flying (s : State) (look : Nat) (dests : List Nat) (t : Thread) : Thread :=
  { t with flights := t.flights ++
      [{ id := s.nextId, kind := .memory, left := if look = 15 then none else some look, dests := dests
         handler := t.mode, pc := t.pc, order := s.order }] }

/-- Log 20: the fault stands among the accesses on their way. -/
theorem faultsLate_of_ended {i : Instr} {s : State} {L : BitVec 4} {dests : List Nat} {t : Trap} (hL : L ≠ 0)
    (himp : alwaysPrecise t.code = false) (h : exec i s = s.ended 4 L.toNat dests (.err s t)) :
    FaultsLate i s L dests t.code t.sub t.eval := by
  have hlook : L.toNat ≠ 0 := fun h0 => hL (BitVec.eq_of_toNat_eq h0)
  have h15 : L.toNat = 15 ↔ L = 15 := ⟨fun e => BitVec.eq_of_toNat_eq e, fun e => by rw [e]; rfl⟩
  rw [State.ended, State.fail, if_neg (by simp [hlook, himp])] at h
  refine ⟨_, _, h, rfl, rfl, rfl, rfl, rfl, rfl, rfl, fun k hk => ?_, ?_⟩
  · rw [State.thread_advance_other]
    · exact s.thread_modThread_other s.cur k (flying s L.toNat dests) hk
    · exact hk
  · refine (State.me_advance _ _).trans ?_
    have hme := s.thread_modThread s.cur (flying s L.toNat dests)
    simp only [← h15]
    exact congrArg (fun x : Thread => { x with pc := x.pc + 4 }) hme

/-! ### The checks of an address (R97, R99, R107) -/

/-- Whatever its space, an address that is not aligned is no target. -/
theorem resolve_unaligned_error (s : State) (tid : Nat) (acc : Acc) (va : Word) (n : Nat) (single : Bool) (hn : n ≤ 8)
    (hmis : va.toNat % n ≠ 0) : ∃ t, s.resolve tid acc va n single = .error t := by
  have hal : (decide (n ≤ 8) && decide (va.toNat % n ≠ 0)) = true := by simp [hn, hmis]
  simp only [State.resolve, hal, if_true]
  split_ifs <;> exact ⟨_, rfl⟩

/-- R107: in translated memory, which takes every access, the alignment is the first check. -/
theorem resolve_misaligned (s : State) (tid : Nat) (acc : Acc) (va : Word) (n : Nat) (single : Bool) (hn : n ≤ 8)
    (hmis : va.toNat % n ≠ 0) (hmem : va.toNat / 2 ^ 57 = 0) :
    s.resolve tid acc va n single = .error { code := 0x03, eval := va } := by
  have hsp : space va ≤ 1 := by rw [space]; omega
  have hal : (decide (n ≤ 8) && decide (va.toNat % n ≠ 0)) = true := by simp [hn, hmis]
  have hacc : accepts (space va) acc n single = true := by simp [accepts, hsp]
  simp only [State.resolve, hacc, hal, Bool.not_true, Bool.false_eq_true, if_false, if_true,
    show ¬ space va = 0xF0 by omega, show ¬ space va = 0xF1 by omega, show ¬ space va ≥ 0xF2 by omega]

/-- R97: a space that does not take the access. -/
theorem resolve_refused (s : State) (tid : Nat) (acc : Acc) (va : Word) (n : Nat) (single : Bool)
    (hacc : accepts (space va) acc n single = false) :
    s.resolve tid acc va n single = .error { code := 0x04, eval := va } := by
  simp only [State.resolve, hacc, Bool.not_false, if_true]

/-- R97: the spaces above translated memory, the scratchpads apart, take no access of one byte. -/
theorem accepts_byte (sp : Nat) (acc : Acc) (single : Bool) (h1 : 1 < sp) (h0 : sp ≠ 0xF0) (h2 : sp ≠ 0xF1) :
    accepts sp acc 1 single = false := by
  simp only [accepts, show ¬ sp ≤ 1 by omega, h0, h2, decide_false, Bool.or_self, Bool.false_eq_true, if_false]
  split_ifs
  · cases acc <;> simp
  · rfl

/-- R97, R99: an offset past the own scratchpad, in [55:20] or below. -/
theorem resolve_past_own (s : State) (tid : Nat) (acc : Acc) (va : Word) (n : Nat) (single : Bool)
    (hsp : va.toNat / 2 ^ 56 = 0xF0) (hoff : 0x60000 ≤ va.toNat % 2 ^ 56) (hacc : accepts 0xF0 acc n single = true) :
    s.resolve tid acc va n single = .error { code := 0x04, sub := 1, eval := va } := by
  have hspace : space va = 0xF0 := hsp
  have hpast : bits va.toNat 55 20 ≠ 0 ∨ bits va.toNat 19 0 ≥ 0x60000 := by
    simp only [bits]
    omega
  have hout : (decide (bits va.toNat 55 20 ≠ 0) || decide (bits va.toNat 19 0 ≥ 0x60000)) = true := by
    rw [Bool.or_eq_true, decide_eq_true_eq, decide_eq_true_eq]
    exact hpast
  simp only [State.resolve, hspace, hacc, hout, Bool.not_true, Bool.false_eq_true, if_false, if_true]

/-! ### Faults that come before the walk (R294) -/

/-- R294: the causes that a translation can have are 0x04 and 0x05. -/
theorem reportFault_misaligned (s : State) (d : Nat) (va : Word) :
    s.reportFault d { code := 0x03, eval := va } = s := by
  simp [State.reportFault]

/-- R294: addresses outside translated memory are not walked for. -/
theorem reportFault_untranslated (s : State) (d : Nat) (t : Trap) (h : 1 < t.eval.toNat / 2 ^ 56) :
    s.reportFault d t = s := by
  have hle : decide (t.eval.toNat / 2 ^ 56 ≤ 1) = false := decide_eq_false (by omega)
  simp only [State.reportFault, hle, Bool.and_false, Bool.false_eq_true, if_false]

/-! ### Accesses that fail a check (R101) -/

theorem behind_nil (s : State) (tid before n : Nat) : s.behind tid before n [] = false := by
  simp [State.behind]

theorem readParts_error {s : State} {va : Word} {n k : Nat} {single : Bool} {t : Trap} (hk : 0 < k)
    (h : s.resolve s.cur .load va n single = .error t) :
    s.readParts va n single k = .err (s.reportFault s.myDie t) t := by
  obtain ⟨k, rfl⟩ := Nat.exists_eq_succ_of_ne_zero hk.ne'
  rw [State.readParts, h]

theorem goodParts_one {s : State} {acc : Acc} {va : Word} {n : Nat} {single : Bool} {t : Trap}
    (h : s.resolve s.cur acc va n single = .error t) : s.goodParts acc va n single 1 = [] := by
  simp [State.goodParts, h]

/-- Every part of a group of doublewords is as far from its alignment as the first. -/
theorem goodParts_unaligned {s : State} {acc : Acc} {va : Word} {single : Bool} (k : Nat) (hmis : va.toNat % 8 ≠ 0) :
    s.goodParts acc va 8 single k = [] := by
  rw [State.goodParts, List.filterMap_eq_nil_iff]
  intro i _
  have hpart : (va + BitVec.ofNat 64 (8 * i)).toNat % 8 ≠ 0 := by
    rw [BitVec.toNat_add, BitVec.toNat_ofNat]
    omega
  obtain ⟨t, ht⟩ := resolve_unaligned_error s s.cur acc _ 8 single le_rfl hpart
  rw [ht]

/-- A load of which no part passes ends with the fault of the first. -/
theorem loadOp_error {s : State} {codes : List Nat} {va : Word} {n k look : Nat} {signed : Bool} {t : Trap}
    (hsc : s.scPending = false) (hk : 0 < k) (hgood : s.goodParts .load va n (k = 1) k = [])
    (h : s.resolve s.cur .load va n (k = 1) = .error t) :
    s.loadOp codes va n k signed look = .err (s.reportFault s.myDie t) t := by
  simp only [State.loadOp, hsc, hgood, List.any_nil, Bool.false_and, Bool.or_self, Bool.false_eq_true, if_false,
    behind_nil, readParts_error hk h, Did.bind]

/-- A store whose first part does not pass ends with its fault. -/
theorem storeOp_error {s : State} {va : Word} {n look : Nat} {vs : List Word} {t : Trap} (hsc : s.scPending = false)
    (hvs : vs ≠ []) (h : s.resolve s.cur .store va n (vs.length = 1) = .error t) :
    s.storeOp va n vs look = .err (s.reportFault s.myDie t) t := by
  obtain ⟨v, vs, rfl⟩ := List.exists_cons_of_ne_nil hvs
  have hparts : s.partsOf .store va n ((v :: vs).length = 1) (v :: vs).length = .error t := by
    rw [List.length_cons, State.partsOf, ← List.length_cons (a := v), h]
  simp only [State.storeOp, hsc, Bool.false_eq_true, if_false, hparts]

/-- A load of one register whose address fails a check. -/
theorem load_error {s : State} {len n : Nat} {d : Reg} {va : Word} {signed : Bool} {look : BitVec 4} {t : Trap}
    (hsc : s.scPending = false) (h : s.resolve s.cur .load va n true = .error t) :
    s.load len d va n signed look =
      s.ended len look.toNat [s.me.code d] (.err (s.reportFault s.myDie t) t) := by
  rw [State.load, loadOp_error (k := 1) hsc one_pos (goodParts_one h) h]

end Sys2Proof.Proofs
end

section
/-! Proofs, family 04 (thread memory): misaligned accesses (R107). -/

namespace Sys2Proof.Proofs

open Sys2Proof Sys2Proof.Machine Sys2Proof.Claim

/-! ### The forms of loads, stores and atomics are one operation each -/

/-- A form of `loadForms` is the load of one register, of at most a doubleword. -/
def LoadsAs (s : State) (d : Reg) : Instr × Nat × Nat × BitVec 4 × Bool × Word → Prop
  | (i, len, n, L, signed, va) => exec i s = s.load len d va n signed L ∧ n ≤ 8

/-- A form of `storeForms` is the store of one value, of at most a doubleword. -/
def StoresAs (s : State) : Instr × Nat × Nat × BitVec 4 × Word × Word → Prop
  | (i, len, n, L, v, va) => exec i s = s.put len va n v L ∧ n ≤ 8

theorem offset_byte (a : Word) (o : BitVec 8) : offset a 1 o = a + o.signExtend 64 := by rw [offset, BitVec.one_mul]

/-- R38, R105, R106. -/
theorem loadForms_load (s : State) (d r a b : Reg) (j : BitVec 5) (o : BitVec 8) (k : BitVec 2) (z : BitVec 3)
    (L : BitVec 4) : ∀ p ∈ loadForms s d r a b j o k z L, LoadsAs s d p := by
  have hshort : j.zeroExtend 64 <<< 3 = 8 * j.zeroExtend 64 := by
    rw [BitVec.shiftLeft_eq_mul_twoPow, BitVec.mul_comm]; rfl
  have hsize : 2 ^ (z.toNat % 4) ≤ 2 ^ 3 := Nat.pow_le_pow_right (by decide) (by omega)
  simp only [loadForms, List.forall_mem_cons, LoadsAs]
  refine ⟨⟨rfl, by decide⟩, ⟨?_, by decide⟩, ⟨?_, by decide⟩, ⟨rfl, by decide⟩, ⟨rfl, by decide⟩, ⟨rfl, by decide⟩,
    ⟨?_, by decide⟩, ⟨rfl, by decide⟩, ⟨rfl, by decide⟩, ⟨rfl, hsize⟩, List.forall_mem_nil _⟩
  · rw [← hshort]; rfl
  · rw [← offset_byte]; rfl
  · rw [← offset_byte]; rfl

/-- R38, R105, R106. -/
theorem storeForms_put (s : State) (d r a b : Reg) (j : BitVec 5) (o : BitVec 8) (k : BitVec 2) (z : BitVec 3)
    (L : BitVec 4) (hz : z.toNat < 4) : ∀ p ∈ storeForms s d r a b j o k z L, StoresAs s p := by
  have hsize : 2 ^ z.toNat ≤ 2 ^ 3 := Nat.pow_le_pow_right (by decide) (by omega)
  have hcode : Machine.sizeOf z = 2 ^ z.toNat := by rw [Machine.sizeOf, Nat.mod_eq_of_lt hz]
  simp only [storeForms, List.forall_mem_cons, StoresAs]
  refine ⟨⟨rfl, by decide⟩, ⟨rfl, by decide⟩, ⟨?_, by decide⟩, ⟨rfl, by decide⟩, ⟨rfl, by decide⟩, ⟨rfl, by decide⟩,
    ⟨?_, hsize⟩, List.forall_mem_nil _⟩
  · rw [← offset_byte]; rfl
  · rw [← hcode]; rfl

/-- R111. -/
theorem atomics_amo (s : State) (d : Reg) (sc : BitVec 3) (a b : Reg) (w : BitVec 1) (y : BitVec 2) :
    ∀ p ∈ atomics d sc a b w y, ∃ op, exec p s = s.amo op d sc a b w y := by
  simp only [atomics, List.forall_mem_cons]
  exact ⟨⟨0, rfl⟩, ⟨1, rfl⟩, ⟨2, rfl⟩, ⟨3, rfl⟩, ⟨4, rfl⟩, ⟨5, rfl⟩, ⟨6, rfl⟩, ⟨7, rfl⟩, ⟨8, rfl⟩, ⟨9, rfl⟩,
    List.forall_mem_nil _⟩

theorem regGroup_of_multiple {d : Reg} {k : Nat} (h : d.toNat % k = 0) :
    regGroup d k = some ((List.range k).map (fun i => d + BitVec.ofNat 5 i)) := by
  rw [regGroup, if_pos h]

/-! ### Each of them finds the fault -/

/-- A thread in task mode, in no gang and with no SC access incomplete has an address of translated memory that is not a
multiple of `n`. -/
structure Misaligned (s : State) (va : Word) (n : Nat) : Prop where
  alone : TaskAlone s
  noSc : s.scPending = false
  unaligned : va.toNat % n ≠ 0
  translated : va.toNat / 2 ^ 57 = 0

section
variable {i : Instr} {s : State} {va : Word} {len n look : Nat} {dests : List Nat}

/-- Cause 0x03 is precise whatever the L of the instruction (R22). -/
theorem misaligned_traps (h : Misaligned s va n)
    (hx : exec i s = s.ended len look dests (.err (s.reportFault s.myDie { code := 0x03, eval := va })
      { code := 0x03, eval := va })) : Traps i s 0x03 0 va := by
  rw [reportFault_misaligned] at hx
  exact traps_of_ended (t := { code := 0x03, eval := va }) h.alone (.inr rfl) hx

theorem Misaligned.resolve (h : Misaligned s va n) (hn : n ≤ 8) (acc : Acc) (single : Bool) :
    s.resolve s.cur acc va n single = .error { code := 0x03, eval := va } :=
  resolve_misaligned s s.cur acc va n single hn h.unaligned h.translated

theorem load_misaligned {d : Reg} {signed : Bool} {L : BitVec 4} (h : Misaligned s va n) (hn : n ≤ 8)
    (hx : exec i s = s.load len d va n signed L) : Traps i s 0x03 0 va := by
  rw [load_error h.noSc (h.resolve hn _ _)] at hx
  exact misaligned_traps h hx

theorem put_misaligned {v : Word} {L : BitVec 4} (h : Misaligned s va n) (hn : n ≤ 8)
    (hx : exec i s = s.put len va n v L) : Traps i s 0x03 0 va := by
  rw [State.put, storeOp_error h.noSc (List.cons_ne_nil _ _) (h.resolve hn _ _)] at hx
  exact misaligned_traps h hx

theorem loadGroup_misaligned {d a : Reg} {o : BitVec 8} {k : Nat} {L : BitVec 4} (hk : 0 < k) (hd : d.toNat % k = 0)
    (h : Misaligned s (offset (s.rd a) 8 o) 8) (hx : exec i s = s.loadGroup d a o k L) :
    Traps i s 0x03 0 (offset (s.rd a) 8 o) := by
  simp only [State.loadGroup, regGroup_of_multiple hd,
    loadOp_error h.noSc hk (goodParts_unaligned k h.unaligned) (h.resolve le_rfl _ _)] at hx
  exact misaligned_traps h hx

theorem storeGroup_misaligned {d a : Reg} {o : BitVec 8} {k : Nat} {L : BitVec 4} (hk : 0 < k) (hd : d.toNat % k = 0)
    (h : Misaligned s (offset (s.rd a) 8 o) 8) (hx : exec i s = s.storeGroup d a o k L) :
    Traps i s 0x03 0 (offset (s.rd a) 8 o) := by
  have hvs : ((List.range k).map (fun i => d + BitVec.ofNat 5 i)).map s.rd ≠ [] := by simp [hk.ne']
  simp only [State.storeGroup, regGroup_of_multiple hd, storeOp_error h.noSc hvs (h.resolve le_rfl _ _)] at hx
  exact misaligned_traps h hx

theorem scAccess_misaligned {acc : Acc} {L : BitVec 4} {o : ScOp} (hn : o.n ≤ 8) (h : Misaligned s o.va o.n)
    (hx : exec i s = s.scAccess acc L dests o) : Traps i s 0x03 0 o.va := by
  rw [State.scAccess, h.resolve hn] at hx
  exact misaligned_traps h hx

theorem scLoad_misaligned {d a : Reg} {o : BitVec 8} {L : BitVec 4} (n : Nat) (hn : n ≤ 8)
    (h : Misaligned s (offset (s.rd a) n o) n) (hx : exec i s = s.scLoad d a o n L) :
    Traps i s 0x03 0 (offset (s.rd a) n o) := scAccess_misaligned hn h hx

theorem scStore_misaligned {d a : Reg} {o : BitVec 8} {L : BitVec 4} (n : Nat) (hn : n ≤ 8)
    (h : Misaligned s (offset (s.rd a) n o) n) (hx : exec i s = s.scStore d a o n L) :
    Traps i s 0x03 0 (offset (s.rd a) n o) := scAccess_misaligned hn h hx

/-- R120: zln checks its own alignment, of 256 bytes. -/
theorem zln_misaligned {a : Reg} (L : BitVec 4) (h : Misaligned s (s.rd a) 256) : Traps (.zln a L) s 0x03 0 (s.rd a) := by
  have hsp : space (s.rd a) ≤ 1 := by have := h.translated; rw [space]; omega
  have hzero : s.zeroTarget (s.rd a) = .error { code := 0x03, eval := s.rd a } := by
    rw [State.zeroTarget, if_neg h.unaligned, if_pos hsp]
  have hx : exec (.zln a L) s = execZln a L s := rfl
  simp only [execZln, h.noSc, Bool.false_eq_true, if_false, hzero] at hx
  exact misaligned_traps h hx

/-- R114: an atomic with an order comes to its checks once it need not wait. -/
theorem amo_misaligned {op : Nat} {d a b : Reg} {sc : BitVec 3} {w : BitVec 1} {y : BitVec 2}
    (h : Misaligned s (s.rd a) (if w = 0 then 4 else 8)) (hdrain : y = 0 ∨ s.me.drained = true)
    (hsettled : 2 ≤ y.toNat → s.settled s.cur = true) (hx : exec i s = s.amo op d sc a b w y) :
    Traps i s 0x03 0 (s.rd a) := by
  have hn : (if w = 0 then 4 else 8) ≤ 8 := by split_ifs <;> decide
  have hready : (s.scPending || (decide (y ≠ 0) && !s.me.drained) ||
      (decide (2 ≤ y.toNat) && wide sc && !s.settled s.cur)) = false := by
    rw [h.noSc]
    simp only [Bool.false_or, Bool.or_eq_false_iff, Bool.and_eq_false_iff, decide_eq_false_iff_not, not_not,
      Bool.not_eq_false']
    exact ⟨hdrain, or_right_comm.mp (.inl (Decidable.not_or_of_imp hsettled))⟩
  simp only [State.amo, hready, Bool.false_eq_true, if_false, h.resolve hn] at hx
  exact misaligned_traps h hx

end

theorem misaligned_accesses_trap : Claim.MisalignedAccessesTrap := by
  intro s d r a b j o k y z L sc w i len n l va ha hsc hmis hmem
  have h : Misaligned s va n := ⟨ha, hsc, hmis, hmem⟩
  refine ⟨fun signed _ hi => ?loads, fun v hz hi => ?stores, ?doublewords, ?words, ?lines, ?atomics⟩
  case loads =>
    obtain ⟨hx, hn⟩ := loadForms_load s d r a b j o k z L _ hi
    exact load_misaligned h hn hx
  case stores =>
    obtain ⟨hx, hn⟩ := storeForms_put s d r a b j o k z L hz _ hi
    exact put_misaligned h hn hx
  case doublewords =>
    rintro rfl rfl
    exact ⟨fun hd => ⟨loadGroup_misaligned two_pos hd h rfl, storeGroup_misaligned two_pos hd h rfl⟩,
      fun hd => ⟨loadGroup_misaligned four_pos hd h rfl, storeGroup_misaligned four_pos hd h rfl⟩,
      scLoad_misaligned 8 le_rfl h rfl, scStore_misaligned 8 le_rfl h rfl⟩
  case words =>
    rintro rfl rfl
    exact ⟨scLoad_misaligned 4 (by decide) h rfl, scStore_misaligned 4 (by decide) h rfl⟩
  case lines =>
    rintro rfl rfl
    exact zln_misaligned L h
  case atomics =>
    rintro rfl rfl hdrain hsettled p hp
    obtain ⟨op, hx⟩ := atomics_amo s d sc a b w y p hp
    exact amo_misaligned h hdrain hsettled hx

end Sys2Proof.Proofs
end

section
/-! Proofs, family 04 (thread memory): addresses that no space has (R24, R97, R99, R101). -/

namespace Sys2Proof.Proofs

open Sys2Proof Sys2Proof.Machine Sys2Proof.Claim

/-- R24: an ldB outside translated memory that fails a check traps at issue with L = 0 and faults late with L > 0. -/
theorem ldB_untranslated {s : State} {d a : Reg} {o : BitVec 8} {L : BitVec 4} {va : Word} {sub : BitVec 8}
    (hva : va = s.rd a + o.signExtend 64) (hsc : s.scPending = false) (hsp : 1 < va.toNat / 2 ^ 56)
    (h : s.resolve s.cur .load va 1 true = .error { code := 0x04, sub := sub, eval := va }) :
    (TaskAlone s → L = 0 → Traps (.ldB d a o L) s 0x04 sub va) ∧
    (L ≠ 0 → FaultsLate (.ldB d a o L) s L [s.me.code d] 0x04 sub va) := by
  let t : Trap := { code := 0x04, sub := sub, eval := va }
  have hx : exec (.ldB d a o L) s = s.ended 4 L.toNat [s.me.code d] (.err s t) := by
    show s.load 4 d (offset (s.rd a) 1 o) 1 true L = _
    rw [offset_byte, ← hva, load_error hsc h, reportFault_untranslated s s.myDie t hsp]
  refine ⟨fun ha hL => traps_of_ended (t := t) ha (.inl ?_) hx, fun hL => faultsLate_of_ended (t := t) hL rfl hx⟩
  rw [hL]; rfl

theorem fetchHalf_untranslated (s : State) (tid : Nat) (va : Word) (h : 1 < va.toNat / 2 ^ 56) :
    s.fetchHalf tid va = .err s { code := 0x04, sub := 2, eval := va } := by
  rw [State.fetchHalf, if_pos (show space va > 1 from h)]

theorem spaces_check_their_addresses : Claim.SpacesCheckTheirAddresses := by
  intro s d a o L va hva
  refine ⟨fun hsc => ?_, fetchHalf_untranslated s s.cur va⟩
  have no_space (h1 : 1 < space va) (h0 : space va ≠ 0xF0) (h2 : space va ≠ 0xF1) :=
    ldB_untranslated (d := d) (L := L) hva hsc h1
      (resolve_refused s s.cur .load va 1 true (accepts_byte (space va) .load true h1 h0 h2))
  have past_own (hsp : va.toNat / 2 ^ 56 = 0xF0) (hoff : 0x60000 ≤ va.toNat % 2 ^ 56) :=
    ldB_untranslated (d := d) (L := L) hva hsc (by omega) (resolve_past_own s s.cur .load va 1 true hsp hoff rfl)
  refine ⟨fun ha hL => ⟨?_, fun h ho => (past_own h ho).1 ha hL⟩, fun hL => ⟨?_, fun h ho => (past_own h ho).2 hL⟩⟩
  · rintro _ rfl h1 h0 h2
    exact (no_space h1 h0 h2).1 ha hL
  · rintro _ rfl h1 h0 h2
    exact (no_space h1 h0 h2).2 hL

/-- Settles O25: every access resolves its address before it does anything else, and the fault that it finds ends its
instruction by R24. -/
theorem badAddressesTrap : Obligations.BadAddressesTrap := ⟨misaligned_accesses_trap, spaces_check_their_addresses⟩

end Sys2Proof.Proofs
end

section
/-! Proofs, family 05 (core): bytes of memory at a plain home, in no format window and not of the second tier (R171, R266,
R322, R356). -/

namespace Sys2Proof.Machine

/-! ### Runs of bytes -/

theorem Memory.writeBytes_append (m : Memory) (a : Nat) (l r : List Byte) :
    m.writeBytes a (l ++ r) = (m.writeBytes a l).writeBytes (a + l.length) r := by
  induction l generalizing m a with
  | nil => rfl
  | cons b l ih => rw [List.cons_append, Memory.writeBytes, Memory.writeBytes, ih, List.length_cons, Nat.add_right_comm]; rfl

theorem Memory.readBytes_add (m : Memory) (a k n : Nat) :
    m.readBytes a (k + n) = m.readBytes a k ++ m.readBytes (a + k) n := by
  induction k generalizing a with
  | zero => rw [Nat.zero_add]; rfl
  | succ k ih => rw [Nat.add_right_comm, Memory.readBytes, Memory.readBytes, ih, Nat.add_right_comm]; rfl

theorem Memory.readBytes_congr {m m' : Memory} (a n : Nat) (h : ∀ b, a ≤ b → b < a + n → m'.read b = m.read b) :
    m'.readBytes a n = m.readBytes a n := by
  induction n generalizing a with
  | zero => rfl
  | succ n ih =>
    rw [Memory.readBytes, Memory.readBytes, h a (Nat.le_refl a) (by omega),
      ih (a + 1) fun b hb hn => h b (by omega) (by omega)]

theorem Memory.readNat_congr {m m' : Memory} (a n : Nat) (h : ∀ b, a ≤ b → b < a + n → m'.read b = m.read b) :
    m'.readNat a n = m.readNat a n := congrArg leNat (Memory.readBytes_congr a n h)

/-! ### Plain homes -/

/-- The `n` bytes from `pa` on are plain memory: in no format window, not of the second tier, and their homes take
writes. -/
def State.PlainRun (s : State) (pa n : Nat) : Prop :=
  ∀ o < n, s.windowOf (pa + o) = none ∧ inTier2 (pa + o) = false ∧ s.lost (pa + o) = false

theorem State.PlainRun.sub {s : State} {pa n k m : Nat} (h : s.PlainRun pa n) (hk : k + m ≤ n) :
    s.PlainRun (pa + k) m := fun o ho => Nat.add_assoc pa k o ▸ h (k + o) (by omega)

theorem State.PlainRun.congr {s t : State} {pa n : Nat} (h : s.PlainRun pa n) (hd : t.dies = s.dies)
    (hp : t.pkg = s.pkg) : t.PlainRun pa n := by
  intro o ho
  obtain ⟨hw, h2, hl⟩ := h o ho
  refine ⟨?_, h2, ?_⟩
  · rw [← hw]; simp only [State.windowOf, State.die, hd]
  · rw [← hl]
    simp only [State.lost, State.dead, State.tier2Served, State.die, hd, hp]
    rfl

/-- `fuel` line pieces are enough for `n` bytes at `a`. -/
def EnoughPieces (fuel a n : Nat) : Prop := n = 0 ∨ n + a % 256 ≤ 256 * fuel

theorem enoughPieces_all (a n : Nat) : EnoughPieces (n / 256 + 2) a n := .inr (by omega)

theorem EnoughPieces.zero {a n : Nat} (h : EnoughPieces 0 a n) : n = 0 := by
  rcases h with h | h <;> omega

/-- One piece reaches to the end of the run or to the end of its line. -/
theorem EnoughPieces.next {fuel a n : Nat} (h : EnoughPieces (fuel + 1) a n) :
    EnoughPieces fuel (a + min n (256 - a % 256)) (n - min n (256 - a % 256)) := by
  rcases h with h | h
  · exact .inl (by omega)
  · by_cases hn : n ≤ 256 - a % 256
    · exact .inl (by omega)
    · rw [Nat.min_eq_right (by omega)]
      exact .inr (by omega)

theorem homeWrite_plain {s : State} {pa : Nat} {bs : List Byte} (hw : s.windowOf pa = none) (h2 : inTier2 pa = false)
    (hl : s.lost pa = false) : s.homeWrite pa bs = { s.healMem pa bs.length with mem := s.mem.writeBytes pa bs } := by
  simp only [State.homeWrite, hl, hw, h2, Bool.false_eq_true, if_false]

theorem homeRead_plain {s : State} {pa n : Nat} (hw : s.windowOf pa = none) (h2 : inTier2 pa = false) :
    s.homeRead pa n = (s, s.mem.readBytes pa n) := by
  simp only [State.homeRead, hw, h2, Bool.false_eq_true, if_false]

theorem foldl_homeWrite_plain (pa : Nat) (bs : List Byte) (fuel : Nat) : ∀ (s : State) (i : Nat),
    s.PlainRun pa bs.length → EnoughPieces fuel (pa + i) (bs.length - i) → ∃ bad,
      (linePieces fuel (pa + i) (bs.length - i)).foldl
        (fun s p => s.homeWrite p.1 ((bs.drop (p.1 - pa)).take p.2)) s =
      { s with mem := s.mem.writeBytes (pa + i) (bs.drop i), memBad := bad } := by
  induction fuel with
  | zero =>
    intro s i _ hf
    rw [List.drop_eq_nil_of_le (Nat.le_of_sub_eq_zero hf.zero)]
    exact ⟨s.memBad, rfl⟩
  | succ fuel ih =>
    intro s i h hf
    by_cases hn : bs.length - i = 0
    · rw [hn, List.drop_eq_nil_of_le (by omega)]
      exact ⟨s.memBad, rfl⟩
    · obtain ⟨hw, h2, hl⟩ := h i (by omega)
      have hnext := hf.next
      generalize hm : min (bs.length - i) (256 - (pa + i) % 256) = m at hnext
      have hmin : m ≤ bs.length - i := hm ▸ Nat.min_le_left _ _
      rw [Nat.add_assoc, Nat.sub_sub] at hnext
      obtain ⟨bad, hbad⟩ := ih (s.homeWrite (pa + i) ((bs.drop i).take m)) (i + m)
        (h.congr (by rw [homeWrite_plain hw h2 hl]; rfl) (by rw [homeWrite_plain hw h2 hl]; rfl)) hnext
      refine ⟨bad, ?_⟩
      rw [linePieces, if_neg hn, hm, List.foldl_cons, Nat.add_sub_cancel_left, Nat.add_assoc pa i m,
        Nat.sub_sub, hbad, homeWrite_plain hw h2 hl]
      conv_rhs => rw [← List.take_append_drop m (bs.drop i), Memory.writeBytes_append, List.drop_drop,
        List.length_take, List.length_drop, Nat.min_eq_left hmin, Nat.add_assoc]
      rfl

/-- A plain home takes the bytes of a write, and nothing but memory and its error marks changes (R104, R266). -/
theorem homeWriteAll_plain {s : State} {pa : Nat} {bs : List Byte} (h : s.PlainRun pa bs.length) :
    ∃ bad, s.homeWriteAll pa bs = { s with mem := s.mem.writeBytes pa bs, memBad := bad } :=
  foldl_homeWrite_plain pa bs (bs.length / 256 + 2) s 0 h (enoughPieces_all pa _)

theorem foldl_homeRead_plain (s : State) (fuel : Nat) : ∀ (a n : Nat) (l : List Byte), s.PlainRun a n →
    EnoughPieces fuel a n → (linePieces fuel a n).foldl
        (fun acc p => ((acc.1.homeRead p.1 p.2).1, acc.2 ++ (acc.1.homeRead p.1 p.2).2)) (s, l) =
      (s, l ++ s.mem.readBytes a n) := by
  induction fuel with
  | zero =>
    intro a n l _ hf
    obtain rfl := hf.zero
    rw [Memory.readBytes, List.append_nil]
    rfl
  | succ fuel ih =>
    intro a n l h hf
    by_cases hn : n = 0
    · subst hn
      rw [Memory.readBytes, List.append_nil]
      rfl
    · obtain ⟨hw, h2, -⟩ := h 0 (by omega)
      have hnext := hf.next
      generalize hm : min n (256 - a % 256) = m at hnext
      have hmin : m ≤ n := hm ▸ Nat.min_le_left _ _
      have hrest : s.PlainRun (a + m) (n - m) := h.sub (by omega)
      have hread : s.homeRead a m = (s, s.mem.readBytes a m) := homeRead_plain hw h2
      simp only [linePieces, if_neg hn, hm, List.foldl_cons, hread]
      rw [ih _ _ _ hrest hnext, List.append_assoc, ← Memory.readBytes_add, Nat.add_sub_cancel' hmin]

/-- A plain home is read as memory stands, and the read changes nothing (R266). -/
theorem homeReadAll_plain {s : State} {pa n : Nat} (h : s.PlainRun pa n) :
    s.homeReadAll pa n = (s, s.mem.readBytes pa n) :=
  foldl_homeRead_plain s (n / 256 + 2) pa n [] h (enoughPieces_all pa n)

theorem homeNat_plain {s : State} {pa n : Nat} (h : s.PlainRun pa n) : s.homeNat pa n = s.mem.readNat pa n := by
  rw [State.homeNat, homeReadAll_plain h, Memory.readNat]

/-! ### States that differ in memory alone -/

/-- Between `s` and `t` only memory and its error marks differ, and bytes only in `[lo, hi)`. -/
def WritesHome (s t : State) (lo hi : Nat) : Prop :=
  t = { s with mem := t.mem, memBad := t.memBad } ∧ ∀ b, b < lo ∨ hi ≤ b → t.mem.read b = s.mem.read b

theorem WritesHome.refl (s : State) (lo hi : Nat) : WritesHome s s lo hi := ⟨rfl, fun _ _ => rfl⟩

theorem WritesHome.trans {s t u : State} {lo hi : Nat} (h : WritesHome s t lo hi) (k : WritesHome t u lo hi) :
    WritesHome s u lo hi := by
  obtain ⟨ht, hr⟩ := h
  obtain ⟨hu, kr⟩ := k
  exact ⟨by rw [hu, ht], fun b hb => (kr b hb).trans (hr b hb)⟩

theorem WritesHome.widen {s t : State} {lo hi lo' hi' : Nat} (h : WritesHome s t lo hi) (hl : lo' ≤ lo) (hh : hi ≤ hi') :
    WritesHome s t lo' hi' := ⟨h.1, fun b hb => h.2 b (by omega)⟩

theorem WritesHome.dies {s t : State} {lo hi : Nat} (h : WritesHome s t lo hi) : t.dies = s.dies := by rw [h.1]
theorem WritesHome.cores {s t : State} {lo hi : Nat} (h : WritesHome s t lo hi) : t.cores = s.cores := by rw [h.1]
theorem WritesHome.threads {s t : State} {lo hi : Nat} (h : WritesHome s t lo hi) : t.threads = s.threads := by rw [h.1]

theorem WritesHome.plain {s t : State} {lo hi pa n : Nat} (h : WritesHome s t lo hi) (hp : s.PlainRun pa n) :
    t.PlainRun pa n := hp.congr h.dies (by rw [h.1])

/-- A number outside the bytes written reads as before. -/
theorem WritesHome.readNat {s t : State} {lo hi a n : Nat} (h : WritesHome s t lo hi) (hd : a + n ≤ lo ∨ hi ≤ a) :
    t.mem.readNat a n = s.mem.readNat a n := Memory.readNat_congr a n fun b _ _ => h.2 b (by omega)

theorem writesHome_homeWriteAll {s : State} {pa : Nat} {bs : List Byte} (h : s.PlainRun pa bs.length) :
    WritesHome s (s.homeWriteAll pa bs) pa (pa + bs.length) := by
  obtain ⟨bad, hbad⟩ := homeWriteAll_plain h
  rw [hbad]
  exact ⟨rfl, fun b hb => Memory.read_writeBytes_outside _ _ _ _ hb⟩

theorem writesHome_putNat {s : State} {pa n : Nat} (v : Nat) (h : s.PlainRun pa n) :
    WritesHome s (s.putNat pa n v) pa (pa + n) := by
  have := writesHome_homeWriteAll (bs := leBytes n v) (by rwa [leBytes_length])
  rwa [leBytes_length] at this

/-- A number put into plain memory stands there. -/
theorem readNat_putNat {s : State} {pa n : Nat} (v : Nat) (h : s.PlainRun pa n) :
    (s.putNat pa n v).mem.readNat pa n = v % 256 ^ n := by
  obtain ⟨bad, hbad⟩ := homeWriteAll_plain (bs := leBytes n v) (by rwa [leBytes_length])
  rw [State.putNat, hbad]
  exact Memory.readNat_writeNat s.mem pa n v

/-- Steps that each write in one range write there together. -/
theorem writesHome_foldl {β : Type} {lo hi : Nat} (f : State → β → State) (P : State → Prop) (l : List β)
    (hf : ∀ s, P s → ∀ x ∈ l, WritesHome s (f s x) lo hi) (hP : ∀ s t, P s → WritesHome s t lo hi → P t)
    (s : State) (hs : P s) : WritesHome s (l.foldl f s) lo hi := by
  induction l generalizing s with
  | nil => exact .refl s lo hi
  | cons x l ih =>
    have hx := hf s hs x List.mem_cons_self
    exact hx.trans (ih (fun s h y hy => hf s h y (List.mem_cons_of_mem _ hy)) _ (hP s _ hs hx))

/-! ### Words at offsets of an area -/

theorem putWords_cons (s : State) (at_ o : Nat) (w : Word) (l : List (Nat × Word)) :
    s.putWords at_ ((o, w) :: l) = (s.putNat (at_ + o) 8 w.toNat).putWords at_ l := rfl

theorem writesHome_putWords {at_ lo n : Nat} (l : List (Nat × Word)) (hl : ∀ p ∈ l, lo ≤ p.1 ∧ p.1 + 8 ≤ n)
    (s : State) (h : s.PlainRun at_ n) : WritesHome s (s.putWords at_ l) (at_ + lo) (at_ + n) := by
  refine writesHome_foldl _ (·.PlainRun at_ n) l (fun s h p hp => ?_) (fun s t h k => k.plain h) s h
  have := hl p hp
  exact (writesHome_putNat p.2.toNat (h.sub (by omega))).widen (by omega) (by omega)

/-- Words put at rising offsets stand there together. -/
theorem readNat_putWords {at_ n : Nat} (l : List (Nat × Word)) (hl : ∀ p ∈ l, p.1 + 8 ≤ n)
    (hr : l.Pairwise (fun p q => p.1 + 8 ≤ q.1)) (s : State) (h : s.PlainRun at_ n) (o : Nat) (w : Word)
    (hw : (o, w) ∈ l) :
    (s.putWords at_ l).mem.readNat (at_ + o) 8 = w.toNat := by
  induction l generalizing s with
  | nil => cases hw
  | cons p l ih =>
    obtain ⟨hp, hr⟩ := List.pairwise_cons.mp hr
    have hle := hl p List.mem_cons_self
    have hplain : s.PlainRun (at_ + p.1) 8 := h.sub hle
    have hput := (writesHome_putNat p.2.toNat hplain).plain h
    have htail : ∀ q ∈ l, q.1 + 8 ≤ n := fun q hq => hl q (List.mem_cons_of_mem _ hq)
    rcases List.mem_cons.mp hw with rfl | hw
    · have hrest := writesHome_putWords l (lo := o + 8) (fun q hq => ⟨hp q hq, htail q hq⟩) _ hput
      rw [putWords_cons, hrest.readNat (by omega), readNat_putNat _ hplain]
      exact Nat.mod_eq_of_lt w.isLt
    · exact ih htail hr _ hput hw

end Sys2Proof.Machine
end

section
/-! Proofs, family 05 (core): the context of a slot in its save area (R144, R145, R225). -/

namespace Sys2Proof.Proofs

open Sys2Proof Sys2Proof.Machine Sys2Proof.Claim

/-! ### Matrix work and pumps of a slot that has none (R225, R290) -/

/-- Every core of `t` is as in `s`, and nothing else differs. -/
def CoresAlike (s t : State) : Prop := t = { s with cores := t.cores } ∧ ∀ c, t.core c = s.core c

theorem coresAlike_trans {s t u : State} (h : CoresAlike s t) (k : CoresAlike t u) : CoresAlike s u := by
  obtain ⟨ht, hc⟩ := h
  obtain ⟨hu, kc⟩ := k
  exact ⟨by rw [hu, ht], fun c => (kc c).trans (hc c)⟩

theorem coresAlike_modCore {s : State} {c : Nat} {f : Core → Core} (h : f (s.core c) = s.core c) :
    CoresAlike s (s.modCore c f) := by
  refine ⟨rfl, fun k => ?_⟩
  by_cases hk : k = c
  · rw [hk, State.core_modCore, h]
  · rw [State.core_modCore_other _ _ _ _ hk]

/-- No entry of the slot's core is of the slot. -/
def NoEntries (s : State) (tid : Nat) : Prop := ∀ e ∈ (s.core (coreOf tid)).mq, e.slot ≠ slotOf tid

theorem parkStarted_noEntries {s : State} {group : List Nat} (h : ∀ t ∈ group, NoEntries s t) :
    s.parkStarted group = s := by
  refine if_pos (List.isEmpty_iff.mpr (List.filterMap_eq_nil_iff.mpr fun t ht => ?_))
  split
  · next e he => simp [h t ht e (List.mem_of_head? he)]
  · rfl

theorem recordEntries_noEntries {s : State} {tid : Nat} (h : NoEntries s tid) : CoresAlike s (s.recordEntries tid) := by
  refine coresAlike_modCore ?_
  have hq : (s.core (coreOf tid)).mq.filter (fun e => !(e.slot = slotOf tid && !e.started)) = (s.core (coreOf tid)).mq :=
    List.filter_eq_self.mpr fun e he => by simp [h e he]
  have hr : (s.core (coreOf tid)).mq.filter (fun e => e.slot = slotOf tid && !e.started) = [] :=
    List.filter_eq_nil_iff.mpr fun e he => by simp [h e he]
  rw [hq, hr, List.append_nil]

/-- R225: threads without matrix work have none to park. -/
theorem parkMatrix_noEntries {s : State} {group : List Nat} (h : ∀ t ∈ group, NoEntries s t) :
    CoresAlike s (s.parkMatrix group) := by
  rw [State.parkMatrix, parkStarted_noEntries h]
  induction group generalizing s with
  | nil => exact ⟨rfl, fun _ => rfl⟩
  | cons t l ih =>
    have ht := recordEntries_noEntries (h t List.mem_cons_self)
    refine coresAlike_trans ht (ih fun u hu e he => ?_)
    rw [ht.2] at he
    exact h u (List.mem_cons_of_mem _ hu) e he

/-- No pump of the core is enabled. -/
def NoPumps (s : State) (core : Nat) : Prop := ∀ q, (s.pump core q).en = false

theorem noPumps_of_core {s : State} {core : Nat} (h : ∀ q, (h : q < 8) → (s.core core).pumps[q].en = false) :
    NoPumps s core := by
  intro q
  rw [State.pump, Core.pump]
  split
  · next hq => exact h q hq
  · rfl

theorem NoPumps.congr {s t : State} {core : Nat} (h : NoPumps s core) (hc : t.core core = s.core core) : NoPumps t core := by
  intro q
  rw [State.pump, hc]
  exact h q

theorem foldl_of_fixed {α β : Type} (f : α → β → α) (a : α) (l : List β) (h : ∀ b ∈ l, f a b = a) :
    l.foldl f a = a := by
  induction l with
  | nil => rfl
  | cons b l ih => rw [List.foldl_cons, h b List.mem_cons_self, ih fun c hc => h c (List.mem_cons_of_mem _ hc)]

theorem pausePumps_noPumps {s : State} {tid : Nat} (h : NoPumps s (coreOf tid)) : s.pausePumps tid = s :=
  foldl_of_fixed _ s _ fun q _ => by simp [h q]

theorem pumpsQuiet_noPumps {s : State} {tid : Nat} (h : NoPumps s (coreOf tid)) : s.pumpsQuiet tid = true :=
  List.all_eq_true.mpr fun q _ => by simp [h q]

/-! ### The slots that a save covers (R144) -/

theorem saveGroup_alone {s : State} {core : Nat} {m : BitVec 4}
    (h : ∀ k < 4, m.getLsbD k = true → (s.thread (tidOf core k)).gang = false) :
    s.saveGroup core m = ((List.range 4).filter (fun k => m.getLsbD k)).map (tidOf core) := by
  rw [State.saveGroup, List.map_eq_flatMap]
  refine List.flatMap_congr fun k hk => ?_
  obtain ⟨hlt, hm⟩ := List.mem_filter.mp hk
  rw [State.gangOf, h k (List.mem_range.mp hlt) hm]
  rfl

/-- The one slot that a one-hot field names. -/
theorem slots_oneHot : ∀ k < 4, (List.range 4).filter (fun j => (BitVec.ofNat 4 (2 ^ k)).getLsbD j) = [k] := by decide

theorem oneHot_getLsbD {k j : Nat} (hk : k < 4) (hj : j < 4) (h : (BitVec.ofNat 4 (2 ^ k)).getLsbD j = true) : j = k := by
  have : j ∈ (List.range 4).filter (fun j => (BitVec.ofNat 4 (2 ^ k)).getLsbD j) :=
    List.mem_filter.mpr ⟨List.mem_range.mpr hj, h⟩
  rw [slots_oneHot k hk] at this
  exact List.mem_singleton.mp this

theorem oneHot_not_whole : ∀ k < 4, BitVec.ofNat 4 (2 ^ k) ≠ 0xF := by decide

theorem saveGroup_one {s : State} {core k : Nat} (hk : k < 4) (h : (s.thread (tidOf core k)).gang = false) :
    s.saveGroup core (BitVec.ofNat 4 (2 ^ k)) = [tidOf core k] := by
  rw [saveGroup_alone fun j hj hm => oneHot_getLsbD hk hj hm ▸ h, slots_oneHot k hk]
  rfl

/-- R144: threads outside gangs, without matrix work and pumps, have nothing to park or to pause when a save begins. -/
theorem parkAll_idle {s : State} {core : Nat} {m : BitVec 4} (hgang : ∀ k < 4, (s.thread (tidOf core k)).gang = false)
    (hp : NoPumps s core) (hq : (s.core core).mq = []) :
    CoresAlike s (((s.saveGroup core m).foldl State.pausePumps s).parkMatrix (s.saveGroup core m)) := by
  have hcore : ∀ t ∈ s.saveGroup core m, coreOf t = core := by
    rw [saveGroup_alone fun k hk _ => hgang k hk]
    intro t ht
    obtain ⟨k, hk, rfl⟩ := List.mem_map.mp ht
    exact coreOf_tidOf (List.mem_range.mp (List.mem_filter.mp hk).1)
  rw [foldl_of_fixed _ s _ fun t ht => pausePumps_noPumps (hcore t ht ▸ hp)]
  refine parkMatrix_noEntries fun t ht e he => ?_
  rw [hcore t ht, hq] at he
  cases he

/-! ### The words of a context (R145) -/

/-- R145: a context is 128 words, one behind the other. -/
theorem contextWords_offsets (y : Thread) (pc : Word) (x : Core) (k : Nat) :
    (y.contextWords pc x k).map Prod.fst = (List.range 128).map (8 * ·) := by rfl

theorem contextWords_end (y : Thread) (pc : Word) (x : Core) (k : Nat) :
    ∀ p ∈ y.contextWords pc x k, p.1 + 8 ≤ 0x400 := by
  intro p hp
  have h : p.1 ∈ (y.contextWords pc x k).map Prod.fst := List.mem_map_of_mem hp
  rw [contextWords_offsets] at h
  obtain ⟨i, hi, he⟩ := List.mem_map.mp h
  have := List.mem_range.mp hi
  omega

theorem contextWords_rise (y : Thread) (pc : Word) (x : Core) (k : Nat) :
    (y.contextWords pc x k).Pairwise (fun p q => p.1 + 8 ≤ q.1) := by
  have h : ((y.contextWords pc x k).map Prod.fst).Pairwise (fun a b => a + 8 ≤ b) := by
    rw [contextWords_offsets, List.pairwise_map]
    exact List.pairwise_lt_range.imp fun _ => by omega
  exact List.pairwise_map.mp h

/-- The state registers of a context, at their offsets. -/
theorem contextWords_state (y : Thread) (pc : Word) (x : Core) (k : Nat) :
    [(0x00, pc), (0x18, y.epc), (0x20, y.eval), (0x28, y.hvec), (0x30, y.fpc), (0x38, y.wsp), (0xA0, y.seed),
      (0xA8, y.srctr)] ⊆ y.contextWords pc x k := by
  have at_ {p : Nat × Word} (i : Nat) (h : (y.contextWords pc x k)[i]? = some p) : p ∈ y.contextWords pc x k :=
    List.mem_of_getElem? h
  simp only [List.cons_subset, List.nil_subset, and_true]
  exact ⟨at_ 0 rfl, at_ 3 rfl, at_ 4 rfl, at_ 5 rfl, at_ 6 rfl, at_ 7 rfl, at_ 20 rfl, at_ 21 rfl⟩

/-- The window registers of a context, at their offsets. -/
theorem contextWords_window (y : Thread) (pc : Word) (x : Core) (k : Nat) {i : Nat} (hi : i < 96) :
    (0x100 + 8 * i, y.readCode i) ∈ y.contextWords pc x k :=
  List.mem_append_right _ (List.mem_map_of_mem (f := fun i => (0x100 + 8 * i, y.readCode i)) (List.mem_range.mpr hi))

/-! ### Writing a context -/

/-- R145: what a save writes for a slot outside a gang, with no matrix work and no pump. -/
def writeContext (s : State) (tid a : Nat) : State :=
  let y := s.thread tid
  (List.range 4).foldl (fun s i =>
      s.homeWriteAll (a + 0x1100 + 0x100 * slotOf tid + 0x40 * i) (List.replicate 0x40 0))
    ((s.putWords (a + 0x400 * slotOf tid) (y.contextWords y.pc (s.core (coreOf tid)) (slotOf tid))).putWords
      (a + 0x1500 + 0x20 * slotOf tid) [(0x00, y.taskix), (0x08, y.joina), (0x10, y.launchWord), (0x18, 0)])

/-- R145: the context of a slot lies in its area, and nothing outside the area changes. -/
theorem writeContext_writes {s : State} {tid a : Nat} (h : PlainArea s a) :
    WritesHome s (writeContext s tid a) a (a + 0x3000) ∧
    (∀ p ∈ (s.thread tid).contextWords (s.thread tid).pc (s.core (coreOf tid)) (slotOf tid),
      (writeContext s tid a).mem.readNat (a + 0x400 * slotOf tid + p.1) 8 = p.2.toNat) ∧
    (writeContext s tid a).mem.readNat (a + 0x1500 + 0x20 * slotOf tid) 8 = (s.thread tid).taskix.toNat := by
  have hk : slotOf tid < 4 := Nat.mod_lt _ (by decide)
  rw [writeContext]
  generalize slotOf tid = k at *
  set y := s.thread tid
  set words := y.contextWords y.pc (s.core (coreOf tid)) k
  set task : List (Nat × Word) := [(0x00, y.taskix), (0x08, y.joina), (0x10, y.launchWord), (0x18, 0)] with htask
  have hplain : s.PlainRun a 0x3000 := h
  have hrun : s.PlainRun (a + 0x400 * k) 0x400 := hplain.sub (by omega)
  have hend := contextWords_end y y.pc (s.core (coreOf tid)) k
  have h1 := writesHome_putWords words (lo := 0) (fun p hp => ⟨Nat.zero_le _, hend p hp⟩) s hrun
  have hw := readNat_putWords words hend (contextWords_rise _ _ _ _) s hrun
  generalize s.putWords (a + 0x400 * k) words = s1 at h1 hw ⊢
  have hplain1 := h1.plain hplain
  have hrun1 : s1.PlainRun (a + 0x1500 + 0x20 * k) 0x20 := by
    rw [Nat.add_assoc]; exact hplain1.sub (by omega)
  have h2 := writesHome_putWords task (lo := 0) (by simp [htask]) s1 hrun1
  have ht := readNat_putWords task (by simp [htask]) (by simp [htask]) s1 hrun1 0 y.taskix List.mem_cons_self
  generalize s1.putWords (a + 0x1500 + 0x20 * k) task = s2 at h2 ht ⊢
  have hplain2 := h2.plain hplain1
  have h3 : WritesHome s2 ((List.range 4).foldl (fun s i =>
      s.homeWriteAll (a + 0x1100 + 0x100 * k + 0x40 * i) (List.replicate 0x40 0)) s2)
      (a + 0x1100 + 0x100 * k) (a + 0x1200 + 0x100 * k) := by
    refine writesHome_foldl _ (·.PlainRun a 0x3000) _ (fun s h i hi => ?_) (fun s t h k => k.plain h) s2 hplain2
    have hi4 := List.mem_range.mp hi
    have hrun2 : s.PlainRun (a + 0x1100 + 0x100 * k + 0x40 * i) (List.replicate 0x40 (0 : Byte)).length := by
      rw [List.length_replicate, Nat.add_assoc, Nat.add_assoc]; exact h.sub (by omega)
    have hwrite := writesHome_homeWriteAll hrun2
    rw [List.length_replicate] at hwrite
    exact hwrite.widen (by omega) (by omega)
  refine ⟨(h1.widen (by omega) (by omega)).trans ((h2.widen (by omega) (by omega)).trans (h3.widen (by omega) (by omega))),
    fun p hp => ?_, ?_⟩
  · have := hend p hp
    rw [h3.readNat (by omega), h2.readNat (by omega)]
    exact hw p.1 p.2 hp
  · rw [h3.readNat (by omega)]
    exact ht

/-- R144: the thread of a suspended slot. -/
def suspendedAt (y : Thread) (a : Nat) : Thread :=
  { y with life := .suspended, savedAt := some a, yielding := false, yieldSet := [] }

/-- R144, R145: the save of a ready slot outside a gang, with no matrix work and no pump. -/
theorem saveSlot_ready {s : State} {tid : Nat} (hlife : (s.thread tid).life = .ready)
    (hgang : (s.thread tid).gang = false) (hrec : ∀ e ∈ (s.core (coreOf tid)).recorded, e.slot ≠ slotOf tid)
    (hp : NoPumps s (coreOf tid)) :
    let a := (s.core (coreOf tid)).preSave.toNat
    (s.saveSlot tid).threads = (writeContext s tid a).threads.put tid (suspendedAt (s.thread tid) a) ∧
    (s.saveSlot tid).mem = (writeContext s tid a).mem := by
  have hsav : (s.thread tid).savable = true := by simp [Thread.savable, hlife]
  have hpc : s.boundaryPc tid = (s.thread tid).pc := by simp [State.boundaryPc, hgang]
  have hmine : (s.core (coreOf tid)).recorded.filter (fun e => e.slot = slotOf tid) = [] :=
    List.filter_eq_nil_iff.mpr fun e he => by simp [hrec e he]
  have howned : (List.range 8).filter
      (fun q => (s.pump (coreOf tid) q).en && (s.pump (coreOf tid) q).slot = slotOf tid) = [] :=
    List.filter_eq_nil_iff.mpr fun q _ => by simp [hp q]
  intro a
  generalize hW : writeContext s tid a = W
  simp only [writeContext, a] at hW
  simp only [State.saveSlot, hsav, hpc, hmine, howned, hgang, Bool.not_true, Bool.false_eq_true, if_false,
    List.getElem?_nil, List.foldl_nil, hW]
  refine ⟨?_, rfl⟩
  rw [suspendedAt, hgang]
  rfl

end Sys2Proof.Proofs
end

section
/-! Proofs, family 05 (core): the writes to PREEMPT and SCTX (R129, R144, R145). -/

namespace Sys2Proof.Proofs

open Sys2Proof Sys2Proof.Machine Sys2Proof.Claim

/-! ### Who is told of a register write (R102, R263, R349) -/

/-- A write by the supervisor or the host acts as it may, and the host alone sees how it completed. -/
theorem store_unthreaded {s : State} {who : Who} {addr : Word} (w : Wrote) (hmay : MayStore s who addr)
    (hwho : whoIsThread who = false) : ∃ p, s.store who addr w = { w.s with pkg := p } := by
  cases who with
  | thread core slot => cases hwho
  | supervisor d =>
    have h : supervisorMay d addr = true := hmay
    exact ⟨w.s.pkg, by simp only [State.store, h, if_true]⟩
  | host fn =>
    have h : s.hostRefusal fn true addr = 0 := hmay
    simp only [State.store, h]
    unfold Wrote.report
    cases w.refused with
    | none => exact ⟨_, rfl⟩
    | some r => exact ⟨_, rfl⟩

/-- R102: a thread's refused write is a late fault of it. -/
theorem store_thread_refused {s : State} {core slot : Nat} {addr : Word} (hmay : MayStore s (.thread core slot) addr) :
    s.store (.thread core slot) addr (refuse51 s) =
      s.deferFault (tidOf core slot) { code := 0x05, sub := 1, eval := addr } (s.thread (tidOf core slot)).pc s.order
        (s.thread (tidOf core slot)).mode := by
  have h : s.foreign (tidOf core slot) addr = false := hmay
  simp only [State.store, h, Bool.false_eq_true, if_false]
  rfl

/-- The event changes core `core` alone, to `y`, and no thread. -/
def SetsCore (i : Instr) (s : State) (core : Nat) (y : Core) : Prop :=
  ∃ t, exec i s = .next t ∧ t.threads = s.threads ∧ t.core core = y ∧ ∀ k, k ≠ core → t.core k = s.core k

theorem setsCore_of_setCore {i : Instr} {s : State} {who : Who} {addr : Word} {core : Nat} {y : Core} {w : Wrote}
    (hmay : MayStore s who addr) (hwho : whoIsThread who = false) (hx : exec i s = .next (s.store who addr w))
    (hw : w = { s := s.setCore core y }) : SetsCore i s core y := by
  obtain ⟨p, hp⟩ := store_unthreaded w hmay hwho
  subst hw
  exact ⟨_, hx.trans (congrArg _ hp), rfl, State.core_setCore s core y, fun k hk => Tab.get_put_other _ _ _ _ _ hk⟩

theorem same_of_refused {i : Instr} {s : State} {who : Who} {addr : Word} {w : Wrote} (hmay : MayStore s who addr)
    (hwho : whoIsThread who = false) (hx : exec i s = .next (s.store who addr w)) (hw : w = refuse51 s) :
    ∃ t, exec i s = .next t ∧ t.cores = s.cores ∧ t.threads = s.threads := by
  obtain ⟨p, hp⟩ := store_unthreaded w hmay hwho
  subst hw
  exact ⟨_, hx.trans (congrArg _ hp), rfl, rfl⟩

theorem setsCore_of_refused {i : Instr} {s : State} {who : Who} {addr : Word} {w : Wrote} (core : Nat)
    (hmay : MayStore s who addr) (hwho : whoIsThread who = false) (hx : exec i s = .next (s.store who addr w))
    (hw : w = refuse51 s) : SetsCore i s core (s.core core) := by
  obtain ⟨t, ht, hc, hthreads⟩ := same_of_refused hmay hwho hx hw
  exact ⟨t, ht, hthreads, State.core_of_cores s t hc core, fun k _ => State.core_of_cores s t hc k⟩

/-! ### The value written to PREEMPT (R129) -/

/-- The value of an event: its word with the RESTORE bit of the event. -/
def preemptValue (restore : Bool) (v : Word) : Word :=
  if restore then v ||| 1#64 <<< 10 else v &&& ~~~(1#64 <<< 10)

theorem preemptValue_restore (r : Bool) (v : Word) : (preemptValue r v).getLsbD 10 = r := by
  cases r <;> simp [preemptValue]

theorem preemptValue_other (r : Bool) (v : Word) {i : Nat} (hi : i < 64) (h : i ≠ 10) :
    (preemptValue r v).getLsbD i = v.getLsbD i := by
  have hbit : ∀ i < 64, i ≠ 10 → (1#64 <<< 10).getLsbD i = false := by decide
  cases r
  · rw [preemptValue, if_neg Bool.false_ne_true, BitVec.getLsbD_and, BitVec.getLsbD_not, hbit i hi h]
    simp [hi]
  · rw [preemptValue, if_pos rfl, BitVec.getLsbD_or, hbit i hi h, Bool.or_false]

theorem preemptValue_slots (r : Bool) (v : Word) : (preemptValue r v).extractLsb' 0 4 = v.extractLsb' 0 4 := by
  refine BitVec.eq_of_getLsbD_eq fun i hi => ?_
  rw [BitVec.getLsbD_extractLsb', BitVec.getLsbD_extractLsb', preemptValue_other r v (by omega) (by omega)]

theorem preemptValue_area (r : Bool) (v : Word) : preemptValue r v &&& ~~~0xFFF = v &&& ~~~0xFFF := by
  refine BitVec.eq_of_getLsbD_eq fun i hi => ?_
  rw [BitVec.getLsbD_and, BitVec.getLsbD_and]
  by_cases h : i = 10
  · have hmask : (~~~(0xFFF : Word)).getLsbD 10 = false := by decide
    rw [h, hmask, Bool.and_false, Bool.and_false]
  · rw [preemptValue_other r v hi h]

/-- The event of a write to PREEMPT. -/
noncomputable def preemptEvent (restore : Bool) (who : Who) (core : Nat) (v : Word) : Instr :=
  if restore then .preemptRestore who core v else .preemptSave who core v

theorem exec_preemptEvent (r : Bool) (who : Who) (core : Nat) (v : Word) (s : State) :
    exec (preemptEvent r who core v) s =
      .next (s.store who (coreReg core 0x10) (s.writePreempt who core (preemptValue r v))) := by
  cases r <;> rfl

/-! ### What a write to PREEMPT does (R129) -/

/-- The core of a PREEMPT whose operation begins (R129). -/
def begun (x : Core) (restore : Bool) (v : Word) : Core :=
  { x with preSave := v &&& ~~~0xFFF, preRestore := restore, preSlots := v.extractLsb' 0 4, preBusy := true }

theorem beginPreempt_eq (s : State) (core : Nat) (r : Bool) (v : Word) :
    s.beginPreempt core (preemptValue r v) = s.setCore core (begun (s.core core) r v) := by
  simp only [State.beginPreempt, State.modCore, begun, preemptValue_area, preemptValue_slots, preemptValue_restore]

section
variable {s : State} {who : Who} {core : Nat} {v : Word} (hwho : whoIsThread who = false)
include hwho

/-- R129: SLOTS = 0 sets the other fields. -/
theorem writePreempt_noSlots (hm : v.extractLsb' 0 4 = 0) (hb : (s.core core).preBusy = false) :
    s.writePreempt who core v = { s := s.setCore core { s.core core with
      preSave := v &&& ~~~0xFFF, preRestore := v.getLsbD 10, preSlots := 0 } } := by
  simp only [State.writePreempt, State.modCore, hwho, hm, hb, Bool.false_eq_true, if_false, if_true]

/-- R129: SLOTS ≠ 0 is refused while an operation runs. -/
theorem writePreempt_busy (hm : v.extractLsb' 0 4 ≠ 0) (hb : (s.core core).preBusy = true) :
    s.writePreempt who core v = refuse51 s := by
  simp only [State.writePreempt, hwho, hm, hb, Bool.false_eq_true, if_false, if_true]

/-- R144: a save begins. -/
theorem writePreempt_save (hm : v.extractLsb' 0 4 ≠ 0) (hb : (s.core core).preBusy = false)
    (hr : v.getLsbD 10 = false) : s.writePreempt who core v =
      { s := (((s.beginPreempt core v).clearGangRecord core).saveGroup core (v.extractLsb' 0 4)).foldl State.pausePumps
          ((s.beginPreempt core v).clearGangRecord core) |>.parkMatrix
          (((s.beginPreempt core v).clearGangRecord core).saveGroup core (v.extractLsb' 0 4)) } := by
  simp only [State.writePreempt, hwho, hm, hb, hr, Bool.false_eq_true, if_false]

/-- R145: a restore begins, or is refused. -/
theorem writePreempt_restore (hm : v.extractLsb' 0 4 ≠ 0) (hb : (s.core core).preBusy = false)
    (hr : v.getLsbD 10 = true) : s.writePreempt who core v =
      if (List.range 4).all (fun k => !(v.extractLsb' 0 4).getLsbD k || s.vacant (tidOf core k)) &&
          ((s.beginPreempt core v).restoreGroup core (v.extractLsb' 0 4)).all (fun p => s.vacant p.1) then
        { s := s.beginPreempt core v }
      else refuse51 s := by
  simp only [State.writePreempt, hwho, hm, hb, hr, Bool.false_eq_true, if_false, if_true]

end

/-! ### Homes are read past the cores -/

theorem withHome_homeRead (s h : State) (a n : Nat) :
    (s.withHome h).homeRead a n = (s.withHome (h.homeRead a n).1, (h.homeRead a n).2) := by
  unfold State.homeRead
  rw [State.withHome_windowOf]
  split
  · rw [State.withHome_fillLine]
    rfl
  · rfl

/-- What a home holds does not depend on the cores and threads. -/
theorem withHome_homeNat (s h : State) (a n : Nat) : (s.withHome h).homeNat a n = h.homeNat a n := by
  have hall : ∀ (l : List (Nat × Nat)) (h : State) (bs : List Byte),
      (l.foldl (fun acc p => ((acc.1.homeRead p.1 p.2).1, acc.2 ++ (acc.1.homeRead p.1 p.2).2)) (s.withHome h, bs)).2 =
      (l.foldl (fun acc p => ((acc.1.homeRead p.1 p.2).1, acc.2 ++ (acc.1.homeRead p.1 p.2).2)) (h, bs)).2 := by
    intro l
    induction l with
    | nil => exact fun _ _ => rfl
    | cons p l ih =>
      intro h bs
      rw [List.foldl_cons, List.foldl_cons, withHome_homeRead]
      exact ih _ _
  exact congrArg leNat (hall _ h [])

/-! ### The slots that a restore covers (R145) -/

/-- An area that records no gang restores named slots of its own core alone. -/
theorem restoreGroup_noGang {s : State} {core : Nat} (m : BitVec 4)
    (h : s.homeNat ((s.core core).preSave.toNat + 0x1028) 8 = 0) :
    s.restoreGroup core m = ((List.range 4).filter (fun k => m.getLsbD k &&
      (!(List.range 4).any (fun j => (s.savedFrom (s.core core).preSave.toNat j).isSome) ||
        (s.savedFrom (s.core core).preSave.toNat k).isSome))).map
      (fun k => (tidOf core k, (s.core core).preSave.toNat)) := by
  have hsz : bits 0 3 0 = 0 := rfl
  simp only [State.restoreGroup, h, hsz, ne_eq, not_true_eq_false, decide_false, Bool.false_and, Bool.false_eq_true, if_false,
    List.map_nil, List.append_nil]

/-! ### The events (R129, R144, R145) -/

section
variable {s : State} {who : Who} {core : Nat} {v : Word} (hmay : MayStore s who (coreReg core 0x10))
  (hwho : whoIsThread who = false)
include hmay hwho

theorem preemptEvent_noSlots (r : Bool) (hm : v.extractLsb' 0 4 = 0) (hb : (s.core core).preBusy = false) :
    SetsCore (preemptEvent r who core v) s core
      { s.core core with preSave := v &&& ~~~0xFFF, preRestore := r, preSlots := 0 } := by
  refine setsCore_of_setCore hmay hwho (exec_preemptEvent r who core v s) ?_
  rw [writePreempt_noSlots hwho (by rwa [preemptValue_slots]) hb, preemptValue_area, preemptValue_restore]

theorem preemptEvent_busy (r : Bool) (hm : v.extractLsb' 0 4 ≠ 0) (hb : (s.core core).preBusy = true) :
    SetsCore (preemptEvent r who core v) s core (s.core core) :=
  setsCore_of_refused core hmay hwho (exec_preemptEvent r who core v s)
    (writePreempt_busy hwho (by rwa [preemptValue_slots]) hb)

/-- R144: a save of threads outside gangs begins: nothing is parked or paused, and no gang is recorded. -/
theorem preemptSave_begins (hm : v.extractLsb' 0 4 ≠ 0) (hb : (s.core core).preBusy = false)
    (hgang : ∀ k < 4, (s.thread (tidOf core k)).gang = false) (hp : NoPumps s core) (hq : (s.core core).mq = [])
    (harea : PlainArea s (v &&& ~~~0xFFF).toNat) :
    ∃ t, exec (.preemptSave who core v) s = .next t ∧ t.threads = s.threads ∧
      t.core core = begun (s.core core) false v ∧
      t.mem.readNat ((v &&& ~~~0xFFF).toNat + 0x1028) 8 = 0 ∧
      ∀ a, a < (v &&& ~~~0xFFF).toNat + 0x1028 ∨ (v &&& ~~~0xFFF).toNat + 0x1030 ≤ a → t.mem.read a = s.mem.read a := by
  set a := (v &&& ~~~0xFFF).toNat with ha
  set s1 := s.setCore core (begun (s.core core) false v) with hs1
  have hplain : s1.PlainRun (a + 0x1028) 8 :=
    (State.PlainRun.congr (s := s) harea rfl rfl : s1.PlainRun a 0x3000).sub (by decide)
  have hclear : s1.clearGangRecord core = s1.putNat (a + 0x1028) 8 0 := by
    rw [State.clearGangRecord, hs1, State.core_setCore]
    rfl
  have hwrites := writesHome_putNat 0 hplain
  have hzero : (s1.putNat (a + 0x1028) 8 0).mem.readNat (a + 0x1028) 8 = 0 := readNat_putNat 0 hplain
  generalize s1.putNat (a + 0x1028) 8 0 = s2 at hclear hwrites hzero
  have hcore : s2.core core = begun (s.core core) false v := by
    rw [State.core_of_cores s1 s2 hwrites.cores, hs1, State.core_setCore]
  have hthreads : s2.threads = s.threads := hwrites.threads
  obtain ⟨hs3, hcores⟩ := parkAll_idle (s := s2) (core := core) (m := v.extractLsb' 0 4)
    (fun k hk => by rw [State.thread_of_threads s s2 hthreads]; exact hgang k hk)
    (fun q => by rw [State.pump, hcore]; exact hp q) (by rw [hcore]; exact hq)
  have hw := writePreempt_save (s := s) (core := core) (v := preemptValue false v) hwho
    (by rwa [preemptValue_slots]) hb (preemptValue_restore false v)
  rw [beginPreempt_eq, preemptValue_slots, ← hs1, hclear] at hw
  obtain ⟨p, hstore⟩ := store_unthreaded (s.writePreempt who core (preemptValue false v)) hmay hwho
  have hx := exec_preemptEvent false who core v s
  rw [hstore, hw] at hx
  refine ⟨_, hx, ?_, (hcores core).trans hcore, ?_, ?_⟩
  · show (State.parkMatrix _ _).threads = _
    rw [hs3]
    exact hthreads
  · show (State.parkMatrix _ _).mem.readNat _ _ = 0
    rw [hs3]
    exact hzero
  · show ∀ b, _ → (State.parkMatrix _ _).mem.read b = _
    rw [hs3]
    exact fun b hb => hwrites.2 b (by omega)

/-- R145: a restore of slots that are free or suspended begins when the area records no gang. -/
theorem preemptRestore_begins (hm : v.extractLsb' 0 4 ≠ 0) (hb : (s.core core).preBusy = false)
    (hg : s.homeNat ((v &&& ~~~0xFFF).toNat + 0x1028) 8 = 0)
    (hvac : ∀ k < 4, (v.extractLsb' 0 4).getLsbD k = true →
      (s.thread (tidOf core k)).life = .free ∨ (s.thread (tidOf core k)).life = .suspended) :
    SetsCore (.preemptRestore who core v) s core (begun (s.core core) true v) := by
  refine setsCore_of_setCore hmay hwho (exec_preemptEvent true who core v s) ?_
  have hvacant : ∀ k < 4, (v.extractLsb' 0 4).getLsbD k = true → s.vacant (tidOf core k) = true := by
    intro k hk hbit
    rcases hvac k hk hbit with h | h <;> simp [State.vacant, h]
  rw [writePreempt_restore hwho (by rwa [preemptValue_slots]) hb (preemptValue_restore true v), preemptValue_slots,
    beginPreempt_eq]
  refine if_pos ((Bool.and_eq_true _ _).mpr ⟨List.all_eq_true.mpr fun k hk => ?_, List.all_eq_true.mpr fun p hp => ?_⟩)
  · cases hbit : (v.extractLsb' 0 4).getLsbD k with
    | false => rfl
    | true => exact hvacant k (List.mem_range.mp hk) hbit
  · rw [restoreGroup_noGang] at hp
    · obtain ⟨k, hk, rfl⟩ := List.mem_map.mp hp
      obtain ⟨hlt, hbit⟩ := List.mem_filter.mp hk
      exact hvacant k (List.mem_range.mp hlt) ((Bool.and_eq_true _ _).mp hbit).1
    · rw [State.core_setCore]
      exact (withHome_homeNat (s.setCore core (begun (s.core core) true v)) s _ 8).trans hg

/-- R145: no restore over a slot that runs. -/
theorem preemptRestore_refused {k : Nat} (hk : k < 4) (hm : (v.extractLsb' 0 4).getLsbD k = true)
    (hb : (s.core core).preBusy = false) (hlife : (s.thread (tidOf core k)).life = .ready) :
    SetsCore (.preemptRestore who core v) s core (s.core core) := by
  refine setsCore_of_refused core hmay hwho (exec_preemptEvent true who core v s) ?_
  have hm0 : v.extractLsb' 0 4 ≠ 0 := by
    intro h
    simp [h] at hm
  rw [writePreempt_restore hwho (by rwa [preemptValue_slots]) hb (preemptValue_restore true v), preemptValue_slots]
  refine if_neg fun h => ?_
  obtain ⟨hall, -⟩ := (Bool.and_eq_true _ _).mp h
  have := List.all_eq_true.mp hall k (List.mem_range.mpr hk)
  rw [hm, State.vacant, hlife] at this
  cases this

end

/-- R129: a thread's write to PREEMPT is refused. -/
theorem preemptEvent_thread {s : State} {core slot c2 : Nat} {v : Word} (r : Bool)
    (hmay : MayStore s (.thread core slot) (coreReg c2 0x10)) :
    ∃ t, exec (preemptEvent r (.thread core slot) c2 v) s = .next t ∧ t.cores = s.cores ∧ t.thread (tidOf core slot) =
      withFault (s.thread (tidOf core slot)) 0x05 1 (coreReg c2 0x10) (s.thread (tidOf core slot)).pc s.order
        (s.thread (tidOf core slot)).mode :=
  ⟨_, (exec_preemptEvent r _ c2 v s).trans (congrArg _ (store_thread_refused hmay)), rfl, State.thread_modThread _ _ _⟩

/-! ### SCTX (R129) -/

section
variable {s : State} {who : Who} {core : Nat} {v : Word} (hmay : MayStore s who (coreReg core 0))
  (hwho : whoIsThread who = false)
include hmay hwho

theorem sctxWrite_sets
    (hidle : ∀ k < 4, (s.thread (tidOf core k)).life = .free ∨ (s.thread (tidOf core k)).life = .suspended)
    (hhome : homeDie (v &&& ~~~0x3FFF).toNat = some (dieOf core)) :
    SetsCore (.sctxWrite who core v) s core
      { s.core core with sctxBase := v &&& ~~~0x3FFF, sctx := v.extractLsb' 0 8 } := by
  refine setsCore_of_setCore (w := s.writeSctx who core v) hmay hwho rfl (if_neg ?_)
  have hbusy : (List.range 4).any (fun k => decide ((s.thread (tidOf core k)).life ≠ .free) &&
      decide ((s.thread (tidOf core k)).life ≠ .suspended)) = false :=
    List.any_eq_false.mpr fun k hk => by rcases hidle k (List.mem_range.mp hk) with h | h <;> simp [h]
  rw [hbusy, hwho, hhome]
  simp

theorem sctxWrite_refused (h : (∃ k < 4, (s.thread (tidOf core k)).life = .ready) ∨
    homeDie (v &&& ~~~0x3FFF).toNat ≠ some (dieOf core)) :
    ∃ t, exec (.sctxWrite who core v) s = .next t ∧ t.cores = s.cores ∧ t.threads = s.threads := by
  refine same_of_refused (w := s.writeSctx who core v) hmay hwho rfl (if_pos ?_)
  rcases h with ⟨k, hk, hlife⟩ | h
  · have hbusy : (List.range 4).any (fun k => decide ((s.thread (tidOf core k)).life ≠ .free) &&
        decide ((s.thread (tidOf core k)).life ≠ .suspended)) = true :=
      List.any_eq_true.mpr ⟨k, List.mem_range.mpr hk, by simp [hlife]⟩
    rw [hbusy, Bool.or_true, Bool.true_or]
  · rw [decide_eq_true h, Bool.or_true]

end

end Sys2Proof.Proofs
end

section
/-! Proofs, family 05 (core): the end of a save (R28, R144, R145). -/

namespace Sys2Proof.Proofs

open Sys2Proof Sys2Proof.Machine Sys2Proof.Claim

/-- Core `core` saves its slot `k`, which runs outside a gang and has no matrix work, and no pump of the core is enabled. -/
structure SavesOne (s : State) (core k : Nat) : Prop where
  slot : k < 4
  busy : (s.core core).preBusy = true
  saving : (s.core core).preRestore = false
  named : (s.core core).preSlots = BitVec.ofNat 4 (2 ^ k)
  ready : (s.thread (tidOf core k)).life = .ready
  alone : (s.thread (tidOf core k)).gang = false
  noEntries : NoEntries s (tidOf core k)
  unrecorded : ∀ e ∈ (s.core core).recorded, e.slot ≠ k
  noPumps : NoPumps s core

/-- R144: the end of a save of one slot at its boundary. -/
def endSave (s : State) (core tid : Nat) : State :=
  ((s.modThread tid (fun u => { u with pc := s.boundaryPc tid })).saveSlot tid).modCore core
    (fun x => { x with preBusy := false })

/-- R144: the matrix work of the slot parks, and the save ends when the slot has reached its boundary. -/
theorem preemptSaveComplete_one {s s1 : State} {core k : Nat} (h : SavesOne s core k)
    (hs1 : s1 = s.parkMatrix [tidOf core k]) : exec (.preemptSaveComplete core) s =
      .next (if s1.saveReady (tidOf core k) then endSave s1 core (tidOf core k) else s1) := by
  have hcore : s1.core core = s.core core :=
    hs1 ▸ (parkMatrix_noEntries (List.forall_mem_singleton.mpr h.noEntries)).2 core
  have hquiet : s1.pumpsQuiet (tidOf core k) = true :=
    pumpsQuiet_noPumps (coreOf_tidOf h.slot ▸ h.noPumps.congr hcore)
  show execPreemptSaveComplete core s = _
  simp only [execPreemptSaveComplete, h.busy, h.saving, h.named, saveGroup_one h.slot h.alone, ← hs1, hquiet,
    oneHot_not_whole k h.slot, Bool.not_true, Bool.false_eq_true, if_false, List.all_cons, List.all_nil, Bool.and_true,
    List.foldl_cons, List.foldl_nil, decide_false, Bool.false_and, Bool.or_false]
  cases s1.saveReady (tidOf core k) <;> rfl

/-- R144: a ready slot with nothing outstanding is at its boundary. -/
theorem saveReady_drained {s : State} {tid : Nat} (hlife : (s.thread tid).life = .ready)
    (hflights : (s.thread tid).flights = []) (hunacked : (s.thread tid).unacked = [])
    (hdeferred : (s.thread tid).deferred = []) (habort : (s.thread tid).abort = none) (hweft : (s.thread tid).weft = [])
    (hq : NoEntries s tid) : s.saveReady tid = true := by
  have hany : (s.core (coreOf tid)).mq.any (fun e => e.slot = slotOf tid) = false :=
    List.any_eq_false.mpr fun e he => by simp [hq e he]
  simp [State.saveReady, hlife, hflights, hunacked, due_of_undeferred hdeferred, habort, hweft, hany]

/-- R144: a slot with an access in flight is not. -/
theorem saveReady_inFlight {s : State} {tid : Nat} {f : Flight} (hlife : (s.thread tid).life = .ready)
    (hf : f ∈ (s.thread tid).flights) (hkind : f.kind = .memory) : s.saveReady tid = false := by
  have hsav : (s.thread tid).savable = true := by simp [Thread.savable, hlife]
  have hall : ∀ p : Flight → Bool, (s.thread tid).flights.all (fun f => f.kind = .matrix && p f) = false :=
    fun p => List.all_eq_false.mpr ⟨f, hf, by simp [hkind]⟩
  simp only [State.saveReady, hsav, hall, Bool.not_true, Bool.false_and, Bool.false_or, Bool.and_false]

/-- R145: the words of the context of thread `y` that was slot `k` stand in the area at `a`. -/
def HoldsContext (m : Memory) (a k : Nat) (y : Thread) : Prop :=
  (∀ o w, (o, w) ∈ [(0x00, y.pc), (0x18, y.epc), (0x20, y.eval), (0x28, y.hvec), (0x30, y.fpc), (0x38, y.wsp),
      (0xA0, y.seed), (0xA8, y.srctr)] → m.readNat (a + 0x400 * k + o) 8 = w.toNat) ∧
  (∀ i < 96, m.readNat (a + 0x400 * k + 0x100 + 8 * i) 8 = (y.readCode i).toNat) ∧
  m.readNat (a + 0x1500 + 0x20 * k) 8 = y.taskix.toNat

/-- R144, R145: the save of a slot with nothing outstanding. -/
theorem preemptSaveComplete_saves {s : State} {core k a : Nat} {y : Thread} (h : SavesOne s core k)
    (ha : a = (s.core core).preSave.toNat) (hy : y = s.thread (tidOf core k)) (hflights : y.flights = [])
    (hunacked : y.unacked = []) (hdeferred : y.deferred = []) (habort : y.abort = none) (hweft : y.weft = [])
    (harea : PlainArea s a) :
    ∃ t, exec (.preemptSaveComplete core) s = .next t ∧ (∀ j, j ≠ tidOf core k → t.thread j = s.thread j) ∧
      t.thread (tidOf core k) = suspendedAt y a ∧ (t.core core).preBusy = false ∧ HoldsContext t.mem a k y ∧
      ∀ b, b < a ∨ a + 0x3000 ≤ b → t.mem.read b = s.mem.read b := by
  have hc := coreOf_tidOf (core := core) h.slot
  have hk := slotOf_tidOf (core := core) h.slot
  generalize htid : tidOf core k = tid at *
  obtain ⟨hs1, hcores⟩ := parkMatrix_noEntries (s := s) (group := [tid])
    (List.forall_mem_singleton.mpr (htid ▸ h.noEntries))
  have hx := preemptSaveComplete_one h rfl
  rw [htid] at hx
  generalize s.parkMatrix [tid] = s1 at hs1 hcores hx
  have hy1 : s1.thread tid = y := by rw [hs1]; exact hy.symm
  have hlife : y.life = .ready := by rw [hy, ← htid]; exact h.ready
  have hgang : y.gang = false := by rw [hy, ← htid]; exact h.alone
  have hq1 : NoEntries s1 tid := by
    rw [NoEntries, hcores, ← htid]
    exact h.noEntries
  have hpc : s1.boundaryPc tid = y.pc := by simp [State.boundaryPc, hy1, hgang]
  rw [saveReady_drained (by rwa [hy1]) (by rwa [hy1]) (by rwa [hy1]) (by rwa [hy1]) (by rwa [hy1]) (by rwa [hy1]) hq1,
    if_pos rfl, endSave, hpc] at hx
  set s2 := s1.modThread tid (fun u => { u with pc := y.pc }) with hs2
  have hy2 : s2.thread tid = y := by rw [hs2, State.thread_modThread, hy1]
  have hcore2 : s2.core core = s.core core := hcores core
  obtain ⟨hthreads, hmem⟩ := saveSlot_ready (s := s2) (tid := tid) (by rwa [hy2]) (by rwa [hy2])
    (by rw [hc, hk, hcore2]; exact h.unrecorded) (by rw [hc]; exact h.noPumps.congr hcore2)
  rw [hc, hcore2, ← ha] at hthreads hmem
  have harea2 : PlainArea s2 a := State.PlainRun.congr (s := s) harea (by rw [hs2, hs1]; rfl) (by rw [hs2, hs1]; rfl)
  obtain ⟨hwrites, hwords, htask⟩ := writeContext_writes (tid := tid) harea2
  rw [← hmem, hk, hy2, hc, hcore2] at hwords
  rw [← hmem, hk, hy2] at htask
  rw [hwrites.threads, hy2] at hthreads
  generalize s2.saveSlot tid = s3 at hx hthreads hmem hwords htask
  refine ⟨_, hx, fun j hj => ?_, ?_, by rw [State.core_modCore], ⟨fun o w hw => ?_, fun i hi => ?_, htask⟩,
    fun b hb => ?_⟩
  · show s3.threads.get {} j = _
    rw [hthreads, Tab.get_put_other _ _ _ _ _ hj]
    show s2.thread j = _
    rw [hs2, State.thread_modThread_other _ _ _ _ hj, hs1]
    rfl
  · show s3.threads.get {} tid = _
    rw [hthreads, Tab.get_put_same]
  · exact hwords (o, w) (contextWords_state y y.pc _ k hw)
  · rw [Nat.add_assoc]
    exact hwords (0x100 + 8 * i, y.readCode i) (contextWords_window y y.pc _ k hi)
  · show s3.mem.read b = _
    rw [hmem, hwrites.2 b hb, hs2, hs1]
    rfl

/-- R144: the save of a slot with an access in flight goes on. -/
theorem preemptSaveComplete_waits {s : State} {core k : Nat} {f : Flight} (h : SavesOne s core k)
    (hf : f ∈ (s.thread (tidOf core k)).flights) (hkind : f.kind = .memory) :
    ∃ t, exec (.preemptSaveComplete core) s = .next t ∧ t.threads = s.threads ∧ t.mem = s.mem ∧
      (t.core core).preBusy = true := by
  obtain ⟨hs1, hcores⟩ := parkMatrix_noEntries (s := s) (group := [tidOf core k])
    (List.forall_mem_singleton.mpr h.noEntries)
  have hthread : (s.parkMatrix [tidOf core k]).thread (tidOf core k) = s.thread (tidOf core k) := by rw [hs1]; rfl
  have hx := preemptSaveComplete_one h rfl
  rw [saveReady_inFlight (f := f) (by rw [hthread]; exact h.ready) (by rwa [hthread]) hkind, if_neg Bool.false_ne_true] at hx
  exact ⟨_, hx, by rw [hs1], by rw [hs1], by rw [hcores, h.busy]⟩

theorem preemptSaveComplete_idle {s : State} {core : Nat}
    (h : (s.core core).preBusy = false ∨ (s.core core).preRestore = true) :
    exec (.preemptSaveComplete core) s = .next s :=
  if_pos (by rcases h with h | h <;> simp [h])

theorem preemptRestoreComplete_idle {s : State} {core : Nat}
    (h : (s.core core).preBusy = false ∨ (s.core core).preRestore = false) :
    exec (.preemptRestoreComplete core) s = .next s :=
  if_pos (by rcases h with h | h <;> simp [h])

end Sys2Proof.Proofs
end

section
/-! Proofs, family 05 (core): the end of a restore (R28, R145, R226, R270, R290). -/

namespace Sys2Proof.Proofs

open Sys2Proof Sys2Proof.Machine Sys2Proof.Claim

/-! ### The registers of a context -/

/-- Registers written by their codes, one after the other. -/
def loadCodes (v : Nat → Word) (l : List Nat) (t : Thread) : Thread := l.foldl (fun t c => t.writeCode c (v c)) t

/-- What the writes leave alone. -/
theorem loadCodes_frame (v : Nat → Word) (l : List Nat) (t : Thread) :
    ∃ r b, loadCodes v l t = { t with regs := r, badRegs := b } := by
  induction l generalizing t with
  | nil => exact ⟨t.regs, t.badRegs, rfl⟩
  | cons c l ih =>
    obtain ⟨r, b, h⟩ := ih (t.writeCode c (v c))
    exact ⟨r, b, h.trans (by rw [Thread.writeCode_frame])⟩

theorem readCode_loadCodes (v : Nat → Word) (l : List Nat) (hl : ∀ c ∈ l, c < 108) (t : Thread) {k : Nat}
    (hk : k ≠ 96) (h : k ∈ l ∨ t.readCode k = v k) : (loadCodes v l t).readCode k = v k := by
  induction l generalizing t with
  | nil => exact h.resolve_left List.not_mem_nil
  | cons c l ih =>
    refine ih (fun d hd => hl d (List.mem_cons_of_mem _ hd)) _ ?_
    rw [Thread.readCode_writeCode _ _ _ _ (hl c List.mem_cons_self), if_neg hk]
    by_cases hc : k = c
    · exact .inr (by rw [if_pos hc, hc])
    · rw [if_neg hc]
      exact h.imp_left fun hm => (List.mem_cons.mp hm).resolve_left hc

/-! ### The thread that an area holds (R145) -/

/-- A doubleword of the area of slot `k` at `a`. -/
def areaWord (s : State) (a k o : Nat) : Word := BitVec.ofNat 64 (s.mem.readNat (a + 0x400 * k + o) 8)

theorem savedWord_plain {s : State} {a o : Nat} (h : PlainArea s a) (ho : o + 8 ≤ 0x3000) :
    s.savedWord (a + o) = BitVec.ofNat 64 (s.mem.readNat (a + o) 8) := by
  have hplain : s.PlainRun a 0x3000 := h
  rw [State.savedWord, homeNat_plain (hplain.sub ho)]

theorem savedWord_context {s : State} {a k o : Nat} (h : PlainArea s a) (hk : k < 4) (ho : o + 8 ≤ 0x400) :
    s.savedWord (a + 0x400 * k + o) = areaWord s a k o := by
  rw [areaWord, Nat.add_assoc]
  exact savedWord_plain h (by omega)

/-- R145: thread `z` is what the area at `a` holds for slot `k`, ready and in no gang. -/
def RestoredFrom (s : State) (a k : Nat) (z : Thread) : Prop :=
  let w := areaWord s a k
  z.life = .ready ∧ z.wait = none ∧ z.gang = false ∧ z.pc = w 0 ∧
    z.mode = (w 8).getLsbD 0 ∧ z.skc = (w 8).extractLsb' 10 3 ∧ z.causeCode = (w 0x10).extractLsb' 0 8 ∧
    z.epc = w 0x18 ∧ z.eval = w 0x20 ∧ z.hvec = w 0x28 ∧ z.fpc = w 0x30 ∧ z.wsp = w 0x38 ∧ z.seed = w 0xA0 ∧
    z.srctr = w 0xA8 ∧ z.taskix = BitVec.ofNat 64 (s.mem.readNat (a + 0x1500 + 0x20 * k) 8) ∧
    ∀ i < 96, z.readCode i = w (0x100 + 8 * i)

/-- R145: without a recorded gang, and with nothing kept beside the area, the thread is that of the area's words. -/
theorem threadFrom_restores {s : State} {a k core : Nat} {hid : Thread} (harea : PlainArea s a) (hk : k < 4)
    (hg : s.homeNat (a + 0x1028) 8 = 0) (hwait : hid.wait = none) : RestoredFrom s a k (s.threadFrom a k core hid) := by
  have hw {o : Nat} (ho : o + 8 ≤ 0x400) := savedWord_context harea hk ho
  have htask : s.savedWord (a + 0x1500 + 0x20 * k + 0) = BitVec.ofNat 64 (s.mem.readNat (a + 0x1500 + 0x20 * k) 8) := by
    rw [Nat.add_zero, Nat.add_assoc]
    exact savedWord_plain harea (by omega)
  have hsz : bits 0 3 0 = 0 := rfl
  unfold State.threadFrom
  extract_lets w j g t1 t2 codes t3 member
  obtain ⟨r, b, ht3⟩ : ∃ r b, t3 = { t2 with regs := r, badRegs := b } :=
    loadCodes_frame (fun c => w (savedReg 0 c)) codes t2
  have hcodes : ∀ c ∈ codes, c < 108 := by decide
  have hread : ∀ i < 96, t3.readCode i = w (0x100 + 8 * i) := by
    intro i hi
    refine (readCode_loadCodes (fun c => w (savedReg 0 c)) codes hcodes t2 (by omega)
      (.inl (List.mem_append_left _ (List.mem_range.mpr hi)))).trans ?_
    rw [savedReg, if_pos hi]
    simp
  clear_value t3
  have hmember : member = false := by simp [member, g, hg, hsz]
  have hnone : t3.wait = none := by rw [ht3]; exact hwait
  have field {α : Type} (f : Thread → α) (g : Word → α) (o : Nat) (ho : o + 8 ≤ 0x400)
      (hf : f { t2 with regs := r, badRegs := b } = g (w o)) : f t3 = g (areaWord s a k o) := by
    rw [ht3, hf]
    exact congrArg g (hw ho)
  refine ⟨?_, hnone, hmember, field (·.pc) id 0x00 (by decide) rfl, field (·.mode) (·.getLsbD 0) 0x08 (by decide) rfl,
    field (·.skc) (·.extractLsb' 10 3) 0x08 (by decide) rfl, field (·.causeCode) (·.extractLsb' 0 8) 0x10 (by decide) rfl,
    field (·.epc) id 0x18 (by decide) rfl, field (·.eval) id 0x20 (by decide) rfl, field (·.hvec) id 0x28 (by decide) rfl,
    field (·.fpc) id 0x30 (by decide) rfl, field (·.wsp) id 0x38 (by decide) rfl, field (·.seed) id 0xA0 (by decide) rfl,
    field (·.srctr) id 0xA8 (by decide) rfl, ?_, fun i hi => (hread i hi).trans (hw (o := 0x100 + 8 * i) (by omega))⟩
  · show (if t3.wait.isSome then Life.parked else Life.ready) = _
    rw [hnone]
    rfl
  · show t3.taskix = _
    rw [ht3]
    exact htask

/-! ### What an area without queues and entries leaves alone (R226, R290) -/

theorem requeue_none {s : State} {tid a : Nat} (harea : PlainArea s a)
    (h : ∀ i < 4, s.mem.readNat (a + 0x1100 + 0x100 * slotOf tid + 0x40 * i + 0x18) 4 = 0) (kept : List Flight)
    (old : List MEntry) : s.requeue tid a kept old = s := by
  have hk : slotOf tid < 4 := Nat.mod_lt _ (by decide)
  have hplain : s.PlainRun a 0x3000 := harea
  refine foldl_of_fixed _ s _ fun i hi => ?_
  have hi4 := List.mem_range.mp hi
  have hrun : s.PlainRun (a + 0x1100 + 0x100 * slotOf tid + 0x40 * i) 0x40 := by
    rw [Nat.add_assoc, Nat.add_assoc]
    exact hplain.sub (by omega)
  have hop : leNat (((s.mem.readBytes (a + 0x1100 + 0x100 * slotOf tid + 0x40 * i) 0x40).drop 0x18).take 4) = 0 := by
    rw [Memory.drop_readBytes, Memory.take_readBytes _ _ _ _ (by decide)]
    exact h i hi4
  have hnone : matrixOp (BitVec.ofNat 32 0) = none := by decide
  simp only [homeReadAll_plain hrun, entryOf, hop, hnone, Option.map_none]

theorem restorePumps_none {s : State} {tid a : Nat} (harea : PlainArea s a)
    (h : ∀ q < 8, s.mem.readNat (a + 0x1600 + 0x40 * q + 0x18) 8 < 2 ^ 63) (kept : List (Nat × Pump)) :
    s.restorePumps tid a kept = s := by
  refine foldl_of_fixed _ s _ fun q hq => ?_
  have hq8 := List.mem_range.mp hq
  have hword : s.savedWord (a + 0x1600 + 0x40 * q + 8 * 3) =
      BitVec.ofNat 64 (s.mem.readNat (a + 0x1600 + 0x40 * q + 0x18) 8) := by
    have := savedWord_plain (o := 0x1600 + 0x40 * q + 0x18) harea (by omega)
    simpa only [Nat.add_assoc] using this
  have hoff : (s.savedWord (a + 0x1600 + 0x40 * q + 8 * 3)).getLsbD 63 = false := by
    rw [hword, BitVec.getLsbD_ofNat, Nat.testBit_lt_two_pow (h q hq8), Bool.and_false]
  simp only [hoff, Bool.false_and, Bool.false_eq_true, if_false]

/-! ### The event -/

/-- R270: an acquire that does not wrap the epoch. -/
theorem acquire_next {s : State} {tid : Nat} (h : (s.die (dieOf (coreOf tid))).rdcEpoch ≠ BitVec.allOnes 32) :
    s.acquire tid = (s.modDie (dieOf (coreOf tid)) (fun x => { x with
      rdcEpoch := (s.die (dieOf (coreOf tid))).rdcEpoch + 1 })).modThread tid
        (fun u => { u with acqEpoch := (s.die (dieOf (coreOf tid))).rdcEpoch + 1 }) := by
  refine if_neg fun he => h ?_
  generalize (s.die (dieOf (coreOf tid))).rdcEpoch = e at he
  calc e = e + 1 - 1 := (BitVec.add_sub_cancel e 1).symm
    _ = 0 - 1 := by rw [he]
    _ = BitVec.allOnes 32 := by decide

/-- R28: a ready thread waits for nothing. -/
theorem resume_ready {s : State} {tid : Nat} (h : (s.thread tid).life = .ready) : s.resume tid = s := by
  have hwaits : (s.thread tid).waits = none := if_neg (by simp [h])
  simp only [State.resume, hwaits]

/-- Core `core` restores its slot `k` from the area at `a`, whose contexts have nothing kept beside it, and which records no
gang, no matrix entry of the slot and no queue. -/
structure RestoresOne (s : State) (core k a : Nat) : Prop where
  slot : k < 4
  busy : (s.core core).preBusy = true
  restoring : (s.core core).preRestore = true
  named : (s.core core).preSlots = BitVec.ofNat 4 (2 ^ k)
  area : a = (s.core core).preSave.toNat
  unsaved : ∀ j, s.savedFrom a j = none
  plain : PlainArea s a
  noGang : s.mem.readNat (a + 0x1028) 8 = 0
  noEntries : ∀ i < 4, s.mem.readNat (a + 0x1100 + 0x100 * k + 0x40 * i + 0x18) 4 = 0
  noQueues : ∀ q < 8, s.mem.readNat (a + 0x1600 + 0x40 * q + 0x18) 8 < 2 ^ 63

theorem RestoresOne.homeNat_gang {s : State} {core k a : Nat} (h : RestoresOne s core k a) :
    s.homeNat (a + 0x1028) 8 = 0 := by
  have hplain : s.PlainRun a 0x3000 := h.plain
  rw [homeNat_plain (hplain.sub (by decide)), h.noGang]

theorem restoreGroup_one {s : State} {core k a : Nat} (h : RestoresOne s core k a) :
    s.restoreGroup core (BitVec.ofNat 4 (2 ^ k)) = [(tidOf core k, a)] := by
  rw [restoreGroup_noGang _ (h.area ▸ h.homeNat_gang), ← h.area]
  have hany : (List.range 4).any (fun _ => false) = false := rfl
  simp only [h.unsaved, Option.isSome_none, hany, Bool.not_false, Bool.true_or, Bool.and_true,
    slots_oneHot k h.slot]
  rfl

/-- R145: the thread of the area's words takes the slot, with an acquire. -/
theorem restoreSlot_one {s : State} {core k a : Nat} (h : RestoresOne s core k a) :
    s.restoreSlot (tidOf core k) a =
      State.acquire { s.setThread (tidOf core k) (s.threadFrom a k core
          { acqEpoch := (s.thread (tidOf core k)).acqEpoch }) with order := s.order + 1 } (tidOf core k) := by
  have hc := coreOf_tidOf (core := core) h.slot
  have hk := slotOf_tidOf (core := core) h.slot
  simp only [State.restoreSlot, h.unsaved, hc, hk]
  have harea (x : Thread) : PlainArea { s.setThread (tidOf core k) x with order := s.order + 1 } a :=
    State.PlainRun.congr (s := s) h.plain rfl rfl
  rw [requeue_none (harea _) (by rw [hk]; exact h.noEntries), restorePumps_none (harea _) h.noQueues]

/-- R145, R270: a restored thread with nothing to wait for has its slot, with an acquire, and the operation is over. -/
theorem preemptRestoreComplete_one {s : State} {core k a : Nat} {x : Thread} (h : RestoresOne s core k a)
    (hslot : s.restoreSlot (tidOf core k) a =
      State.acquire { s.setThread (tidOf core k) x with order := s.order + 1 } (tidOf core k))
    (hready : x.life = .ready) (hepoch : (s.die (dieOf core)).rdcEpoch ≠ BitVec.allOnes 32) :
    ∃ t, exec (.preemptRestoreComplete core) s = .next t ∧ (∀ j, j ≠ tidOf core k → t.thread j = s.thread j) ∧
      t.thread (tidOf core k) = { x with acqEpoch := (s.die (dieOf core)).rdcEpoch + 1 } ∧ t.mem = s.mem ∧
      (t.core core).preBusy = false := by
  have hgroup := restoreGroup_one h
  have hwhole := oneHot_not_whole k h.slot
  have hdie := congrArg (fun c => (s.die (dieOf c)).rdcEpoch) (coreOf_tidOf (core := core) h.slot)
  generalize tidOf core k = tid at *
  rw [acquire_next (by rw [← hdie] at hepoch; exact hepoch)] at hslot
  have hother : ∀ j, j ≠ tid → (s.restoreSlot tid a).thread j = s.thread j := by
    intro j hj
    rw [hslot, State.thread_modThread_other _ _ _ _ hj]
    exact State.thread_setThread_other s tid j x hj
  have hthread : (s.restoreSlot tid a).thread tid = { x with acqEpoch := (s.die (dieOf core)).rdcEpoch + 1 } := by
    rw [hslot, State.thread_modThread, ← hdie]
    exact congrArg (fun y : Thread => { y with acqEpoch := (s.die (dieOf (coreOf tid))).rdcEpoch + 1 })
      (State.thread_setThread s tid x)
  have hmem : (s.restoreSlot tid a).mem = s.mem := by rw [hslot]; rfl
  have hresume : (s.restoreSlot tid a).resume tid = s.restoreSlot tid a := resume_ready (by rw [hthread]; exact hready)
  have hx : exec (.preemptRestoreComplete core) s =
      .next ((s.restoreSlot tid a).modCore core (fun y => { y with preBusy := false })) := by
    show execPreemptRestoreComplete core s = _
    simp only [execPreemptRestoreComplete, h.busy, h.restoring, hgroup, h.named, hwhole, List.foldl_cons, List.foldl_nil,
      hresume, Bool.not_true, Bool.or_self, Bool.false_eq_true, if_false]
  generalize s.restoreSlot tid a = t at hx hother hthread hmem
  exact ⟨_, hx, hother, hthread, hmem, by rw [State.core_modCore]⟩

/-- What a thread is restored to does not hang on its epoch. -/
theorem RestoredFrom.epoch {s : State} {a k : Nat} {x : Thread} (h : RestoredFrom s a k x) (e : BitVec 32) :
    RestoredFrom s a k { x with acqEpoch := e } := h

/-- R145: the restore of a slot: it is ready with the words of its area and an acquire, and no other thread and no memory
changes. -/
theorem preemptRestoreComplete_restores {s : State} {core k a : Nat} (h : RestoresOne s core k a)
    (hepoch : (s.die (dieOf core)).rdcEpoch ≠ BitVec.allOnes 32) :
    ∃ t z, exec (.preemptRestoreComplete core) s = .next t ∧ z = t.thread (tidOf core k) ∧
      (∀ j, j ≠ tidOf core k → t.thread j = s.thread j) ∧ t.mem = s.mem ∧ (t.core core).preBusy = false ∧
      RestoredFrom s a k z ∧ z.acqEpoch = (s.die (dieOf core)).rdcEpoch + 1 := by
  have hslot := restoreSlot_one h
  have hx : RestoredFrom s a k (s.threadFrom a k core { acqEpoch := (s.thread (tidOf core k)).acqEpoch }) :=
    threadFrom_restores h.plain h.slot h.homeNat_gang rfl
  generalize s.threadFrom a k core { acqEpoch := (s.thread (tidOf core k)).acqEpoch } = x at hslot hx
  obtain ⟨t, ht, hother, hthread, hmem, hbusy⟩ := preemptRestoreComplete_one h hslot hx.1 hepoch
  exact ⟨t, _, ht, hthread.symm, hother, hmem, hbusy, hx.epoch _, rfl⟩

end Sys2Proof.Proofs
end

section
/-! Proofs, family 05 (core): the machine after reset, and the statement about contexts (R129, R144, R145). -/

namespace Sys2Proof.Proofs

open Sys2Proof Sys2Proof.Machine Sys2Proof.Claim

/-! ### Reset -/

theorem thread_reset (k : Nat) : State.reset.thread k = {} := rfl
theorem core_reset (c : Nat) : State.reset.core c = {} := rfl
theorem cluster_reset (c : Nat) : State.reset.cluster c = {} := rfl
theorem die_reset (d : Nat) : State.reset.die d = {} := rfl

theorem kept_reset : Kept State.reset := by
  refine ⟨rfl, fun k => ?_⟩
  rw [thread_reset]
  exact ⟨by decide, by decide⟩

/-- R409: no partition has ranges of triggers. -/
theorem range_reset (q : Nat) : State.reset.trg.range q = {} := by
  rw [Triggers.range]
  split
  · exact Vector.getElem_replicate ..
  · rfl

/-- Settles O5: nothing is listed in the tables of the machine after reset, so each place reads as its fields' reset
values. -/
theorem resetIsAsTheSpecGivesIt : Obligations.ResetIsAsTheSpecGivesIt := by
  refine ⟨kept_reset, rfl, rfl, fun k => ?thread, fun c => ?core, fun c => ?cluster, fun d => ?die, rfl, rfl, rfl, rfl, rfl,
    rfl, rfl, fun _ => rfl, fun _ => rfl, fun _ => rfl, fun _ => rfl, fun q => ?range⟩
  case thread => rw [thread_reset]
  case core => rw [core_reset]; exact ⟨rfl, rfl, rfl, rfl, rfl⟩
  case cluster => rw [cluster_reset]; exact ⟨rfl, rfl, rfl, rfl, rfl, rfl, rfl, rfl, rfl⟩
  case die => rw [die_reset]; exact ⟨rfl, rfl, rfl, rfl, rfl⟩
  case range => rw [range_reset]

/-! ### Contexts -/

/-- Settles O56: a write to PREEMPT or SCTX sets its core or is refused; a save of one slot writes the words of its context
to plain memory, and a restore of one reads them back. -/
theorem contextsAreSavedAndRestored : Obligations.ContextsAreSavedAndRestored := by
  refine ⟨?write, ?thread, ?complete, ?scratch⟩
  case write =>
    rintro s who core v _ rfl hmay hwho m area sets
    refine ⟨fun hm hb => ⟨preemptEvent_noSlots hmay hwho false hm hb, preemptEvent_noSlots hmay hwho true hm hb⟩,
      fun hm hb => ⟨preemptEvent_busy hmay hwho false hm hb, preemptEvent_busy hmay hwho true hm hb⟩,
      fun hm hb hgang hp hq harea => preemptSave_begins hmay hwho hm hb hgang (noPumps_of_core hp) hq harea,
      fun hm hb => ⟨fun hg hvac => preemptRestore_begins hmay hwho hm hb hg hvac,
        fun k hk hbit hlife => preemptRestore_refused hmay hwho hk hbit hb hlife⟩⟩
  case thread =>
    intro s core slot c2 v i hi hmay
    rcases List.mem_pair.mp hi with rfl | rfl
    · exact preemptEvent_thread false hmay
    · exact preemptEvent_thread true hmay
  case complete =>
    rintro s core k _ _ _ _ rfl rfl rfl rfl
    refine ⟨preemptSaveComplete_idle, preemptRestoreComplete_idle, ?save, ?restore⟩
    case save =>
      intro hk hbusy hsave hslots hlife hgang hq hrec hp hdef habort hweft harea
      have h : SavesOne s core k :=
        ⟨hk, hbusy, hsave, hslots, hlife, hgang, by rwa [NoEntries, coreOf_tidOf hk, slotOf_tidOf hk], hrec,
          noPumps_of_core hp⟩
      refine ⟨fun hflights hunacked _ => ?_, fun f hf hkind => preemptSaveComplete_waits h hf hkind⟩
      simpa only [HoldsContext, suspendedAt, and_assoc] using
        preemptSaveComplete_saves h rfl rfl hflights hunacked hdef habort hweft harea
    case restore =>
      intro hk hbusy hrestore hslots hsaved harea hg hentries hqueues hepoch w
      simpa only [RestoredFrom, areaWord, w, and_assoc] using preemptRestoreComplete_restores
        ⟨hk, hbusy, hrestore, hslots, rfl, hsaved, harea, hg, hentries, hqueues⟩ hepoch
  case scratch =>
    intro s who core v hmay base
    refine ⟨fun hwho hidle hhome => ?_, fun hwho h => sctxWrite_refused hmay hwho h⟩
    obtain ⟨t, ht, hthreads, hcore, hother⟩ := sctxWrite_sets hmay hwho hidle hhome
    exact ⟨t, ht, hthreads, hother, hcore⟩

end Sys2Proof.Proofs
end

section
/-! Proofs, family 08 (matrix): an interrupted mma and what its completion reports (R209, R225, R227, R228). -/

namespace Sys2Proof.Proofs

open Sys2Proof Sys2Proof.Machine Sys2Proof.Claim

/-- R212: one row and one column of BF16 with K = 4, which is two depth groups (R202), operands at offset 0. -/
def twoGroups : Block := BitVec.ofNat 128 (1 + 2 ^ 8 + 4 * 2 ^ 19 + 64 * 2 ^ 53 + 2 ^ 102 + 2 ^ 105)

/-- The mma of that block as it starts. -/
def startedMma : MEntry :=
  { slot := 0, flight := 0, op := 0, block := twoGroups, a := 0, rm := 0, tcm := false, seed := 0, taskix := 0
    srctr := 0, pc := 0, order := 0, gang := 1, gangIx := 0, started := true }

/-- It started again at its second depth group. Its first met an uncorrectable element of B, at k = 0 and k = 1. -/
def resumedMma : MEntry := { startedMma with begun := true, next := 1, subs := [(1, 0, 0, 0), (1, 0, 0, 1)] }

/-- R225: the entry is no invention: a pre-emption parks the mma so when the first word of the B-stack is uncorrectable. -/
theorem parkEntry_keeps_substitutions :
    let s := State.reset.setCore 0 { mq := [startedMma], bstackBad := [0] }
    (s.parkEntry twoGroups 0 startedMma 1 0).map (fun t => (t.core 0).mq) =
      some [{ resumedMma with started := false }] := by
  decide +kernel

/-- It is at the head of core 0's queue, the B-stack has been loaded anew, and PF0's ring of events has 64 places (R371). -/
def completesWithSubstitutions : State :=
  let s := State.reset.setCore 0 { mq := [resumedMma] }
  s.modPkg (fun p => { p with rings := p.rings.set 0 { log2 := 6 } })

theorem completesWithSubstitutions_core : completesWithSubstitutions.core 0 = { mq := [resumedMma] } := rfl

theorem completesWithSubstitutions_pinned : AllPinned (completesWithSubstitutions.core 0) := by
  rw [completesWithSubstitutions_core]
  exact ⟨fun f _ => by simp, fun q _ => by simp⟩

/-- The first byte of the ring's memory after an outcome. -/
def firstRingByte : Out → Byte
  | .next t => t.mem.read 0
  | _ => 0

/-- R228, R372: as the mma completes, its substitutions are reported: the ring holds an event of kind 2. -/
theorem complete_writes_event : firstRingByte (exec (.matrixEntryComplete 0) completesWithSubstitutions) = 2 := by
  show firstRingByte (execMatrixEntryComplete 0 completesWithSubstitutions) = 2
  decide +kernel

/-- Refutes O38: a completed entry is said to leave memory as it was, whatever it has met before. An mma that was parked
behind an uncorrectable element of B and runs on from its next depth group reports the substitution as it completes
(R209), and the event's record goes into the ring in memory (R371). -/
theorem not_matrixQueueRunsItsEntries : ¬ Obligations.MatrixQueueRunsItsEntries := by
  rintro ⟨⟨hentry, -, -⟩, -⟩
  obtain ⟨-, -, -, hcomplete⟩ := hentry completesWithSubstitutions 0 resumedMma [] rfl (.inl rfl) (fun _ => ⟨rfl, rfl⟩)
  obtain ⟨t, ht, -, hmem, -⟩ := hcomplete rfl (by decide) (by decide +kernel) rfl completesWithSubstitutions_pinned
    rfl rfl rfl (fun _ h => absurd rfl h) (fun h => absurd rfl h) rfl _ _ _ rfl rfl rfl (fun _ => by decide +kernel)
  have hevent := complete_writes_event
  rw [ht, firstRingByte, hmem] at hevent
  exact absurd hevent (by decide +kernel)

end Sys2Proof.Proofs
end

section
/-! Proofs, family 09 (cluster): the objects that an instruction names, and the checks on them (R234, R239, R260). -/

namespace Sys2Proof.Proofs

open Sys2Proof Sys2Proof.Machine Sys2Proof.Claim

/-! ### Object addresses (R234) -/

/-- R234: objects of a kind stand apart and end below the offsets that an address has room for. -/
theorem layout_fits (k : ObjKind) : 0 < k.layout.2.1 ∧ k.layout.1 + k.layout.2.1 * k.layout.2.2 ≤ 2 ^ 32 := by
  cases k <;> decide

/-- R234, R239: the address of object `i` of a kind in cluster `c` names it. -/
theorem objectAt_address (k : ObjKind) {c i : Nat} (hc : c < 32) (hi : i < k.layout.2.2) :
    objectAt k (BitVec.ofNat 64 (0xF2 * 2 ^ 56 + c * 2 ^ 32 + k.layout.1 + k.layout.2.1 * i)) = some (c, i) := by
  obtain ⟨hstep, hfits⟩ := layout_fits k
  unfold objectAt
  generalize k.layout = l at *
  obtain ⟨base, step, n⟩ := l
  dsimp only at *
  have hlast : step * i < step * n := Nat.mul_lt_mul_of_pos_left hi hstep
  have hmul : step * i % step = 0 := Nat.mul_mod_right step i
  have hdiv : step * i / step = i := Nat.mul_div_cancel_left i hstep
  generalize step * i = off at *
  have hv : (BitVec.ofNat 64 (0xF2 * 2 ^ 56 + c * 2 ^ 32 + base + off)).toNat =
      0xF2 * 2 ^ 56 + c * 2 ^ 32 + base + off := by
    rw [BitVec.toNat_ofNat, Nat.mod_eq_of_lt (by omega)]
  have hspace : space (BitVec.ofNat 64 (0xF2 * 2 ^ 56 + c * 2 ^ 32 + base + off)) = 0xF2 := by
    rw [space, hv]; omega
  have hoff : bits (0xF2 * 2 ^ 56 + c * 2 ^ 32 + base + off) 31 0 = base + off := by rw [bits]; omega
  have hcluster : bits (0xF2 * 2 ^ 56 + c * 2 ^ 32 + base + off) 36 32 = c := by rw [bits]; omega
  have hzero : bits (0xF2 * 2 ^ 56 + c * 2 ^ 32 + base + off) 55 37 = 0 := by rw [bits]; omega
  rw [hv, hspace, hoff, hcluster, hzero, Nat.add_sub_cancel_left, hmul, hdiv]
  simp [hi]

/-! ### The checks (R239, R260) -/

theorem object_none {s : State} {k : ObjKind} {va : Word} (h : objectAt k va = none) :
    s.object k va = .error (.trap { code := 0x04, sub := 1, eval := va }) := by
  rw [State.object, h]

theorem object_foreign {s : State} {k : ObjKind} {va : Word} {c i : Nat} (h : objectAt k va = some (c, i))
    (hp : (s.die (c / 8)).part ≠ s.partOf s.cur) :
    s.object k va = .error (.trap { code := 0x05, sub := 3, eval := va }) := by
  simp only [State.object, h, if_pos hp]

theorem object_poisoned {s : State} {k : ObjKind} {va : Word} {c i : Nat} (h : objectAt k va = some (c, i))
    (hp : (s.die (c / 8)).part = s.partOf s.cur) (hb : va.toNat % 2 ^ 32 ∈ (s.cluster c).poisoned) :
    s.object k va = .error (.trap { code := 0x0D, eval := va }) := by
  have hbits : (s.cluster c).poisoned.contains (bits va.toNat 31 0) = true := by
    rw [bits, Nat.pow_zero, Nat.div_one]
    exact List.contains_iff_mem.mpr hb
  simp only [State.object, h, hp, ne_eq, not_true_eq_false, if_false, hbits, if_true]

/-- The instruction checks the object at `va` before it does anything else. -/
def ChecksObject (i : Instr) (s : State) (k : ObjKind) (va : Word) : Prop :=
  ∃ f : Nat × Nat → Except Stop State, exec i s = s.finish 4 (s.object k va >>= f)

theorem zeroBits_bind {α : Type} {s : State} {x : Nat} (f : Except Stop α) (hx : x = 0) :
    (s.zeroBits x >>= fun _ => f) = f := by
  subst hx; rfl

/-- An instruction checks its object first if only checks of its operand bits come before, and they hold. -/
theorem checksObject_of_zeroBits {i : Instr} {s : State} {k : ObjKind} {va : Word} {x : Nat} {g : Except Stop State}
    {f : Nat × Nat → Except Stop State} (h : exec i s = s.finish 4 (s.zeroBits x >>= fun _ => g)) (hx : x = 0)
    (hg : g = (s.object k va >>= f)) : ChecksObject i s k va :=
  ⟨f, by rw [h, zeroBits_bind _ hx, hg]⟩

/-- A check that fails is the trap of its instruction. -/
theorem ChecksObject.traps {i : Instr} {s : State} {k : ObjKind} {va : Word} {t : Trap} (h : ChecksObject i s k va)
    (ha : TaskAlone s) (ho : s.object k va = .error (.trap t)) : Traps i s t.code t.sub t.eval := by
  obtain ⟨f, hf⟩ := h
  exact traps_of_takeTrap (by rw [hf, ho]; rfl) ha

/-- R246, R250, R253, R254: the instructions on objects, with the second operand 1. -/
theorem object_instructions_check {s : State} (d a : Reg) {b : Reg} (hb : s.rd b = 1) :
    ∀ p ∈ [(Instr.jsig d a b, ObjKind.join), (.jwait a b, .join), (.barArr d a, .barrier), (.barWait a b, .barrier),
      (.barT1 a b, .barrier), (.barSet a b, .barrier), (.barBytes a b, .barrier), (.barBind a b, .barrier),
      (.ldf d a, .cell), (.stf d a b, .cell), (.gjoin d a, .set), (.gleave d a, .set)],
    ChecksObject p.1 s p.2 (s.rd a) := by
  have hn : (s.rd b).toNat = 1 := by rw [hb]; rfl
  have hzero {m : Nat} (hm : 1 < m) : (s.rd b).toNat / m = 0 := by rw [hn]; exact Nat.div_eq_of_lt hm
  have hnonzero : (s.rd b).toNat % 0x10000 ≠ 0 := by rw [hn]; decide
  simp only [List.forall_mem_cons]
  exact ⟨checksObject_of_zeroBits rfl (hzero (by decide)) rfl, checksObject_of_zeroBits rfl (hzero (by decide)) rfl,
    ⟨_, rfl⟩, checksObject_of_zeroBits rfl (hzero (by decide)) rfl,
    checksObject_of_zeroBits rfl (hzero (by decide)) rfl,
    checksObject_of_zeroBits rfl (hzero (by decide)) (if_neg hnonzero),
    checksObject_of_zeroBits rfl (hzero (by decide)) rfl, checksObject_of_zeroBits rfl (hzero (by decide)) rfl,
    ⟨_, rfl⟩, ⟨_, rfl⟩, ⟨_, rfl⟩, ⟨_, rfl⟩, fun _ h => absurd h List.not_mem_nil⟩

/-- Settles O36: an address is put together from the fields that the check takes apart, and every instruction on an
object makes that check first. -/
theorem clusterObjectsAreChecked : Obligations.ClusterObjectsAreChecked := by
  refine ⟨fun c i hc => ⟨fun hi => objectAt_address .barrier hc hi, fun hi => objectAt_address .cell hc hi,
    fun hi => objectAt_address .join hc hi, fun hi => objectAt_address .set hc hi⟩, fun s d a b ha hb p hp => ?_⟩
  have hchecks := object_instructions_check d a hb p hp
  exact ⟨fun h => hchecks.traps ha (object_none h), fun c i h hp => hchecks.traps ha (object_foreign h hp),
    fun c i h hp hbad => hchecks.traps ha (object_poisoned h hp hbad)⟩

end Sys2Proof.Proofs
end

section
/-! Proofs, family 09 (cluster): the words of a launch record at a plain home (R104, R229, R231,
R260). -/

namespace Sys2Proof.Proofs

open Sys2Proof Sys2Proof.Machine Sys2Proof.Claim

/-! ### Error marks of plain memory (R104) -/

/-- Between `s` and `t` no error mark is new, and none outside `[lo, hi)` is gone. -/
def HealsWithin (s t : State) (lo hi : Nat) : Prop :=
  (∀ w ∈ t.memBad, w ∈ s.memBad) ∧ ∀ w ∈ s.memBad, w < lo ∨ hi ≤ w → w ∈ t.memBad

theorem HealsWithin.refl (s : State) (lo hi : Nat) : HealsWithin s s lo hi := ⟨fun _ h => h, fun _ h _ => h⟩

theorem HealsWithin.trans {s t u : State} {lo hi : Nat} (h : HealsWithin s t lo hi) (k : HealsWithin t u lo hi) :
    HealsWithin s u lo hi := by
  obtain ⟨hold, hkeep⟩ := h
  obtain ⟨kold, kkeep⟩ := k
  exact ⟨fun w hw => hold w (kold w hw), fun w hw hout => kkeep w (hkeep w hw hout) hout⟩

theorem healsWithin_healMem (s : State) {pa n lo hi : Nat} (hlo : lo ≤ pa) (hhi : pa + n ≤ hi) :
    HealsWithin s (s.healMem pa n) lo hi := by
  refine ⟨fun w hw => (List.mem_filter.mp hw).1, fun w hw hout => List.mem_filter.mpr ⟨hw, ?_⟩⟩
  simp only [Bool.not_eq_true', Bool.and_eq_false_iff, decide_eq_false_iff_not]
  omega

/-- Every piece of a run lies in it. -/
theorem mem_linePieces {fuel a n : Nat} {p : Nat × Nat} (h : p ∈ linePieces fuel a n) :
    a ≤ p.1 ∧ 0 < p.2 ∧ p.1 + p.2 ≤ a + n := by
  induction fuel generalizing a n with
  | zero => exact absurd h List.not_mem_nil
  | succ fuel ih =>
    rw [linePieces] at h
    split_ifs at h with h0
    · exact absurd h List.not_mem_nil
    · rcases List.mem_cons.mp h with rfl | h
      · dsimp only; omega
      · have := ih h; omega

theorem foldl_homeWrite_heals {pa : Nat} {bs : List Byte} (l : List (Nat × Nat))
    (hl : ∀ p ∈ l, pa ≤ p.1 ∧ 0 < p.2 ∧ p.1 + p.2 ≤ pa + bs.length) (s : State)
    (h : s.PlainRun pa bs.length) :
    HealsWithin s (l.foldl (fun s p => s.homeWrite p.1 ((bs.drop (p.1 - pa)).take p.2)) s) pa (pa + bs.length) := by
  induction l generalizing s with
  | nil => exact .refl s _ _
  | cons p l ih =>
    obtain ⟨hlo, hpos, hhi⟩ := hl p List.mem_cons_self
    obtain ⟨o, ho⟩ := Nat.exists_eq_add_of_le hlo
    obtain ⟨hw, h2, hlost⟩ := h o (by omega)
    rw [← ho] at hw h2 hlost
    have hlen : p.1 + ((bs.drop (p.1 - pa)).take p.2).length ≤ pa + bs.length :=
      (Nat.add_le_add_left (List.length_take_le _ _) _).trans hhi
    rw [List.foldl_cons, homeWrite_plain hw h2 hlost]
    exact (healsWithin_healMem s hlo hlen).trans
      (ih (fun q hq => hl q (List.mem_cons_of_mem p hq)) _ (h.congr rfl rfl))

/-- R104: a write to plain memory clears error marks within its bytes alone. -/
theorem healsWithin_putNat {s : State} {pa n : Nat} (v : Nat) (h : s.PlainRun pa n) :
    HealsWithin s (s.putNat pa n v) pa (pa + n) := by
  have := foldl_homeWrite_heals (bs := leBytes n v) _
    (fun _ hp => mem_linePieces (fuel := (leBytes n v).length / 256 + 2) hp) s (by rwa [leBytes_length])
  rwa [← State.homeWriteAll, leBytes_length] at this

theorem homeTouch_plain {s : State} {pa n : Nat} (h : s.PlainRun pa n) : s.homeTouch pa n = s := by
  refine foldl_of_fixed _ s _ fun p hp => ?_
  obtain ⟨hlo, hpos, hhi⟩ := mem_linePieces hp
  obtain ⟨o, ho⟩ := Nat.exists_eq_add_of_le hlo
  obtain ⟨hw, -, -⟩ := h o (by omega)
  rw [ho, hw]

/-- R104: whether plain memory is uncorrectable is said by its marks. -/
theorem badAt_plain {s : State} {pa n : Nat} (h : s.PlainRun pa n) (hn : 0 < n) :
    s.badAt pa n = firstBad s.memBad pa n := by
  obtain ⟨-, -, hl⟩ := h 0 hn
  rw [Nat.add_zero] at hl
  rw [State.badAt, hl, homeTouch_plain h]
  rfl

theorem firstBad_subset {bad bad' : List Nat} {a n : Nat} (h : firstBad bad a n = none)
    (hs : ∀ w ∈ bad', w ∈ bad) : firstBad bad' a n = none := by
  rw [firstBad, List.findSome?_eq_none_iff] at h ⊢
  intro i hi
  have hgood := h i hi
  simp only [ite_eq_right_iff, reduceCtorEq, imp_false, Bool.and_eq_true, decide_eq_true_eq, List.contains_iff_mem,
    not_and] at hgood ⊢
  exact fun hlt hmem => hgood hlt (hs _ hmem)

/-! ### Writes to a record -/

/-- Between `s` and `t` only the thread in hand and the words at the listed offsets of a record differ. -/
structure WritesRecord (s t : State) (c r : Nat) (offs : List Nat) : Prop where
  frame : t = { s with threads := t.threads, mem := t.mem, memBad := t.memBad }
  others : ∀ k, k ≠ s.cur → t.thread k = s.thread k
  bytes : RecordBytes s t c r offs

section
variable {s t u : State} {c r o : Nat} {l l' : List Nat}

theorem WritesRecord.recAddr (h : WritesRecord s t c r l) : t.recAddr c r = s.recAddr c r := by rw [h.frame]; rfl

theorem WritesRecord.trans (h : WritesRecord s t c r l) (k : WritesRecord t u c r l') :
    WritesRecord s u c r (l ++ l') := by
  have haddr := h.recAddr
  obtain ⟨ht, hto, hbytes, hold, hkeep⟩ := h
  obtain ⟨hu, huo, kbytes, kold, kkeep⟩ := k
  have hcur : t.cur = s.cur := by rw [ht]
  simp only [State.recAddr] at haddr
  simp only [haddr] at kbytes kkeep
  refine ⟨by rw [hu, ht], fun k hk => (huo k (by rwa [hcur])).trans (hto k hk), fun x hx => ?_,
    fun w hw => hold w (kold w hw), fun w hw hout => ?_⟩
  · rw [kbytes x fun o ho => hx o (List.mem_append_right l ho), hbytes x fun o ho => hx o (List.mem_append_left l' ho)]
  · exact kkeep w (hkeep w hw fun o ho => hout o (List.mem_append_left l' ho))
      fun o ho => hout o (List.mem_append_right l ho)

/-- What changes the thread in hand alone writes no word of a record. -/
theorem writesRecord_of_onlyMe (h : OnlyMe s t) (c r : Nat) : WritesRecord s t c r [] := by
  obtain ⟨ht, hto⟩ := h
  have hmem : t.mem = s.mem := by rw [ht]
  have hbad : t.memBad = s.memBad := by rw [ht]
  refine ⟨by rw [ht], hto, fun x _ => by rw [hmem], fun w hw => hbad ▸ hw, fun w hw _ => hbad.symm ▸ hw⟩

theorem WritesRecord.plainRec (h : WritesRecord s t c r l) (hp : PlainRec s c r) : PlainRec t c r := by
  have hrun : t.PlainRun (s.recAddr c r) 256 := State.PlainRun.congr hp (by rw [h.frame]) (by rw [h.frame])
  rwa [← h.recAddr] at hrun

theorem plainRec_word (hp : PlainRec s c r) (ho : o + 8 ≤ 256) : s.PlainRun (s.recAddr c r + o) 8 :=
  State.PlainRun.sub hp ho

theorem recWord_plain (hp : PlainRec s c r) (ho : o + 8 ≤ 256) :
    s.recWord c r o = BitVec.ofNat 64 (s.mem.readNat (s.recAddr c r + o) 8) := by
  rw [State.recWord, homeNat_plain (plainRec_word hp ho)]

/-- A word of a plain record is written, and nothing else. -/
theorem writesRecord_setRecWord (hp : PlainRec s c r) (ho : o + 8 ≤ 256) (v : Word) :
    WritesRecord s (s.setRecWord c r o v) c r [o] := by
  have hrun := plainRec_word hp ho
  obtain ⟨hframe, hbytes⟩ := writesHome_putNat v.toNat hrun
  obtain ⟨hold, hkeep⟩ := healsWithin_putNat v.toNat hrun
  refine ⟨?_, fun k _ => ?_, fun x hx => hbytes x (hx o List.mem_cons_self), hold,
    fun w hw hout => hkeep w hw (hout o List.mem_cons_self)⟩
  · rw [State.setRecWord, hframe]
  · rw [State.setRecWord, hframe]; rfl

theorem threads_setRecWord (hp : PlainRec s c r) (ho : o + 8 ≤ 256) (v : Word) :
    (s.setRecWord c r o v).threads = s.threads := (writesHome_putNat v.toNat (plainRec_word hp ho)).threads

theorem recWord_setRecWord (hp : PlainRec s c r) (ho : o + 8 ≤ 256) (v : Word) :
    (s.setRecWord c r o v).recWord c r o = v := by
  have h := writesRecord_setRecWord hp ho v
  rw [recWord_plain (h.plainRec hp) ho, h.recAddr, State.setRecWord, readNat_putNat _ (plainRec_word hp ho),
    Nat.mod_eq_of_lt (show v.toNat < 256 ^ 8 from v.isLt), BitVec.ofNat_toNat, BitVec.setWidth_eq]

/-- A word of a plain record that no write meets is as it was. -/
theorem WritesRecord.recWord (h : WritesRecord s t c r l) (hp : PlainRec s c r) (ho : o + 8 ≤ 256)
    (hd : ∀ p ∈ l, o + 8 ≤ p ∨ p + 8 ≤ o) : t.recWord c r o = s.recWord c r o := by
  obtain ⟨hbytes, -, -⟩ := h.bytes
  rw [recWord_plain (h.plainRec hp) ho, recWord_plain hp ho, h.recAddr]
  refine congrArg (BitVec.ofNat 64) (Memory.readNat_congr _ _ fun b hlo hhi => hbytes b fun p hp => ?_)
  have := hd p hp
  show b < s.recAddr c r + p ∨ s.recAddr c r + p + 8 ≤ b
  omega

/-! ### STATE (R231, R260) -/

/-- R260: no write of a plain record makes its STATE word uncorrectable. -/
theorem WritesRecord.stateBad (h : WritesRecord s t c r l) (hp : PlainRec s c r) (hs : s.stateBad c r = false) :
    t.stateBad c r = false := by
  obtain ⟨-, hold, -⟩ := h.bytes
  have hown (a : Nat) : t.unowned a = s.unowned a := by rw [h.frame]; rfl
  rw [State.stateBad, badAt_plain (plainRec_word hp (by decide)) (by decide), Bool.or_eq_false_iff,
    Option.isSome_eq_false_iff, Option.isNone_iff_eq_none] at hs
  obtain ⟨hgood, howned⟩ := hs
  rw [State.stateBad, badAt_plain (plainRec_word (h.plainRec hp) (by decide)) (by decide), h.recAddr, hown, howned,
    firstBad_subset hgood hold]
  rfl

theorem stateBad_of_recState_lt (h : s.recState c r < 7) : s.stateBad c r = false := by
  by_contra hb
  rw [State.recState, if_pos (by simpa using hb)] at h
  omega

theorem WritesRecord.me (h : WritesRecord s t c r l) (ht : t.threads = s.threads) : t.me = s.me := by
  rw [State.me, State.thread, ht, h.frame]; rfl

/-- R231: the STATE of a plain record is written, and nothing else. -/
theorem setRecState_plain (hp : PlainRec s c r) (hs : s.stateBad c r = false) (v : Nat) :
    WritesRecord s (s.setRecState c r v) c r [0xC0] ∧ (s.setRecState c r v).threads = s.threads ∧
    (s.setRecState c r v).recWord c r 0xC0 = BitVec.ofNat 64 v := by
  have hset : s.setRecState c r v = s.setRecWord c r 0xC0 (BitVec.ofNat 64 v) := by
    rw [State.setRecState, hs]; rfl
  rw [hset]
  exact ⟨writesRecord_setRecWord hp (by decide) _, threads_setRecWord hp (by decide) _,
    recWord_setRecWord hp (by decide) _⟩

theorem WritesRecord.recState (h : WritesRecord s t c r l) (hp : PlainRec s c r) (hs : s.stateBad c r = false)
    {v : Nat} (hv : v < 8) (hw : t.recWord c r 0xC0 = BitVec.ofNat 64 v) : t.recState c r = v := by
  rw [State.recState, h.stateBad hp hs, hw, BitVec.toNat_ofNat, Nat.mod_eq_of_lt (show v < 2 ^ 64 by omega),
    Nat.mod_eq_of_lt hv]
  rfl

end

end Sys2Proof.Proofs
end

section
/-! Proofs, family 09 (cluster): a record that runs inline, and the end of its child (R13, R30, R243, R244). -/

namespace Sys2Proof.Proofs

open Sys2Proof Sys2Proof.Machine Sys2Proof.Claim

/-! ### spawnc comes to its inline call -/

/-- R116, R241: the release fence of a thread with nothing outstanding does not wait. -/
theorem released_of_drained {s : State} (h : Drained s) : s.released = .ok () := by
  obtain ⟨hflights, hunacked, hreqs⟩ := h
  have hthread : (s.thread s.cur).drained = true := by
    show (s.me.flights.isEmpty && s.me.unacked.isEmpty) = true
    rw [hflights, hunacked]; rfl
  have hfar : s.reqs.any (fun r => dieOf (coreOf r.tid) = dieOf (coreOf s.cur) && !r.engine && r.op.writes &&
      r.resp.isNone && r.tgts.any Target.isFar) = false := by
    rw [List.any_eq_false]
    intro r hr hall
    simp only [Bool.and_eq_true, decide_eq_true_eq, Bool.not_eq_true', Option.isNone_iff_eq_none,
      List.any_eq_true] at hall
    obtain ⟨⟨⟨⟨hdie, heng⟩, hwr⟩, hresp⟩, t, ht, htf⟩ := hall
    rw [hreqs r hr hdie heng hwr hresp t ht] at htf
    cases htf
  rw [State.released, State.settled, hthread, hfar]
  rfl

theorem armStatus_armable {s : State} {c r : Nat} (h : Armable s c r) : s.armStatus c r = none := by
  obtain ⟨hlt, hstate, hform⟩ := h
  rw [State.armStatus, if_neg (by omega), if_neg (by simpa using hstate), hform]
  rfl

/-- R242, R243: with the pool full spawnc is the inline call of its record. -/
theorem exec_spawnc_inline {s : State} {d a : Reg} {c r : Nat} (hr : r = (s.rd a).toNat) (hc : c = s.myCluster)
    (hlt : r < 2 ^ 16) (hdr : Drained s) (harm : Armable s c r) (hpool : 256 ≤ (s.cluster c).used) :
    exec (.spawnc d a) s = s.finishAt (s.inlineCall d c r) := by
  subst hr hc
  show execSpawnc d a s = _
  have hz : (s.rd a).toNat / 0x10000 = 0 := Nat.div_eq_of_lt hlt
  simp only [execSpawnc, zeroBits_bind _ hz, released_of_drained hdr, armStatus_armable harm, ge_iff_le, if_pos hpool]
  rfl

/-! ### What the record keeps of the parent (R243) -/

/-- R243: the parent's RECIX and INL as the record keeps them. -/
def launchWord (t : Thread) : Word := (if t.inl then 0x10000 else 0) ||| BitVec.ofNat 64 t.recIx

theorem launchWord_toNat {t : Thread} (h : t.recIx < 2 ^ 16) :
    (launchWord t).toNat = 2 ^ 16 * t.inl.toNat + t.recIx := by
  rw [launchWord, BitVec.toNat_or, BitVec.toNat_ofNat, Nat.mod_eq_of_lt (show t.recIx < 2 ^ 64 by omega),
    Nat.two_pow_add_eq_or_of_lt h]
  cases t.inl <;> rfl

theorem launchWord_recIx {t : Thread} (h : t.recIx < 2 ^ 16) : (launchWord t).toNat % 0x10000 = t.recIx := by
  rw [launchWord_toNat h]; omega

theorem launchWord_inl {t : Thread} (h : t.recIx < 2 ^ 16) : (launchWord t).getLsbD 16 = t.inl := by
  rw [BitVec.getLsbD, launchWord_toNat h, Nat.testBit_two_pow_mul_add _ h]
  cases t.inl <;> rfl

/-- R243: the parent's destination as the record keeps it. -/
theorem destination_of_word (d : Reg) : (d.zeroExtend 64).extractLsb' 0 5 = d := by
  refine BitVec.eq_of_getLsbD_eq fun n hn => ?_
  simp [hn, show n < 64 by omega]

/-- R243: the record as spawnc leaves it: INLINE, with the parent's words. -/
def inlineSaved (s : State) (d : Reg) (c r : Nat) : State :=
  (((s.setRecState c r 4).setRecWord c r 0xC8 (launchWord s.me)).setRecWord c r 0xD0 s.me.joina).setRecWord c r 0xD8
    (d.zeroExtend 64)

/-- What the record holds from spawnc to the end of its child. -/
structure HoldsParent (s : State) (d : Reg) (c r : Nat) (p : Thread) : Prop where
  inline : s.recWord c r 0xC0 = 4
  launch : s.recWord c r 0xC8 = launchWord p
  joina : s.recWord c r 0xD0 = p.joina
  dest : s.recWord c r 0xD8 = d.zeroExtend 64

section
variable {s t u : State} {d : Reg} {c r : Nat}

theorem HoldsParent.of_onlyMe {p : Thread} (h : HoldsParent s d c r p) (ht : OnlyMe s t) (hp : PlainRec s c r) :
    HoldsParent t d c r p := by
  have hword {o : Nat} (ho : o + 8 ≤ 256) : t.recWord c r o = s.recWord c r o :=
    (writesRecord_of_onlyMe ht c r).recWord hp ho (fun _ h => absurd h List.not_mem_nil)
  exact ⟨(hword (by decide)).trans h.inline, (hword (by decide)).trans h.launch, (hword (by decide)).trans h.joina,
    (hword (by decide)).trans h.dest⟩

theorem inlineSaved_writes (hp : PlainRec s c r) (hs : s.stateBad c r = false) :
    WritesRecord s (inlineSaved s d c r) c r [0xC0, 0xC8, 0xD0, 0xD8] ∧
    (inlineSaved s d c r).threads = s.threads ∧ HoldsParent (inlineSaved s d c r) d c r s.me := by
  rw [inlineSaved]
  obtain ⟨h1, hthreads, hstate⟩ := setRecState_plain hp hs 4
  have p1 := h1.plainRec hp
  have h2 := writesRecord_setRecWord (o := 0xC8) p1 (by decide) (launchWord s.me)
  have p2 := h2.plainRec p1
  have h3 := writesRecord_setRecWord (o := 0xD0) p2 (by decide) s.me.joina
  have p3 := h3.plainRec p2
  have h4 := writesRecord_setRecWord (o := 0xD8) p3 (by decide) (d.zeroExtend 64)
  refine ⟨((h1.trans h2).trans h3).trans h4, ?_, ⟨?_, ?_, ?_, recWord_setRecWord p3 (by decide) _⟩⟩
  · rw [threads_setRecWord p3 (by decide), threads_setRecWord p2 (by decide), threads_setRecWord p1 (by decide),
      hthreads]
  · rw [((h2.trans h3).trans h4).recWord p1 (by decide) (by decide), hstate]
    rfl
  · rw [(h3.trans h4).recWord p2 (by decide) (by decide), recWord_setRecWord p1 (by decide)]
  · rw [h4.recWord p3 (by decide) (by decide), recWord_setRecWord p2 (by decide)]

/-! ### The child's window (R243) -/

theorem onlyMe_refl (s : State) : OnlyMe s s := ⟨rfl, fun _ _ => rfl⟩

/-- Registers written one after the other are writes of the thread in hand. -/
theorem foldl_wr (v : Nat → Word) (l : List Nat) (s : State) :
    OnlyMe s (l.foldl (fun s i => s.wr (BitVec.ofNat 5 i) (v i)) s) ∧
    (l.foldl (fun s i => s.wr (BitVec.ofNat 5 i) (v i)) s).me =
      l.foldl (fun x i => x.wr (BitVec.ofNat 5 i) (v i)) s.me := by
  induction l generalizing s with
  | nil => exact ⟨onlyMe_refl s, rfl⟩
  | cons i l ih =>
    obtain ⟨ho, hm⟩ := ih (s.wr (BitVec.ofNat 5 i) (v i))
    refine ⟨onlyMe_trans (onlyMe_setMe s _) ho, ?_⟩
    rw [List.foldl_cons, hm, State.me_wr, List.foldl_cons]

/-- R12: w0, w1 and so on are the first registers of the window's block. -/
theorem code_window {x : Thread} {i : Nat} (hwb : x.wb < 12) (hi : i < 8) :
    x.code (BitVec.ofNat 5 i) = 8 * x.wb + i := by
  have hn : (BitVec.ofNat 5 i).toNat = i := by rw [BitVec.toNat_ofNat, Nat.mod_eq_of_lt (by omega)]
  rw [Thread.code, hn, if_pos (by omega), Nat.mod_eq_of_lt (by omega)]

/-- The first registers of a window, written one after the other, fill its block. -/
theorem foldl_wr_fillBlock (v : Nat → Word) {x : Thread} (hwb : x.wb < 12) {n : Nat} (hn : n ≤ 8) :
    (List.range n).foldl (fun x i => x.wr (BitVec.ofNat 5 i) (v i)) x = fillBlock x.wb n v x := by
  induction n with
  | zero => rfl
  | succ n ih =>
    have hwb' : (fillBlock x.wb n v x).wb = x.wb := by rw [fillBlock_frame]
    rw [List.range_succ, List.foldl_append, ih (by omega), fillBlock_succ]
    show (fillBlock x.wb n v x).writeCode _ _ = _
    rw [code_window (by rw [hwb']; exact hwb) (by omega), hwb']

/-- R243: the child's thread, its call made and its arguments `w 0x40` to `w 0x78` in w0 to w7. -/
def childOf (p : Thread) (r : Nat) (w : Nat → Word) : Thread :=
  { fillBlock ((p.wb + 2) % 12) 8 (fun i => w (0x40 + 8 * i)) ((slid p 2 (w 0)).wr 23 (linkWord p 2)) with
    recIx := r, inl := true, joina := w 0x28 }

theorem childOf_frame (p : Thread) (r : Nat) (w : Nat → Word) :
    childOf p r w = { p with pc := w 0, wb := (p.wb + 2) % 12, depth := p.depth + 2, recIx := r, inl := true
                             joina := w 0x28, regs := (childOf p r w).regs, badRegs := (childOf p r w).badRegs } := by
  rw [childOf, fillBlock_frame, Thread.wr, Thread.writeCode_frame]
  rfl

theorem childOf_rd (p : Thread) (r : Nat) (w : Nat → Word) (n : Reg) :
    (childOf p r w).rd n = (fillBlock ((p.wb + 2) % 12) 8 (fun i => w (0x40 + 8 * i))
      ((slid p 2 (w 0)).wr 23 (linkWord p 2))).readCode ((slid p 2 (w 0)).code n) := by
  have hcode : (childOf p r w).code n = (slid p 2 (w 0)).code n :=
    Thread.code_congr (by rw [childOf_frame]; rfl) (by rw [childOf_frame]; rfl) n
  rw [Thread.rd, hcode]
  rfl

theorem childOf_argument (p : Thread) (r : Nat) (w : Nat → Word) {i : Nat} (hi : i < 8) :
    (childOf p r w).rd (BitVec.ofNat 5 i) = w (0x40 + 8 * i) := by
  have hwb : (slid p 2 (w 0)).wb < 12 := Nat.mod_lt _ (by decide)
  rw [childOf_rd, code_window hwb hi]
  show (fillBlock ((p.wb + 2) % 12) 8 _ _).readCode (8 * ((p.wb + 2) % 12) + i) = _
  rw [readCode_fillBlock _ _ _ _ (by omega), if_pos (by omega), Nat.add_sub_cancel_left]

/-- R13: the arguments leave the link word alone. -/
theorem childOf_link (p : Thread) (r : Nat) (w : Nat → Word) : (childOf p r w).rd 23 = linkWord p 2 := by
  have hcode : (slid p 2 (w 0)).code 23 = (8 * ((p.wb + 2) % 12) + 23) % 96 := rfl
  have hlink : ((slid p 2 (w 0)).wr 23 (linkWord p 2)).readCode ((slid p 2 (w 0)).code 23) = linkWord p 2 := by
    rw [← Thread.code_wr]
    exact (Thread.rd_wr _ _ _ _).trans (by simp)
  rw [childOf_rd, readCode_fillBlock _ _ _ _ (by omega), if_neg (by rw [hcode]; omega), hlink]

/-! ### The inline call -/

theorem inlineCall_overflows (h : 7 < s.me.depth) :
    s.inlineCall d c r = .error (.trap { code := 0x06, eval := 2 }) := by
  rw [State.inlineCall]
  exact if_pos (by omega)

/-- R243: the child's arguments, RECIX, INL and JOINA, once the call is made. -/
def enterChild (r : Nat) (w : Nat → Word) (s : State) : State :=
  ((List.range 8).foldl (fun s i => s.wr (BitVec.ofNat 5 i) (w (0x40 + 8 * i))) s).modMe
    (fun x => { x with recIx := r, inl := true, joina := w 0x28 })

theorem inlineCall_of_call (h : s.me.depth ≤ 7)
    (hcall : (inlineSaved s d c r).call 2 ((inlineSaved s d c r).recWord c r 0) = .ok t) :
    s.inlineCall d c r = .ok (enterChild r ((inlineSaved s d c r).recWord c r) t) := by
  unfold inlineSaved launchWord at hcall ⊢
  unfold State.inlineCall enterChild
  dsimp only
  rw [if_neg (by omega), hcall]

/-- A called thread becomes the child's. -/
theorem enterChild_childOf (r : Nat) (w : Nat → Word) (p : Thread) (v : State) :
    OnlyMe v (enterChild r w (v.setMe ((slid p 2 (w 0)).wr 23 (linkWord p 2)))) ∧
    (enterChild r w (v.setMe ((slid p 2 (w 0)).wr 23 (linkWord p 2)))).me = childOf p r w := by
  generalize hy : (slid p 2 (w 0)).wr 23 (linkWord p 2) = y
  have hwb : y.wb = (p.wb + 2) % 12 := hy ▸ Thread.writeCode_wb _ _ _
  obtain ⟨ho, hm⟩ := foldl_wr (fun i => w (0x40 + 8 * i)) (List.range 8) (v.setMe y)
  rw [State.me_setMe, foldl_wr_fillBlock _ (by rw [hwb]; omega) (Nat.le_refl 8), hwb] at hm
  refine ⟨onlyMe_trans (onlyMe_setMe v y) (onlyMe_trans ho (onlyMe_setMe _ _)), ?_⟩
  rw [enterChild, State.me_modMe, hm, childOf, hy]

/-- R243: with room for the window, the record keeps the parent's words and the thread is the child's. -/
theorem inlineCall_runs_child (h : s.me.depth ≤ 7) (hme : (inlineSaved s d c r).me = s.me) :
    ∃ t, s.inlineCall d c r = .ok t ∧ OnlyMe (inlineSaved s d c r) t ∧
      t.me = childOf s.me r ((inlineSaved s d c r).recWord c r) := by
  have hcall := call_fits (inlineSaved s d c r) 2 ((inlineSaved s d c r).recWord c r 0) (by rw [hme]; omega)
  rw [hme] at hcall
  exact ⟨_, inlineCall_of_call h hcall, enterChild_childOf r _ s.me (inlineSaved s d c r)⟩

/-! ### The child's end (R244) -/

theorem unslide_fits {k : Nat} {target : Word} (h : k ≤ s.me.depth) : s.unslide k target =
    .ok (s.setMe { s.me with wb := (s.me.wb + 12 - k) % 12, depth := s.me.depth - k, pc := target }) := by
  rw [State.unslide]
  exact if_neg (by omega)

/-- R248: an inline child with no join address signals nothing. -/
theorem signalDone_inline (hinl : s.me.inl = true) (hj : s.me.joina = 0) : s.signalDone = s := by
  have hnone : objectAt .join 0 = none := by decide
  simp only [State.signalDone, Thread.guest, hinl, if_true, hj, hnone]

/-- R244: RECIX, INL and JOINA as the record has kept them. -/
def restored (w : Nat → Word) (x : Thread) : Thread :=
  { x with recIx := (w 0xC8).toNat % 0x10000, inl := (w 0xC8).getLsbD 16, joina := w 0xD0 }

/-- R244: the parent's thread, from the child's with a link word of slide 2 and the record's words. -/
def returned (w : Nat → Word) (x : Thread) : Thread :=
  { restored w x with wb := (x.wb + 12 - 2) % 12, depth := x.depth - 2, pc := x.rd 23 &&& ~~~1 }

theorem unslide_restored {v : State} {w : Nat → Word} {x : Thread} (hv : v.me = restored w x) (h : 2 ≤ x.depth) :
    v.unslide 2 (x.rd 23 &&& ~~~1) = .ok (v.setMe (returned w x)) := by
  rw [unslide_fits (by rw [hv]; exact h), hv]
  rfl

/-- R244: an inline child with no join address ends: its record is IDLE, and its thread is the parent's again. -/
theorem doneInline_returns (hinl : s.me.inl = true) (hj : s.me.joina = 0) (hk : s.me.linkSlide = 2)
    (hdepth : 2 ≤ s.me.depth) (hdr : Drained s) (hme : (s.setRecState s.myCluster s.me.recIx 0).me = s.me) :
    ∃ u, s.doneInline = .ok u ∧ OnlyMe (s.setRecState s.myCluster s.me.recIx 0) u ∧
      u.me = (returned (s.recWord s.myCluster s.me.recIx) s.me).wr
        ((s.recWord s.myCluster s.me.recIx 0xD8).extractLsb' 0 5) 1 := by
  have hjoin : s.checkJoina = .ok () := by rw [State.checkJoina]; exact if_pos hj
  let w := s.recWord s.myCluster s.me.recIx
  let v := (s.setRecState s.myCluster s.me.recIx 0).modMe (fun x => restored w x)
  have hv : v.me = restored w s.me := (State.me_modMe _ _).trans (congrArg _ hme)
  have hslide := unslide_restored hv hdepth
  refine ⟨(v.setMe (returned w s.me)).wr ((w 0xD8).extractLsb' 0 5) 1, ?_,
    onlyMe_trans (onlyMe_setMe _ _) (onlyMe_trans (onlyMe_setMe v _) (onlyMe_setMe _ _)), ?_⟩
  · simp only [v, w, restored] at hslide ⊢
    simp only [State.doneInline, hk, if_neg (show ¬ s.me.depth < 2 by omega), hjoin, released_of_drained hdr,
      signalDone_inline hinl hj, bind, Except.bind, hslide]
  · rw [State.me_wr, State.me_setMe]

theorem exec_done_inline (hg : s.me.gang = false) (hinl : s.me.inl = true) :
    exec .done s = s.finishAt s.doneInline := by
  show execDone s = _
  simp only [execDone, hg, Bool.false_eq_true, if_false, hinl, if_true]

/-- R243, R244: from the child's thread and the record that spawnc wrote, the parent's. -/
theorem returned_childOf {p : Thread} {w w' : Nat → Word} (hwb : p.wb < 12) (hrec : p.recIx < 2 ^ 16)
    (hpc : p.pc.getLsbD 0 = false) (hlaunch : w' 0xC8 = launchWord p) (hjoina : w' 0xD0 = p.joina) :
    returned w' (childOf p r w) =
      { p with pc := p.pc + 4, regs := (childOf p r w).regs, badRegs := (childOf p r w).badRegs } := by
  have hlink : linkWord p 2 &&& ~~~1 = p.pc + 4 :=
    evenAddress_of_link _ _ (add_four_even _ hpc) fun j h1 _ => by
      rw [linkWord, link_getLsbD _ _ j, if_neg (by omega)]
  have hback : ((p.wb + 2) % 12 + 12 - 2) % 12 = p.wb := by omega
  rw [returned, restored, childOf_link, hlaunch, hjoina, launchWord_recIx hrec, launchWord_inl hrec, hlink,
    childOf_frame]
  dsimp only
  rw [hback, Nat.add_sub_cancel]

theorem childOf_linkSlide (p : Thread) (r : Nat) (w : Nat → Word) : (childOf p r w).linkSlide = 2 := by
  rw [Thread.linkSlide, childOf_link, toNat_mod_two, linkWord, link_getLsbD _ _ 0]
  rfl

/-- R244: from the child's thread and the record that spawnc wrote, done makes the record IDLE and the thread the
parent's behind its spawnc, with 1 in its destination. -/
theorem done_returns_to_parent {p : Thread} {w : Nat → Word} (hchild : s.me = childOf p r w) (hc : s.myCluster = c)
    (hplain : PlainRec s c r) (hbad : s.stateBad c r = false) (hkept : HoldsParent s d c r p) (hdr : Drained s)
    (hg : p.gang = false) (hj : w 0x28 = 0) (hwb : p.wb < 12) (hrec : p.recIx < 2 ^ 16)
    (hpc : p.pc.getLsbD 0 = false) :
    ∃ u, exec .done s = .next u ∧ u = { s with threads := u.threads, mem := u.mem, memBad := u.memBad } ∧
      u.me = { p with pc := p.pc + 4, regs := u.me.regs, badRegs := u.me.badRegs } ∧
      u.me.rd d = (if d = 24 then 0 else 1) ∧ u.recState c r = 0 := by
  have hframe := childOf_frame p r w
  rw [← hchild] at hframe
  have hrecIx : s.me.recIx = r := by rw [hframe]
  have hinl : s.me.inl = true := by rw [hframe]
  have hjoina : s.me.joina = 0 := by rw [hframe]; exact hj
  have hgang : s.me.gang = false := by rw [hframe]; exact hg
  have hdepth : 2 ≤ s.me.depth := by rw [hframe]; exact Nat.le_add_left _ _
  have hslide : s.me.linkSlide = 2 := by rw [hchild, childOf_linkSlide]
  obtain ⟨hidle, hidleThreads, hidleWord⟩ := setRecState_plain hplain hbad 0
  have hme := hidle.me hidleThreads
  obtain ⟨u, hu, hou, hume⟩ := doneInline_returns hinl hjoina hslide hdepth hdr (by rw [hc, hrecIx]; exact hme)
  rw [hc, hrecIx] at hou hume
  rw [hkept.dest, destination_of_word, hchild, returned_childOf hwb hrec hpc hkept.launch hkept.joina] at hume
  have hall := hidle.trans (writesRecord_of_onlyMe hou c r)
  have hword := (writesRecord_of_onlyMe hou c r).recWord (hidle.plainRec hplain) (o := 0xC0) (by decide)
    (fun _ h => absurd h List.not_mem_nil)
  refine ⟨u, by rw [exec_done_inline hgang hinl, hu]; rfl, hall.frame, ?_, ?_,
    hall.recState hplain hbad (by decide) (hword.trans hidleWord)⟩
  · rw [hume, Thread.wr, Thread.writeCode_frame]
  · rw [hume, Thread.rd_wr, if_pos rfl]

end

/-- Settles O32: spawnc saves the parent in the record and makes the call, and done takes it back from there. -/
theorem inlineChildRunsAndReturns : Obligations.InlineChildRunsAndReturns := by
  intro s d a r c hr hc hlt hdr harm hpool hp
  have ⟨_, hidle, _⟩ := harm
  have hx := exec_spawnc_inline (d := d) hr hc hlt hdr harm hpool
  refine ⟨fun hdeep ha => ?_, fun hd => ?_⟩
  · exact traps_of_takeTrap (t := { code := 0x06, eval := 2 }) (by rw [hx, inlineCall_overflows hdeep]; rfl) ha
  have hs : s.stateBad c r = false := stateBad_of_recState_lt (by rw [hidle]; decide)
  obtain ⟨hsaves, hthreads, hholds⟩ := inlineSaved_writes (d := d) hp hs
  obtain ⟨t, ht, hot, htme⟩ := inlineCall_runs_child hd (hsaves.me hthreads)
  have hoffs : ∀ p ∈ [0xC0, 0xC8, 0xD0, 0xD8], 0xC0 ≤ p := by decide
  have hword {o : Nat} (ho : o + 8 ≤ 0xC0) : (inlineSaved s d c r).recWord c r o = s.recWord c r o :=
    hsaves.recWord hp (by omega) fun p hp => .inl (ho.trans (hoffs p hp))
  have hplain := hsaves.plainRec hp
  have hall : WritesRecord s t c r [0xC0, 0xC8, 0xD0, 0xD8] := hsaves.trans (writesRecord_of_onlyMe hot c r)
  have hkept := hholds.of_onlyMe hot hplain
  have hplain := hall.plainRec hp
  have hbad := hall.stateBad hp hs
  have hchild : t.me = { s.me with pc := s.recWord c r 0, wb := (s.me.wb + 2) % 12, depth := s.me.depth + 2, recIx := r
                                   inl := true, joina := s.recWord c r 0x28, regs := t.me.regs
                                   badRegs := t.me.badRegs } := by
    rw [htme, ← hword (o := 0) (by decide), ← hword (o := 0x28) (by decide)]
    exact childOf_frame _ _ _
  have hlink (j : Nat) : (t.me.rd 23).getLsbD j = if j = 0 then true else (s.me.pc + 4).getLsbD j := by
    rw [htme, childOf_link, linkWord, link_getLsbD _ _ j]
    rfl
  refine ⟨t, by rw [hx, ht]; rfl, hall.frame, hall.others, hall.recState hp hs (by decide) hkept.inline, hall.bytes,
    hchild, fun i hi => by rw [htme, childOf_argument _ _ _ hi, hword (by omega)],
    fun j h1 _ => by rw [hlink, if_neg (by omega)], by rw [hlink, if_pos rfl], fun hwb hrec hpc hj hg => ?_⟩
  have hcur : t.cur = s.cur := by rw [hall.frame]
  have hdrained : Drained t := by
    obtain ⟨hflights, hunacked, hreqs⟩ := hdr
    refine ⟨by rw [hchild]; exact hflights, by rw [hchild]; exact hunacked, ?_⟩
    rw [State.myDie, State.myCore, hcur, hall.frame]
    exact hreqs
  exact done_returns_to_parent htme (by rw [State.myCluster, State.myCore, hcur, hc]; rfl) hplain hbad hkept hdrained hg
    (by rw [hword (by decide), hj]) hwb hrec hpc

end Sys2Proof.Proofs
end

section
/-! Proofs, family 10 (die): one line of memory at its home, and what an event changes of the dies and of Selvedge (R104,
R171, R266, R371). -/

namespace Sys2Proof.Machine

/-! ### One line at its home -/

theorem linePieces_line {pa n : Nat} (hn : 0 < n) (hl : pa % 256 + n ≤ 256) :
    linePieces (n / 256 + 2) pa n = [(pa, n)] := by
  have hmin : min n (256 - pa % 256) = n := by omega
  rw [linePieces, if_neg (Nat.ne_of_gt hn)]
  dsimp only
  rw [hmin, Nat.sub_self, linePieces, if_pos rfl]

theorem homeReadAll_line {s : State} {pa n : Nat} (hn : 0 < n) (hl : pa % 256 + n ≤ 256) (hw : s.windowOf pa = none)
    (h2 : inTier2 pa = false) : s.homeReadAll pa n = (s, s.mem.readBytes pa n) := by
  simp [State.homeReadAll, linePieces_line hn hl, homeRead_plain hw h2]

theorem homeTouch_line {s : State} {pa n : Nat} (hn : 0 < n) (hl : pa % 256 + n ≤ 256) (hw : s.windowOf pa = none) :
    s.homeTouch pa n = s := by
  simp [State.homeTouch, linePieces_line hn hl, hw]

theorem homeWriteAll_line {s : State} {pa : Nat} {bs : List Byte} (hn : 0 < bs.length)
    (hl : pa % 256 + bs.length ≤ 256) (hw : s.windowOf pa = none) (h2 : inTier2 pa = false) (hlost : s.lost pa = false) :
    s.homeWriteAll pa bs = { s.healMem pa bs.length with mem := s.mem.writeBytes pa bs } := by
  simp [State.homeWriteAll, linePieces_line hn hl, homeWrite_plain hw h2 hlost]

theorem Memory.readBytes_length (m : Memory) (n : Nat) : ∀ a, (m.readBytes a n).length = n := by
  induction n with
  | zero => exact fun _ => rfl
  | succ n ih => exact fun a => congrArg (· + 1) (ih (a + 1))

theorem homeDie_not_tier2 {pa d : Nat} (h : homeDie pa = some d) : inTier2 pa = false := by
  have hlt : pa < 0x18000000000 := by
    by_contra hge
    simp [homeDie, hge] at h
  simp only [inTier2, Bool.and_eq_false_iff, decide_eq_false_iff_not]
  omega

/-! ### The dies and Selvedge behind an event (R171, R371) -/

/-- A die without the container lines that its L2 holds. -/
def Die.sansLines (x : Die) : Die := { x with container := {} }

/-- Between `s` and `t` the dies differ in the container lines that they hold alone, and Selvedge in its event rings alone. -/
def LinesAndRings (s t : State) : Prop :=
  (∀ d, (t.die d).sansLines = (s.die d).sansLines) ∧ t.pkg = { s.pkg with rings := t.pkg.rings }

theorem LinesAndRings.refl (s : State) : LinesAndRings s s := ⟨fun _ => rfl, rfl⟩

theorem LinesAndRings.trans {s t u : State} (h : LinesAndRings s t) (k : LinesAndRings t u) : LinesAndRings s u := by
  obtain ⟨hd, hp⟩ := h
  obtain ⟨kd, kp⟩ := k
  exact ⟨fun d => (kd d).trans (hd d), by rw [kp, hp]⟩

/-- The same dies and the same Selvedge. -/
theorem LinesAndRings.of_eq {s t : State} (hd : t.dies = s.dies) (hp : t.pkg = s.pkg) : LinesAndRings s t :=
  ⟨fun d => by rw [State.die_of_dies s t hd], by rw [hp]⟩

theorem LinesAndRings.setRings {s t : State} (h : LinesAndRings s t) (r : Vector EventRing 5) :
    LinesAndRings s { t with pkg := { t.pkg with rings := r } } := h.trans ⟨fun _ => rfl, rfl⟩

theorem LinesAndRings.foldl {α : Type} {f : State → α → State} (hf : ∀ s x, LinesAndRings s (f s x)) (l : List α) :
    ∀ s, LinesAndRings s (l.foldl f s) := by
  induction l with
  | nil => exact LinesAndRings.refl
  | cons x l ih => exact fun s => (hf s x).trans (ih _)

theorem linesAndRings_modDie (s : State) (d : Nat) {f : Die → Die} (hf : ∀ x, (f x).sansLines = x.sansLines) :
    LinesAndRings s (s.modDie d f) := by
  refine ⟨fun k => ?_, rfl⟩
  by_cases hk : k = d
  · rw [hk, State.die_modDie, hf]
  · rw [State.die_modDie_other _ _ _ _ hk]

theorem linesAndRings_cleanContainer (s : State) (d a : Nat) (keep : Bool) :
    LinesAndRings s (s.cleanContainer d a keep) := by
  unfold State.cleanContainer
  split
  · next w l _ _ =>
    have hwrite : LinesAndRings s (if l.dirty then s.writeContainer w a l.bytes.toList else s) := by
      split_ifs
      · exact .of_eq rfl rfl
      · exact .refl s
    dsimp only
    generalize (if l.dirty then s.writeContainer w a l.bytes.toList else s) = u at hwrite ⊢
    refine hwrite.trans ?_
    split
    · exact linesAndRings_modDie u d fun _ => rfl
    · exact LinesAndRings.trans (.of_eq rfl rfl) (linesAndRings_modDie { u with memBad := _ } d fun _ => rfl)
  · exact .refl s

theorem linesAndRings_l2Room (s : State) (d k : Nat) : LinesAndRings s (s.l2Room d k) := by
  unfold State.l2Room
  dsimp only
  split_ifs
  · exact .refl s
  · exact (linesAndRings_cleanContainer s d _ false).trans (.of_eq rfl rfl)

theorem linesAndRings_fillLine (s : State) (d : Nat) (w : FormatWindow) (a : Nat) :
    LinesAndRings s (s.fillLine d w a) := by
  unfold State.fillLine
  split
  · exact .refl s
  · exact (linesAndRings_l2Room s d (a / 256)).trans (linesAndRings_modDie _ d fun _ => rfl)

theorem tierWrite_dies_pkg (s : State) (a : Nat) (bs : List Byte) :
    (s.tierWrite a bs).dies = s.dies ∧ (s.tierWrite a bs).pkg = s.pkg := by
  unfold State.tierWrite
  split
  · exact ⟨rfl, rfl⟩
  · split_ifs <;> exact ⟨rfl, rfl⟩

theorem linesAndRings_homeWrite (s : State) (a : Nat) (bs : List Byte) : LinesAndRings s (s.homeWrite a bs) := by
  unfold State.homeWrite
  split
  · exact .refl s
  · split
    · next d w _ =>
      have hfill := linesAndRings_fillLine s d w a
      generalize s.fillLine d w a = u at hfill ⊢
      exact hfill.trans ((LinesAndRings.of_eq (t := u.healMem a bs.length) rfl rfl).trans
        (linesAndRings_modDie _ d fun _ => rfl))
    · split
      · obtain ⟨hd, hp⟩ := tierWrite_dies_pkg (s.healMem a bs.length) a bs
        exact .of_eq hd hp
      · exact .of_eq rfl rfl

theorem linesAndRings_homeWriteAll (s : State) (a : Nat) (bs : List Byte) : LinesAndRings s (s.homeWriteAll a bs) :=
  .foldl (fun s _ => linesAndRings_homeWrite s _ _) _ s

theorem linesAndRings_ringPut (s : State) (f w a b : Nat) : LinesAndRings s (s.ringPut f w a b) := by
  unfold State.ringPut
  split_ifs with hf
  · dsimp only
    split_ifs
    · exact ⟨fun _ => rfl, rfl⟩
    · exact (linesAndRings_homeWriteAll s _ _).setRings _
  · exact .refl s

/-- R371: an event writes its record, through a format window into container lines, and moves its ring. -/
theorem linesAndRings_postEvent (s : State) (d : Option Nat) (k : Nat) (a b : Word) :
    LinesAndRings s (s.postEvent d k a b) := by
  unfold State.postEvent
  cases d with
  | none => exact linesAndRings_ringPut s _ _ _ _
  | some d =>
    dsimp only
    split_ifs
    · exact (linesAndRings_ringPut s _ _ _ _).trans (linesAndRings_ringPut _ _ _ _ _)
    · exact linesAndRings_ringPut s _ _ _ _

/-! ### Dies without format windows -/

theorem windowOf_of_dies {s t : State} (h : t.dies = s.dies) (a : Nat) : t.windowOf a = s.windowOf a := by
  simp only [State.windowOf, State.die, h]

theorem dies_homeWrite {s : State} (h : ∀ b, s.windowOf b = none) (a : Nat) (bs : List Byte) :
    (s.homeWrite a bs).dies = s.dies := by
  unfold State.homeWrite
  rw [h a]
  dsimp only
  split_ifs
  · rfl
  · exact (tierWrite_dies_pkg _ a bs).1
  · rfl

theorem dies_homeWriteAll {s : State} (h : ∀ b, s.windowOf b = none) (a : Nat) (bs : List Byte) :
    (s.homeWriteAll a bs).dies = s.dies := by
  unfold State.homeWriteAll
  generalize linePieces _ _ _ = l
  induction l generalizing s with
  | nil => rfl
  | cons p l ih =>
    have hp := dies_homeWrite h p.1 ((bs.drop (p.1 - a)).take p.2)
    rw [List.foldl_cons, ih fun b => (windowOf_of_dies hp b).trans (h b), hp]

theorem dies_ringPut {s : State} (h : ∀ b, s.windowOf b = none) (f w a b : Nat) :
    (s.ringPut f w a b).dies = s.dies := by
  unfold State.ringPut
  split_ifs with hf
  · dsimp only
    split_ifs
    · rfl
    · exact dies_homeWriteAll h _ _
  · rfl

/-- R371: with no format window the record of an event goes to memory. -/
theorem dies_postEvent {s : State} (h : ∀ b, s.windowOf b = none) (d : Option Nat) (k : Nat) (a b : Word) :
    (s.postEvent d k a b).dies = s.dies := by
  unfold State.postEvent
  cases d with
  | none => exact dies_ringPut h _ _ _ _
  | some d =>
    dsimp only
    have hone (f w x y : Nat) := dies_ringPut h f w x y
    split_ifs
    · exact (dies_ringPut (fun b => (windowOf_of_dies (hone _ _ _ _) b).trans (h b)) _ _ _ _).trans (hone _ _ _ _)
    · exact hone _ _ _ _

end Sys2Proof.Machine
end

section
/-! Proofs, family 10 (die): translation, invalidation and fences of a die (R291–R296, R301, R302, R345). -/

namespace Sys2Proof.Proofs

open Sys2Proof Sys2Proof.Machine Sys2Proof.Claim

/-! ### Writes to the registers of a die (R263) -/

/-- The event changes die `d` alone of the dies, to `y`, and no thread and no memory. -/
def SetsDie (i : Instr) (s : State) (d : Nat) (y : Die) : Prop :=
  ∃ t, exec i s = .next t ∧ t.threads = s.threads ∧ t.mem = s.mem ∧ (∀ k, k ≠ d → t.die k = s.die k) ∧ t.die d = y

theorem setsDie_of_setDie {i : Instr} {s : State} {who : Who} {addr : Word} {d : Nat} {y : Die} {w : Wrote}
    (hmay : MayStore s who addr) (hwho : whoIsThread who = false) (hx : exec i s = .next (s.store who addr w))
    (hw : w = { s := s.setDie d y }) : SetsDie i s d y := by
  obtain ⟨p, hp⟩ := store_unthreaded w hmay hwho
  subst hw
  exact ⟨_, hx.trans (congrArg _ hp), rfl, rfl, fun k hk => Tab.get_put_other _ _ _ _ _ hk, State.die_setDie s d y⟩

theorem setsDie_of_refused {i : Instr} {s : State} {who : Who} {addr : Word} {w : Wrote} (d : Nat)
    (hmay : MayStore s who addr) (hwho : whoIsThread who = false) (hx : exec i s = .next (s.store who addr w))
    (hw : w = refuse51 s) : SetsDie i s d (s.die d) := by
  obtain ⟨p, hp⟩ := store_unthreaded w hmay hwho
  subst hw
  exact ⟨_, hx.trans (congrArg _ hp), rfl, rfl, fun _ _ => rfl, rfl⟩

/-! ### Walks (R291, R294, R295) -/

theorem bits_low (x hi : Nat) : bits x hi 0 = x % 2 ^ (hi + 1) := by rw [bits, pow_zero, Nat.div_one, Nat.sub_zero]

theorem keyedWalk_leaf {s : State} {key e n : Nat} {w : Walk} (l : List Nat) (h : s.keyedWalk key w l = .leaf e n) :
    w = .leaf e n := by
  induction l with
  | nil => exact h
  | cons a r ih =>
    rw [State.keyedWalk] at h
    split at h
    · exact ih h
    · cases h

/-- R291: a leaf has the page size of the table that held it. -/
theorem walkFrom_leaf {s : State} {va e n : Nat} (l : List Nat) (seen : List Nat) (base : Nat)
    (h : s.walkFrom va seen l base = .leaf e n) : n ∈ l := by
  induction l generalizing seen base with
  | nil => cases h
  | cons nbits rest ih =>
    rw [State.walkFrom] at h
    dsimp only at h
    split at h
    · cases h
    split at h
    · cases h
    split at h
    · cases h
    split at h
    · cases h
    split at h
    · split at h
      · cases h
      split at h
      · cases keyedWalk_leaf _ h
        exact List.mem_cons_self
      · cases h
    · split at h
      · cases h
      · split at h
        · exact List.mem_cons_of_mem _ (ih _ _ h)
        · cases h

theorem walk_leaf {s : State} {d va e n : Nat} (h : s.walk d va = .leaf e n) : n ∈ [18, 31, 44] := by
  rw [State.walk] at h
  split at h
  · have := walkFrom_leaf _ _ _ h
    revert this
    simp only [List.mem_cons, List.not_mem_nil, or_false]
    omega
  · cases h

theorem tlbHit_of_find {s : State} {d va n : Nat} {x : TlbEntry} (hn : n ∈ [18, 31, 44])
    (h : (s.die d).tlb.find (tlbKey va n) = some x) : (s.tlbHit d va).isSome = true := by
  rw [State.tlbHit, List.findSome?_isSome_iff]
  exact ⟨n, hn, by rw [h]; rfl⟩

/-- R295: what a die holds is not walked for, nor anything while it has no tables. -/
theorem walk_unneeded {s : State} {d : Nat} {va : Word}
    (h : (s.die d).ptEn = false ∨ (s.tlbHit d (bits va.toNat 56 0)).isSome = true) :
    s.fillTlb d va = s ∧ s.reportWalk d va = s := by
  refine ⟨if_pos ?_, if_neg ?_⟩
  · rcases h with h | h <;> rw [h]
    · rfl
    · exact Bool.or_true _
  · rcases h with h | h
    · simp [h]
    · simp [Option.ne_none_iff_isSome.mpr h]

section
variable {s : State} {d : Nat} {va : Word}

theorem pageWalk_unneeded (h : (s.die d).ptEn = false ∨ (s.tlbHit d (bits va.toNat 56 0)).isSome = true) :
    exec (.pageWalk d va) s = .next s := by
  obtain ⟨hfill, hreport⟩ := walk_unneeded h
  show Host.Outcome.next ((s.fillTlb d va).reportWalk d va) = _
  rw [hfill, hreport]

variable (hpt : (s.die d).ptEn = true) (hmiss : s.tlbHit d (bits va.toNat 56 0) = none)
include hpt hmiss

/-- R294: a walk that finds no valid entry, with nothing reserved set, leaves no trace. -/
theorem pageWalk_faults (hw : s.walk d (bits va.toNat 56 0) = .fault none) :
    exec (.pageWalk d va) s = .next s := by
  have hfill : s.fillTlb d va = s := by simp only [State.fillTlb, hpt, hmiss, hw]; rfl
  have hreport : s.reportWalk d va = s := by simp only [State.reportWalk, hpt, hmiss, hw]; rfl
  show Host.Outcome.next ((s.fillTlb d va).reportWalk d va) = _
  rw [hfill, hreport]

/-- R295: with room in the TLBs, the leaf that a walk finds enters them. -/
theorem pageWalk_fills {e n : Nat} (hroom : (s.die d).tlb.cells.length < 32768)
    (hw : s.walk d (bits va.toNat 56 0) = .leaf e n) :
    exec (.pageWalk d va) s = .next (s.modDie d (fun x =>
      { x with tlb := x.tlb.put (tlbKey (bits va.toNat 56 0) n) { entry := BitVec.ofNat 64 e, bits := n } })) := by
  have hkeys : (s.die d).tlb.keys.length < 8 * 2048 + 256 * 64 := by rwa [Tab.keys, List.length_map]
  have hfill : s.fillTlb d va = s.modDie d (fun x =>
      { x with tlb := x.tlb.put (tlbKey (bits va.toNat 56 0) n) { entry := BitVec.ofNat 64 e, bits := n } }) := by
    simp only [State.fillTlb, hpt, hmiss, hw, if_pos hkeys]
    rfl
  have hheld := tlbHit_of_find (s := s.fillTlb d va) (va := bits va.toNat 56 0) (walk_leaf hw)
    (by rw [hfill, State.die_modDie]; exact Tab.find_put_same _ _ _)
  show Host.Outcome.next ((s.fillTlb d va).reportWalk d va) = _
  rw [(walk_unneeded (.inr hheld)).2, hfill]

end

/-! ### Invalidation (R296) -/

section
variable {s : State} {who : Who} {d : Nat} {v : Word}

theorem tlbInvalidate_begins (hwho : whoIsThread who = false) (hmay : MayStore s who (dieReg d 0x18))
    (hidle : (s.die d).tlbInv = none) :
    SetsDie (.tlbInvalidate who d v) s d { s.die d with tlbInv := some v } := by
  refine setsDie_of_setDie (w := s.writeTlbinv who d v) hmay hwho rfl ?_
  simp only [State.writeTlbinv, hwho, hidle]
  rfl

theorem tlbInvalidate_queues {r : Word} (hwho : whoIsThread who = false) (hmay : MayStore s who (dieReg d 0x18))
    (hbusy : (s.die d).tlbInv = some r) :
    SetsDie (.tlbInvalidate who d v) s d { s.die d with tlbWait := (s.die d).tlbWait ++ [v] } := by
  refine setsDie_of_setDie (w := s.writeTlbinv who d v) hmay hwho rfl ?_
  exact (if_neg (by simp [hwho])).trans (if_pos (by simp [hbusy]))

theorem tlbInvalidateDone_idle (hidle : (s.die d).tlbInv = none) : exec (.tlbInvalidateDone d) s = .next s := by
  show execTlbInvalidateDone d s = _
  simp only [execTlbInvalidateDone, hidle]

theorem tlbInvalidateDone_waits (hinv : (s.die d).tlbInv = some v) (hout : s.translatedOut d = true) :
    exec (.tlbInvalidateDone d) s = .next s := by
  show execTlbInvalidateDone d s = _
  simp only [execTlbInvalidateDone, hinv, hout, if_true]

theorem translatedOut_of_request {r : Request} (hr : r ∈ s.reqs) (hd : dieOf (coreOf r.tid) = d)
    (hresp : r.resp = none) : s.translatedOut d = true := by
  have hany : s.reqs.any (fun r => dieOf (coreOf r.tid) = d && r.resp.isNone) = true :=
    List.any_eq_true.mpr ⟨r, hr, by simp [hd, hresp]⟩
  rw [State.translatedOut, hany, Bool.true_or, Bool.true_or]

theorem translatedOut_of_operation {o : RemoteOp} (ho : o ∈ s.fab.ops) (hd : dieOf o.core = d) (hspans : o.spans ≠ []) :
    s.translatedOut d = true := by
  have hany : s.fab.ops.any (fun o => dieOf o.core = d && !o.spans.isEmpty) = true :=
    List.any_eq_true.mpr ⟨o, ho, by simp [hd, hspans]⟩
  rw [State.translatedOut, hany, Bool.or_true, Bool.true_or]

/-- R296: an invalidation that names every entry drops every entry. -/
theorem tlbInvalidateDone_all (hinv : (s.die d).tlbInv = some v) (hr : s.reqs = []) (ho : s.fab.ops = [])
    (hg : s.trg.groups.cells = []) (hall : v.getLsbD 63 = true) :
    exec (.tlbInvalidateDone d) s = .next (s.setDie d { s.die d with
      tlbInv := (s.die d).tlbWait.head?, tlbWait := (s.die d).tlbWait.drop 1, tlb := {} }) := by
  have hout : s.translatedOut d = false := by rw [State.translatedOut, hr, ho, hg]; rfl
  have hnone : (s.die d).tlb.cells.filter (fun c => !invNames v c.2 c.1) = [] :=
    List.filter_eq_nil_iff.mpr fun c _ => by simp [invNames, hall]
  show execTlbInvalidateDone d s = _
  simp only [execTlbInvalidateDone, hinv, hout, Bool.false_eq_true, if_false, State.modDie, hnone]

end

/-! ### Fences (R301, R302, R345) -/

theorem fenceDie_unfenced {s : State} {d : Nat} (reason : Word) (h : (s.die d).fenced = false) :
    s.fenceDie d reason = (s.setDie d { s.die d with fenced := true, answered := false }).postEvent (some d) 0x0A
      (BitVec.ofNat 64 d) reason := by
  rw [State.fenceDie, h]
  rfl

theorem fenceDie_fenced {s : State} {d : Nat} (reason : Word) (h : (s.die d).fenced = true) : s.fenceDie d reason = s :=
  if_pos h

/-- R301: what a fence changes where no format window is: the die alone. -/
theorem fenceDie_die {s : State} {d : Nat} (reason : Word) (h : (s.die d).fenced = false) (hw : ∀ b, s.windowOf b = none) :
    (∀ k, k ≠ d → (s.fenceDie d reason).die k = s.die k) ∧
    (s.fenceDie d reason).die d = { s.die d with fenced := true, answered := false } := by
  have hwin : ∀ b, (s.setDie d { s.die d with fenced := true, answered := false }).windowOf b = none := by
    intro b
    rw [← hw b]
    unfold State.windowOf
    cases homeDie b with
    | none => rfl
    | some e =>
      dsimp only
      by_cases he : e = d
      · rw [he, State.die_setDie]; rfl
      · rw [State.die, State.setDie, Tab.get_put_other _ _ _ _ _ he]; rfl
  have hdies := dies_postEvent hwin (some d) 0x0A (BitVec.ofNat 64 d) reason
  rw [← fenceDie_unfenced reason h] at hdies
  exact ⟨fun k hk => (State.die_of_dies _ _ hdies k).trans (Tab.get_put_other _ _ _ _ _ hk),
    (State.die_of_dies _ _ hdies d).trans (State.die_setDie _ _ _)⟩

/-- R301: a fence leaves threads, cores and clusters alone. -/
theorem fenceDie_frame (s : State) (d : Nat) (reason : Word) :
    (s.fenceDie d reason).threads = s.threads ∧ (s.fenceDie d reason).cores = s.cores ∧
    (s.fenceDie d reason).clusters = s.clusters := by
  cases h : (s.die d).fenced with
  | true => rw [fenceDie_fenced reason h]; exact ⟨rfl, rfl, rfl⟩
  | false =>
    rw [fenceDie_unfenced reason h, State.postEvent_frame]
    exact ⟨rfl, rfl, rfl⟩

/-- R324: the clusters of a fenced die are of infinite pressure. -/
theorem infinite_of_fenced {s : State} {c : Nat} (h : (s.die (c / 8)).fenced = true) : s.infinite c = true := by
  rw [State.infinite, h, Bool.or_true]

/-- The event fences die `d`, and changes no thread, no core, no cluster and no other die. -/
def Fences (i : Instr) (s : State) (d : Nat) : Prop :=
  ∃ t, exec i s = .next t ∧ t.threads = s.threads ∧ t.cores = s.cores ∧ (∀ k, k ≠ d → t.die k = s.die k) ∧
    t.die d = { s.die d with fenced := true, answered := false } ∧ t.clusters = s.clusters ∧
    ∀ c, c / 8 = d → t.infinite c = true

theorem fences_of_fenceDie {i : Instr} {s : State} {d : Nat} (p : Package) (reason : Word)
    (h : (s.die d).fenced = false) (hw : ∀ b, s.windowOf b = none)
    (hx : exec i s = .next { s.fenceDie d reason with pkg := p }) : Fences i s d := by
  obtain ⟨hthreads, hcores, hclusters⟩ := fenceDie_frame s d reason
  obtain ⟨hother, hdie⟩ := fenceDie_die reason h hw
  exact ⟨_, hx, hthreads, hcores, hother, hdie, hclusters,
    fun c hc => infinite_of_fenced (by rw [hc]; exact congrArg Die.fenced hdie)⟩

theorem heartbeatTimeout_fences {s : State} {d : Nat} (h : (s.die d).fenced = false) (hw : ∀ b, s.windowOf b = none) :
    Fences (.heartbeatTimeout d) s d := fences_of_fenceDie (s.fenceDie d 1).pkg 1 h hw rfl

theorem dieFence_fences {s : State} {who : Who} {d : Nat} (hwho : whoIsThread who = false)
    (hmay : MayStore s who (dieReg d 0x08)) (h : (s.die d).fenced = false) (hw : ∀ b, s.windowOf b = none) :
    Fences (.dieFence who d) s d := by
  obtain ⟨p, hp⟩ := store_unthreaded { s := s.fenceDie d 0 } hmay hwho
  refine fences_of_fenceDie p 0 h hw ?_
  show Host.Outcome.next (s.store who (dieReg d 0x08) (if whoIsThread who then refuse51 s else { s := s.fenceDie d 0 })) = _
  rw [hwho, ← hp]
  rfl

/-! ### What a fenced die answers (R302, R345) -/

theorem threads_logViolation (s : State) (d addr : Nat) (rq : Rq) (key resp : Nat) (acc : Acc) :
    (s.logViolation d addr rq key resp acc).threads = s.threads := by
  unfold State.logViolation
  dsimp only
  split
  · rfl
  · rw [State.postEvent_frame]; rfl

theorem threads_logFenced (s : State) (d : Nat) (r : Request) : (s.logFenced d r).threads = s.threads := by
  unfold State.logFenced
  split
  · exact threads_logViolation _ _ _ _ _ _ _
  · rfl

/-- R103: the refusal of an access to memory is not logged. -/
theorem logFenced_mem {s : State} {d : Nat} {r : Request} {l : Leaf} (h : r.tgts = [.mem l]) : s.logFenced d r = s := by
  rw [State.logFenced, h, List.find?_singleton]
  split
  · next hf => split_ifs at hf; cases hf
  · rfl

/-- R302: a request to a die that is fenced has its answer. -/
theorem fenceResponse_answers {s : State} {d : Nat} {r : Request} {tgt : Target} (hf : (s.die d).fenced = true)
    (ha : (s.die d).answered = false) (hr : s.reqs = [r]) (hresp : r.resp = none) (ht : r.tgts = [tgt]) :
    ∃ t, exec (.fenceResponse d) s = .next t ∧ t.threads = s.threads ∧
      t.reqs = [{ r with resp := r.fenced d }] ∧ (t.die d).answered = true ∧
      ∀ l, tgt = .mem l → t.mem = s.mem ∧ t.die d = { s.die d with answered := true } := by
  have hguard : (!(s.die d).fenced || (s.die d).answered) = false := by rw [hf, ha]; rfl
  have hlog : s.reqs.foldl (fun s r => s.logFenced d r) s = s.logFenced d r := by rw [hr]; rfl
  have hreqs : s.reqs.map (fun r => if r.resp.isNone then { r with resp := r.fenced d } else r) =
      [{ r with resp := r.fenced d }] := by
    rw [hr, List.map_singleton, hresp]; rfl
  refine ⟨_, (if_neg (by rw [hguard]; exact Bool.false_ne_true)), ?_, hreqs, ?_, ?_⟩
  · rw [hlog]
    exact threads_logFenced s d r
  · rw [hlog]
    exact congrArg Die.answered (State.die_modDie (s.logFenced d r) d fun x => { x with answered := true })
  · rintro l rfl
    rw [hlog, logFenced_mem ht]
    exact ⟨rfl, State.die_modDie s d fun x => { x with answered := true }⟩

theorem fenceResponse_nothing {s : State} {d : Nat} (h : (s.die d).fenced = false ∨ (s.die d).answered = true) :
    exec (.fenceResponse d) s = .next s := by
  refine if_pos ?_
  rcases h with h | h <;> rw [h]
  · rfl
  · exact Bool.or_true _

/-- R301, R302: the answer to an access to memory, of the die or of another. -/
theorem fenced_mem {r : Request} {l : Leaf} (d : Nat) (ht : r.tgts = [.mem l]) :
    r.fenced d = if homeDie l.pa = some d then some (.err { code := 0x0D, eval := r.va }) else none := by
  have hva : r.va + BitVec.ofNat 64 (8 * 0) = r.va := BitVec.add_zero _
  rw [Request.fenced, ht]
  simp only [List.length_singleton, List.range_one, List.zip_cons_cons, List.zip_nil_left, List.find?_singleton,
    Target.onDie, decide_eq_true_eq]
  split_ifs
  · simp only [Option.map_some, hva]
  · rfl

/-- R302: the answer to an access to a scratchpad of the die. -/
theorem fenced_scratch {r : Request} {c o d : Nat} (ht : r.tgts = [.scratch c o]) (hd : dieOf c = d) :
    r.fenced d = some (.err { code := 0x09, eval := r.va }) := by
  have hva : r.va + BitVec.ofNat 64 (8 * 0) = r.va := BitVec.add_zero _
  rw [Request.fenced, ht]
  simp only [List.length_singleton, List.range_one, List.zip_cons_cons, List.zip_nil_left, List.find?_singleton,
    Target.onDie, hd, decide_true, if_true, Option.map_some, hva]

end Sys2Proof.Proofs
end

section
/-! Proofs, family 10 (die): isolation and spares, format windows, soft errors and links (R147, R169–R172, R260, R267,
R298–R300, R346, R347, R356). -/

namespace Sys2Proof.Proofs

open Sys2Proof Sys2Proof.Machine Sys2Proof.Claim

/-! ### Cores and threads behind an event (R371) -/

theorem core_postEvent (s : State) (d : Option Nat) (k : Nat) (a b : Word) (c : Nat) :
    (s.postEvent d k a b).core c = s.core c := by
  rw [State.postEvent_frame]
  rfl

theorem threads_postEvent (s : State) (d : Option Nat) (k : Nat) (a b : Word) :
    (s.postEvent d k a b).threads = s.threads := by
  rw [State.postEvent_frame]
  rfl

/-! ### Isolation and spares (R298–R300) -/

section
variable {s : State} {c : Nat}

theorem coreIsolate_nothing (h : (s.core c).iso = true ∨
    (s.core c).stopped = false ∧ (s.die (dieOf c)).spol.getLsbD 2 = false) : exec (.coreIsolate c) s = .next s := by
  refine if_pos ?_
  rcases h with h | ⟨hstop, hpol⟩
  · rw [h]; rfl
  · have hnot : s.isolates c = false := by simp only [State.isolates, hstop, hpol]; simp
    rw [hnot, Bool.not_false, Bool.or_true]

theorem coreIsolate_isolates (hiso : (s.core c).iso = false) (hstop : (s.core c).stopped = true)
    (hpol : (s.die (dieOf c)).spol.getLsbD 0 = true) :
    ∃ t, exec (.coreIsolate c) s = .next t ∧ t.core c = { s.core c with iso := true } ∧
      (∀ k, k ≠ c → t.core k = s.core k) ∧ t.threads = s.threads := by
  have hyes : s.isolates c = true := by simp only [State.isolates, hstop, hpol]; rfl
  exact ⟨_, if_neg (by rw [hiso, hyes]; decide), (core_postEvent _ _ _ _ _ c).trans (State.core_modCore s c _),
    fun k hk => (core_postEvent _ _ _ _ _ k).trans (State.core_modCore_other s c k _ hk), threads_postEvent _ _ _ _ _⟩

theorem spareSubstitute_nothing (h : (s.core c).iso = false ∨ (s.die (dieOf c)).spol.getLsbD 1 = false ∨
    (s.die (dieOf c)).spares = 0) : exec (.spareSubstitute c) s = .next s := by
  have hnot : s.substitutes c = false := by
    rcases h with h | h | h <;> simp only [State.substitutes, h] <;> simp
  exact if_pos (by rw [hnot]; rfl)

theorem parkedWith_noneParked (h : NoneParked s) (p : Nat → Wait → Bool) : s.parkedWith p = [] := by
  have hwaits (t : Nat) : (s.thread t).waits = none := h t
  simp only [State.parkedWith, hwaits, List.filter_false]
  rfl

theorem serveSenders_noneParked (h : NoneParked s) (core ch : Nat) : s.serveSenders core ch = s := by
  rw [State.serveSenders, parkedWith_noneParked h]
  rfl

/-- R298, R300: the spare of a free row takes the place of an isolated core, at reset, with nobody waiting to send to it. -/
theorem spareSubstitute_substitutes (hiso : (s.core c).iso = true) (hpol : (s.die (dieOf c)).spol.getLsbD 1 = true)
    (hspares : 0 < (s.die (dieOf c)).spares) (hrow : c % 256 / 8 ∉ (s.die (dieOf c)).spareUsed)
    (hfree : ∀ k < 4, (s.thread (tidOf c k)).life = .free) (hpark : NoneParked s) :
    ∃ t, exec (.spareSubstitute c) s = .next t ∧ t.core c = (s.core c).spare ∧ t.threads = s.threads ∧
      (t.die (dieOf c)).spares = (s.die (dieOf c)).spares - 1 ∧
      (t.die (dieOf c)).spareUsed = c % 256 / 8 :: (s.die (dieOf c)).spareUsed := by
  have hyes : s.substitutes c = true := by
    have hall : (List.range 4).all (fun k => (s.thread (tidOf c k)).life = .free) = true :=
      List.all_eq_true.mpr fun k hk => decide_eq_true (hfree k (List.mem_range.mp hk))
    simp [State.substitutes, hiso, hpol, hspares, rowOf, hrow, hall]
  let u := (s.modCore c Core.spare).modDie (dieOf c) (fun x =>
    { x with spares := x.spares - 1, spareUsed := rowOf c :: x.spareUsed })
  let v := u.postEvent (some (dieOf c)) 0x0E (BitVec.ofNat 64 c) 1
  have hv : v = u.withHome v := u.postEvent_frame _ _ _ _
  have hvpark : NoneParked v := fun k => by rw [hv]; exact hpark k
  have hserve : (List.range 8).foldl (fun s ch => s.serveSenders c ch) v = v :=
    foldl_of_fixed _ v _ fun ch _ => serveSenders_noneParked hvpark c ch
  have hdie : (v.die (dieOf c)).sansLines = (u.die (dieOf c)).sansLines := (linesAndRings_postEvent u _ _ _ _).1 _
  have hu : u.die (dieOf c) = { s.die (dieOf c) with
      spares := (s.die (dieOf c)).spares - 1, spareUsed := rowOf c :: (s.die (dieOf c)).spareUsed } :=
    State.die_modDie _ _ _
  refine ⟨v, (if_neg (by rw [hyes]; decide)).trans (congrArg _ hserve), ?_, ?_, ?_, ?_⟩
  · rw [hv]; exact State.core_modCore _ _ _
  · rw [hv]; rfl
  · exact (congrArg Die.spares hdie).trans (congrArg Die.spares hu)
  · exact (congrArg Die.spareUsed hdie).trans (congrArg Die.spareUsed hu)

end

/-! ### Format windows (R169, R172) -/

section
variable {s : State} {who : Who} {d i : Nat} {v : Word} {w : FormatWindow} (hi : i < 16)

theorem Die.window_eq (x : Die) : x.window i = x.fw[i] := dif_pos hi

theorem setWindow_eq (w : FormatWindow) :
    s.setWindow d i w = s.setDie d { s.die d with fw := (s.die d).fw.set i w } := by
  simp only [State.setWindow, State.modDie, dif_pos hi]

theorem enabled_en (v : Word) (w : FormatWindow) :
    ({ w with fwctl := (v ||| 1#64 <<< 63) &&& fwctlMask } : FormatWindow).en = true := by
  have hmask : fwctlMask.getLsbD 63 = true := by decide
  simp only [FormatWindow.en, BitVec.getLsbD_and, BitVec.getLsbD_or, hmask]
  simp

theorem disabled_en (v : Word) (w : FormatWindow) :
    ({ w with fwctl := (v &&& ~~~(1#64 <<< 63)) &&& fwctlMask } : FormatWindow).en = false := by
  simp only [FormatWindow.en, BitVec.getLsbD_and, BitVec.getLsbD_not]
  simp

/-- R172: with no container line held there is nothing to write back. -/
theorem flushWindow_empty (h : (s.die d).container.cells = []) : s.flushWindow d i = s := by
  simp only [State.flushWindow, Tab.keys, h]
  rfl

include hi
variable (hw : w = (s.die d).fw[i]) (hmay : MayStore s who (dieReg d (0x20000 + 0x20 * i)))
  (hwho : whoIsThread who = false)
include hw hmay hwho

theorem formatWindowEnable_enables (hoff : w.fwctl.getLsbD 63 = false)
    (hok : (s.die d).mayEnable d i { w with fwctl := (v ||| 1#64 <<< 63) &&& fwctlMask } = true) :
    SetsDie (.formatWindowEnable who d i v) s d
      { s.die d with fw := (s.die d).fw.set i { w with fwctl := (v ||| 1#64 <<< 63) &&& fwctlMask } } := by
  refine setsDie_of_setDie (w := s.writeFwctl who d i (v ||| 1#64 <<< 63)) hmay hwho rfl ?_
  have hen : w.en = false := hoff
  simp only [State.writeFwctl, Die.window_eq hi, ← hw, hwho, hen, enabled_en, hok, setWindow_eq hi]
  rfl

theorem formatWindowEnable_refused (hoff : w.fwctl.getLsbD 63 = false)
    (hbad : (s.die d).mayEnable d i { w with fwctl := (v ||| 1#64 <<< 63) &&& fwctlMask } = false) :
    SetsDie (.formatWindowEnable who d i v) s d { s.die d with fw := (s.die d).fw.set i w } := by
  have hsame : { s.die d with fw := (s.die d).fw.set i w } = s.die d := by rw [hw, Vector.set_getElem_self]
  rw [hsame]
  refine setsDie_of_refused (w := s.writeFwctl who d i (v ||| 1#64 <<< 63)) d hmay hwho rfl ?_
  have hen : w.en = false := hoff
  simp only [State.writeFwctl, Die.window_eq hi, ← hw, hwho, hen, enabled_en, hbad]
  rfl

theorem formatWindowDisable_disables (hon : w.fwctl.getLsbD 63 = true) (hempty : (s.die d).container.cells = []) :
    SetsDie (.formatWindowDisable who d i v) s d
      { s.die d with fw := (s.die d).fw.set i { w with fwctl := (v &&& ~~~(1#64 <<< 63)) &&& fwctlMask } } := by
  refine setsDie_of_setDie (w := s.writeFwctl who d i (v &&& ~~~(1#64 <<< 63))) hmay hwho rfl ?_
  have hen : w.en = true := hon
  simp only [State.writeFwctl, Die.window_eq hi, ← hw, hwho, hen, disabled_en, flushWindow_empty hempty, setWindow_eq hi]
  rfl

end

/-! ### Soft errors (R147, R260, R267) -/

theorem mark_new {l : List Nat} {x : Nat} (h : x ∉ l) : mark l x = x :: l := if_neg (by simpa using h)

theorem softError_register {s : State} {core slot p : Nat} (hp : p < 108) (h96 : p ≠ 96)
    (hnew : p ∉ (s.thread (tidOf core slot)).badRegs) :
    ∃ t, exec (.softError (.register core slot p) true) s = .next t ∧
      (∀ k, k ≠ tidOf core slot → t.thread k = s.thread k) ∧
      t.thread (tidOf core slot) = { s.thread (tidOf core slot) with
        badRegs := p :: (s.thread (tidOf core slot)).badRegs } := by
  have hreal : ¬ (decide (p = 96) || decide (p ≥ 108)) = true := by simpa using And.intro h96 hp
  have hthreads := State.thread_of_threads _ _ (threads_postEvent
    (s.modThread (tidOf core slot) (fun t => { t with badRegs := mark t.badRegs p })) (some (dieOf core)) 0x02
    (BitVec.ofNat 64 core) (BitVec.ofNat 64 (1 * 2 ^ 32 + (slot * 256 + p))))
  refine ⟨_, congrArg Host.Outcome.next (if_neg hreal), fun k hk => ?_, ?_⟩
  · exact (hthreads k).trans (State.thread_modThread_other _ _ _ _ hk)
  · rw [← mark_new hnew]
    exact (hthreads _).trans (State.thread_modThread _ _ _)

theorem softError_coreControl (s : State) (core : Nat) :
    ∃ t, exec (.softError (.coreControl core) true) s = .next t ∧ t.core core = { s.core core with stopped := true } ∧
      t.threads = s.threads := by
  exact ⟨(s.modCore core fun x => { x with stopped := true }).coreError core 3 0, rfl,
    (core_postEvent _ _ _ _ _ core).trans (State.core_modCore s core _), threads_postEvent _ _ _ _ _⟩

theorem softError_scratchCorrected (s : State) (core off : Nat) :
    ∃ t, exec (.softError (.scratch core off) false) s = .next t ∧ t = { s with cores := t.cores } ∧
      t.core core = { s.core core with cerr := min ((s.core core).cerr + 1) 0xFFFFFFFF } :=
  ⟨s.modCore core fun x => { x with cerr := sat32 (x.cerr + 1) }, rfl, rfl, State.core_modCore s core _⟩

/-! ### Links (R301, R346, R347, R355, R356) -/

theorem isDieLink_iff (l : Nat) : isDieLink l = true ↔ l < 6 ∨ 8 ≤ l ∧ l < 12 := by
  simp only [isDieLink, Bool.or_eq_true, Bool.and_eq_true, decide_eq_true_eq]

theorem dieLink_lt {l : Nat} (h : isDieLink l = true) : l < 16 := by
  have := (isDieLink_iff l).mp h
  omega

/-- Bit `l` set, or cleared, in a word of flags, and no other bit. -/
theorem getLsbD_setFlag {n l : Nat} (hl : l < n) (x : BitVec n) (k : Nat) :
    (x ||| 1#n <<< l).getLsbD k = (decide (k = l) || x.getLsbD k) := by
  by_cases hk : k = l
  · simp [hk, hl]
  · have hother : (1#n <<< l).getLsbD k = false := by simp; omega
    rw [BitVec.getLsbD_or, hother, decide_eq_false hk, Bool.or_comm]

theorem getLsbD_clearFlag {n : Nat} (l : Nat) (x : BitVec n) (k : Nat) :
    (x &&& ~~~(1#n <<< l)).getLsbD k = (decide (k ≠ l) && x.getLsbD k) := by
  by_cases hx : x.getLsbD k = true
  · have hkn : k < n := BitVec.lt_of_getLsbD hx
    by_cases hk : k = l
    · simp [hk, hk ▸ hkn]
    · simp [hk, hx, hkn]
      omega
  · simp [hx]

/-- R371, R372: an event of a link changes nothing of Selvedge but the event rings, and no thread. -/
theorem linkEvent_frame (s : State) (l : Nat) (what : Word) :
    (s.linkEvent l what).threads = s.threads ∧
    (s.linkEvent l what).pkg = { s.pkg with rings := (s.linkEvent l what).pkg.rings } ∧
    ∀ d, ((s.linkEvent l what).die d).sansLines = (s.die d).sansLines := by
  obtain ⟨hdie, hpkg⟩ := linesAndRings_postEvent s none 0x0C (BitVec.ofNat 64 l) what
  exact ⟨by rw [State.linkEvent, State.postEvent_frame]; rfl, hpkg, hdie⟩

theorem fenceDie_linksUp (s : State) (d : Nat) (reason : Word) : (s.fenceDie d reason).pkg.linksUp = s.pkg.linksUp := by
  cases h : (s.die d).fenced with
  | true => rw [fenceDie_fenced reason h]
  | false =>
    rw [fenceDie_unfenced reason h]
    obtain ⟨_, hpkg⟩ := linesAndRings_postEvent (s.setDie d { s.die d with fenced := true, answered := false }) (some d)
      0x0A (BitVec.ofNat 64 d) reason
    rw [hpkg]
    rfl

theorem fenceDie_fencedDies (s : State) (d : Nat) (reason : Word) (k : Nat) :
    ((s.fenceDie d reason).die k).fenced = ((s.die k).fenced || decide (k = d)) := by
  cases h : (s.die d).fenced with
  | true =>
    rw [fenceDie_fenced reason h]
    by_cases hk : k = d <;> simp [hk, h]
  | false =>
    rw [fenceDie_unfenced reason h]
    refine (congrArg Die.fenced ((linesAndRings_postEvent _ (some d) 0x0A (BitVec.ofNat 64 d) reason).1 k)).trans ?_
    by_cases hk : k = d
    · rw [hk, State.die_setDie]; simp [Die.sansLines]
    · rw [State.die, State.setDie, Tab.get_put_other _ _ _ _ _ hk]
      simp [hk, Die.sansLines, State.die]

/-- No link of the die is up. -/
def linkless (s : State) (d : Nat) : Bool := (dieLinks d).all (fun l => !s.pkg.linksUp.getLsbD l)

theorem linkless_of_linksUp {s t : State} (h : t.pkg.linksUp = s.pkg.linksUp) (d : Nat) : linkless t d = linkless s d := by
  simp only [linkless, h]

/-- R301: a die without a link is fenced. -/
def fenceLinkless (s : State) (d : Nat) : State := if linkless s d then s.fenceDie d 2 else s

theorem fenceLinkless_effect (s : State) (d : Nat) :
    (fenceLinkless s d).threads = s.threads ∧ (fenceLinkless s d).pkg.linksUp = s.pkg.linksUp ∧
    ∀ k, ((fenceLinkless s d).die k).fenced = ((s.die k).fenced || (decide (k = d) && linkless s k)) := by
  by_cases h : linkless s d = true
  · rw [fenceLinkless, if_pos h]
    refine ⟨?_, fenceDie_linksUp s d 2, fun k => ?_⟩
    · obtain ⟨hthreads, _⟩ := fenceDie_frame s d 2
      exact hthreads
    · rw [fenceDie_fencedDies]
      by_cases hk : k = d <;> simp [hk, h]
  · rw [fenceLinkless, if_neg h]
    refine ⟨rfl, rfl, fun k => ?_⟩
    by_cases hk : k = d <;> simp [hk, h]

/-- R301: of the listed dies, those that have no link left are fenced, and no other die is. -/
theorem foldl_fenceLinkless (l : List Nat) : ∀ s : State,
    (l.foldl fenceLinkless s).threads = s.threads ∧ (l.foldl fenceLinkless s).pkg.linksUp = s.pkg.linksUp ∧
    ∀ k, ((l.foldl fenceLinkless s).die k).fenced = ((s.die k).fenced || (decide (k ∈ l) && linkless s k)) := by
  induction l with
  | nil => exact fun s => ⟨rfl, rfl, fun k => by simp⟩
  | cons d l ih =>
    intro s
    obtain ⟨hthreads, hlinks, hfenced⟩ := fenceLinkless_effect s d
    obtain ⟨ithreads, ilinks, ifenced⟩ := ih (fenceLinkless s d)
    refine ⟨ithreads.trans hthreads, ilinks.trans hlinks, fun k => ?_⟩
    rw [List.foldl_cons, ifenced, hfenced, linkless_of_linksUp hlinks]
    by_cases hk : k = d <;> cases linkless s k <;> simp [hk]

section
variable {s : State} {l : Nat}

theorem laneRepair_counts (hl : isDieLink l = true) :
    ∃ t, exec (.laneRepair l) s = .next t ∧ t.pkg.spareLanes.get 0 l = s.pkg.spareLanes.get 0 l + 1 ∧
      t.threads = s.threads := by
  obtain ⟨hthreads, hpkg, _⟩ := linkEvent_frame
    (s.modPkg fun p => { p with spareLanes := p.spareLanes.put l (p.spareLanes.get 0 l + 1) }) l 0
  exact ⟨_, if_pos hl, by rw [hpkg]; exact Tab.get_put_same _ _ _ _, hthreads⟩

theorem linkUp_dieLink (hl : isDieLink l = true) :
    ∃ t, exec (.linkUp l) s = .next t ∧ t.pkg.linksUp.getLsbD l = true ∧ t.threads = s.threads ∧
      ∀ k, k ≠ l → t.pkg.linksUp.getLsbD k = s.pkg.linksUp.getLsbD k := by
  obtain ⟨hthreads, hpkg, _⟩ := linkEvent_frame (s.modPkg fun p => { p with linksUp := p.linksUp ||| (1#16 <<< l) }) l 2
  have hflag := getLsbD_setFlag (dieLink_lt hl) s.pkg.linksUp
  refine ⟨_, if_pos hl, ?_, hthreads, fun k hk => ?_⟩
  · rw [hpkg]
    exact (hflag l).trans (by simp)
  · rw [hpkg]
    exact (hflag k).trans (by simp [hk])

theorem linkUp_cxl (hlo : 16 ≤ l) (hhi : l < 24) :
    ∃ t, exec (.linkUp l) s = .next t ∧ t.pkg.cxlUp.getLsbD (l - 16) = true ∧ t.threads = s.threads := by
  have hdie : ¬ isDieLink l = true := fun h => absurd (dieLink_lt h) (by omega)
  have hcxl : isCxlLink l = true := by simp [isCxlLink, hlo, hhi]
  obtain ⟨hthreads, hpkg, _⟩ :=
    linkEvent_frame (s.modPkg fun p => { p with cxlUp := p.cxlUp ||| (1#8 <<< (l - 16)) }) l 2
  refine ⟨_, (if_neg hdie).trans (if_pos hcxl), ?_, hthreads⟩
  rw [hpkg]
  exact (getLsbD_setFlag (by omega) s.pkg.cxlUp (l - 16)).trans (by simp)

theorem dieLinkDown_nothing (h : isDieLink l = false ∨ s.pkg.linksUp.getLsbD l = false) :
    exec (.dieLinkDown l) s = .next s := by
  refine if_pos ?_
  rcases h with h | h <;> simp [h]

/-- R301, R347: the link is recorded as down, and a die that has no other is fenced. -/
theorem dieLinkDown_fences (hl : isDieLink l = true) (hup : s.pkg.linksUp.getLsbD l = true) :
    ∃ t, exec (.dieLinkDown l) s = .next t ∧ t.threads = s.threads ∧
      (∀ k, t.pkg.linksUp.getLsbD k = (decide (k ≠ l) && s.pkg.linksUp.getLsbD k)) ∧
      ∀ d < 4, (t.die d).fenced = ((s.die d).fenced ||
        (dieLinks d).all (fun k => decide (k = l) || !s.pkg.linksUp.getLsbD k)) := by
  obtain ⟨hthreads, hpkg, hdies⟩ :=
    linkEvent_frame (s.modPkg fun p => { p with linksUp := p.linksUp &&& ~~~(1#16 <<< l) }) l 1
  generalize hu : (s.modPkg fun p => { p with linksUp := p.linksUp &&& ~~~(1#16 <<< l) }).linkEvent l 1 = u at *
  obtain ⟨fthreads, flinks, ffenced⟩ := foldl_fenceLinkless (List.range 4) u
  have hdown (k : Nat) : u.pkg.linksUp.getLsbD k = (decide (k ≠ l) && s.pkg.linksUp.getLsbD k) := by
    rw [hpkg]
    exact getLsbD_clearFlag l s.pkg.linksUp k
  refine ⟨(List.range 4).foldl fenceLinkless u, ?_, fthreads.trans hthreads, fun k => by rw [flinks, hdown], fun d hd => ?_⟩
  · rw [← hu]
    exact if_neg (by simp [hl, hup])
  · have hsame : (u.die d).fenced = (s.die d).fenced := by
      have h := congrArg Die.fenced (hdies d)
      exact h
    rw [ffenced, hsame, linkless, decide_eq_true (List.mem_range.mpr hd), Bool.true_and]
    simp only [hdown, Bool.not_and, ne_eq, decide_not, Bool.not_not]

theorem cxlPortDown_nothing (h : s.pkg.cxlUp.getLsbD l = false) : exec (.cxlPortDown l) s = .next s :=
  if_neg (by simp [h])

theorem cxlPortDown_recorded (hl : l < 8) (hup : s.pkg.cxlUp.getLsbD l = true) :
    ∃ t, exec (.cxlPortDown l) s = .next t ∧ t.threads = s.threads ∧
      ∀ k, t.pkg.cxlUp.getLsbD k = (decide (k ≠ l) && s.pkg.cxlUp.getLsbD k) := by
  obtain ⟨hthreads, hpkg, _⟩ :=
    linkEvent_frame (s.modPkg fun p => { p with cxlUp := p.cxlUp &&& ~~~(1#8 <<< l) }) (16 + l) 1
  refine ⟨_, if_pos (by simp [hl, hup]), hthreads, fun k => ?_⟩
  rw [hpkg]
  exact getLsbD_clearFlag l s.pkg.cxlUp k

end

/-! ### The statement of the family -/

/-- Settles O57: each clause is the lemma of its event above. -/
theorem diesTranslateFenceAndRepair : Obligations.DiesTranslateFenceAndRepair := by
  unfold Obligations.DiesTranslateFenceAndRepair
  refine ⟨?translation, ?fences, ?spares, ?windows, ?errors, ?links⟩
  case translation =>
    rintro s d a va x rfl ha hroom
    obtain rfl : a = bits va.toNat 56 0 := ha.trans (bits_low _ 56).symm
    exact ⟨pageWalk_unneeded, fun e n hpt hmiss hw => ⟨_, pageWalk_fills hpt hmiss hroom hw, rfl,
      fun k hk => State.die_modDie_other _ _ _ _ hk, State.die_modDie _ _ _⟩, fun hpt hmiss => pageWalk_faults hpt hmiss⟩
  case fences =>
    rintro s who d v x rfl hwho
    refine ⟨fun hmay hidle => ?_, fun r hmay hbusy => ?_, tlbInvalidateDone_idle, fun r hinv hr hd hresp => ?_,
      fun o hinv ho hd hspans => ?_, fun hinv hr ho hg hall => ?_, ?_, fun h => congrArg _ (fenceDie_fenced 1 h),
      fenceResponse_nothing, fun r tgt hf ha hr hresp ht => ?_⟩
    · obtain ⟨t, ht, hthreads, _, hrest⟩ := tlbInvalidate_begins (v := v) hwho hmay hidle
      exact ⟨t, ht, hthreads, hrest⟩
    · obtain ⟨t, ht, hthreads, _, hrest⟩ := tlbInvalidate_queues (v := v) hwho hmay hbusy
      exact ⟨t, ht, hthreads, hrest⟩
    · exact tlbInvalidateDone_waits hinv (translatedOut_of_request hr hd hresp)
    · exact tlbInvalidateDone_waits hinv (translatedOut_of_operation ho hd hspans)
    · exact ⟨_, tlbInvalidateDone_all hinv hr ho hg hall, rfl, State.die_setDie _ _ _⟩
    · rintro i (rfl | ⟨rfl, hmay⟩) _ hf hw
      · exact heartbeatTimeout_fences hf hw
      · exact dieFence_fences hwho hmay hf hw
    · obtain ⟨t, hx, hthreads, hreqs, hanswered, hmem⟩ := fenceResponse_answers hf ha hr hresp ht
      refine ⟨t, hx, hthreads, hanswered, hmem, ?_, ?_, ?_⟩
      · rintro l rfl hhome
        rw [hreqs, fenced_mem d ht, if_pos hhome]
      · rintro c o rfl hd
        rw [hreqs, fenced_scratch ht hd]
      · rintro l rfl hhome
        rw [hreqs, fenced_mem d ht, if_neg hhome, hr, ← hresp]
  case spares =>
    rintro s c d x y rfl rfl rfl
    refine ⟨coreIsolate_nothing, coreIsolate_isolates, spareSubstitute_nothing,
      fun hiso hpol hspares hrow hfree hpark => ?_⟩
    obtain ⟨t, ht, hcore, hthreads, hleft, hused⟩ :=
      spareSubstitute_substitutes hiso hpol hspares hrow hfree hpark
    exact ⟨t, t.core c, ht, rfl, by rw [hcore]; rfl, by rw [hcore]; rfl, by rw [hcore]; rfl, by rw [hcore]; rfl,
      by rw [hcore]; rfl, by rw [hcore]; rfl, by rw [hcore]; rfl, hthreads, hleft, hused⟩
  case windows =>
    intro s who d i v hi w hw hmay hwho enabled disabled sets
    have hsets {j : Instr} {y : FormatWindow} (h : SetsDie j s d { s.die d with fw := (s.die d).fw.set i y }) : sets j y := by
      obtain ⟨t, hx, hthreads, hmem, _, hdie⟩ := h
      exact ⟨t, hx, hthreads, hmem, hdie⟩
    exact ⟨fun hoff hok => hsets (formatWindowEnable_enables hi hw hmay hwho hoff hok),
      fun hoff hbad => hsets (formatWindowEnable_refused hi hw hmay hwho hoff hbad),
      fun hon hempty => hsets (formatWindowDisable_disables hi hw hmay hwho hon hempty)⟩
  case errors =>
    intro s core slot p pa
    refine ⟨fun hnew => ?_, softError_register, softError_coreControl s core, softError_scratchCorrected s core pa⟩
    rw [← mark_new hnew]
    rfl
  case links =>
    intro s l dieLink
    refine ⟨fun hl => ?_, fun hl => ?_, linkUp_cxl, cxlPortDown_nothing, cxlPortDown_recorded⟩
    · have hl' : isDieLink l = false := Bool.eq_false_iff.mpr (mt (isDieLink_iff l).mp hl)
      exact ⟨if_neg (by simp [hl']), dieLinkDown_nothing (.inl hl')⟩
    · have hl' : isDieLink l = true := (isDieLink_iff l).mpr hl
      exact ⟨laneRepair_counts hl', linkUp_dieLink hl', fun h => dieLinkDown_nothing (.inr h), dieLinkDown_fences hl'⟩

end Sys2Proof.Proofs
end

section
/-! Proofs, family 10 (die): a scratchpad and a run of bytes as an engine of its own core reaches them (R97, R127, R128,
R276, R278). -/

namespace Sys2Proof.Proofs

open Sys2Proof Sys2Proof.Machine Sys2Proof.Claim

/-! ### A clear scratchpad -/

theorem Memory.read_writeBytes (m : Memory) (a : Nat) (bs : List Byte) (x : Nat) :
    (m.writeBytes a bs).read x = if h : a ≤ x ∧ x < a + bs.length then bs[x - a] else m.read x := by
  split_ifs with h
  · obtain ⟨hlo, hhi⟩ := h
    have hin := m.read_writeBytes_inside a (x - a) bs (by omega)
    rwa [Nat.add_sub_cancel' hlo] at hin
  · exact m.read_writeBytes_outside a x bs (by omega)

theorem putsCore_of_putsBytes {s t : State} {c off : Nat} {bs : List Byte} (h : PutsBytes s t c off bs) :
    PutsCore s t c off bs := by
  obtain ⟨ht, -, hcore, -⟩ := h
  exact ⟨fun x => by rw [hcore]; exact Memory.read_writeBytes _ off bs x, by rw [ht]⟩

section
variable {s : State} {c : Nat} (h : ScratchClear s c)
include h

theorem scratchClear_congr {t : State} (hdies : t.dies = s.dies) (howner : SameOwners (s.core c).frames (t.core c).frames)
    (hctx : (t.core c).sctx = (s.core c).sctx) (hbads : (t.core c).scratchBad = (s.core c).scratchBad) :
    ScratchClear t c := by
  obtain ⟨hfence, hpin, hbad⟩ := h
  exact ⟨by rw [State.die_of_dies s t hdies]; exact hfence, fun f => (pinned_congr howner hctx f).trans (hpin f),
    hbads.trans hbad⟩

theorem scratchClear_of_putsBytes {t : State} {off : Nat} {bs : List Byte} (k : PutsBytes s t c off bs) :
    ScratchClear t c := by
  obtain ⟨ht, -, hcore, howner⟩ := k
  exact scratchClear_congr h (by rw [ht]) howner (by rw [hcore]) (by rw [hcore])

/-- R128: marked frames leave a scratchpad clear. -/
theorem scratchClear_of_marks {t : State} (k : Marks s t c) : ScratchClear t c := by
  obtain ⟨ht, -, hcore, howner⟩ := k
  exact scratchClear_congr h (by rw [ht]) howner (by rw [hcore]) (by rw [hcore])

theorem scratchCheck_clear (rq : Rq) (acc : Acc) (off n : Nat) (eva : Word) :
    s.scratchCheck rq true acc c off n eva = .ok s () := by
  obtain ⟨hfence, -, -⟩ := h
  simp [State.scratchCheck, hfence]

/-- R128: the frames of a clear scratchpad are the current context's. -/
theorem pinRange_clear (off n : Nat) : s.pinRange c off n false = s := by
  obtain ⟨-, hpin, -⟩ := h
  exact s.pinRange_read c off n fun f _ _ => hpin f

theorem scratchLoad_clear (rq : Rq) (off n : Nat) (eva : Word) :
    s.scratchLoad rq true c off n eva = .ok s ((s.core c).scratch.readBytes off n) := by
  have hgood : firstBad (s.core c).scratchBad off n = none := by
    obtain ⟨-, -, hbad⟩ := h
    rw [hbad]
    exact firstBad_none [] off n fun w hw => absurd hw List.not_mem_nil
  simp only [State.scratchLoad, scratchCheck_clear h, Did.bind, pinRange_clear h, hgood]

theorem scratchPut_clear (off : Nat) (bs : List Byte) : PutsBytes s (s.scratchPut c off bs) c off bs := by
  obtain ⟨-, hpin, hbad⟩ := h
  exact scratchPut_pinned s c off bs (fun f _ _ => hpin f) fun w hw => absurd (hbad ▸ hw) List.not_mem_nil

theorem marks_pinRange (off n : Nat) (w : Bool) : Marks s (s.pinRange c off n w) c := by
  obtain ⟨-, hpin, -⟩ := h
  exact s.pinRange_marks c off n w fun f _ _ => hpin f

theorem scratchStore_clear (rq : Rq) (acc : Acc) (off : Nat) (bs : List Byte) (eva : Word) :
    ∃ t, s.scratchStore rq true acc c off bs eva = .ok t () ∧ PutsBytes s t c off bs := by
  have hmarks := marks_pinRange h off bs.length true
  have hclear := scratchClear_of_marks h hmarks
  refine ⟨(s.pinRange c off bs.length true).scratchPut c off bs, ?_,
    putsBytes_of_marks hmarks (scratchPut_clear hclear off bs)⟩
  obtain ⟨-, -, hbad⟩ := hclear
  simp only [State.scratchStore, scratchCheck_clear h, Did.bind, hbad, List.filter_nil]

end

/-! ### A run of bytes of the own scratchpad -/

section
variable {s : State} {tid off n : Nat} {va : Word} {acc : Acc}

theorem scratch_address {off : Nat} (h : off < 0x60000) :
    (BitVec.ofNat 64 (0xF0 * 2 ^ 56 + off)).toNat = 0xF0 * 2 ^ 56 + off := by
  rw [BitVec.toNat_ofNat]
  omega

variable (hva : va.toNat = 0xF0 * 2 ^ 56 + off) (hacc : acc = .load ∨ acc = .store)
include hva hacc

theorem resolve_run (hoff : off < 0x60000) : s.resolve tid acc va 64 false = .ok (.scratch (coreOf tid) off) :=
  resolve_own s tid acc va 64 off false hva hoff (by rcases hacc with rfl | rfl <;> rfl) (by omega)

theorem runPieces_own (hn : 0 < n) (hfits : off + n ≤ 0x60000) :
    s.runPieces tid acc va n = .ok [.here { start := 0, len := n, core := some (coreOf tid), addr := off }] := by
  have hspace : ¬ space va ≤ 1 := by rw [space, hva]; omega
  have hin : ¬ off + n > scratchSize := not_lt.mpr hfits
  have hzero : ¬ n ≤ 0 := not_le.mpr hn
  simp only [State.runPieces, State.runPiecesFrom, hzero, if_false, BitVec.ofNat_eq_ofNat, BitVec.add_zero, Nat.sub_zero,
    hspace, Nat.min_self, resolve_run hva hacc (s := s) (tid := tid) (by omega : off < 0x60000), hin, Nat.zero_add,
    le_refl, if_true]

theorem runPieces_past_own (hoff : off < 0x60000) (hpast : 0x60000 < off + n) :
    s.runPieces tid acc va n = .error { code := 0x04, sub := 1, eval := va + BitVec.ofNat 64 (0x60000 - off) } := by
  have hspace : ¬ space va ≤ 1 := by rw [space, hva]; omega
  have hout : off + n > scratchSize := hpast
  have hzero : ¬ n ≤ 0 := by omega
  simp only [State.runPieces, State.runPiecesFrom, hzero, if_false, BitVec.ofNat_eq_ofNat, BitVec.add_zero, Nat.sub_zero,
    hspace, Nat.min_self, resolve_run hva hacc (s := s) (tid := tid) hoff, hout, if_true]
  rfl

end

/-! ### Runs of one piece in this package -/

section
variable {s : State} {tid core : Nat} {va eva pc : Word} {order : Nat} {p : Span}

/-- R101: a span of a scratchpad is read there. -/
theorem readSpans_scratch {c : Nat} (hfar : p.far = none) (hcore : p.core = some c) (ids : List Nat) :
    s.readSpans core eva ids [p] =
      s.scratchLoad (.engine core) (c = core) c p.addr p.len (eva + BitVec.ofNat 64 p.start) := by
  obtain ⟨start, len, place, addr, key, far⟩ := p
  obtain rfl : far = none := hfar
  obtain rfl : place = some c := hcore
  simp only [State.readSpans]
  cases s.scratchLoad _ _ _ _ _ _ <;> simp [Did.bind]

/-- R101: a span of memory is read at its home. -/
theorem readSpans_home (hfar : p.far = none) (hcore : p.core = none) (ids : List Nat) :
    s.readSpans core eva ids [p] = s.homeLoad (.engine core) .load p.addr p.len p.key (eva + BitVec.ofNat 64 p.start) := by
  obtain ⟨start, len, place, addr, key, far⟩ := p
  obtain rfl : far = none := hfar
  obtain rfl : place = none := hcore
  simp only [State.readSpans]
  cases s.homeLoad _ _ _ _ _ _ <;> simp [Did.bind]

section
variable (hstart : p.start = 0) (bs : List Byte) (hlen : p.len = bs.length)
include hstart hlen

/-- R268: a span of a scratchpad is written there. -/
theorem writeSpans_scratch {c : Nat} (hfar : p.far = none) (hcore : p.core = some c) : s.writeSpans core eva 0 bs [p] =
    s.scratchStore (.engine core) (c = core) .store c p.addr bs (eva + BitVec.ofNat 64 0) := by
  obtain ⟨start, len, place, addr, key, far⟩ := p
  obtain rfl : far = none := hfar
  obtain rfl : place = some c := hcore
  obtain rfl : start = 0 := hstart
  obtain rfl : len = bs.length := hlen
  simp only [State.writeSpans, Nat.sub_self, List.drop_zero, List.take_length]
  cases s.scratchStore _ _ _ _ _ _ _ <;> rfl

/-- R268: a span of memory is written at its home. -/
theorem writeSpans_home (hfar : p.far = none) (hcore : p.core = none) : s.writeSpans core eva 0 bs [p] =
    s.homeStore (.engine core) .store p.addr p.key bs (eva + BitVec.ofNat 64 0) := by
  obtain ⟨start, len, place, addr, key, far⟩ := p
  obtain rfl : far = none := hfar
  obtain rfl : place = none := hcore
  obtain rfl : start = 0 := hstart
  obtain rfl : len = bs.length := hlen
  simp only [State.writeSpans, Nat.sub_self, List.drop_zero, List.take_length]
  cases s.homeStore _ _ _ _ _ _ <;> rfl

end

theorem gather_here (ids : List Nat) : s.gather tid eva [.here p] ids = s.readSpans (coreOf tid) eva [] [p] := by
  simp only [State.gather]
  cases s.readSpans (coreOf tid) eva [] [p] <;> simp [Did.bind]

theorem spread_here (bs : List Byte) (ids : List Nat) :
    s.spread tid eva bs [.here p] ids = s.writeSpans (coreOf tid) eva 0 bs [p] := by
  simp only [State.spread]
  cases s.writeSpans (coreOf tid) eva 0 bs [p] <;> rfl

theorem unasked_here (ids : List Nat) : s.unasked ids [.here p] = [] := rfl

theorem answered_nil : s.answered [] = true := rfl

theorem dropReqs_nil : s.dropReqs [] = s := rfl

/-- R276: a run that lies in this package is read at once. -/
theorem engineLoad_here {n : Nat} {t : State} {bs : List Byte} (hp : s.runPieces tid .load va n = .ok [.here p])
    (hread : s.readSpans (coreOf tid) va [] [p] = .ok t bs) : s.engineLoad tid va n [] pc order = .done t bs := by
  simp only [State.engineLoad, hp, unasked_here, answered_nil, gather_here, hread, dropReqs_nil]
  rfl

theorem engineLoad_error {n : Nat} {e : Trap} (hp : s.runPieces tid .load va n = .error e) :
    s.engineLoad tid va n [] pc order = .failed s e := by
  simp only [State.engineLoad, hp]

/-- R276: a run that lies in this package is written at once. -/
theorem engineStore_here {t : State} {bs : List Byte} (hp : s.runPieces tid .store va bs.length = .ok [.here p])
    (hwrite : s.writeSpans (coreOf tid) va 0 bs [p] = .ok t ()) : s.engineStore tid va bs [] pc order = .done t () := by
  simp only [State.engineStore, hp, unasked_here, answered_nil, spread_here, hwrite, dropReqs_nil]
  rfl

theorem engineStore_error {bs : List Byte} {e : Trap} (hp : s.runPieces tid .store va bs.length = .error e) :
    s.engineStore tid va bs [] pc order = .failed s e := by
  simp only [State.engineStore, hp]

end

/-! ### An engine at its core's own scratchpad -/

section
variable {s : State} {tid off : Nat} {va pc : Word} {order : Nat} (hclear : ScratchClear s (coreOf tid))
  (hva : va.toNat = 0xF0 * 2 ^ 56 + off)
include hclear hva

theorem engineLoad_own {n : Nat} (hn : 0 < n) (hfits : off + n ≤ 0x60000) :
    s.engineLoad tid va n [] pc order = .done s ((s.core (coreOf tid)).scratch.readBytes off n) := by
  refine engineLoad_here (runPieces_own hva (.inl rfl) hn hfits) ((readSpans_scratch rfl rfl []).trans ?_)
  simp only [decide_true]
  exact scratchLoad_clear hclear _ _ _ _

theorem engineStore_own {bs : List Byte} (hn : 0 < bs.length) (hfits : off + bs.length ≤ 0x60000) :
    ∃ t, s.engineStore tid va bs [] pc order = .done t () ∧ PutsBytes s t (coreOf tid) off bs := by
  obtain ⟨t, ht, hput⟩ := scratchStore_clear hclear (.engine (coreOf tid)) .store off bs (va + BitVec.ofNat 64 0)
  refine ⟨t, engineStore_here (runPieces_own hva (.inr rfl) hn hfits)
    ((writeSpans_scratch rfl bs rfl rfl rfl).trans ?_), hput⟩
  simp only [decide_true]
  exact ht

end

/-! ### Watermarks of a die's one channel (R278) -/

/-- The package has one die, and the die one channel. -/
def OneChannel (s : State) (die ch : Nat) (x : Channel) : Prop :=
  ∃ D : Die, s.dies.cells = [(die, D)] ∧ D.channels.cells = [(ch, x)]

section
variable {s : State} {die ch : Nat} {x : Channel} (h : OneChannel s die ch x)
include h

theorem OneChannel.channel : s.channel die ch = x := by
  obtain ⟨D, hD, hx⟩ := h
  simp [State.channel, State.die, Die.channel, Tab.get, hD, hx, lookKey]

theorem OneChannel.emptied : OneChannel (s.setChannel die ch {}) die ch {} := by
  obtain ⟨D, hD, hx⟩ := h
  have hdie : s.die die = D := by simp [State.die, Tab.get, hD, lookKey]
  refine ⟨{ D with channels := D.channels.put ch {} }, ?_, ?_⟩
  · simp [State.setChannel, State.modDie, State.setDie, hdie, Tab.put, hD, putKey]
  · simp [Tab.put, hx, putKey]

/-- R278: an idle channel guards nothing. -/
theorem OneChannel.unguarded (hx : x.copies = []) (tid : Nat) (va : Word) (n : Nat) : s.guarded tid va n = false := by
  obtain ⟨D, hD, hch⟩ := h
  have hwatch (place : Option Nat) (p : Nat → Nat → Nat → Bool) : s.someWatch place p = false := by
    simp [State.someWatch, hD, hch, Channel.watched, hx]
  simp only [State.guarded, State.watched, State.watchedFar, hwatch]
  cases s.runPieces tid .load va n with
  | error _ => rfl
  | ok l =>
    refine List.any_eq_false.mpr fun q _ => ?_
    cases q with
    | here _ => exact Bool.false_ne_true
    | far _ _ a => cases h : s.translate (dieOf (coreOf tid)) a <;> simp [h]

end

end Sys2Proof.Proofs
end

section
/-! Proofs, family 10 (die): the channels of block transfers (R272–R280). -/

namespace Sys2Proof.Proofs

open Sys2Proof Sys2Proof.Machine Sys2Proof.Claim

/-- R23: an event at which a thread in task mode, outside a gang, traps at its own instruction. -/
theorem trapsThread_of_takeTrap {i : Instr} {s : State} {tid : Nat} {t : Trap}
    (hx : exec i s = .next (s.takeTrap tid t (s.thread tid).pc (s.thread tid).pc false false))
    (hmode : (s.thread tid).mode = false) (hgang : (s.thread tid).gang = false) :
    TrapsThread i s tid t.code t.sub t.eval := by
  rw [State.takeTrap_alone _ _ _ _ _ _ _ hmode hgang] at hx
  exact ⟨_, hx, rfl, fun k hk => State.thread_modThread_other _ _ _ _ hk, State.thread_modThread _ _ _⟩

/-! ### A start (R274, R275) -/

theorem templateOk_fields {s : State} {d t : Nat} (h : s.templateOk d t = true) :
    (s.template d t 7).getLsbD 0 = true ∧ 0 < (s.template d t 2).toNat % 2 ^ 24 ∧
      (s.template d t 2).toNat < 2 ^ 40 ∧ (s.template d t 6).toNat < 2 ^ 13 ∧ (s.template d t 7).toNat < 4 := by
  simp only [State.templateOk, Bool.and_eq_true, decide_eq_true_eq] at h
  obtain ⟨⟨⟨⟨⟨⟨⟨⟨hvalid, hrlen⟩, h2⟩, h6⟩, h7⟩, -⟩, -⟩, -⟩, -⟩ := h
  simp only [bits] at hrlen h2 h6 h7
  have b2 := (s.template d t 2).isLt
  have b6 := (s.template d t 6).isLt
  have b7 := (s.template d t 7).isLt
  exact ⟨hvalid, by omega, by omega, by omega, by omega⟩

theorem startOk_iff {s : State} {d ch core v : Nat} : s.startOk d ch core v = true ↔
    s.templateOk d (v % 2 ^ 12) = true ∧ v < 2 ^ 19 ∧ (s.channel d ch).err = false ∧ core / 256 = d := by
  simp only [State.startOk, Bool.and_eq_true, decide_eq_true_eq, Bool.not_eq_true', dieOf, and_assoc]
  refine and_congr_right fun _ => and_congr ?_ (and_congr_right fun _ => decide_eq_true_iff)
  omega

section
variable {s : State} {core slot die ch v : Nat} (hslot : slot < 4) (hv : v < 2 ^ 64)

/-- R274, R275: a start waits for what its thread has outstanding, and for a place in the channel. -/
theorem btStart_waits (h : s.settled (tidOf core slot) ≠ true ∨ 8 ≤ (s.channel die ch).copies.length) :
    exec (.btStart core slot die ch (BitVec.ofNat 64 v)) s = .next s := by
  show execBtStart core slot die ch (BitVec.ofNat 64 v) s = _
  unfold execBtStart State.startCopy
  by_cases hset : s.settled (tidOf core slot) = true
  · have hfull : (s.channel die ch).copies.length ≥ 8 := h.resolve_left (not_not_intro hset)
    rw [hset, if_neg (by decide), if_pos hfull]
    rfl
  · rw [if_pos (by simpa using hset)]
    rfl

variable (hset : s.settled (tidOf core slot) = true) (hroom : (s.channel die ch).copies.length < 8)
include hslot hv hset hroom

theorem btStart_refused (hno : s.startOk die ch core v = false) (hmode : (s.thread (tidOf core slot)).mode = false)
    (hgang : (s.thread (tidOf core slot)).gang = false) :
    TrapsThread (.btStart core slot die ch (BitVec.ofNat 64 v)) s (tidOf core slot) 0x05 1
      (dieReg die (0x31000 + 8 * ch)) := by
  refine trapsThread_of_takeTrap (t := { code := 0x05, sub := 1, eval := dieReg die (0x31000 + 8 * ch) }) ?_ hmode hgang
  have hval : (BitVec.ofNat 64 v).toNat = v := by rw [BitVec.toNat_ofNat]; omega
  show execBtStart core slot die ch (BitVec.ofNat 64 v) s = _
  unfold execBtStart State.startCopy
  rw [hset, if_neg (by decide), if_neg (not_le.mpr hroom), coreOf_tidOf hslot, hval, hno, if_pos (by decide)]
  rfl

/-- R275: an accepted start without a tag. -/
theorem btStart_accepted (hok : s.startOk die ch core v = true) (htag : v / 2 ^ 18 % 2 = 0) :
    exec (.btStart core slot die ch (BitVec.ofNat 64 v)) s =
      .next (s.pushCopy die ch (s.copyOf die core slot v (s.thread (tidOf core slot)).pc)) ∧
    (s.copyOf die core slot v (s.thread (tidOf core slot)).pc).tag = none := by
  have hval : (BitVec.ofNat 64 v).toNat = v := by rw [BitVec.toNat_ofNat]; omega
  have hnone : (s.copyOf die core slot v (s.thread (tidOf core slot)).pc).tag = none :=
    if_neg (by rw [bits]; omega)
  refine ⟨?_, hnone⟩
  show execBtStart core slot die ch (BitVec.ofNat 64 v) s = _
  unfold execBtStart State.startCopy
  rw [hset, if_neg (by decide), if_neg (not_le.mpr hroom), coreOf_tidOf hslot, slotOf_tidOf hslot, hval, hok,
    if_neg (by decide)]
  simp only [hnone]
  rfl

end

theorem pushCopy_untagged {s : State} {d ch : Nat} {c : Copy} (h : c.tag = none) :
    s.pushCopy d ch c = s.setChannel d ch { s.channel d ch with
      copies := (s.channel d ch).copies ++ [c]
      row := if (s.channel d ch).copies = [] then 0 else (s.channel d ch).row
      col := if (s.channel d ch).copies = [] then 0 else (s.channel d ch).col } := by
  simp only [State.pushCopy, h, List.isEmpty_iff]

theorem channel_setChannel (s : State) (d ch : Nat) (x : Channel) : (s.setChannel d ch x).channel d ch = x := by
  rw [State.channel, State.setChannel, State.die_modDie]
  exact Tab.get_put_same _ _ _ _

/-! ### The row in hand (R276, R278) -/

/-- R278: a copy within the scratchpad leaves no copy of a line stale. -/
theorem copyShown_own {s : State} {c : Copy} {va : Word} {n off : Nat} (hva : va.toNat = 0xF0 * 2 ^ 56 + off)
    (hn : 0 < n) (hfits : off + n ≤ 0x60000) : s.copyShown c va n = s := by
  unfold State.copyShown
  rw [runPieces_own hva (.inr rfl) hn hfits]
  split_ifs <;> rfl

section
variable {s t : State} {die ch : Nat} {x : Channel} {c : Copy} {bs : List Byte} {e : Trap}
  (hone : OneChannel s die ch x) (hbytes : x.bytes = none) (hreqs : x.reqs = [])
include hone hbytes hreqs

theorem moveRow_unread (hload : s.engineLoad c.tid (c.rowSrc x.row) c.rlen [] c.pc c.order = .failed s e) :
    s.moveRow die ch c x.row = .failed s e := by
  unfold State.moveRow
  dsimp only
  rw [hone.emptied.unguarded rfl, hone.emptied.unguarded rfl, hone.channel, hbytes, hreqs, hload]
  rfl

variable (hcol : x.col = 0) (hload : s.engineLoad c.tid (c.rowSrc x.row) c.rlen [] c.pc c.order = .done s bs)
include hcol hload

/-- R276, R278: a row not begun, on the only channel: its bytes are read, then written. -/
theorem moveRow_written (hstore : s.engineStore c.tid (c.rowDst x.row) bs [] c.pc c.order = .done t ()) :
    s.moveRow die ch c x.row = .written (t.copyShown c (c.rowDst x.row) c.rlen) := by
  unfold State.moveRow
  dsimp only
  rw [hone.emptied.unguarded rfl, hone.emptied.unguarded rfl, hone.channel, hcol, hbytes, hreqs, hload]
  simp only [BitVec.add_zero, List.drop_zero, hstore]
  rfl

theorem moveRow_unwritten (hstore : s.engineStore c.tid (c.rowDst x.row) bs [] c.pc c.order = .failed s e) :
    s.moveRow die ch c x.row = .failed s e := by
  unfold State.moveRow
  dsimp only
  rw [hone.emptied.unguarded rfl, hone.emptied.unguarded rfl, hone.channel, hcol, hbytes, hreqs, hload]
  simp only [BitVec.add_zero, List.drop_zero, hstore]
  rfl

end

/-- The fault of a run that leaves the own scratchpad. -/
def pastScratch : Trap := { code := 0x04, sub := 1, eval := BitVec.ofNat 64 (0xF0 * 2 ^ 56 + 0x60000) }

theorem runPieces_pastScratch {s : State} {tid n off : Nat} {acc : Acc} (hacc : acc = .load ∨ acc = .store)
    (hoff : off < 0x60000) (hpast : 0x60000 < off + n) :
    s.runPieces tid acc (BitVec.ofNat 64 (0xF0 * 2 ^ 56 + off)) n = .error pastScratch := by
  rw [runPieces_past_own (scratch_address hoff) hacc hoff hpast, pastScratch, ← BitVec.ofNat_add]
  congr 3
  omega

theorem coreOf_copy {c : Copy} (h : c.slot < 4) : coreOf c.tid = c.core := by rw [Copy.tid, if_pos h, coreOf_tidOf h]

theorem engineLoad_row {s : State} {c : Copy} {a row : Nat} (hslot : c.slot < 4)
    (hsrc : c.rowSrc row = BitVec.ofNat 64 (0xF0 * 2 ^ 56 + a)) (hn : 0 < c.rlen) (ha : a + c.rlen ≤ 0x60000)
    (hclear : ScratchClear s c.core) : s.engineLoad c.tid (c.rowSrc row) c.rlen [] c.pc c.order =
      .done s ((s.core c.core).scratch.readBytes a c.rlen) := by
  rw [hsrc, ← coreOf_copy hslot]
  rw [← coreOf_copy hslot] at hclear
  exact engineLoad_own hclear (scratch_address (by omega)) hn ha

section
variable {s : State} {die ch : Nat} {x : Channel} {c : Copy} {a b : Nat}
  (hone : OneChannel s die ch x) (hbytes : x.bytes = none) (hreqs : x.reqs = [])
  (hsrc : c.rowSrc x.row = BitVec.ofNat 64 (0xF0 * 2 ^ 56 + a))
include hone hbytes hreqs hsrc

/-- R280: a row whose source leaves the scratchpad. -/
theorem moveRow_source_fails (ha : a < 0x60000) (hpast : 0x60000 < a + c.rlen) :
    s.moveRow die ch c x.row = .failed s pastScratch :=
  moveRow_unread hone hbytes hreqs (engineLoad_error (by rw [hsrc]; exact runPieces_pastScratch (.inl rfl) ha hpast))

variable (hcol : x.col = 0) (hslot : c.slot < 4) (hdst : c.rowDst x.row = BitVec.ofNat 64 (0xF0 * 2 ^ 56 + b))
  (hn : 0 < c.rlen) (ha : a + c.rlen ≤ 0x60000) (hclear : ScratchClear s c.core)
include hcol hslot hdst hn ha hclear

/-- R276: a row within the scratchpad is moved at once. -/
theorem moveRow_moves (hb : b + c.rlen ≤ 0x60000) : ∃ t, s.moveRow die ch c x.row = .written t ∧
    PutsBytes s t c.core b ((s.core c.core).scratch.readBytes a c.rlen) := by
  have hlen := (s.core c.core).scratch.readBytes_length c.rlen a
  have hload := engineLoad_row hslot hsrc hn ha hclear
  generalize (s.core c.core).scratch.readBytes a c.rlen = bs at hlen hload ⊢
  have hva := scratch_address (off := b) (by omega)
  rw [← coreOf_copy hslot] at hclear ⊢
  obtain ⟨t, hstore, hput⟩ := engineStore_own (pc := c.pc) (order := c.order) hclear hva (bs := bs) (by omega) (by omega)
  rw [← hdst] at hstore hva
  exact ⟨t, by rw [moveRow_written hone hbytes hreqs hcol hload hstore, copyShown_own hva hn hb], hput⟩

/-- R280: a row whose destination leaves the scratchpad. -/
theorem moveRow_destination_fails (hb : b < 0x60000) (hpast : 0x60000 < b + c.rlen) :
    s.moveRow die ch c x.row = .failed s pastScratch := by
  refine moveRow_unwritten hone hbytes hreqs hcol (engineLoad_row hslot hsrc hn ha hclear) (engineStore_error ?_)
  rw [hdst, Memory.readBytes_length]
  exact runPieces_pastScratch (.inr rfl) hb hpast

end

/-! ### Rows performed, copies complete and copies failed (R277, R280) -/

section
variable {s : State} {die ch : Nat} {x : Channel} {c : Copy} {rest : List Copy}
  (hx : s.channel die ch = x) (hcopies : x.copies = c :: rest)
include hx hcopies

theorem copyRowPerformed_written {t : State} (hrow : x.row ≤ c.rows1) (hbar : c.bar = 0)
    (hmove : s.moveRow die ch c x.row = .written t) : exec (.copyRowPerformed die ch) s =
      .next (t.setChannel die ch { x with row := x.row + 1, col := 0, bytes := none, reqs := [] }) := by
  show execCopyRowPerformed die ch s = _
  simp only [execCopyRowPerformed, hx, hcopies, gt_iff_lt, not_lt.mpr hrow, if_false, hmove, hbar, if_true]
  cases objectAt .barrier 0 <;> rfl

theorem copyFail_nothing {t : State} (hmove : s.moveRow die ch c x.row = .written t) :
    exec (.copyFail die ch) s = .next s := by
  show execCopyFail die ch s = _
  simp only [execCopyFail, hx, hcopies, hmove]

theorem copyFail_fails {t : State} {e : Trap} (hmove : s.moveRow die ch c x.row = .failed t e) :
    exec (.copyFail die ch) s = .next (t.failCopy die ch e) := by
  show execCopyFail die ch s = _
  simp only [execCopyFail, hx, hcopies, hmove]

theorem copyComplete_nothing (hrow : x.row ≤ c.rows1) : exec (.copyComplete die ch) s = .next s := by
  show execCopyComplete die ch s = _
  simp only [execCopyComplete, hx, hcopies, hrow, if_true]

theorem copyComplete_leaves (hrow : c.rows1 < x.row) (htag : c.tag = none) (hctr : c.ctr = none) (hslot : c.slot < 4) :
    exec (.copyComplete die ch) s = .next (s.setChannel die ch
      { x with copies := rest, row := 0, col := 0, bytes := none, reqs := [], wm := c.wmEnd }) := by
  show execCopyComplete die ch s = _
  simp only [execCopyComplete, hx, hcopies, not_le.mpr hrow, if_false, hctr, State.dropTags, List.foldl_cons, htag,
    List.foldl_nil, not_le.mpr hslot]

/-- R280: the channel of a copy that has failed. -/
def failedChannel (x : Channel) (c : Copy) (e : Trap) : Channel :=
  { copies := [], row := x.row, err := true, ecause := e.code, esub := e.sub.extractLsb' 0 4, eaddr := e.eval, wm := c.wmEnd }

/-- R280: a copy of a thread that still runs fails at an address that no table translates. -/
theorem failCopy_eq {e : Trap} (hspace : 1 < e.eval.toNat / 2 ^ 56) (hruns : s.stillRuns c.core c.slot c.taskix = true)
    (hplain : ∀ k ∈ x.copies, k.tag = none ∧ k.slot < 4) :
    s.failCopy die ch e = ((s.setChannel die ch (failedChannel x c e)).engineEvent die e ch).deferFault
      (tidOf c.core c.slot) e c.pc c.order c.handler := by
  rw [hcopies] at hplain
  have htags (u : State) : u.dropTags (c :: rest) = u :=
    foldl_of_fixed _ u _ fun k hk => by rw [(hplain k hk).1]
  have hentries (u : State) : (c :: rest).foldl (fun s c => if c.slot ≥ 4 then s.modEntry (c.slot - 4) (fun e =>
      { e with ended := some (some { code := 0x05, sub := 1, eval := e.opa }) }) else s) u = u :=
    foldl_of_fixed _ u _ fun k hk => if_neg (not_le.mpr (hplain k hk).2)
  have hstill : ((s.setChannel die ch (failedChannel x c e)).engineEvent die e ch).stillRuns c.core c.slot c.taskix = true := by
    have hthread := State.thread_of_threads _ _ (threads_postEvent (s.setChannel die ch (failedChannel x c e)) (some die) 0x05
      e.eval (BitVec.ofNat 64 (e.code.toNat + e.sub.toNat * 256 + ch * 65536)))
    rw [← hruns]
    simp only [State.stillRuns, State.engineEvent, hthread]
    rfl
  unfold State.failCopy
  simp only [hx, hcopies, reportFault_untranslated _ _ _ hspace, htags, hentries]
  exact if_pos hstill

end

/-- R280: the thread of a copy that has failed takes the fault, and the channel is empty. -/
theorem failCopy_fails {s : State} {die ch : Nat} {x : Channel} {c : Copy} {e : Trap} (tid : Nat)
    (heq : s.failCopy die ch e = ((s.setChannel die ch (failedChannel x c e)).engineEvent die e ch).deferFault tid e
      c.pc c.order c.handler) :
    (∀ k, k ≠ tid → (s.failCopy die ch e).thread k = s.thread k) ∧
    (s.failCopy die ch e).thread tid = withFault (s.thread tid) e.code e.sub e.eval c.pc c.order c.handler ∧
    (s.failCopy die ch e).channel die ch = failedChannel x c e := by
  have hthread := State.thread_of_threads _ _ (threads_postEvent (s.setChannel die ch (failedChannel x c e)) (some die) 0x05
    e.eval (BitVec.ofNat 64 (e.code.toNat + e.sub.toNat * 256 + ch * 65536)))
  have hchannels := congrArg Die.channels ((linesAndRings_postEvent (s.setChannel die ch (failedChannel x c e)) (some die) 0x05
    e.eval (BitVec.ofNat 64 (e.code.toNat + e.sub.toNat * 256 + ch * 65536))).1 die)
  rw [heq]
  refine ⟨fun k hk => (State.thread_modThread_other _ _ _ _ hk).trans (hthread k), ?_, ?_⟩
  · refine (State.thread_modThread _ _ _).trans ?_
    rw [State.engineEvent, hthread]
    rfl
  · exact (congrArg (fun y : Tab Channel => y.get {} ch) hchannels).trans (channel_setChannel s die ch _)

end Sys2Proof.Proofs
end

section
/-! Proofs, family 10 (die): the streamer (R281–R284), and what the engines of a die copy and gather. -/

namespace Sys2Proof.Proofs

open Sys2Proof Sys2Proof.Machine Sys2Proof.Claim

/-! ### A post (R281, R282) -/

section
variable {s : State} {core slot v : Nat} (hslot : slot < 4) (hv : v < 2 ^ 64)
  (hset : s.settled (tidOf core slot) = true) (hroom : (s.die (dieOf core)).streams.length < 256)
include hslot hv hset hroom

theorem streamerPost_refused (hbad : v % 32 ≠ 0 ∨ 0x60000 < v + 32) (hmode : (s.thread (tidOf core slot)).mode = false)
    (hgang : (s.thread (tidOf core slot)).gang = false) :
    TrapsThread (.streamerPost core slot (BitVec.ofNat 64 v)) s (tidOf core slot) 0x05 1 (dieReg (dieOf core) 0x40000) := by
  refine trapsThread_of_takeTrap (t := { code := 0x05, sub := 1, eval := dieReg (dieOf core) 0x40000 }) ?_ hmode hgang
  have hval : (BitVec.ofNat 64 v).toNat = v := by rw [BitVec.toNat_ofNat]; omega
  have hcheck : (decide (dieOf core ≠ dieOf core) || decide (v / 2 ^ 20 ≠ 0) || decide (v % 32 ≠ 0) ||
      decide (v + 32 > scratchSize)) = true := by
    rcases hbad with hbad | hbad <;> simp [scratchSize, hbad]
  show execStreamerPost core slot (BitVec.ofNat 64 v) s = _
  unfold execStreamerPost State.postStream
  simp only [hset, coreOf_tidOf hslot, hval, not_le.mpr hroom, hcheck]
  rfl

/-- R282: the accepted request joins the queue with its counters at zero. -/
theorem streamerPost_accepted {r : StreamReq} (hal : v % 32 = 0) (hfits : v + 32 ≤ 0x60000) (hclear : ScratchClear s core)
    (hwatch : ∀ a n, s.watched (some core) a n = false)
    (hr : s.streamOf core slot v (s.thread (tidOf core slot)).pc = some r) (htag : r.tag = none) :
    exec (.streamerPost core slot (BitVec.ofNat 64 v)) s =
      .next ((s.scratchPut core r.cnt (List.replicate (4 * r.nc) 0)).modDie (dieOf core)
        fun x => { x with streams := x.streams ++ [r] }) := by
  have hval : (BitVec.ofNat 64 v).toNat = v := by rw [BitVec.toNat_ofNat]; omega
  have hcheck : (decide (dieOf core ≠ dieOf core) || decide (v / 2 ^ 20 ≠ 0) || decide (v % 32 ≠ 0) ||
      decide (v + 32 > scratchSize)) = false := by
    have hhigh : v < 2 ^ 20 := by omega
    simpa [scratchSize, hal, hfits] using hhigh
  show execStreamerPost core slot (BitVec.ofNat 64 v) s = _
  unfold execStreamerPost State.postStream
  simp only [hset, coreOf_tidOf hslot, slotOf_tidOf hslot, hval, not_le.mpr hroom, hcheck, pinRange_clear hclear, hwatch, hr,
    htag]
  rfl

end

/-! ### A gathered row (R283) -/

/-- The scratchpad after a row of `n` bytes from `oo` has come to `lo` and the counter at `k` has been raised. -/
def gathered (m : Memory) (oo lo n k : Nat) : Memory :=
  let m := m.writeBytes lo (m.readBytes oo n)
  m.writeBytes k (leBytes 4 (m.readNat k 4 + 1))

section
variable (m : Memory) {oo lo n k : Nat}

theorem gathered_outside {y : Nat} (hlo : y < lo ∨ lo + n ≤ y) (hk : y < k ∨ k + 4 ≤ y) :
    (gathered m oo lo n k).read y = m.read y := by
  rw [gathered, Memory.read_writeBytes_outside _ _ _ _ (by rwa [leBytes_length]),
    Memory.read_writeBytes_outside _ _ _ _ (by rwa [Memory.readBytes_length])]

variable (hapart : k + 4 ≤ lo ∨ lo + n ≤ k)
include hapart

theorem gathered_row : (gathered m oo lo n k).readBytes lo n = m.readBytes oo n := by
  have hsame : (gathered m oo lo n k).readBytes lo n = (m.writeBytes lo (m.readBytes oo n)).readBytes lo n := by
    refine Memory.readBytes_congr lo n fun b hlo hhi => ?_
    exact Memory.read_writeBytes_outside _ _ _ _ (by rw [leBytes_length]; omega)
  have hwritten := m.readBytes_writeBytes lo (m.readBytes oo n)
  rw [Memory.readBytes_length] at hwritten
  exact hsame.trans hwritten

theorem gathered_counter : (gathered m oo lo n k).readNat k 4 = (m.readNat k 4 + 1) % 2 ^ 32 := by
  have hsame : (m.writeBytes lo (m.readBytes oo n)).readNat k 4 = m.readNat k 4 := by
    refine Memory.readNat_congr k 4 fun b hlo hhi => ?_
    exact Memory.read_writeBytes_outside _ _ _ _ (by rw [Memory.readBytes_length]; omega)
  refine (Memory.readNat_writeNat _ k 4 _).trans ?_
  rw [hsame]
  rfl

end

/-- R283: the counter of a row is raised. -/
theorem counter_put {s : State} {c : Nat} (hclear : ScratchClear s c) (k : Nat) :
    PutsBytes s ((s.pinRange c k 4 true).scratchPut c k (leBytes 4 (((s.pinRange c k 4 true).core c).scratch.readNat k 4 + 1)))
      c k (leBytes 4 ((s.core c).scratch.readNat k 4 + 1)) := by
  have hmarks := marks_pinRange hclear k 4 true
  have hsame : ((s.pinRange c k 4 true).core c).scratch = (s.core c).scratch := by
    obtain ⟨-, -, hcore, -⟩ := hmarks
    rw [hcore]
  rw [hsame]
  exact putsBytes_of_marks hmarks (scratchPut_clear (scratchClear_of_marks hclear hmarks) k _)

section
variable {s : State} {die : Nat} {r : StreamReq} {rest : List StreamReq}

theorem streamRow_gathers {u oo lo k : Nat} (hgather : r.scatter = false) (howner : r.cb + u % r.nc = r.core)
    (hoo : oo = r.tb + u / r.nc * r.rl) (hlo : lo = r.lb + r.next * r.rl) (hk : k = r.cnt + 4 * (u % r.nc))
    (hfits : oo + r.rl ≤ 0x60000) (hclear : ScratchClear s r.core) (hwatch : ∀ a n, s.watched (some r.core) a n = false)
    (hu : u = (s.core r.core).scratch.readNat (r.idx + 4 * r.next) 4) :
    ∃ t, s.streamRow r = .ok t () ∧ t = { s with cores := t.cores } ∧
      (t.core r.core).scratch = gathered (s.core r.core).scratch oo lo r.rl k := by
  have hrow : r.row u = (r.core, oo, lo, k) := by rw [StreamReq.row, howner, hoo, hlo, hk]
  have hin : ¬ oo + r.rl > scratchSize := not_lt.mpr hfits
  obtain ⟨v, hstore, hput⟩ := scratchStore_clear hclear (.engine r.core) .store lo
    ((s.core r.core).scratch.readBytes oo r.rl) (BitVec.ofNat 64 (0xF1 * 2 ^ 56 + r.core * 2 ^ 32 + oo))
  have hcount := counter_put (scratchClear_of_putsBytes hclear hput) k
  have hrun : s.streamRow r = .ok ((v.pinRange r.core k 4 true).scratchPut r.core k
      (leBytes 4 (((v.pinRange r.core k 4 true).core r.core).scratch.readNat k 4 + 1))) () := by
    simp only [State.streamRow, pinRange_clear hclear, ← hu, hrow, hwatch, hin, hgather, decide_true, scratchLoad_clear hclear,
      Did.bind, hstore]
    rfl
  refine ⟨_, hrun, ?_, ?_⟩
  · obtain ⟨hv, -⟩ := hput
    obtain ⟨ht, -⟩ := hcount
    rw [ht, hv]
  · obtain ⟨-, -, hvcore, -⟩ := hput
    obtain ⟨-, -, htcore, -⟩ := hcount
    rw [htcore, hvcore]
    rfl

theorem streamerRow_moves {t : State} (hhead : (s.die die).streams = r :: rest) (hnext : r.next < r.n)
    (hrow : s.streamRow r = .ok t ()) : exec (.streamerRow die) s =
      .next (t.modStream die fun r => { r with next := r.next + 1 }) := by
  show execStreamerRow die s = _
  simp only [execStreamerRow, hhead, ge_iff_le, not_le.mpr hnext, if_false, hrow]

theorem modStream_head {f : StreamReq → StreamReq} (hhead : (s.die die).streams = r :: rest) :
    ((s.modStream die f).die die).streams = f r :: rest := by
  rw [State.modStream, State.die_modDie, hhead]

theorem streamerRow_nothing (hhead : (s.die die).streams = r :: rest) (hdone : r.n ≤ r.next) :
    exec (.streamerRow die) s = .next s := by
  show execStreamerRow die s = _
  simp only [execStreamerRow, hhead, ge_iff_le, hdone, if_true]

/-! ### A finished request (R284) -/

theorem streamerComplete_nothing (hhead : (s.die die).streams = r :: rest) (hmore : r.next < r.n) :
    exec (.streamerComplete die) s = .next s := by
  show execStreamerComplete die s = _
  simp only [execStreamerComplete, hhead, hmore, if_true]

section
variable (hhead : (s.die die).streams = r :: rest) (hdone : r.n ≤ r.next) (htag : r.tag = none)
include hhead hdone htag

theorem streamerComplete_whole (hskip : r.skipped = none) :
    exec (.streamerComplete die) s = .next (s.modDie die fun x => { x with streams := rest }) := by
  show execStreamerComplete die s = _
  simp only [execStreamerComplete, hhead, not_lt.mpr hdone, if_false, htag, hskip]

theorem streamerComplete_skipped {e : Trap} (hskip : r.skipped = some e)
    (hruns : s.stillRuns r.core r.slot r.taskix = true) : exec (.streamerComplete die) s =
      .next ((s.modDie die fun x => { x with streams := rest }).deferFault (tidOf r.core r.slot) e r.pc r.order r.handler) := by
  have hstill : (s.modDie die fun x => { x with streams := rest }).stillRuns r.core r.slot r.taskix = true := hruns
  show execStreamerComplete die s = _
  simp only [execStreamerComplete, hhead, not_lt.mpr hdone, if_false, htag, hskip, hstill, if_true]

end

end

/-! ### The statement of the family -/

/-- Settles O52: starts, rows and ends of copies and of gather requests, each by the lemma of its event above. -/
theorem enginesCopyAndGather : Obligations.EnginesCopyAndGather := by
  unfold Obligations.EnginesCopyAndGather
  refine ⟨?starts, ?copies, ?posts, ?rows⟩
  case starts =>
    rintro s core slot die ch v tid t x rfl hslot rfl rfl hv drained may
    have hmay : s.startOk die ch core v = true ↔ may := startOk_iff
    refine ⟨btStart_waits, fun hset hroom hno hmode hgang => ?_, fun hset hroom hok htag => ?_, templateOk_fields⟩
    · exact btStart_refused hslot hv hset hroom (Bool.eq_false_iff.mpr (mt hmay.mp hno)) hmode hgang
    · obtain ⟨hx, hnone⟩ := btStart_accepted hslot hv hset hroom (hmay.mpr hok) htag
      rw [pushCopy_untagged hnone] at hx
      exact ⟨_, _, hx, rfl, fun d hd => State.die_modDie_other _ _ _ _ hd, channel_setChannel _ _ _ _, rfl, rfl, if_pos hslot,
        hnone, rfl, rfl, bits_low _ 23, rfl, rfl, rfl, rfl, rfl⟩
  case copies =>
    intro s die ch D x c rest hD hch hcopies hcol hbytes hreqs hcore fails
    have hone : OneChannel s die ch x := ⟨D, hD, hch⟩
    have hx := hone.channel
    have hfails (hmove : s.moveRow die ch c x.row = .failed s pastScratch)
        (hruns : s.stillRuns c.core c.slot c.taskix = true) (hplain : ∀ k ∈ x.copies, k.tag = none ∧ k.slot < 4) : fails := by
      obtain ⟨hother, hthread, hchannel⟩ :=
        failCopy_fails _ (failCopy_eq (e := pastScratch) hx hcopies (by decide) hruns hplain)
      exact ⟨_, copyFail_fails hx hcopies hmove, hother, hthread, by rw [hchannel]; rfl, by rw [hchannel]; rfl,
        by rw [hchannel]; rfl, by rw [hchannel]; rfl, by rw [hchannel]; rfl, by rw [hchannel]; rfl⟩
    refine ⟨fun a b hslot hrow hsrc hdst hn ha hbar hclear => ⟨fun hb => ?_, fun hb hpast hruns hplain => ?_⟩,
      fun a hslot hsrc ha hpast hruns hplain => ?_, copyComplete_nothing hx hcopies, fun hrow htag hctr hslot => ?_⟩
    · obtain ⟨t, hmove, hput⟩ := moveRow_moves hone hbytes hreqs hsrc hcol hslot hdst hn ha hclear hb
      have hbytesPut := putsCore_of_putsBytes hput
      refine ⟨⟨_, copyRowPerformed_written hx hcopies hrow hbar hmove, ?_, hbytesPut, ?_⟩,
        copyFail_nothing hx hcopies hmove⟩
      · obtain ⟨ht, -⟩ := hput
        rw [ht]
        rfl
      · rw [channel_setChannel, hcol, hbytes, hreqs]
    · exact hfails (moveRow_destination_fails hone hbytes hreqs hsrc hcol hslot hdst hn ha hclear hb hpast) hruns hplain
    · exact hfails (moveRow_source_fails hone hbytes hreqs hsrc ha hpast) hruns hplain
    · refine ⟨_, copyComplete_leaves hx hcopies hrow htag hctr hslot, rfl, ?_⟩
      rw [channel_setChannel, hcol, hbytes, hreqs]
      rfl
  case posts =>
    rintro s core slot v tid rfl hslot hv hset hroom
    refine ⟨streamerPost_refused hslot hv hset hroom, fun r hal hfits hclear hwatch hr htag => ?_⟩
    have hput := scratchPut_clear hclear r.cnt (List.replicate (4 * r.nc) 0)
    have hzeroed := putsCore_of_putsBytes hput
    refine ⟨_, streamerPost_accepted hslot hv hset hroom hal hfits hclear hwatch hr htag, ?_, hzeroed, ?_⟩
    · obtain ⟨ht, -⟩ := hput
      rw [ht]
      rfl
    · rw [State.die_modDie]
      obtain ⟨ht, -⟩ := hput
      rw [ht]
      rfl
  case rows =>
    intro s die r rest hhead
    refine ⟨fun u oo lo k hnext hgather howner hoo hlo hk hfits _ _ _ _ hapart hclear hwatch hu => ?_,
      streamerRow_nothing hhead, streamerComplete_nothing hhead, fun hdone htag hskip => ?_,
      fun e hdone htag hskip hruns => ?_⟩
    · obtain ⟨t, hrow, ht, hscratch⟩ := streamRow_gathers hgather howner hoo hlo hk hfits hclear hwatch hu
      have hsame : ((t.modStream die fun r => { r with next := r.next + 1 }).core r.core).scratch =
        gathered (s.core r.core).scratch oo lo r.rl k := hscratch
      refine ⟨_, streamerRow_moves hhead hnext hrow, ?_, ?_, ?_, ?_, ?_, fun y hy hyk => ?_⟩
      · rw [ht]; rfl
      · rw [ht]; rfl
      · exact modStream_head (by rw [ht]; exact hhead)
      · rw [hsame, gathered_row _ hapart]
      · rw [hsame, gathered_counter _ hapart]
      · rw [hsame, gathered_outside _ hy hyk]
    · exact ⟨_, streamerComplete_whole hhead hdone htag hskip, rfl, State.die_modDie _ _ _⟩
    · exact ⟨_, streamerComplete_skipped hhead hdone htag hskip hruns,
        State.die_modDie s die fun x => { x with streams := rest },
        fun j hj => State.thread_modThread_other _ _ _ _ hj, State.thread_modThread _ _ _⟩

end Sys2Proof.Proofs
end

section
/-! Proofs, family 10 (die): qpop and qpush, and their limits (R288, R289). -/

namespace Sys2Proof.Proofs

open Sys2Proof Sys2Proof.Machine Sys2Proof.Claim

/-! ### What a thread has outstanding (R116) -/

theorem settled_iff_drained {s : State} : s.settled s.cur = true ↔ Drained s := by
  simp only [State.settled, Thread.drained, Drained, Bool.and_eq_true, List.isEmpty_iff, Bool.not_eq_true',
    List.any_eq_false, decide_eq_true_eq, Option.isNone_iff_eq_none, List.any_eq_true, not_exists, not_and,
    Bool.not_eq_true, and_assoc]
  exact Iff.rfl

/-! ### The queue of an operand (R285, R288) -/

theorem pump_eq {s : State} {core q : Nat} (hq : q < 8) : s.pump core q = (s.core core).pumps[q] := dif_pos hq

theorem core_setPump {s : State} {core q : Nat} (hq : q < 8) (p : Pump) :
    (s.setPump core q p).core core = { s.core core with pumps := (s.core core).pumps.set q p } := by
  rw [State.setPump, State.core_modCore, dif_pos hq]

theorem slotAt_eq (p : Pump) (k : Nat) : p.slotAt k = p.qring.toNat % 2 ^ 20 +
    64 * (p.qring.toNat / 2 ^ 20 % 2 ^ 12) * (k % (p.qring.toNat / 2 ^ 32 % 2 ^ 8 + 1)) := by
  rw [Pump.slotAt, Pump.rb, bits_low]
  rfl

theorem pump_eval_eq (p : Pump) (q : Nat) :
    p.eval q = BitVec.ofNat 64 (q + p.role.toNat * 8 + p.p % 2 ^ 24 * 2 ^ 8 + p.c % 2 ^ 24 * 2 ^ 32) := by
  rw [Pump.eval, ite_eq_toNat_mul]
  rfl

section
variable {s : State} {a b : Reg} {v : Nat} {p : Pump} (hv : v = (s.rd a).toNat) (hp : p = s.pump s.myCore (v % 8))
  {role : Bool}
include hv hp

theorem queueOperand_bad
    (h : 16 ≤ v ∨ 2 ^ 32 ≤ (s.rd b).toNat ∨ p.en = false ∨ p.slot ≠ s.cur % 4 ∨ p.role ≠ role) :
    s.queueOperand a b role = .error s.badOperand := by
  subst hp hv
  refine if_pos ?_
  simp only [Bool.or_eq_true, decide_eq_true_eq, Bool.not_eq_true', bne_iff_ne, slotOf]
  rcases h with h | h | h | h | h
  · exact .inl (.inl (.inl (.inl (by omega))))
  · exact .inl (.inl (.inl (.inr (by omega))))
  · exact .inl (.inl (.inr h))
  · exact .inl (.inr (decide_eq_true h))
  · exact .inr h

variable (hlt : v < 16) (hb : (s.rd b).toNat < 2 ^ 32) (hen : p.en = true) (hslot : p.slot = s.cur % 4)
  (hrole : p.role = role)
include hlt hb hen hslot hrole

theorem queueOperand_usable : s.queueOperand a b role =
    if p.fail then .error (.trap { code := 0x08, sub := 2, eval := p.eval (v % 8) })
    else .ok (v % 8, decide (8 ≤ v)) := by
  have hrelease : v.testBit 3 = decide (8 ≤ v) := by
    rw [Nat.testBit_eq_decide_div_mod_eq]
    exact decide_eq_decide.mpr (by omega)
  rw [← hrelease]
  subst hp hv
  refine if_neg ?_
  have hhigh : (s.rd a).toNat / 16 = 0 := by omega
  simpa [hhigh, hen, hrole, hslot, slotOf] using hb

end

/-! ### qpop and qpush as one operation -/

/-- R288: what qpop and qpush do, by the role that they need, what they do to the queue, and the wait that they park on. -/
def queueStep (role : Bool) (pass : Pump → Bool → Option (Pump × Word)) (park : Nat → Wait) (d a b : Reg) (s : State) :
    Out :=
  s.finish 4 do
    let (q, rel) ← s.queueOperand a b role
    if !s.settled s.cur then .error .wait
    else
      match pass (s.pump s.myCore q) rel with
      | some (p, v) => .ok (((s.setPump s.myCore q p).wr d v).acquire s.cur)
      | none => .error (.park (park q))

theorem exec_qpop (d a b : Reg) (s : State) : exec (.qpop d a b) s =
    queueStep false Pump.pop (fun q => .qpop q (s.me.code d) (s.rd b).toNat 0) d a b s := rfl

theorem exec_qpush (d a b : Reg) (s : State) : exec (.qpush d a b) s =
    queueStep true Pump.push (fun q => .qpush q (s.me.code d) (s.rd b).toNat 0) d a b s := rfl

/-- The instruction leaves queue `q` of its core as `y` and `w` in `d`, and is an acquire (R270, R288). -/
def PassesQueue (i : Instr) (s : State) (d : Reg) (q : Nat) (hq : q < 8) (y : Pump) (w : Word) : Prop :=
  ∃ t, exec i s = .next t ∧
    t = { s with threads := t.threads, cores := t.cores, dies := t.dies } ∧
    (∀ k, k ≠ s.cur → t.thread k = s.thread k) ∧ (∀ k, k ≠ s.myCore → t.core k = s.core k) ∧
    t.core s.myCore = { s.core s.myCore with pumps := (s.core s.myCore).pumps.set q y } ∧
    (∀ e, e ≠ s.myDie → t.die e = s.die e) ∧
    t.die s.myDie = { s.die s.myDie with rdcEpoch := (s.die s.myDie).rdcEpoch + 1 } ∧ Writes s.me t.me d w ∧
    t.me = { s.me with pc := s.me.pc + 4, regs := t.me.regs, badRegs := t.me.badRegs
                       acqEpoch := (s.die s.myDie).rdcEpoch + 1 }

/-- R33: what the thread in hand is after an instruction of `n` bytes that changed it by `f`. -/
theorem modMe_advance (u : State) (f : Thread → Thread) (n : Nat) : OnlyMe u ((u.modMe f).advance n) ∧
    ((u.modMe f).advance n).me = { f u.me with pc := (f u.me).pc + BitVec.ofNat 64 n } := by
  refine ⟨onlyMe_trans (onlyMe_setMe u (f u.me)) (onlyMe_setMe (u.modMe f) _), ?_⟩
  rw [State.me_advance, State.me_modMe]

theorem passesQueue_of_exec {i : Instr} {s : State} {d : Reg} {q : Nat} {hq : q < 8} {y : Pump} {w : Word}
    (hepoch : (s.die s.myDie).rdcEpoch ≠ BitVec.allOnes 32)
    (hx : exec i s = .next ((((s.setPump s.myCore q y).wr d w).acquire s.cur).advance 4)) :
    PassesQueue i s d q hq y w := by
  have hwrote : OnlyMe (s.setPump s.myCore q y) ((s.setPump s.myCore q y).wr d w) := onlyMe_setMe _ _
  have hreg : ((s.setPump s.myCore q y).wr d w).me = s.me.wr d w := State.me_wr _ d w
  have hacq := acquire_next (s := (s.setPump s.myCore q y).wr d w) (tid := s.cur) hepoch
  generalize (s.setPump s.myCore q y).wr d w = u at hx hwrote hreg hacq
  obtain ⟨hu, huother⟩ := hwrote
  have hdies : u.dies = s.dies := by rw [hu]; rfl
  have hcur : u.cur = s.cur := by rw [hu]; rfl
  have hcores : u.cores = (s.setPump s.myCore q y).cores := by rw [hu]
  have hdie : u.die (dieOf (coreOf s.cur)) = s.die s.myDie := State.die_of_dies s u hdies _
  rw [hdie] at hacq
  let f (x : Thread) : Thread := { x with acqEpoch := (s.die s.myDie).rdcEpoch + 1 }
  let v := u.modDie s.myDie fun x => { x with rdcEpoch := (s.die s.myDie).rdcEpoch + 1 }
  have hv : u.acquire s.cur = v.modMe f := by
    rw [hacq]
    show v.modThread s.cur f = v.modThread u.cur f
    rw [hcur]
  rw [hv] at hx
  obtain ⟨⟨ht, hother⟩, hme⟩ := modMe_advance v f 4
  have hvme : v.me = s.me.wr d w := hreg
  rw [hvme] at hme
  generalize (v.modMe f).advance 4 = t at hx ht hother hme
  have hw : Writes s.me t.me d w := by
    refine ⟨?_, fun k hk => ?_, ?_⟩ <;> rw [hme]
    · exact (s.me.rd_wr d d w).trans (by simp)
    · exact s.me.readCode_wr_other d w k hk
    · exact s.me.badRegs_wr d w
  have htcores : t.cores = (s.setPump s.myCore q y).cores := by rw [ht]; exact hcores
  have htdies : t.dies = v.dies := by rw [ht]
  refine ⟨t, hx, ?_, fun k hk => ?_, fun k hk => ?_, ?_, fun k hk => ?_, ?_, hw, ?_⟩
  · rw [ht, show v = { u with dies := v.dies } from rfl, hu]
    rfl
  · rw [hother k (by rwa [← hcur] at hk)]
    exact huother k hk
  · exact (State.core_of_cores _ t htcores k).trans (State.core_modCore_other _ _ _ _ hk)
  · exact (State.core_of_cores _ t htcores _).trans (core_setPump hq y)
  · rw [State.die_of_dies _ t htdies]
    exact (State.die_modDie_other _ _ _ _ hk).trans (State.die_of_dies s u hdies k)
  · rw [State.die_of_dies _ t htdies]
    refine (State.die_modDie _ _ _).trans ?_
    rw [State.die_of_dies s u hdies]
  · rw [hme, Thread.wr, Thread.writeCode_frame]
    rfl

/-- R28: what parking changes. -/
theorem parked_frame {s : State} (w : Wait) : s.park w = { s with threads := (s.park w).threads, order := s.order + 1 } ∧
    (∀ k, k ≠ s.cur → (s.park w).thread k = s.thread k) ∧
    (s.park w).me = { s.me with life := .parked, wait := some w, parkedAt := s.order } := by
  let f (t : Thread) : Thread := { t with life := .parked, wait := some w, parkedAt := s.order }
  have hthread := State.thread_of_threads (s.modMe f) (s.park w) rfl
  exact ⟨rfl, fun k hk => (hthread k).trans (s.thread_modMe_other k f hk), (hthread _).trans (s.me_modMe f)⟩

/-- R288: what an instruction does whose queue gives a new slot at count `n` while `more` holds: a release, the end, the next
slot, and a wait. -/
def QueueOutcomes (i : Instr) (s : State) (d : Reg) (v q : Nat) (hq : q < 8) (n nt : Nat) (more : Prop) (y : Bool → Pump)
    (at_ : Word) (w : Wait) : Prop :=
  (8 ≤ v → PassesQueue i s d q hq (y false) 0) ∧
  (v < 8 → n = nt → PassesQueue i s d q hq (y false) (BitVec.allOnes 64)) ∧
  (v < 8 → n ≠ nt → more → PassesQueue i s d q hq (y true) at_) ∧
  (v < 8 → n ≠ nt → ¬ more → Parks i s w)

section
variable {s : State} {i : Instr} {d a b : Reg} {role : Bool} {pass : Pump → Bool → Option (Pump × Word)} {park : Nat → Wait}
  {v : Nat} {p : Pump} (hx : exec i s = queueStep role pass park d a b s) (hv : v = (s.rd a).toNat)
  (hp : p = s.pump s.myCore (v % 8))
include hx hv hp

theorem queueStep_bad
    (h : 16 ≤ v ∨ 2 ^ 32 ≤ (s.rd b).toNat ∨ p.en = false ∨ p.slot ≠ s.cur % 4 ∨ p.role ≠ role) (ha : TaskAlone s) :
    Traps i s 0x01 4 (irWord s) := by
  refine traps_of_takeTrap (t := { code := 0x01, sub := 4, eval := irWord s }) ?_ ha
  rw [hx, queueStep, queueOperand_bad hv hp h]
  rfl

variable (hlt : v < 16) (hb : (s.rd b).toNat < 2 ^ 32) (hen : p.en = true) (hslot : p.slot = s.cur % 4)
  (hrole : p.role = role)
include hlt hb hen hslot hrole

theorem queueStep_failed (hfail : p.fail = true) (ha : TaskAlone s) : Traps i s 0x08 2 (p.eval (v % 8)) := by
  refine traps_of_takeTrap (t := { code := 0x08, sub := 2, eval := p.eval (v % 8) }) ?_ ha
  rw [hx, queueStep, queueOperand_usable hv hp hlt hb hen hslot hrole, if_pos hfail]
  rfl

variable (hfail : p.fail = false)
include hfail

theorem queueStep_waits (hd : ¬ Drained s) : exec i s = .next { s with stalled := true } := by
  have hset : s.settled s.cur = false := Bool.eq_false_iff.mpr (mt settled_iff_drained.mp hd)
  rw [hx, queueStep, queueOperand_usable hv hp hlt hb hen hslot hrole, hfail, hset]
  rfl

theorem queueStep_passes {y : Pump} {w : Word} (hd : Drained s) (hpass : pass p (decide (8 ≤ v)) = some (y, w)) :
    exec i s = .next ((((s.setPump s.myCore (v % 8) y).wr d w).acquire s.cur).advance 4) := by
  rw [hx, queueStep, queueOperand_usable hv hp hlt hb hen hslot hrole, hfail]
  show s.finish 4 (if !s.settled s.cur then _ else _) = _
  rw [settled_iff_drained.mpr hd, if_neg (by decide), ← hp, hpass]
  rfl

theorem queueStep_parks (hd : Drained s) (hpass : pass p (decide (8 ≤ v)) = none) : Parks i s (park (v % 8)) := by
  refine ⟨s.park (park (v % 8)), ?_, parked_frame _⟩
  rw [hx, queueStep, queueOperand_usable hv hp hlt hb hen hslot hrole, hfail]
  show s.finish 4 (if !s.settled s.cur then _ else _) = _
  rw [settled_iff_drained.mpr hd, if_neg (by decide), ← hp, hpass]
  rfl

theorem queueOutcomes_of_eq {n : Nat} {more : Prop} [Decidable more] {y : Bool → Pump} {at_ : Word} (hd : Drained s)
    (hepoch : (s.die s.myDie).rdcEpoch ≠ BitVec.allOnes 32) (hq : v % 8 < 8)
    (hpass : ∀ rel, pass p rel = if rel then some (y false, 0) else if n = p.nt then some (y false, BitVec.allOnes 64)
      else if more then some (y true, at_) else none) :
    QueueOutcomes i s d v (v % 8) hq n p.nt more y at_ (park (v % 8)) := by
  have hdo {z : Pump} {w : Word} (h : pass p (decide (8 ≤ v)) = some (z, w)) : PassesQueue i s d (v % 8) hq z w :=
    passesQueue_of_exec hepoch (queueStep_passes hx hv hp hlt hb hen hslot hrole hfail hd h)
  have hno (h : v < 8) : ¬ decide (8 ≤ v) = true := by simpa using h
  refine ⟨fun h => hdo ?_, fun h hend => hdo ?_, fun h hend hmore => hdo ?_,
    fun h hend hmore => queueStep_parks hx hv hp hlt hb hen hslot hrole hfail hd ?_⟩ <;> rw [hpass]
  · rw [if_pos (decide_eq_true h)]
  · rw [if_neg (hno h), if_pos hend]
  · rw [if_neg (hno h), if_neg hend, if_pos hmore]
  · rw [if_neg (hno h), if_neg hend, if_neg hmore]

end

/-! ### What they do to a queue -/

theorem pop_eq {p : Pump} {n : Nat} (hn : n = p.c + p.held.toNat) (rel : Bool) : p.pop rel =
    if rel then some ({ p with c := n, held := false }, 0)
    else if n = p.nt then some ({ p with c := n, held := false }, BitVec.allOnes 64)
    else if n < p.p then some ({ p with c := n, held := true }, BitVec.ofNat 64 (p.slotAt n))
    else none := by
  have hheld : (if p.held then 1 else 0) = p.held.toNat := by cases p.held <;> rfl
  rw [Pump.pop, hheld, ← hn]

theorem push_eq {p : Pump} {m : Nat} (hm : m = p.p + p.held.toNat) (rel : Bool) : p.push rel =
    if rel then some ({ p with p := m, held := false }, 0)
    else if m = p.nt then some ({ p with p := m, held := false }, BitVec.allOnes 64)
    else if m - p.c < p.ns then some ({ p with p := m, held := true }, BitVec.ofNat 64 (p.slotAt m))
    else none := by
  have hheld : (if p.held then 1 else 0) = p.held.toNat := by cases p.held <;> rfl
  rw [Pump.push, hheld, ← hm]

/-! ### The limit of a parked qpop or qpush (R289) -/

section
variable {s : State} {core slot q code limit used : Nat}

theorem queueWaitTimeout_nothing (hin : limit = 0 ∨ used < limit)
    (hw : (s.thread (tidOf core slot)).waits = some (.qpop q code limit used) ∨
      (s.thread (tidOf core slot)).waits = some (.qpush q code limit used)) :
    exec (.queueWaitTimeout core slot) s = .next s := by
  have hno : ¬ (decide (limit ≠ 0) && decide (used ≥ limit) && s.clocked (dieOf core)) = true := by
    simp only [Bool.and_eq_true, decide_eq_true_eq]
    omega
  show execQueueWaitTimeout core slot s = _
  rcases hw with hw | hw <;> simp only [execQueueWaitTimeout, hw] <;> exact if_neg hno

section
variable (hlimit : limit ≠ 0) (hpast : limit ≤ used) (hpower : (s.die (dieOf core)).pwrState = 0)
  (hmode : (s.thread (tidOf core slot)).mode = false) (hgang : (s.thread (tidOf core slot)).gang = false)
include hlimit hpast hpower

theorem queueWait_past : (decide (limit ≠ 0) && decide (used ≥ limit) && s.clocked (dieOf core)) = true := by
  simp [State.clocked, hlimit, hpast, hpower]

include hmode hgang

theorem queueWaitTimeout_pop (hw : (s.thread (tidOf core slot)).waits = some (.qpop q code limit used)) :
    TrapsThread (.queueWaitTimeout core slot) s (tidOf core slot) 0x08 0 ((s.pump core q).eval q) := by
  refine trapsThread_of_takeTrap (t := { code := 0x08, sub := 0, eval := (s.pump core q).eval q }) ?_ hmode hgang
  show execQueueWaitTimeout core slot s = _
  simp only [execQueueWaitTimeout, hw]
  exact if_pos (queueWait_past hlimit hpast hpower)

theorem queueWaitTimeout_push (hw : (s.thread (tidOf core slot)).waits = some (.qpush q code limit used)) :
    TrapsThread (.queueWaitTimeout core slot) s (tidOf core slot) 0x08 1 ((s.pump core q).eval q) := by
  refine trapsThread_of_takeTrap (t := { code := 0x08, sub := 1, eval := (s.pump core q).eval q }) ?_ hmode hgang
  show execQueueWaitTimeout core slot s = _
  simp only [execQueueWaitTimeout, hw]
  exact if_pos (queueWait_past hlimit hpast hpower)

end

end

end Sys2Proof.Proofs
end

section
/-! Proofs, family 10 (die): the subscription of a queue and its end (R285, R286). -/

namespace Sys2Proof.Proofs

open Sys2Proof Sys2Proof.Machine Sys2Proof.Claim

/-! ### The word stored to QCTL -/

theorem subscribe_word (v : Word) : (v ||| 1#64 <<< 63).getLsbD 63 = true ∧
    (v ||| 1#64 <<< 63).getLsbD 62 = v.getLsbD 62 ∧ bits (v ||| 1#64 <<< 63).toNat 31 0 = v.toNat % 2 ^ 32 := by
  have hlow : (1#64 <<< 63).toNat % 2 ^ 32 = 0 := by decide
  refine ⟨by simp, by simp, ?_⟩
  rw [bits_low, BitVec.toNat_or, Nat.or_mod_two_pow, hlow, Nat.or_zero]

theorem unsubscribe_word (v : Word) : (v &&& ~~~(1#64 <<< 63)).getLsbD 63 = false ∧
    (v &&& ~~~(1#64 <<< 63)).getLsbD 62 = v.getLsbD 62 ∧ bits (v &&& ~~~(1#64 <<< 63)).toNat 31 0 = v.toNat % 2 ^ 32 := by
  have hlow : (~~~(1#64 <<< 63)).toNat % 2 ^ 32 = 2 ^ 32 - 1 := by decide
  refine ⟨by simp, by simp, ?_⟩
  rw [bits_low, BitVec.toNat_and, Nat.and_mod_two_pow, hlow, Nat.and_two_pow_sub_one_eq_mod, Nat.mod_mod]

/-! ### What may be subscribed -/

theorem subscribable_of {p : Pump} {nt : Nat} (hrows : 0 < p.rows) (hrlen : 0 < p.rlen) (hsl : p.rows * p.rlen ≤ p.sl)
    (hnt : 0 < nt) (hns : 2 ≤ p.ns) (hring : p.rb + 64 * p.sl * p.ns ≤ 0x60000) (hrb : p.rb % 64 = 0)
    (hspace : p.qaddr.toNat < 2 ^ 57) (haddr : p.qaddr.toNat % 64 = 0) : p.subscribable nt = true := by
  have hsl0 : p.sl ≠ 0 := by
    have := Nat.mul_pos hrows hrlen
    omega
  have hsp : space p.qaddr ≤ 1 := by rw [space]; omega
  simp only [Pump.subscribable, Bool.and_eq_true, decide_eq_true_eq]
  exact ⟨⟨⟨⟨⟨⟨⟨⟨⟨hrows.ne', hrlen.ne'⟩, hsl0⟩, hnt.ne'⟩, hns⟩, hsl⟩, hring⟩, hsp⟩, haddr⟩, hrb⟩

theorem not_subscribable {p : Pump} {nt : Nat} (h : nt = 0 ∨ p.ns < 2) : p.subscribable nt = false := by
  rw [← Bool.not_eq_true]
  simp only [Pump.subscribable, Bool.and_eq_true, decide_eq_true_eq]
  omega

/-! ### A thread's store to QCTL (R286) -/

/-- The event changes queue `q` of core `core` alone, to `y`. -/
def SetsPump (i : Instr) (s : State) (core q : Nat) (hq : q < 8) (y : Pump) : Prop :=
  ∃ t, exec i s = .next t ∧ t = { s with cores := t.cores } ∧ (∀ k, k ≠ core → t.core k = s.core k) ∧
    t.core core = { s.core core with pumps := (s.core core).pumps.set q y }

section
variable {s : State} {core slot q : Nat} {v : Word} {p : Pump} (hslot : slot < 4) (hq : q < 8) (hp : p = s.pump core q)
  (hmay : MayStore s (.thread core slot) (queueReg core q 0x18))

include hmay in
theorem store_thread_accepted (t : State) : s.store (.thread core slot) (queueReg core q 0x18) { s := t } = t := by
  have h : s.foreign (tidOf core slot) (queueReg core q 0x18) = false := hmay
  simp only [State.store, h, Bool.false_eq_true, if_false]
  rfl

include hq hmay in
theorem setsPump_of_wrote {i : Instr} {w : Wrote} {y : Pump}
    (hx : exec i s = .next (s.store (.thread core slot) (queueReg core q 0x18) w)) (hw : w = { s := s.setPump core q y }) :
    SetsPump i s core q hq y := by
  rw [hw, store_thread_accepted hmay] at hx
  exact ⟨_, hx, rfl, fun k hk => State.core_modCore_other _ _ _ _ hk, core_setPump hq y⟩

include hslot in
theorem own_queue : ¬ (((some (tidOf core slot)).map coreOf).getD core ≠ core) := by
  rw [Option.map_some, Option.getD_some, coreOf_tidOf hslot]
  exact not_not_intro rfl

include hslot hp in
theorem writeQctl_subscribes (hen : p.en = false) (hok : p.subscribable (v.toNat % 2 ^ 32) = true) :
    s.writeQctl (some (tidOf core slot)) core q (v ||| 1#64 <<< 63) =
      { s := s.setPump core q (p.subscribed (v ||| 1#64 <<< 63) slot (s.thread (tidOf core slot)) s.order) } := by
  obtain ⟨h63, -, hnt⟩ := subscribe_word v
  unfold State.writeQctl
  rw [if_neg (own_queue hslot)]
  simp only [h63, if_true, ← hp, hen, hnt, hok, Option.map_some, Option.getD_some,
    slotOf_tidOf hslot]
  rfl

include hslot hp in
theorem writeQctl_refuses (h : p.en = true ∨ v.toNat % 2 ^ 32 = 0 ∨ p.ns < 2) :
    s.writeQctl (some (tidOf core slot)) core q (v ||| 1#64 <<< 63) = refuse51 s := by
  obtain ⟨h63, -, hnt⟩ := subscribe_word v
  have hbad : (p.en || !p.subscribable (v.toNat % 2 ^ 32)) = true := by
    rcases h with h | h
    · rw [h, Bool.true_or]
    · rw [not_subscribable h, Bool.not_false, Bool.or_true]
  unfold State.writeQctl
  rw [if_neg (own_queue hslot)]
  simp only [h63, if_true, ← hp, hnt, hbad]

include hslot hp in
theorem writeQctl_ends : s.writeQctl (some (tidOf core slot)) core q (v &&& ~~~(1#64 <<< 63)) =
    if !p.en then { s := s.setPump core q { p with role := v.getLsbD 62, nt := v.toNat % 2 ^ 32 } }
    else if p.idle then { s := s.setPump core q { p with
      en := false, role := v.getLsbD 62, nt := v.toNat % 2 ^ 32, fail := false, ending := [], reqs := [] } }
    else { s := { (s.setPump core q { p with
        ending := p.ending ++ [(some (tidOf core slot, s.nextId), v &&& ~~~(1#64 <<< 63))] }).modThread (tidOf core slot)
          (fun t => { t with unacked := t.unacked ++ [(s.nextId, t.mode)] }) with nextId := s.nextId + 1 } } := by
  obtain ⟨h63, h62, hnt⟩ := unsubscribe_word v
  unfold State.writeQctl
  rw [if_neg (own_queue hslot)]
  simp only [h63, if_false, ← hp, State.endQueue, State.modPump, h62, hnt,
    Bool.false_eq_true]


include hslot hp hmay

theorem queueSubscribe_sets (hen : p.en = false) (hok : p.subscribable (v.toNat % 2 ^ 32) = true) :
    SetsPump (.queueSubscribe core slot q v) s core q hq { p with
      en := true, role := v.getLsbD 62, fail := false, slot := slot, nt := v.toNat % 2 ^ 32, p := 0, c := 0, held := false
      fpc := (s.thread (tidOf core slot)).pc, taskix := (s.thread (tidOf core slot)).taskix
      run := (s.thread (tidOf core slot)).run, order := s.order, handler := (s.thread (tidOf core slot)).mode
      paused := false, reqs := [], ending := [] } := by
  obtain ⟨-, h62, hnt⟩ := subscribe_word v
  rw [← h62, ← hnt]
  exact setsPump_of_wrote hq hmay rfl (writeQctl_subscribes hslot hp hen hok)

theorem queueSubscribe_refused (h : p.en = true ∨ v.toNat % 2 ^ 32 = 0 ∨ p.ns < 2) :
    ∃ t, exec (.queueSubscribe core slot q v) s = .next t ∧ t.cores = s.cores ∧ t.thread (tidOf core slot) =
      withFault (s.thread (tidOf core slot)) 0x05 1 (queueReg core q 0x18) (s.thread (tidOf core slot)).pc s.order
        (s.thread (tidOf core slot)).mode := by
  have hx : exec (.queueSubscribe core slot q v) s = .next (s.store (.thread core slot) (queueReg core q 0x18)
    (s.writeQctl (some (tidOf core slot)) core q (v ||| 1#64 <<< 63))) := rfl
  rw [writeQctl_refuses hslot hp h, store_thread_refused hmay] at hx
  exact ⟨_, hx, rfl, State.thread_modThread _ _ _⟩

theorem queueUnsubscribe_unheld (hen : p.en = false) : SetsPump (.queueUnsubscribe core slot q v) s core q hq
    { p with role := v.getLsbD 62, nt := v.toNat % 2 ^ 32 } := by
  refine setsPump_of_wrote hq hmay rfl ((writeQctl_ends hslot hp).trans (if_pos ?_))
  rw [hen]
  rfl

variable (hen : p.en = true)
include hen

theorem queueUnsubscribe_idle (hreqs : p.reqs = []) (hidle : p.fail = true ∨ p.role = false ∨ p.c = p.p) :
    SetsPump (.queueUnsubscribe core slot q v) s core q hq { p with
      en := false, role := v.getLsbD 62, nt := v.toNat % 2 ^ 32, fail := false, ending := [] } := by
  have hyes : p.idle = true := by
    simpa [Pump.idle, hreqs, or_assoc] using hidle
  refine setsPump_of_wrote hq hmay rfl ((writeQctl_ends hslot hp).trans ?_)
  rw [hen, if_neg (by decide), if_pos hyes, hreqs]

/-- R286: the end of a subscription whose pump writes a tile waits unacknowledged. -/
theorem queueUnsubscribe_busy (hfail : p.fail = false) (hrole : p.role = true) (hc : p.c ≠ p.p) :
    ∃ t, exec (.queueUnsubscribe core slot q v) s = .next t ∧
      t.core core = { s.core core with pumps := (s.core core).pumps.set q { p with
        ending := p.ending ++ [(some (tidOf core slot, s.nextId), v &&& ~~~(1#64 <<< 63))] } } ∧
      t.thread (tidOf core slot) = { s.thread (tidOf core slot) with
        unacked := (s.thread (tidOf core slot)).unacked ++ [(s.nextId, (s.thread (tidOf core slot)).mode)] } := by
  have hno : p.idle = false := by simp [Pump.idle, hfail, hrole, hc]
  have hx : exec (.queueUnsubscribe core slot q v) s = .next (s.store (.thread core slot) (queueReg core q 0x18)
    (s.writeQctl (some (tidOf core slot)) core q (v &&& ~~~(1#64 <<< 63)))) := rfl
  rw [writeQctl_ends hslot hp, if_neg (by rw [hen]; decide), if_neg (by rw [hno]; decide), store_thread_accepted hmay] at hx
  let y : Pump := { p with ending := p.ending ++ [(some (tidOf core slot, s.nextId), v &&& ~~~(1#64 <<< 63))] }
  let f (t : Thread) : Thread := { t with unacked := t.unacked ++ [(s.nextId, t.mode)] }
  have hcore := State.core_of_cores (s.setPump core q y) { (s.setPump core q y).modThread (tidOf core slot) f with
    nextId := s.nextId + 1 } rfl core
  exact ⟨_, hx, hcore.trans (core_setPump hq y), State.thread_modThread (s.setPump core q y) (tidOf core slot) f⟩

end

end Sys2Proof.Proofs
end

section
/-! Proofs, family 10 (die): the tiles of a pump (R287), and what the tile pumps do for their queues. -/

namespace Sys2Proof.Proofs

open Sys2Proof Sys2Proof.Machine Sys2Proof.Claim

/-! ### An engine at a plain home (R101, R104, R266) -/

section
variable {s : State} {key pa n c : Nat} {acc : Acc} {va : Word} (h : Serves s key pa n)
include h

theorem homeCheck_serves : s.homeCheck (.engine c) acc pa key va = .ok s () := by
  obtain ⟨d, hd, halive, howner, -⟩ := h
  simp [State.homeCheck, hd, halive, howner, State.keyMay]

/-- R171, R322, R356: bytes that serve an access lie in no format window, not in the second tier, and their home takes writes. -/
theorem plain_of_serves : s.windowOf pa = none ∧ inTier2 pa = false ∧ s.lost pa = false := by
  obtain ⟨d, hd, halive, -, hw, -⟩ := h
  exact ⟨by simp [State.windowOf, hd, hw], homeDie_not_tier2 hd, by simp [State.lost, hd, halive]⟩

theorem homeLoad_serves : s.homeLoad (.engine c) acc pa n key va = .ok s (s.mem.readBytes pa n) := by
  obtain ⟨hw, h2, -⟩ := plain_of_serves h
  have hcheck := homeCheck_serves (c := c) (acc := acc) (va := va) h
  obtain ⟨-, -, -, -, -, hline, hn, hgood⟩ := h
  simp only [State.homeLoad, hcheck, Did.bind, homeReadAll_line hn hline hw h2, firstBad_none _ _ _ hgood]

theorem homeStore_serves {bs : List Byte} (hlen : bs.length = n) : s.homeStore (.engine c) acc pa key bs va =
    .ok { s.healMem pa bs.length with mem := s.mem.writeBytes pa bs } () := by
  subst hlen
  obtain ⟨hw, h2, hlost⟩ := plain_of_serves h
  have hcheck := homeCheck_serves (c := c) (acc := acc) (va := va) h
  obtain ⟨-, -, -, -, -, hline, hn, hgood⟩ := h
  have hwhole : s.memBad.filter (fun w => w < pa + bs.length && pa < w + 8 && !(pa ≤ w && w + 8 ≤ pa + bs.length)) = [] := by
    rw [List.filter_eq_nil_iff]
    intro w hw
    have := hgood w hw
    simp only [Bool.and_eq_true, decide_eq_true_eq, not_and]
    omega
  simp only [State.homeStore, hcheck, Did.bind, homeTouch_line hn hline hw, hwhole, homeWriteAll_line hn hline hw h2 hlost]

end

theorem putsBytes_writeBytes {s t : State} {pa : Nat} {bs : List Byte} (h : t.mem = s.mem.writeBytes pa bs) :
    Claim.PutsBytes s t pa bs := by
  rw [Claim.PutsBytes, h]
  exact ⟨fun j hj => s.mem.read_writeBytes_inside pa j bs hj, fun x hx => s.mem.read_writeBytes_outside pa x bs hx⟩

/-! ### After a tile (R286, R287) -/

theorem serveQueue_noneParked {s : State} (h : NoneParked s) (core q : Nat) : s.serveQueue core q = s := by
  rw [State.serveQueue, parkedWith_noneParked h]
  rfl

theorem settleQueue_none {s : State} {core q : Nat} (h : (s.pump core q).ending = []) : s.settleQueue core q = s := by
  simp only [State.settleQueue, h, List.getLast?_nil]

theorem pump_setPump {s : State} {core q : Nat} (hq : q < 8) (p : Pump) : (s.setPump core q p).pump core q = p := by
  rw [pump_eq hq, core_setPump hq]
  exact Vector.getElem_set_self _

/-- R286, R287: with nobody parked and no end waiting, a moved tile has no further effect. -/
theorem settled_setPump {s : State} {core q : Nat} {p : Pump} (hq : q < 8) (hpark : NoneParked s) (hend : p.ending = []) :
    ((s.setPump core q p).serveQueue core q).settleQueue core q = s.setPump core q p := by
  have hpark' : NoneParked (s.setPump core q p) := hpark
  rw [serveQueue_noneParked hpark', settleQueue_none]
  rw [pump_setPump hq, hend]

/-! ### The tile in hand -/

/-- A pump of one row, with a tile of `n` bytes at `va`, free of what keeps it from going on (R287). -/
structure PumpReady (s : State) (core q : Nat) (p : Pump) : Prop where
  queue : q < 8
  pump : p = s.pump core q
  power : (s.die (dieOf core)).pwrState = 0
  en : p.en = true
  fail : p.fail = false
  paused : p.paused = false
  reqs : p.reqs = []
  ending : p.ending = []
  rows : p.rows = 1
  slot : p.slot < 4
  park : NoneParked s
  clear : ScratchClear s core
  unwatched : ∀ a k, s.watched (some core) a k = false

section
variable {s : State} {core q : Nat} {p : Pump} (h : PumpReady s core q p)
include h

theorem PumpReady.clocked : s.clocked (dieOf core) = true := decide_eq_true h.power

theorem PumpReady.runs : p.runs = true := by simp [Pump.runs, h.en, h.fail, h.paused]

theorem PumpReady.coreOf : coreOf (tidOf core p.slot) = core := coreOf_tidOf h.slot

theorem pumpLoadTile_nothing (hno : p.nt ≤ p.p ∨ p.ns ≤ p.p - p.c) :
    exec (.pumpLoadTile core q) s = .next s := by
  show execPumpLoadTile core q s = _
  unfold execPumpLoadTile
  dsimp only
  rw [← h.pump, if_pos]
  rcases hno with hno | hno <;> simp [hno]

theorem pumpStoreTile_nothing (hno : p.p ≤ p.c) : exec (.pumpStoreTile core q) s = .next s := by
  show execPumpStoreTile core q s = _
  unfold execPumpStoreTile
  dsimp only
  rw [← h.pump, if_pos]
  simp [hno]

/-- R287: nothing lies above a watermark in the way of the tile at count `k`. -/
theorem PumpReady.free {k : Nat} (hguard : s.guarded (tidOf core p.slot) (p.rowAt k 0) (64 * p.rlen) = false) :
    ((List.range p.rows).any (fun r => s.guarded (tidOf core p.slot) (p.rowAt k r) (64 * p.rlen)) ||
      s.watched (some core) (p.slotAt k) (64 * p.rows * p.rlen)) = false := by
  simp [h.rows, h.unwatched, hguard]

theorem PumpReady.near {k : Nat} {z : Span}
    (hrun : s.runPieces (tidOf core p.slot) p.acc (p.rowAt k 0) (64 * p.rlen) = .ok [.here z]) :
    s.pumpNear (tidOf core p.slot) p k = true := by
  simp [State.pumpNear, h.rows, hrun, unasked_here]

end

section
variable {s : State} {core q key pa n : Nat} {p : Pump} (h : PumpReady s core q p) (hn : n = 64 * p.rlen)
  (hserves : Serves s key pa n)
include h hn hserves

/-- R287: a loader with a tile to fetch and a slot to put it in. -/
theorem pumpLoadTile_moves (hrole : p.role = false) (hmore : p.p < p.nt) (hslot : p.p - p.c < p.ns)
    (hguard : s.guarded (tidOf core p.slot) (p.rowAt p.p 0) n = false)
    (hrun : s.runPieces (tidOf core p.slot) .load (p.rowAt p.p 0) n =
      .ok [.here { start := 0, len := n, core := none, addr := pa, key := key }]) :
    ∃ t, PutsBytes s t core (p.slotAt p.p) (s.mem.readBytes pa n) ∧
      exec (.pumpLoadTile core q) s = .next (t.setPump core q { p with p := p.p + 1, reqs := [] }) := by
  obtain ⟨t, hstore, hput⟩ := scratchStore_clear h.clear (.engine core) .store (p.slotAt p.p) (s.mem.readBytes pa n)
    (p.slotVa p.p)
  refine ⟨t, hput, ?_⟩
  have hpark : NoneParked t := fun k => by
    obtain ⟨ht, -⟩ := hput
    rw [State.thread_of_threads s t (by rw [ht])]
    exact h.park k
  have hacc : p.acc = .load := by rw [Pump.acc, hrole]; rfl
  subst hn
  have hnear := h.near (k := p.p) (by rw [hacc]; exact hrun)
  let z : Span := { start := 0, len := 64 * p.rlen, core := none, addr := pa, key := key }
  have hread : s.readSpans (coreOf (tidOf core p.slot)) (p.rowAt p.p 0) [] [z] = .ok s (s.mem.readBytes pa (64 * p.rlen)) :=
    (readSpans_home rfl rfl []).trans (homeLoad_serves hserves)
  have hbytes : s.tileBytes core p p.p [] 1 = .ok s [s.mem.readBytes pa (64 * p.rlen)] := by
    simp only [State.tileBytes, h.rows, Nat.sub_self, Nat.zero_add, hrun, gather_here]
    rw [hread]
    rfl
  have hgo : (!s.clocked (dieOf core) || p.role || !p.runs || decide (p.p ≥ p.nt) || decide (p.p - p.c ≥ p.ns)) = false := by
    simp [h.clocked, h.runs, hrole, hmore, hslot]
  have hdone := settled_setPump (core := core) (p := { p with p := p.p + 1, reqs := [] }) h.queue hpark h.ending
  show execPumpLoadTile core q s = _
  unfold execPumpLoadTile
  dsimp only
  rw [← h.pump, if_neg (by rw [hgo]; decide), if_neg (by rw [h.free hguard]; decide), hnear, h.reqs, h.rows, hbytes]
  simp only [dropReqs_nil, List.flatten_singleton, hstore, answered_nil]
  exact (if_neg (by decide)).trans (congrArg Host.Outcome.next hdone)

/-- R287: a storer with a handed slot to write back. -/
theorem pumpStoreTile_moves (hrole : p.role = true) (hmore : p.c < p.p)
    (hguard : s.guarded (tidOf core p.slot) (p.rowAt p.c 0) n = false)
    (hrun : s.runPieces (tidOf core p.slot) .store (p.rowAt p.c 0) n =
      .ok [.here { start := 0, len := n, core := none, addr := pa, key := key }]) :
    ∃ t : State, t.threads = s.threads ∧ t.mem = s.mem.writeBytes pa ((s.core core).scratch.readBytes (p.slotAt p.c) n) ∧
      exec (.pumpStoreTile core q) s = .next (t.setPump core q { p with c := p.c + 1, reqs := [] }) := by
  have hlen : ((s.core core).scratch.readBytes (p.slotAt p.c) n).length = n := Memory.readBytes_length _ _ _
  refine ⟨{ s.healMem pa ((s.core core).scratch.readBytes (p.slotAt p.c) n).length with
    mem := s.mem.writeBytes pa ((s.core core).scratch.readBytes (p.slotAt p.c) n) }, rfl, rfl, ?_⟩
  have hacc : p.acc = .store := by rw [Pump.acc, hrole]; rfl
  have hload (eva : Word) := scratchLoad_clear h.clear (.engine core) (p.slotAt p.c) n eva
  have hstore := homeStore_serves (c := core) (acc := .store) (va := p.rowAt p.c 0) hserves hlen
  generalize (s.core core).scratch.readBytes (p.slotAt p.c) n = bs at hlen hload hstore ⊢
  subst hn
  have hnear := h.near (k := p.c) (by rw [hacc]; exact hrun)
  let z : Span := { start := 0, len := 64 * p.rlen, core := none, addr := pa, key := key }
  have hwrite : s.writeSpans (coreOf (tidOf core p.slot)) (p.rowAt p.c 0) 0 bs [z] =
      .ok { s.healMem pa bs.length with mem := s.mem.writeBytes pa bs } () := by
    rw [h.coreOf, writeSpans_home rfl bs hlen.symm rfl rfl]
    simp only [BitVec.add_zero]
    exact hstore
  have hslotRow : s.slotRow core p 0 = .ok s bs := by
    rw [State.slotRow, Nat.mul_zero, Nat.zero_mul, Nat.add_zero]
    exact hload _
  have hrows : s.storeRows core p [] 1 = .ok { s.healMem pa bs.length with mem := s.mem.writeBytes pa bs } () := by
    simp only [State.storeRows, h.rows, Nat.sub_self, Nat.zero_add, hrun, hslotRow, spread_here, Did.bind]
    rw [hwrite]
  have hgo : (!s.clocked (dieOf core) || !p.role || !p.runs || decide (p.c ≥ p.p)) = false := by
    simp [h.clocked, h.runs, hrole, hmore]
  have hdone := settled_setPump (core := core) (p := { p with c := p.c + 1, reqs := [] })
    (s := { s.healMem pa bs.length with mem := s.mem.writeBytes pa bs }) h.queue h.park h.ending
  show execPumpStoreTile core q s = _
  unfold execPumpStoreTile
  dsimp only
  rw [← h.pump, if_neg (by rw [hgo]; decide), if_neg (by rw [h.free hguard]; decide), hnear, h.reqs, h.rows, hrows]
  simp only [dropReqs_nil, answered_nil]
  exact (if_neg (by decide)).trans (congrArg Host.Outcome.next hdone)

end

/-! ### The statement of the family -/

/-- Settles O53: operands and limits of qpop and qpush, stores to QCTL and tiles, each by its lemmas above. -/
theorem tilePumpsFeedTheirQueues : Obligations.TilePumpsFeedTheirQueues := by
  unfold Obligations.TilePumpsFeedTheirQueues
  refine ⟨?operands, ?limits, ?subscriptions, ?tiles⟩
  case operands =>
    rintro s d a b v q n m x p hv rfl hq rfl hp at_ gives
    have hpump : p = s.pump s.myCore (v % 8) := hp.trans (pump_eq hq).symm
    have hpop := exec_qpop d a b s
    have hpush := exec_qpush d a b s
    have hslotAt (k : Nat) : BitVec.ofNat 64 (p.slotAt k) = at_ k := congrArg _ (slotAt_eq p k)
    have hother {r role : Bool} (h : p.role = r) (hne : r ≠ role) :
        16 ≤ v ∨ 2 ^ 32 ≤ (s.rd b).toNat ∨ p.en = false ∨ p.slot ≠ s.cur % 4 ∨ p.role ≠ role :=
      .inr (.inr (.inr (.inr (by rwa [h]))))
    refine ⟨fun h ha => ?_, fun hlt hb hen hslot => ⟨fun hrole => queueStep_bad hpop hv hpump (hother hrole (by decide)),
      fun hrole => queueStep_bad hpush hv hpump (hother hrole (by decide)), fun hfail ha e he => ?_, fun hfail hd => ?_,
      fun hfail hd hepoch => ⟨fun hrole hn => ?_, fun hrole hm => ?_⟩⟩⟩
    · have hbad (role : Bool) := Or.imp_right (Or.imp_right (Or.imp_right (Or.inl (b := p.role ≠ role)))) h
      exact ⟨queueStep_bad hpop hv hpump (hbad false) ha, queueStep_bad hpush hv hpump (hbad true) ha⟩
    · rw [he, ← pump_eval_eq]
      exact ⟨fun hrole => queueStep_failed hpop hv hpump hlt hb hen hslot hrole hfail ha,
        fun hrole => queueStep_failed hpush hv hpump hlt hb hen hslot hrole hfail ha⟩
    · exact ⟨fun hrole => queueStep_waits hpop hv hpump hlt hb hen hslot hrole hfail hd,
        fun hrole => queueStep_waits hpush hv hpump hlt hb hen hslot hrole hfail hd⟩
    · obtain ⟨hrelease, hend, htile, hwait⟩ :=
        queueOutcomes_of_eq hpop hv hpump hlt hb hen hslot hrole hfail hd hepoch hq (n := n) (more := n < p.p)
          (y := fun held => { p with c := n, held := held }) (at_ := at_ n)
          (fun rel => by rw [← hslotAt]; exact pop_eq hn rel)
      exact ⟨hrelease, hend, htile, fun hv hne hno => hwait hv hne (not_lt.mpr hno)⟩
    · obtain ⟨hrelease, hend, htile, hwait⟩ :=
        queueOutcomes_of_eq hpush hv hpump hlt hb hen hslot hrole hfail hd hepoch hq (n := m) (more := m - p.c < p.ns)
          (y := fun held => { p with p := m, held := held }) (at_ := at_ m)
          (fun rel => by rw [← hslotAt]; exact push_eq hm rel)
      exact ⟨hrelease, hend, htile, fun hv hne hno => hwait hv hne (not_lt.mpr hno)⟩
  case limits =>
    rintro s core slot q code limit used tid rfl hq
    exact ⟨queueWaitTimeout_nothing, fun hlimit hpast hpower hmode hgang =>
      ⟨queueWaitTimeout_pop hlimit hpast hpower hmode hgang, queueWaitTimeout_push hlimit hpast hpower hmode hgang⟩⟩
  case subscriptions =>
    rintro s core slot q v p x hslot hq rfl hp hmay sets
    have hpump : p = s.pump core q := hp.trans (pump_eq hq).symm
    refine ⟨fun hen hrows hrlen hsl hnt hns hring hrb hspace haddr => ?_, queueSubscribe_refused hslot hpump hmay,
      queueUnsubscribe_unheld hslot hq hpump hmay, queueUnsubscribe_idle hslot hq hpump hmay,
      queueUnsubscribe_busy hslot hq hpump hmay⟩
    exact queueSubscribe_sets hslot hq hpump hmay hen (subscribable_of hrows hrlen hsl hnt hns hring hrb hspace haddr)
  case tiles =>
    rintro s core q n pa key slotOff tid p va hq hp hpower hen hfail hpaused hreqs hending hrows hn rfl hslot hpark hclear
      hguard hunwatched hserves _
    have hready : PumpReady s core q p := ⟨hq, hp.trans (pump_eq hq).symm, hpower, hen, hfail, hpaused, hreqs, hending, hrows,
      hslot, hpark, hclear, hunwatched⟩
    refine ⟨fun _ => pumpLoadTile_nothing hready, ?_, fun _ => pumpStoreTile_nothing hready, ?_⟩
    · rintro hrole hmore hroom rfl rfl hrun
      obtain ⟨t, hput, hx⟩ := pumpLoadTile_moves hready hn hserves hrole hmore hroom hguard hrun
      obtain ⟨hread, hmem⟩ := putsCore_of_putsBytes hput
      obtain ⟨ht, -⟩ := hput
      have hthreads : t.threads = s.threads := by rw [ht]
      refine ⟨_, hx, hthreads, ⟨fun y => ?_, hmem⟩, ?_⟩
      · rw [core_setPump hq]
        exact hread y
      · rw [pump_setPump hq, hreqs]
    · rintro hrole hmore rfl rfl hrun
      obtain ⟨t, hthreads, hmem, hx⟩ := pumpStoreTile_moves hready hn hserves hrole hmore hguard hrun
      refine ⟨_, hx, hthreads, putsBytes_writeBytes hmem, ?_⟩
      rw [pump_setPump hq, hreqs]

end Sys2Proof.Proofs
end

section
/-! Proofs, family 13 (package): sparse tables changed in place, the dies of a set, the slots of dies, and one partition of
Selvedge (R357). -/

namespace Sys2Proof.Machine

/-! ### Sparse tables -/

theorem lookKey_filter {α : Type} (p : Nat → Bool) (k : Nat) (l : List (Nat × α)) :
    lookKey k (l.filter fun c => p c.1) = if p k then lookKey k l else none := by
  induction l with
  | nil => simp [lookKey]
  | cons c l ih =>
    obtain ⟨j, v⟩ := c
    rw [List.filter_cons, lookKey]
    by_cases hk : k = j
    · subst hk
      cases hp : p k <;> simp [hp, lookKey, ih]
    · split_ifs <;> simp_all [lookKey]

theorem lookKey_map {α : Type} (f : Nat → α → α) (k : Nat) (l : List (Nat × α)) :
    lookKey k (l.map fun c => (c.1, f c.1 c.2)) = (lookKey k l).map (f k) := by
  induction l with
  | nil => rfl
  | cons c l ih =>
    rw [List.map_cons, lookKey, lookKey, ih]
    by_cases hk : k = c.1 <;> simp [hk]

theorem lookKey_unlisted {α : Type} {k : Nat} {l : List (Nat × α)} (h : k ∉ l.map Prod.fst) : lookKey k l = none := by
  induction l with
  | nil => rfl
  | cons c l ih =>
    rw [List.map_cons, List.mem_cons, not_or] at h
    rw [lookKey, if_neg h.1, ih h.2]

theorem Tab.get_only {α : Type} (t : Tab α) (p : Nat → Bool) (d : α) (k : Nat) :
    (t.only p).get d k = if p k then t.get d k else d := by
  rw [Tab.get, Tab.only, lookKey_filter]
  split_ifs <;> rfl

theorem Tab.get_each {α : Type} (t : Tab α) (f : Nat → α → α) (d : α) (k : Nat) (hd : f k d = d) :
    (t.each f).get d k = f k (t.get d k) := by
  rw [Tab.get, Tab.each, lookKey_map, Tab.get]
  cases lookKey k t.cells with
  | none => exact hd.symm
  | some v => rfl

theorem Tab.get_unlisted {α : Type} {t : Tab α} (d : α) {k : Nat} (h : k ∉ t.keys) : t.get d k = d := by
  rw [Tab.get, lookKey_unlisted h, Option.getD_none]

/-- Zeroed bytes read 0, the others as before. -/
theorem Memory.read_zero (m : Memory) (a n b : Nat) :
    (m.zero a n).read b = if a ≤ b ∧ b < a + n then 0 else m.read b := by
  rw [Memory.read, Memory.zero, lookKey_filter (fun c => decide (c < a) || decide (a + n ≤ c)), Memory.read]
  by_cases h : a ≤ b ∧ b < a + n
  · rw [if_pos h, if_neg (by simp; omega)]; rfl
  · rw [if_neg h, if_pos (by simp; omega)]

/-! ### One thing done for each of some dies -/

theorem mem_diesOf (m : BitVec 4) (d : Nat) : d ∈ diesOf m ↔ m.getLsbD d = true := by
  rw [diesOf, List.mem_filter, List.mem_range]
  exact ⟨And.right, fun h => ⟨BitVec.lt_of_getLsbD h, h⟩⟩

/-- What no step changes is as it was after them all. -/
theorem foldl_keeps {α β γ : Type} (get : α → β) (step : α → γ → α)
    (h : ∀ s d, get (step s d) = get s) (l : List γ) :
    ∀ s, get (l.foldl step s) = get s := by
  induction l with
  | nil => exact fun _ => rfl
  | cons d l ih => exact fun s => (ih _).trans (h s d)

/-- When the step for die `d` changes what is placed on that die, by an idempotent `g`, the steps for the dies of a list do
so for what is placed on them. -/
theorem foldl_placed {ι α : Type} (get : State → ι → α) (step : State → Nat → State) (place : ι → Nat) (g : ι → α → α)
    (hg : ∀ c x, g c (g c x) = g c x)
    (hstep : ∀ s d c, get (step s d) c = if place c = d then g c (get s c) else get s c) (l : List Nat) (c : ι) :
    ∀ s, get (l.foldl step s) c = if place c ∈ l then g c (get s c) else get s c := by
  induction l with
  | nil => exact fun _ => by simp
  | cons d l ih =>
    intro s
    rw [List.foldl_cons, ih, hstep]
    by_cases hd : place c = d <;> by_cases hl : place c ∈ l <;> simp [hd, hl, hg]

/-- The same for the dies of a set. -/
theorem foldl_diesOf {ι α : Type} (get : State → ι → α) (step : State → Nat → State) (place : ι → Nat) (g : ι → α → α)
    (hg : ∀ c x, g c (g c x) = g c x)
    (hstep : ∀ s d c, get (step s d) c = if place c = d then g c (get s c) else get s c) (m : BitVec 4) (c : ι) (s : State) :
    get ((diesOf m).foldl step s) c = if m.getLsbD (place c) = true then g c (get s c) else get s c :=
  (foldl_placed get step place g hg hstep (diesOf m) c s).trans (by simp only [mem_diesOf])

theorem State.die_modDie_eq (s : State) (d k : Nat) (f : Die → Die) :
    (s.modDie d f).die k = if k = d then f (s.die k) else s.die k := by
  by_cases hk : k = d
  · rw [if_pos hk, hk, State.die_modDie]
  · rw [if_neg hk, State.die_modDie_other _ _ _ _ hk]

/-- Listed dies that each change by an idempotent `f`. -/
theorem State.die_foldl_modDie (f : Nat → Die → Die) (hf : ∀ d x, f d (f d x) = f d x) (l : List Nat) (s : State) (k : Nat) :
    (l.foldl (fun s d => s.modDie d (f d)) s).die k = if k ∈ l then f k (s.die k) else s.die k :=
  foldl_placed State.die (fun s d => s.modDie d (f d)) id f hf (fun s d k => by
    rw [State.die_modDie_eq]
    by_cases hk : k = d
    · rw [if_pos hk, if_pos (show id k = d from hk), hk]
    · rw [if_neg hk, if_neg (show ¬ id k = d from hk)]) l k s

/-! ### The slots of dies (R264, R351, R357) -/

theorem State.thread_unlisted {s : State} {k : Nat} (h : k ∉ s.tids) : s.thread k = {} :=
  Tab.get_unlisted ({} : Thread) h

/-- What holds of a slot at reset holds of every slot, when it holds of every listed one. -/
theorem State.tids_all_iff {s : State} {p : Nat → Thread → Prop} (hp : ∀ k, p k {}) :
    (∀ k ∈ s.tids, p k (s.thread k)) ↔ ∀ k, p k (s.thread k) := by
  refine ⟨fun h k => ?_, fun h k _ => h k⟩
  by_cases hk : k ∈ s.tids
  · exact h k hk
  · rw [State.thread_unlisted hk]
    exact hp k

theorem State.dieFree_iff (s : State) (d : Nat) :
    s.dieFree d = true ↔ ∀ k, dieOf (coreOf k) = d → (s.thread k).life = .free := by
  rw [State.dieFree, List.all_eq_true, ← State.tids_all_iff (p := fun k x => dieOf (coreOf k) = d → x.life = .free)
    fun _ _ => rfl]
  simp only [ne_eq, Bool.or_eq_true, decide_eq_true_eq, Decidable.imp_iff_not_or]

theorem State.diesFree_iff (s : State) (m : BitVec 4) : (diesOf m).all s.dieFree = true ↔
    ∀ k, m.getLsbD (dieOf (coreOf k)) = true → (s.thread k).life = .free := by
  simp only [List.all_eq_true, State.dieFree_iff, mem_diesOf]
  exact ⟨fun h k hk => h _ hk k rfl, fun h d hd k hk => h k (hk ▸ hd)⟩

theorem State.dieOccupied_iff (s : State) (d : Nat) : s.dieOccupied d = true ↔
    ∃ k, dieOf (coreOf k) = d ∧ (s.thread k).life ≠ .free ∧ (s.thread k).life ≠ .suspended := by
  have h := State.tids_all_iff (s := s)
    (p := fun k x => ¬ (dieOf (coreOf k) = d ∧ x.life ≠ .free ∧ x.life ≠ .suspended)) fun _ h => h.2.1 rfl
  rw [State.dieOccupied, List.any_eq_true]
  simp only [Bool.and_eq_true, decide_eq_true_eq, and_assoc]
  refine ⟨fun ⟨k, _, hk⟩ => ⟨k, hk⟩, fun ⟨k, hk⟩ => ?_⟩
  by_contra hno
  exact h.mp (fun j hj hp => hno ⟨j, hj, hp⟩) k hk

theorem State.anyTask_eq_false_iff (s : State) : s.anyTask = false ↔ ∀ k, (s.thread k).life = .free := by
  rw [State.anyTask, List.any_eq_false, ← State.tids_all_iff (p := fun _ x => x.life = .free) fun _ => rfl]
  simp

/-! ### One partition (R351) -/

theorem State.part_eq {s : State} {q : Nat} (h : q < 4) : s.part q = s.pkg.parts[q] := dif_pos h

theorem State.modPart_eq {s : State} {q : Nat} (h : q < 4) (f : Partition → Partition) :
    s.modPart q f = { s with pkg := { s.pkg with parts := s.pkg.parts.set q (f s.pkg.parts[q]) } } := dif_pos h

theorem State.part_modPart {s : State} {q : Nat} (h : q < 4) (f : Partition → Partition) :
    (s.modPart q f).part q = f (s.part q) := by
  rw [State.modPart_eq h, State.part_eq h, State.part_eq h]
  exact Vector.getElem_set_self _

theorem State.part_modPart_other {s : State} {q r : Nat} (h : q < 4) (f : Partition → Partition) (hr : r ≠ q) :
    (s.modPart q f).part r = s.part r := by
  rw [State.modPart_eq h, State.part, State.part, Package.part, Package.part]
  split_ifs with hlt
  · exact Vector.getElem_set_ne h hlt hr.symm
  · rfl

theorem State.part_modPart_eq (s : State) (d q : Nat) {f : Partition → Partition} (hf : f {} = {}) :
    (s.modPart d f).part q = if q = d then f (s.part q) else s.part q := by
  by_cases hd : d < 4
  · by_cases hq : q = d
    · rw [hq, if_pos rfl, State.part_modPart hd]
    · rw [if_neg hq, State.part_modPart_other hd f hq]
  · have hsame : s.modPart d f = s := dif_neg hd
    rw [hsame]
    split_ifs with hq
    · have hnone : s.part q = {} := dif_neg (by omega)
      rw [hnone, hf]
    · rfl

/-- Partitions of a list that each change by an idempotent `f`. -/
theorem State.part_foldl_modPart {f : Partition → Partition} (hf : f {} = {}) (hidem : ∀ p, f (f p) = f p) (l : List Nat)
    (s : State) (q : Nat) : (l.foldl (fun s d => s.modPart d f) s).part q = if q ∈ l then f (s.part q) else s.part q :=
  foldl_placed State.part (fun s d => s.modPart d f) id (fun _ => f) (fun _ => hidem)
    (fun s d q => s.part_modPart_eq d q hf) l q s

/-- What no change of Selvedge touches, a change of a partition leaves alone. -/
theorem State.modPart_keeps {β : Type} (get : State → β) (hp : ∀ (s : State) p, get { s with pkg := p } = get s)
    (s : State) (q : Nat) (f : Partition → Partition) : get (s.modPart q f) = get s := by
  unfold State.modPart
  split_ifs
  · exact hp _ _
  · rfl

theorem State.part_of_parts {s t : State} (h : t.pkg.parts = s.pkg.parts) (q : Nat) : t.part q = s.part q := by
  simp only [State.part, Package.part, h]

theorem State.part_of_pkg {s t : State} (h : t.pkg = s.pkg) (q : Nat) : t.part q = s.part q :=
  State.part_of_parts (congrArg Package.parts h) q

end Sys2Proof.Machine
end

section
/-! Proofs, family 13 (package): the host's register writes and its memory and register windows (R349, R350, R359). -/

namespace Sys2Proof.Proofs

open Sys2Proof Sys2Proof.Machine Sys2Proof.Claim

/-! ### Register writes that the host may make (R349, R350) -/

section
variable {i : Instr} {s u : State} {fn off : Nat} {w : Wrote} (hmay : HostMay s fn off)
  (hx : exec i s = .next (s.store (.host fn) (pkgReg off) w))
include hmay hx

theorem hostWrite_acts (hw : w = { s := u }) : exec i s = .next (u.hostAnswer 0) := by
  have h : s.hostRefusal fn true (pkgReg off) = 0 := hmay
  rw [hx, State.store, h, hw]
  rfl

theorem hostWrite_sets {p : Package} (hw : w = { s := { s with pkg := p } }) :
    SetsPackage i s { p with hostStatus := 0 } := hostWrite_acts hmay hx hw

theorem hostWrite_refused (hw : w = refuse51 s) : SetsPackage i s { s.pkg with hostStatus := 2 } := by
  have h : s.hostRefusal fn true (pkgReg off) = 0 := hmay
  rw [SetsPackage, hx, State.store, h, hw]
  rfl

end

/-! ### The memory window (R349, R359) -/

theorem hostSize_iff (w : Bool) (off size : Nat) :
    hostSize w off size = true ↔ off % size = 0 ∧ (size ∈ [1, 2, 4, 8] ∨ size = 64 ∧ w = true) := by
  simp [hostSize, or_assoc]

section
variable {s : State} {fn off size pa q : Nat} {w : Bool} {data : List Byte}

theorem hostMemoryAccess_badSize (h : hostSize w off size = false) :
    SetsPackage (.hostMemoryAccess fn w off size data) s { s.pkg with hostStatus := 1 } := by
  have hbad : (!hostSize w off size || decide (fn ≥ 5)) = true := by rw [h]; rfl
  exact congrArg Host.Outcome.next (if_pos hbad)

variable (hfn : fn < 5) (hoff : off < 2 ^ 36)
include hfn hoff

/-- R349: an access of an accepted size below 2^36 is one through the memory window. -/
theorem hostMemoryAccess_window (h : hostSize w off size = true) : exec (.hostMemoryAccess fn w off size data) s =
    .next (if (s.pkg.stage = 0xFF || (fn ≠ 0 && (s.part (fn - 1)).tdi = 3)) = true then s.hostAnswer 1
      else s.hostMemory fn w off size data) := by
  have hgood : ¬ (!hostSize w off size || decide (fn ≥ 5)) = true := by simp [h, hfn]
  exact congrArg Host.Outcome.next
    ((if_neg hgood).trans ((if_neg (by omega)).trans (if_neg (by omega))))

theorem hostMemoryAccess_stopped (h : s.pkg.stage = 0xFF ∨ fn ≠ 0 ∧ (s.part (fn - 1)).tdi = 3) :
    SetsPackage (.hostMemoryAccess fn w off size data) s { s.pkg with hostStatus := 1 } := by
  cases hsize : hostSize w off size with
  | false => exact hostMemoryAccess_badSize hsize
  | true =>
    rw [SetsPackage, hostMemoryAccess_window hfn hoff hsize, if_pos (by simpa using h)]
    rfl

end

section
variable {s : State} {fn off size pa q : Nat} {w : Bool} {data : List Byte} (hserves : Serves s q pa size)
  (hkey : fn = 0 ∧ (s.part q).tdi = 0 ∨ fn = q + 1 ∧ (s.part q).tdi ≠ 3)
include hserves hkey

/-- R359: PF0 reaches an unlocked partition's memory, a VF its own. -/
theorem homeCheck_host (acc : Acc) (eva : Word) : s.homeCheck (.host fn) acc pa (fn - 1) eva = .ok s () := by
  obtain ⟨d, hd, halive, howner, -⟩ := hserves
  rcases hkey with ⟨rfl, htdi⟩ | ⟨rfl, -⟩
  · simp [State.homeCheck, hd, halive, howner, State.keyMay, htdi]
  · simp [State.homeCheck, hd, halive, howner, State.keyMay]

theorem homeLoad_host (acc : Acc) (eva : Word) :
    s.homeLoad (.host fn) acc pa size (fn - 1) eva = .ok s (s.mem.readBytes pa size) := by
  obtain ⟨hw, h2, -⟩ := plain_of_serves hserves
  have hcheck := homeCheck_host hserves hkey acc eva
  obtain ⟨-, -, -, -, -, hline, hn, hgood⟩ := hserves
  simp only [State.homeLoad, hcheck, Did.bind, homeReadAll_line hn hline hw h2, firstBad_none _ _ _ hgood]

/-- R104: no word is uncorrectable where the bytes are written, so that memory alone changes. -/
theorem homeStore_host (acc : Acc) (eva : Word) {bs : List Byte} (hlen : bs.length ≤ size) :
    s.homeStore (.host fn) acc pa (fn - 1) bs eva = .ok { s with mem := s.mem.writeBytes pa bs } () := by
  obtain ⟨hw, h2, hlost⟩ := plain_of_serves hserves
  have hcheck := homeCheck_host hserves hkey acc eva
  obtain ⟨-, -, -, -, -, hline, hn, hgood⟩ := hserves
  have hwhole : s.memBad.filter (fun w => w < pa + bs.length && pa < w + 8 && !(pa ≤ w && w + 8 ≤ pa + bs.length)) = [] := by
    rw [List.filter_eq_nil_iff]
    intro w hw
    have := hgood w hw
    simp only [Bool.and_eq_true, decide_eq_true_eq, not_and]
    omega
  have hheal : s.healMem pa bs.length = s := by
    have hkeep : s.memBad.filter (fun w => !(pa ≤ w && w + 8 ≤ pa + bs.length)) = s.memBad := by
      rw [List.filter_eq_self]
      intro w hw
      have := hgood w hw
      simp
      omega
    rw [State.healMem, hkeep]
  have hwrite : s.homeTouch pa bs.length = s ∧ s.homeWriteAll pa bs = { s with mem := s.mem.writeBytes pa bs } := by
    cases hbs : bs with
    | nil => exact ⟨rfl, rfl⟩
    | cons b r =>
      rw [← hbs]
      have hpos : 0 < bs.length := by rw [hbs]; exact Nat.succ_pos _
      refine ⟨homeTouch_line hpos (by omega) hw, ?_⟩
      rw [homeWriteAll_line hpos (by omega) hw h2 hlost, hheal]
  obtain ⟨htouch, hall⟩ := hwrite
  simp only [State.homeStore, hcheck, Did.bind, htouch, hwhole, hall]

variable (hfn : fn < 5) (hpa : pa = s.pkg.hmwin[fn].toNat * 2 ^ 36 + off) (hwatch : s.watched none pa size = false)
include hfn hpa hwatch

theorem hostMemory_served : s.hostMemory fn w off size data =
    if w then { s with mem := s.mem.writeBytes pa (data.take size), pkg := { s.pkg with hostStatus := 0 } }
    else { s with pkg := { s.pkg with hostStatus := 0, hostData := BitVec.ofNat 64 (le s.mem pa size) } } := by
  have hhome : hasHome pa = true := by
    obtain ⟨d, hd, -⟩ := hserves
    rw [hasHome, hd]; rfl
  have hload := homeLoad_host hserves hkey .load 0
  have hstore := homeStore_host hserves hkey .store 0 (List.length_take_le size data)
  have hle := leNat_readBytes s.mem size pa
  simp only [State.hostMemory, dif_pos hfn, ← hpa, hhome, hwatch, hload, hstore, readValue, hle]
  cases w <;> rfl

end

/-- R98: a store of eight bytes to a register that has no event of its own. -/
theorem exec_registerWrite (who : Who) (addr v : Word) (s : State) :
    exec (.registerWrite who addr (.double v)) s = .next (s.storeSized who addr 8 v) := rfl

theorem hostRegister_write {s : State} {fn off : Nat} {a : Word} {data : List Byte} (h : barAddr off = some a) :
    s.hostRegister fn true off 8 data = s.storeSized (.host fn) a 8 (BitVec.ofNat 64 (leNat (data.take 8))) := by
  have hsize : ¬ (decide (8 ≠ 4) && decide (8 ≠ 8)) = true := by decide
  rw [State.hostRegister, h]
  exact (if_neg hsize).trans (if_pos rfl)

/-- R349: a write of eight bytes through the register window, which begins at offset 2^37 (DESIGN CHOICE, log 12). -/
theorem hostMemoryAccess_register {s : State} {fn off : Nat} (v : Word) (hfn : fn < 5) (hoff : off < 0x4000000)
    (hal : off % 8 = 0) : exec (.hostMemoryAccess fn true (2 ^ 37 + off) 8 (leBytes 8 v.toNat)) s =
      exec (.registerWrite (.host fn) (pkgReg off) (.double v)) s := by
  obtain ⟨o, ho⟩ : ∃ o, o = 2 ^ 37 + off := ⟨_, rfl⟩
  rw [← ho]
  have hgood : ¬ (!hostSize true o 8 || decide (fn ≥ 5)) = true := by
    simp [hostSize, show o % 8 = 0 by omega, hfn]
  have hbar : barAddr (o - 2 ^ 37) = some (pkgReg off) := by
    rw [ho, Nat.add_sub_cancel_left, barAddr, if_pos hoff]; rfl
  have hval : BitVec.ofNat 64 (leNat ((leBytes 8 v.toNat).take 8)) = v := by
    rw [List.take_of_length_le (leBytes_length 8 _).le, leNat_leBytes,
      Nat.mod_eq_of_lt (show v.toNat < 256 ^ 8 from v.isLt), BitVec.ofNat_toNat,
      BitVec.setWidth_eq]
  have hregister : exec (.hostMemoryAccess fn true o 8 (leBytes 8 v.toNat)) s =
      .next (s.hostRegister fn true (o - 2 ^ 37) 8 (leBytes 8 v.toNat)) :=
    congrArg Host.Outcome.next ((if_neg hgood).trans (if_pos (by omega)))
  rw [hregister, hostRegister_write hbar, hval, exec_registerWrite]

end Sys2Proof.Proofs
end

section
/-! Proofs, family 13 (package): partitions are made, unmade and scrubbed (R357). -/

namespace Sys2Proof.Proofs

open Sys2Proof Sys2Proof.Machine Sys2Proof.Claim

/-! ### Partitions are made and unmade (R357) -/

theorem dies_setTop (v : Word) : (v ||| 1#64 <<< 63).extractLsb' 0 4 = v.extractLsb' 0 4 := by
  ext i hi
  have hne : i ≠ 63 := by omega
  simp only [BitVec.getElem_extractLsb', getLsbD_setFlag (n := 64) (l := 63) (by decide), Nat.zero_add, hne, decide_false,
    Bool.false_or]

theorem dies_clearTop (v : Word) : (v &&& ~~~(1#64 <<< 63)).extractLsb' 0 4 = v.extractLsb' 0 4 := by
  ext i hi
  have hne : i ≠ 63 := by omega
  simp only [BitVec.getElem_extractLsb', getLsbD_clearFlag, Nat.zero_add, ne_eq, hne, not_false_eq_true, decide_true,
    Bool.true_and]

theorem top_setTop (v : Word) : (v ||| 1#64 <<< 63).getLsbD 63 = true := by
  rw [getLsbD_setFlag (by decide), decide_eq_true rfl, Bool.true_or]

theorem top_clearTop (v : Word) : (v &&& ~~~(1#64 <<< 63)).getLsbD 63 = false := by
  rw [getLsbD_clearFlag]; rfl

theorem mayCreate_iff (s : State) (q : Nat) (dies : BitVec 4) : s.mayCreate q dies = true ↔
    dies ≠ 0 ∧ (s.part q).tdi = 0 ∧ (∀ k, dies.getLsbD (dieOf (coreOf k)) = true → (s.thread k).life = .free) ∧
    ∀ r, (hr : r < 4) → r ≠ q → s.pkg.parts[r].en = true → s.pkg.parts[r].dies &&& dies = 0 := by
  have hclash : (List.range 4).all (fun r => r = q || !(s.part r).en || (s.part r).dies &&& dies = 0) = true ↔
      ∀ r, (hr : r < 4) → r ≠ q → s.pkg.parts[r].en = true → s.pkg.parts[r].dies &&& dies = 0 := by
    rw [List.all_eq_true]
    refine forall_congr' fun r => ?_
    rw [List.mem_range]
    refine forall_congr' fun hr => ?_
    rw [State.part_eq hr]
    simp only [Bool.or_eq_true, decide_eq_true_eq, Bool.not_eq_true', or_assoc, ne_eq, Decidable.imp_iff_not_or,
      Decidable.not_not, Bool.not_eq_true]
  simp only [State.mayCreate, Bool.and_eq_true, State.diesFree_iff, hclash, decide_eq_true_eq, and_assoc]

section
variable {s : State} {q : Nat} (fn : Nat) (v : Word)

theorem writePcfg_busy (x : Word) (hbusy : (s.part q).busy = true) : s.writePcfg (.host fn) q x = refuse51 s := by
  rw [State.writePcfg, hbusy]; rfl

variable (hbusy : (s.part q).busy = false)
include hbusy

/-- R357: a create is accepted when R357's checks hold. -/
theorem writePcfg_create (hq : q < 4) (hen : (s.part q).en = false) : s.writePcfg (.host fn) q (v ||| 1#64 <<< 63) =
    if s.mayCreate q (v.extractLsb' 0 4) = true then { s := { s with pkg := { s.pkg with
      parts := s.pkg.parts.set q { s.pkg.parts[q] with en := true, dies := v.extractLsb' 0 4, busy := true, work := 1 } } } }
    else refuse51 s := by
  simp only [State.writePcfg, isHost, hbusy, hen, dies_setTop, top_setTop, State.modPart_eq hq]
  rfl

variable (hen : (s.part q).en = true)
include hen

/-- R357: a destroy names the partition's dies, whose slots are free. -/
theorem writePcfg_destroy (hq : q < 4) (htdi : (s.part q).tdi = 0) (hdies : v.extractLsb' 0 4 = (s.part q).dies)
    (hfree : (diesOf (s.part q).dies).all s.dieFree = true) : s.writePcfg (.host fn) q (v &&& ~~~(1#64 <<< 63)) =
      { s := { s with pkg := { s.pkg with
        parts := s.pkg.parts.set q { s.pkg.parts[q] with en := false, busy := true, work := 2 } } } } := by
  simp only [State.writePcfg, isHost, hbusy, hen, dies_clearTop, top_clearTop, htdi, hdies, hfree, State.modPart_eq hq,
    ne_eq, not_true_eq_false, if_false]
  rfl

theorem writePcfg_destroy_refused (hbad : (s.part q).tdi ≠ 0 ∨ v.extractLsb' 0 4 ≠ (s.part q).dies ∨
    ¬ (diesOf (s.part q).dies).all s.dieFree = true) :
    s.writePcfg (.host fn) q (v &&& ~~~(1#64 <<< 63)) = refuse51 s := by
  simp only [State.writePcfg, isHost, hbusy, hen, dies_clearTop, top_clearTop]
  by_cases hdies : v.extractLsb' 0 4 = (s.part q).dies
  · have hno : (decide ((s.part q).tdi ≠ 0) || !(diesOf (s.part q).dies).all s.dieFree) = true := by
      rcases hbad with h | h | h
      · rw [decide_eq_true h, Bool.true_or]
      · exact absurd hdies h
      · rw [Bool.eq_false_iff.mpr h, Bool.not_false, Bool.or_true]
    rw [if_neg (by decide), if_true, if_neg (not_not.mpr hdies), if_neg Bool.false_ne_true, if_pos hno]
  · rw [if_neg (by decide), if_true, if_pos hdies]

end

/-! ### The end of a scrub (R357) -/

/-- A core whose SRAM is zeroed. -/
def zeroedCore (x : Core) : Core :=
  { x with scratch := {}, scratchBad := [], acc := {}, accBad := [], bstack := {}, bstackBad := [] }

/-- A cluster whose storage is at reset (DEDUCED, log 13). -/
def zeroedCluster (x : Cluster) : Cluster :=
  { x with
    bars := {}, cells := {}, joins := {}, sets := {}, retired := {}, binds := {}, poisoned := [], stopped := false
    entering := [], queues := Vector.replicate 4 [], used := 0, ranAt := none, nb7 := none, published := false, pubP := 0
    pubFull := false, pubD := 0xFF, pubDloc := 0xFF }

theorem core_zeroSram (s : State) (d c : Nat) :
    (s.zeroSram d).core c = if dieOf c = d then zeroedCore (s.core c) else s.core c :=
  Tab.get_each s.cores (fun c x => if dieOf c = d then zeroedCore x else x) {} c (ite_self _)

theorem cluster_zeroSram (s : State) (d c : Nat) :
    (s.zeroSram d).cluster c = if c / 8 = d then zeroedCluster (s.cluster c) else s.cluster c :=
  Tab.get_each s.clusters (fun c x => if c / 8 = d then zeroedCluster x else x) {} c (ite_self _)

theorem die_zeroSram (s : State) (d k : Nat) :
    (s.zeroSram d).die k = if k = d then { s.die k with rdc := {}, container := {} } else s.die k :=
  State.die_modDie_eq _ d k _

section
variable (s : State) (m : BitVec 4)

theorem core_zeroSrams (c : Nat) : ((diesOf m).foldl State.zeroSram s).core c =
    if m.getLsbD (dieOf c) = true then zeroedCore (s.core c) else s.core c :=
  foldl_diesOf State.core State.zeroSram dieOf (fun _ => zeroedCore) (fun _ _ => rfl) core_zeroSram m c s

theorem cluster_zeroSrams (c : Nat) : ((diesOf m).foldl State.zeroSram s).cluster c =
    if m.getLsbD (c / 8) = true then zeroedCluster (s.cluster c) else s.cluster c :=
  foldl_diesOf State.cluster State.zeroSram (· / 8) (fun _ => zeroedCluster) (fun _ _ => rfl) cluster_zeroSram m c s

theorem part_zeroSrams (d : Nat) : (((diesOf m).foldl State.zeroSram s).die d).part = (s.die d).part := by
  refine foldl_keeps (fun s => (State.die s d).part) State.zeroSram (fun s e => ?_) _ s
  rw [die_zeroSram]
  split_ifs <;> rfl

/-- R264, R357: the dies of a set belong to partition `q`. -/
def handDies (q : Nat) : State := (diesOf m).foldl (fun s d => s.modDie d fun x => { x with part := q }) s

theorem die_handDies (q d : Nat) :
    (handDies s m q).die d = if m.getLsbD d = true then { s.die d with part := q } else s.die d :=
  (State.die_foldl_modDie (fun _ x => { x with part := q }) (fun _ _ => rfl) (diesOf m) s d).trans
    (by simp only [mem_diesOf])

theorem handDies_keeps {β : Type} (get : State → β) (h : ∀ s d x, get (s.setDie d x) = get s) (q : Nat) :
    get (handDies s m q) = get s :=
  foldl_keeps get (fun s d => s.modDie d fun x => { x with part := q }) (fun s d => h s d _) _ s

/-- A scrub changes memory alone. -/
theorem scrub_keeps {β : Type} (get : State → β)
    (h : ∀ (s : State) m b k, get { s with mem := m, memBad := b, tierKeys := k } = get s) (q : Nat) :
    get (s.scrub q) = get s := by
  have hfold : get ((diesOf (s.part q).dies).foldl (fun s d => s.zeroMemory (0x6000000000 * d) 0x6000000000) s) = get s :=
    foldl_keeps get (fun s d => s.zeroMemory (0x6000000000 * d) 0x6000000000) (fun s _ => h s _ _ _) _ s
  unfold State.scrub
  dsimp only
  split_ifs
  · exact (h _ _ _ _).trans ((h _ _ _ _).trans hfold)
  · exact hfold

theorem read_zeroMemories (a : Nat) :
    ((diesOf m).foldl (fun s d => s.zeroMemory (0x6000000000 * d) 0x6000000000) s).mem.read a =
      if (homeDie a).any m.getLsbD = true then 0 else s.mem.read a := by
  have hread := foldl_diesOf (fun s a => s.mem.read a) (fun s d => s.zeroMemory (0x6000000000 * d) 0x6000000000)
    (· / 0x6000000000) (fun _ _ => 0) (fun _ _ => rfl) (fun s d a => by
      have hplace : (0x6000000000 * d ≤ a ∧ a < 0x6000000000 * d + 0x6000000000) ↔ a / 0x6000000000 = d := by omega
      simp only [State.zeroMemory, Memory.read_zero, hplace]) m a s
  have hhome : (homeDie a).any m.getLsbD = m.getLsbD (a / 0x6000000000) := by
    unfold homeDie
    split_ifs with h
    · rfl
    · exact (BitVec.getLsbD_of_ge m _ (by omega)).symm
  rw [hread, hhome]

/-- R357: memory of the partition's dies reads zero when it has been scrubbed. -/
theorem read_scrub {q : Nat} (hstr : (s.part q).strEn = false) (a : Nat) :
    (s.scrub q).mem.read a = if (homeDie a).any (s.part q).dies.getLsbD = true then 0 else s.mem.read a := by
  rw [← read_zeroMemories]
  unfold State.scrub
  dsimp only
  rw [hstr]
  rfl

end

/-- The dies of partition `q` with their SRAM zeroed, its own unless it is destroyed. -/
def scrubbedSram (s : State) (q : Nat) (p : Partition) : State :=
  (diesOf p.dies).foldl State.zeroSram (if p.work = 2 then s else handDies s p.dies q)

/-- The same with their memory scrubbed, unless the partition is destroyed. -/
def scrubbedAll (s : State) (q : Nat) (p : Partition) : State :=
  if p.work = 2 then scrubbedSram s q p else (scrubbedSram s q p).scrub q

section
variable (s : State) (q : Nat) (p : Partition)

theorem scrubbedSram_keeps {β : Type} (get : State → β) (hd : ∀ s d x, get (s.setDie d x) = get s)
    (hz : ∀ s d, get (s.zeroSram d) = get s) : get (scrubbedSram s q p) = get s := by
  rw [scrubbedSram, foldl_keeps get State.zeroSram hz]
  split_ifs
  · rfl
  · exact handDies_keeps s p.dies get hd q

theorem scrubbedAll_keeps {β : Type} (get : State → β)
    (hm : ∀ (s : State) m b k, get { s with mem := m, memBad := b, tierKeys := k } = get s) :
    get (scrubbedAll s q p) = get (scrubbedSram s q p) := by
  unfold scrubbedAll
  split_ifs
  · rfl
  · exact scrub_keeps _ get hm q

theorem threads_scrubbedAll : (scrubbedAll s q p).threads = s.threads :=
  (scrubbedAll_keeps s q p State.threads fun _ _ _ _ => rfl).trans
    (scrubbedSram_keeps s q p State.threads (fun _ _ _ => rfl) fun _ _ => rfl)

theorem pkg_scrubbedAll : (scrubbedAll s q p).pkg = s.pkg :=
  (scrubbedAll_keeps s q p State.pkg fun _ _ _ _ => rfl).trans
    (scrubbedSram_keeps s q p State.pkg (fun _ _ _ => rfl) fun _ _ => rfl)

theorem core_scrubbedAll (c : Nat) : (scrubbedAll s q p).core c =
    if p.dies.getLsbD (dieOf c) = true then zeroedCore (s.core c) else s.core c := by
  have hhanded : (if p.work = 2 then s else handDies s p.dies q).core c = s.core c := by
    split_ifs
    · rfl
    · exact handDies_keeps s p.dies (State.core · c) (fun _ _ _ => rfl) q
  rw [scrubbedAll_keeps s q p (State.core · c) fun _ _ _ _ => rfl, scrubbedSram, core_zeroSrams, hhanded]

theorem cluster_scrubbedAll (c : Nat) : (scrubbedAll s q p).cluster c =
    if p.dies.getLsbD (c / 8) = true then zeroedCluster (s.cluster c) else s.cluster c := by
  have hhanded : (if p.work = 2 then s else handDies s p.dies q).cluster c = s.cluster c := by
    split_ifs
    · rfl
    · exact handDies_keeps s p.dies (State.cluster · c) (fun _ _ _ => rfl) q
  rw [scrubbedAll_keeps s q p (State.cluster · c) fun _ _ _ _ => rfl, scrubbedSram, cluster_zeroSrams, hhanded]

theorem part_scrubbedAll (hwork : p.work ≠ 2) {d : Nat} (hd : p.dies.getLsbD d = true) :
    ((scrubbedAll s q p).die d).part = q := by
  rw [scrubbedAll_keeps s q p (fun s => (s.die d).part) fun _ _ _ _ => rfl, scrubbedSram, part_zeroSrams, if_neg hwork,
    die_handDies, if_pos hd]

theorem mem_scrubbedSram : (scrubbedSram s q p).mem = s.mem :=
  scrubbedSram_keeps s q p State.mem (fun _ _ _ => rfl) fun _ _ => rfl

theorem mem_scrubbedAll_destroyed (hwork : p.work = 2) : (scrubbedAll s q p).mem = s.mem := by
  rw [scrubbedAll, if_pos hwork, mem_scrubbedSram]

theorem read_scrubbedAll (hwork : p.work ≠ 2) (hdies : (s.part q).dies = p.dies) (hstr : (s.part q).strEn = false)
    (a : Nat) : (scrubbedAll s q p).mem.read a = if (homeDie a).any p.dies.getLsbD = true then 0 else s.mem.read a := by
  have hpart : (scrubbedSram s q p).part q = s.part q :=
    scrubbedSram_keeps s q p (State.part · q) (fun _ _ _ => rfl) fun _ _ => rfl
  rw [scrubbedAll, if_neg hwork, read_scrub _ (by rw [hpart, hstr]), hpart, hdies, mem_scrubbedSram]

end

/-- R409: the trigger state of a partition that is destroyed or stopped is cleared. -/
def unlessCreated (s : State) (q : Nat) (p : Partition) : State := if p.work = 1 then s else s.clearTriggers q

theorem unlessCreated_frame (s : State) (q : Nat) (p : Partition) :
    unlessCreated s q p = { s with trg := (unlessCreated s q p).trg } := by
  unfold unlessCreated
  split_ifs <;> rfl

/-- R357: a new key is drawn. -/
def rekeyed (p : Partition) : Partition := { p with keyGen := p.keyGen + 1 }

/-- R357, R360: BUSY clears, and a stopped interface is unlocked. -/
def settledPart (p : Partition) : Partition := { p with busy := false, work := 0, tdi := if p.work = 3 then 0 else p.tdi }

section
variable {s : State} {q : Nat}

theorem partitionScrubDone_idle (h : (s.part q).busy = false) : exec (.partitionScrubDone q) s = .next s :=
  if_pos (by rw [h]; rfl)

theorem partitionScrubDone_busy (h : (s.part q).busy = true) : exec (.partitionScrubDone q) s =
    .next ((unlessCreated (scrubbedAll (s.modPart q rekeyed) q (s.part q)) q (s.part q)).modPart q settledPart) :=
  if_neg (by rw [h]; decide)

/-- R357: what the scrub leaves, and what it leaves alone. -/
theorem partitionScrubDone_scrubs (hq : q < 4) (hbusy : (s.part q).busy = true) : ∃ t,
    exec (.partitionScrubDone q) s = .next t ∧ t.threads = s.threads ∧ t.part q = settledPart (rekeyed (s.part q)) ∧
    (∀ r, r ≠ q → t.part r = s.part r) ∧
    (∀ c, t.core c = if (s.part q).dies.getLsbD (dieOf c) = true then zeroedCore (s.core c) else s.core c) ∧
    (∀ c, t.cluster c = if (s.part q).dies.getLsbD (c / 8) = true then zeroedCluster (s.cluster c) else s.cluster c) ∧
    ((s.part q).work ≠ 2 → ∀ d, (s.part q).dies.getLsbD d = true → (t.die d).part = q) ∧
    ((s.part q).work = 2 → t.mem = s.mem) ∧
    ((s.part q).work ≠ 2 → (s.part q).strEn = false → ∀ a, t.mem.read a =
      if (homeDie a).any (s.part q).dies.getLsbD then 0 else s.mem.read a) := by
  have hkeyed := State.part_modPart hq (s := s) rekeyed
  have hpart (r : Nat) : (unlessCreated (scrubbedAll (s.modPart q rekeyed) q (s.part q)) q (s.part q)).part r =
      (s.modPart q rekeyed).part r := by
    rw [unlessCreated_frame]
    exact State.part_of_pkg (pkg_scrubbedAll _ _ _) r
  have hframe : s.modPart q rekeyed = { s with pkg := (s.modPart q rekeyed).pkg } := by rw [State.modPart_eq hq]
  refine ⟨_, partitionScrubDone_busy hbusy, ?_, ?_, fun r hr => ?_, ?_⟩
  · rw [State.modPart_eq hq, unlessCreated_frame]
    exact (threads_scrubbedAll _ _ _).trans (by rw [hframe])
  · rw [State.part_modPart hq, hpart, hkeyed]
  · rw [State.part_modPart_other hq _ hr, hpart, State.part_modPart_other hq _ hr]
  rw [State.modPart_eq hq (s := unlessCreated _ _ _), unlessCreated_frame]
  refine ⟨fun c => ?_, fun c => ?_, fun hwork d hd => part_scrubbedAll _ q _ hwork hd, fun hwork => ?_,
    fun hwork hstr a => ?_⟩
  · exact (core_scrubbedAll _ q (s.part q) c).trans (by rw [hframe]; rfl)
  · exact (cluster_scrubbedAll _ q (s.part q) c).trans (by rw [hframe]; rfl)
  · exact (mem_scrubbedAll_destroyed _ q _ hwork).trans (by rw [hframe])
  · exact (read_scrubbedAll _ q _ hwork (by rw [hkeyed]; rfl) (by rw [hkeyed]; exact hstr) a).trans (by rw [hframe])

end

end Sys2Proof.Proofs
end

section
/-! Proofs, family 13 (package): trusted interfaces, SPDM and pairing (R360, R361, R386), and what the host reaches. -/

namespace Sys2Proof.Proofs

open Sys2Proof Sys2Proof.Machine Sys2Proof.Claim

/-! ### Trusted interfaces (R360) -/

section
variable {s : State} {q : Nat}

theorem outside_session (h : s.pkg.sessions = 0) (r : State) : s.inSession r = s := if_pos h

theorem inside_session (h : s.pkg.sessions ≠ 0) (r : State) : s.inSession r = r := if_neg h

/-- R360: outside a session a TDISP message does nothing. -/
theorem tdisp_outside_session (h : s.pkg.sessions = 0) : ∀ i ∈ [Instr.lockInterfaceRequest q, .startInterfaceRequest q,
    .stopInterfaceRequest q, .getTdispVersion q, .getTdispCapabilities q, .getDeviceInterfaceReport q,
    .getDeviceInterfaceState q], exec i s = .next s := by
  have hout (r : State) : Host.Outcome.next (s.inSession r) = (Host.Outcome.next s : Out) :=
    congrArg _ (outside_session h r)
  simp only [List.forall_mem_cons]
  exact ⟨hout _, hout _, hout _, hout _, hout _, hout _, hout _, fun _ hi => absurd hi List.not_mem_nil⟩

/-- The event has partition `q` become `x`, and the host see a reply without data. -/
def Enters (i : Instr) (s : State) (q : Nat) (h : q < 4) (kind : Nat) (x : Partition) : Prop :=
  SetsPackage i s { s.pkg with
    parts := s.pkg.parts.set q x, replies := s.pkg.replies ++ [{ kind := kind, status := 0 }] }

theorem enters_of_modPart {i : Instr} {kind : Nat} {f : Partition → Partition} (hq : q < 4)
    (hx : exec i s = .next ((s.modPart q f).tdispReply kind 0 [])) : Enters i s q hq kind (f (s.part q)) := by
  rw [State.modPart_eq hq, ← State.part_eq hq] at hx
  exact hx

variable (hin : s.pkg.sessions ≠ 0)
include hin

theorem lockInterface_locks (hq : q < 4) (hen : (s.part q).en = true) (hbusy : (s.part q).busy = false)
    (htdi : (s.part q).tdi = 0) :
    Enters (.lockInterfaceRequest q) s q hq 0x13 { s.part q with tdi := 1 } := by
  refine enters_of_modPart (f := fun p => { p with tdi := 1 }) hq
    ((congrArg Host.Outcome.next (inside_session hin _)).trans ?_)
  rw [if_pos (by rw [hen, hbusy, htdi]; rfl)]

theorem lockInterface_refused (h : (s.part q).en = false ∨ (s.part q).busy = true ∨ (s.part q).tdi ≠ 0) :
    Replies (.lockInterfaceRequest q) s 0x13 1 [] := by
  refine (congrArg Host.Outcome.next (inside_session hin _)).trans ?_
  rw [if_neg ?_]
  · rfl
  · rcases h with h | h | h
    · simp [h]
    · simp [h]
    · simpa using fun _ _ => h

theorem startInterface_starts (hq : q < 4) (htdi : (s.part q).tdi = 1) :
    Enters (.startInterfaceRequest q) s q hq 0x14 { s.part q with tdi := 2 } := by
  refine enters_of_modPart (f := fun p => { p with tdi := 2 }) hq
    ((congrArg Host.Outcome.next (inside_session hin _)).trans ?_)
  rw [if_pos htdi]

theorem startInterface_refused (htdi : (s.part q).tdi ≠ 1) : Replies (.startInterfaceRequest q) s 0x14 1 [] := by
  refine (congrArg Host.Outcome.next (inside_session hin _)).trans ?_
  rw [if_neg htdi]
  rfl

theorem stopInterface_refused (h : (s.part q).tdi = 0 ∨ (s.part q).busy = true) :
    Replies (.stopInterfaceRequest q) s 0x15 1 [] := by
  refine (congrArg Host.Outcome.next (inside_session hin _)).trans ?_
  rw [if_neg (by rcases h with h | h <;> simp [h])]
  rfl

theorem tdisp_openReply : ∀ i k, (i, k) ∈ [(Instr.getTdispVersion q, 0x10), (.getTdispCapabilities q, 0x11)] →
    ∃ data : List Byte, data.length = 8 ∧ exec i s = .next { s with
      free := s.free + 1
      pkg := { s.pkg with replies := s.pkg.replies ++ [{ kind := k, status := 0, data := data }] } } := by
  have hopen (k : Nat) : Host.Outcome.next (s.inSession (s.openReply k)) = (Host.Outcome.next (s.openReply k) : Out) :=
    congrArg _ (inside_session hin _)
  intro i k hi
  simp only [List.mem_cons, Prod.mk.injEq, List.not_mem_nil, or_false] at hi
  rcases hi with ⟨rfl, rfl⟩ | ⟨rfl, rfl⟩
  · exact ⟨_, leBytes_length 8 _, hopen 0x10⟩
  · exact ⟨_, leBytes_length 8 _, hopen 0x11⟩

/-- R351, R360: the report names the partition's dies, features and windows. -/
theorem interfaceReport_replies : Replies (.getDeviceInterfaceReport q) s 0x12 0 (BitVec.ofNat 8 (s.part q).dies.toNat ::
    ([0x3DF73F7FFF7F07FF, 0x1F, 0x100004000001, (s.part q).facc0.toNat, (s.part q).facc1.toNat, 0x8000000, 0x1000000000,
      (s.part q).strBase + (if (s.part q).strEn then 0x8000 else 0) + (s.part q).strLimit * 2 ^ 32].flatMap (leBytes 8))) := by
  have hbytes : s.interfaceReport q = BitVec.ofNat 8 (s.part q).dies.toNat ::
      ([0x3DF73F7FFF7F07FF, 0x1F, 0x100004000001, (s.part q).facc0.toNat, (s.part q).facc1.toNat, 0x8000000, 0x1000000000,
        (s.part q).strBase + (if (s.part q).strEn then 0x8000 else 0) + (s.part q).strLimit * 2 ^ 32].flatMap (leBytes 8)) := by
    simp only [State.interfaceReport, List.flatMap_cons, List.flatMap_nil, List.append_nil, List.append_assoc]
    rfl
  rw [← hbytes]
  exact congrArg Host.Outcome.next (inside_session hin _)

theorem interfaceState_replies : Replies (.getDeviceInterfaceState q) s 0x16 0 [BitVec.ofNat 8 (s.part q).tdi.toNat] :=
  congrArg Host.Outcome.next (inside_session hin _)

end

/-! ### A stopped interface (R360) -/

section
variable (s : State) (m : BitVec 4)

/-- The partition's dies with their slots freed and their work discarded. -/
def discarded : State := (diesOf m).foldl State.discardWork s

theorem thread_discardWork (s : State) (d k : Nat) :
    (s.discardWork d).thread k = if dieOf (coreOf k) = d then {} else s.thread k := by
  refine (Tab.get_only s.threads (fun t => !decide (dieOf (coreOf t) = d)) ({} : Thread) k).trans ?_
  by_cases h : dieOf (coreOf k) = d
  · rw [if_neg (by simp [h]), if_pos h]
  · rw [if_pos (by simp [h]), if_neg h]; rfl

theorem thread_discarded (k : Nat) :
    (discarded s m).thread k = if m.getLsbD (dieOf (coreOf k)) = true then {} else s.thread k :=
  foldl_diesOf State.thread State.discardWork (fun k => dieOf (coreOf k)) (fun _ _ => {}) (fun _ _ => rfl)
    thread_discardWork m k s

theorem reqs_discardWork (s : State) (d : Nat) (r : Request) :
    (r ∈ (s.discardWork d).reqs) = if dieOf (coreOf r.tid) = d then False else r ∈ s.reqs := by
  have hmem : r ∈ (s.discardWork d).reqs ↔ r ∈ s.reqs ∧ (!decide (dieOf (coreOf r.tid) = d)) = true := List.mem_filter
  rw [propext hmem]
  by_cases h : dieOf (coreOf r.tid) = d <;> simp [h]

theorem reqs_discarded (r : Request) : (r ∈ (discarded s m).reqs) =
    if m.getLsbD (dieOf (coreOf r.tid)) = true then False else r ∈ s.reqs :=
  foldl_diesOf (fun s r => r ∈ s.reqs) State.discardWork (fun r => dieOf (coreOf r.tid)) (fun _ _ => False)
    (fun _ _ => rfl) reqs_discardWork m r s

theorem mem_discarded : (discarded s m).mem = s.mem :=
  foldl_keeps State.mem State.discardWork (fun _ _ => rfl) _ s

theorem pkg_discarded : (discarded s m).pkg = s.pkg :=
  foldl_keeps State.pkg State.discardWork (fun _ _ => rfl) _ s

end

/-- R360: a partition that is stopped is scrubbed. -/
def stopped (p : Partition) : Partition := { p with busy := true, work := 3 }

theorem stopInterface_stops {s : State} {q : Nat} (hin : s.pkg.sessions ≠ 0) (hq : q < 4) (htdi : (s.part q).tdi ≠ 0)
    (hbusy : (s.part q).busy = false) : ∃ t, exec (.stopInterfaceRequest q) s = .next t ∧ t.mem = s.mem ∧
      t.part q = { s.part q with busy := true, work := 3 } ∧
      t.pkg.replies = s.pkg.replies ++ [{ kind := 0x15, status := 0 }] ∧
      (∀ k, (s.part q).dies.getLsbD (dieOf (coreOf k)) = true → (t.thread k).life = .free) ∧
      (∀ k, (s.part q).dies.getLsbD (dieOf (coreOf k)) = false → t.thread k = s.thread k) ∧
      ∀ r ∈ t.reqs, r ∈ s.reqs ∧ (s.part q).dies.getLsbD (dieOf (coreOf r.tid)) = false := by
  have hpkg := pkg_discarded s (s.part q).dies
  refine ⟨((discarded s (s.part q).dies).modPart q stopped).tdispReply 0x15 0 [], ?_, ?_, ?_, ?_, fun k hk => ?_,
    fun k hk => ?_, fun r hr => ?_⟩
  · refine (congrArg Host.Outcome.next (inside_session hin _)).trans ?_
    rw [if_pos (by rw [hbusy, decide_eq_true htdi]; rfl)]
    rfl
  · rw [State.modPart_eq hq]
    exact mem_discarded s _
  · exact (State.part_modPart hq stopped).trans (congrArg stopped (State.part_of_pkg hpkg q))
  · rw [State.modPart_eq hq]
    exact congrArg (·.replies ++ _) hpkg
  · rw [State.modPart_eq hq]
    refine congrArg Thread.life ((thread_discarded s _ k).trans (if_pos hk))
  · rw [State.modPart_eq hq]
    exact (thread_discarded s _ k).trans (if_neg (by rw [hk]; decide))
  · rw [State.modPart_eq hq] at hr
    have hmem : r ∈ (discarded s (s.part q).dies).reqs := hr
    rw [reqs_discarded] at hmem
    split_ifs at hmem with h
    exact ⟨hmem, Bool.eq_false_iff.mpr h⟩

/-- R360: a link integrity failure or a function reset puts the interface in ERROR. -/
theorem interface_fails {s : State} {q : Nat} (hq : q < 4) : ∀ i ∈ [Instr.ideIntegrityFailure q, .functionLevelReset q],
    SetsPackage i s { s.pkg with parts := s.pkg.parts.set q { s.pkg.parts[q] with tdi := 3 } } := by
  have hset : s.modPart q (fun p => { p with tdi := 3 }) = { s with
      pkg := { s.pkg with parts := s.pkg.parts.set q { s.pkg.parts[q] with tdi := 3 } } } := State.modPart_eq hq _
  simp only [List.forall_mem_cons]
  exact ⟨congrArg Host.Outcome.next hset, congrArg Host.Outcome.next hset, fun _ hi => absurd hi List.not_mem_nil⟩

/-! ### SPDM (R361, R362) -/

section
variable {s : State} (rq : SpdmRequest)

/-- R361: nothing answers before the ROM has run. -/
theorem spdm_unanswered (h : s.pkg.stage = 1) :
    ∀ i ∈ [Instr.spdmCert rq, .spdmChal rq, .spdmMeas rq, .spdmKeyEx rq], exec i s = .next s := by
  have hno : s.spdmAnswers = false := by simp [State.spdmAnswers, h]
  have hreply (kind : Nat) (facts : List Byte) (offered : Bool) : s.spdmReply kind rq facts offered = s :=
    if_pos (by rw [hno]; rfl)
  have hkey : (if s.spdmAnswers then (s.spdmReply 4 rq (s.slotFacts rq.index) true).modPkg
      (fun p => { p with sessions := p.sessions + 1 }) else s.spdmReply 4 rq (s.slotFacts rq.index) true) = s := by
    rw [hno, if_neg Bool.false_ne_true, hreply]
  simp only [List.forall_mem_cons]
  exact ⟨congrArg Host.Outcome.next (hreply _ _ _), congrArg Host.Outcome.next (hreply _ _ _),
    congrArg Host.Outcome.next (hreply _ _ _), congrArg Host.Outcome.next hkey, fun _ hi => absurd hi List.not_mem_nil⟩

variable (h : s.pkg.stage ≠ 1)
include h

theorem spdmAnswers_of_stage : s.spdmAnswers = true := decide_eq_true h

/-- R361: what is offered is answered, and what is not offered is refused. -/
theorem spdmReply_answers {i : Instr} {kind : Nat} {facts : List Byte} {b : Bool} {offered : Prop}
    (hx : exec i s = .next (s.spdmReply kind rq facts b)) (hb : b = true ↔ offered) :
    (offered → ∃ data, Replies i s kind 0 data) ∧ (¬ offered → Replies i s kind 1 []) := by
  have hyes : ¬ (!s.spdmAnswers) = true := by rw [spdmAnswers_of_stage h]; decide
  rw [State.spdmReply, if_neg hyes] at hx
  refine ⟨fun ho => ⟨Config.spdmReply kind rq.index rq.nonce facts, ?_⟩, fun ho => ?_⟩
  · rw [if_pos (hb.mpr ho)] at hx
    exact hx
  · rw [if_neg (mt hb.mp ho)] at hx
    exact hx

theorem spdm_answers : ∀ i k (offered : Prop), (i, k, offered) ∈ [(Instr.spdmCert rq, 1, rq.index < 2),
      (.spdmChal rq, 2, rq.index < 2), (.spdmMeas rq, 3, 1 ≤ rq.index ∧ rq.index ≤ 3 ∨ 0x10 ≤ rq.index ∧ rq.index ≤ 0x13)] →
    (offered → ∃ data, Replies i s k 0 data) ∧ (¬ offered → Replies i s k 1 []) := by
  have hslot : decide (rq.index < 2) = true ↔ rq.index < 2 := decide_eq_true_iff
  have hindex : ((1 ≤ rq.index && rq.index ≤ 3) || (0x10 ≤ rq.index && rq.index < 0x14)) = true ↔
      1 ≤ rq.index ∧ rq.index ≤ 3 ∨ 0x10 ≤ rq.index ∧ rq.index ≤ 0x13 := by
    simp only [Bool.or_eq_true, Bool.and_eq_true, decide_eq_true_eq, Nat.lt_succ_iff]
  intro i k offered hi
  simp only [List.mem_cons, Prod.mk.injEq, List.not_mem_nil, or_false] at hi
  rcases hi with ⟨rfl, rfl, rfl⟩ | ⟨rfl, rfl, rfl⟩ | ⟨rfl, rfl, rfl⟩
  · exact spdmReply_answers rq h rfl hslot
  · exact spdmReply_answers rq h rfl hslot
  · exact spdmReply_answers rq h rfl hindex

/-- R361: a key exchange opens a session. -/
theorem spdmKeyEx_opens : ∃ data, SetsPackage (.spdmKeyEx rq) s { s.pkg with
    sessions := s.pkg.sessions + 1, replies := s.pkg.replies ++ [{ kind := 4, status := 0, data := data }] } := by
  have hans := spdmAnswers_of_stage h
  have hreply : s.spdmReply 4 rq (s.slotFacts rq.index) true =
      s.tdispReply 4 0 (Config.spdmReply 4 rq.index rq.nonce (s.slotFacts rq.index)) := by
    rw [State.spdmReply, if_neg (by rw [hans]; decide), if_pos rfl]
  refine ⟨Config.spdmReply 4 rq.index rq.nonce (s.slotFacts rq.index), (congrArg Host.Outcome.next (if_pos hans)).trans ?_⟩
  rw [hreply]
  rfl

end

/-! ### Pairing (R386) -/

section
variable {s : State} (q : Nat) {peer : Nat} (remote : Nat)

theorem partitionPairing_fails (h : Config.exchangePasses s.free = false) :
    exec (.partitionPairing q peer remote) s = .next { s with free := s.free + 1 } :=
  congrArg Host.Outcome.next (if_neg (by rw [h]; decide))

/-- The state in which the partition is paired and the keys of the exchange hold. -/
def paired (s : State) (q peer remote : Nat) : State :=
  { s with
    free := s.free + 1
    fab := { s.fab with
      pairs := s.fab.pairs.put (connKey q peer) (remote % 4)
      keys := s.fab.keys.put (connKey q peer) (keysOf s.free 0 (s.part q).keyGen)
      pairKeys := s.fab.pairKeys.put peer (keysOf s.free 1 0) } }

theorem partitionPairing_pairs (h : Config.exchangePasses s.free = true) :
    exec (.partitionPairing q peer remote) s = .next (paired s q peer remote) :=
  congrArg Host.Outcome.next (if_pos h)

theorem connKey_ne {q x r y : Nat} (hx : x < 4096) (hy : y < 4096) (h : (r, y) ≠ (q, x)) : connKey r y ≠ connKey q x := by
  intro hk
  simp only [connKey] at hk
  exact h (Prod.ext (by omega) (by omega))

theorem flitKeys_packages (s : State) {typ : Nat} (h : typ = 0x13 ∨ typ = 0x14) (r x : Nat) :
    s.flitKeys typ r x = s.fab.pairKeys.get {} x := by
  rw [State.flitKeys, if_pos (by simpa using h)]

theorem flitKeys_connection (s : State) {typ : Nat} (h : typ ≠ 0x13) (h' : typ ≠ 0x14) (r x : Nat) :
    s.flitKeys typ r x = s.fab.keys.get {} (connKey r x) := by
  rw [State.flitKeys, if_neg (by simp [h, h'])]

theorem pairOf_paired (s : State) (hpeer : peer < 4096) : (paired s q peer remote).pairOf q peer = some (remote % 4) ∧
    ∀ r x, x < 4096 → (r, x) ≠ (q, peer) → (paired s q peer remote).pairOf r x = s.pairOf r x :=
  ⟨Tab.find_put_same _ _ _, fun _ _ hx hne => Tab.find_put_other _ _ _ _ (connKey_ne hpeer hx hne)⟩

theorem flitKeys_paired (s : State) (hpeer : peer < 4096) {typ : Nat} (h : typ ≠ 0x13) (h' : typ ≠ 0x14) :
    (paired s q peer remote).flitKeys typ q peer = keysOf s.free 0 (s.part q).keyGen ∧
    ∀ r x, x < 4096 → (r, x) ≠ (q, peer) → (paired s q peer remote).flitKeys typ r x = s.flitKeys typ r x := by
  simp only [flitKeys_connection _ h h']
  exact ⟨Tab.get_put_same _ _ _ _, fun _ _ hx hne => Tab.get_put_other _ _ _ _ _ (connKey_ne hpeer hx hne)⟩

theorem flitKeys_pairedPackages (s : State) {typ : Nat} (h : typ = 0x13 ∨ typ = 0x14) (r : Nat) :
    (paired s q peer remote).flitKeys typ r peer = keysOf s.free 1 0 ∧
    ∀ x, x ≠ peer → (paired s q peer remote).flitKeys typ r x = s.flitKeys typ r x := by
  simp only [flitKeys_packages _ h]
  exact ⟨Tab.get_put_same _ _ _ _, fun _ hx => Tab.get_put_other _ _ _ _ _ hx⟩

end

/-! ### The statement of the family -/

/-- Settles O58: each clause is the lemma of its event above. -/
theorem hostsReachMemoryAndPartitions : Obligations.HostsReachMemoryAndPartitions := by
  unfold Obligations.HostsReachMemoryAndPartitions
  refine ⟨?memory, fun s fn off v => hostMemoryAccess_register v, ?partitions, ?scrub, fun s q h => tdisp_outside_session h,
    ?interfaces, fun s q h => interface_fails h, fun s rq => ⟨spdm_unanswered rq, fun h => ⟨spdm_answers rq h,
      spdmKeyEx_opens rq h⟩⟩, ?pairing⟩
  case memory =>
    intro s fn off size pa q w data hfn hpa hoff fits answers
    have hsize : hostSize w off size = true ↔ fits := hostSize_iff w off size
    refine ⟨fun hbad => hostMemoryAccess_badSize (Bool.eq_false_iff.mpr (mt hsize.mp hbad)),
      hostMemoryAccess_stopped hfn hoff, fun hfits hstage hkey hserves hwatch => ?_⟩
    have hgo : ¬ (s.pkg.stage = 0xFF || (fn ≠ 0 && (s.part (fn - 1)).tdi = 3)) = true := by
      rcases hkey with ⟨rfl, _⟩ | ⟨rfl, htdi⟩
      · simpa using hstage
      · simpa using ⟨hstage, htdi⟩
    have hx := hostMemoryAccess_window (s := s) (data := data) hfn hoff (hsize.mpr hfits)
    rw [if_neg hgo, hostMemory_served hserves hkey hfn hpa hwatch] at hx
    refine ⟨?_, ?_⟩
    · rintro rfl
      exact hx
    · rintro rfl
      exact ⟨_, hx, rfl, putsBytes_writeBytes rfl⟩
  case partitions =>
    rintro s fn q v hq p rfl hmay dies free sets refuses
    rw [← State.part_eq hq]
    have hcreate : s.mayCreate q dies = true ↔ _ := mayCreate_iff s q dies
    have hfree : (diesOf (s.part q).dies).all s.dieFree = true ↔ free (s.part q).dies := s.diesFree_iff _
    refine ⟨fun hen hbusy => ⟨fun hdies htdi hf hclash => ?_, fun hbad => ?_⟩,
      fun hen hbusy => ⟨fun htdi hdies hf => ?_, fun hbad => ?_⟩, fun hbusy => ⟨?_, ?_⟩⟩
    · have hw := writePcfg_create fn v hbusy hq hen
      rw [if_pos (hcreate.mpr ⟨hdies, htdi, hf, hclash⟩), ← State.part_eq hq] at hw
      exact hostWrite_sets hmay rfl hw
    · have hw := writePcfg_create fn v hbusy hq hen
      rw [if_neg ?_] at hw
      · exact hostWrite_refused hmay rfl hw
      · intro hok
        obtain ⟨hdies, htdi, hf, hclash⟩ := hcreate.mp hok
        rcases hbad with h | h | h | ⟨r, hr, hne, hren, hmeet⟩
        · exact hdies h
        · exact h htdi
        · exact h hf
        · exact hmeet (hclash r hr hne hren)
    · have hw := writePcfg_destroy fn v hbusy hen hq htdi hdies (hfree.mpr hf)
      rw [← State.part_eq hq] at hw
      exact hostWrite_sets hmay rfl hw
    · exact hostWrite_refused hmay rfl (writePcfg_destroy_refused fn v hbusy hen
        (hbad.imp_right (Or.imp_right (mt hfree.mp))))
    · exact hostWrite_refused hmay rfl (writePcfg_busy fn _ hbusy)
    · exact hostWrite_refused hmay rfl (writePcfg_busy fn _ hbusy)
  case scrub =>
    rintro s q hq p rfl
    rw [← State.part_eq hq]
    refine ⟨partitionScrubDone_idle, fun hbusy => ?_⟩
    obtain ⟨t, hx, hthreads, hpart, hother, hcore, hcluster, hrest⟩ := partitionScrubDone_scrubs hq hbusy
    refine ⟨t, hx, hthreads, hpart, hother, fun c hc => ?_, fun c hc => ?_, fun c hc => ?_, fun c hc => ?_, hrest⟩
    · rw [hcore, if_pos hc]; rfl
    · rw [hcore, if_neg (by rw [hc]; decide)]
    · rw [hcluster, if_pos hc]; exact ⟨rfl, rfl, rfl⟩
    · rw [hcluster, if_neg (by rw [hc]; decide)]
  case interfaces =>
    rintro s q hq p hp hin enters
    obtain rfl : p = s.part q := hp.trans (State.part_eq hq).symm
    exact ⟨lockInterface_locks hin hq, lockInterface_refused hin, startInterface_starts hin hq,
      startInterface_refused hin, stopInterface_stops hin hq, stopInterface_refused hin, tdisp_openReply hin,
      interfaceReport_replies hin, interfaceState_replies hin⟩
  case pairing =>
    intro s q peer remote hpeer
    refine ⟨partitionPairing_fails q remote, fun h => ⟨_, partitionPairing_pairs q remote h, rfl, ?_⟩⟩
    obtain ⟨hpair, hpairs⟩ := pairOf_paired q remote s hpeer
    exact ⟨hpair, hpairs, fun typ h h' => flitKeys_paired q remote s hpeer h h', fun r =>
      ⟨(flitKeys_pairedPackages q remote s (.inl rfl) r).1, (flitKeys_pairedPackages q remote s (.inr rfl) r).1,
        (flitKeys_pairedPackages q remote s (.inl rfl) r).2⟩⟩

end Sys2Proof.Proofs
end

section
/-! Proofs, family 13 (package): bring-up and the image that it verifies (R361, R365, R366, R367). -/

namespace Sys2Proof.Proofs

open Sys2Proof Sys2Proof.Machine Sys2Proof.Claim

/-! ### PERST#, the host link and the command register (R366, R367) -/

section
variable {s : State}

theorem perstDeassert_again (h : s.pkg.perst = true) : exec .perstDeassert s = .next s := if_pos h

theorem perstDeassert_starts (h : s.pkg.perst = false) : exec .perstDeassert s = .next { s with
    free := s.free + 1, pkg := { s.pkg with perst := true, stage := 2, slotKey := Config.freeValue s.free } } :=
  if_neg (by rw [h]; decide)

theorem fwgo_elsewhere {fn : Nat} (hmay : HostMay s fn 0x310) (h : s.pkg.stage ≠ 3) :
    SetsPackage (.fwgo (.host fn)) s { s.pkg with hostStatus := 0 } :=
  hostWrite_sets (p := s.pkg) (w := { s := s.startImage }) hmay rfl (by rw [State.startImage, if_neg h])

theorem fwgo_begins {fn : Nat} (hmay : HostMay s fn 0x310) (h : s.pkg.stage = 3) :
    SetsPackage (.fwgo (.host fn)) s { s.pkg with stage := 4, hostStatus := 0 } :=
  hostWrite_sets (p := { s.pkg with stage := 4 }) (w := { s := s.startImage }) hmay rfl
    (by rw [State.startImage, if_pos h]; rfl)

/-- R98, R351: a register of the package block below the counters is no other partition's. -/
theorem mayStore_pkgReg (core slot : Nat) {off : Nat} (h : off < 0x400000) : MayStore s (.thread core slot) (pkgReg off) := by
  have hspace : space (pkgReg off) = 0xF4 := by
    rw [space, pkgReg, BitVec.toNat_ofNat]
    omega
  have hoff : bits (pkgReg off).toNat 31 0 = off := by
    rw [bits, pkgReg, BitVec.toNat_ofNat]
    omega
  show s.foreign (tidOf core slot) (pkgReg off) = false
  rw [State.foreign, hspace, hoff, decide_eq_false (not_le.mpr h)]
  rfl

/-- R102, R351: a thread's write to the package block is a late fault of it. -/
theorem pkgReg_refusesThread {i : Instr} {core slot off : Nat} (hoff : off < 0x400000)
    (hx : exec i s = .next (s.store (.thread core slot) (pkgReg off) (refuse51 s))) :
    ∃ t, exec i s = .next t ∧ t = { s with threads := t.threads } ∧ t.thread (tidOf core slot) =
      withFault (s.thread (tidOf core slot)) 0x05 1 (pkgReg off) (s.thread (tidOf core slot)).pc s.order
        (s.thread (tidOf core slot)).mode := by
  rw [store_thread_refused (mayStore_pkgReg core slot hoff)] at hx
  exact ⟨_, hx, rfl, State.thread_modThread _ _ _⟩

end

/-! ### The checks of an image (R367) -/

theorem readNat_eq_le (m : Memory) (a n : Nat) : m.readNat a n = le m a n := leNat_readBytes m n a

theorem headerOk_iff (m : Memory) (len : Nat) : headerOk m len = true ↔
    le m 0 4 = 0x57464B47 ∧ le m 4 4 = 1 ∧ le m 8 8 = len ∧ len ≤ 0x4000000 := by
  simp only [headerOk, readNat_eq_le, Bool.and_eq_true, decide_eq_true_eq, and_assoc]

theorem length_filter_range_eq_one (n : Nat) (p : Nat → Bool) : ((List.range n).filter p).length = 1 ↔
    ∃ i < n, p i = true ∧ ∀ j < n, p j = true → j = i := by
  rw [← List.toFinset_card_of_nodup (List.nodup_range.filter p), Finset.card_eq_one]
  refine exists_congr fun i => ?_
  simp only [Finset.ext_iff, List.mem_toFinset, List.mem_filter, List.mem_range, Finset.mem_singleton]
  constructor
  · intro h
    obtain ⟨hi, hp⟩ := (h i).mpr rfl
    exact ⟨hi, hp, fun j hj hpj => (h j).mp ⟨hj, hpj⟩⟩
  · rintro ⟨hi, hp, hone⟩ j
    exact ⟨fun ⟨hj, hpj⟩ => hone j hj hpj, fun hj => hj ▸ ⟨hi, hp⟩⟩

/-- Of the listed sections, a kind other than 0 is the kind of one section. -/
theorem length_kind_eq_one (f : Nat → Nat × Nat × Nat) (n : Nat) {k : Nat} (hk : k ≠ 0) :
    ((((List.range n).map f).filter (fun x => x.1 ≠ 0)).filter (fun x => x.1 = k)).length = 1 ↔
      ∃ i < n, (f i).1 = k ∧ ∀ j < n, (f j).1 = k → j = i := by
  have hboth (i : Nat) : (decide ((f i).1 = k) && decide ((f i).1 ≠ 0)) = true ↔ (f i).1 = k := by
    rw [Bool.and_eq_true, decide_eq_true_iff, decide_eq_true_iff]
    exact ⟨And.left, fun h => ⟨h, h ▸ hk⟩⟩
  rw [List.filter_filter, List.filter_map, List.length_map, length_filter_range_eq_one]
  simp only [Function.comp, hboth]

theorem all_used_inside (f : Nat → Nat × Nat × Nat) (n len : Nat) :
    (((List.range n).map f).filter (fun x => x.1 ≠ 0)).all (fun x => x.2.1 + x.2.2 ≤ len) = true ↔
      ∀ i < n, (f i).1 ≠ 0 → (f i).2.1 + (f i).2.2 ≤ len := by
  simp only [List.all_eq_true, List.mem_filter, List.mem_map, List.mem_range, decide_eq_true_eq]
  constructor
  · exact fun h i hi hne => h _ ⟨⟨i, hi, rfl⟩, hne⟩
  · rintro h _ ⟨⟨i, hi, rfl⟩, hne⟩
    exact h i hi hne

/-- R367: each used section lies inside the image, and each kind from 1 to 3 is the kind of one section. -/
theorem sectionsOk_iff (m : Memory) (len : Nat) : sectionsOk m len = true ↔
    (∀ i < 16, le m (0x1D20 + 16 * i) 4 ≠ 0 → le m (0x1D28 + 16 * i) 4 + le m (0x1D2C + 16 * i) 4 ≤ len) ∧
    ∀ k, k = 1 ∨ k = 2 ∨ k = 3 → ∃ i < 16, le m (0x1D20 + 16 * i) 4 = k ∧
      ∀ j < 16, le m (0x1D20 + 16 * j) 4 = k → j = i := by
  have hkinds (f : Nat → Nat × Nat × Nat) : [1, 2, 3].all (fun k =>
        ((((List.range 16).map f).filter (fun x => x.1 ≠ 0)).filter (fun x => x.1 = k)).length = 1) = true ↔
      ∀ k, k = 1 ∨ k = 2 ∨ k = 3 → ∃ i < 16, (f i).1 = k ∧ ∀ j < 16, (f j).1 = k → j = i := by
    rw [List.all_eq_true]
    refine forall_congr' fun k => ?_
    rw [decide_eq_true_iff]
    simp only [List.mem_cons, List.not_mem_nil, or_false]
    exact imp_congr_right fun hk => length_kind_eq_one f 16 (by omega)
  have hoff (i : Nat) : 0x1D20 + 16 * i + 8 = 0x1D28 + 16 * i := by omega
  have hlen (i : Nat) : 0x1D20 + 16 * i + 12 = 0x1D2C + 16 * i := by omega
  rw [sectionsOk, Bool.and_eq_true, sectionsOf, all_used_inside, hkinds]
  simp only [readNat_eq_le, hoff, hlen]

/-- R367: the public key of the image. -/
def imageKey (m : Memory) : List Byte := m.readBytes 0x1300 2592

/-- R367: the image's key is the fused one; its header is signed with it. -/
def keyed (m : Memory) : Prop := Config.sha3 (imageKey m) = Config.fusedKey
def signed (m : Memory) : Prop := Config.signed (imageKey m) (m.readBytes 0 0x80) (m.readBytes 0x80 4627) = true
/-- R367: its digest is right, and its security version no older than the fused one. -/
def whole (m : Memory) (len : Nat) : Prop := Config.sha3 (m.readBytes 0x1D20 (len - 0x1D20)) = imageDigest m
def recent (m : Memory) : Prop := Config.fusedVersion ≤ m.readNat 0x10 8

theorem not_signed_iff (m : Memory) :
    (!Config.signed (imageKey m) (m.readBytes 0 0x80) (m.readBytes 0x80 4627)) = true ↔ ¬ signed m := by
  simp [signed]

section
variable {s : State}

theorem endVerify_elsewhere (h : s.pkg.stage ≠ 4) : s.endVerify = s := if_pos h

theorem endVerify_fails (h : s.pkg.stage = 4) {e : Nat} (hv : s.verify = some e) :
    s.endVerify = { s with pkg := { s.pkg with stage := 0xFF, ecode := BitVec.ofNat 16 e } } := by
  rw [State.endVerify, if_neg (not_not.mpr h), hv]
  rfl

theorem endVerify_passes (h : s.pkg.stage = 4) (hv : s.verify = none) : ∃ p, s.endVerify = { s with pkg := p } ∧
    p.stage = 5 ∧ p.secVersion = BitVec.ofNat 32 (le s.pkg.staging 0x10 8) ∧ p.digest = s.pkg.staging.readBytes 0x40 64 := by
  rw [State.endVerify, if_neg (not_not.mpr h), hv, ← readNat_eq_le]
  exact ⟨_, rfl, rfl, rfl, rfl⟩

variable (h1 : headerOk s.pkg.staging s.pkg.fwlen = true)

theorem verify_header (h : ¬ headerOk s.pkg.staging s.pkg.fwlen = true) : s.verify = some 1 :=
  if_pos (by rw [Bool.eq_false_iff.mpr h]; rfl)

include h1

theorem verify_of_header : s.verify =
    if Config.sha3 (imageKey s.pkg.staging) ≠ Config.fusedKey then some 2
    else if !Config.signed (imageKey s.pkg.staging) (s.pkg.staging.readBytes 0 0x80) (s.pkg.staging.readBytes 0x80 4627)
      then some 3
    else if Config.sha3 (s.pkg.staging.readBytes 0x1D20 (s.pkg.fwlen - 0x1D20)) ≠ imageDigest s.pkg.staging then some 4
    else if s.pkg.staging.readNat 0x10 8 < Config.fusedVersion then some 5
    else if !sectionsOk s.pkg.staging s.pkg.fwlen then some 6
    else none := if_neg (by rw [h1]; decide)

theorem verify_unkeyed (h : ¬ keyed s.pkg.staging) : s.verify = some 2 := (verify_of_header h1).trans (if_pos h)

variable (h2 : keyed s.pkg.staging)
include h2

theorem verify_unsigned (h : ¬ signed s.pkg.staging) : s.verify = some 3 :=
  (verify_of_header h1).trans ((if_neg (not_not.mpr h2)).trans (if_pos ((not_signed_iff _).mpr h)))

variable (h3 : signed s.pkg.staging)
include h3

theorem verify_of_signed : s.verify =
    if Config.sha3 (s.pkg.staging.readBytes 0x1D20 (s.pkg.fwlen - 0x1D20)) ≠ imageDigest s.pkg.staging then some 4
    else if s.pkg.staging.readNat 0x10 8 < Config.fusedVersion then some 5
    else if !sectionsOk s.pkg.staging s.pkg.fwlen then some 6
    else none :=
  (verify_of_header h1).trans ((if_neg (not_not.mpr h2)).trans (if_neg (mt (not_signed_iff _).mp (not_not.mpr h3))))

theorem verify_damaged (h : ¬ whole s.pkg.staging s.pkg.fwlen) : s.verify = some 4 :=
  (verify_of_signed h1 h2 h3).trans (if_pos h)

variable (h4 : whole s.pkg.staging s.pkg.fwlen)
include h4

theorem verify_of_whole : s.verify =
    if s.pkg.staging.readNat 0x10 8 < Config.fusedVersion then some 5
    else if !sectionsOk s.pkg.staging s.pkg.fwlen then some 6
    else none := (verify_of_signed h1 h2 h3).trans (if_neg (not_not.mpr h4))

theorem verify_old (h : ¬ recent s.pkg.staging) : s.verify = some 5 :=
  (verify_of_whole h1 h2 h3 h4).trans (if_pos (not_le.mp h))

variable (h5 : recent s.pkg.staging)
include h5

theorem verify_last : s.verify = if sectionsOk s.pkg.staging s.pkg.fwlen = true then none else some 6 := by
  rw [verify_of_whole h1 h2 h3 h4, if_neg (not_lt.mpr h5)]
  cases sectionsOk s.pkg.staging s.pkg.fwlen <;> rfl

end

end Sys2Proof.Proofs
end

section
/-! Proofs, family 13 (package): the end of INIT, die resets and power states (R351, R363, R364, R366). -/

namespace Sys2Proof.Proofs

open Sys2Proof Sys2Proof.Machine Sys2Proof.Claim

/-! ### The end of INIT (R355, R366) -/

/-- R366: the dies of a list, which failed training, are fenced. -/
def fenceFailed (s : State) (l : List Nat) : State := l.foldl (fun s d => s.fenceDie d 3) s

section
variable (s : State) (l : List Nat)

theorem threads_fenceFailed : (fenceFailed s l).threads = s.threads :=
  foldl_keeps State.threads (fun s d => s.fenceDie d 3) (fun s d => (fenceDie_frame s d 3).1) l s

theorem cores_fenceFailed : (fenceFailed s l).cores = s.cores :=
  foldl_keeps State.cores (fun s d => s.fenceDie d 3) (fun s d => (fenceDie_frame s d 3).2.1) l s

theorem fenced_fenceFailed (d : Nat) : ((fenceFailed s l).die d).fenced = ((s.die d).fenced || decide (d ∈ l)) := by
  have hfold := foldl_placed (fun s d => (State.die s d).fenced) (fun s d => s.fenceDie d 3) id (fun _ _ => true)
    (fun _ _ => rfl) (fun s d k => by rw [fenceDie_fencedDies]; by_cases hk : k = d <;> simp [hk]) l d s
  refine hfold.trans ?_
  by_cases hd : d ∈ l <;> simp [hd]

end

theorem windowOf_of_fw {s t : State} (h : ∀ d, (t.die d).fw = (s.die d).fw) (a : Nat) : t.windowOf a = s.windowOf a := by
  unfold State.windowOf Die.windowAt
  cases homeDie a with
  | none => rfl
  | some d => dsimp only; rw [h d]

theorem fw_fenceDie (s : State) (d : Nat) (reason : Word) (k : Nat) : ((s.fenceDie d reason).die k).fw = (s.die k).fw := by
  cases h : (s.die d).fenced with
  | true => rw [fenceDie_fenced reason h]
  | false =>
    rw [fenceDie_unfenced reason h]
    refine (congrArg Die.fw ((linesAndRings_postEvent _ (some d) 0x0A (BitVec.ofNat 64 d) reason).1 k)).trans ?_
    show ((s.setDie d _).die k).fw = _
    by_cases hk : k = d
    · rw [hk, State.die_setDie]
    · rw [State.die, State.setDie, Tab.get_put_other _ _ _ _ _ hk]; rfl

/-- R301: with no format window a die that is not among those fenced is as it was. -/
theorem die_fenceFailed_other (l : List Nat) {k : Nat} (hk : k ∉ l) : ∀ s : State, (∀ b, s.windowOf b = none) →
    (fenceFailed s l).die k = s.die k := by
  induction l with
  | nil => exact fun _ _ => rfl
  | cons d l ih =>
    intro s hw
    obtain ⟨hd, hl⟩ := not_or.mp (mt List.mem_cons.mpr hk)
    have hstep : (s.fenceDie d 3).die k = s.die k := by
      cases h : (s.die d).fenced with
      | true => rw [fenceDie_fenced 3 h]
      | false => exact (fenceDie_die 3 h hw).1 k hd
    exact (ih hl (s.fenceDie d 3) fun b => (windowOf_of_fw (fw_fenceDie s d 3) b).trans (hw b)).trans hstep

/-- R366: what each die holds after INIT, its supervisor's policy at reset and whether it trained. -/
def trained (failed : BitVec 4) (d : Nat) (x : Die) : Die := { x with spol := 0, live := !failed.getLsbD d }

/-- R364: the same of a die that a die reset brought to INIT. -/
def revived (failed : BitVec 4) (d : Nat) (x : Die) : Die := { x with live := !failed.getLsbD d }

/-- R351: no feature word is set. -/
def featureless (p : Partition) : Partition := { p with facc0 := 0, facc1 := 0 }

/-- R366: the package when INIT ends. -/
def readied (s : State) (failed : BitVec 4) : State :=
  ((List.range 4).foldl (fun s q => s.modPart q featureless)
    ((List.range 4).foldl (fun s d => s.modDie d (trained failed d)) (fenceFailed s (diesOf failed)))).modPart 0
      (fun p => { p with en := true, dies := ~~~failed })

theorem bootInitComplete_readies {s : State} {failed : BitVec 4} (h : s.pkg.stage = 5) :
    exec (.bootInitComplete failed) s =
      .next (((readied s failed).mapTier.modPkg (fun p => { p with stage := 6 })).setTime 0) := if_pos h

theorem bootInitComplete_early {s : State} {failed : BitVec 4} (h5 : s.pkg.stage ≠ 5) (h6 : s.pkg.stage ≠ 6) :
    exec (.bootInitComplete failed) s = .next s := (if_neg h5).trans (if_neg h6)

section
variable (s : State) (failed : BitVec 4)

theorem readied_keeps {β : Type} (get : State → β) (hp : ∀ (s : State) p, get { s with pkg := p } = get s)
    (hd : ∀ s d x, get (s.setDie d x) = get s) : get (readied s failed) = get (fenceFailed s (diesOf failed)) := by
  rw [readied, State.modPart_keeps get hp, foldl_keeps get _ (fun s q => State.modPart_keeps get hp s q featureless)]
  exact foldl_keeps get (fun s d => s.modDie d (trained failed d)) (fun s d => hd s d _) _ _

theorem die_readied {d : Nat} (hd : d < 4) :
    (readied s failed).die d = trained failed d ((fenceFailed s (diesOf failed)).die d) := by
  have hpart := State.modPart_keeps (State.die · d) fun _ _ => rfl
  rw [readied, hpart, foldl_keeps (State.die · d) _ (fun s q => hpart s q featureless),
    State.die_foldl_modDie (trained failed) (fun _ _ => rfl), if_pos (List.mem_range.mpr hd)]

theorem part_readied {q : Nat} (hq : q < 4) :
    ((readied s failed).part q).facc0 = 0 ∧ ((readied s failed).part q).facc1 = 0 := by
  have hfold (u : State) := State.part_foldl_modPart (f := featureless) rfl (fun _ => rfl) (List.range 4) u q
  by_cases h0 : q = 0
  · subst h0
    rw [readied, State.part_modPart hq, hfold, if_pos (List.mem_range.mpr hq)]
    exact ⟨rfl, rfl⟩
  · rw [readied, State.part_modPart_other (by decide) _ h0, hfold, if_pos (List.mem_range.mpr hq)]
    exact ⟨rfl, rfl⟩

theorem part_zero_readied : ((readied s failed).part 0).en = true ∧ ((readied s failed).part 0).dies = ~~~failed := by
  rw [readied, State.part_modPart (by decide)]
  exact ⟨rfl, rfl⟩

end

theorem gtime_setTime (s : State) (v : Int) : (s.setTime v).gtime = BitVec.ofInt 64 v := by
  show BitVec.ofInt 64 (v - (s.clock * 5 / 12 : Nat) + (s.clock * 5 / 12 : Nat)) = _
  rw [sub_add_cancel]

/-- R355, R366: INIT ends with the package READY, time 0, partition 0 of the dies that trained and the others fenced. -/
theorem bootInitComplete_ready {s : State} (failed : BitVec 4) (h : s.pkg.stage = 5) : ∃ t,
    exec (.bootInitComplete failed) s = .next t ∧ t.pkg.stage = 6 ∧ t.gtime = 0 ∧
    t.threads = s.threads ∧ t.cores = s.cores ∧
    (t.part 0).en = true ∧ (t.part 0).dies = ~~~failed ∧ (∀ q < 4, (t.part q).facc0 = 0 ∧ (t.part q).facc1 = 0) ∧
    ∀ d < 4, (t.die d).spol = 0 ∧ (t.die d).live = !failed.getLsbD d ∧
      (t.die d).fenced = ((s.die d).fenced || failed.getLsbD d) := by
  have htime : BitVec.ofInt 64 0 = (0 : Word) := by decide
  have hthreads := (readied_keeps s failed State.threads (fun _ _ => rfl) fun _ _ _ => rfl).trans (threads_fenceFailed s _)
  have hcores := (readied_keeps s failed State.cores (fun _ _ => rfl) fun _ _ _ => rfl).trans (cores_fenceFailed s _)
  have hdie (d : Nat) (hd : d < 4) := die_readied s failed hd
  have hpart (q : Nat) (hq : q < 4) := part_readied s failed hq
  obtain ⟨hen, hdies⟩ := part_zero_readied s failed
  rw [bootInitComplete_readies h]
  generalize readied s failed = u at *
  refine ⟨_, rfl, rfl, (gtime_setTime _ 0).trans htime, hthreads, hcores, hen, hdies, hpart, fun d hd => ?_⟩
  have hfenced := fenced_fenceFailed s (diesOf failed) d
  have hmem : decide (d ∈ diesOf failed) = failed.getLsbD d := by simp only [mem_diesOf, Bool.decide_eq_true]
  exact ⟨congrArg Die.spol (hdie d hd), congrArg Die.live (hdie d hd),
    (congrArg Die.fenced (hdie d hd)).trans (hfenced.trans (by rw [hmem]))⟩

/-- R364: the dies in INIT. -/
def initDies (s : State) : List Nat := (List.range 4).filter (fun d => !(s.die d).live)

theorem mem_initDies {s : State} {d : Nat} (hd : d < 4) : d ∈ initDies s ↔ (s.die d).live = false := by
  simp [initDies, hd]

/-- R364: those of them that fail training. -/
def initFailures (s : State) (failed : BitVec 4) : List Nat := (initDies s).filter (fun d => failed.getLsbD d)

theorem mem_initFailures {s : State} {failed : BitVec 4} {d : Nat} :
    d ∈ initFailures s failed ↔ d ∈ initDies s ∧ failed.getLsbD d = true := List.mem_filter

/-- R364: dies that have ended INIT. -/
def revive (failed : BitVec 4) (s : State) (l : List Nat) : State := l.foldl (fun s d => s.modDie d (revived failed d)) s

/-- R364: dies that a reset brought to INIT end it, and no other die changes. -/
theorem bootInitComplete_again {s : State} (failed : BitVec 4) (h : s.pkg.stage = 6) : ∃ t,
    exec (.bootInitComplete failed) s = .next t ∧ t.threads = s.threads ∧ t.cores = s.cores ∧
    ∀ d < 4, ((s.die d).live = true → (∀ b, s.windowOf b = none) → t.die d = s.die d) ∧
      ((s.die d).live = false → (t.die d).live = !failed.getLsbD d ∧
        (t.die d).fenced = ((s.die d).fenced || failed.getLsbD d)) := by
  have h5 : ¬ s.pkg.stage = 5 := by rw [h]; decide
  have hdie := State.die_foldl_modDie (revived failed) (fun _ _ => rfl) (initDies s) (fenceFailed s (initFailures s failed))
  refine ⟨revive failed (fenceFailed s (initFailures s failed)) (initDies s), (if_neg h5).trans (if_pos h), ?_, ?_,
    fun d hd => ⟨fun hlive hw => ?_, fun hlive => ?_⟩⟩
  · exact (foldl_keeps State.threads (fun s d => s.modDie d (revived failed d)) (fun _ _ => rfl) _ _).trans
      (threads_fenceFailed s _)
  · exact (foldl_keeps State.cores (fun s d => s.modDie d (revived failed d)) (fun _ _ => rfl) _ _).trans
      (cores_fenceFailed s _)
  · have hnot : d ∉ initDies s := by rw [mem_initDies hd, hlive]; decide
    rw [revive, hdie, if_neg hnot]
    exact die_fenceFailed_other _ (fun hf => hnot (mem_initFailures.mp hf).1) s hw
  · have hin : d ∈ initDies s := (mem_initDies hd).mpr hlive
    have hmem : decide (d ∈ initFailures s failed) = failed.getLsbD d := by
      simp only [mem_initFailures, hin, true_and, Bool.decide_eq_true]
    rw [revive, hdie, if_pos hin]
    exact ⟨rfl, (fenced_fenceFailed s _ d).trans (by rw [hmem])⟩

/-! ### A die reset (R302, R364) -/

section
variable (s : State) (d : Nat)

/-- R360: a core whose work is discarded. -/
def idleCore (x : Core) : Core :=
  { x with
    vq := [], vqStarted := false, mq := [], recorded := [], ksends := [], chan := Vector.replicate 8 []
    pumps := Vector.replicate 8 {}, tagCount := Vector.replicate 64 0, tagReady := BitVec.allOnes 64 }

theorem core_discardWork (c : Nat) :
    (s.discardWork d).core c = if dieOf c = d then idleCore (s.core c) else s.core c :=
  Tab.get_each s.cores (fun c x => if dieOf c = d then idleCore x else x) {} c (ite_self _)

theorem die_discardWork (k : Nat) :
    (s.discardWork d).die k = if k = d then { s.die k with channels := {}, streams := [] } else s.die k :=
  State.die_modDie_eq _ d k _

theorem core_resetDie (c : Nat) : (s.resetDie d).core c = if dieOf c = d then {} else s.core c := by
  refine (Tab.get_only (s.discardWork d).cores (fun c => decide (dieOf c ≠ d)) ({} : Core) c).trans ?_
  by_cases h : dieOf c = d
  · rw [if_neg (by simp [h]), if_pos h]
  · rw [if_pos (by simp [h]), if_neg h]
    exact (core_discardWork s d c).trans (if_neg h)

theorem die_resetDie_other {k : Nat} (hk : k ≠ d) : (s.resetDie d).die k = s.die k :=
  (Tab.get_put_other _ _ _ _ _ hk).trans ((die_discardWork s d k).trans (if_neg hk))

theorem die_resetDie : (s.resetDie d).die d = (s.die d).reborn := by
  have hreborn : ((s.discardWork d).die d).reborn = (s.die d).reborn := by
    rw [die_discardWork, if_pos rfl]
    rfl
  exact (Tab.get_put_same _ _ _ _).trans hreborn

theorem read_resetDie (a : Nat) : (s.resetDie d).mem.read a =
    if 0x6000000000 * d ≤ a ∧ a < 0x6000000000 * (d + 1) then 0 else s.mem.read a := by
  rw [Nat.mul_succ]
  exact s.mem.read_zero _ _ a

theorem thread_resetDie (k : Nat) : (s.resetDie d).thread k = if dieOf (coreOf k) = d then {} else s.thread k :=
  thread_discardWork s d k

theorem dieReset_resets (h : (s.die d).pwrState = 3) : exec (.dieReset d) s = .next (s.resetDie d) := if_pos h

theorem dieReset_nothing (h : (s.die d).pwrState ≠ 3) : exec (.dieReset d) s = .next s := if_neg h

end

/-! ### Power states (R363, R364) -/

/-- What a host write that is answered with success and sets one die leaves. -/
theorem hostDie_sets {i : Instr} {s : State} {d : Nat} {f : Die → Die}
    (hx : exec i s = .next ((s.modDie d f).hostAnswer 0)) : ∃ t, exec i s = .next t ∧
      t = { s with dies := t.dies, pkg := { s.pkg with hostStatus := 0 } } ∧ (∀ k, k ≠ d → t.die k = s.die k) ∧
      t.die d = f (s.die d) :=
  ⟨_, hx, rfl, fun _ hk => State.die_modDie_other s _ _ f hk, State.die_modDie s d f⟩

/-- R364: why a power state is refused. -/
theorem mayPower_eq_false_iff (s : State) (d : Nat) (tgt : BitVec 2) : s.mayPower d tgt = false ↔
    (s.die d).pwrBusy = true ∨ (s.die d).pwrState = 3 ∨
    (tgt = 1 ∨ tgt = 2) ∧ (∃ k < 8, ((s.cluster (8 * d + k)).now s.clock).fen = false) ∨
    tgt = 2 ∧ (∃ k, dieOf (coreOf k) = d ∧ (s.thread k).life ≠ .free ∧ (s.thread k).life ≠ .suspended) ∨
    tgt = 3 ∧ (s.die d).fenced = false := by
  have hrouters : (List.range 8).any (fun k => !((s.cluster (8 * d + k)).now s.clock).fen) = true ↔
      ∃ k < 8, ((s.cluster (8 * d + k)).now s.clock).fen = false := by
    simp only [List.any_eq_true, List.mem_range, Bool.not_eq_true']
  rw [← hrouters, ← State.dieOccupied_iff, State.mayPower]
  simp only [Bool.and_eq_false_iff, Bool.not_eq_false', Bool.and_eq_true, Bool.or_eq_true, decide_eq_true_eq,
    decide_eq_false_iff_not, ne_eq, not_not, Bool.not_eq_true', or_assoc]

section
variable {s : State} {d : Nat}

theorem powerStateCommand_refused {fn : Nat} {v : Word} (hmay : HostMay s fn (0x200 + 8 * d))
    (h : s.mayPower d (v.extractLsb' 0 2) = false) :
    SetsPackage (.powerStateCommand (.host fn) d v) s { s.pkg with hostStatus := 2 } :=
  hostWrite_refused hmay rfl (by rw [State.writeDpwr, h]; rfl)

theorem powerStateCommand_starts {fn : Nat} {v : Word} (hmay : HostMay s fn (0x200 + 8 * d))
    (h : s.mayPower d (v.extractLsb' 0 2) = true) : exec (.powerStateCommand (.host fn) d v) s =
      .next ((s.modDie d (fun x => { x with pwrBusy := true, pwrTgt := v.extractLsb' 0 2 })).hostAnswer 0) :=
  hostWrite_acts hmay rfl (by rw [State.writeDpwr, h]; rfl)

theorem powerTransitionDone_idle (h : (s.die d).pwrBusy = false) : exec (.powerTransitionDone d) s = .next s :=
  if_pos (by rw [h]; rfl)

/-- R363: what a transition does to the caches and SRAM of its die. -/
def poweredDown (s : State) (d : Nat) : State :=
  if (s.die d).pwrTgt = 3 then (if (s.die d).pwrTgt = 2 then s.emptyCaches d else s).zeroSram d
  else if (s.die d).pwrTgt = 2 then s.emptyCaches d else s

/-- R364: the die is in the state that it was to enter. -/
def arrived (s : State) (d : Nat) : State := s.modDie d (fun x => { x with pwrBusy := false, pwrState := x.pwrTgt })

theorem powerTransitionDone_busy (h : (s.die d).pwrBusy = true) : exec (.powerTransitionDone d) s =
    .next (if (s.die d).pwrTgt = 0 then
      (List.range 256).foldl (fun s i => (List.range 8).foldl (fun s c => s.serveSenders (256 * d + i) c) s)
        (arrived (poweredDown s d) d)
    else arrived (poweredDown s d) d) := if_neg (by rw [h]; decide)

theorem die_arrived (s : State) (d : Nat) :
    (arrived s d).die d = { s.die d with pwrBusy := false, pwrState := (s.die d).pwrTgt } := State.die_modDie _ _ _

theorem die_arrived_other (s : State) {d k : Nat} (hk : k ≠ d) : (arrived s d).die k = s.die k :=
  State.die_modDie_other _ _ _ _ hk

/-- R136, R363: nobody waits to send to the cores that run again. -/
theorem serveDie_noneParked (h : NoneParked s) (d : Nat) :
    (List.range 256).foldl (fun s i => (List.range 8).foldl (fun s c => s.serveSenders (256 * d + i) c) s) s = s :=
  foldl_of_fixed _ s _ fun _ _ => foldl_of_fixed _ s _ fun _ _ => serveSenders_noneParked h _ _

/-- R363: with no container line held, the remote-data cache alone is emptied. -/
theorem emptyCaches_empty (h : (s.die d).container.cells = []) :
    s.emptyCaches d = s.modDie d (fun x => { x with rdc := {} }) := by
  rw [State.emptyCaches, Tab.keys, h]
  rfl

section
variable (hbusy : (s.die d).pwrBusy = true)
include hbusy

/-- R364: a die goes to PS1, or back to PS0, with nothing lost. -/
theorem powerTransitionDone_keeps (h : (s.die d).pwrTgt = 1 ∨ (s.die d).pwrTgt = 0 ∧ NoneParked s) :
    exec (.powerTransitionDone d) s = .next (arrived s d) := by
  have hdown : poweredDown s d = s := by
    have h3 : (s.die d).pwrTgt ≠ 3 := by rcases h with h | ⟨h, -⟩ <;> rw [h] <;> decide
    have h2 : (s.die d).pwrTgt ≠ 2 := by rcases h with h | ⟨h, -⟩ <;> rw [h] <;> decide
    rw [poweredDown, if_neg h3, if_neg h2]
  rw [powerTransitionDone_busy hbusy, hdown]
  rcases h with h | ⟨h, hpark⟩
  · rw [if_neg (by rw [h]; decide)]
  · rw [if_pos h, serveDie_noneParked (s := arrived s d) hpark]

/-- R363: in PS2 the L2 and the remote-data cache are empty. -/
theorem powerTransitionDone_sleeps (h : (s.die d).pwrTgt = 2) (hempty : (s.die d).container.cells = []) :
    exec (.powerTransitionDone d) s = .next (arrived (s.modDie d (fun x => { x with rdc := {} })) d) := by
  have hdown : poweredDown s d = s.modDie d (fun x => { x with rdc := {} }) := by
    rw [poweredDown, if_neg (by rw [h]; decide), if_pos h, emptyCaches_empty hempty]
  rw [powerTransitionDone_busy hbusy, hdown, if_neg (by rw [h]; decide)]

/-- R363, R364: in PS3 the SRAM is lost. -/
theorem powerTransitionDone_powersOff (h : (s.die d).pwrTgt = 3) :
    exec (.powerTransitionDone d) s = .next (arrived (s.zeroSram d) d) := by
  have hdown : poweredDown s d = s.zeroSram d := by
    rw [poweredDown, if_pos h, if_neg (by rw [h]; decide)]
  rw [powerTransitionDone_busy hbusy, hdown, if_neg (by rw [h]; decide)]

end

end

end Sys2Proof.Proofs
end

section
/-! Proofs, family 13 (package): temperature, the time base, free frames and signals (R352, R365, R371, R377), and how
packages start and change power. -/

namespace Sys2Proof.Proofs

open Sys2Proof Sys2Proof.Machine Sys2Proof.Claim

/-! ### Temperature (R365) -/

/-- R365: a die after a sample. -/
def sampled (temp : BitVec 16) (x : Die) : Die :=
  { x with temp := temp, tmax := if x.tmax.toInt < temp.toInt then temp else x.tmax }

section
variable {s : State} {d : Nat} {temp : BitVec 16}

theorem thermalSample_eq (s : State) (d : Nat) (temp : BitVec 16) : exec (.thermalSample d temp) s =
    (let u := s.modDie d (fun x => { sampled temp x with
        tripped := x.tripped || ((s.die d).trArm && (s.die d).ttrip.sle temp) })
    if ((s.die d).trArm && (s.die d).ttrip.sle temp) = true then
      .next ((u.postEvent (some d) 0x0B (BitVec.ofNat 64 d) (temp.zeroExtend 64)).modPkg
        (fun p => { p with msix1 := p.msix1 + 1 }))
    else .next u) := by
  show execThermalSample d temp s = _
  simp only [execThermalSample, sampled, BitVec.slt, decide_eq_true_eq]

theorem thermalSample_cool (h : (s.die d).trArm = false ∨ temp.toInt < (s.die d).ttrip.toInt) :
    exec (.thermalSample d temp) s = .next (s.modDie d (sampled temp)) := by
  have hno : ((s.die d).trArm && (s.die d).ttrip.sle temp) = false := by
    rcases h with h | h
    · rw [h, Bool.false_and]
    · rw [BitVec.sle, decide_eq_false (not_le.mpr h), Bool.and_false]
  rw [thermalSample_eq, hno]
  simp only [Bool.or_false]
  rfl

theorem thermalSample_trips (harm : (s.die d).trArm = true) (h : (s.die d).ttrip.toInt ≤ temp.toInt) : ∃ t,
    exec (.thermalSample d temp) s = .next t ∧ t.threads = s.threads ∧
    ((∀ b, s.windowOf b = none) → t.die d = { sampled temp (s.die d) with tripped := true }) ∧
    t.pkg.msix1 = s.pkg.msix1 + 1 := by
  have hyes : ((s.die d).trArm && (s.die d).ttrip.sle temp) = true := by
    rw [harm, BitVec.sle, decide_eq_true h]; rfl
  rw [thermalSample_eq, hyes]
  simp only [Bool.or_true, if_true]
  generalize hu : s.modDie d (fun x => { sampled temp x with tripped := true }) = u
  have hthreads : u.threads = s.threads := by rw [← hu]; rfl
  have hpkg : u.pkg = s.pkg := by rw [← hu]; rfl
  have hdie : u.die d = { sampled temp (s.die d) with tripped := true } := by rw [← hu]; exact State.die_modDie _ _ _
  have hfw (k : Nat) : (u.die k).fw = (s.die k).fw := by
    rw [← hu, State.die_modDie_eq]
    split_ifs <;> rfl
  refine ⟨_, rfl, ?_, fun hw => ?_, ?_⟩
  · exact (threads_postEvent u _ _ _ _).trans hthreads
  · have hdies := dies_postEvent (fun b => (windowOf_of_fw hfw b).trans (hw b)) (some d) 0x0B (BitVec.ofNat 64 d)
      (temp.zeroExtend 64)
    exact (State.die_of_dies _ _ hdies d).trans hdie
  · have hrings := (linesAndRings_postEvent u (some d) 0x0B (BitVec.ofNat 64 d) (temp.zeroExtend 64)).2
    show (u.postEvent (some d) 0x0B (BitVec.ofNat 64 d) (temp.zeroExtend 64)).pkg.msix1 + 1 = _
    rw [hrings, hpkg]

end

/-! ### Frames, the time base and PKGID (R351, R352, R377) -/

section
variable {s : State} {fn : Nat} {v : Word}

theorem mfreePush_adds {d : Nat} (hmay : HostMay s fn (0x3008C0 + 8 * d)) (hroom : (s.die d).freeFrames.length < 64)
    (hhome : homeDie (bits v.toNat 47 18 * 2 ^ 18) = some d) : exec (.mfreePush (.host fn) d v) s =
      .next ((s.modDie d (fun x =>
        { x with freeFrames := x.freeFrames ++ [bits v.toNat 47 18 * 2 ^ 18] })).hostAnswer 0) :=
  hostWrite_acts (w := s.writeMfree (.host fn) d v) hmay rfl (if_pos (by rw [decide_eq_true hroom, decide_eq_true hhome]; rfl))

theorem mfreePush_refused {d : Nat} (hmay : HostMay s fn (0x3008C0 + 8 * d))
    (h : 64 ≤ (s.die d).freeFrames.length ∨ homeDie (bits v.toNat 47 18 * 2 ^ 18) ≠ some d) :
    SetsPackage (.mfreePush (.host fn) d v) s { s.pkg with hostStatus := 2 } :=
  hostWrite_refused (w := s.writeMfree (.host fn) d v) hmay rfl (if_neg (by
    rcases h with h | h
    · rw [decide_eq_false (not_lt.mpr h), Bool.and_false, Bool.false_and]; exact Bool.false_ne_true
    · rw [decide_eq_false h, Bool.and_false]; exact Bool.false_ne_true))

theorem gtime_loaded (s : State) (v : Word) : (s.setTime v.toNat).gtime = v := by
  rw [gtime_setTime, BitVec.ofInt_natCast, BitVec.ofNat_toNat, BitVec.setWidth_eq]

theorem gtimeLoad_loads (hmay : HostMay s fn 0x28) (hstage : s.pkg.stage = 6) (hfresh : s.pkg.dispatched = false)
    (hfree : ∀ k, (s.thread k).life = .free) : ∃ p, SetsPackage (.gtimeLoad (.host fn) v) s p ∧ p.hostStatus = 0 ∧
      ({ s with pkg := p } : State).gtime = v := by
  have hno := s.anyTask_eq_false_iff.mpr hfree
  exact ⟨_, hostWrite_sets (w := s.writeGtbase (.host fn) v) hmay rfl (if_pos (by simp [isHost, hstage, hfresh, hno])), rfl,
    gtime_loaded s v⟩

theorem gtimeLoad_refused (hmay : HostMay s fn 0x28)
    (h : s.pkg.stage ≠ 6 ∨ s.pkg.dispatched = true ∨ ∃ k, (s.thread k).life ≠ .free) :
    SetsPackage (.gtimeLoad (.host fn) v) s { s.pkg with hostStatus := 2 } := by
  refine hostWrite_refused (w := s.writeGtbase (.host fn) v) hmay rfl (if_neg ?_)
  rcases h with h | h | ⟨k, h⟩
  · rw [decide_eq_false h, Bool.and_false, Bool.false_and, Bool.false_and]; exact Bool.false_ne_true
  · simp [h]
  · have hany : s.anyTask = true := by
      rw [← Bool.not_eq_false, s.anyTask_eq_false_iff]
      exact fun hfree => h (hfree k)
    simp [hany]

/-- R98: an aligned store of eight bytes is a write of the register at its address. -/
theorem storeSized_register {who : Who} {addr : Word} {r : AnyReg} (hal : addr.toNat % 8 = 0)
    (hmask : addr &&& ~~~7 = addr) (hreg : anyRegAt addr = some r) :
    s.storeSized who addr 8 v = s.store who addr (s.writeAny who v r) := by
  unfold State.storeSized
  rw [if_neg (not_not.mpr hal)]
  simp only [hmask, hreg, State.storeReg]
  rfl

/-- R351: the register at offset 0 is PKGID. -/
theorem registerWrite_pkgid (s : State) (who : Who) (v : Word) : exec (.registerWrite who (pkgReg 0) (.double v)) s =
    .next (s.store who (pkgReg 0) (s.writePkg who v .pkgid)) :=
  (exec_registerWrite who (pkgReg 0) v s).trans
    (congrArg Host.Outcome.next (storeSized_register (addr := pkgReg 0) (r := .pkg .pkgid)
      (by decide) (by decide) (by decide)))

theorem pkgid_writes (hmay : HostMay s fn 0) (hfree : ∀ k, (s.thread k).life = .free) :
    SetsPackage (.registerWrite (.host fn) (pkgReg 0) (.double v)) s
      { s.pkg with peer := v.extractLsb' 0 12, hostStatus := 0 } :=
  hostWrite_sets (p := { s.pkg with peer := v.extractLsb' 0 12 }) hmay (registerWrite_pkgid s (.host fn) v)
    (if_neg (by rw [s.anyTask_eq_false_iff.mpr hfree]; decide))

theorem pkgid_refused (hmay : HostMay s fn 0) (h : ∃ k, (s.thread k).life ≠ .free) :
    SetsPackage (.registerWrite (.host fn) (pkgReg 0) (.double v)) s { s.pkg with hostStatus := 2 } := by
  obtain ⟨k, hk⟩ := h
  have hany : s.anyTask = true := by
    rw [← Bool.not_eq_false, s.anyTask_eq_false_iff]
    exact fun hfree => hk (hfree k)
  exact hostWrite_refused hmay (registerWrite_pkgid s (.host fn) v) (if_pos hany)

theorem pkgid_supervisor (d : Nat) : exec (.registerWrite (.supervisor d) (pkgReg 0) (.double v)) s = .next s :=
  (registerWrite_pkgid s (.supervisor d) v).trans (congrArg Host.Outcome.next
    (ite_self s : (if supervisorMay d (pkgReg 0) = true then s else s) = s))

end

/-! ### Signals (R371) -/

section
variable {s : State} {f : Nat}

theorem msixEventSignal_elsewhere (h : 5 ≤ f) : exec (.msixEventSignal f) s = .next s := dif_neg (not_lt.mpr h)

theorem msixEventSignal_signals (h : f < 5) (hsig : s.pkg.rings[f].signal = true)
    (hdue : s.pkg.rings[f].signalled = 0 ∨ s.pkg.rings[f].signalled + 2400 ≤ s.clock) :
    SetsPackage (.msixEventSignal f) s { s.pkg with
      rings := s.pkg.rings.set f { s.pkg.rings[f] with signal := false, signalled := s.clock } } :=
  (dif_pos h).trans (if_pos (by simpa [hsig] using hdue))

theorem msixEventSignal_waits (h : f < 5) (hno : s.pkg.rings[f].signal = false ∨
    s.pkg.rings[f].signalled ≠ 0 ∧ s.clock < s.pkg.rings[f].signalled + 2400) : exec (.msixEventSignal f) s = .next s := by
  refine (dif_pos h).trans (if_neg ?_)
  rcases hno with h | ⟨h, hlate⟩
  · simp [h]
  · simp [h, hlate]

end

/-! ### The statement of the family -/

/-- Settles O59: each clause is the lemma of its event above. -/
theorem packagesStartAndChangePower : Obligations.PackagesStartAndChangePower := by
  unfold Obligations.PackagesStartAndChangePower
  refine ⟨?bringup, fun s failed => ⟨bootInitComplete_early, bootInitComplete_ready failed, bootInitComplete_again failed⟩,
    ?dies, ?registers, ?signals⟩
  case bringup =>
    refine fun s => ⟨perstDeassert_again, perstDeassert_starts, rfl, rfl, fun fn hmay => ⟨fwgo_elsewhere hmay, fwgo_begins hmay⟩,
      fun hstage => ?_, endVerify_elsewhere, fun core slot => pkgReg_refusesThread (by decide) rfl⟩
    intro m key kind fails header keyed' signed' whole' recent' sections
    have hheader : headerOk m s.pkg.fwlen = true ↔ header := headerOk_iff m s.pkg.fwlen
    have hrecent : recent m ↔ recent' := iff_of_eq (congrArg (Config.fusedVersion ≤ ·) (readNat_eq_le m 0x10 8))
    have hsections : sectionsOk m s.pkg.fwlen = true ↔ sections := sectionsOk_iff m s.pkg.fwlen
    simp only [← hheader, ← hrecent, ← hsections]
    refine ⟨fun h => ?_, fun h1 h => ?_, fun h1 h2 h => ?_, fun h1 h2 h3 h => ?_, fun h1 h2 h3 h4 h => ?_,
      fun h1 h2 h3 h4 h5 h => ?_, fun h1 h2 h3 h4 h5 h6 => ?_⟩
    · exact endVerify_fails hstage (verify_header h)
    · exact endVerify_fails hstage (verify_unkeyed h1 h)
    · exact endVerify_fails hstage (verify_unsigned h1 h2 h)
    · exact endVerify_fails hstage (verify_damaged h1 h2 h3 h)
    · exact endVerify_fails hstage (verify_old h1 h2 h3 h4 h)
    · exact endVerify_fails hstage ((verify_last h1 h2 h3 h4 h5).trans (if_neg h))
    · exact endVerify_passes hstage ((verify_last h1 h2 h3 h4 h5).trans (if_pos h6))
  case dies =>
    rintro s d x rfl
    refine ⟨dieReset_nothing s d, fun hoff => ?_, fun fn v tgt htgt hmay => ?_, powerTransitionDone_idle,
      fun hbusy => ⟨fun h => ?_, fun h hempty => ?_, fun h => ?_⟩, fun temp => ⟨fun h => ?_, thermalSample_trips⟩,
      fun fn v hmay => ⟨fun hroom hhome => ?_, mfreePush_refused hmay⟩⟩
    · exact ⟨_, dieReset_resets s d hoff, rfl, die_resetDie s d, fun k => die_resetDie_other s d, thread_resetDie s d,
        core_resetDie s d, read_resetDie s d⟩
    · subst htgt
      have hmayPower := mayPower_eq_false_iff s d (v.extractLsb' 0 2)
      refine ⟨fun hbad => powerStateCommand_refused hmay (hmayPower.mpr hbad), fun hgood => ?_⟩
      exact hostDie_sets (powerStateCommand_starts hmay (Bool.not_eq_false _ ▸ mt hmayPower.mp hgood))
    · exact ⟨_, powerTransitionDone_keeps hbusy h, rfl, fun k hk => die_arrived_other s hk, die_arrived s d⟩
    · refine ⟨_, powerTransitionDone_sleeps hbusy h hempty, rfl, ?_⟩
      rw [die_arrived, State.die_modDie, h]
    · refine ⟨_, powerTransitionDone_powersOff hbusy h, rfl, rfl, ?_, ?_, fun c hc => ?_, fun c hc => ?_⟩
      · rw [die_arrived]
      · rw [die_arrived, die_zeroSram, if_pos rfl, h]
      · exact congrArg Core.scratch ((core_zeroSram s d c).trans (if_pos hc))
      · exact (core_zeroSram s d c).trans (if_neg hc)
    · exact ⟨_, thermalSample_cool h, rfl, fun k hk => State.die_modDie_other _ _ _ _ hk, State.die_modDie _ _ _⟩
    · exact hostDie_sets (mfreePush_adds hmay hroom hhome)
  case registers =>
    exact fun s fn v => ⟨fun hmay => ⟨gtimeLoad_loads hmay, gtimeLoad_refused hmay⟩,
      fun hmay => ⟨pkgid_writes hmay, pkgid_refused hmay⟩,
      fun core slot => pkgReg_refusesThread (by decide) (registerWrite_pkgid s (.thread core slot) v), pkgid_supervisor⟩
  case signals =>
    refine fun s f => ⟨msixEventSignal_elsewhere, fun h r hr => ?_⟩
    subst hr
    exact ⟨msixEventSignal_signals h, msixEventSignal_waits h⟩

end Sys2Proof.Proofs
end

section
/-! Proofs, family 14 (chairli): a pair that is stored to the table it is translated by (R107, R278, R291, R403). -/

namespace Sys2Proof.Proofs

open Sys2Proof Sys2Proof.Machine Sys2Proof.Claim

/-- R278: a copy to the doubleword at virtual address 8 that has written nothing yet and whose destination is watched. -/
def guardingCopy : Copy :=
  { tpl := 0, core := 0, slot := 0, taskix := 0, tag := none, src := 0, dst := 8, rlen := 8, rows1 := 0, sstr := 0, dstr := 0
    bar := 0, ctr := none, wme := true, pc := 0, order := 0 }

/-- Die 0 translates by a table at physical address 0, whose first entry is not valid, so that no page holds virtual address
8. Its TLBs hold a leaf that gives page 1 the frame at 0. The copy is under way. -/
def storesToItsTable : State :=
  (State.reset.setThread 0 { life := .ready, regs := ((Vector.replicate 108 0).set 0 0xB).set 2 0x40000 }).setDie 0
    { ptEn := true, tlb := ⟨[(tlbKey 0x40000 18, { entry := 0xB, bits := 18 })]⟩
      channels := ⟨[(0, { copies := [guardingCopy] })]⟩ }

/-- The frame at 0 as a store through page 1 reaches it. -/
def tableLeaf : Leaf := { pa := 0, key := 0, mode := 0, peer := 0, t := 0, w := true, x := false }

theorem storesToItsTable_home : PairAtHome storesToItsTable .store
    (storesToItsTable.rd 2 + 8 * (0 : BitVec 8).signExtend 64) 2 tableLeaf := by
  refine ⟨by decide +kernel, ⟨⟨by decide +kernel, by decide +kernel, by decide +kernel, by decide +kernel, by decide +kernel,
    by decide +kernel, List.forall_mem_nil _⟩, rfl, rfl⟩, by decide +kernel⟩

/-- The instruction waits at issue. -/
def waitsAtIssue : Out → Bool
  | .next t => t.stalled
  | _ => false

/-- R278, R291: the first doubleword, 0xB, is a valid leaf that maps virtual address 8 to physical address 8. -/
theorem stp_waits_behind_itself : waitsAtIssue (exec (.stp 0 2 0 0) storesToItsTable) = true := by
  show waitsAtIssue (execStp 0 2 0 0 storesToItsTable) = true
  decide +kernel

/-- Refutes O22: where the first doubleword of a pair is stored to the table by which addresses are translated, it may put
the destination of a copy under way on the second doubleword, which then waits (R278), and the pair with it. -/
theorem not_memoryLoadsAndStoresAtTheirHome : ¬ Obligations.MemoryLoadsAndStoresAtTheirHome := by
  intro h
  obtain ⟨-, -, -, hpairs⟩ := h storesToItsTable 0 0 2 0 0 0 0 0 0 tableLeaf
  obtain ⟨t, ht, -, hframe, -⟩ := hpairs (.stp 0 2 0 0) 2 (by simp) rfl storesToItsTable_home
  have hwaits := stp_waits_behind_itself
  rw [ht, waitsAtIssue, hframe] at hwaits
  exact Bool.false_ne_true hwaits

end Sys2Proof.Proofs
end

section
/-! Proofs, family 14 (chairli): ports, lanes and connections of the fabric, and a flit that is next of its connection
(R387, R388, R393). -/

namespace Sys2Proof.Proofs

open Sys2Proof Sys2Proof.Machine Sys2Proof.Claim

/-! ### A table written twice -/

theorem putKey_putKey_same {α : Type} (k : Nat) (u v : α) (l : List (Nat × α)) :
    putKey k v (putKey k u l) = putKey k v l := by
  induction l with
  | nil => simp [putKey]
  | cons c l ih =>
    obtain ⟨j, x⟩ := c
    rcases Nat.lt_trichotomy k j with h | rfl | h
    · simp [putKey, h]
    · simp [putKey]
    · simp [putKey, ih, Nat.lt_asymm h, h.ne']

@[simp] theorem Tab.put_put_same {α : Type} (t : Tab α) (k : Nat) (u v : α) : (t.put k u).put k v = t.put k v := by
  simp [Tab.put, putKey_putKey_same]

/-! ### Connections -/

@[simp] theorem conn_setConn (s : State) (q x : Nat) (c : Conn) : (s.setConn q x c).conn q x = c := Tab.get_put_same _ _ _ _

theorem find_setConn_other (s : State) (q x : Nat) (c : Conn) {e : Nat} (h : e ≠ connKey q x) :
    (s.setConn q x c).fab.conns.find e = s.fab.conns.find e := Tab.find_put_other _ _ _ _ h

@[simp] theorem setConn_setConn (s : State) (q x : Nat) (b c : Conn) : (s.setConn q x b).setConn q x c = s.setConn q x c := by
  simp [State.setConn, State.modFab]

/-! ### Ports and lanes -/

theorem port_modPort (s : State) {p : Nat} (f : Port → Port) (hp : p < 32) : (s.modPort p f).port p = f (s.port p) := by
  simp [State.modPort, State.modFab, State.port, Fabric.port, hp]

theorem port_modPort_other (s : State) {p j : Nat} (f : Port → Port) (h : j ≠ p) : (s.modPort p f).port j = s.port j := by
  unfold State.modPort State.modFab State.port Fabric.port
  by_cases hp : p < 32 <;> by_cases hj : j < 32 <;> simp [hp, hj, Vector.getElem_set_ne, h.symm]

theorem modPort_modPort (s : State) (p : Nat) (f g : Port → Port) :
    (s.modPort p f).modPort p g = s.modPort p (fun x => g (f x)) := by
  unfold State.modPort State.modFab
  by_cases hp : p < 32 <;> simp [hp]

theorem modPort_id (s : State) {p : Nat} {f : Port → Port} (h : f (s.port p) = s.port p) : s.modPort p f = s := by
  unfold State.modPort State.modFab
  by_cases hp : p < 32
  · have hf : f s.fab.ports[p] = s.fab.ports[p] := by simpa [State.port, Fabric.port, hp] using h
    simp [hp, hf]
  · simp [hp]

theorem modPort_frame (s : State) (p : Nat) (f : Port → Port) :
    s.modPort p f = { s with fab := { s.fab with ports := (s.modPort p f).fab.ports } } := by
  unfold State.modPort State.modFab
  split <;> rfl

@[simp] theorem conn_modPort (s : State) (p : Nat) (f : Port → Port) (q x : Nat) : (s.modPort p f).conn q x = s.conn q x := by
  rw [modPort_frame]; rfl

@[simp] theorem conn_modLane (s : State) (p k : Nat) (f : RxLane → RxLane) (q x : Nat) :
    (s.modLane p k f).conn q x = s.conn q x := conn_modPort _ _ _ _ _

theorem lane_modLane (x : Port) {k : Nat} (f : RxLane → RxLane) (hk : k < 16) : (x.modLane k f).lane k = f (x.lane k) := by
  simp [Port.modLane, Port.lane, hk]

theorem modLane_modLane (x : Port) (k : Nat) (f g : RxLane → RxLane) :
    (x.modLane k f).modLane k g = x.modLane k (fun r => g (f r)) := by
  unfold Port.modLane
  by_cases hk : k < 16 <;> simp [hk]

theorem modLane_id (x : Port) {k : Nat} {f : RxLane → RxLane} (h : f (x.lane k) = x.lane k) : x.modLane k f = x := by
  unfold Port.modLane
  by_cases hk : k < 16
  · have hf : f x.rx[k] = x.rx[k] := by simpa [Port.lane, hk] using h
    simp [hk, hf]
  · simp [hk]

/-! ### A flit that is let in (R378, R384–R386) -/

theorem sawLight_of_assigned {s : State} {f : Flit} (h : ((s.port f.port).lane f.wave).assigned = true) :
    s.sawLight f = s := by
  rw [State.sawLight, h, Bool.true_or, if_pos rfl]

theorem screen_intact {s : State} {f : Flit} (h : Intact s f) (pair : Bool) : s.screen f pair = .ok s := by
  obtain ⟨hen, hlist, hcrc, htag, hdst, hpair, hlane⟩ := h
  simp only [State.screen, sawLight_of_assigned hlane, hen, hlist, hcrc, htag, ← hdst, hpair]
  simp

theorem asType_listed {f : Flit} (h : listedType f.typ = true) (typ : Nat) : asType f typ = { f with typ := typ } := if_pos h

theorem intact_withType {s : State} {f : Flit} (h : Intact s f) {typ : Nat} (hlist : listedType typ = true) :
    Intact s { f with typ := typ } := by
  obtain ⟨hen, -, hrest⟩ := h
  exact ⟨hen, hlist, hrest⟩

theorem nextInOrder_withType {s : State} {f : Flit} (h : NextInOrder s f) {typ : Nat} (hlist : listedType typ = true) :
    NextInOrder s { f with typ := typ } := ⟨intact_withType h.1 hlist, h.2⟩

theorem onArrival_intact {s : State} {f : Flit} (h : Intact s f) (pair : Bool) (act : State → State) :
    s.onArrival f pair act = .next (act s) := by
  rw [State.onArrival, screen_intact h]

/-! ### A flit at its turn (R388) -/

/-- R388, R392: the state in which a flit that is next of its connection is performed. -/
def atTurn (s : State) (f : Flit) : State := s.setConn f.qd f.src { s.conn f.qd f.src with used := s.clock }

/-- What a delivery leaves of a connection on which nothing waits (R388). -/
def deliveredConn (s : State) (c : Conn) : Conn :=
  { c with
    expected := (c.expected + 1) % 2 ^ 24
    rwrap := if c.expected + 1 = 2 ^ 24 then (c.rwrap + 1) % 2 ^ 43 else c.rwrap
    held := none, fresh := c.fresh + 1, freshAt := if c.fresh = 0 then s.clock else c.freshAt
    gapAt := c.gapFrom }

/-- R388: fewer than 32 deliveries call for no acknowledgement yet. -/
theorem delivered_unacknowledged {s : State} {q x : Nat} (h : (s.conn q x).fresh < 31) :
    s.delivered q x = s.setConn q x (deliveredConn s (s.conn q x)) := by
  have hfresh : ¬ 32 ≤ (s.conn q x).fresh + 1 := by omega
  simp [State.delivered, State.modConn, deliveredConn, hfresh]

theorem deliverRun_idle {s : State} {q x : Nat} (hearly : (s.conn q x).early = []) (hheld : (s.conn q x).held = none)
    (fuel : Nat) : s.deliverRun q x fuel = s := by
  cases fuel with
  | zero => rfl
  | succ n => simp [State.deliverRun, hearly, hheld]

/-- R388: the one flit that has arrived is performed when it is the expected one. -/
theorem deliverRun_expected {s u : State} {q x n : Nat} {f : Flit} (hearly : (s.conn q x).early = [(f, n)])
    (hheld : (s.conn q x).held = none) (hseq : f.seq = (s.conn q x).expected)
    (hperf : (s.setConn q x { s.conn q x with early := [] }).performFlit f none = some u) (fuel : Nat) :
    s.deliverRun q x (fuel + 1) = (u.delivered q x).deliverRun q x fuel := by
  rw [State.deliverRun]
  simp only [hearly, hheld, List.find?_cons, hseq, decide_true, List.filter_cons, ne_eq, not_true, decide_false,
    List.filter_nil, Bool.false_eq_true, if_false]
  rw [← hheld, hperf]

/-- R388: the flit that is expected is performed at once, and nothing else of its connection. -/
theorem inOrder_next {s u : State} {f : Flit} (hseq : f.seq = (s.conn f.qd f.src).expected)
    (hearly : (s.conn f.qd f.src).early = []) (hheld : (s.conn f.qd f.src).held = none)
    (hperf : (atTurn s f).performFlit f none = some u) (hearly' : (u.conn f.qd f.src).early = [])
    (hfresh : (u.conn f.qd f.src).fresh < 31) : s.inOrder f = u.delivered f.qd f.src := by
  have hahead : (f.seq + 2 ^ 24 - (s.conn f.qd f.src).expected) % 2 ^ 24 = 0 := by omega
  have hdone : (u.delivered f.qd f.src).deliverRun f.qd f.src 2 = u.delivered f.qd f.src := by
    rw [delivered_unacknowledged hfresh]
    exact deliverRun_idle (by simp [deliveredConn, Conn.gapFrom, hearly']) (by simp [deliveredConn]) 2
  have hturn : s.setConn f.qd f.src { s.conn f.qd f.src with used := s.clock, early := [] } = atTurn s f := by
    rw [atTurn, ← hearly]
  have hrun := deliverRun_expected (s := s.setConn f.qd f.src
    { s.conn f.qd f.src with used := s.clock, early := [(f, s.clock)] }) (q := f.qd) (x := f.src) (n := s.clock) (u := u) (f := f)
    (by simp) (by simpa using hheld) (by simpa using hseq) (by simpa [hturn] using hperf) 2
  simp only [State.inOrder, State.modConn, conn_setConn, hahead, State.deliverAll, setConn_setConn]
  rw [if_neg (by simp [hearly, hheld]), if_neg (by decide), if_pos (by simp), hearly, ← hdone, ← hrun]
  rfl

/-! ### A flit through its lane's buffers (R387, R393) -/

theorem settlePause_quiet {s : State} {f : Flit} (hsent : ((s.port f.port).lane f.wave).pauseSent = false)
    (hinput : ((s.port f.port).lane f.wave).input = []) (hmiss : ((s.port f.port).lane f.wave).miss = []) :
    s.settlePause f = s := by
  simp [State.settlePause, hsent, hinput, hmiss]

theorem drainInput_nothing {s : State} {p k : Nat} (h : ((s.port p).lane k).input = []) (fuel : Nat) :
    s.drainInput p k fuel = s := by
  cases fuel with
  | zero => rfl
  | succ n => rw [State.drainInput, h]

theorem drainInput_cached {s : State} {p k : Nat} {f : Flit} (hin : ((s.port p).lane k).input = [f])
    (hcached : (s.conn f.qd f.src).cached = true) (hheld : (s.conn f.qd f.src).held = none) (fuel : Nat) :
    s.drainInput p k (fuel + 1) =
      (((s.modLane p k (fun l => { l with input := [] })).inOrder f).settlePause f).drainInput p k fuel := by
  rw [State.drainInput, hin]
  simp [hcached, State.stuck, hheld]

/-- R387: a flit that nothing precedes in its lane goes straight to its connection. -/
theorem receive_next {s v : State} {f : Flit} (h : NextInOrder s f) (hv : s.inOrder f = v)
    (hports : v.fab.ports = s.fab.ports) : s.receive f = v := by
  obtain ⟨-, hp, hk, hmiss, hinput, hpause, hcached, -, -, hheld, -⟩ := h
  have hport : v.port f.port = s.port f.port := by simp only [State.port, Fabric.port, hports]
  have hlane : (((s.modLane f.port f.wave (fun r => { r with input := r.input ++ [f] })).port f.port).lane f.wave).input = [f] := by
    rw [State.modLane, port_modPort _ _ hp, lane_modLane _ _ hk, hinput]; rfl
  have hback : (s.modLane f.port f.wave (fun r => { r with input := r.input ++ [f] })).modLane f.port f.wave
      (fun l => { l with input := [] }) = s := by
    rw [State.modLane, State.modLane, modPort_modPort]
    refine modPort_id s ?_
    rw [modLane_modLane]
    exact modLane_id _ (by rw [← hinput])
  rw [State.receive]
  simp only [hlane]
  rw [List.length_singleton, drainInput_cached hlane (by simpa using hcached) (by simpa using hheld), hback, hv,
    settlePause_quiet (by rw [hport]; exact hpause) (by rw [hport]; exact hinput) (by rw [hport]; exact hmiss),
    drainInput_nothing (by rw [hport]; exact hinput)]

/-! ### The arrival of a flit that is next of its connection -/

/-- R388: a flit that is next of its connection is performed under the type that the event names, and delivered. What it does,
`us` on the connection included, leaves ports, clock and the rest of the connection. -/
theorem arrive_performed {s u : State} {f : Flit} (h : NextInOrder s f) {typ : Nat} (hlist : listedType typ = true) {us : List Flit}
    (hperf : (atTurn s f).performFlit { f with typ := typ } none = some u) (hports : u.fab.ports = s.fab.ports)
    (hclock : u.clock = s.clock)
    (hconn : u.conn f.qd f.src = { s.conn f.qd f.src with
      used := s.clock, urgent := (s.conn f.qd f.src).urgent ++ us.map (fun o => { flit := o }) }) :
    ∃ t, s.arrive f typ = .next t ∧ Delivered s t f us ∧
      t = u.setConn f.qd f.src (t.conn f.qd f.src) := by
  have hnext := nextInOrder_withType h hlist
  obtain ⟨hintact, -, -, -, -, -, -, hseq, hearly, hheld, hfresh⟩ := h
  have hfresh' : (u.conn f.qd f.src).fresh < 31 := by rw [hconn]; exact hfresh
  have hin : s.inOrder { f with typ := typ } = u.delivered f.qd f.src :=
    inOrder_next hseq hearly hheld hperf (by rw [hconn]; exact hearly) hfresh'
  rw [delivered_unacknowledged hfresh'] at hin
  refine ⟨u.setConn f.qd f.src (deliveredConn u (u.conn f.qd f.src)), ?_, ?_, ?_⟩
  · rw [State.arrive, asType_listed hintact.2.1, onArrival_intact hnext.1, receive_next hnext hin hports]
  · simp only [Delivered, conn_setConn, deliveredConn, hconn, Conn.gapFrom, hearly, hheld, hclock]
    rfl
  · rw [conn_setConn]

end Sys2Proof.Proofs
end

section
/-! Proofs, family 14 (chairli): the clock stands still while memory is written at its home and an event is posted, and what a
refusal at the target leaves alone (R371, R395). -/

namespace Sys2Proof.Proofs

open Sys2Proof Sys2Proof.Machine Sys2Proof.Claim

theorem clock_cleanContainer (s : State) (d a : Nat) (keep : Bool) : (s.cleanContainer d a keep).clock = s.clock := by
  unfold State.cleanContainer
  split
  · split_ifs <;> rfl
  · rfl

theorem clock_l2Room (s : State) (d k : Nat) : (s.l2Room d k).clock = s.clock := by
  unfold State.l2Room
  dsimp only
  split
  · rfl
  · exact clock_cleanContainer _ _ _ _

theorem clock_fillLine (s : State) (d : Nat) (w : FormatWindow) (a : Nat) : (s.fillLine d w a).clock = s.clock := by
  unfold State.fillLine
  split
  · rfl
  · exact clock_l2Room _ _ _

theorem clock_tierWrite (s : State) (a : Nat) (bs : List Byte) : (s.tierWrite a bs).clock = s.clock := by
  unfold State.tierWrite
  split
  · rfl
  · split_ifs <;> rfl

theorem clock_homeWrite (s : State) (a : Nat) (bs : List Byte) : (s.homeWrite a bs).clock = s.clock := by
  unfold State.homeWrite
  split
  · rfl
  · split
    · exact clock_fillLine _ _ _ _
    · split
      · exact clock_tierWrite _ _ _
      · rfl

theorem clock_homeWriteAll (s : State) (a : Nat) (bs : List Byte) : (s.homeWriteAll a bs).clock = s.clock := by
  unfold State.homeWriteAll
  generalize linePieces _ _ _ = l
  induction l generalizing s with
  | nil => rfl
  | cons p l ih => rw [List.foldl_cons, ih, clock_homeWrite]

theorem clock_ringPut (s : State) (f w a b : Nat) : (s.ringPut f w a b).clock = s.clock := by
  unfold State.ringPut
  dsimp only
  split
  · split
    · rfl
    · exact clock_homeWriteAll _ _ _
  · rfl

theorem clock_postEvent (s : State) (d : Option Nat) (k : Nat) (a b : Word) : (s.postEvent d k a b).clock = s.clock := by
  unfold State.postEvent
  split
  · exact clock_ringPut _ _ _ _ _
  · dsimp only
    split
    · exact (clock_ringPut _ _ _ _ _).trans (clock_ringPut _ _ _ _ _)
    · exact clock_ringPut _ _ _ _ _

/-- A violation that is logged changes the home of memory, the dies and Selvedge. -/
theorem logViolation_frame (s : State) (d addr : Nat) (rq : Rq) (key resp : Nat) (acc : Acc) :
    s.logViolation d addr rq key resp acc = s.withHome (s.logViolation d addr rq key resp acc) := by
  unfold State.logViolation
  dsimp only
  split
  · rfl
  · exact (State.postEvent_frame _ _ _ _ _).trans rfl

theorem clock_logViolation (s : State) (d addr : Nat) (rq : Rq) (key resp : Nat) (acc : Acc) :
    (s.logViolation d addr rq key resp acc).clock = s.clock := by
  unfold State.logViolation
  dsimp only
  split
  · rfl
  · exact clock_postEvent _ _ _ _ _

end Sys2Proof.Proofs
end

section
/-! Proofs, family 14 (chairli): what is watched does not depend on the fabric (R278, R291). -/

namespace Sys2Proof.Proofs

open Sys2Proof Sys2Proof.Machine Sys2Proof.Claim

theorem withHome_homeTouch (s h : State) (a n : Nat) : (s.withHome h).homeTouch a n = s.withHome (h.homeTouch a n) := by
  unfold State.homeTouch
  generalize linePieces _ _ _ = l
  induction l generalizing h with
  | nil => rfl
  | cons p l ih =>
    rw [List.foldl_cons, List.foldl_cons, State.withHome_windowOf]
    cases h.windowOf p.1 with
    | none => exact ih h
    | some w => simp only [State.withHome_fillLine, ih]

theorem withHome_badAt (s h : State) (a n : Nat) : (s.withHome h).badAt a n = h.badAt a n := by
  unfold State.badAt
  rw [withHome_homeTouch, State.withHome_lost]
  rfl

theorem withHome_keyedWalk (s h : State) (k : Nat) (w : Walk) (l : List Nat) :
    (s.withHome h).keyedWalk k w l = h.keyedWalk k w l := by
  induction l with
  | nil => rfl
  | cons a r ih =>
    have hown : (s.withHome h).ownerAt a = h.ownerAt a := rfl
    rw [State.keyedWalk, State.keyedWalk, ih, hown]

theorem withHome_walkFrom (s h : State) (va : Nat) (l : List Nat) : ∀ (seen : List Nat) (base : Nat),
    (s.withHome h).walkFrom va seen l base = h.walkFrom va seen l base := by
  induction l with
  | nil => exact fun _ _ => rfl
  | cons n rest ih =>
    intro seen base
    have hunowned : ∀ a, (s.withHome h).unowned a = h.unowned a := fun _ => rfl
    simp only [State.walkFrom, State.withHome_lost, hunowned, withHome_badAt, withHome_homeNat,
      withHome_keyedWalk, ih]

theorem withHome_translate (s h : State) (d : Nat) (va : Word) : (s.withHome h).translate d va = h.translate d va := by
  unfold State.translate State.walk
  simp only [State.withHome_die, withHome_walkFrom]
  rfl

theorem withHome_watched (s h : State) (o : Option Nat) (a n : Nat) : (s.withHome h).watched o a n = h.watched o a n := by
  unfold State.watched State.pagesTouch
  simp only [withHome_translate]
  rfl

/-- R278: the fabric watches no memory. -/
theorem watched_of_fab (s : State) (b : Fabric) (o : Option Nat) (a n : Nat) :
    State.watched { s with fab := b } o a n = s.watched o a n := withHome_watched { s with fab := b } s o a n

end Sys2Proof.Proofs
end

section
/-! Proofs, family 14 (chairli): flits at their target (R383, R384, R395, R398, R399, R402, R403). -/

namespace Sys2Proof.Proofs

open Sys2Proof Sys2Proof.Machine Sys2Proof.Claim

/-- Little-endian bytes of a number that they hold. -/
theorem leNat_leBytes_of_lt {n v : Nat} (h : v < 256 ^ n) : leNat (leBytes n v) = v := by
  rw [leNat_leBytes, Nat.mod_eq_of_lt h]

/-! ### Memory that serves a request of another package (R101, R104, R266) -/

section
variable {s : State} {key pa n x : Nat} {acc : Acc} {va : Word} (h : Serves s key pa n)
include h

theorem homeCheck_fabric : s.homeCheck (.fabric x) acc pa key va = .ok s () := by
  obtain ⟨d, hd, halive, howner, -⟩ := h
  simp [State.homeCheck, hd, halive, howner, State.keyMay]

theorem homeLoad_fabric : s.homeLoad (.fabric x) acc pa n key va = .ok s (s.mem.readBytes pa n) := by
  obtain ⟨hw, h2, -⟩ := plain_of_serves h
  have hcheck := homeCheck_fabric (x := x) (acc := acc) (va := va) h
  obtain ⟨-, -, -, -, -, hline, hn, hgood⟩ := h
  simp only [State.homeLoad, hcheck, Did.bind, homeReadAll_line hn hline hw h2, firstBad_none _ _ _ hgood]

/-- R104: no uncorrectable word lies where the bytes are written. -/
theorem healMem_serves : s.healMem pa n = s := by
  obtain ⟨-, -, -, -, -, -, -, hgood⟩ := h
  have hkeep : s.memBad.filter (fun w => !(pa ≤ w && w + 8 ≤ pa + n)) = s.memBad := by
    rw [List.filter_eq_self]
    intro w hw
    have := hgood w hw
    simp
    omega
  rw [State.healMem, hkeep]

theorem homeWriteAll_serves {bs : List Byte} (hlen : bs.length = n) :
    s.homeWriteAll pa bs = { s with mem := s.mem.writeBytes pa bs } := by
  subst hlen
  have hheal := healMem_serves h
  obtain ⟨hw, h2, hlost⟩ := plain_of_serves h
  obtain ⟨-, -, -, -, -, hline, hn, -⟩ := h
  rw [homeWriteAll_line hn hline hw h2 hlost, hheal]

theorem homeStore_fabric {bs : List Byte} (hlen : bs.length = n) :
    s.homeStore (.fabric x) acc pa key bs va = .ok { s with mem := s.mem.writeBytes pa bs } () := by
  subst hlen
  obtain ⟨hw, h2, -⟩ := plain_of_serves h
  have hcheck := homeCheck_fabric (x := x) (acc := acc) (va := va) h
  have hwrite := homeWriteAll_serves h rfl
  obtain ⟨-, -, -, -, -, hline, hn, hgood⟩ := h
  have hwhole : s.memBad.filter (fun w => w < pa + bs.length && pa < w + 8 && !(pa ≤ w && w + 8 ≤ pa + bs.length)) = [] := by
    rw [List.filter_eq_nil_iff]
    intro w hw
    have := hgood w hw
    simp only [Bool.and_eq_true, decide_eq_true_eq, not_and]
    omega
  simp only [State.homeStore, hcheck, Did.bind, homeTouch_line hn hline hw, hwhole, hwrite]

end

/-- R218, R402: the sum takes the place of the word. -/
theorem addHome_fabric {s : State} {key pa x : Nat} (h : Serves s key pa 4) (v : Nat) (va : Word) :
    s.addHome (.fabric x) pa key v va =
      .ok { s with mem := s.mem.writeBytes pa (leBytes 4 (fp32Add (le s.mem pa 4) v).1) } (fp32Add (le s.mem pa 4) v).2 := by
  obtain ⟨hw, h2, hlost⟩ := plain_of_serves h
  have hcheck := homeCheck_fabric (x := x) (acc := .atomic) (va := va) h
  have hwrite := homeWriteAll_serves h (leBytes_length 4 (fp32Add (le s.mem pa 4) v).1)
  obtain ⟨-, -, -, -, -, hline, hn, hgood⟩ := h
  have hgood : s.badAt pa 4 = none := by
    rw [State.badAt, hlost, homeTouch_line hn hline hw, firstBad_none _ _ _ hgood]
    rfl
  simp only [State.addHome, hcheck, Did.bind, homeReadAll_line hn hline hw h2, hgood, Option.isSome_none, Bool.false_eq_true,
    if_false, leNat_readBytes, hwrite]

/-! ### What a valid region admits (R394, R395) -/

section
variable {s : State} {f : Flit} {r : Region} {pa n : Nat} (h : Admits s f r pa n)
include h

theorem admits_below : pa < 2 ^ 56 := by
  obtain ⟨-, -, -, -, -, ⟨d, -, -, -, -, -, hn, -⟩, hbase, hat⟩ := h
  rcases hat with ⟨-, -, hoff, hpa⟩ | ⟨-, -, -, htop, -⟩ <;> omega

theorem admits_toNat : (BitVec.ofNat 64 pa).toNat = pa := by
  have := admits_below h
  rw [BitVec.toNat_ofNat, Nat.mod_eq_of_lt (by omega)]

theorem admits_space : space (BitVec.ofNat 64 pa) ≠ 0xF1 := by
  have hlt := admits_below h
  have hz : pa / 2 ^ 56 = 0 := Nat.div_eq_of_lt hlt
  simp [space, admits_toNat h]
  omega

theorem checkFlit_admits (hspan : flitSpan f = n) (hperm : r.permits f.typ = true) :
    ∃ k, s.checkFlit f = .ok (k, BitVec.ofNat 64 pa) ∧ s.region k = r := by
  have hlt := admits_below h
  obtain ⟨hv, hpart, hdrain, hpeer, htcm, -, hbase, hat⟩ := h
  have hmay : ¬(r.anyp = false ∧ r.peer ≠ f.src) := by rcases hpeer with h | h <;> simp [h]
  have htop : ¬((f.nar = true ∧ f.typ ≠ 2) ∧ f.tcm ≠ r.tcm) := by rcases htcm with h | h <;> simp [h]
  rcases hat with ⟨hhdl, rfl, hoff, rfl⟩ | ⟨hhdl, ⟨k, hcells⟩, hlo, hhi, hpa⟩
  · refine ⟨f.hdl, ?_, rfl⟩
    have hadd : (s.region f.hdl).base + BitVec.ofNat 64 f.off = BitVec.ofNat 64 ((s.region f.hdl).base.toNat + f.off) := by
      bv_omega
    simp [State.checkFlit, hhdl, hv, hpart, hdrain, hperm, hspan, hoff, hadd, hmay, htop, Nat.not_lt.mpr]
  · have hreg : s.region k = r := by simp [State.region, Tab.get, hcells, lookKey]
    have hpa : flitPa f = pa := hpa.symm
    refine ⟨k, ?_, hreg⟩
    simp [State.checkFlit, hhdl, hv, hpart, hdrain, hperm, hspan, hcells, hreg, hpa, hlo, hhi, hmay, htop]

end

theorem admits_atTurn {s : State} {f : Flit} {r : Region} {pa n : Nat} (h : Admits s f r pa n) (typ : Nat) :
    Admits (atTurn s f) { f with typ := typ } r pa n := h

/-! ### Admitted flits, by type (R398, R399, R402, R403) -/

/-- R398, R399, R402, R403: the types of the flits that access memory at their target. -/
def targetTypes : List Nat := [0x01, 0x02, 0x04, 0x05, 0x07, 0x08, 0x09]

theorem performFlit_target (s : State) {f : Flit} (htyp : f.typ ∈ targetTypes) : s.performFlit f none = s.targetFlit f none := by
  simp only [targetTypes, List.mem_cons, List.not_mem_nil, or_false] at htyp
  rcases htyp with h | h | h | h | h | h | h <;> simp only [State.performFlit, h]

theorem listedType_target {typ : Nat} (h : typ ∈ targetTypes) : listedType typ = true := by
  revert typ
  decide

theorem performFlit_admitted {s : State} {f : Flit} {k : Nat} {a : Word} (htyp : f.typ ∈ targetTypes)
    (hcheck : s.checkFlit f = .ok (k, a)) : s.performFlit f none = s.performAt f k a := by
  rw [performFlit_target s htyp]
  simp only [State.targetFlit, hcheck]

section
variable {s : State} {f : Flit} {k pa n x : Nat} {acc : Acc} {g : Nat → Option Nat} {at_ : Word}

variable (hserves : Serves s f.qd pa n) (hat : at_.toNat = pa) (hspace : space at_ ≠ 0xF1) (hwatch : s.watched none pa n = false)
include hserves hat hspace hwatch

theorem targetLoad_serves : s.targetLoad f at_ n = .ok s (s.mem.readBytes pa n) := by
  simp only [State.targetLoad, if_neg hspace, hat, hwatch, Bool.false_eq_true, if_false, homeLoad_fabric hserves]

theorem targetStore_serves {bs : List Byte} (hlen : bs.length = n) :
    s.targetStore f at_ bs = .ok { s with mem := s.mem.writeBytes pa bs } () := by
  simp only [State.targetStore, if_neg hspace, hat, hlen, hwatch, Bool.false_eq_true, if_false,
    homeStore_fabric hserves hlen]

/-- R399: the old word is answered, and what the operation makes of it takes its place. -/
theorem targetAtomic_writes {v : Nat} (hg : g (le s.mem pa n) = some v) : s.targetAtomic f at_ n g =
    .ok { s with mem := s.mem.writeBytes pa (leBytes n v) } (le s.mem pa n) := by
  simp only [State.targetAtomic, if_neg hspace, hat, hwatch, Bool.false_eq_true, if_false, homeLoad_fabric hserves, Did.bind,
    leNat_readBytes, hg, homeWriteAll_serves hserves (leBytes_length n v)]

/-- R399: the old word is answered, and stays where the operation makes nothing of it. -/
theorem targetAtomic_keeps (hg : g (le s.mem pa n) = none) : s.targetAtomic f at_ n g = .ok s (le s.mem pa n) := by
  simp only [State.targetAtomic, if_neg hspace, hat, hwatch, Bool.false_eq_true, if_false, homeLoad_fabric hserves, Did.bind,
    leNat_readBytes, hg]

/-- R398: a get of one line is answered by one flit. -/
theorem getReplies_line (id : Nat) (tcm : Bool) (fuel : Nat) : s.getReplies f at_ n id tcm (fuel + 1) 0 =
    some (s.sendUrgent f.qd f.src { typ := 0x03, nar := f.nar, tcm := f.nar && tcm, hdl := f.hdl, off := 0, len := n - 1
                                    aux := id, payload := s.mem.readBytes pa n }) := by
  have hload := targetLoad_serves (f := f) hserves hat hspace hwatch
  obtain ⟨-, -, -, -, -, hline, hn, -⟩ := hserves
  have hm : min 256 (n - 0) = n := by omega
  rw [State.getReplies, if_neg (by omega)]
  simp only [hm, BitVec.add_zero, hload]
  cases fuel with
  | zero => rfl
  | succ m => rw [State.getReplies, if_pos (by omega)]

/-- R403: PUT and PST. -/
theorem performAt_store (htyp : f.typ = 0x01 ∨ f.typ = 0x09) (hn : n = f.len + 1) (hlen : f.payload.length = n) :
    s.performAt f k at_ = some { s with mem := s.mem.writeBytes pa f.payload } := by
  have hspan : flitSpan f = n := by rcases htyp with h | h <;> simp [flitSpan, h, hn]
  have hstore := targetStore_serves (f := f) hserves hat hspace hwatch hlen
  have htake : f.payload.take n = f.payload := List.take_of_length_le hlen.le
  rcases htyp with h | h <;> simp only [State.performAt, h, hspan, htake, hstore]

/-- R398: GETQ. -/
theorem performAt_getq {id : Nat} (htyp : f.typ = 0x02) (hpay : f.payload = leBytes 4 n ++ leBytes 1 id) (hid : id < 256) :
    s.performAt f k at_ = some (s.sendUrgent f.qd f.src
      { typ := 0x03, nar := f.nar, tcm := f.nar && (s.region k).tcm, hdl := f.hdl, off := 0, len := n - 1, aux := id
        payload := s.mem.readBytes pa n }) := by
  have hsmall : n < 256 ^ 4 := by obtain ⟨-, -, -, -, -, hline, -, -⟩ := hserves; omega
  have hfirst : leNat (f.payload.take 4) = n := by
    rw [hpay, List.take_left' (leBytes_length 4 n), leNat_leBytes_of_lt hsmall]
  have hlast : leNat ((f.payload.drop 4).take 1) = id := by
    rw [hpay, List.drop_left' (leBytes_length 4 n), List.take_of_length_le (by simp), leNat_leBytes_of_lt hid]
  have hspan : flitSpan f = n := by simp [flitSpan, htyp, hfirst]
  simp only [State.performAt, htyp, hspan, hlast, getReplies_line hserves hat hspace hwatch]

/-- R403: PLD. -/
theorem performAt_pld (htyp : f.typ = 0x08) (hn : n = f.len + 1) :
    s.performAt f k at_ = some (s.sendUrgent f.qd f.src
      { typ := 0x03, hdl := 0xFFF, off := leNat (f.payload.take 2), len := n - 1, payload := s.mem.readBytes pa n }) := by
  have hspan : flitSpan f = n := by simp [flitSpan, htyp, hn]
  simp only [State.performAt, htyp, hspan, targetLoad_serves hserves hat hspace hwatch]

end

section
variable {s : State} {f : Flit} {k pa : Nat} {at_ : Word} (hat : at_.toNat = pa) (hspace : space at_ ≠ 0xF1)
include hat hspace

/-- R399: RADD. -/
theorem performAt_radd (hserves : Serves s f.qd pa 8) (hwatch : s.watched none pa 8 = false) {b : Nat} (htyp : f.typ = 0x04)
    (hpay : f.payload = leBytes 8 b) (hb : b < 2 ^ 64) : s.performAt f k at_ =
      some ({ s with mem := s.mem.writeBytes pa (leBytes 8 ((le s.mem pa 8 + b) % 2 ^ 64)) }.sendUrgent f.qd f.src
        (atrOf f (le s.mem pa 8))) := by
  have hval : leNat (f.payload.take 8) = b := by
    rw [hpay, List.take_of_length_le (by simp), leNat_leBytes_of_lt hb]
  have hact := targetAtomic_writes (f := f) (g := fun old => some ((old + b) % 2 ^ 64)) hserves hat hspace hwatch rfl
  simp only [State.performAt, htyp, hval, hact]

/-- R399: RCAS. -/
theorem performAt_rcas (hserves : Serves s f.qd pa 8) (hwatch : s.watched none pa 8 = false) {e b : Nat} (htyp : f.typ = 0x05)
    (hpay : f.payload = leBytes 8 e ++ leBytes 8 b) (he : e < 2 ^ 64) (hb : b < 2 ^ 64) : s.performAt f k at_ =
      some ((if le s.mem pa 8 = e then { s with mem := s.mem.writeBytes pa (leBytes 8 b) } else s).sendUrgent f.qd f.src
        (atrOf f (le s.mem pa 8))) := by
  have hexpected : leNat (f.payload.take 8) = e := by
    rw [hpay, List.take_left' (leBytes_length 8 e), leNat_leBytes_of_lt he]
  have hval : leNat ((f.payload.drop 8).take 8) = b := by
    rw [hpay, List.drop_left' (leBytes_length 8 e), List.take_of_length_le (by simp), 
      leNat_leBytes_of_lt hb]
  simp only [State.performAt, htyp, hexpected, hval]
  by_cases hold : le s.mem pa 8 = e
  · have hact := targetAtomic_writes (f := f) (g := fun old => if old = e then some b else none) hserves hat hspace hwatch
      (if_pos hold)
    simp only [hact, if_pos hold]
  · have hact := targetAtomic_keeps (f := f) (g := fun old => if old = e then some b else none) hserves hat hspace hwatch
      (if_neg hold)
    simp only [hact, if_neg hold]

/-- R402: FADD of one value. -/
theorem performAt_fadd (hserves : Serves s f.qd pa 4) (hwatch : s.watched none pa 4 = false) {v : Nat} (htyp : f.typ = 0x07)
    (hlen : f.len = 3) (hpay : f.payload = leBytes 4 v) (hv : v < 2 ^ 32) : s.performAt f k at_ =
      some { s with mem := s.mem.writeBytes pa (leBytes 4 (fp32Add (le s.mem pa 4) v).1) } := by
  have hspan : flitSpan f = 4 := by simp [flitSpan, htyp, hlen]
  have htake : f.payload.take 4 = leBytes 4 v := by rw [hpay, List.take_of_length_le (by simp)]
  have hval : leNat (leBytes 4 v) = v := by rw [leNat_leBytes_of_lt hv]
  have hadd : s.faddAll f at_ (leBytes 4 v) =
      .ok { s with mem := s.mem.writeBytes pa (leBytes 4 (fp32Add (le s.mem pa 4) v).1) } () := by
    rw [leBytes, leBytes, leBytes, leBytes, leBytes, State.faddAll, if_neg hspace, hat, hwatch]
    simp only [Bool.false_eq_true, if_false]
    change Did.bind (s.addHome (.fabric f.src) pa f.qd (leNat (leBytes 4 v)) 0) _ = _
    rw [hval, addHome_fabric hserves]
    rfl
  have hread := targetAtomic_keeps (f := f) (g := fun _ => none) hserves hat hspace hwatch rfl
  simp only [State.performAt, htyp, hspan, htake, hread, Did.bind, hadd]

end

/-! ### A flit that is performed in its turn -/

/-- Answers as they wait to be sent (R437). -/
def waiting (us : List Flit) : List Outbound := us.map (fun u => { flit := u })

/-- The state after a flit that leaves memory `m` and the answers `us`, before its delivery counts. -/
def repliedState (s : State) (f : Flit) (m : Memory) (us : List Flit) : State :=
  State.setConn { s with mem := m } f.qd f.src { s.conn f.qd f.src with
    used := s.clock, urgent := (s.conn f.qd f.src).urgent ++ waiting us }

theorem atTurn_with_mem (s : State) (f : Flit) (m : Memory) : { atTurn s f with mem := m } = repliedState s f m [] := by
  simp only [repliedState, waiting, List.map_nil, List.append_nil]
  rfl

theorem sendUrgent_atTurn (s : State) (f u : Flit) (m : Memory) :
    State.sendUrgent { atTurn s f with mem := m } f.qd f.src u = repliedState s f m [u] := by
  rw [atTurn_with_mem]
  simp [State.sendUrgent, State.modConn, repliedState, waiting]

theorem performs_of_performFlit {i : Instr} {s : State} {f : Flit} {typ : Nat} {us : List Flit} {m : Memory}
    (h : NextInOrder s f) (hlist : listedType typ = true) (hx : exec i s = s.arrive f typ)
    (hperf : (atTurn s f).performFlit { f with typ := typ } none = some (repliedState s f m us)) :
    ∃ t, Performs i s f us t ∧ t.mem = m := by
  obtain ⟨t, ht, hdelivered, hframe⟩ := arrive_performed (us := us) h hlist hperf rfl rfl (conn_setConn _ _ _ _)
  have hall : t.threads = s.threads ∧ t.cores = s.cores ∧ t.clusters = s.clusters ∧ t.dies = s.dies ∧ t.trg = s.trg ∧
      t.reqs = s.reqs ∧ t.mem = m := by
    rw [hframe]
    exact ⟨rfl, rfl, rfl, rfl, rfl, rfl, rfl⟩
  obtain ⟨hthreads, hcores, hclusters, hdies, htrg, hreqs, hmem⟩ := hall
  exact ⟨t, ⟨hx.trans ht, hdelivered, hthreads, hcores, hclusters, hdies, htrg, hreqs⟩, hmem⟩

theorem putsBytes_of_mem {s t : State} {pa : Nat} {bs : List Byte} (h : t.mem = s.mem.writeBytes pa bs) :
    Claim.PutsBytes s t pa bs := by
  rw [Claim.PutsBytes, h]
  exact ⟨fun j hj => Memory.read_writeBytes_inside _ _ _ _ hj, fun y hy => Memory.read_writeBytes_outside _ _ _ _ hy⟩

theorem serves_atTurn {s : State} {q pa n : Nat} (h : Serves s q pa n) (f : Flit) : Serves (atTurn s f) q pa n := h

/-! ### The seven types (R398, R399, R402, R403) -/

/-- A flit of a type that reaches memory is performed at the address that its region gives. -/
theorem admitted_performs {i : Instr} {s : State} {f : Flit} {r : Region} {pa n typ : Nat} {us : List Flit} {m : Memory}
    (h : NextInOrder s f) (hadmit : Admits s f r pa n) (htyp : typ ∈ targetTypes) (hx : exec i s = s.arrive f typ)
    (hspan : flitSpan { f with typ := typ } = n) (hperm : r.permits typ = true)
    (hperf : ∀ k, (s.region k).tcm = r.tcm → (atTurn s f).performAt { f with typ := typ } k (BitVec.ofNat 64 pa) =
      some (repliedState s f m us)) : ∃ t, Performs i s f us t ∧ t.mem = m := by
  obtain ⟨k, hcheck, hregion⟩ := checkFlit_admits (admits_atTurn hadmit typ) hspan hperm
  exact performs_of_performFlit h (listedType_target htyp) hx
    ((performFlit_admitted htyp hcheck).trans (hperf k (congrArg Region.tcm hregion)))

/-- The state at the flit's turn serves the address. -/
theorem admits_at {s : State} {f : Flit} {r : Region} {pa n : Nat} (hadmit : Admits s f r pa n)
    (hwatch : s.watched none pa n = false) : Serves (atTurn s f) f.qd pa n ∧ (atTurn s f).watched none pa n = false ∧
    (BitVec.ofNat 64 pa).toNat = pa ∧ space (BitVec.ofNat 64 pa) ≠ 0xF1 :=
  ⟨serves_atTurn hadmit.2.2.2.2.2.1 f, (watched_of_fab _ _ _ _ _).trans hwatch, admits_toNat hadmit, admits_space hadmit⟩

section
variable {s : State} {f : Flit} {r : Region} {pa n : Nat} (h : NextInOrder s f) (hadmit : Admits s f r pa n)
  (hwatch : s.watched none pa n = false)
include h hadmit hwatch

/-- R403: PUT and PST. -/
theorem storeFlit_performs {i : Instr} {typ : Nat} (htyp : typ = 0x01 ∨ typ = 0x09) (hx : exec i s = s.arrive f typ)
    (hperm : r.wr = true) (hn : n = f.len + 1) (hlen : f.payload.length = n) :
    ∃ t, Performs i s f [] t ∧ Claim.PutsBytes s t pa f.payload := by
  obtain ⟨hserves, hwatch, hat, hspace⟩ := admits_at hadmit hwatch
  have hmem : typ ∈ targetTypes ∧ flitSpan { f with typ := typ } = n ∧ r.permits typ = true := by
    rcases htyp with rfl | rfl <;> exact ⟨by decide, hn.symm, hperm⟩
  obtain ⟨htarget, hspan, hperm⟩ := hmem
  obtain ⟨t, ht, htm⟩ := admitted_performs (us := []) h hadmit htarget hx hspan hperm fun k _ =>
    (performAt_store (f := { f with typ := typ }) hserves hat hspace hwatch htyp hn hlen).trans
      (congrArg some (atTurn_with_mem s f _))
  exact ⟨t, ht, putsBytes_of_mem htm⟩

/-- R398: GETQ. -/
theorem getq_performs {id : Nat} (hpay : f.payload = leBytes 4 n ++ leBytes 1 id) (hid : id < 256) (hperm : r.rd = true) :
    ∃ t, Performs (.getq f) s f
      [{ typ := 0x03, nar := f.nar, tcm := f.nar && r.tcm, hdl := f.hdl, off := 0
         len := n - 1, aux := id, payload := s.mem.readBytes pa n }] t ∧ t.mem = s.mem := by
  obtain ⟨hserves, hwatch, hat, hspace⟩ := admits_at hadmit hwatch
  have hsmall : n < 256 ^ 4 := by obtain ⟨-, -, -, -, -, hline, -, -⟩ := hserves; omega
  have hspan : flitSpan { f with typ := 0x02 } = n := by
    simp only [flitSpan, hpay, if_true, List.take_left' (leBytes_length 4 n), leNat_leBytes_of_lt hsmall]
  refine admitted_performs h hadmit (typ := 0x02) (by decide) rfl hspan hperm fun k hk => ?_
  rw [performAt_getq (f := { f with typ := 0x02 }) hserves hat hspace hwatch rfl hpay hid]
  refine congrArg some ?_
  rw [← sendUrgent_atTurn, ← hk]
  rfl

/-- R403: PLD. -/
theorem pld_performs (hn : n = f.len + 1) (hperm : r.rd = true) : ∃ t, Performs (.pld f) s f
    [{ typ := 0x03, hdl := 0xFFF, off := leNat (f.payload.take 2), len := n - 1, payload := s.mem.readBytes pa n }] t ∧
      t.mem = s.mem := by
  obtain ⟨hserves, hwatch, hat, hspace⟩ := admits_at hadmit hwatch
  refine admitted_performs h hadmit (typ := 0x08) (by decide) rfl hn.symm hperm fun k _ => ?_
  rw [performAt_pld (f := { f with typ := 0x08 }) hserves hat hspace hwatch rfl hn, ← sendUrgent_atTurn]
  rfl

end

section
variable {s : State} {f : Flit} {r : Region} {pa : Nat} (h : NextInOrder s f)
include h

/-- R399: RADD. -/
theorem raddFlit_performs {b : Nat} (hadmit : Admits s f r pa 8) (hwatch : s.watched none pa 8 = false)
    (hpay : f.payload = leBytes 8 b) (hb : b < 2 ^ 64) (hperm : r.at_ = true) : ∃ t, Performs (.raddFlit f) s f
      [{ typ := 0x06, hdl := f.hdl, off := f.off, len := 10
         payload := leBytes 8 (le s.mem pa 8) ++ leBytes 3 f.seq }] t ∧
      Claim.PutsBytes s t pa (leBytes 8 ((le s.mem pa 8 + b) % 2 ^ 64)) := by
  obtain ⟨hserves, hwatch, hat, hspace⟩ := admits_at hadmit hwatch
  obtain ⟨t, ht, hmem⟩ := admitted_performs (i := .raddFlit f) h hadmit (typ := 0x04) (by decide) rfl rfl hperm fun k _ =>
    (performAt_radd (f := { f with typ := 0x04 }) hat hspace hserves hwatch rfl hpay hb).trans
      (congrArg some (sendUrgent_atTurn s f _ _))
  exact ⟨t, ht, putsBytes_of_mem hmem⟩

/-- R399: RCAS. -/
theorem rcasFlit_performs {e b : Nat} (hadmit : Admits s f r pa 8) (hwatch : s.watched none pa 8 = false)
    (hpay : f.payload = leBytes 8 e ++ leBytes 8 b) (he : e < 2 ^ 64) (hb : b < 2 ^ 64) (hperm : r.at_ = true) :
    ∃ t, Performs (.rcasFlit f) s f
      [{ typ := 0x06, hdl := f.hdl, off := f.off, len := 10
         payload := leBytes 8 (le s.mem pa 8) ++ leBytes 3 f.seq }] t ∧
      (le s.mem pa 8 = e → Claim.PutsBytes s t pa (leBytes 8 b)) ∧ (le s.mem pa 8 ≠ e → t.mem = s.mem) := by
  obtain ⟨hserves, hwatch, hat, hspace⟩ := admits_at hadmit hwatch
  have hperf := fun k => performAt_rcas (k := k) (f := { f with typ := 0x05 }) hat hspace hserves hwatch rfl hpay he hb
  by_cases hold : le s.mem pa 8 = e
  · obtain ⟨t, ht, hmem⟩ := admitted_performs (i := .rcasFlit f) h hadmit (typ := 0x05) (by decide) rfl rfl hperm fun k _ =>
      (hperf k).trans (congrArg some ((congrArg (fun w => State.sendUrgent w f.qd f.src _) (if_pos hold)).trans
        (sendUrgent_atTurn s f _ _)))
    exact ⟨t, ht, fun _ => putsBytes_of_mem hmem, fun h => absurd hold h⟩
  · obtain ⟨t, ht, hmem⟩ := admitted_performs (i := .rcasFlit f) h hadmit (typ := 0x05) (by decide) rfl rfl hperm fun k _ =>
      (hperf k).trans (congrArg some ((congrArg (fun w => State.sendUrgent w f.qd f.src _) (if_neg hold)).trans
        (sendUrgent_atTurn s f _ s.mem)))
    exact ⟨t, ht, fun h => absurd h hold, fun _ => hmem⟩

/-- R402: FADD. -/
theorem fadd_performs {v : Nat} (hadmit : Admits s f r pa 4) (hwatch : s.watched none pa 4 = false) (hlen : f.len = 3)
    (hpay : f.payload = leBytes 4 v) (hv : v < 2 ^ 32) (hperm : r.at_ = true) : ∃ t, Performs (.fadd f) s f [] t ∧
      Claim.PutsBytes s t pa (leBytes 4 (fp32Add (le s.mem pa 4) v).1) := by
  obtain ⟨hserves, hwatch, hat, hspace⟩ := admits_at hadmit hwatch
  have hspan : flitSpan { f with typ := 0x07 } = 4 := by simp [flitSpan, hlen]
  obtain ⟨t, ht, hmem⟩ := admitted_performs (i := .fadd f) (us := []) h hadmit (typ := 0x07) (by decide) rfl hspan hperm fun k _ =>
    (performAt_fadd (f := { f with typ := 0x07 }) hat hspace hserves hwatch rfl hlen hpay hv).trans
      (congrArg some (atTurn_with_mem s f _))
  exact ⟨t, ht, putsBytes_of_mem hmem⟩

end

/-! ### Refusals (R395, R396) -/

/-- A refusal keeps threads, cores and the clock, and its ERR flit waits to be sent. -/
theorem denyFlit_frame (s : State) (f : Flit) (d : Denied) : ∃ u, s.denyFlit f d = u.sendUrgent f.qd f.src (errFlitOf f d.kind) ∧
    u = s.withHome u ∧ u.clock = s.clock := by
  unfold State.denyFlit
  cases d.log with
  | none => exact ⟨s, rfl, rfl, rfl⟩
  | some k => exact ⟨_, rfl, logViolation_frame _ _ _ _ _ _ _, clock_logViolation _ _ _ _ _ _ _⟩

/-- A flit that is refused is delivered all the same; its ERR flit names it. -/
theorem arrive_denied {s : State} {f : Flit} (h : NextInOrder s f) {typ : Nat} (htyp : typ ∈ targetTypes) {d : Denied}
    (hcheck : s.checkFlit { f with typ := typ } = .error d) : ∃ t, s.arrive f typ = .next t ∧
      Delivered s t f [refusal f typ d.kind] ∧ t.threads = s.threads ∧ t.cores = s.cores := by
  have hperf : (atTurn s f).performFlit { f with typ := typ } none = some ((atTurn s f).denyFlit { f with typ := typ } d) := by
    rw [performFlit_target _ htyp]
    have hcheck : (atTurn s f).checkFlit { f with typ := typ } = .error d := hcheck
    simp only [State.targetFlit, hcheck]
  obtain ⟨u, hu, hframe, hclock⟩ := denyFlit_frame (atTurn s f) { f with typ := typ } d
  have hconn : u.conn f.qd f.src = { s.conn f.qd f.src with used := s.clock } := by
    rw [hframe]
    exact conn_setConn _ _ _ _
  rw [hu] at hperf
  obtain ⟨t, ht, hdelivered, hkeep⟩ := arrive_performed (us := [refusal f typ d.kind]) h (listedType_target htyp) hperf
    (by rw [hframe]; rfl) hclock ((conn_setConn _ _ _ _).trans (by rw [hconn]; rfl))
  refine ⟨t, ht, hdelivered, ?_⟩
  rw [hkeep, hframe]
  exact ⟨rfl, rfl⟩

section
variable {s : State} {f : Flit} (hhdl : f.hdl ≠ 0xFFF)
include hhdl

/-- R396, R455: an entry whose revocation is finished refuses with kind 2. -/
theorem checkFlit_revoked (hv : (s.region f.hdl).v = false) (hpart : (s.region f.hdl).part = f.qd)
    (hrevoked : (s.region f.hdl).revoked = true) : s.checkFlit f = .error { kind := 2, log := some 4 } := by
  simp [State.checkFlit, hhdl, hv, hpart, hrevoked]

theorem checkFlit_invalid (h : (s.region f.hdl).v = false ∧ (s.region f.hdl).revoked = false ∨ (s.region f.hdl).part ≠ f.qd) :
    s.checkFlit f = .error { kind := 1, log := some 3 } := by
  rcases h with ⟨hv, hrevoked⟩ | hpart
  · simp [State.checkFlit, hhdl, hv, hrevoked]
  · simp [State.checkFlit, hhdl, hpart]

theorem checkFlit_draining (hv : (s.region f.hdl).v = true) (hpart : (s.region f.hdl).part = f.qd)
    (hdrain : (s.region f.hdl).drain = true) : s.checkFlit f = .error { kind := 2, log := some 4 } := by
  simp [State.checkFlit, hhdl, hv, hpart, hdrain]

theorem checkFlit_forbidden (hv : (s.region f.hdl).v = true) (hpart : (s.region f.hdl).part = f.qd)
    (hdrain : (s.region f.hdl).drain = false) (hrd : (s.region f.hdl).rd = false) (hwr : (s.region f.hdl).wr = false)
    (hat : (s.region f.hdl).at_ = false) (hrevoked : (s.region f.hdl).revoked = false) :
    s.checkFlit f = .error { kind := 1, log := some 3 } := by
  have hperm : (s.region f.hdl).permits f.typ = false := by
    unfold Region.permits
    split_ifs <;> assumption
  simp [State.checkFlit, hhdl, hv, hpart, hdrain, hperm, hrevoked]

end

/-- Every one of the seven events brings its flit under its own type. -/
theorem targetFlit_arrives {s : State} {f : Flit} {i : Instr} {typ : Nat} (h : (i, typ) ∈ [(Instr.putFlit f, 0x01),
    (Instr.getq f, 0x02), (Instr.raddFlit f, 0x04), (Instr.rcasFlit f, 0x05), (Instr.fadd f, 0x07), (Instr.pld f, 0x08),
    (Instr.pst f, 0x09)]) : exec i s = s.arrive f typ ∧ typ ∈ targetTypes := by
  simp only [List.mem_cons, Prod.mk.injEq, List.not_mem_nil, or_false] at h
  rcases h with ⟨rfl, rfl⟩ | ⟨rfl, rfl⟩ | ⟨rfl, rfl⟩ | ⟨rfl, rfl⟩ | ⟨rfl, rfl⟩ | ⟨rfl, rfl⟩ | ⟨rfl, rfl⟩ <;>
    exact ⟨rfl, by decide⟩

/-- Settles O49: at its turn a flit that a valid region admits acts on the bytes that the region gives and is answered as its
type says; one that the region does not admit is answered by ERR. -/
theorem flitsActOnRegisteredMemory : Obligations.FlitsActOnRegisteredMemory := by
  unfold Obligations.FlitsActOnRegisteredMemory
  intro s f h
  refine ⟨fun r pa n hadmit hwatch => ⟨fun i hi hperm hn hlen => ?_, fun id hpay hid hperm => ?_, fun b hn hpay hb hperm => ?_,
    fun e b hn hpay he hb hperm => ?_, fun v hn hlen hpay hv hperm => ?_, fun hn hperm => ?_⟩, fun hhdl i typ hi => ?_⟩
  · simp only [List.mem_cons, List.not_mem_nil, or_false] at hi
    rcases hi with rfl | rfl
    · exact storeFlit_performs h hadmit hwatch (.inl rfl) rfl hperm hn hlen
    · exact storeFlit_performs h hadmit hwatch (.inr rfl) rfl hperm hn hlen
  · exact getq_performs h hadmit hwatch hpay hid hperm
  · subst hn
    exact raddFlit_performs h hadmit hwatch hpay hb hperm
  · subst hn
    exact rcasFlit_performs h hadmit hwatch hpay he hb hperm
  · subst hn
    exact fadd_performs h hadmit hwatch hlen hpay hv hperm
  · exact pld_performs h hadmit hwatch hn hperm
  · obtain ⟨hx, htyp⟩ := targetFlit_arrives (s := s) hi
    rw [hx]
    exact ⟨fun hv hpart hrevoked => arrive_denied h htyp (checkFlit_revoked (f := { f with typ := typ }) hhdl hv hpart hrevoked),
      fun hinvalid => arrive_denied h htyp (checkFlit_invalid (f := { f with typ := typ }) hhdl hinvalid),
      fun hv hpart hdrain => arrive_denied h htyp (checkFlit_draining (f := { f with typ := typ }) hhdl hv hpart hdrain),
      fun hv hpart hdrain hrd hwr hat hrevoked => arrive_denied h htyp
        (checkFlit_forbidden (f := { f with typ := typ }) hhdl hv hpart hdrain hrd hwr hat hrevoked)⟩

end Sys2Proof.Proofs
end

section
/-! Proofs, family 14 (chairli): GETR, ATR and ERR flits at the operation that they answer (R398, R399, R400). -/

namespace Sys2Proof.Proofs

open Sys2Proof Sys2Proof.Machine Sys2Proof.Claim

theorem thread_setConn (s : State) (q x : Nat) (c : Conn) (k : Nat) : (s.setConn q x c).thread k = s.thread k := rfl

/-! ### Operations of the package -/

theorem modFab_ops_all {s : State} {p : RemoteOp → Bool} (h : ∀ o ∈ s.fab.ops, p o = true) :
    s.modFab (fun f => { f with ops := f.ops.filter p }) = s := by
  simp only [State.modFab, List.filter_eq_self.mpr h]

/-- R433: no collective is in progress where no group is in use and no operation is a collective's. -/
theorem settleColls_none {s : State} (hops : OnlyThreadOps s) (hgroups : s.trg.groups.cells = []) : s.settleColls = s := by
  rw [State.settleColls]
  rw [List.filterMap_eq_nil_iff.mpr]
  · rw [List.foldl_nil, hgroups]
    rfl
  · intro o ho
    obtain ⟨-, tid, fl, howner⟩ := hops o ho
    rw [howner]

/-- R403, R433: where every operation is a thread's own and no group is in use, nothing ends by itself. -/
theorem settleOps_threadOps {s : State} (hops : OnlyThreadOps s) (hgroups : s.trg.groups.cells = []) : s.settleOps = s := by
  have hpages : s.fab.ops.filter (fun o => o.kind = .page) = [] := by
    rw [List.filter_eq_nil_iff]
    intro o ho
    simpa using (hops o ho).1
  rw [State.settleOps, hpages, List.foldl_nil, modFab_ops_all]
  · exact settleColls_none hops hgroups
  · intro o ho
    obtain ⟨-, tid, fl, howner⟩ := hops o ho
    rw [howner]

theorem onlyThreadOps_one {s : State} {o : RemoteOp} {tid fl : Nat} (hops : s.fab.ops = [o]) (hkind : o.kind ≠ .page)
    (howner : o.owner = .thread tid fl) : OnlyThreadOps s := by
  intro y hy
  rw [hops, List.mem_singleton] at hy
  subst hy
  exact ⟨hkind, tid, fl, howner⟩

/-- `s` with `o` the one operation of the package. -/
def withOp (s : State) (o : RemoteOp) : State := { s with fab := { s.fab with ops := [o] } }

theorem modOp_one {s : State} {o : RemoteOp} (h : s.fab.ops = [o]) (g : RemoteOp → RemoteOp) : s.modOp o.id g = withOp s (g o) := by
  simp [State.modOp, State.modFab, withOp, h]

theorem onlyThreadOps_withOp {s : State} {o : RemoteOp} {tid fl : Nat} (hkind : o.kind ≠ .page) (howner : o.owner = .thread tid fl) :
    OnlyThreadOps (withOp s o) := onlyThreadOps_one rfl hkind howner

theorem opOfSeq_one {s : State} {o : RemoteOp} {q x n off : Nat} (h : s.fab.ops = [o]) (hpart : o.part = q) (hpeer : o.peer = x)
    (hseqs : o.seqs = [(n, off)]) : s.opOfSeq q x n = some (o, off) := by
  simp [State.opOfSeq, h, hpart, hpeer, hseqs]

/-! ### GETR (R398) -/

/-- The bytes of a get from `off` on, of a destination in one scratchpad. -/
theorem spansAt_scratch {len c a off n : Nat} (hn : 0 < n) (hin : off + n ≤ len) :
    spansAt [{ start := 0, len := len, core := some c, addr := a }] off n =
      [{ start := off, len := n, core := some c, addr := a + off }] := by
  have hlo : max 0 off = off := by omega
  have hhi : min (0 + len) (off + n) = off + n := by omega
  have hlt : off < off + n := by omega
  simp only [spansAt, List.filterMap_cons, hlo, hhi, if_pos hlt, List.filterMap_nil, Option.map_none]
  rw [Nat.add_sub_cancel_left, Nat.sub_zero]

theorem writeSpans_scratchAt {s : State} {c off a : Nat} {va : Word} {bs : List Byte} :
    s.writeSpans c va off bs [{ start := off, len := bs.length, core := some c, addr := a }] =
      s.scratchStore (.engine c) true .store c a bs (va + BitVec.ofNat 64 off) := by
  simp only [State.writeSpans, Nat.sub_self, List.drop_zero, List.take_length, decide_true]
  cases s.scratchStore _ _ _ _ _ _ _ <;> rfl

theorem scratchClear_withOp {s : State} {c : Nat} (h : ScratchClear s c) (o : RemoteOp) : ScratchClear (withOp s o) c := h

section
variable {s : State} {f : Flit} {o : RemoteOp} {n a : Nat} (hops : s.fab.ops = [o]) (hkind : o.kind = .get)
  (hpart : o.part = f.qd) (hpeer : o.peer = f.src) (hid : o.y.toNat = f.aux)
include hops hkind hpart hpeer hid

theorem getOf_one : s.getOf f = some o := by
  simp [State.getOf, hops, hkind, hpart, hpeer, hid]

variable (hhdl : f.hdl ≠ 0xFFF) (hstop : o.stopped = false) (hfault : o.fault = none) (hnar : f.nar = o.nar)
  (htcm : o.nar = false ∨ f.tcm = o.tcm) (hn : n = f.len + 1) (hlen : f.payload.length = n) (hin : f.off + n ≤ o.len)
  (hspans : o.spans = [{ start := 0, len := o.len, core := some o.core, addr := a }])
include hn hin hspans

theorem getrWaits_clear (hwatch : s.watched (some o.core) (a + f.off) n = false) : s.getrWaits f = false := by
  have hat : spansAt o.spans f.off (f.len + 1) = [{ start := f.off, len := n, core := some o.core, addr := a + f.off }] := by
    rw [hspans, ← hn]
    exact spansAt_scratch (by omega) hin
  simp [State.getrWaits, getOf_one hops hkind hpart hpeer hid, hat, State.spansWatched, hwatch]

include hhdl hstop hfault htcm hlen

/-- R398: the bytes of a GETR reach the scratchpad and count. -/
theorem takeGetr_scratch (hclear : ScratchClear s o.core) :
    PutsBytes (withOp s { o with got := o.got + n }) (s.takeGetr f) o.core (a + f.off) f.payload := by
  have hat : spansAt o.spans f.off (f.len + 1) =
      [{ start := f.off, len := f.payload.length, core := some o.core, addr := a + f.off }] := by
    rw [hspans, ← hn, hlen]
    exact spansAt_scratch (by omega) hin
  have htake : f.payload.take (f.len + 1) = f.payload := List.take_of_length_le (by omega)
  have hgo : (o.stopped || o.fault.isSome) = false := by rw [hstop, hfault]; rfl
  have hcode : (o.nar && f.tcm != o.tcm) = false := by rcases htcm with h | h <;> simp [h]
  obtain ⟨t, ht, hputs⟩ := scratchStore_clear (scratchClear_withOp hclear { o with got := o.got + n })
    (.engine o.core) .store (a + f.off) f.payload (o.x + BitVec.ofNat 64 f.off)
  have hnext : t.nextId = (withOp s { o with got := o.got + n }).nextId := by rw [hputs.1]
  have htaken : s.takeGetr f = t := by
    rw [State.takeGetr, if_neg hhdl, getOf_one hops hkind hpart hpeer hid]
    subst hn
    simp only [State.takeGet, modOp_one hops, hgo, hcode, Bool.false_eq_true, if_false, htake, hat, writeSpans_scratchAt, ht, hnext, if_true]
  rw [htaken]
  exact hputs

end

/-! ### The three responses -/

section
variable {s : State} {f : Flit} {o : RemoteOp} {tid fl : Nat} (h : NextInOrder s f) (hops : s.fab.ops = [o])
  (hgroups : s.trg.groups.cells = []) (hpart : o.part = f.qd) (hpeer : o.peer = f.src) (howner : o.owner = .thread tid fl)
include h hops hpart hpeer howner

/-- R399: the old value reaches register d of the thread that waits for it. -/
theorem atr_answers {q off old : Nat} {g : Flight} (hpay : f.payload = leBytes 8 old ++ leBytes 3 q) (hold : old < 2 ^ 64)
    (hq : q < 2 ^ 24) (hseqs : o.seqs = [(q, off)]) (hd : o.d < 108) (hzero : o.d ≠ 96) (hg : (s.thread tid).flight fl = some g) :
    ∃ t, exec (.atr f) s = .next t ∧ Delivered s t f [] ∧ t.fab.ops = [{ o with answered := true }] ∧
      (t.thread tid).readCode o.d = BitVec.ofNat 64 old ∧
      (∀ k, k ≠ o.d → (t.thread tid).readCode k = (s.thread tid).readCode k) ∧ t.mem = s.mem ∧
      ∀ k, k ≠ tid → t.thread k = s.thread k := by
  have hval : leNat (f.payload.take 8) = old := by
    rw [hpay, List.take_left' (leBytes_length 8 old), leNat_leBytes_of_lt hold]
  have hseq : leNat ((f.payload.drop 8).take 3) = q := by
    rw [hpay, List.drop_left' (leBytes_length 8 old), List.take_of_length_le (by simp), leNat_leBytes_of_lt hq]
  have hperf : (atTurn s f).performFlit { f with typ := 0x06 } none =
      some ((withOp (atTurn s f) { o with answered := true }).modThread tid (fun x => x.writeCode o.d (BitVec.ofNat 64 old))) := by
    have hfind : (atTurn s f).opOfSeq f.qd f.src q = some (o, off) := opOfSeq_one hops hpart hpeer hseqs
    have hflight : (((withOp (atTurn s f) { o with answered := true }).thread tid).flight fl).isSome = true :=
      Option.isSome_of_eq_some hg
    simp only [State.performFlit, State.takeAtr, hseq, hval, hfind, modOp_one (s := atTurn s f) hops]
    generalize withOp _ _ = w at hflight ⊢
    simp only [howner, hflight, if_true]
  obtain ⟨t, ht, hdelivered, hframe⟩ := arrive_performed (us := []) h (typ := 0x06) (by decide) hperf rfl rfl
    ((conn_setConn _ _ _ _).trans (by simp))
  have hthread : t.thread tid = (s.thread tid).writeCode o.d (BitVec.ofNat 64 old) := by
    rw [hframe, thread_setConn, State.thread_modThread]
    rfl
  refine ⟨t, ht, hdelivered, by rw [hframe]; rfl, ?_, fun k hk => ?_, by rw [hframe]; rfl, fun k hk => ?_⟩
  · rw [hthread, Thread.readCode_writeCode _ _ _ _ hd, if_neg hzero, if_pos rfl]
  · rw [hthread, Thread.readCode_writeCode _ _ _ _ hd, if_neg hk]
    split_ifs with h96
    · subst h96
      rfl
    · rfl
  · rw [hframe, thread_setConn, State.thread_modThread_other _ _ _ _ hk]
    rfl

include hgroups

/-- R398: the bytes of a get reach the scratchpad and count. -/
theorem getr_answers {n a : Nat} (hkind : o.kind = .get) (hid : o.y.toNat = f.aux) (hhdl : f.hdl ≠ 0xFFF) (hstop : o.stopped = false)
    (hfault : o.fault = none) (htcm : o.nar = false ∨ f.tcm = o.tcm) (hn : n = f.len + 1) (hlen : f.payload.length = n)
    (hin : f.off + n ≤ o.len) (hspans : o.spans = [{ start := 0, len := o.len, core := some o.core, addr := a }])
    (hwatch : s.watched (some o.core) (a + f.off) n = false) (hclear : ScratchClear s o.core) :
    ∃ t, exec (.getr f) s = .next t ∧ Delivered s t f [] ∧ t.fab.ops = [{ o with got := o.got + n }] ∧
      t.threads = s.threads ∧ t.mem = s.mem ∧
      (∀ j, (h : j < f.payload.length) → (t.core o.core).scratch.read (a + f.off + j) = f.payload[j]) ∧
      ∀ x, x < a + f.off ∨ a + f.off + n ≤ x → (t.core o.core).scratch.read x = (s.core o.core).scratch.read x := by
  have hwaits : (atTurn s f).getrWaits { f with typ := 0x03 } = false :=
    getrWaits_clear (f := { f with typ := 0x03 }) hops hkind hpart hpeer hid hn hin hspans
      ((watched_of_fab _ _ _ _ _).trans hwatch)
  have hputs := takeGetr_scratch (s := atTurn s f) (f := { f with typ := 0x03 }) hops hkind hpart hpeer hid hhdl hstop hfault htcm hn
    hlen hin hspans hclear
  obtain ⟨hcores, -, hcore, -⟩ := hputs
  have hidle : ((atTurn s f).takeGetr { f with typ := 0x03 }).settleOps = (atTurn s f).takeGetr { f with typ := 0x03 } := by
    refine settleOps_threadOps ?_ ?_
    · rw [hcores]
      exact onlyThreadOps_withOp (by simp [hkind]) howner
    · rw [hcores]
      exact hgroups
  have hperf : (atTurn s f).performFlit { f with typ := 0x03 } none = some ((atTurn s f).takeGetr { f with typ := 0x03 }) := by
    simp only [State.performFlit, hwaits, Bool.false_eq_true, if_false, hidle]
  obtain ⟨t, ht, hdelivered, hframe⟩ := arrive_performed (us := []) h (typ := 0x03) (by decide) hperf (by rw [hcores]; rfl)
    (by rw [hcores]; rfl) (by rw [hcores]; exact (conn_setConn _ _ _ _).trans (by simp))
  have hscratch : (t.core o.core).scratch = (s.core o.core).scratch.writeBytes (a + f.off) f.payload := by
    have hsame : t.core o.core = ((atTurn s f).takeGetr { f with typ := 0x03 }).core o.core := by rw [hframe]; rfl
    rw [hsame, hcore]
    rfl
  refine ⟨t, ht, hdelivered, by rw [hframe, hcores]; rfl, by rw [hframe, hcores]; rfl, by rw [hframe, hcores]; rfl,
    fun j hj => ?_, fun x hx => ?_⟩
  · rw [hscratch, Memory.read_writeBytes_inside _ _ _ _ hj]
  · rw [hscratch, Memory.read_writeBytes_outside _ _ _ _ (by omega)]

/-- R400: the refusal of a flit is kept with its offset. -/
theorem errFlit_answers {q kind typ off : Nat} (hpay : f.payload = leBytes 1 kind ++ leBytes 1 typ ++ leBytes 6 0 ++ leBytes 3 q)
    (hkind : kind < 256) (hq : q < 2 ^ 24) (hseqs : o.seqs = [(q, off)]) (hrefused : o.refused = none) (hpage : o.kind ≠ .page) :
    ∃ t, exec (.errFlit f) s = .next t ∧ Delivered s t f [] ∧ t.fab.ops = [{ o with refused := some (kind, off) }] ∧
      t.threads = s.threads ∧ t.mem = s.mem := by
  have hwhat : leNat (f.payload.take 1) = kind := by
    rw [hpay, List.append_assoc, List.append_assoc, List.take_left' (leBytes_length 1 kind), leNat_leBytes_of_lt hkind]
  have hseq : leNat ((f.payload.drop 8).take 3) = q := by
    rw [hpay, List.drop_left' (by simp), List.take_of_length_le (by simp), leNat_leBytes_of_lt hq]
  have hfind : (atTurn s f).opOfSeq f.qd f.src q = some (o, off) := opOfSeq_one hops hpart hpeer hseqs
  have hrefuse : o.refuse kind off = { o with refused := some (kind, off) } := by
    simp only [RemoteOp.refuse, hrefused]
  have hperf : (atTurn s f).performFlit { f with typ := 0x0A } none =
      some (withOp (atTurn s f) { o with refused := some (kind, off) }) := by
    simp only [State.performFlit, State.takeErr, hseq, hwhat, hfind, modOp_one (s := atTurn s f) hops, hrefuse]
    exact congrArg some (settleOps_threadOps
      (onlyThreadOps_withOp (o := { o with refused := some (kind, off) }) hpage howner) hgroups)
  obtain ⟨t, ht, hdelivered, hframe⟩ := arrive_performed (us := []) h (typ := 0x0A) (by decide) hperf rfl rfl
    ((conn_setConn _ _ _ _).trans (by simp))
  exact ⟨t, ht, hdelivered, by rw [hframe]; rfl, by rw [hframe]; rfl, by rw [hframe]; rfl⟩

end

end Sys2Proof.Proofs
end

section
/-! Proofs, family 14 (chairli): acknowledgements, going back, and a connection that fails (R388, R389). -/

namespace Sys2Proof.Proofs

open Sys2Proof Sys2Proof.Machine Sys2Proof.Claim

/-! ### A connection that fails (R389) -/

/-- R389: an operation on the connection ends with kind 5. -/
def failedOn (q x : Nat) (o : RemoteOp) : RemoteOp := if o.part = q ∧ o.peer = x then { o with failed := true } else o

theorem failedOn_kind (q x : Nat) (o : RemoteOp) : (failedOn q x o).kind = o.kind := by
  unfold failedOn
  split_ifs <;> rfl

theorem failedOn_owner (q x : Nat) (o : RemoteOp) : (failedOn q x o).owner = o.owner := by
  unfold failedOn
  split_ifs <;> rfl

/-- The fabric after the failure. -/
def failedFabric (b : Fabric) (q x : Nat) : Fabric :=
  { b with conns := b.conns.del (connKey q x), ops := b.ops.map (failedOn q x) }

theorem onlyThreadOps_failed {s : State} (hops : OnlyThreadOps s) (q x : Nat) :
    ∀ o ∈ s.fab.ops.map (failedOn q x), o.kind ≠ .page ∧ ∃ tid fl, o.owner = .thread tid fl := by
  intro o ho
  obtain ⟨y, hy, rfl⟩ := List.mem_map.mp ho
  rw [failedOn_kind, failedOn_owner]
  exact hops y hy

theorem treeFailed_none {s : State} (hgroups : s.trg.groups.cells = []) (q x : Nat) : s.treeFailed q x = s := by
  rw [State.treeFailed, Tab.keys, hgroups]
  rfl

/-- R389, R372: what a failure leaves where every operation is a thread's own, no group is in use and no flit waits. -/
theorem failConn_eq {s : State} {q x : Nat} (hops : OnlyThreadOps s) (hgroups : s.trg.groups.cells = [])
    (hheld : (s.conn q x).held = none) : s.failConn q x =
      State.withHome { s with fab := failedFabric s.fab q x } (s.postEvent none 0x0D (BitVec.ofNat 64 (x + q * 2 ^ 12))
        (BitVec.ofNat 64 (2 + ((s.conn q x).acked + 2 ^ 24 - 1) % 2 ^ 24 * 256))) := by
  have hdrop : s.dropHeld (s.conn q x) = s := by rw [State.dropHeld, hheld]
  have hfab : s.modFab (fun f => { f with
      conns := f.conns.del (connKey q x)
      ops := f.ops.map (fun o => if o.part = q && o.peer = x then { o with failed := true } else o) }) =
      State.withHome { s with fab := failedFabric s.fab q x } s := by
    simp only [State.modFab, failedFabric, Bool.and_eq_true, decide_eq_true_eq, State.withHome]
    rfl
  have hkeep := onlyThreadOps_failed hops q x
  rw [State.failConn, hdrop, hfab, State.withHome_postEvent, modFab_ops_all]
  · refine (congrArg State.settleOps (treeFailed_none ?_ q x)).trans (settleOps_threadOps ?_ ?_)
    · exact hgroups
    · exact hkeep
    · exact hgroups
  · intro o ho
    obtain ⟨-, tid, fl, howner⟩ := hkeep o ho
    rw [howner]

theorem failConn_fails {s : State} {q x : Nat} (hops : OnlyThreadOps s) (hgroups : s.trg.groups.cells = [])
    (hheld : (s.conn q x).held = none) : Fails s (s.failConn q x) q x := by
  rw [failConn_eq hops hgroups hheld]
  refine ⟨Tab.find_del_same _ _, rfl, rfl, rfl, rfl, fun u hu => ?_⟩
  subst hu
  rfl

/-! ### Going back (R388) -/

theorem goBack_again {s : State} {q x : Nat} {e : Option Nat} (h : (s.conn q x).goBacks < s.fab.retry) :
    s.goBack q x e = s.setConn q x { (s.conn q x).goBack e with goBacks := (s.conn q x).goBacks + 1, progress := s.clock } := by
  rw [State.goBack]
  exact if_neg (by omega)

theorem goBack_fails {s : State} {q x : Nat} {e : Option Nat} (h : s.fab.retry ≤ (s.conn q x).goBacks) :
    s.goBack q x e = s.failConn q x := if_pos h

/-! ### ACK and NAK (R388) -/

section
variable {s : State} {f : Flit} (h : Intact s f)
include h

theorem ack_takes : exec (.ack f) s = .next (s.takeAck f.qd f.src f.seq) := by
  show s.onArrival (asType f 0x10) true _ = _
  rw [asType_listed h.2.1, onArrival_intact (intact_withType h (by decide))]

theorem nak_goesBack (hsent : (s.conn f.qd f.src).sent ≠ []) :
    exec (.nak f) s = .next (s.goBack f.qd f.src (some f.seq)) := by
  show s.onArrival (asType f 0x11) true _ = _
  rw [asType_listed h.2.1, onArrival_intact (intact_withType h (by decide)), if_neg (by simpa using hsent)]

theorem nak_idle (hsent : (s.conn f.qd f.src).sent = []) : exec (.nak f) s = .next s := by
  show s.onArrival (asType f 0x11) true _ = _
  rw [asType_listed h.2.1, onArrival_intact (intact_withType h (by decide)), hsent]
  rfl

theorem ack_idle (hsent : (s.conn f.qd f.src).sent = []) : exec (.ack f) s = .next s := by
  rw [ack_takes h, State.takeAck, hsent]
  rfl

/-- R388: an ACK that names the flit itself says nothing new. -/
theorem ack_nothingNew {m : Outbound} (hsent : (s.conn f.qd f.src).sent = [m]) (hseq : f.seq = m.flit.seq) :
    exec (.ack f) s = .next s := by
  have hnot : (m.flit.seq + 2 ^ 24 - f.seq) % 2 ^ 24 = 0 := by omega
  rw [ack_takes h, State.takeAck, hsent]
  simp only [List.filter_cons, hnot]
  rfl

/-- R388: an ACK past the one flit on its way frees it and counts it for its operation. -/
theorem ack_frees {m : Outbound} {o : RemoteOp} {tid fl : Nat} (hsent : (s.conn f.qd f.src).sent = [m]) (hop : m.op = some o.id)
    (hops : s.fab.ops = [o]) (hkind : o.kind ≠ .page) (howner : o.owner = .thread tid fl) (hlt : m.flit.seq < 2 ^ 24)
    (hseq : f.seq = (m.flit.seq + 1) % 2 ^ 24) (hgroups : s.trg.groups.cells = []) :
    ∃ t, exec (.ack f) s = .next t ∧ t.threads = s.threads ∧ t.mem = s.mem ∧ t.fab.ops = [{ o with acks := o.acks + 1 }] ∧
      t.conn f.qd f.src = { s.conn f.qd f.src with sent := [], acked := f.seq, goBacks := 0, progress := s.clock } := by
  have hdone : (m.flit.seq + 2 ^ 24 - f.seq) % 2 ^ 24 ≥ 2 ^ 23 := by omega
  have hconn : s.takeAck f.qd f.src f.seq = withOp (s.setConn f.qd f.src
      { s.conn f.qd f.src with sent := [], acked := f.seq, goBacks := 0, progress := s.clock }) { o with acks := o.acks + 1 } := by
    rw [State.takeAck, hsent]
    simp only [List.filter_cons, hdone, decide_true, if_true, List.filter_nil, List.isEmpty_cons, Bool.false_eq_true, if_false,
      List.foldl_cons, List.foldl_nil, hop, Bool.not_true]
    rw [modOp_one (by exact hops)]
    exact settleOps_threadOps (onlyThreadOps_withOp (o := { o with acks := o.acks + 1 }) hkind howner) hgroups
  refine ⟨_, (ack_takes h).trans (congrArg _ hconn), rfl, rfl, rfl, conn_setConn _ _ _ _⟩

end

/-! ### The end of an operation (R400, R401) -/

section
variable {s : State} {o : RemoteOp} (hops : s.fab.ops = [o])
include hops

theorem op_one : s.op o.id = some o := by simp [State.op, hops]

theorem dropOp_one : s.dropOp o.id = { s with fab := { s.fab with ops := [] } } := by
  simp [State.dropOp, State.modFab, hops]

/-- R401: an operation that is not over does not end; one without accesses to other packages ends as it is. -/
theorem remoteOpComplete_one (hkind : o.kind ≠ .page) (hsubs : o.subs = []) :
    exec (.remoteOpComplete o.id) s = .next (if o.finished then s.finishOp o else s) := by
  show execRemoteOpComplete o.id s = _
  have hsettle : s.settleGet o = (s, o) := by simp [State.settleGet, hsubs]
  rw [execRemoteOpComplete, op_one hops]
  simp only [hsettle]
  split
  · exact absurd ‹_› hkind
  · rfl
  · rfl

variable {tid fl : Nat} {g : Flight} (howner : o.owner = .thread tid fl) (hg : (s.thread tid).flight fl = some g)
  (htag : o.tag = none) (hsubs : o.subs = [])
include howner hg htag hsubs

/-- R401: an operation that went well frees its flight. -/
theorem finishOp_well (hreport : o.report = none) (hctr : o.ctr = none) :
    s.finishOp o = State.land { s with fab := { s.fab with ops := [] } } tid fl := by
  have hflight : ((State.thread { s with fab := { s.fab with ops := [] } } tid).flight fl).isSome = true :=
    Option.isSome_of_eq_some hg
  rw [State.finishOp, hsubs, dropReqs_nil, dropOp_one hops]
  simp only [htag, hreport, hctr, howner, hflight, if_true]

/-- R400: one that was refused or failed leaves its thread a deferred fault as well. -/
theorem finishOp_faulted {t : Trap} (hreport : o.report = some t) : s.finishOp o =
    (State.land { s with fab := { s.fab with ops := [] } } tid fl).deferFault tid t o.pc o.order g.handler := by
  have hflight : ((State.thread { s with fab := { s.fab with ops := [] } } tid).flight fl).isSome = true :=
    Option.isSome_of_eq_some hg
  have hhandler : (State.thread { s with fab := { s.fab with ops := [] } } tid).flightHandler fl = g.handler := by
    have hg : (State.thread { s with fab := { s.fab with ops := [] } } tid).flight fl = some g := hg
    rw [Thread.flightHandler, hg]
  rw [State.finishOp, hsubs, dropReqs_nil, dropOp_one hops]
  simp only [htag, hreport, howner, hflight, hhandler, if_true]

/-- The thread once its flight is free. -/
def freed (s : State) (tid fl : Nat) : Thread :=
  { s.thread tid with flights := (s.thread tid).flights.filter (fun f => f.id ≠ fl) }

theorem finishOp_well_frame (hreport : o.report = none) (hctr : o.ctr = none) (hkind : o.kind ≠ .page) (hover : o.finished = true) :
    ∃ t, (exec (.remoteOpComplete o.id) s = .next t ∧ t.fab.ops = [] ∧ t.mem = s.mem ∧ ∀ k, k ≠ tid → t.thread k = s.thread k) ∧
      t.thread tid = freed s tid fl := by
  have hfinish := finishOp_well hops howner hg htag hsubs hreport hctr
  refine ⟨s.finishOp o, ⟨?_, by rw [hfinish]; rfl, by rw [hfinish]; rfl, fun k hk => ?_⟩, ?_⟩
  · rw [remoteOpComplete_one hops hkind hsubs, hover, if_pos rfl]
  · rw [hfinish, State.land, State.thread_modThread_other _ _ _ _ hk]
    rfl
  · rw [hfinish, State.land, State.thread_modThread]
    rfl

theorem finishOp_faulted_frame {t : Trap} (hreport : o.report = some t) (hkind : o.kind ≠ .page) (hover : o.finished = true) :
    ∃ u, (exec (.remoteOpComplete o.id) s = .next u ∧ u.fab.ops = [] ∧ u.mem = s.mem ∧ ∀ k, k ≠ tid → u.thread k = s.thread k) ∧
      u.thread tid = { freed s tid fl with
        deferred := (freed s tid fl).deferred ++ [{ trap := t, fpc := o.pc, order := o.order, handler := g.handler }] } := by
  have hfinish := finishOp_faulted hops howner hg htag hsubs hreport
  refine ⟨s.finishOp o, ⟨?_, by rw [hfinish]; rfl, by rw [hfinish]; rfl, fun k hk => ?_⟩, ?_⟩
  · rw [remoteOpComplete_one hops hkind hsubs, hover, if_pos rfl]
  · rw [hfinish, State.deferFault, State.land, State.thread_modThread_other _ _ _ _ hk, State.thread_modThread_other _ _ _ _ hk]
    rfl
  · rw [hfinish, State.deferFault, State.land, State.thread_modThread, State.thread_modThread]
    rfl

end

/-- Settles O50: the one operation in flight takes the responses to it, its connection the acknowledgements, and it ends when
it is over. -/
theorem responsesReachTheirOperations : Obligations.ResponsesReachTheirOperations := by
  unfold Obligations.ResponsesReachTheirOperations
  refine ⟨fun s f o tid fl h hops hgroups hpart hpeer howner => ⟨?_, ?_, ?_⟩, fun s f c h hc hgroups => ?_,
    fun s o tid fl g hops howner hg htag hsubs => ?_⟩
  · intro c a n hkind hid hhdl hstop hfault _ htcm hn hlen hin hcore hspans _ hwatch hfence hbad hpin
    subst hcore
    exact getr_answers h hops hgroups hpart hpeer howner hkind hid hhdl hstop hfault htcm hn hlen hin hspans hwatch
      ⟨hfence, hpin, hbad⟩
  · intro q old d g hpay hold hq hseqs hd hlt hzero hg
    subst hd
    exact atr_answers h hops hpart hpeer howner hpay hold hq hseqs hlt hzero hg
  · intro q kind typ off hpay hkind hq hseqs hrefused hpage
    exact errFlit_answers h hops hgroups hpart hpeer howner hpay hkind hq hseqs hrefused hpage
  · subst hc
    refine ⟨fun m o hsent hop hops hkind ⟨tid, fl, howner⟩ hlt => ⟨fun hseq => ?_, fun hseq => ?_⟩,
      fun hsent => ⟨nak_idle h hsent, ack_idle h hsent⟩, fun hsent hagain => ?_, fun hsent hspent hthreads hheld => ?_⟩
    · exact ack_frees h hsent hop hops hkind howner hlt hseq hgroups
    · exact ack_nothingNew h hsent hseq
    · exact ⟨_, (nak_goesBack h hsent).trans (congrArg _ (goBack_again hagain)), rfl, rfl, conn_setConn _ _ _ _⟩
    · exact ⟨_, (nak_goesBack h hsent).trans (congrArg _ (goBack_fails hspent)), failConn_fails hthreads hgroups hheld⟩
  · refine ⟨fun hfailed hrefused hans hkind => ?_, fun hfailed hkind hnext => ?_,
      fun hfailed hrefused hstop hfault hctr hend => ?_, fun k off hfailed hrefused hk hkind => ?_, fun hfailed hkind => ?_⟩
    · have hgoing : o.finished = false := by rcases hkind with h | h <;> simp [RemoteOp.finished, hfailed, h, hrefused, hans]
      rw [remoteOpComplete_one hops (by rcases hkind with h | h <;> simp [h]) hsubs, hgoing]
      rfl
    · have hgoing : o.finished = false := by simp [RemoteOp.finished, hfailed, hkind, hnext.ne]
      rw [remoteOpComplete_one hops (by simp [hkind]) hsubs, hgoing]
      rfl
    · have hreport : o.report = none := by simp [RemoteOp.report, hfailed, hrefused, hstop, hfault]
      have hover : o.kind ≠ .page ∧ o.finished = true := by
        rcases hend with ⟨h, hnext, hacks⟩ | ⟨h, hnext, hgot⟩ | ⟨h | h, hans⟩ <;>
          simp [RemoteOp.finished, *]
      exact finishOp_well_frame hops howner hg htag hsubs hreport hctr hover.1 hover.2
    · have hreport : o.report = some { code := 0x10, sub := BitVec.ofNat 8 k, eval := o.ra off } := by
        simp [RemoteOp.report, hfailed, hrefused, hk]
      have hover : o.kind ≠ .page ∧ o.finished = true := by
        rcases hkind with h | h | h <;> simp [RemoteOp.finished, hfailed, h, hrefused, hsubs]
      exact finishOp_faulted_frame hops howner hg htag hsubs hreport hover.1 hover.2
    · have hreport : o.report = some { code := 0x10, sub := 5, eval := o.ra o.off } := by
        simp [RemoteOp.report, hfailed]
      exact finishOp_faulted_frame hops howner hg htag hsubs hreport hkind (by simp [RemoteOp.finished, hfailed])

end Sys2Proof.Proofs
end

section
/-! Proofs, family 14 (chairli): sending on a connection and its timers (R387, R388, R389, R437). -/

namespace Sys2Proof.Proofs

open Sys2Proof Sys2Proof.Machine Sys2Proof.Claim

/-! ### Routes do not depend on connections (R378) -/

theorem paths_setConn (s : State) (q x : Nat) (c : Conn) (r y : Nat) : (s.setConn q x c).paths r y = s.paths r y := by
  have hnat : ∀ a n, (s.setConn q x c).homeNat a n = s.homeNat a n := withHome_homeNat (s.setConn q x c) s
  have hrelay : (s.setConn q x c).relayOf y = s.relayOf y := by
    unfold State.relayOf
    simp only [hnat]
    rfl
  unfold State.paths
  rw [hrelay]
  rfl

theorem openPaths_setConn (s : State) (q x : Nat) (c : Conn) (r y : Nat) :
    (s.setConn q x c).openPaths r y = s.openPaths r y := by
  unfold State.openPaths
  rw [paths_setConn]
  rfl

theorem nextWave_one (w : Nat × Nat) (last : Nat) : nextWave [w] last = some w := by
  by_cases h : w.1 * 16 + w.2 > last <;> simp [nextWave, h]

/-! ### New flits (R387, R437) -/

/-- R383, R385: a flit of connection `c` as it leaves for partition `y` of peer `x` on λk of port p. -/
def sequencedFlit (s : State) (c : Conn) (q x y p k : Nat) (o : Outbound) : Flit :=
  { o.flit with dst := x, src := s.pkg.peer.toNat, qs := q, qd := y, seq := c.seq, port := p, wave := k
                nonce := 2 ^ 24 * c.wrap + c.seq }

/-- R385, R388: the connection once `o` has left on λk of port p. -/
def sequencedConn (s : State) (c : Conn) (p k : Nat) (o : Outbound) : Conn :=
  { c with
    seq := (c.seq + 1) % 2 ^ 24, wrap := if c.seq + 1 = 2 ^ 24 then (c.wrap + 1) % 2 ^ 43 else c.wrap
    sent := c.sent ++ [o], stripe := 16 * p + k, used := s.clock
    progress := if c.sent = [] then s.clock else c.progress }

section
variable {s : State} {q x p k : Nat}

/-- R383, R385: a flit that leaves is the next of its connection and is kept until it is acknowledged. -/
theorem transmit_one {o : Outbound} {y : Nat} (hop : o.op = none) (hopen : s.openPaths q x = [(p, k)]) (hpair : s.pairOf q x = some y) :
    s.transmit q x o =
      { s.setConn q x (sequencedConn s (s.conn q x) p k { o with flit := sequencedFlit s (s.conn q x) q x y p k o }) with
        wire := s.wire ++ [sequencedFlit s (s.conn q x) q x y p k o] } := by
  simp only [State.transmit, hopen, nextWave_one, hop, hpair, Option.getD_some, List.isEmpty_iff, Nat.mul_comm p 16]
  rfl

/-- R437: what waits to be sent ahead of the queues leaves first. -/
theorem fabricSend_urgent {o : Outbound} {r : List Outbound} (hroute : s.hasRoute q x = true) (hcached : (s.conn q x).cached = true)
    (hopen : s.openPaths q x = [(p, k)]) (hagain : (s.conn q x).again = []) (hurgent : (s.conn q x).urgent = o :: r)
    (hroom : (s.conn q x).sent.length < 8192) :
    exec (.fabricSend q x) s = .next ((s.setConn q x { s.conn q x with urgent := r }).transmit q x o) := by
  show execFabricSend q x s = _
  have hcan : s.canSend q x = true := decide_eq_true hroom
  simp only [execFabricSend, hroute, hcached, hopen, hagain, hcan, Bool.not_true, Bool.false_eq_true, if_false, List.isEmpty_cons,
    Bool.or_self, if_true, State.sendNew, hurgent, State.modConn]

theorem fabricSend_uncached (hroute : s.hasRoute q x = true) (hcached : (s.conn q x).cached = false) :
    exec (.fabricSend q x) s = .next s := by
  show execFabricSend q x s = _
  simp only [execFabricSend, hroute, hcached, Bool.not_true, Bool.not_false, Bool.false_eq_true, if_false, Bool.true_or, if_true]

/-- R389: what a connection is used for where no group is in use and every operation is a thread's own. -/
theorem connUsed_iff (hgroups : s.trg.groups.cells = []) (hops : OnlyThreadOps s) :
    s.connUsed q x = false ↔ (s.conn q x).again = [] ∧ (s.conn q x).urgent = [] ∧ (s.conn q x).sent = [] ∧
      ∀ o ∈ s.fab.ops, o.part = q → o.peer = x → o.failed = true ∨ o.finished = true := by
  have htree : s.treeEdge q x = false := by rw [State.treeEdge, Tab.keys, hgroups]; rfl
  have hany : s.fab.ops.any (fun o => o.part = q && o.peer = x && !o.failed && (if o.kind = .page then !o.answered else !o.finished))
      = false ↔ ∀ o ∈ s.fab.ops, o.part = q → o.peer = x → o.failed = true ∨ o.finished = true := by
    rw [List.any_eq_false]
    refine forall₂_congr fun o ho => ?_
    obtain ⟨hkind, -⟩ := hops o ho
    simp only [hkind, if_false, Bool.and_eq_true, decide_eq_true_eq, Bool.not_eq_true']
    cases o.failed <;> cases o.finished <;> simp
  simp only [State.connUsed, htree, Bool.or_false, Bool.or_eq_false_iff, hany]
  simp [and_assoc]

theorem fabricSend_unrouted (hroute : s.hasRoute q x = false) :
    exec (.fabricSend q x) s = .next (if s.connUsed q x then s.failConn q x else s) := by
  show execFabricSend q x s = _
  simp only [execFabricSend, hroute, Bool.not_false, if_true]

/-! ### Acknowledgements, gaps and going back (R388) -/

/-- The connection once an unsequenced flit has left on it (R385). -/
def plainSent (c : Conn) : Conn :=
  { c with usend := (c.usend + 1) % 2 ^ 24, uwrap := if c.usend + 1 = 2 ^ 24 then (c.uwrap + 1) % 2 ^ 43 else c.uwrap }

/-- R384, R385: an unsequenced flit as it leaves on λk of port p. -/
def plainFlit (s : State) (q x p k : Nat) (f : Flit) : Flit :=
  { f with dst := x, src := s.pkg.peer.toNat, qs := q, qd := (s.pairOf q x).getD 0
           seq := if f.typ = 0x10 || f.typ = 0x11 then f.seq else (s.conn q x).usend, port := p, wave := k
           nonce := 2 ^ 24 * (s.conn q x).uwrap + (s.conn q x).usend }

/-- R384: it leaves on the first wavelength of the route. -/
theorem sendPlain_leaves {l : List (Nat × Nat)} (f : Flit) (hpath : (s.paths q x).1 = (p, k) :: l) : s.sendPlain q x f =
    { s.setConn q x (plainSent (s.conn q x)) with wire := s.wire ++ [plainFlit s q x p k f] } := by
  rw [State.sendPlain, hpath]
  rfl

theorem ackTimer_waits (h : (s.conn q x).fresh = 0 ∨ s.clock < (s.conn q x).freshAt + 480 ∧ (s.conn q x).fresh < 32 ∨
    ∃ o ∈ (s.conn q x).urgent, o.flit.typ = 0x0A) : exec (.ackTimer q x) s = .next s := by
  show execAckTimer q x s = _
  refine if_neg ?_
  simp only [Bool.and_eq_true, Bool.or_eq_true, decide_eq_true_eq, Bool.not_eq_true', Conn.refusing, List.any_eq_false]
  rintro ⟨⟨hfresh, hdue⟩, hclear⟩
  rcases h with h | h | ⟨o, ho, htyp⟩
  · omega
  · omega
  · exact hclear o ho htyp

/-- R388: the ACK leaves once it is due and nothing refused goes before it. -/
theorem ackTimer_acks {l : List (Nat × Nat)} (hfresh : 0 < (s.conn q x).fresh)
    (hdue : (s.conn q x).freshAt + 480 ≤ s.clock ∨ 32 ≤ (s.conn q x).fresh) (hclear : ∀ o ∈ (s.conn q x).urgent, o.flit.typ ≠ 0x0A)
    (hpath : (s.paths q x).1 = (p, k) :: l) :
    ∃ t, exec (.ackTimer q x) s = .next t ∧ t.conn q x = { plainSent (s.conn q x) with fresh := 0 } ∧ t.threads = s.threads ∧
      ∃ f, t.wire = s.wire ++ [f] ∧ f.typ = 0x10 ∧ f.seq = (s.conn q x).expected ∧ f.dst = x ∧ f.src = s.pkg.peer.toNat ∧
        f.port = p ∧ f.wave = k := by
  have hsend := sendPlain_leaves { typ := 0x10, seq := (s.conn q x).expected } hpath
  refine ⟨s.sendAck q x, ?_, ?_, ?_,
    plainFlit s q x p k { typ := 0x10, seq := (s.conn q x).expected }, ?_, rfl, rfl, rfl, rfl, rfl, rfl⟩
  · show execAckTimer q x s = _
    refine if_pos ?_
    simp only [Bool.and_eq_true, Bool.or_eq_true, decide_eq_true_eq, Bool.not_eq_true', Conn.refusing, List.any_eq_false]
    exact ⟨⟨hfresh, hdue⟩, hclear⟩
  · rw [State.sendAck, hsend, State.modConn, conn_setConn]
    exact congrArg (fun c : Conn => { c with fresh := 0 }) (conn_setConn _ _ _ _)
  · rw [State.sendAck, hsend]
    rfl
  · rw [State.sendAck, hsend]
    rfl

theorem nakGapTimeout_noGap (h : (s.conn q x).gapAt = none) : exec (.nakGapTimeout q x) s = .next s := by
  show execNakGapTimeout q x s = _
  simp only [execNakGapTimeout, h]

theorem nakGapTimeout_early {g : Nat} (hgap : (s.conn q x).gapAt = some g) (h : s.clock < g + 4800) :
    exec (.nakGapTimeout q x) s = .next s := by
  show execNakGapTimeout q x s = _
  have hnot : decide (g + 4800 ≤ s.clock) = false := decide_eq_false (by omega)
  simp only [execNakGapTimeout, hgap, hnot, Bool.false_and, Bool.false_eq_true, if_false]

/-- R388: the NAK leaves when the gap is old enough. -/
theorem nakGapTimeout_naks {l : List (Nat × Nat)} {g : Nat} (hgap : (s.conn q x).gapAt = some g) (hearly : (s.conn q x).early ≠ [])
    (hheld : (s.conn q x).held = none) (hpath : (s.paths q x).1 = (p, k) :: l) (h : g + 4800 ≤ s.clock) :
    ∃ t, exec (.nakGapTimeout q x) s = .next t ∧ t.threads = s.threads ∧
      t.conn q x = { plainSent (s.conn q x) with gapAt := some s.clock } ∧
      ∃ f, t.wire = s.wire ++ [f] ∧ f.typ = 0x11 ∧ f.seq = (s.conn q x).expected ∧ f.dst = x ∧ f.port = p ∧ f.wave = k := by
  have hsend := sendPlain_leaves { typ := 0x11, seq := (s.conn q x).expected } hpath
  have hdue : (decide (g + 4800 ≤ s.clock) && !(s.conn q x).early.isEmpty && (s.conn q x).held.isNone) = true := by
    simp [h, hearly, hheld]
  refine ⟨(s.sendNak q x).modConn q x (fun c => { c with gapAt := some s.clock }), ?_, ?_, ?_,
    plainFlit s q x p k { typ := 0x11, seq := (s.conn q x).expected }, ?_, rfl, rfl, rfl, rfl, rfl⟩
  · show execNakGapTimeout q x s = _
    simp only [execNakGapTimeout, hgap, hdue, if_true]
  · rw [State.sendNak, hsend]
    rfl
  · rw [State.sendNak, hsend, State.modConn, conn_setConn]
    exact congrArg (fun c : Conn => { c with gapAt := some s.clock }) (conn_setConn _ _ _ _)
  · rw [State.sendNak, hsend]
    rfl

theorem goBackTimeout_waits (h : (s.conn q x).sent = [] ∨ s.clock < (s.conn q x).progress + 48000) :
    exec (.goBackTimeout q x) s = .next s := by
  show execGoBackTimeout q x s = _
  refine if_neg ?_
  rcases h with h | h
  · simp [h]
  · simp only [Bool.and_eq_true, decide_eq_true_eq, not_and]
    omega

theorem goBackTimeout_goesBack (hsent : (s.conn q x).sent ≠ []) (h : (s.conn q x).progress + 48000 ≤ s.clock) :
    exec (.goBackTimeout q x) s = .next (s.goBack q x none) := by
  show execGoBackTimeout q x s = _
  exact if_pos (by simp [hsent, h])

end

end Sys2Proof.Proofs
end

section
/-! Proofs, family 14 (chairli): pauses, time exchange and visitors' flits (R343, R344, R387, R406). -/

namespace Sys2Proof.Proofs

open Sys2Proof Sys2Proof.Machine Sys2Proof.Claim

/-! ### PAUSE (R387) -/

theorem slot_modSlot (x : Port) {k : Nat} (f : TxSlot → TxSlot) (hk : k < 16) : (x.modSlot k f).slot k = f (x.slot k) := by
  simp [Port.modSlot, Port.slot, hk]

theorem slot_modSlot_other (x : Port) {k j : Nat} (f : TxSlot → TxSlot) (h : j ≠ k) : (x.modSlot k f).slot j = x.slot j := by
  unfold Port.modSlot Port.slot
  by_cases hk : k < 16 <;> by_cases hj : j < 16 <;> simp [hk, hj, Vector.getElem_set_ne, h.symm]

theorem port_modSlot_slot (s : State) {p k : Nat} (f : TxSlot → TxSlot) (hp : p < 32) (hk : k < 16) :
    ((s.modSlot p k f).port p).slot k = f ((s.port p).slot k) := by
  rw [State.modSlot, port_modPort _ _ hp, slot_modSlot _ _ hk]

theorem port_modSlot_slot_other (s : State) {p k a b : Nat} (f : TxSlot → TxSlot) (h : (a, b) ≠ (p, k)) :
    ((s.modSlot p k f).port a).slot b = (s.port a).slot b := by
  rw [State.modSlot]
  by_cases ha : a = p
  · subst ha
    have hb : b ≠ k := fun hb => h (by rw [hb])
    by_cases hp : a < 32
    · rw [port_modPort _ _ hp, slot_modSlot_other _ _ hb]
    · simp [State.port, Fabric.port, hp]
  · rw [port_modPort_other _ _ ha]

theorem pause_sets {s : State} {f : Flit} {p k : Nat} (h : Intact s f) (hp : p < 32) (hk : k < 16)
    (hwaves : s.pausedWaves f = [(p, k)]) : ∃ t, exec (.pause f) s = .next t ∧
      t = { s with fab := { s.fab with ports := t.fab.ports } } ∧
      (t.port p).slot k = { (s.port p).slot k with paused := decide (leNat ((f.payload.drop 2).take 1) % 2 = 0) } ∧
      ∀ a b, (a, b) ≠ (p, k) → (t.port a).slot b = (s.port a).slot b := by
  refine ⟨s.modSlot p k (fun t => { t with paused := leNat ((f.payload.drop 2).take 1) % 2 = 0 }), ?_, modPort_frame _ _ _,
    port_modSlot_slot _ _ hp hk, fun a b hab => port_modSlot_slot_other _ _ hab⟩
  show s.onArrival (asType f 0x12) true _ = _
  rw [asType_listed h.2.1, onArrival_intact (intact_withType h (by decide)), hwaves]
  rfl

/-! ### SYNC (R406) -/

/-- R385: SYNC flits belong to the pair of packages, not to a pair of partitions. -/
theorem screen_ofPair {s : State} {f : Flit} (hen : s.fab.en = true) (hcrc : f.crcOk = true) (htag : f.tagOk = true)
    (hdst : f.dst = s.pkg.peer.toNat) (hlist : listedType f.typ = true) (hlane : ((s.port f.port).lane f.wave).assigned = true) :
    s.screen f false = .ok s := by
  simp only [State.screen, sawLight_of_assigned hlane, hen, hlist, hcrc, htag, ← hdst]
  simp

section
variable {s : State} {f : Flit} (hen : s.fab.en = true) (hcrc : f.crcOk = true) (htag : f.tagOk = true)
  (hdst : f.dst = s.pkg.peer.toNat) (hlist : listedType f.typ = true) (hlane : ((s.port f.port).lane f.wave).assigned = true)
include hen hcrc htag hdst hlist hlane

theorem sync_takes : exec (.sync f) s = .next (s.takeSync f) := by
  show s.onArrival (asType f 0x14) false _ = _
  rw [asType_listed hlist, State.onArrival, screen_ofPair (f := { f with typ := 0x14 }) hen hcrc htag hdst rfl hlane]

/-- R406: a question is answered with both times. -/
theorem sync_answers {t1 : Nat} {u : State} (haux : f.aux = 0) (hpay : f.payload = leBytes 8 t1) (ht : t1 < 2 ^ 64)
    (hsend : s.sendSync f.src { typ := 0x14, aux := 1, len := 15, payload := leBytes 8 t1 ++ leBytes 8 s.gtime.toNat } = some u) :
    exec (.sync f) s = .next u := by
  have hval : leNat (f.payload.take 8) = t1 := by
    rw [hpay, List.take_of_length_le (by simp), leNat_leBytes_of_lt ht]
  rw [sync_takes hen hcrc htag hdst hlist hlane]
  simp only [State.takeSync, haux, hval, if_true, State.tellTime, hsend, Option.getD_some]

/-- R406: the parent's answer steers the time. -/
theorem sync_steers {t1 t2 : Nat} (haux : f.aux = 1) (hpay : f.payload = leBytes 8 t1 ++ leBytes 8 t2) (h1 : t1 < 2 ^ 64)
    (h2 : t2 < 2 ^ 64) (hon : s.fab.tsync = true) (hparent : f.src = s.fab.parent) (hroot : s.fab.root = false) :
    exec (.sync f) s = .next ((s.modFab (fun b => { b with syncAt := s.clock, syncLost := false })).modPkg
      (fun p => { p with gtSlew := (t2 : Int) + ((s.gtime.toNat - t1) / 2 : Nat) - s.gtime.toNat })) := by
  have hfirst : leNat (f.payload.take 8) = t1 := by
    rw [hpay, List.take_left' (leBytes_length 8 t1), leNat_leBytes_of_lt h1]
  have hlast : leNat ((f.payload.drop 8).take 8) = t2 := by
    rw [hpay, List.drop_left' (leBytes_length 8 t1), List.take_of_length_le (by simp), leNat_leBytes_of_lt h2]
  have hme : (s.fab.tsync && decide (f.src = s.fab.parent)) = true := by simp [hon, hparent]
  have hroot : (s.modFab (fun b => { b with syncAt := s.clock, syncLost := false })).fab.root = false := hroot
  rw [sync_takes hen hcrc htag hdst hlist hlane]
  simp only [State.takeSync, haux, hfirst, hlast, hme, hroot, Nat.one_ne_zero, if_false, if_true, Bool.false_eq_true]

theorem sync_ignored (haux : f.aux = 1) (hother : s.fab.tsync = false ∨ f.src ≠ s.fab.parent) :
    exec (.sync f) s = .next s := by
  have hme : (s.fab.tsync && decide (f.src = s.fab.parent)) = false := by rcases hother with h | h <;> simp [h]
  rw [sync_takes hen hcrc htag hdst hlist hlane]
  simp only [State.takeSync, haux, hme, Nat.one_ne_zero, if_false, Bool.false_eq_true]

end

section
variable {s : State}

theorem timeSync_waits (h : s.fab.tsync = false ∨ s.fab.en = false ∨ s.clock < s.fab.syncSent + 2400000) :
    exec .timeSync s = .next s := by
  show execTimeSync s = _
  refine if_neg ?_
  simp only [Bool.and_eq_true, decide_eq_true_eq]
  rintro ⟨⟨htsync, hen⟩, hdue⟩
  rcases h with h | h | h
  · simp [h] at htsync
  · simp [h] at hen
  · omega

theorem timeSync_asks {u : State} (htsync : s.fab.tsync = true) (hen : s.fab.en = true) (hdue : s.fab.syncSent + 2400000 ≤ s.clock)
    (hsend : s.sendSync s.fab.parent { typ := 0x14, len := 7, payload := leBytes 8 s.gtime.toNat } = some u) :
    exec .timeSync s = .next { u with fab := { u.fab with syncSent := s.clock } } := by
  show execTimeSync s = _
  have hgo : (s.fab.tsync && s.fab.en && decide (s.fab.syncSent + 2400000 ≤ s.clock)) = true := by simp [htsync, hen, hdue]
  simp only [execTimeSync, hgo, if_true, State.tellTime, hsend, Option.getD_some]
  rfl

theorem timeSyncLost_waits (h : s.fab.tsync = false ∨ s.fab.syncLost = true ∨ s.clock < s.fab.syncAt + 24000000) :
    exec .timeSyncLost s = .next s := by
  show execTimeSyncLost s = _
  refine if_neg ?_
  simp only [Bool.and_eq_true, decide_eq_true_eq, Bool.not_eq_true']
  rintro ⟨⟨htsync, hlost⟩, hdue⟩
  rcases h with h | h | h
  · simp [h] at htsync
  · simp [h] at hlost
  · omega

theorem timeSyncLost_reports (htsync : s.fab.tsync = true) (hlost : s.fab.syncLost = false)
    (hdue : s.fab.syncAt + 24000000 ≤ s.clock) : ∃ t, exec .timeSyncLost s = .next t ∧
      t.fab = { s.fab with syncLost := true } ∧ t.pkg.gtSlew = 0 ∧ t.threads = s.threads := by
  have hx : exec .timeSyncLost s = .next (((s.postEvent none 0x0D (BitVec.ofNat 64 s.fab.parent) 7).modFab
      (fun b => { b with syncLost := true })).modPkg (fun p => { p with gtSlew := 0 })) := by
    show execTimeSyncLost s = _
    exact if_pos (by simp [htsync, hlost, hdue])
  refine ⟨_, hx, ?_, rfl, ?_⟩
  · rw [State.postEvent_frame]
    rfl
  · rw [State.postEvent_frame]
    rfl

end

/-! ### VIS (R343, R344) -/

/-- R344: the lowest cluster of the partition that holds the record stands for its table. -/
theorem recordHome_first {s : State} {q c r : Nat} (hc : c < 32) (hown : s.owner (c / 8) = some q) (hin : r < (s.cluster c).lrCount)
    (hfirst : ∀ e < c, s.owner (e / 8) = some q → (s.cluster e).lrCount ≤ r) : s.recordHome q r = some c := by
  rw [State.recordHome, List.find?_range_eq_some]
  refine ⟨by simp [hown, hin], List.mem_range.mpr hc, fun e he => ?_⟩
  by_cases hmine : s.owner (e / 8) = some q
  · simpa [hmine] using hfirst e he hmine
  · simp [hmine]

theorem recWord_setConn (s : State) (q x : Nat) (b : Conn) (c r o : Nat) : (s.setConn q x b).recWord c r o = s.recWord c r o :=
  congrArg (BitVec.ofNat 64) (withHome_homeNat (s.setConn q x b) s _ _)

section
variable {s : State} {f : Flit} (h : NextInOrder s f)
include h

/-- R384: a use that no rule names is counted and dropped. -/
theorem vis_unknown (hlo : 2 < f.aux) (hhi : f.aux < 16) : ∃ t, exec (.vis f) s = .next t ∧ Delivered s t f [] ∧
    t.fab.discards = s.fab.discards + 1 ∧ t.mem = s.mem ∧ t.threads = s.threads := by
  have hperf : (atTurn s f).performFlit { f with typ := 0x0B } none = some (atTurn s f).discard := by
    simp only [State.performFlit, State.takeVis]
    rw [if_neg (by omega), if_neg (by omega), if_neg (by omega), if_neg (by omega)]
  obtain ⟨t, ht, hdelivered, hframe⟩ := arrive_performed (us := []) h (typ := 0x0B) (by decide) hperf rfl rfl
    ((conn_setConn _ _ _ _).trans (by simp))
  exact ⟨t, ht, hdelivered, by rw [hframe]; rfl, by rw [hframe]; rfl, by rw [hframe]; rfl⟩

/-- R344: a visitor's STATE is written to its record. -/
theorem vis_setsState {c st : Nat} (haux : f.aux = 16 + st) (hst : st < 8) (hc : c < 32) (hown : s.owner (c / 8) = some f.qd)
    (hin : f.off < (s.cluster c).lrCount) (hfirst : ∀ e < c, s.owner (e / 8) = some f.qd → (s.cluster e).lrCount ≤ f.off)
    (hplain : PlainRec s c f.off) (hgood : s.stateBad c f.off = false) : ∃ t, exec (.vis f) s = .next t ∧ Delivered s t f [] ∧
      (t.recWord c f.off 0xC0).toNat % 8 = st ∧ RecordBytes s t c f.off [0xC0] ∧ t.threads = s.threads := by
  have hhome : (atTurn s f).recordHome f.qd f.off = some c := recordHome_first hc hown hin hfirst
  have hbad : (atTurn s f).stateBad c f.off = false := by
    rw [← hgood]
    unfold State.stateBad
    rw [show (atTurn s f).badAt = s.badAt from funext fun a => funext fun n => withHome_badAt (atTurn s f) s a n]
    rfl
  have hperf : (atTurn s f).performFlit { f with typ := 0x0B } none = some ((atTurn s f).setRecState c f.off st) := by
    have hstate : f.aux % 8 = st := by omega
    have hdone : ¬(f.aux / 8 % 2 = 1) := by omega
    simp only [State.performFlit, State.takeVis]
    rw [if_neg (by omega), if_neg (by omega), if_neg (by omega), if_pos (by omega)]
    simp only [execVisitorStateChange, hhome, hstate, hdone, decide_false, Bool.false_eq_true, if_false, nextOf]
  obtain ⟨⟨hwrites, -, hbytes⟩, hthreads, hword⟩ := setRecState_plain (s := atTurn s f) hplain hbad st
  obtain ⟨t, ht, hdelivered, hframe⟩ := arrive_performed (us := []) h (typ := 0x0B) (by decide) hperf (by rw [hwrites]; rfl)
    (by rw [hwrites]; rfl) (by rw [hwrites]; exact (conn_setConn _ _ _ _).trans (by simp))
  refine ⟨t, ht, hdelivered, ?_, ?_, ?_⟩
  · rw [hframe, recWord_setConn, hword, BitVec.toNat_ofNat]
    omega
  · have hmem : t.mem = ((atTurn s f).setRecState c f.off st).mem := by rw [hframe]; rfl
    have hmarks : t.memBad = ((atTurn s f).setRecState c f.off st).memBad := by rw [hframe]; rfl
    rw [RecordBytes, hmem, hmarks]
    exact hbytes
  · rw [hframe]
    exact hthreads

end

end Sys2Proof.Proofs
end

section
/-! Proofs, family 14 (chairli): connection contexts in their backing (R392, R393), and the connections' statement. -/

namespace Sys2Proof.Proofs

open Sys2Proof Sys2Proof.Machine Sys2Proof.Claim

/-! ### Parts of a little-endian number -/

theorem leNat_append (l r : List Byte) : leNat (l ++ r) = leNat l + 256 ^ l.length * leNat r := by
  induction l with
  | nil => simp [leNat]
  | cons b l ih =>
    rw [List.cons_append, leNat, leNat, ih, List.length_cons, Nat.pow_succ']
    ring

theorem leNat_lt (l : List Byte) : leNat l < 256 ^ l.length := by
  induction l with
  | nil => simp [leNat]
  | cons b l ih =>
    have := b.isLt
    rw [leNat, List.length_cons, Nat.pow_succ']
    omega

/-- Bytes `k` to `k + n` of a run, as bits of the number that it is. -/
theorem readNat_part (m : Memory) (a k n z : Nat) : m.readNat a (k + (n + z)) / 256 ^ k % 256 ^ n = m.readNat (a + k) n := by
  have hlow := leNat_lt (m.readBytes a k)
  have hmid := leNat_lt (m.readBytes (a + k) n)
  rw [Memory.readBytes_length] at hlow hmid
  rw [Memory.readNat, Memory.readNat, Memory.readBytes_add, Memory.readBytes_add, leNat_append, leNat_append,
    Memory.readBytes_length, Memory.readBytes_length, Nat.add_mul_div_left _ _ (Nat.pow_pos (by decide)),
    Nat.div_eq_of_lt hlow, Nat.zero_add, Nat.add_mul_mod_self_left, Nat.mod_eq_of_lt hmid]

/-! ### Homes that are lost change at pages of 4 KiB (R266, R355) -/

theorem lost_page (s : State) (a : Nat) : s.lost (a / 4096 * 4096) = s.lost a := by
  have hhome : homeDie (a / 4096 * 4096) = homeDie a := by
    have hlt : a / 4096 * 4096 < 0x18000000000 ↔ a < 0x18000000000 := by omega
    have hdie : a / 4096 * 4096 / 0x6000000000 = a / 0x6000000000 := by omega
    simp only [homeDie, hlt, hdie]
  have htier : inTier2 (a / 4096 * 4096) = inTier2 a := by
    rw [Bool.eq_iff_iff]
    simp only [inTier2, Bool.and_eq_true, decide_eq_true_eq]
    omega
  have hserved : s.tier2Served (a / 4096 * 4096) = s.tier2Served a := by
    have hpage : (a / 4096 * 4096 - 0x100000000000) / 4096 = (a - 0x100000000000) / 4096 := by omega
    have hblock : (a / 4096 * 4096 - 0x100000000000) / 2 ^ 30 = (a - 0x100000000000) / 2 ^ 30 := by omega
    simp only [State.tier2Served, hpage, hblock]
  simp only [State.lost, hhome, htier, hserved]

theorem lostIn_none {s : State} {a n : Nat} (hn : n ≤ 4096) (h : ∀ j < n, s.lost (a + j) = false) : s.lostIn a n = false := by
  rw [State.lostIn, Bool.and_eq_false_iff, or_iff_not_imp_left]
  intro hpos
  have hpos : 0 < n := Nat.pos_of_ne_zero (by simpa using hpos)
  rw [List.any_eq_false]
  intro i hi
  rw [List.mem_range] at hi
  have hfirst := h 0 hpos
  have hlast := h (n - 1) (by omega)
  rw [Bool.not_eq_true]
  rcases Nat.eq_zero_or_pos i with rfl | hi0
  · rw [Nat.add_zero, lost_page, ← hfirst, Nat.add_zero]
  · have hi1 : a / 4096 + i = (a + (n - 1)) / 4096 := by omega
    rw [hi1, lost_page, hlast]

/-! ### The context cache (R392, R393) -/

section
variable {s : State} {q x : Nat}

theorem evict_room (h : s.fab.conns.cells.length < 4096) : s.evict = s := by
  have hfew : (s.fab.conns.cells.filter (fun c => c.2.cached)).length < 4096 :=
    Nat.lt_of_le_of_lt (List.length_filter_le _ _) h
  rw [State.evict, if_pos hfew]

/-- R393: nothing proceeds where no flit waits in a lane. -/
theorem drainLanes_empty (h : ∀ p < 32, ∀ k < 16, ((s.port p).lane k).miss = [] ∧ ((s.port p).lane k).input = []) :
    s.drainLanes = s := by
  have hall : ∀ l : List (Nat × Nat), (∀ w ∈ l, ((s.port w.1).lane w.2).miss = [] ∧ ((s.port w.1).lane w.2).input = []) →
      l.foldl (fun s w =>
        let r := (s.port w.1).lane w.2
        if r.input.isEmpty && r.miss.isEmpty then s
        else (s.drainMiss w.1 w.2 (r.miss.length + 1)).drainInput w.1 w.2 (r.input.length + 1)) s = s := by
    intro l
    induction l with
    | nil => exact fun _ => rfl
    | cons w l ih =>
      intro hl
      obtain ⟨hmiss, hinput⟩ := hl w List.mem_cons_self
      rw [List.foldl_cons]
      simp only [hmiss, hinput, List.isEmpty_nil, Bool.and_self, if_true]
      exact ih fun v hv => hl v (List.mem_cons_of_mem w hv)
  refine hall allWaves fun w hw => ?_
  simp only [allWaves, List.mem_flatMap, List.mem_range, List.mem_map] at hw
  obtain ⟨p, hp, k, hk, rfl⟩ := hw
  exact h p hp k hk

theorem contextFetchComplete_idle (h : (s.conn q x).cached = true ∨ s.pairOf q x = none) :
    exec (.contextFetchComplete q x) s = .next s := by
  show execContextFetchComplete q x s = _
  exact if_pos (by rcases h with h | h <;> simp [h])

variable (hcached : (s.conn q x).cached = false) {y : Nat} (hpair : s.pairOf q x = some y) (hroom : s.fab.conns.cells.length < 4096)
  (hlanes : ∀ p < 32, ∀ k < 16, ((s.port p).lane k).miss = [] ∧ ((s.port p).lane k).input = [])
include hcached hpair hroom hlanes

/-- R392: a context that is fetched is present and just used. -/
theorem contextFetchComplete_fetches : exec (.contextFetchComplete q x) s =
    .next (s.setConn q x { s.fetched q x with cached := true, used := s.clock }) := by
  show execContextFetchComplete q x s = _
  have hgo : ¬(((s.conn q x).cached || (s.pairOf q x).isNone) = true) := by simp [hcached, hpair]
  rw [execContextFetchComplete, if_neg hgo]
  simp only [evict_room hroom]
  rw [drainLanes_empty]
  exact hlanes

end

/-- R386, R392: a context that no backing holds is fresh, with the keys of the pairing. -/
theorem fetched_fresh {s : State} {q x : Nat} (h : (s.conn q x).stored = false) :
    s.fetched q x = { s.conn q x with keys := s.fab.keys.get {} (connKey q x) } := by
  simp only [State.fetched, h, Bool.not_false, if_true]

/-- R392: one that its backing holds comes from there. -/
theorem fetched_stored {s : State} {q x : Nat} (h : (s.conn q x).stored = true) (hrun : s.PlainRun (s.contextAt (connKey q x)) 128) :
    (s.fetched q x).seq = le s.mem (s.contextAt (connKey q x)) 3 ∧
      (s.fetched q x).expected = le s.mem (s.contextAt (connKey q x) + 3) 3 := by
  have hlost : s.lostIn (s.contextAt (connKey q x)) 128 = false := lostIn_none (by decide) fun j hj => (hrun j hj).2.2
  have hseq := readNat_part s.mem (s.contextAt (connKey q x)) 0 3 125
  have hexpected := readNat_part s.mem (s.contextAt (connKey q x)) 3 3 122
  simp only [State.fetched, h, Bool.not_true, Bool.false_eq_true, if_false, hlost, homeNat_plain hrun, Conn.ofBits, bits]
  exact ⟨hseq.trans (readNat_eq_le _ _ _), hexpected.trans (readNat_eq_le _ _ _)⟩

/-! ### A flit that leaves -/

/-- R385, R437: the flit, and the connection that keeps it until it is acknowledged. -/
theorem fabricSend_sends {s : State} {q x p k y : Nat} {o : Outbound} {r : List Outbound} (hroute : s.hasRoute q x = true)
    (hcached : (s.conn q x).cached = true) (hopen : s.openPaths q x = [(p, k)]) (hagain : (s.conn q x).again = [])
    (hurgent : (s.conn q x).urgent = o :: r) (hop : o.op = none) (hroom : (s.conn q x).sent.length < 8192)
    (hpair : s.pairOf q x = some y) :
    let c := s.conn q x
    let f := { o.flit with dst := x, src := s.pkg.peer.toNat, qs := q, qd := y, seq := c.seq, port := p, wave := k,
                           nonce := 2 ^ 24 * c.wrap + c.seq }
    ∃ t, exec (.fabricSend q x) s = .next t ∧ t.wire = s.wire ++ [f] ∧ t.threads = s.threads ∧ t.mem = s.mem ∧
      t.conn q x = { c with
        urgent := r, seq := (c.seq + 1) % 2 ^ 24, sent := c.sent ++ [{ o with flit := f }], stripe := 16 * p + k
        wrap := (if c.seq + 1 = 2 ^ 24 then (c.wrap + 1) % 2 ^ 43 else c.wrap), used := s.clock
        progress := if c.sent = [] then s.clock else c.progress } := by
  have hfirst := fabricSend_urgent hroute hcached hopen hagain hurgent hroom
  rw [transmit_one hop ((openPaths_setConn _ _ _ _ _ _).trans hopen) hpair, setConn_setConn, conn_setConn] at hfirst
  exact ⟨_, hfirst, rfl, rfl, rfl, conn_setConn _ _ _ _⟩

/-! ### The statement -/

/-- Settles O51: a connection sends what waits, acknowledges, goes back, fails without a route, and takes its context from its
backing; PAUSE, SYNC and VIS flits do what they carry. -/
theorem connectionsSendAndRecover : Obligations.ConnectionsSendAndRecover := by
  unfold Obligations.ConnectionsSendAndRecover
  refine ⟨fun s q x c hc => ?_, fun s f p k h _ hp hk hwaves => pause_sets h hp hk hwaves,
    fun s f hen hcrc htag hdst hlist hlane => ⟨fun t1 u haux hpay h1 hsend => ?_, fun t1 t2 haux hpay h1 h2 => ⟨?_, ?_⟩⟩,
    fun s => ⟨timeSync_waits, fun u => timeSync_asks, timeSyncLost_waits, timeSyncLost_reports⟩,
    fun s f h => ⟨vis_unknown h, fun c st => vis_setsState h⟩⟩
  · subst hc
    refine ⟨fun o r p k y hroute hcached hopen hagain hurgent hop hroom hpair => ?_, fabricSend_uncached,
      fun idle hroute hgroups hops hidle => ⟨fun h => ?_, fun h hheld => ?_⟩, ackTimer_waits,
      fun p k l hfresh hdue hclear hpath => ackTimer_acks hfresh hdue hclear hpath, nakGapTimeout_noGap,
      fun g p k l hgap hearly hheld hpath => ⟨nakGapTimeout_early hgap, nakGapTimeout_naks hgap hearly hheld hpath⟩,
      goBackTimeout_waits, fun hsent hdue hagain => ?_, fun hsent hdue hspent hgroups hops hheld => ?_, contextFetchComplete_idle,
      fun y hcached hpair hroom hlanes => ?_⟩
    · exact fabricSend_sends hroute hcached hopen hagain hurgent hop hroom hpair
    · have hunused : s.connUsed q x = false := (connUsed_iff hgroups hops).mpr (hidle.mp h)
      rw [fabricSend_unrouted hroute, hunused]
      rfl
    · have hused : s.connUsed q x = true := by
        rw [← Bool.not_eq_false]
        exact fun hno => h (hidle.mpr ((connUsed_iff hgroups hops).mp hno))
      exact ⟨_, by rw [fabricSend_unrouted hroute, hused, if_pos rfl], failConn_fails hops hgroups hheld⟩
    · exact ⟨_, (goBackTimeout_goesBack hsent hdue).trans (congrArg _ (goBack_again hagain)), rfl, rfl, conn_setConn _ _ _ _⟩
    · exact ⟨_, (goBackTimeout_goesBack hsent hdue).trans (congrArg _ (goBack_fails hspent)), failConn_fails hops hgroups hheld⟩
    · refine ⟨_, contextFetchComplete_fetches hcached hpair hroom hlanes, rfl, rfl, fun e he => find_setConn_other _ _ _ _ he,
        fun hstored => ?_, fun b hb hstored hplain => ?_⟩
      · rw [conn_setConn, fetched_fresh hstored]
        rfl
      · subst hb
        rw [conn_setConn]
        exact ⟨rfl, fetched_stored hstored hplain⟩
  · exact sync_answers hen hcrc htag hdst hlist hlane haux hpay h1 hsend
  · intro hon hparent hroot _
    exact ⟨_, sync_steers hen hcrc htag hdst hlist hlane haux hpay h1 h2 hon hparent hroot, rfl, rfl, rfl⟩
  · exact sync_ignored hen hcrc htag hdst hlist hlane haux

end Sys2Proof.Proofs
end

section
/-! Proofs, family 14 (chairli): registration entries and their revocation (R394, R396). -/

namespace Sys2Proof.Proofs

open Sys2Proof Sys2Proof.Machine Sys2Proof.Claim

/-! ### Regions and stores -/

theorem region_setRegion (s : State) (h : Nat) (r : Region) : (s.setRegion h r).region h = r := Tab.get_put_same _ _ _ _

theorem region_setRegion_other (s : State) {h k : Nat} (r : Region) (hk : k ≠ h) : (s.setRegion h r).region k = s.region k :=
  Tab.get_put_other _ _ _ _ _ hk

/-- A write that its storer may make changes what it changes, and of Selvedge the host's answer at most. -/
theorem store_accepted {s t : State} {who : Who} {addr : Word} (hmay : MayStore s who addr) :
    ∃ p, s.store who addr { s := t } = { t with pkg := p } := by
  cases hwho : whoIsThread who with
  | false => exact store_unthreaded { s := t } hmay hwho
  | true =>
    cases who with
    | thread core slot =>
      have h : s.foreign (tidOf core slot) addr = false := hmay
      exact ⟨t.pkg, by simp only [State.store, h, Bool.false_eq_true, if_false]; rfl⟩
    | supervisor d => cases hwho
    | host fn => cases hwho

/-- A refused write leaves the fabric. -/
theorem fab_store_refused {s : State} {who : Who} {addr : Word} (hmay : MayStore s who addr) :
    (s.store who addr (refuse51 s)).fab = s.fab := by
  cases hwho : whoIsThread who with
  | false =>
    obtain ⟨p, hp⟩ := store_unthreaded (refuse51 s) hmay hwho
    rw [hp]
    rfl
  | true =>
    cases who with
    | thread core slot => rw [store_thread_refused hmay]; rfl
    | supervisor d => cases hwho
    | host fn => cases hwho

/-! ### What a partition may register (R394) -/

/-- The storer acts for partition `q`: its host function, or a thread of it in handler mode. -/
def ActsFor (s : State) (who : Who) (q : Nat) : Prop :=
  who = .host (q + 1) ∨ ∃ core slot, who = .thread core slot ∧ (s.thread (tidOf core slot)).mode = true ∧
    q = s.partOf (tidOf core slot)

section
variable {s : State} {who : Who} {h q : Nat} {r : Region} (hwho : ActsFor s who q)
include hwho

theorem mayRegion_actsFor (hfree : (s.region h).part = q ∨ (s.region h).v = false) : s.mayRegion who h = true := by
  rcases hwho with rfl | ⟨core, slot, rfl, hmode, rfl⟩ <;> rcases hfree with hfree | hfree <;> simp [State.mayRegion, *]

theorem regionPart_actsFor : s.regionPart who r = some q := by
  rcases hwho with rfl | ⟨core, slot, rfl, -, rfl⟩ <;> rfl

end

section
variable {s : State} {q : Nat} {r : Region}

/-- A range of memory that dies of the partition home. -/
theorem rangeOf_memory (hlen : 0 < r.len) (htop : r.base.toNat + r.len ≤ 0x18000000000)
    (hmine : ∀ d, r.base.toNat / 0x6000000000 ≤ d → d ≤ (r.base.toNat + r.len - 1) / 0x6000000000 → s.owner d = some q) :
    s.rangeOf q r = true := by
  have hen : (s.part q).en = true := by
    have hown := hmine _ le_rfl (Nat.div_le_div_right (by omega))
    simp only [State.owner] at hown
    split at hown
    · rename_i hen
      rw [Option.some.injEq] at hown
      subst hown
      exact (Bool.and_eq_true _ _ ▸ hen).1
    · cases hown
  have hall : (List.range 4).all (fun d => !(r.base.toNat / 0x6000000000 ≤ d && d ≤ (r.base.toNat + r.len - 1) / 0x6000000000) ||
      (s.owner d = some q)) = true := by
    rw [List.all_eq_true]
    intro d _
    by_cases hin : r.base.toNat / 0x6000000000 ≤ d ∧ d ≤ (r.base.toNat + r.len - 1) / 0x6000000000
    · simp [hmine d hin.1 hin.2]
    · simp only [Bool.or_eq_true, Bool.not_eq_true', Bool.and_eq_false_iff, decide_eq_false_iff_not]
      omega
  have hbelow : r.base.toNat + r.len - 1 < 0x18000000000 := by omega
  simp only [State.rangeOf, hen, hall, hbelow, decide_true, Bool.and_true, Bool.true_or]
  simpa using hlen.ne'

theorem regionClash_none {h : Nat} (hclear : ∀ c ∈ s.fab.regs.cells, c.1 ≠ h → c.2.v = true → c.2.part = q →
    r.base.toNat + r.len ≤ c.2.base.toNat ∨ c.2.base.toNat + c.2.len ≤ r.base.toNat) : s.regionClash q h r = false := by
  rw [State.regionClash, List.any_eq_false]
  intro c hc
  simp only [Bool.and_eq_true, decide_eq_true_eq, overlaps, not_and, and_imp]
  intro hk hv hpart
  have := hclear c hc hk hv hpart
  omega

end

theorem rangeOf_empty {s : State} {q : Nat} {r : Region} (hlen : r.len = 0) : s.rangeOf q r = false := by
  simp [State.rangeOf, hlen]

/-! ### RCTL (R394, R396) -/

theorem register_word (v : Word) : (v ||| 1#64 <<< 63).getLsbD 63 = true ∧
    ∀ r : Region, r.withCtl (v ||| 1#64 <<< 63) = r.withCtl v := by
  obtain ⟨h63, -, hlow⟩ := subscribe_word v
  refine ⟨h63, fun r => ?_⟩
  have hpeer : bits (v ||| 1#64 <<< 63).toNat 11 0 = bits v.toNat 11 0 := by
    rw [bits_low] at hlow ⊢
    rw [bits_low]
    omega
  simp only [Region.withCtl, hpeer]
  simp

section
variable {s : State} {who : Who} {h q : Nat} {v : Word} (hwho : ActsFor s who q) (hdrain : (s.region h).drain = false)
include hwho hdrain

theorem writeRctl_registers (hv : (s.region h).v = false) (hrange : s.rangeOf q ((s.region h).withCtl v) = true)
    (hclear : s.regionClash q h ((s.region h).withCtl v) = false) : s.writeRctl who h (v ||| 1#64 <<< 63) =
      { s := s.setRegion h { (s.region h).withCtl v with v := true, part := q, revoked := false } } := by
  obtain ⟨h63, hctl⟩ := register_word v
  simp only [State.writeRctl, mayRegion_actsFor hwho (.inr hv), hdrain, hv, hctl, h63, regionPart_actsFor hwho, hrange, hclear,
    Bool.not_true, Bool.not_false, Bool.or_self, Bool.and_self, Bool.false_eq_true, if_false, if_true]

theorem writeRctl_refuses (hv : (s.region h).v = false) (hlen : (s.region h).len = 0) :
    s.writeRctl who h (v ||| 1#64 <<< 63) = refuse51 s := by
  obtain ⟨h63, hctl⟩ := register_word v
  have hrange : s.rangeOf q ((s.region h).withCtl v) = false := rangeOf_empty hlen
  simp only [State.writeRctl, mayRegion_actsFor hwho (.inr hv), hdrain, hv, hctl, h63, regionPart_actsFor hwho, hrange,
    Bool.not_true, Bool.or_self, Bool.false_and, Bool.false_eq_true, if_false]

variable (hv : (s.region h).v = true) (hpart : (s.region h).part = q)
include hv hpart

theorem writeRctl_revokes_host {f : Nat} (hhost : who = .host f) : s.writeRctl who h (v &&& ~~~(1#64 <<< 63)) =
    { s := s.setRegion h { s.region h with drain := true, waiter := none } } := by
  obtain ⟨h63, -⟩ := unsubscribe_word v
  have hmay := mayRegion_actsFor hwho (.inl hpart)
  subst hhost
  simp only [State.writeRctl, hmay, hdrain, hv, h63, Bool.not_true, Bool.or_self, Bool.false_eq_true, if_false, if_true]

theorem writeRctl_revokes_thread {core slot : Nat} (hthread : who = .thread core slot) :
    s.writeRctl who h (v &&& ~~~(1#64 <<< 63)) =
    { s := { (s.setRegion h { s.region h with drain := true, waiter := some (tidOf core slot, s.nextId) }).modThread (tidOf core slot)
        (fun t => { t with unacked := t.unacked ++ [(s.nextId, t.mode)] }) with nextId := s.nextId + 1 } } := by
  obtain ⟨h63, -⟩ := unsubscribe_word v
  have hmay := mayRegion_actsFor hwho (.inl hpart)
  subst hthread
  simp only [State.writeRctl, hmay, hdrain, hv, h63, Bool.not_true, Bool.or_self, Bool.false_eq_true, if_false, if_true]

end

/-! ### The two writes, and the end of a revocation -/

section
variable {s : State} {who : Who} {h q : Nat} {v : Word} (hmay : MayStore s who (regionReg h 0x10)) (hwho : ActsFor s who q)
  (hdrain : (s.region h).drain = false)
include hmay

theorem setsRegion_of_write {i : Instr} {x : Region}
    (hx : exec i s = .next (s.store who (regionReg h 0x10) { s := s.setRegion h x })) : ∃ t, exec i s = .next t ∧
      t.region h = x ∧ t.threads = s.threads ∧ t.mem = s.mem ∧ ∀ k, k ≠ h → t.region k = s.region k := by
  obtain ⟨p, hp⟩ := store_accepted (t := s.setRegion h x) hmay
  exact ⟨_, hx.trans (congrArg _ hp), region_setRegion s h x, rfl, rfl, fun k hk => region_setRegion_other s x hk⟩

include hwho hdrain

theorem regionRegister_registers (hv : (s.region h).v = false) (hlen : 0 < (s.region h).len)
    (htop : (s.region h).base.toNat + (s.region h).len ≤ 0x18000000000)
    (hmine : ∀ d, (s.region h).base.toNat / 0x6000000000 ≤ d →
      d ≤ ((s.region h).base.toNat + (s.region h).len - 1) / 0x6000000000 → s.owner d = some q)
    (hclear : ∀ c ∈ s.fab.regs.cells, c.1 ≠ h → c.2.v = true → c.2.part = q →
      (s.region h).base.toNat + (s.region h).len ≤ c.2.base.toNat ∨ c.2.base.toNat + c.2.len ≤ (s.region h).base.toNat) :
    ∃ t, exec (.regionRegister who h v) s = .next t ∧
      t.region h = { (s.region h).withCtl v with v := true, part := q, revoked := false } ∧ t.threads = s.threads ∧
      t.mem = s.mem ∧ ∀ k, k ≠ h → t.region k = s.region k := by
  refine setsRegion_of_write hmay ?_
  rw [← writeRctl_registers hwho hdrain hv (rangeOf_memory hlen htop hmine) (regionClash_none hclear)]
  rfl

theorem regionRegister_empty (hv : (s.region h).v = false) (hlen : (s.region h).len = 0) :
    ∃ t, exec (.regionRegister who h v) s = .next t ∧ t.fab = s.fab := by
  refine ⟨_, ?_, fab_store_refused hmay⟩
  rw [← writeRctl_refuses (v := v) hwho hdrain hv hlen]
  rfl

variable (hv : (s.region h).v = true) (hpart : (s.region h).part = q)
include hv hpart

theorem regionRevoke_host {f : Nat} (hhost : who = .host f) : ∃ t, exec (.regionRevoke who h v) s = .next t ∧
    t.region h = { s.region h with drain := true, waiter := none } ∧ t.threads = s.threads ∧ t.mem = s.mem ∧
    ∀ k, k ≠ h → t.region k = s.region k := by
  refine setsRegion_of_write hmay ?_
  rw [← writeRctl_revokes_host (v := v) hwho hdrain hv hpart hhost]
  rfl

/-- R396: a thread's revocation is a store whose acknowledgement is outstanding. -/
theorem regionRevoke_thread {core slot : Nat} (hthread : who = .thread core slot) :
    ∃ t, exec (.regionRevoke who h v) s = .next t ∧
      t.region h = { s.region h with drain := true, waiter := some (tidOf core slot, s.nextId) } ∧ t.nextId = s.nextId + 1 ∧
      (∀ k, k ≠ tidOf core slot → t.thread k = s.thread k) ∧
      t.thread (tidOf core slot) = { s.thread (tidOf core slot) with
        unacked := (s.thread (tidOf core slot)).unacked ++ [(s.nextId, true)] } := by
  have hmode : (s.thread (tidOf core slot)).mode = true := by
    subst hthread
    rcases hwho with h | ⟨c, k, h, hmode, -⟩
    · cases h
    · cases h
      exact hmode
  obtain ⟨p, hp⟩ := store_accepted (t := { (s.setRegion h
    { s.region h with drain := true, waiter := some (tidOf core slot, s.nextId) }).modThread (tidOf core slot)
      (fun t => { t with unacked := t.unacked ++ [(s.nextId, t.mode)] }) with nextId := s.nextId + 1 }) hmay
  rw [← writeRctl_revokes_thread (v := v) hwho hdrain hv hpart hthread] at hp
  have hx : exec (.regionRevoke who h v) s =
      .next (s.store who (regionReg h 0x10) (s.writeRctl who h (v &&& ~~~(1#64 <<< 63)))) := rfl
  refine ⟨_, hx.trans (congrArg _ hp), region_setRegion _ _ _, rfl, fun k hk => Tab.get_put_other _ _ _ _ _ hk, ?_⟩
  rw [← hmode]
  exact Tab.get_put_same _ _ _ _

end

section
variable {s : State} {h : Nat}

theorem regionRevokeDone_waits (hw : (s.region h).drain = false ∨ (s.region h).infl ≠ 0) :
    exec (.regionRevokeDone h) s = .next s := by
  show execRegionRevokeDone h s = _
  exact if_pos (by rcases hw with h | h <;> simp [h])

/-- The entry once its revocation has ended (R396). -/
def revokedRegion (r : Region) : Region := { r with v := false, drain := false, waiter := none, revoked := true }

variable (hdrain : (s.region h).drain = true) (hinfl : (s.region h).infl = 0)
include hdrain hinfl

theorem regionRevokeDone_unawaited (hw : (s.region h).waiter = none) :
    exec (.regionRevokeDone h) s = .next (s.setRegion h (revokedRegion (s.region h))) := by
  show execRegionRevokeDone h s = _
  have hgo : (!(s.region h).drain || decide ((s.region h).infl ≠ 0)) = false := by simp [hdrain, hinfl]
  simp only [execRegionRevokeDone, hgo, hw, Bool.false_eq_true, if_false]
  rfl

theorem regionRevokeDone_awaited {tid id : Nat} (hw : (s.region h).waiter = some (tid, id)) :
    exec (.regionRevokeDone h) s = .next ((s.setRegion h (revokedRegion (s.region h))).acknowledge tid id) := by
  show execRegionRevokeDone h s = _
  have hgo : (!(s.region h).drain || decide ((s.region h).infl ≠ 0)) = false := by simp [hdrain, hinfl]
  simp only [execRegionRevokeDone, hgo, hw, Bool.false_eq_true, if_false]
  rfl

/-- R396: the entry is free, and the thread that waits for it is acknowledged. -/
theorem regionRevokeDone_ends : ∃ t, exec (.regionRevokeDone h) s = .next t ∧ t.mem = s.mem ∧
    t.region h = revokedRegion (s.region h) ∧ (∀ k, k ≠ h → t.region k = s.region k) ∧
    ((s.region h).waiter = none → t.threads = s.threads) ∧
    ∀ tid id, (s.region h).waiter = some (tid, id) → (∀ k, k ≠ tid → t.thread k = s.thread k) ∧
      t.thread tid = { s.thread tid with
        unacked := (s.thread tid).unacked.filter (fun u => decide (u.1 ≠ id))
        flights := (s.thread tid).flights.filter (fun f => decide (f.id ≠ id)) } := by
  have hset := region_setRegion s h (revokedRegion (s.region h))
  have hother := fun k (hk : k ≠ h) => region_setRegion_other s (revokedRegion (s.region h)) hk
  cases hw : (s.region h).waiter with
  | none =>
    refine ⟨_, regionRevokeDone_unawaited hdrain hinfl hw, rfl, hset, hother, fun _ => rfl, fun tid id hsome => ?_⟩
    cases hsome
  | some w =>
    obtain ⟨tid, id⟩ := w
    refine ⟨_, regionRevokeDone_awaited hdrain hinfl hw, rfl, hset, hother, fun hnone => ?_, fun tid' id' hsome => ?_⟩
    · cases hnone
    · cases hsome
      exact ⟨fun k hk => State.thread_modThread_other _ _ _ _ hk, State.thread_modThread _ _ _⟩

end

end Sys2Proof.Proofs
end

section
/-! Proofs, family 14 (chairli): a page begins its migration (R404). -/

namespace Sys2Proof.Proofs

open Sys2Proof Sys2Proof.Machine Sys2Proof.Claim

theorem pageOf_eq (va : Word) : pageOf va = va.toNat % 2 ^ 57 / 2 ^ 18 := by
  simp only [pageOf, bits]
  omega

/-- The frame that a leaf names, without the bytes of the page before it. -/
theorem leafOf_frame (e va : Nat) : (leafOf e va 18).pa / 2 ^ 18 * 2 ^ 18 = e / 2 ^ 18 % 2 ^ 30 * 2 ^ 18 := by
  simp only [leafOf, bits]
  omega

/-- The migration that a leaf asks for, before its frame is taken. -/
def migrationOf (e : Nat) (va : Word) : Migration :=
  { va := va, frame := 0, peer := e / 2 ^ 52 % 2 ^ 12, srcPa := e / 2 ^ 18 % 2 ^ 30 * 2 ^ 18, begun := false }

/-- The state once the copy of a page waits for what is outstanding. -/
def awaitsMigration (s : State) (d : Nat) (m : Migration) : State :=
  s.modDie d (fun x => { x with migrations := x.migrations ++ [m] })

section
variable {s : State} {d e : Nat} {va : Word} (hwalk : s.walk d (va.toNat % 2 ^ 57) = .leaf e 18)
include hwalk

theorem pageMigration_stays
    (h : e / 2 ^ 6 % 4 ≠ 3 ∨ (s.die d).counts.get 0 (pageOf va) ≤ 2 ^ (e / 2 ^ 10 % 2 ^ 4)) :
    exec (.pageMigration d va) s = .next s := by
  show execPageMigration d va s = _
  have hgo : (decide ((leafOf e (va.toNat % 2 ^ 57) 18).mode ≠ 3) ||
      decide ((s.die d).counts.get 0 (pageOf va) ≤ 2 ^ (leafOf e (va.toNat % 2 ^ 57) 18).t)) = true := by
    rcases h with h | h
    · exact Bool.or_eq_true_iff.2 (.inl (decide_eq_true h))
    · exact Bool.or_eq_true_iff.2 (.inr (decide_eq_true h))
  simp only [execPageMigration, bits_low, hwalk, hgo, if_true]

theorem pageMigration_begins (hmode : e / 2 ^ 6 % 4 = 3)
    (hcount : 2 ^ (e / 2 ^ 10 % 2 ^ 4) < (s.die d).counts.get 0 (pageOf va))
    (hnone : s.migrating (s.die d).part va = false) : exec (.pageMigration d va) s =
      .next (if s.pageBusy (s.die d).part va = true then awaitsMigration s d (migrationOf e va)
        else s.beginMigration d (s.die d).part (migrationOf e va)) := by
  show execPageMigration d va s = _
  have hgo : (decide ((leafOf e (va.toNat % 2 ^ 57) 18).mode ≠ 3) ||
      decide ((s.die d).counts.get 0 (pageOf va) ≤ 2 ^ (leafOf e (va.toNat % 2 ^ 57) 18).t)) = false :=
    Bool.or_eq_false_iff.2 ⟨decide_eq_false (not_not.2 hmode), decide_eq_false (not_le.2 hcount)⟩
  simp only [execPageMigration, bits_low, hwalk, hgo, hnone, leafOf_frame, Bool.false_eq_true, if_false]
  split_ifs <;> rfl

end

theorem migrating_none {s : State} (h : ∀ k < 4, (s.die k).migrations = []) (q : Nat) (va : Word) : s.migrating q va = false := by
  rw [State.migrating, List.any_eq_false]
  intro k hk
  simp [h k (List.mem_range.1 hk)]

theorem pageBusy_of_requests {s : State} {d : Nat} {va : Word}
    (h : ∃ r ∈ s.reqs, s.partOf r.tid = (s.die d).part ∧ r.sent = true ∧ r.resp = none ∧ pageOf r.va = pageOf va) :
    s.pageBusy (s.die d).part va = true := by
  obtain ⟨r, hr, hq, hsent, hresp, hpage⟩ := h
  have hany : s.reqs.any (fun r => s.partOf r.tid = (s.die d).part && r.sent && r.resp.isNone && pageOf r.va = pageOf va) = true :=
    List.any_eq_true.2 ⟨r, hr, by simp [hq, hsent, hresp, hpage]⟩
  simp only [State.pageBusy, hany, Bool.true_or]

theorem pageBusy_idle {s : State} (hreqs : s.reqs = []) (hops : s.fab.ops = []) (hgroups : s.trg.groups.cells = []) (q : Nat)
    (va : Word) : s.pageBusy q va = false := by simp [State.pageBusy, hreqs, hops, hgroups]

/-! ### The frame is taken -/

theorem addOp_eq (s : State) (o : RemoteOp) :
    s.addOp o = { s with fab := { s.fab with ops := s.fab.ops ++ [{ o with id := s.nextId }] }, nextId := s.nextId + 1 } := rfl

theorem die_addOp (s : State) (o : RemoteOp) (k : Nat) : (s.addOp o).die k = s.die k := rfl

/-- A die of a state where nothing but migrations and what an event shows differs. -/
theorem die_noMigration {s u : State} {d : Nat} (hu : ∀ k, (u.die k).fw = (s.die k).fw) (hwin : ∀ b, s.windowOf b = none) (va : Word)
    (why : Nat) : (u.noMigration d va why).die d = { u.die d with counts := (u.die d).counts.put (pageOf va) 0 } := by
  have hfw : ∀ k, ((u.modDie d fun x => { x with counts := x.counts.put (pageOf va) 0 }).die k).fw = (s.die k).fw := by
    intro k
    rw [State.die_modDie_eq, ← hu k]
    split_ifs <;> rfl
  refine (State.die_of_dies _ _ (dies_postEvent (fun b => (windowOf_of_fw hfw b).trans (hwin b)) _ _ _ _) d).trans ?_
  exact State.die_modDie _ _ _

theorem fab_noMigration (s : State) (d : Nat) (va : Word) (why : Nat) : (s.noMigration d va why).fab = s.fab := by
  rw [State.noMigration, State.postEvent_frame]
  rfl

theorem threads_noMigration (s : State) (d : Nat) (va : Word) (why : Nat) : (s.noMigration d va why).threads = s.threads :=
  threads_postEvent _ _ _ _ _

/-- The flits of a frame's copy ask for its 1,024 lines in order. -/
theorem frameCopy_flits {s : State} {d q : Nat} {m : Migration} {o : RemoteOp} (ho : o = { s.frameCopy d q m with id := s.nextId }) :
    o.count = 1024 ∧ o.flits.length = 1024 ∧ ∀ i < 1024, o.flits[i]? = some {
      typ := 0x08, hdl := 0xFFF, off := (m.srcPa + 256 * i) % 2 ^ 40, aux := (m.srcPa + 256 * i) / 2 ^ 40, len := 255
      payload := leBytes 2 (s.nextId % 65536) } := by
  subst ho
  simp only [State.frameCopy, List.length_map, List.length_range, List.getElem?_map, true_and]
  intro i hi
  rw [List.getElem?_range hi]
  rfl

section
variable {s : State} {d e : Nat} {m : Migration} (hnone : (s.die d).migrations = [])
include hnone

/-- The migrations of a die that has none, without those of a page. -/
theorem modDie_sansMigrations (f : Migration → Bool) :
    (s.modDie d fun x => { x with migrations := x.migrations.filter f }).die d = s.die d ∧
    ∀ k, (s.modDie d fun x => { x with migrations := x.migrations.filter f }).die k = s.die k := by
  have hd : { s.die d with migrations := (s.die d).migrations.filter f } = s.die d := by
    generalize s.die d = x at hnone
    cases x
    subst hnone
    rfl
  have hall : ∀ k, (s.modDie d fun x => { x with migrations := x.migrations.filter f }).die k = s.die k := by
    intro k
    rw [State.die_modDie_eq]
    split_ifs with hk
    · rw [hk, hd]
    · rfl
  exact ⟨hall d, hall⟩

end

/-- What a die is given when it takes a frame for a migration. -/
def takesFrame (x : Die) (m : Migration) (f : Nat) (l : List Nat) : Die :=
  { x with freeFrames := l, migrations := [{ m with frame := f, begun := true }] }

section
variable {s : State} {d q : Nat} {m : Migration} (hnone : (s.die d).migrations = [])
include hnone

theorem beginMigration_no_frame (hfree : (s.die d).freeFrames = []) : (s.beginMigration d q m).threads = s.threads ∧
    ((∀ b, s.windowOf b = none) →
      (s.beginMigration d q m).die d = { s.die d with counts := (s.die d).counts.put (pageOf m.va) 0 }) := by
  obtain ⟨hd, hall⟩ := modDie_sansMigrations hnone fun y => decide (pageOf y.va ≠ pageOf m.va)
  generalize hu : s.modDie d (fun x => { x with migrations := x.migrations.filter fun y => decide (pageOf y.va ≠ pageOf m.va) }) = u
    at hd hall
  have hx : s.beginMigration d q m = u.noMigration d m.va 0 := by
    simp only [State.beginMigration, hu, hd, hfree]
  rw [hx]
  refine ⟨(threads_noMigration _ _ _ _).trans (by rw [← hu]; rfl), fun hwin => ?_⟩
  rw [die_noMigration (s := s) (fun k => by rw [hall k]) hwin, hd]

theorem beginMigration_frame {f : Nat} {l : List Nat} (hfree : (s.die d).freeFrames = f :: l) (hops : s.fab.ops = []) :
    ∃ t, s.beginMigration d q m = t ∧
      t = { s with dies := t.dies, fab := { s.fab with ops := [{ s.frameCopy d q m with id := s.nextId }] }, nextId := s.nextId + 1 } ∧
      (∀ k, k ≠ d → t.die k = s.die k) ∧ t.die d = takesFrame (s.die d) m f l := by
  obtain ⟨hd, hall⟩ := modDie_sansMigrations hnone fun y => decide (pageOf y.va ≠ pageOf m.va)
  generalize hu : s.modDie d (fun x => { x with migrations := x.migrations.filter fun y => decide (pageOf y.va ≠ pageOf m.va) }) = u
    at hd hall
  have hframe : u = { s with dies := u.dies } := by rw [← hu]; rfl
  refine ⟨_, rfl, ?_, fun k hk => ?_, ?_⟩
  · simp only [State.beginMigration, hu, hd, hfree, addOp_eq]
    rw [hframe]
    simp only [State.modDie, State.setDie, hops, List.nil_append]
    rfl
  · simp only [State.beginMigration, hu, hd, hfree, die_addOp]
    exact (State.die_modDie_other _ _ _ _ hk).trans (hall k)
  · simp only [State.beginMigration, hu, hd, hfree, die_addOp]
    refine (State.die_modDie u d _).trans ?_
    rw [hd, hnone]
    rfl

end

end Sys2Proof.Proofs
end

section
/-! Proofs, family 14 (chairli): a page ends its migration (R404). -/

namespace Sys2Proof.Proofs

open Sys2Proof Sys2Proof.Machine Sys2Proof.Claim

/-! ### What a home holds where no format window lies -/

theorem homeRead_unwindowed {s : State} {a : Nat} (hwin : s.windowOf a = none) (n : Nat) : s.homeRead a n =
    (s, if inTier2 a = true then ((s.tierLine a).drop (a % 256)).take n else s.mem.readBytes a n) := by
  rw [State.homeRead, hwin]

/-- Without format windows what a home holds does not depend on the dies. -/
theorem homeNat_unwindowed {s t : State} (hs : ∀ b, s.windowOf b = none) (ht : ∀ b, t.windowOf b = none) (hmem : t.mem = s.mem)
    (htier : ∀ a, t.tierLine a = s.tierLine a) (a n : Nat) : t.homeNat a n = s.homeNat a n := by
  have hall : ∀ (l : List (Nat × Nat)) (bs : List Byte),
      (l.foldl (fun acc p => ((acc.1.homeRead p.1 p.2).1, acc.2 ++ (acc.1.homeRead p.1 p.2).2)) (t, bs)).2 =
      (l.foldl (fun acc p => ((acc.1.homeRead p.1 p.2).1, acc.2 ++ (acc.1.homeRead p.1 p.2).2)) (s, bs)).2 := by
    intro l
    induction l with
    | nil => exact fun _ => rfl
    | cons p l ih =>
      intro bs
      simp only [List.foldl_cons, homeRead_unwindowed (hs p.1), homeRead_unwindowed (ht p.1), hmem, htier, ih]
  exact congrArg leNat (hall _ _)

theorem plainRun_of_homes {s : State} {pa n : Nat} (hwin : ∀ b, s.windowOf b = none)
    (h : ∀ b, pa ≤ b → b < pa + n → ∃ k, homeDie b = some k ∧ s.dead k = false) : s.PlainRun pa n := by
  intro o ho
  obtain ⟨k, hk, hdead⟩ := h (pa + o) (by omega) (by omega)
  exact ⟨hwin _, homeDie_not_tier2 hk, by simp only [State.lost, hk, hdead]⟩

/-! ### Whose copy is over -/

theorem copied_none_of_idle {s : State} {d : Nat} (h : ∀ y ∈ (s.die d).migrations, y.begun = false) : s.copied d = none := by
  rw [State.copied, List.findSome?_eq_none_iff]
  intro y hy
  simp [h y hy]

theorem pageMigrationDone_none {s : State} {d : Nat} (h : s.copied d = none) (ok : Bool) (frame : List Byte) :
    exec (.pageMigrationDone d ok frame) s = .next s := by
  show execPageMigrationDone d ok frame s = _
  simp only [execPageMigrationDone, h]

/-- How the copy of a migration stands, once it is over. -/
def copyEnd (m : Migration) (o : RemoteOp) : Option (Migration × RemoteOp × Bool) :=
  if (o.failed || o.refused.isSome) = true then some (m, o, false) else if o.answered = true then some (m, o, true) else none

/-- One migration of the die has begun, and its copy is the one operation in progress. -/
structure Copying (s : State) (d : Nat) (m : Migration) (l : List Migration) (o : RemoteOp) : Prop where
  migrations : (s.die d).migrations = m :: l
  begun : m.begun = true
  others : ∀ y ∈ l, y.begun = false ∧ pageOf y.va ≠ pageOf m.va
  ops : s.fab.ops = [o]
  owner : o.owner = .frame d
  page : pageOf o.x = pageOf m.va

/-- The state once the copy has left its queue and the migration its die. -/
def sansCopy (s : State) (d : Nat) (m : Migration) (o : RemoteOp) : State :=
  (s.dropOp o.id).modDie d (fun x => { x with migrations := x.migrations.filter (fun y => pageOf y.va ≠ pageOf m.va) })

section
variable {s : State} {d : Nat} {m : Migration} {l : List Migration} {o : RemoteOp} (h : Copying s d m l o)
include h

theorem copied_eq : s.copied d = copyEnd m o := by
  obtain ⟨hm, hbegun, hothers, hops, howner, hpage⟩ := h
  have hrest : l.findSome? (fun m => if (!m.begun) = true then none
      else (s.fab.ops.find? (fun o => o.owner = .frame d && pageOf o.x = pageOf m.va)).bind (copyEnd m)) = none := by
    rw [List.findSome?_eq_none_iff]
    intro y hy
    simp [(hothers y hy).1]
  have hhead : (if (!m.begun) = true then none
      else (s.fab.ops.find? (fun o => o.owner = .frame d && pageOf o.x = pageOf m.va)).bind (copyEnd m)) = copyEnd m o := by
    simp [hbegun, hops, howner, hpage]
  show (s.die d).migrations.findSome? (fun m => if (!m.begun) = true then none
      else (s.fab.ops.find? (fun o => o.owner = .frame d && pageOf o.x = pageOf m.va)).bind (copyEnd m)) = _
  rw [hm, List.findSome?_cons, hhead, hrest]
  cases copyEnd m o <;> rfl

theorem ops_sansCopy : (sansCopy s d m o).fab.ops = [] := by
  show s.fab.ops.filter (fun p => p.id ≠ o.id) = []
  simp [h.ops]

theorem die_sansCopy : (sansCopy s d m o).die d = { s.die d with migrations := l } := by
  have hl : l.filter (fun y => pageOf y.va ≠ pageOf m.va) = l :=
    List.filter_eq_self.2 fun y hy => decide_eq_true (h.others y hy).2
  refine (State.die_modDie _ _ _).trans ?_
  show { s.die d with migrations := (s.die d).migrations.filter (fun y => pageOf y.va ≠ pageOf m.va) } = _
  rw [h.migrations, List.filter_cons_of_neg (by simp), hl]

theorem pageMigrationDone_unended (hwhole : o.failed = false) (hgood : o.refused = none) (hopen : o.answered = false) (ok : Bool)
    (frame : List Byte) : exec (.pageMigrationDone d ok frame) s = .next s := by
  refine pageMigrationDone_none ((copied_eq h).trans ?_) ok frame
  simp [copyEnd, hwhole, hgood, hopen]

section
variable (hbad : o.failed = true ∨ o.refused ≠ none)
include hbad

theorem copied_bad : s.copied d = some (m, o, false) := by
  have hgo : (o.failed || o.refused.isSome) = true := by
    rcases hbad with hf | hr
    · simp [hf]
    · simp [Option.isSome_iff_ne_none, hr]
  rw [copied_eq h, copyEnd, if_pos hgo]

theorem pageMigrationDone_not_well (frame : List Byte) : exec (.pageMigrationDone d true frame) s = .next s := by
  show execPageMigrationDone d true frame s = _
  simp only [execPageMigrationDone, copied_bad h hbad]
  rfl

/-- R404: a copy that failed gives its frame back. -/
theorem pageMigrationDone_fails (frame : List Byte) : ∃ t, exec (.pageMigrationDone d false frame) s = .next t ∧
    t.threads = s.threads ∧ t.fab.ops = [] ∧ ((∀ b, s.windowOf b = none) → t.die d = { s.die d with
      migrations := l, freeFrames := m.frame :: (s.die d).freeFrames
      counts := (s.die d).counts.put (pageOf m.va) 0 }) := by
  have hx : exec (.pageMigrationDone d false frame) s = .next (((sansCopy s d m o).modDie d
      (fun x => { x with freeFrames := m.frame :: x.freeFrames })).noMigration d m.va 1) := by
    show execPageMigrationDone d false frame s = _
    simp only [execPageMigrationDone, copied_bad h hbad]
    rfl
  refine ⟨_, hx, threads_noMigration _ _ _ _, ?_, fun hwin => ?_⟩
  · rw [fab_noMigration]
    exact ops_sansCopy h
  · have hfw : ∀ k, (((sansCopy s d m o).modDie d (fun x => { x with freeFrames := m.frame :: x.freeFrames })).die k).fw =
        (s.die k).fw := by
      intro k
      rw [sansCopy, State.die_modDie_eq, State.die_modDie_eq]
      split_ifs <;> rfl
    rw [die_noMigration hfw hwin, State.die_modDie, die_sansCopy h]

end

end

/-! ### The page is this package's -/

theorem foldl_modDie_frame (f : Die → Die) (l : List Nat) (s : State) :
    l.foldl (fun s d => s.modDie d f) s = { s with dies := (l.foldl (fun s d => s.modDie d f) s).dies } := by
  induction l generalizing s with
  | nil => rfl
  | cons d l ih =>
    rw [List.foldl_cons, ih]
    rfl

/-- R371: without an event ring an event is counted as lost. -/
theorem postEvent_unringed {s : State} (h : s.pkg.rings[0].log2 = 0) (k : Nat) (a b : Word) :
    s.postEvent none k a b = { s with pkg := (s.postEvent none k a b).pkg } := by
  have hput : ∀ w x y, s.ringPut 0 w x y = { s with pkg := (s.ringPut 0 w x y).pkg } := by
    intro w x y
    simp [State.ringPut, h]
  exact hput _ _ _

/-- The state once a migrated page is written: its bytes in the frame, and its leaf. -/
def pageWritten (s : State) (d : Nat) (m : Migration) (frame : List Byte) : State :=
  (s.homeWriteAll m.frame frame).putNat (s.leafAddr d (m.va.toNat % 2 ^ 57)) 8
    (BitVec.ofNat 64 (s.homeNat (s.leafAddr d (m.va.toNat % 2 ^ 57)) 8) &&& 0x3F3F ||| BitVec.ofNat 64 m.frame).toNat

/-- What follows the two writes of a migrated page changes no memory, no thread and not the fabric. -/
theorem migrated_frame {s : State} {d : Nat} {m : Migration} {frame : List Byte}
    (h : (pageWritten s d m frame).pkg.rings[0].log2 = 0) : (s.migrated d m frame).mem = (pageWritten s d m frame).mem ∧
      (s.migrated d m frame).threads = (pageWritten s d m frame).threads ∧
      (s.migrated d m frame).fab = (pageWritten s d m frame).fab := by
  have hpost {u : State} (hu : ∃ x y, u = { pageWritten s d m frame with dies := x, reqs := y }) (a b : Word) :
      (u.postEvent none 0x0D a b).mem = (pageWritten s d m frame).mem ∧
      (u.postEvent none 0x0D a b).threads = (pageWritten s d m frame).threads ∧
      (u.postEvent none 0x0D a b).fab = (pageWritten s d m frame).fab := by
    obtain ⟨x, y, rfl⟩ := hu
    rw [postEvent_unringed (by exact h)]
    exact ⟨rfl, rfl, rfl⟩
  simp only [State.migrated, bits_low]
  rw [foldl_modDie_frame]
  exact hpost ⟨_, _, rfl⟩ _ _

section
variable {s : State} {d n : Nat} {m : Migration} {frame : List Byte} (hwin : ∀ b, s.windowOf b = none)
  (hlen : frame.length = n) (hapart : s.leafAddr d (m.va.toNat % 2 ^ 57) + 8 ≤ m.frame ∨ m.frame + n ≤ s.leafAddr d (m.va.toNat % 2 ^ 57))
  (hframe : s.PlainRun m.frame n) (hleaf : s.PlainRun (s.leafAddr d (m.va.toNat % 2 ^ 57)) 8)
include hlen hapart hframe hleaf

theorem pageWritten_reads : (pageWritten s d m frame) = { s with
      mem := (pageWritten s d m frame).mem, memBad := (pageWritten s d m frame).memBad } ∧
    (pageWritten s d m frame).mem.readNat m.frame n = leNat frame ∧
    (pageWritten s d m frame).mem.readNat (s.leafAddr d (m.va.toNat % 2 ^ 57)) 8 =
      (BitVec.ofNat 64 (s.mem.readNat (s.leafAddr d (m.va.toNat % 2 ^ 57)) 8) &&& 0x3F3F ||| BitVec.ofNat 64 m.frame).toNat ∧
    ∀ b, (b < m.frame ∨ m.frame + n ≤ b) → (b < s.leafAddr d (m.va.toNat % 2 ^ 57) ∨ s.leafAddr d (m.va.toNat % 2 ^ 57) + 8 ≤ b) →
      (pageWritten s d m frame).mem.read b = s.mem.read b := by
  subst hlen
  rw [← homeNat_plain hleaf, pageWritten]
  generalize (BitVec.ofNat 64 (s.homeNat (s.leafAddr d (m.va.toNat % 2 ^ 57)) 8) &&& 0x3F3F ||| BitVec.ofNat 64 m.frame) = e
  generalize s.leafAddr d (m.va.toNat % 2 ^ 57) = p at *
  have hfirst := writesHome_homeWriteAll hframe
  have hplain := hfirst.plain hleaf
  have hsecond := writesHome_putNat e.toNat hplain
  obtain ⟨hx, hbytes⟩ := hfirst
  obtain ⟨hy, hword⟩ := hsecond
  refine ⟨by rw [hy, hx], ?_, ?_, fun b hf hp => (hword b hp).trans (hbytes b hf)⟩
  · rw [WritesHome.readNat ⟨hy, hword⟩ (by omega)]
    obtain ⟨bad, hbad⟩ := homeWriteAll_plain hframe
    rw [hbad]
    exact congrArg leNat (Memory.readBytes_writeBytes _ _ _)
  · rw [readNat_putNat _ hplain]
    exact Nat.mod_eq_of_lt e.isLt

end

section
variable {s : State} {d n : Nat} {m : Migration} {l : List Migration} {o : RemoteOp} (h : Copying s d m l o)
include h

theorem sansCopy_frame : (∀ k, ((sansCopy s d m o).die k).fw = (s.die k).fw) ∧ (∀ k, (sansCopy s d m o).dead k = s.dead k) ∧
    (sansCopy s d m o).die d = { s.die d with migrations := l } := by
  have hk : ∀ k, ∃ x, (sansCopy s d m o).die k = { s.die k with migrations := x } := by
    intro k
    rw [sansCopy, State.die_modDie_eq]
    split_ifs
    · exact ⟨_, rfl⟩
    · exact ⟨(s.die k).migrations, rfl⟩
  refine ⟨fun k => ?_, fun k => ?_, die_sansCopy h⟩
  · obtain ⟨x, hx⟩ := hk k
    rw [hx]
  · obtain ⟨x, hx⟩ := hk k
    rw [State.dead, hx, State.dead]

theorem sansCopy_home (hwin : ∀ b, s.windowOf b = none) : (∀ b, (sansCopy s d m o).windowOf b = none) ∧
    (∀ a n, (sansCopy s d m o).homeNat a n = s.homeNat a n) ∧ ∀ a, (sansCopy s d m o).leafAddr d a = s.leafAddr d a := by
  obtain ⟨hfw, -, hdie⟩ := sansCopy_frame h
  have hnone : ∀ b, (sansCopy s d m o).windowOf b = none := fun b => (windowOf_of_fw hfw b).trans (hwin b)
  have hnat := homeNat_unwindowed hwin hnone rfl fun _ => rfl
  exact ⟨hnone, hnat, fun a => by simp only [State.leafAddr, hnat, hdie]⟩

section
variable (hwhole : o.failed = false) (hgood : o.refused = none) (hans : o.answered = true)
include hwhole hgood hans

theorem copied_well : s.copied d = some (m, o, true) := by
  simp [copied_eq h, copyEnd, hwhole, hgood, hans]

theorem pageMigrationDone_other_bytes {frame : List Byte} (hframe : frame ≠ m.bytes) :
    exec (.pageMigrationDone d true frame) s = .next s := by
  show execPageMigrationDone d true frame s = _
  have hgo : (decide (true ≠ true) || (true && decide (frame ≠ m.bytes))) = true := by simp [hframe]
  simp only [execPageMigrationDone, copied_well h hwhole hgood hans, hgo, if_true]

/-- R404: the copy of a page has ended well. -/
theorem pageMigrationDone_moves {p : Nat} {frame : List Byte} (hp : p = s.leafAddr d (m.va.toNat % 2 ^ 57))
    (hframe : frame = m.bytes) (hlen : frame.length = n) (hapart : p + 8 ≤ m.frame ∨ m.frame + n ≤ p)
    (hring : s.pkg.rings[0].log2 = 0) (hwin : ∀ b, s.windowOf b = none)
    (hhome : ∀ b, m.frame ≤ b ∧ b < m.frame + n ∨ p ≤ b ∧ b < p + 8 → ∃ k, homeDie b = some k ∧ s.dead k = false) :
    ∃ t, exec (.pageMigrationDone d true frame) s = .next t ∧ t.threads = s.threads ∧ t.fab.ops = [] ∧
      t.mem.readNat m.frame n = leNat frame ∧
      t.mem.readNat p 8 = (BitVec.ofNat 64 (s.mem.readNat p 8) &&& 0x3F3F ||| BitVec.ofNat 64 m.frame).toNat ∧
      ∀ b, (b < m.frame ∨ m.frame + n ≤ b) → (b < p ∨ p + 8 ≤ b) → t.mem.read b = s.mem.read b := by
  subst hframe
  have hx : exec (.pageMigrationDone d true m.bytes) s = .next ((sansCopy s d m o).migrated d m m.bytes) := by
    show execPageMigrationDone d true m.bytes s = _
    have hgo : (decide (true ≠ true) || (true && decide (m.bytes ≠ m.bytes))) = false := by simp
    simp only [execPageMigrationDone, copied_well h hwhole hgood hans, hgo, Bool.false_eq_true, if_false, if_true]
    rfl
  obtain ⟨hnone, -, hleafAddr⟩ := sansCopy_home h hwin
  obtain ⟨-, hdead, -⟩ := sansCopy_frame h
  have hplain : ∀ a k, (∀ b, a ≤ b → b < a + k → m.frame ≤ b ∧ b < m.frame + n ∨ p ≤ b ∧ b < p + 8) →
      (sansCopy s d m o).PlainRun a k := by
    intro a k hin
    refine plainRun_of_homes hnone fun b hlo hhi => ?_
    rw [funext hdead]
    exact hhome b (hin b hlo hhi)
  rw [hp, ← hleafAddr] at hapart hplain ⊢
  obtain ⟨hwrites, hbytes, hword, hother⟩ := pageWritten_reads hlen hapart (hplain _ _ fun b hlo hhi => .inl ⟨hlo, hhi⟩)
    (hplain _ _ fun b hlo hhi => .inr ⟨hlo, hhi⟩)
  obtain ⟨hmem, hthreads, hfab⟩ := migrated_frame (s := sansCopy s d m o) (d := d) (m := m) (frame := m.bytes) (by
    rw [hwrites]
    exact hring)
  refine ⟨_, hx, ?_, ?_, ?_, ?_, ?_⟩
  · rw [hthreads, hwrites]
    rfl
  · rw [hfab, hwrites]
    exact ops_sansCopy h
  · rw [hmem, hbytes]
  · rw [hmem, hword]
    rfl
  · rw [hmem]
    exact hother

end

end

end Sys2Proof.Proofs
end

section
/-! Proofs, family 14 (chairli): regions are registered and pages migrate (R394, R396, R404). -/

namespace Sys2Proof.Proofs

open Sys2Proof Sys2Proof.Machine Sys2Proof.Claim

theorem withCtl_eq (r : Region) (v : Word) : r.withCtl v = { r with
    rd := v.getLsbD 61, wr := v.getLsbD 60, at_ := v.getLsbD 59, tcm := v.getLsbD 58, anyp := v.getLsbD 12
    peer := v.toNat % 2 ^ 12 } := by rw [Region.withCtl, bits_low]

/-- Settles O60: the writes of RCTL by their cases; a migration by whether accesses are outstanding, a frame is free and the copy
ended well. -/
theorem regionsAreRegisteredAndPagesMigrate : Obligations.RegionsAreRegisteredAndPagesMigrate := by
  unfold Obligations.RegionsAreRegisteredAndPagesMigrate
  refine ⟨?_, ?_, ?_, ?_⟩
  · intro s who h q a v r hr ha hmay hdrain hwho
    subst hr ha
    refine ⟨fun hv hlen htop hmine hclear => ?_, regionRegister_empty hmay hwho hdrain, fun hv hpart =>
      ⟨fun f hhost => regionRevoke_host hmay hwho hdrain hv hpart hhost, fun core slot tid hthread htid => ?_⟩⟩
    · have hsets := regionRegister_registers (v := v) hmay hwho hdrain hv hlen htop hmine hclear
      rw [withCtl_eq] at hsets
      exact hsets
    · subst htid
      exact regionRevoke_thread hmay hwho hdrain hv hpart hthread
  · intro s h r hr
    subst hr
    exact ⟨regionRevokeDone_waits, regionRevokeDone_ends⟩
  · intro s d e page a n va x hx ha hpage hwalk hn
    rw [ha, ← pageOf_eq] at hpage
    subst hx ha hpage hn
    refine ⟨pageMigration_stays hwalk, fun hmode hcount hd hnone => ?_⟩
    have hbegins := pageMigration_begins hwalk hmode hcount (migrating_none hnone _ va)
    have hidle (hreqs : s.reqs = []) (hops : s.fab.ops = []) (hgroups : s.trg.groups.cells = []) :
        exec (.pageMigration d va) s = .next (s.beginMigration d (s.die d).part (migrationOf e va)) := by
      rw [hbegins, pageBusy_idle hreqs hops hgroups, if_neg Bool.false_ne_true]
    refine ⟨fun r hr hq hsent hresp hpage => ?_, fun hreqs hops hgroups hfree => ?_, fun f l hreqs hops hgroups hfree => ?_⟩
    · rw [pageBusy_of_requests ⟨r, hr, hq, hsent, hresp, hpage⟩, if_pos rfl] at hbegins
      refine ⟨_, hbegins, rfl, fun k hk => State.die_modDie_other _ _ _ _ hk, (State.die_modDie _ _ _).trans ?_⟩
      rw [hnone d hd]
      rfl
    · exact ⟨_, hidle hreqs hops hgroups, beginMigration_no_frame (hnone d hd) hfree⟩
    · obtain ⟨t, ht, hframe, hother, hdie⟩ := beginMigration_frame (q := (s.die d).part) (m := migrationOf e va) (hnone d hd) hfree hops
      obtain ⟨hcount, hlen, hflits⟩ := frameCopy_flits (s := s) (d := d) (q := (s.die d).part) (m := migrationOf e va) rfl
      exact ⟨t, _, (hidle hreqs hops hgroups).trans (congrArg _ ht), hframe, hother, hdie, rfl, rfl, rfl, rfl, rfl, rfl, rfl,
        hcount, hlen, hflits⟩
  · intro s d frame x m l o hx
    subst hx
    refine ⟨fun hidle ok => pageMigrationDone_none (copied_none_of_idle hidle) ok frame, fun hm hbegun hothers hops howner hpage => ?_⟩
    have h : Copying s d m l o := ⟨hm, hbegun, hothers, hops, howner, hpage⟩
    exact ⟨fun hwhole hgood hopen ok => pageMigrationDone_unended h hwhole hgood hopen ok frame,
      fun hbad => ⟨pageMigrationDone_not_well h hbad frame, pageMigrationDone_fails h hbad frame⟩,
      fun hwhole hgood hans hframe => pageMigrationDone_other_bytes h hwhole hgood hans hframe,
      fun p hp hwhole hgood hans hframe hlen hapart hring hwin hhome =>
        pageMigrationDone_moves h hwhole hgood hans hp hframe hlen hapart hring hwin hhome⟩

end Sys2Proof.Proofs
end

section
/-! Proofs, family 14 (chairli): the instructions put, get, radd and rcas (R397–R400). -/

namespace Sys2Proof.Proofs

open Sys2Proof Sys2Proof.Machine Sys2Proof.Claim

/-! ### Fields of a remote address and of a descriptor (R397) -/

theorem raPeer_eq (ra : Word) : raPeer ra = ra.toNat / 2 ^ 52 := by
  have := ra.isLt
  simp only [raPeer, bits]
  omega

theorem raOff_eq (ra : Word) : raOff ra = ra.toNat % 2 ^ 40 := bits_low _ _

theorem getLsbD_eq_decide (w : Word) (i : Nat) : w.getLsbD i = decide (w.toNat / 2 ^ i % 2 = 1) :=
  Nat.testBit_eq_decide_div_mod_eq

/-- R397: the word is a descriptor. -/
def GoodDescriptor (v : Nat) : Prop := v < 2 ^ 54 ∧ v / 2 ^ 39 % 2 = 0 ∧ 0 < v % 2 ^ 32 ∧ v % 2 ^ 32 ≤ 0x80000000

/-- R397: what a descriptor says. -/
def descriptorFields (v : Nat) : Descriptor :=
  { nar := decide (v / 2 ^ 53 % 2 = 1), ctr := if v / 2 ^ 52 % 2 = 1 then some (v / 2 ^ 40 % 2 ^ 12) else none
    tag := if v / 2 ^ 38 % 2 = 1 then some (v / 2 ^ 32 % 2 ^ 6) else none, len := v % 2 ^ 32 }

theorem descriptor_refused (w : Word) : (bits w.toNat 63 54 ≠ 0 || bits w.toNat 39 39 ≠ 0 || bits w.toNat 31 0 = 0 ||
    bits w.toNat 31 0 > 0x80000000) = true ↔ ¬ GoodDescriptor w.toNat := by
  have := w.isLt
  simp only [GoodDescriptor, Bool.or_eq_true, decide_eq_true_eq, not_and_or]
  simp only [bits]
  omega

theorem descriptorOf_bad {w : Word} (h : ¬ GoodDescriptor w.toNat) : descriptorOf w = none := by
  rw [descriptorOf, if_pos ((descriptor_refused w).2 h)]

theorem descriptorOf_good {w : Word} (h : GoodDescriptor w.toNat) : descriptorOf w = some (descriptorFields w.toNat) := by
  rw [descriptorOf, if_neg (fun hbad => (descriptor_refused w).1 hbad h), getLsbD_eq_decide, getLsbD_eq_decide, getLsbD_eq_decide]
  simp only [descriptorFields, bits, decide_eq_true_eq]
  congr 2
  omega

/-! ### How a fabric instruction ends -/

section
variable {i : Instr} {s : State} {L : BitVec 4} {dests : List Nat}

theorem traps_of_finishWith {t : Trap} (hx : exec i s = s.finishWith 4 L.toNat dests (.error (.trap t))) (ha : TaskAlone s)
    (hnow : L = 0 ∨ alwaysPrecise t.code = true) : Traps i s t.code t.sub t.eval :=
  traps_of_ended ha (hnow.imp_left (fun hL => by rw [hL]; rfl)) hx

theorem faultsLate_of_finishWith {t : Trap} (hx : exec i s = s.finishWith 4 L.toNat dests (.error (.trap t))) (hL : L ≠ 0)
    (himp : alwaysPrecise t.code = false) : FaultsLate i s L dests t.code t.sub t.eval := faultsLate_of_ended hL himp hx

theorem traps_badOperand (hx : exec i s = s.finishWith 4 L.toNat dests (.error s.badOperand)) (ha : TaskAlone s) :
    Traps i s 0x01 4 (irWord s) :=
  traps_of_finishWith (t := { code := 0x01, sub := 4, eval := irWord s }) hx ha (.inr rfl)

/-- The operation that a fabric instruction issues, as its queue takes it. -/
def issuedOp (s : State) (o : RemoteOp) : RemoteOp :=
  { o with id := s.nextId + 1, owner := .thread s.cur s.nextId, core := s.myCore, deadline := s.gtime.toNat + s.fab.fto * 1000
           pc := s.me.pc, order := s.order }

/-- A thread with a fabric instruction in flight. -/
def flyingFabric (s : State) (L : BitVec 4) (dests : List Nat) (t : Thread) : Thread :=
  { t with flights := t.flights ++ [{ id := s.nextId, kind := .fabric, left := if L.toNat = 15 then none else some L.toNat
                                      dests := dests, handler := t.mode, pc := t.pc, order := s.order }] }

/-- The fabric once an operation has been issued. -/
def issuedFabric (s : State) (o : RemoteOp) : Fabric := { s.fab with ops := s.fab.ops ++ [issuedOp s o] }

theorem launchOp_eq (s : State) (o : RemoteOp) : s.launchOp L dests o =
    { s.modMe (flyingFabric s L dests) with fab := issuedFabric s o, nextId := s.nextId + 2 } := rfl

theorem launchOp_thread (s : State) (o : RemoteOp) :
    (∀ k, k ≠ s.cur → ((s.launchOp L dests o).advance 4).thread k = s.thread k) ∧
    ((s.launchOp L dests o).advance 4).me =
      { flyingFabric s L dests s.me with pc := s.me.pc + 4 } := by
  have hthread := State.thread_of_threads (s.modMe (flyingFabric s L dests)) (s.launchOp L dests o) rfl
  refine ⟨fun k hk => ?_, ?_⟩
  · exact ((s.launchOp L dests o).thread_advance_other _ _ hk).trans ((hthread k).trans (s.thread_modMe_other k _ hk))
  · refine (State.me_advance _ _).trans ?_
    exact congrArg (fun x : Thread => { x with pc := x.pc + 4 }) ((hthread s.cur).trans (s.me_modMe _))

/-- R397, R398: the instruction is in flight with its operation. -/
theorem startsOp_of_launch {o : RemoteOp} {x : Tab Core}
    (hother : ∀ k, k ≠ s.myCore → ({ s with cores := x } : State).core k = s.core k) (hnone : o.tag = none → x = s.cores)
    (htag : ∀ g, (h : g < 64) → o.tag = some g → ({ s with cores := x } : State).core s.myCore = { s.core s.myCore with
      tagCount := (s.core s.myCore).tagCount.set g ((s.core s.myCore).tagCount[g] + 1)
      tagReady := (s.core s.myCore).tagReady &&& ~~~(1#64 <<< g) })
    (hx : exec i s = .next ((({ s with cores := x } : State).launchOp L dests o).advance 4)) :
    StartsOp i s L dests (issuedOp s o) := by
  have h15 : L.toNat = 15 ↔ L = 15 := ⟨fun e => BitVec.eq_of_toNat_eq e, fun e => by rw [e]; rfl⟩
  obtain ⟨hthreads, hme⟩ := launchOp_thread (L := L) (dests := dests) { s with cores := x } o
  refine ⟨_, hx, ?_, ?_, hthreads, hme.trans ?_, hother, hnone, htag⟩
  · rw [launchOp_eq]
    rfl
  · rw [launchOp_eq]
    rfl
  · simp only [flyingFabric, h15]
    rfl

end

/-! ### The checks of a remote address, a route and a tag (R132, R400) -/

section
variable {s : State} {ra : Word} {peer hdl : Nat} (hpeer : peer = ra.toNat / 2 ^ 52) (hhdl : hdl = ra.toNat / 2 ^ 40 % 2 ^ 12)
include hpeer hhdl

theorem raOk_bad (h : peer = s.pkg.peer.toNat ∨ hdl = 0xFFF) : s.raOk ra = .error s.badOperand := by
  refine if_pos ?_
  rw [raPeer_eq, ← hpeer, show raHdl ra = hdl from hhdl.symm]
  simpa using h

theorem raOk_good (hp : peer ≠ s.pkg.peer.toNat) (hh : hdl ≠ 0xFFF) : s.raOk ra = .ok () := by
  refine if_neg ?_
  rw [raPeer_eq, ← hpeer, show raHdl ra = hdl from hhdl.symm]
  simp [hp, hh]

end

theorem tagFree_full {s : State} {c g : Nat} (hg : g < 64) (h : 4095 ≤ (s.core c).tagCount[g]) :
    s.tagFree c (some g) = .error .wait := by
  have hfull : s.tagFull c g = true := by simp [State.tagFull, Core.tagOut, hg, h]
  simp only [State.tagFree, hfull, if_true]

theorem tagFree_free {s : State} {c : Nat} {tag : Option Nat}
    (h : ∀ g, (hg : g < 64) → tag = some g → (s.core c).tagCount[g] < 4095) : s.tagFree c tag = .ok () := by
  cases tag with
  | none => rfl
  | some g =>
    have hfull : s.tagFull c g = false := by
      by_cases hg : g < 64
      · simp [State.tagFull, Core.tagOut, hg, h g hg rfl]
      · simp [State.tagFull, Core.tagOut, hg]
    simp only [State.tagFree, hfull, Bool.false_eq_true, if_false]

theorem core_tagStart_other (s : State) {c k : Nat} (g : Nat) (hk : k ≠ c) : (s.tagStart c g).core k = s.core k :=
  State.core_modCore_other _ _ _ _ hk

theorem core_tagStart (s : State) {c g : Nat} (hg : g < 64) : (s.tagStart c g).core c = { s.core c with
    tagCount := (s.core c).tagCount.set g ((s.core c).tagCount[g] + 1)
    tagReady := (s.core c).tagReady &&& ~~~(1#64 <<< g) } := by
  refine (State.core_modCore _ _ _).trans ?_
  rw [dif_pos hg]
  rfl

/-- What a put or a get does once its operands are checked: it looks for a route and for room at its tag. -/
def issues (s : State) (ra : Word) (tag : Option Nat) (act : Except Stop State) : Except Stop State :=
  (s.routed (s.partOf s.cur) ra).bind fun _ => (s.tagFree s.myCore tag).bind fun _ => act

section
variable {i : Instr} {s : State} {L : BitVec 4} {ra : Word} {tag : Option Nat} {act : Except Stop State}
  (hx : exec i s = s.finishWith 4 L.toNat [] (issues s ra tag act))
include hx

section
variable (hroute : s.hasRoute (s.partOf s.cur) (ra.toNat / 2 ^ 52) = false)
include hroute

theorem unrouted_finish : exec i s = s.finishWith 4 L.toNat [] (.error (.trap { code := 0x10, sub := 5, eval := ra })) := by
  rw [hx, issues, State.routed, raPeer_eq, hroute]
  rfl

theorem unrouted_traps (hL : L = 0) (ha : TaskAlone s) : Traps i s 0x10 5 ra :=
  traps_of_finishWith (t := { code := 0x10, sub := 5, eval := ra }) (unrouted_finish hx hroute) ha (.inl hL)

theorem unrouted_faultsLate (hL : L ≠ 0) : FaultsLate i s L [] 0x10 5 ra :=
  faultsLate_of_finishWith (t := { code := 0x10, sub := 5, eval := ra }) (unrouted_finish hx hroute) hL rfl

end

variable (hroute : s.hasRoute (s.partOf s.cur) (ra.toNat / 2 ^ 52) = true)
include hroute

theorem fullTag_waits {g : Nat} (hg : g < 64) (htag : tag = some g) (h : 4095 ≤ (s.core s.myCore).tagCount[g]) :
    exec i s = .next { s with stalled := true } := by
  rw [hx, issues, State.routed, raPeer_eq, hroute, htag, tagFree_full hg h]
  rfl

theorem tagged_starts {o : RemoteOp} (htag : o.tag = tag)
    (hfree : ∀ g, (hg : g < 64) → tag = some g → (s.core s.myCore).tagCount[g] < 4095)
    (hact : act = .ok ((s.tagBegin s.myCore tag).launchOp L [] o)) : StartsOp i s L [] (issuedOp s o) := by
  have hexec : exec i s = .next (((s.tagBegin s.myCore tag).launchOp L [] o).advance 4) := by
    rw [hx, issues, State.routed, raPeer_eq, hroute, tagFree_free hfree, hact]
    rfl
  cases tag with
  | none => exact startsOp_of_launch (x := s.cores) (fun _ _ => rfl) (fun _ => rfl) (fun g _ hg => by simp [htag] at hg) hexec
  | some g =>
    refine startsOp_of_launch (x := (s.tagStart s.myCore g).cores) (fun k hk => core_tagStart_other s g hk)
      (fun hno => by simp [htag] at hno) (fun k hk hkg => ?_) hexec
    rw [htag, Option.some.injEq] at hkg
    subst hkg
    exact core_tagStart s hk

end

/-! ### put and get (R397, R398) -/

/-- The operation of a put. -/
def putOp (s : State) (ra va : Word) (v : Nat) (l : List Span) : RemoteOp :=
  { id := 0, kind := .put, owner := .none, part := s.partOf s.cur, peer := ra.toNat / 2 ^ 52, hdl := ra.toNat / 2 ^ 40 % 2 ^ 12
    off := ra.toNat % 2 ^ 40, len := v % 2 ^ 32, nar := (descriptorFields v).nar, tcm := s.me.tcm, tag := (descriptorFields v).tag
    ctr := (descriptorFields v).ctr, x := va, spans := l, count := (v % 2 ^ 32 + 255) / 256 }

/-- The operation of a get under a get id. -/
def getOp (s : State) (ra va : Word) (v : Nat) (l : List Span) (id : Nat) : RemoteOp :=
  { putOp s ra va v l with
    kind := .get, y := BitVec.ofNat 64 id, count := 1
    flits := [{ typ := 0x02, nar := (descriptorFields v).nar, hdl := ra.toNat / 2 ^ 40 % 2 ^ 12, off := ra.toNat % 2 ^ 40, len := 4
                payload := leBytes 4 (v % 2 ^ 32) ++ leBytes 1 id }] }

/-- R384: a get takes a get id, or waits for one. -/
def getStep (s : State) (L : BitVec 4) (ra va : Word) (v : Nat) (l : List Span) : Except Stop State :=
  (s.getId (s.partOf s.cur) (ra.toNat / 2 ^ 52)).elim (.error .wait) fun id =>
    .ok ((s.tagBegin s.myCore (descriptorFields v).tag).launchOp L [] (getOp s ra va v l id))

theorem getId_first {s : State} {q x : Nat} (h : ∀ r ∈ s.fab.ops, r.part = q → r.peer = x → r.kind ≠ .get) :
    s.getId q x = some 0 := by
  have hall : s.fab.ops.all (fun o => !(o.part = q && o.peer = x && o.kind = .get && o.y.toNat = 0)) = true := by
    rw [List.all_eq_true]
    intro o ho
    by_cases hq : o.part = q ∧ o.peer = x
    · simp [h o ho hq.1 hq.2]
    · rw [not_and_or] at hq
      rcases hq with hq | hq <;> simp [hq]
  rw [State.getId, show List.range 256 = 0 :: (List.range 255).map (· + 1) from List.range_succ_eq_map, List.find?_cons_of_pos]
  exact hall

section
variable {s : State} {d a b : Reg} {L : BitVec 4} {l : List Span}

theorem put_bad (h : ¬ GoodDescriptor (s.rd d).toNat) :
    exec (.put d a b L) s = s.finishWith 4 L.toNat [] (.error s.badOperand) := by
  show execPut d a b L s = _
  rw [execPut, descriptorOf_bad h]

theorem get_bad (h : ¬ GoodDescriptor (s.rd d).toNat) :
    exec (.get d a b L) s = s.finishWith 4 L.toNat [] (.error s.badOperand) := by
  show execGet d a b L s = _
  rw [execGet, descriptorOf_bad h]

variable (hgood : GoodDescriptor (s.rd d).toNat)
include hgood

theorem put_bad_address (h : s.raOk (s.rd a) = .error s.badOperand) :
    exec (.put d a b L) s = s.finishWith 4 L.toNat [] (.error s.badOperand) := by
  show execPut d a b L s = _
  simp only [execPut, descriptorOf_good hgood, h]
  rfl

theorem get_bad_address (h : s.raOk (s.rd b) = .error s.badOperand) :
    exec (.get d a b L) s = s.finishWith 4 L.toNat [] (.error s.badOperand) := by
  show execGet d a b L s = _
  simp only [execGet, descriptorOf_good hgood, h]
  rfl

theorem put_issues (h : s.raOk (s.rd a) = .ok ())
    (hspans : s.rangeSpans s.cur .load (s.rd b) ((s.rd d).toNat % 2 ^ 32) = .ok l) :
    exec (.put d a b L) s = s.finishWith 4 L.toNat [] (issues s (s.rd a) (descriptorFields (s.rd d).toNat).tag
      (.ok ((s.tagBegin s.myCore (descriptorFields (s.rd d).toNat).tag).launchOp L []
        (putOp s (s.rd a) (s.rd b) (s.rd d).toNat l)))) := by
  show execPut d a b L s = _
  have hlocal : s.localSpans .load (s.rd b) (descriptorFields (s.rd d).toNat).len = .ok l := by
    rw [State.localSpans, descriptorFields, hspans]
  simp only [execPut, descriptorOf_good hgood, h, hlocal, raPeer_eq, raOff_eq]
  rfl

theorem get_issues (h : s.raOk (s.rd b) = .ok ())
    (hspans : s.rangeSpans s.cur .store (s.rd a) ((s.rd d).toNat % 2 ^ 32) = .ok l) :
    exec (.get d a b L) s = s.finishWith 4 L.toNat [] (issues s (s.rd b) (descriptorFields (s.rd d).toNat).tag
      (getStep s L (s.rd b) (s.rd a) (s.rd d).toNat l)) := by
  show execGet d a b L s = _
  have hlocal : s.localSpans .store (s.rd a) (descriptorFields (s.rd d).toNat).len = .ok l := by
    rw [State.localSpans, descriptorFields, hspans]
  simp only [execGet, descriptorOf_good hgood, h, hlocal, raPeer_eq, raOff_eq, getStep]
  cases s.getId (s.partOf s.cur) ((s.rd b).toNat / 2 ^ 52) <;> rfl

end

end Sys2Proof.Proofs
end

section
/-! Proofs, family 14 (chairli): remote atomics, and the state of a lease (R382, R399). -/

namespace Sys2Proof.Proofs

open Sys2Proof Sys2Proof.Machine Sys2Proof.Claim

/-! ### radd and rcas (R399) -/

/-- The operation of a remote atomic. -/
def atomicOp (s : State) (ra : Word) (c : Nat) (kind : OpKind) (f : Flit) : RemoteOp :=
  { id := 0, kind := kind, owner := .none, part := s.partOf s.cur, peer := ra.toNat / 2 ^ 52, hdl := ra.toNat / 2 ^ 40 % 2 ^ 12
    off := ra.toNat % 2 ^ 40, len := 8, d := c, count := 1
    flits := [{ f with hdl := ra.toNat / 2 ^ 40 % 2 ^ 12, off := ra.toNat % 2 ^ 40 }] }

section
variable {i : Instr} {s : State} {d a : Reg} {L : BitVec 4} {kind : OpKind} {f : Flit}
  (hx : exec i s = s.finishWith 4 L.toNat [s.me.code d] (s.remoteAtomic d a L kind f))
include hx

theorem atomic_bad_address (h : s.raOk (s.rd a) = .error s.badOperand) (ha : TaskAlone s) : Traps i s 0x01 4 (irWord s) := by
  refine traps_badOperand (L := L) (dests := [s.me.code d]) ?_ ha
  rw [hx]
  simp only [State.remoteAtomic, h]
  rfl

variable (h : s.raOk (s.rd a) = .ok ())
include h

theorem atomic_misaligned (hoff : (s.rd a).toNat % 2 ^ 40 % 8 ≠ 0) (ha : TaskAlone s) : Traps i s 0x03 0 (s.rd a) := by
  refine traps_of_finishWith (L := L) (dests := [s.me.code d]) (t := { code := 0x03, eval := s.rd a }) ?_ ha (.inr rfl)
  rw [hx]
  simp only [State.remoteAtomic, h, raOff_eq, hoff, ne_eq, not_false_eq_true, if_true]
  rfl

variable (hoff : (s.rd a).toNat % 2 ^ 40 % 8 = 0)
include hoff

theorem atomic_aligned : exec i s = s.finishWith 4 L.toNat [s.me.code d] ((s.routed (s.partOf s.cur) (s.rd a)).bind fun _ =>
    .ok (s.launchOp L [s.me.code d] (atomicOp s (s.rd a) (s.me.code d) kind f))) := by
  rw [hx]
  simp only [State.remoteAtomic, h, raOff_eq, raPeer_eq, hoff, ne_eq, not_true_eq_false, if_false]
  rfl

theorem atomic_unrouted (hroute : s.hasRoute (s.partOf s.cur) ((s.rd a).toNat / 2 ^ 52) = false) :
    exec i s = s.finishWith 4 L.toNat [s.me.code d] (.error (.trap { code := 0x10, sub := 5, eval := s.rd a })) := by
  rw [atomic_aligned hx h hoff, State.routed, raPeer_eq, hroute]
  rfl

theorem atomic_starts (hroute : s.hasRoute (s.partOf s.cur) ((s.rd a).toNat / 2 ^ 52) = true) :
    StartsOp i s L [s.me.code d] (issuedOp s (atomicOp s (s.rd a) (s.me.code d) kind f)) := by
  have hexec : exec i s = .next ((s.launchOp L [s.me.code d] (atomicOp s (s.rd a) (s.me.code d) kind f)).advance 4) := by
    rw [atomic_aligned hx h hoff, State.routed, raPeer_eq, hroute]
    rfl
  exact startsOp_of_launch (x := s.cores) (fun _ _ => rfl) (fun _ => rfl) (fun g _ hg => by simp [atomicOp] at hg) hexec

end

/-! ### lqry (R382) -/

theorem leasePeer_bad {s : State} {a : Word} (h : 2 ^ 12 ≤ a.toNat ∨ a.toNat = s.pkg.peer.toNat) :
    s.leasePeer a = .error s.badOperand := by
  have hlt := a.isLt
  refine if_pos ?_
  simp only [Bool.or_eq_true, decide_eq_true_eq]
  simp only [bits]
  omega

theorem leasePeer_good {s : State} {a : Word} (hlt : a.toNat < 2 ^ 12) (hne : a.toNat ≠ s.pkg.peer.toNat) :
    s.leasePeer a = .ok a.toNat := by
  refine if_neg ?_
  simp only [Bool.or_eq_true, decide_eq_true_eq]
  simp only [bits]
  omega

theorem waves_eq (s : State) (f : Port → Nat → TxSlot → Bool) :
    s.waves f = allWaves.filter (fun w => f (s.port w.1) w.2 ((s.port w.1).slot w.2)) := by
  rw [State.waves, allWaves, List.filter_flatMap]
  refine List.flatMap_congr fun p _ => ?_
  rw [List.filter_map]
  rfl

theorem waves_length (s : State) (f : Port → Nat → TxSlot → Bool) :
    (s.waves f).length = countWaves (fun p k => f (s.port p) k ((s.port p).slot k)) := by rw [waves_eq, countWaves]

theorem heldBy_eq (s : State) (q x : Nat) : s.heldBy q x = countWaves (fun p k =>
    decide (((s.port p).slot k).lease = some (q, x)) &&
      (decide (((s.port p).slot k).light = .training) || decide (((s.port p).slot k).light = .lit))) := waves_length _ _

theorem leaseState_eq (s : State) (q x : Nat) : s.leaseState q x = BitVec.ofNat 64 (s.heldBy q x +
    countWaves (fun p k => decide (((s.port p).slot k).lease = some (q, x)) && decide (((s.port p).slot k).light = .draining)) * 2 ^ 8 +
    countWaves (fun p k => decide (((s.port p).slot k).lease = some (q, x)) && decide (((s.port p).slot k).light = .lost)) * 2 ^ 16 +
    countWaves (fun p k => ((s.port p).slot k).base && decide ((s.port p).reaches k = some x) &&
      decide (((s.port p).slot k).light = .lit)) * 2 ^ 24 +
    if s.hasRoute q x = true ∧ (s.paths q x).2 = true then 2 ^ 32 else 0) := by
  simp only [State.leaseState, waves_length, Bool.and_eq_true]

section
variable {s : State} {d a : Reg}

theorem lqry_bad (h : 2 ^ 12 ≤ (s.rd a).toNat ∨ (s.rd a).toNat = s.pkg.peer.toNat) (ha : TaskAlone s) :
    Traps (.lqry d a) s 0x01 4 (irWord s) := by
  refine traps_of_takeTrap (t := { code := 0x01, sub := 4, eval := irWord s }) ?_ ha
  show execLqry d a s = _
  simp only [execLqry, leasePeer_bad h]
  rfl

theorem lqry_gives (hlt : (s.rd a).toNat < 2 ^ 12) (hne : (s.rd a).toNat ≠ s.pkg.peer.toNat) :
    Gives (.lqry d a) s 4 d (s.leaseState (s.partOf s.cur) (s.rd a).toNat) := by
  refine gives_of_ends ?_
  show execLqry d a s = _
  simp only [execLqry, leasePeer_good hlt hne]
  rfl

end

end Sys2Proof.Proofs
end

section
/-! Proofs, family 14 (chairli): the lease controller, and the instructions lease and lrel (R380, R382). -/

namespace Sys2Proof.Proofs

open Sys2Proof Sys2Proof.Machine Sys2Proof.Claim

/-! ### The controller's turns (R380) -/

/-- The state with another list of jobs. -/
def withJobs (s : State) (l : List LeaseJob) : State := s.modFab (fun f => { f with jobs := l })

theorem withJobs_self {s : State} {l : List LeaseJob} (h : s.fab.jobs = l) : withJobs s l = s := by
  subst h
  rfl

theorem serveLanes_none {s : State} (h : s.fab.laneRequests = []) :
    (s.fab.laneRequests.foldl State.serveLane s).modFab (fun f => { f with laneRequests := [] }) = s := by
  rw [h]
  show { s with fab := { s.fab with laneRequests := [] } } = s
  rw [← h]

theorem leaseRun_idle {s : State} (hjobs : s.fab.jobs = []) (hlanes : s.fab.laneRequests = []) (n : Nat) : s.leaseRun n = s := by
  cases n with
  | zero => rfl
  | succ n =>
    simp only [State.leaseRun, hjobs]
    exact serveLanes_none hlanes

theorem leaseWork_idle {s : State} (hjobs : s.fab.jobs = []) (hlanes : s.fab.laneRequests = []) : s.leaseWork = s :=
  leaseRun_idle hjobs hlanes _

theorem leaseStep_asks {s : State} {j : LeaseJob} (hbegun : j.begun = true) (hphase : j.phase = 1) : s.leaseStep j = (s, false) := by
  simp [State.leaseStep, hbegun, hphase]

section
variable {s : State} {j : LeaseJob} {r : List LeaseJob} (hjobs : s.fab.jobs = j :: r)
include hjobs

/-- One turn at the head job, before which no lane request is served. -/
theorem leaseRun_step (h : j.begun = true ∨ s.fab.laneRequests = []) (n : Nat) : s.leaseRun (n + 1) =
    if (s.leaseStep j).2 = true then (s.leaseStep j).1.leaseRun n else (s.leaseStep j).1 := by
  have hserved : (if j.begun = true then s
      else (s.fab.laneRequests.foldl State.serveLane s).modFab (fun f => { f with laneRequests := [] })) = s := by
    split
    · rfl
    · exact serveLanes_none (h.resolve_left ‹_›)
  simp only [State.leaseRun, hjobs]
  rw [hserved]

variable (hbegun : j.begun = true)
include hbegun

/-- A job that waits for an answer keeps the controller. -/
theorem leaseWork_waiting (hphase : j.phase = 1) : s.leaseWork = s := by
  rw [State.leaseWork, leaseRun_step hjobs (.inl hbegun), leaseStep_asks hbegun hphase]
  rfl

end

/-! ### The end of a lease (R382) -/

theorem tellLease_waiting {s : State} {tid d : Nat} {j : LeaseJob} (v : Word) (hsaved : s.savedWait tid = none)
    (hwait : (s.thread tid).waits = some (.lease j.peer d)) : s.tellLease tid j v none = s.unpark tid d v := by
  simp only [State.tellLease, State.awaits, hsaved, hwait, State.answer, ne_eq, not_true_eq_false, if_false]

section
variable {s : State} {j : LeaseJob} {tid d : Nat} (htid : j.tid = some tid) (hsaved : s.savedWait tid = none)
  (hwait : (s.thread tid).waits = some (.lease j.peer d))
include htid hsaved hwait

theorem endLease_released (hrel : j.rel = true) : s.endLease j =
    (withJobs s (s.fab.jobs.drop 1)).unpark tid d (BitVec.ofNat 64 (s.heldBy j.part j.peer)) := by
  have htell := tellLease_waiting (s := withJobs s (s.fab.jobs.drop 1)) (j := j) (BitVec.ofNat 64 (s.heldBy j.part j.peer))
    hsaved hwait
  rw [← htell]
  simp only [State.endLease, hrel, htid, Bool.true_or, if_true]
  rfl

theorem endLease_leased (hrel : j.rel = false) (hmin : j.min ≤ s.heldBy j.part j.peer) (hlit : j.lit = []) : s.endLease j =
    (withJobs s (s.fab.jobs.drop 1)).unpark tid d
      (BitVec.ofNat 64 (s.heldBy j.part j.peer % 64 + j.revoked % 64 * 2 ^ 16)) := by
  have htell := tellLease_waiting (s := withJobs s (s.fab.jobs.drop 1)) (j := j)
    (BitVec.ofNat 64 (s.heldBy j.part j.peer % 64 + j.revoked % 64 * 2 ^ 16)) hsaved hwait
  have hst : j.status (s.heldBy j.part j.peer) = 0 := by rw [LeaseJob.status, if_pos hmin]
  have hheld : (s.modFab (fun f => { f with jobs := f.jobs.drop 1 })).heldBy j.part j.peer = s.heldBy j.part j.peer := rfl
  rw [← htell]
  have hresult : leaseResult (s.heldBy j.part j.peer) 0 j.revoked 0 =
      BitVec.ofNat 64 (s.heldBy j.part j.peer % 64 + j.revoked % 64 * 2 ^ 16) := by simp [leaseResult]
  simp only [State.endLease, hheld, hst, hrel, hlit, htid, List.filter_nil, List.length_nil, hresult]
  rfl

end

/-! ### A thread that parks and learns its result at once -/

/-- What is left of a thread that parked at `n` once its instruction of 4 bytes has written `d`. -/
def answeredThread (x : Thread) (d : Reg) (v : Word) (n : Nat) : Thread :=
  { x.wr d v with pc := x.pc + 4, life := .ready, wait := none, parkedAt := n }

theorem writes_answeredThread (x : Thread) (d : Reg) (v : Word) (n : Nat) : Writes x (answeredThread x d v n) d v ∧
    answeredThread x d v n = { x with
      pc := x.pc + 4, life := .ready, wait := none, parkedAt := n
      regs := (answeredThread x d v n).regs, badRegs := (answeredThread x d v n).badRegs } := by
  refine ⟨⟨(x.rd_wr d d v).trans (by simp), fun k hk => x.readCode_wr_other d v k hk, x.badRegs_wr d v⟩, ?_⟩
  rw [answeredThread, Thread.wr, Thread.writeCode_frame]

/-- The rest of a thread does not matter to what a write does to its registers. -/
theorem writeCode_parked (x : Thread) (c : Nat) (v : Word) (w : Wait) (n : Nat) :
    ({ x with life := .parked, wait := some w, parkedAt := n } : Thread).writeCode c v =
      { x.writeCode c v with life := .parked, wait := some w, parkedAt := n } := by
  unfold Thread.writeCode
  split_ifs <;> rfl

theorem unpark_park (s : State) (w : Wait) (d : Reg) (v : Word) :
    ((s.park w).unpark s.cur (s.me.code d) v) =
      { s with threads := ((s.park w).unpark s.cur (s.me.code d) v).threads, order := s.order + 1 } ∧
    (∀ k, k ≠ s.cur → ((s.park w).unpark s.cur (s.me.code d) v).thread k = s.thread k) ∧
    ((s.park w).unpark s.cur (s.me.code d) v).me = answeredThread s.me d v s.order := by
  obtain ⟨hframe, hother, hme⟩ := parked_frame (s := s) w
  refine ⟨?_, fun k hk => (State.thread_modThread_other _ _ _ _ hk).trans (hother k hk), ?_⟩
  · rw [State.unpark, State.modThread, State.setThread, hframe]
  · refine (State.thread_modThread _ _ _).trans ?_
    rw [show (s.park w).thread s.cur = _ from hme, writeCode_parked]
    rfl

/-! ### Leases and releases (R382) -/

theorem giveBack_zero (s : State) (q x : Nat) : s.giveBack q x 0 = s := rfl

theorem giveBack_none {s : State} {q x : Nat} (h : ∀ p k, ((s.port p).slot k).lease ≠ some (q, x)) (n : Nat) :
    s.giveBack q x n = s := by
  have hwaves : s.waves (fun _ _ t => t.lease = some (q, x) && t.light = .lit) = [] := by
    rw [waves_eq, List.filter_eq_nil_iff]
    intro w _
    simp [h]
  rw [State.giveBack, hwaves]
  simp

theorem heldBy_none {s : State} {q x : Nat} (h : ∀ p k, ((s.port p).slot k).lease ≠ some (q, x)) : s.heldBy q x = 0 := by
  have hwaves : s.waves (fun _ _ t => t.lease = some (q, x) && (t.light = .training || t.light = .lit)) = [] := by
    rw [waves_eq, List.filter_eq_nil_iff]
    intro w _
    simp [h]
  rw [State.heldBy, hwaves]
  rfl

/-- R382: a lease that holds what it asks for ends at its first turn. -/
theorem leaseStep_holds {s : State} {j : LeaseJob} (hbegun : j.begun = false) (hrel : j.rel = false) (hn : j.n = s.heldBy j.part j.peer) :
    s.leaseStep j = (s.endLease { j with plane := true }, true) := by
  simp only [State.leaseStep, hbegun, hrel, hn, le_refl, Nat.sub_self, giveBack_zero, Bool.not_false, Bool.false_eq_true, if_true,
    if_false]

theorem leaseStep_releases {s : State} {j : LeaseJob} (hbegun : j.begun = false) (hrel : j.rel = true)
    (hnone : ∀ p k, ((s.port p).slot k).lease ≠ some (j.part, j.peer)) : s.leaseStep j = (s.endLease j, true) := by
  simp only [State.leaseStep, hbegun, hrel, giveBack_none hnone, Bool.not_false, if_true]

section
variable {s : State} {d : Reg} {j : LeaseJob} (hjobs : s.fab.jobs = []) (hlanes : s.fab.laneRequests = [])
include hjobs hlanes

/-- The one job of the controller ends at its first turn: its thread learns the result, and the controller is as it was. -/
theorem leaseAsk_ends {w : Wait} {c : Nat} {v : Word} (hstep : (withJobs (s.park w) [j]).leaseStep j =
    ((withJobs (withJobs (s.park w) [j]) []).unpark s.cur c v, true)) :
    (s.park w).leaseAsk j = (s.park w).unpark s.cur c v := by
  have hjob : (s.park w).modFab (fun f => { f with jobs := f.jobs ++ [j] }) = withJobs (s.park w) [j] := by
    show withJobs (s.park w) (s.fab.jobs ++ [j]) = _
    rw [hjobs]
    rfl
  have hback : withJobs (withJobs (s.park w) [j]) [] = s.park w := withJobs_self (s := s.park w) hjobs
  rw [hback] at hstep
  rw [State.leaseAsk, hjob, State.leaseWork, leaseRun_step (s := withJobs (s.park w) [j]) (j := j) (r := []) rfl (.inr hlanes), hstep]
  exact leaseRun_idle (s := (s.park w).unpark s.cur c v) hjobs hlanes _

variable (hbegun : j.begun = false) (htid : j.tid = some s.cur) (hsaved : s.savedWait s.cur = none)
include hbegun htid hsaved

theorem parkLease_released (hrel : j.rel = true) (hnone : ∀ p k, ((s.port p).slot k).lease ≠ some (j.part, j.peer)) :
    s.parkLease d j = .next ((s.park (.lease j.peer (s.me.code d))).unpark s.cur (s.me.code d) 0) := by
  have hwait : ((s.park (.lease j.peer (s.me.code d))).thread s.cur).waits = some (.lease j.peer (s.me.code d)) := by
    obtain ⟨-, -, hme⟩ := parked_frame (s := s) (.lease j.peer (s.me.code d))
    rw [show (s.park (.lease j.peer (s.me.code d))).thread s.cur = _ from hme]
    rfl
  refine congrArg _ (leaseAsk_ends hjobs hlanes ?_)
  rw [leaseStep_releases (s := withJobs (s.park (.lease j.peer (s.me.code d))) [j]) hbegun hrel hnone,
    endLease_released (s := withJobs (s.park (.lease j.peer (s.me.code d))) [j]) htid hsaved hwait hrel,
    show (withJobs (s.park (.lease j.peer (s.me.code d))) [j]).heldBy j.part j.peer = 0 from heldBy_none hnone]
  rfl

theorem parkLease_leased (hrel : j.rel = false) (hn : j.n = s.heldBy j.part j.peer) (hmin : j.min ≤ j.n) (hlit : j.lit = [])
    (hrevoked : j.revoked = 0) : s.parkLease d j = .next ((s.park (.lease j.peer (s.me.code d))).unpark s.cur (s.me.code d)
      (BitVec.ofNat 64 (j.n % 64))) := by
  have hwait : ((s.park (.lease j.peer (s.me.code d))).thread s.cur).waits = some (.lease j.peer (s.me.code d)) := by
    obtain ⟨-, -, hme⟩ := parked_frame (s := s) (.lease j.peer (s.me.code d))
    rw [show (s.park (.lease j.peer (s.me.code d))).thread s.cur = _ from hme]
    rfl
  have hheld : (withJobs (s.park (.lease j.peer (s.me.code d))) [j]).heldBy j.part j.peer = j.n := hn.symm
  refine congrArg _ (leaseAsk_ends hjobs hlanes ?_)
  rw [leaseStep_holds (s := withJobs (s.park (.lease j.peer (s.me.code d))) [j]) hbegun hrel hheld.symm,
    endLease_leased (s := withJobs (s.park (.lease j.peer (s.me.code d))) [j]) (j := { j with plane := true }) htid hsaved hwait hrel
      (hmin.trans hheld.ge) hlit, show (withJobs (s.park (.lease j.peer (s.me.code d))) [j]).heldBy
        ({ j with plane := true } : LeaseJob).part ({ j with plane := true } : LeaseJob).peer = j.n from hheld]
  simp only [hrevoked, Nat.zero_mod, Nat.zero_mul, Nat.add_zero]
  rfl

end

/-- Behind a job that waits for its answer a lease parks. -/
theorem parkLease_waits {s : State} {i : Instr} {d : Reg} {j j0 : LeaseJob} {r : List LeaseJob} (hx : exec i s = s.parkLease d j)
    (hjobs : s.fab.jobs = j0 :: r) (hbegun : j0.begun = true) (hphase : j0.phase = 1) : ∃ t, exec i s = .next t ∧
      t = { s with threads := t.threads, order := s.order + 1, fab := { s.fab with jobs := s.fab.jobs ++ [j] } } ∧
      (∀ k, k ≠ s.cur → t.thread k = s.thread k) ∧
      t.me = { s.me with life := .parked, wait := some (.lease j.peer (s.me.code d)), parkedAt := s.order } := by
  obtain ⟨-, hother, hme⟩ := parked_frame (s := s) (.lease j.peer (s.me.code d))
  have hask : (s.park (.lease j.peer (s.me.code d))).leaseAsk j =
      withJobs (s.park (.lease j.peer (s.me.code d))) (s.fab.jobs ++ [j]) :=
    leaseWork_waiting (s := withJobs (s.park (.lease j.peer (s.me.code d))) (s.fab.jobs ++ [j])) (j := j0) (r := r ++ [j])
      (by rw [hjobs]; rfl) hbegun hphase
  exact ⟨_, hx.trans (congrArg Host.Outcome.next hask), rfl, hother, hme⟩

theorem ends_of_unpark_park {s : State} {i : Instr} {d : Reg} {v : Word} {w : Wait}
    (hx : exec i s = .next ((s.park w).unpark s.cur (s.me.code d) v)) : ∃ t, exec i s = .next t ∧
      t = { s with threads := t.threads, order := s.order + 1 } ∧ (∀ k, k ≠ s.cur → t.thread k = s.thread k) ∧
      Writes s.me t.me d v ∧ t.me = { s.me with
        pc := s.me.pc + 4, life := .ready, wait := none, parkedAt := s.order, regs := t.me.regs, badRegs := t.me.badRegs } := by
  obtain ⟨hframe, hother, hme⟩ := unpark_park s w d v
  obtain ⟨hwrites, hrest⟩ := writes_answeredThread s.me d v s.order
  rw [← hme] at hwrites hrest
  exact ⟨_, hx, hframe, hother, hwrites, hrest⟩

/-! ### The operands of lease and lrel -/

/-- R382: the value is no request. -/
def BadLease (v : Nat) : Prop := 2 ^ 17 ≤ v ∨ v / 2 ^ 14 % 4 ≠ 0 ∨ v / 2 ^ 6 % 4 ≠ 0 ∨ 32 < v % 2 ^ 6 ∨ v % 2 ^ 6 < v / 2 ^ 8 % 2 ^ 6

theorem lease_refused {v : Nat} (hlt : v < 2 ^ 64) : (bits v 63 17 ≠ 0 || bits v 15 14 ≠ 0 || bits v 7 6 ≠ 0 || bits v 5 0 > 32 ||
    bits v 13 8 > bits v 5 0) = true ↔ BadLease v := by
  simp only [BadLease, Bool.or_eq_true, decide_eq_true_eq]
  simp only [bits]
  omega

/-- R382: the job of a lease of `n` wavelengths. -/
def leaseJob (s : State) (x v : Nat) : LeaseJob :=
  { tid := some s.cur, entry := none, part := s.partOf s.cur, peer := x, rel := false, n := v % 2 ^ 6, min := v / 2 ^ 8 % 2 ^ 6
    nt := decide (v / 2 ^ 16 % 2 = 1) }

/-- R382: the job of a release. -/
def releaseJob (s : State) (x v : Nat) : LeaseJob :=
  { tid := some s.cur, entry := none, part := s.partOf s.cur, peer := x, rel := true, n := v, min := 0, nt := true }

section
variable {s : State} {d a b : Reg}

section
variable (ha : TaskAlone s) (h : 2 ^ 12 ≤ (s.rd a).toNat ∨ (s.rd a).toNat = s.pkg.peer.toNat)
include ha h

theorem lease_bad_peer : Traps (.lease d a b) s 0x01 4 (irWord s) := by
  refine traps_of_takeTrap (t := { code := 0x01, sub := 4, eval := irWord s }) ?_ ha
  show execLease d a b s = _
  simp only [execLease, leasePeer_bad h]
  rfl

theorem lrel_bad_peer : Traps (.lrel d a b) s 0x01 4 (irWord s) := by
  refine traps_of_takeTrap (t := { code := 0x01, sub := 4, eval := irWord s }) ?_ ha
  show execLrel d a b s = _
  simp only [execLrel, leasePeer_bad h]
  rfl

end

variable (hlt : (s.rd a).toNat < 2 ^ 12) (hne : (s.rd a).toNat ≠ s.pkg.peer.toNat)
include hlt hne

theorem lease_bad (h : BadLease (s.rd b).toNat) (ha : TaskAlone s) : Traps (.lease d a b) s 0x01 4 (irWord s) := by
  refine traps_of_takeTrap (t := { code := 0x01, sub := 4, eval := irWord s }) ?_ ha
  show execLease d a b s = _
  simp only [execLease, leasePeer_good hlt hne, (lease_refused (s.rd b).isLt).2 h, State.orTrap, if_true]
  rfl

theorem lease_parks (h : ¬ BadLease (s.rd b).toNat) :
    exec (.lease d a b) s = s.parkLease d (leaseJob s (s.rd a).toNat (s.rd b).toNat) := by
  show execLease d a b s = _
  rw [← lease_refused (s.rd b).isLt, Bool.not_eq_true] at h
  simp only [execLease, leasePeer_good hlt hne, h, State.orTrap, Bool.false_eq_true, if_false]
  simp only [leaseJob, bits_low, Nat.reduceAdd]
  rfl

theorem lrel_bad (h : 32 < (s.rd b).toNat) (ha : TaskAlone s) : Traps (.lrel d a b) s 0x01 4 (irWord s) := by
  refine traps_of_takeTrap (t := { code := 0x01, sub := 4, eval := irWord s }) ?_ ha
  show execLrel d a b s = _
  have hgo : (bits (s.rd b).toNat 63 6 ≠ 0 || (s.rd b).toNat > 32) = true := by
    simp only [Bool.or_eq_true, decide_eq_true_eq]
    exact .inr h
  simp only [execLrel, leasePeer_good hlt hne, hgo, State.orTrap, if_true]
  rfl

theorem lrel_parks (h : (s.rd b).toNat ≤ 32) :
    exec (.lrel d a b) s = s.parkLease d (releaseJob s (s.rd a).toNat (s.rd b).toNat) := by
  show execLrel d a b s = _
  have hgo : (bits (s.rd b).toNat 63 6 ≠ 0 || (s.rd b).toNat > 32) = false := by
    simp only [Bool.or_eq_false_iff, decide_eq_false_iff_not]
    simp only [bits]
    omega
  simp only [execLrel, leasePeer_good hlt hne, hgo, State.orTrap, Bool.false_eq_true, if_false]
  rfl

end

end Sys2Proof.Proofs
end

section
/-! Proofs, family 14 (chairli): the fabric instructions (R382, R397–R400). -/

namespace Sys2Proof.Proofs

open Sys2Proof Sys2Proof.Machine Sys2Proof.Claim

/-- Settles O54: each instruction by the first of its checks that fails, a lease by what the controller has in hand. -/
theorem fabricInstructionsStartOperations : Obligations.FabricInstructionsStartOperations := by
  unfold Obligations.FabricInstructionsStartOperations
  refine ⟨?_, ?_, ?_⟩
  · intro s d a b L v len peer hdl off q ra va isGet i hi hv hlen hpeer hhdl hoff hq
    subst hv hlen hpeer hhdl hoff hq
    rcases hi with ⟨rfl, rfl, rfl, rfl⟩ | ⟨rfl, rfl, rfl, rfl⟩
    · refine ⟨fun hbad => traps_badOperand (put_bad hbad), fun hgood h => traps_badOperand (put_bad_address hgood
        (raOk_bad rfl rfl h)), fun l hgood hp hh hspans => ?_⟩
      have hx := put_issues (a := a) (L := L) hgood (raOk_good rfl rfl hp hh) hspans
      exact ⟨unrouted_traps hx, unrouted_faultsLate hx, fun hroute => ⟨fun g hg htag hfull => fullTag_waits hx hroute hg htag hfull,
        fun hfree => ⟨fun _ => tagged_starts hx hroute rfl hfree rfl, nofun⟩⟩⟩
    · refine ⟨fun hbad => traps_badOperand (get_bad hbad), fun hgood h => traps_badOperand (get_bad_address hgood
        (raOk_bad rfl rfl h)), fun l hgood hp hh hspans => ?_⟩
      have hx := get_issues (b := b) (L := L) hgood (raOk_good rfl rfl hp hh) hspans
      refine ⟨unrouted_traps hx, unrouted_faultsLate hx, fun hroute => ⟨fun g hg htag hfull => fullTag_waits hx hroute hg htag hfull,
        fun hfree => ⟨nofun, fun _ hfirst => ?_⟩⟩⟩
      exact tagged_starts (o := getOp s (s.rd b) (s.rd a) (s.rd d).toNat l 0) hx hroute rfl hfree
        (by rw [getStep, getId_first hfirst]; rfl)
  · intro s d a b L ra peer hdl off q hra hpeer hhdl hoff hq i kind f hmem
    subst hra hpeer hhdl hoff hq
    simp only [List.mem_cons, Prod.mk.injEq, List.not_mem_nil, or_false] at hmem
    have hx : ∃ g : Flit, { g with hdl := (s.rd a).toNat / 2 ^ 40 % 2 ^ 12, off := (s.rd a).toNat % 2 ^ 40 } = f ∧
        exec i s = s.finishWith 4 L.toNat [s.me.code d] (s.remoteAtomic d a L kind g) := by
      rcases hmem with ⟨rfl, rfl, rfl⟩ | ⟨rfl, rfl, rfl⟩
      · exact ⟨{ typ := 0x04, len := 7, payload := leBytes 8 (s.rd b).toNat }, rfl, rfl⟩
      · exact ⟨{ typ := 0x05, len := 15, payload := leBytes 8 (s.rd d).toNat ++ leBytes 8 (s.rd b).toNat }, rfl, rfl⟩
    obtain ⟨g, rfl, hx⟩ := hx
    refine ⟨fun h => atomic_bad_address hx (raOk_bad rfl rfl h), fun hp hh => ?_⟩
    have hok := raOk_good rfl rfl hp hh
    exact ⟨atomic_misaligned hx hok,
      fun hoff hroute hL ha => traps_of_finishWith (t := { code := 0x10, sub := 5, eval := s.rd a })
        (atomic_unrouted hx hok hoff hroute) ha (.inl hL),
      fun hoff hroute hL => faultsLate_of_finishWith (t := { code := 0x10, sub := 5, eval := s.rd a })
        (atomic_unrouted hx hok hoff hroute) hL rfl,
      atomic_starts hx hok⟩
  · intro s d a b x q v n hx hq hv hn
    subst hx hq hv hn
    refine ⟨fun h ha => ⟨lqry_bad h ha, lease_bad_peer ha h, lrel_bad_peer ha h⟩, fun hlt hne => ⟨?_, lease_bad hlt hne, lrel_bad hlt hne,
      fun j0 r hjobs hbegun hphase => ⟨fun h => parkLease_waits (lease_parks hlt hne h) hjobs hbegun hphase,
        fun h => parkLease_waits (lrel_parks hlt hne h) hjobs hbegun hphase⟩,
      fun hjobs hlanes hsaved => ⟨fun h hheld => ?_, fun h hnone => ?_⟩⟩⟩
    · have hgives := lqry_gives (d := d) hlt hne
      rw [leaseState_eq, heldBy_eq] at hgives
      exact hgives
    · rw [← heldBy_eq] at hheld
      have hle : ¬ 32 < (s.rd b).toNat % 2 ^ 6 ∧ (s.rd b).toNat / 2 ^ 8 % 2 ^ 6 ≤ (s.rd b).toNat % 2 ^ 6 := by omega
      have hpark := parkLease_leased (d := d) (j := leaseJob s (s.rd a).toNat (s.rd b).toNat) hjobs hlanes rfl rfl hsaved rfl hheld
        hle.2 rfl rfl
      rw [← Nat.mod_eq_of_lt (show (s.rd b).toNat % 2 ^ 6 < 64 by omega)]
      exact ends_of_unpark_park ((lease_parks hlt hne h).trans hpark)
    · refine ends_of_unpark_park ((lrel_parks hlt hne h).trans (parkLease_released hjobs hlanes rfl rfl hsaved rfl fun p k => ?_))
      exact of_decide_eq_false (hnone p k)

end Sys2Proof.Proofs
end

section
/-! Proofs, family 14 (chairli): ports are enabled and disabled (R374, R376). -/

namespace Sys2Proof.Proofs

open Sys2Proof Sys2Proof.Machine Sys2Proof.Claim

/-! ### Steps that each change one place -/

/-- When the step for `d` changes place `d` alone, by an idempotent `g`, the steps of a list change the listed places. -/
theorem foldl_places {σ β α : Type} [DecidableEq β] [BEq β] [LawfulBEq β] (get : σ → β → α) (ok : β → Prop)
    (step : σ → β → σ) (g : β → α → α)
    (hg : ∀ c x, g c (g c x) = g c x)
    (hstep : ∀ s d c, ok c → get (step s d) c = if c = d then g c (get s c) else get s c) {c : β} (hc : ok c) (l : List β) :
    ∀ s, get (l.foldl step s) c = if c ∈ l then g c (get s c) else get s c := by
  induction l with
  | nil => exact fun _ => by simp
  | cons d l ih =>
    intro s
    rw [List.foldl_cons, ih, hstep _ _ _ hc]
    by_cases hd : c = d <;> by_cases hl : c ∈ l <;> simp [hd, hl, hg]

/-! ### PLIT (R376) -/

theorem bits_field (w : Word) {hi lo : Nat} : bits w.toNat hi lo = (w.extractLsb' lo (hi + 1 - lo)).toNat := by
  rw [BitVec.extractLsb'_toNat, bits, Nat.shiftRight_eq_div_pow]

theorem enabling_word (v : Word) : (v ||| 1#64 <<< 52).getLsbD 52 = true ∧
    bits (v ||| 1#64 <<< 52).toNat 51 48 = v.toNat / 2 ^ 48 % 16 ∧
    (v ||| 1#64 <<< 52).extractLsb' 32 16 = v.extractLsb' 32 16 := by
  have hfield : ∀ lo n, lo + n ≤ 52 → (v ||| 1#64 <<< 52).extractLsb' lo n = v.extractLsb' lo n := by
    intro lo n hn
    refine BitVec.eq_of_getLsbD_eq fun i hi => ?_
    have hlt : decide (lo + i < 52) = true := decide_eq_true (by omega)
    simp only [BitVec.getLsbD_extractLsb', hi, decide_true, Bool.true_and, BitVec.getLsbD_or, BitVec.getLsbD_shiftLeft, hlt,
      Bool.not_true, Bool.and_false, Bool.false_and, Bool.or_false]
  refine ⟨by simp, ?_, hfield 32 16 (by omega)⟩
  rw [bits_field, hfield _ _ (by omega), ← bits_field]
  rfl

theorem disabling_word (v : Word) : (v &&& ~~~(1#64 <<< 52)).getLsbD 52 = false := by simp

theorem countOnes_length (b : BitVec 16) : countOnes b 16 = ((List.range 16).filter b.getLsbD).length := by
  rw [countOnes_eq, List.countP_eq_length_filter]

/-- The slots of a port that is enabled (R374). -/
theorem slot_litBase (x : Port) (clock : Nat) {k : Nat} (hk : k < 16) : (x.litBase clock).slot k =
    if x.base.getLsbD k = true then { light := if x.txf.getLsbD k = true then .lost else .lit, base := true, since := clock }
    else x.slot k := by
  simp only [Port.slot, Port.litBase, dif_pos hk, Vector.getElem_ofFn]
  rfl

/-- What becomes of a slot whose port is disabled at a clock (R376, R379). -/
def drainedSlot (clock : Nat) (t : TxSlot) : TxSlot :=
  if t.light = .lit ∨ t.light = .training then { t with light := .draining, since := clock } else t

theorem drainedSlot_drainedSlot (clock : Nat) (t : TxSlot) : drainedSlot clock (drainedSlot clock t) = drainedSlot clock t := by
  unfold drainedSlot
  split_ifs with h1 h2
  · simp at h2
  · rfl
  · rfl

/-- A port whose wavelengths of a list are drained. -/
def drainedPort (x : Port) (clock : Nat) (l : List Nat) : Port := l.foldl (fun x k => x.modSlot k (drainedSlot clock)) x

theorem slot_modSlot_eq (x : Port) {k j : Nat} (f : TxSlot → TxSlot) (hj : j < 16) :
    (x.modSlot k f).slot j = if j = k then f (x.slot j) else x.slot j := by
  by_cases h : j = k
  · rw [if_pos h, h, slot_modSlot _ _ (h ▸ hj)]
  · rw [if_neg h, slot_modSlot_other _ _ h]

theorem slot_drainedPort (x : Port) (clock : Nat) {k : Nat} (hk : k < 16) (l : List Nat) :
    (drainedPort x clock l).slot k = if k ∈ l then drainedSlot clock (x.slot k) else x.slot k :=
  foldl_places Port.slot (· < 16) _ (fun _ => drainedSlot clock) (fun _ => drainedSlot_drainedSlot clock)
    (fun x _ _ hj => slot_modSlot_eq x _ hj) hk l x

theorem modSlot_frame (x : Port) (k : Nat) (f : TxSlot → TxSlot) : x.modSlot k f = { x with tx := (x.modSlot k f).tx } := by
  unfold Port.modSlot
  split <;> rfl

theorem drainedPort_frame (clock : Nat) (l : List Nat) (x : Port) :
    drainedPort x clock l = { x with tx := (drainedPort x clock l).tx } := by
  induction l generalizing x with
  | nil => rfl
  | cons k l ih =>
    rw [drainedPort, List.foldl_cons, ← drainedPort, ih, modSlot_frame]

theorem modSlot_id (x : Port) {k : Nat} {f : TxSlot → TxSlot} (h : f (x.slot k) = x.slot k) : x.modSlot k f = x := by
  unfold Port.modSlot
  by_cases hk : k < 16
  · have hf : f x.tx[k] = x.tx[k] := by simpa [Port.slot, hk] using h
    simp [hk, hf]
  · simp [hk]

theorem modSlot_congr (x : Port) {k : Nat} {f g : TxSlot → TxSlot} (h : f (x.slot k) = g (x.slot k)) :
    x.modSlot k f = x.modSlot k g := by
  unfold Port.modSlot
  by_cases hk : k < 16
  · have hf : f x.tx[k] = g x.tx[k] := by simpa [Port.slot, hk] using h
    simp [hk, hf]
  · simp [hk]

theorem modPort_congr {s : State} {p : Nat} {f g : Port → Port} (h : f (s.port p) = g (s.port p)) : s.modPort p f = s.modPort p g := by
  unfold State.modPort State.modFab
  by_cases hp : p < 32
  · have hf : f s.fab.ports[p] = g s.fab.ports[p] := by simpa [State.port, Fabric.port, hp] using h
    simp [hp, hf]
  · simp [hp]

theorem drain_if_lit (s : State) (p k : Nat) :
    (if (((s.port p).slot k).light = .lit || ((s.port p).slot k).light = .training) = true then s.drain p k else s) =
      s.modPort p (fun x => x.modSlot k (drainedSlot s.clock)) := by
  split
  · rename_i h
    rw [State.drain, State.modSlot]
    refine modPort_congr (modSlot_congr _ ?_)
    rw [drainedSlot, if_pos (by simpa using h)]
  · rename_i h
    refine (modPort_id s (modSlot_id _ ?_)).symm
    rw [drainedSlot, if_neg (by simpa using h)]

theorem drain_all (p : Nat) (l : List Nat) (s : State) : l.foldl (fun s k =>
      if (((s.port p).slot k).light = .lit || ((s.port p).slot k).light = .training) = true then s.drain p k else s) s =
    s.modPort p (fun x => drainedPort x s.clock l) := by
  induction l generalizing s with
  | nil => exact (modPort_id s rfl).symm
  | cons k l ih =>
    rw [List.foldl_cons, drain_if_lit, ih, modPort_modPort]
    rfl

section
variable {s : State} {fn p : Nat} {v : Word} (hp : p < 32)

theorem writePlit_enables (hen : (s.port p).en = false) (hbase : (v.extractLsb' 32 16).getLsbD 0 = false)
    (hcount : ((List.range 16).filter (v.extractLsb' 32 16).getLsbD).length ≤ 8)
    (hpeer : (s.port p).peerAt (v.toNat / 2 ^ 48 % 16) = some s.pkg.peer.toNat) :
    s.writePlit (.host fn) p (v ||| 1#64 <<< 52) = { s := s.modPort p (fun _ =>
      { ({ s.port p with pos := v.toNat / 2 ^ 48 % 16, base := v.extractLsb' 32 16 } : Port).litBase s.clock with en := true }) } := by
  obtain ⟨h52, hpos, hb⟩ := enabling_word v
  have hmay : ({ s.port p with pos := v.toNat / 2 ^ 48 % 16, base := v.extractLsb' 32 16 } : Port).mayEnable s.pkg.peer.toNat = true := by
    rw [← countOnes_length] at hcount
    simp only [Port.mayEnable, hbase, hcount, decide_true, Bool.not_false, Bool.true_and, decide_eq_true_eq]
    exact hpeer
  simp only [hen] at hmay
  simp only [State.writePlit, isHost, hen, h52, hpos, hb, hmay, Bool.not_true, Bool.false_eq_true, if_false, if_true]

theorem writePlit_disables (hen : (s.port p).en = true) (hjobs : s.fab.jobs = []) (hlanes : s.fab.laneRequests = []) :
    s.writePlit (.host fn) p (v &&& ~~~(1#64 <<< 52)) =
      { s := s.modPort p (fun x => drainedPort { x with en := false } s.clock (List.range 16)) } := by
  have hidle : (s.modPort p (fun x => drainedPort { x with en := false } s.clock (List.range 16))).leaseWork =
      s.modPort p (fun x => drainedPort { x with en := false } s.clock (List.range 16)) := by
    rw [modPort_frame]
    exact leaseWork_idle hjobs hlanes
  simp only [State.writePlit, isHost, hen, disabling_word, Bool.not_true, Bool.false_eq_true, if_false, if_true, drain_all,
    modPort_modPort]
  exact congrArg (fun t : State => ({ s := t } : Wrote)) hidle

variable (hmay : MayStore s (.host fn) (plitReg p))
include hp hmay

/-- A write of PLIT that changes its port alone. -/
theorem sets_port {i : Instr} {f : Port → Port}
    (hx : exec i s = .next (s.store (.host fn) (plitReg p) { s := s.modPort p f })) : ∃ t, exec i s = .next t ∧
      t.threads = s.threads ∧ (∀ k, k ≠ p → t.port k = s.port k) ∧ t.port p = f (s.port p) := by
  obtain ⟨g, hg⟩ := store_accepted (t := s.modPort p f) hmay
  have hother := fun k (hk : k ≠ p) => port_modPort_other s f hk
  have hport := port_modPort s f hp
  have hthreads : (s.modPort p f).threads = s.threads := by rw [modPort_frame]
  exact ⟨_, hx.trans (congrArg _ hg), hthreads, hother, hport⟩

theorem portEnable_lights (hen : (s.port p).en = false) (hbase : (v.extractLsb' 32 16).getLsbD 0 = false)
    (hcount : ((List.range 16).filter (v.extractLsb' 32 16).getLsbD).length ≤ 8)
    (hpeer : (s.port p).peerAt (v.toNat / 2 ^ 48 % 16) = some s.pkg.peer.toNat) :
    ∃ t, exec (.portEnable (.host fn) p v) s = .next t ∧ t.threads = s.threads ∧ (∀ k, k ≠ p → t.port k = s.port k) ∧
      t.port p = { s.port p with
        en := true, pos := v.toNat / 2 ^ 48 % 16, base := v.extractLsb' 32 16, tx := (t.port p).tx } ∧
      ∀ k, k < 16 → (t.port p).slot k = if (v.extractLsb' 32 16).getLsbD k = true then
        { light := if (s.port p).txf.getLsbD k = true then .lost else .lit, base := true, since := s.clock } else (s.port p).slot k := by
  have hx : exec (.portEnable (.host fn) p v) s =
      .next (s.store (.host fn) (plitReg p) (s.writePlit (.host fn) p (v ||| 1#64 <<< 52))) := rfl
  rw [writePlit_enables hen hbase hcount hpeer] at hx
  obtain ⟨t, ht, hthreads, hother, hport⟩ := sets_port hp hmay hx
  refine ⟨t, ht, hthreads, hother, ?_, fun k hk => ?_⟩
  · rw [hport]
    rfl
  · rw [hport]
    exact slot_litBase { s.port p with pos := v.toNat / 2 ^ 48 % 16, base := v.extractLsb' 32 16 } s.clock hk

theorem portDisable_drains (hen : (s.port p).en = true) (hjobs : s.fab.jobs = []) (hlanes : s.fab.laneRequests = []) :
    ∃ t, exec (.portDisable (.host fn) p v) s = .next t ∧ t.threads = s.threads ∧ (∀ k, k ≠ p → t.port k = s.port k) ∧
      t.port p = { s.port p with en := false, tx := (t.port p).tx } ∧
      ∀ k, k < 16 → (t.port p).slot k = drainedSlot s.clock ((s.port p).slot k) := by
  have hx : exec (.portDisable (.host fn) p v) s =
      .next (s.store (.host fn) (plitReg p) (s.writePlit (.host fn) p (v &&& ~~~(1#64 <<< 52)))) := rfl
  rw [writePlit_disables hen hjobs hlanes] at hx
  obtain ⟨t, ht, hthreads, hother, hport⟩ := sets_port hp hmay hx
  refine ⟨t, ht, hthreads, hother, ?_, fun k hk => ?_⟩
  · rw [hport]
    exact drainedPort_frame _ _ _
  · rw [hport, slot_drainedPort _ _ hk, if_pos (List.mem_range.2 hk)]
    rfl

end

/-- R376: a thread's store to PLIT is refused. -/
theorem port_refused {s : State} {core slot p : Nat} {i : Instr} {v : Word} (hmay : MayStore s (.thread core slot) (plitReg p))
    (hi : i ∈ [Instr.portEnable (.thread core slot) p v, Instr.portDisable (.thread core slot) p v]) :
    ∃ t, exec i s = .next t ∧ t.fab = s.fab ∧ t.thread (tidOf core slot) =
      withFault (s.thread (tidOf core slot)) 0x05 1 (plitReg p) (s.thread (tidOf core slot)).pc s.order
        (s.thread (tidOf core slot)).mode := by
  have hx : exec i s = .next (s.store (.thread core slot) (plitReg p) (refuse51 s)) := by
    simp only [List.mem_cons, List.not_mem_nil, or_false] at hi
    rcases hi with rfl | rfl <;> rfl
  rw [store_thread_refused hmay] at hx
  exact ⟨_, hx, rfl, State.thread_modThread _ _ _⟩

end Sys2Proof.Proofs
end

section
/-! Proofs, family 14 (chairli): wavelengths train, drain and lose their light (R379, R391). -/

namespace Sys2Proof.Proofs

open Sys2Proof Sys2Proof.Machine Sys2Proof.Claim

/-! ### What the controller's flits leave alone -/

/-- Flits of package pairs were sent: the wire and the pairs' counters alone differ. -/
def Sent (s t : State) : Prop := ∃ n w, t = { s with fab := { s.fab with pairSent := n }, wire := w }

theorem Sent.refl (s : State) : Sent s s := ⟨s.fab.pairSent, s.wire, rfl⟩

theorem Sent.trans {s t u : State} (h : Sent s t) (k : Sent t u) : Sent s u := by
  obtain ⟨n, w, rfl⟩ := h
  obtain ⟨m, v, rfl⟩ := k
  exact ⟨m, v, rfl⟩

theorem sent_sendOn {s t : State} {x : Nat} {f : Flit} {l : List (Nat × Nat)} (h : s.sendOn x f l = some t) : Sent s t := by
  cases l with
  | nil => cases h
  | cons w l =>
    cases h
    exact ⟨_, _, rfl⟩

theorem sent_tell (s : State) (x : Nat) (f : Flit) : Sent s (s.tell x f) := by
  rw [State.tell]
  cases h : s.sendPair x f with
  | none => exact Sent.refl s
  | some t => exact sent_sendOn h

theorem sent_freeLane (s : State) (p k : Nat) (t : TxSlot) : Sent s (s.freeLane p k t) := by
  unfold State.freeLane
  split
  · exact sent_tell _ _ _
  · exact Sent.refl s

section
variable {s t : State} (h : Sent s t)
include h

theorem Sent.port (p : Nat) : t.port p = s.port p := by
  obtain ⟨n, w, rfl⟩ := h
  rfl

theorem Sent.threads : t.threads = s.threads := by
  obtain ⟨n, w, rfl⟩ := h
  rfl

theorem Sent.mem : t.mem = s.mem := by
  obtain ⟨n, w, rfl⟩ := h
  rfl

theorem Sent.clock : t.clock = s.clock := by
  obtain ⟨n, w, rfl⟩ := h
  rfl

theorem Sent.jobs : t.fab.jobs = s.fab.jobs := by
  obtain ⟨n, w, rfl⟩ := h
  rfl

theorem Sent.laneRequests : t.fab.laneRequests = s.fab.laneRequests := by
  obtain ⟨n, w, rfl⟩ := h
  rfl

end

/-! ### What a change of a port leaves alone -/

section
variable (s : State) (p : Nat) (f : Port → Port)

theorem threads_modPort : (s.modPort p f).threads = s.threads := by rw [modPort_frame]
theorem mem_modPort : (s.modPort p f).mem = s.mem := by rw [modPort_frame]
theorem clock_modPort : (s.modPort p f).clock = s.clock := by rw [modPort_frame]
theorem jobs_modPort : (s.modPort p f).fab.jobs = s.fab.jobs := by rw [modPort_frame]
theorem laneRequests_modPort : (s.modPort p f).fab.laneRequests = s.fab.laneRequests := by rw [modPort_frame]

end

/-- Wavelength `k` of port `p` alone of the wavelengths changes, to `y`, and no thread and no memory; nothing is left for the
controller that was not there. -/
structure SetsSlot (s t : State) (p k : Nat) (y : TxSlot) : Prop where
  slot : (t.port p).slot k = y
  threads : t.threads = s.threads
  mem : t.mem = s.mem
  others : ∀ a b, (a, b) ≠ (p, k) → (t.port a).slot b = (s.port a).slot b
  jobs : t.fab.jobs = s.fab.jobs
  laneRequests : t.fab.laneRequests = s.fab.laneRequests

theorem setsSlot_modSlot (s : State) {p k : Nat} (f : TxSlot → TxSlot) (hp : p < 32) (hk : k < 16) :
    SetsSlot s (s.modSlot p k f) p k (f ((s.port p).slot k)) :=
  ⟨port_modSlot_slot s f hp hk, threads_modPort _ _ _, mem_modPort _ _ _, fun _ _ h => port_modSlot_slot_other s f h,
    jobs_modPort _ _ _, laneRequests_modPort _ _ _⟩

theorem SetsSlot.sent {s t u : State} {p k : Nat} {y : TxSlot} (h : SetsSlot s t p k y) (hs : Sent t u) : SetsSlot s u p k y :=
  ⟨by rw [hs.port, h.slot], hs.threads.trans h.threads, hs.mem.trans h.mem, fun a b hab => by rw [hs.port, h.others a b hab],
    hs.jobs.trans h.jobs, hs.laneRequests.trans h.laneRequests⟩

/-- R379: a wavelength goes DARK. -/
theorem setsSlot_darken (s : State) {p k : Nat} (hp : p < 32) (hk : k < 16) :
    SetsSlot s (s.darken p k) p k { since := s.clock } := (setsSlot_modSlot s _ hp hk).sent (sent_freeLane _ _ _ _)

/-- R379, R391: a wavelength loses its light. -/
theorem setsSlot_lose (s : State) {p k : Nat} (hp : p < 32) (hk : k < 16) (hlit : ((s.port p).slot k).light.holds = true) :
    SetsSlot s (s.lose [(p, k)]) p k { (s.port p).slot k with light := .lost, since := s.clock } := by
  have hset := setsSlot_modSlot s (fun t => if t.light.holds = true then { t with light := .lost, since := s.clock } else t) hp hk
  rw [if_pos hlit] at hset
  obtain ⟨hslot, hthreads, hmem, hothers, hjobs, hlanes⟩ := hset
  exact ⟨hslot, hthreads, hmem, hothers, hjobs, hlanes⟩

/-! ### Events of one wavelength (R379) -/

/-- The event changes wavelength `k` of port `p` alone of the wavelengths, to `y`, and no thread and no memory. -/
def SlotBecomes (i : Instr) (s : State) (p k : Nat) (y : TxSlot) : Prop :=
  ∃ t, exec i s = .next t ∧ (t.port p).slot k = y ∧ t.threads = s.threads ∧ t.mem = s.mem ∧
    ∀ a b, (a, b) ≠ (p, k) → (t.port a).slot b = (s.port a).slot b

section
variable {s : State} {p k : Nat}

theorem slotBecomes_of_setsSlot {i : Instr} {t : State} {y : TxSlot} (hx : exec i s = .next t) (h : SetsSlot s t p k y) :
    SlotBecomes i s p k y := by
  obtain ⟨hslot, hthreads, hmem, hothers, -, -⟩ := h
  exact ⟨t, hx, hslot, hthreads, hmem, hothers⟩

/-- The controller that has nothing to do does nothing. -/
theorem slotBecomes_of_leaseWork {i : Instr} {t : State} {y : TxSlot} (hjobs : s.fab.jobs = []) (hlanes : s.fab.laneRequests = [])
    (hx : exec i s = .next t.leaseWork) (h : SetsSlot s t p k y) : SlotBecomes i s p k y := by
  rw [leaseWork_idle (h.jobs.trans hjobs) (h.laneRequests.trans hlanes)] at hx
  exact slotBecomes_of_setsSlot hx h

theorem wavelengthLock_stays (h : ((s.port p).slot k).light ≠ .training ∨ s.clock < ((s.port p).slot k).since + 1200 ∨
    ((s.port p).slot k).since + 4800 ≤ s.clock) : exec (.wavelengthLock p k) s = .next s := by
  show execWavelengthLock p k s = _
  refine if_neg ?_
  simp only [Bool.and_eq_true, decide_eq_true_eq, not_and_or, not_le, not_lt]
  rcases h with h | h | h
  · exact .inl (.inl h)
  · exact .inl (.inr h)
  · exact .inr h

theorem trainingTimeout_stays (h : ((s.port p).slot k).light ≠ .training ∨ s.clock < ((s.port p).slot k).since + 4800) :
    exec (.trainingTimeout p k) s = .next s := by
  show execTrainingTimeout p k s = _
  refine if_neg ?_
  simp only [Bool.and_eq_true, decide_eq_true_eq, not_and_or, not_le]
  exact h

theorem waveBusy_iff : s.waveBusy p k = true ↔ ∃ c ∈ s.fab.conns.cells, ∃ o ∈ c.2.sent, o.flit.port = p ∧ o.flit.wave = k ∧
    ∀ g ∈ c.2.again, g.flit.seq ≠ o.flit.seq := by
  simp only [State.waveBusy, List.any_eq_true, List.all_eq_true, Bool.and_eq_true, decide_eq_true_eq, and_assoc]

theorem wavelengthDrained_stays (h : ((s.port p).slot k).light ≠ .draining ∨
    s.waveBusy p k = true ∧ s.clock < ((s.port p).slot k).since + 24000) : exec (.wavelengthDrained p k) s = .next s := by
  show execWavelengthDrained p k s = _
  refine if_neg ?_
  simp only [Bool.and_eq_true, Bool.or_eq_true, Bool.not_eq_true', decide_eq_true_eq, not_and_or, not_or, not_le, Bool.not_eq_false]
  exact h

variable (hp : p < 32) (hk : k < 16) (hjobs : s.fab.jobs = []) (hlanes : s.fab.laneRequests = [])
include hp hk hjobs hlanes

theorem wavelengthLock_lights (hlight : ((s.port p).slot k).light = .training) (hlo : ((s.port p).slot k).since + 1200 ≤ s.clock)
    (hhi : s.clock < ((s.port p).slot k).since + 4800) :
    SlotBecomes (.wavelengthLock p k) s p k { (s.port p).slot k with light := .lit, since := s.clock } := by
  refine slotBecomes_of_leaseWork hjobs hlanes ?_ (setsSlot_modSlot s (fun t => { t with light := .lit, since := s.clock }) hp hk)
  show execWavelengthLock p k s = _
  exact if_pos (by simp [hlight, hlo, hhi])

theorem trainingTimeout_darkens (hlight : ((s.port p).slot k).light = .training) (h : ((s.port p).slot k).since + 4800 ≤ s.clock) :
    SlotBecomes (.trainingTimeout p k) s p k { since := s.clock } := by
  refine slotBecomes_of_leaseWork hjobs hlanes ?_ (setsSlot_darken s hp hk)
  show execTrainingTimeout p k s = _
  exact if_pos (by simp [hlight, h])

theorem wavelengthDrained_darkens (hlight : ((s.port p).slot k).light = .draining)
    (h : s.waveBusy p k ≠ true ∨ ((s.port p).slot k).since + 24000 ≤ s.clock) :
    SlotBecomes (.wavelengthDrained p k) s p k { since := s.clock } := by
  refine slotBecomes_of_leaseWork hjobs hlanes ?_ (setsSlot_darken s hp hk)
  show execWavelengthDrained p k s = _
  refine if_pos ?_
  simp only [hlight, decide_true, Bool.true_and, Bool.or_eq_true, Bool.not_eq_true', decide_eq_true_eq, ← Bool.not_eq_true]
  exact h

end

end Sys2Proof.Proofs
end

section
/-! Proofs, family 14 (chairli): the lease controller's flits at a receiver (R380, R381, R391). -/

namespace Sys2Proof.Proofs

open Sys2Proof Sys2Proof.Machine Sys2Proof.Claim

/-! ### What a flit says (R380) -/

theorem leNat_leBytes_one {n : Nat} (h : n < 256) (l : List Byte) : leNat ((leBytes 1 n ++ l).take 1) = n := by
  rw [List.take_left' (leBytes_length 1 n), leNat_leBytes]
  exact Nat.mod_eq_of_lt h

theorem drop_leBytes_one (n i : Nat) (l : List Byte) : (leBytes 1 n ++ l).drop (i + 1) = l.drop i := by
  rw [Nat.add_comm, ← List.drop_drop, List.drop_left' (leBytes_length 1 n)]

section
variable {s : State} {f : Flit} {use p k q : Nat} (h : Says s f use p k q)
include h

theorem says_arrives (act : State → State) : s.onArrival f false act = .next (act s) := by
  obtain ⟨hen, hlist, hcrc, htag, hdst, hlane, -⟩ := h
  simp only [State.onArrival, screen_ofPair hen hcrc htag hdst hlist hlane]

variable (huse : use < 256) (hp : p < 32) (hk : k < 16) (hq : q < 4)
include huse hp hk hq

theorem says_fields : lctlUse f = use ∧ lctlPort f = p ∧ lctlWave f = k ∧ lctlPart f = q := by
  obtain ⟨-, -, -, -, -, -, hpay⟩ := h
  rw [List.append_assoc, List.append_assoc] at hpay
  refine ⟨?_, ?_, ?_, ?_⟩
  · rw [lctlUse, hpay, leNat_leBytes_one huse]
  · rw [lctlPort, hpay, drop_leBytes_one, List.drop_zero, leNat_leBytes_one (by omega)]
  · rw [lctlWave, hpay, drop_leBytes_one, drop_leBytes_one, List.drop_zero, leNat_leBytes_one (by omega)]
  · rw [lctlPart, hpay, drop_leBytes_one, drop_leBytes_one, drop_leBytes_one, List.drop_zero]
    have := leNat_leBytes_one (show q < 256 by omega) []
    rwa [List.append_nil] at this

end

/-! ### Revocations and loss notices (R379, R381, R391) -/

theorem portReaching_same {s : State} {x p k : Nat} (hp : p < 32) (h : (s.port p).reaches k = some x) : s.portReaching x p k = some p := by
  simp [State.portReaching, hp, h]

section
variable {s : State} {f : Flit} {p k q : Nat} (hp : p < 32) (hk : k < 16) (hq : q < 4) (hreach : (s.port p).reaches k = some f.src)
include hp hk hq hreach

theorem revocation_drains (h : Says s f useRevocation p k q)
    (hlight : ((s.port p).slot k).light = .lit ∨ ((s.port p).slot k).light = .training) (hbase : ((s.port p).slot k).base = false) (hlease : ((s.port p).slot k).lease = some (q, f.src)) :
    SlotBecomes (.lctlRevocation f) s p k { (s.port p).slot k with light := .draining, since := s.clock } := by
  obtain ⟨huse, hport, hwave, hpart⟩ := says_fields h (by decide) hp hk hq
  have hx : exec (.lctlRevocation f) s = .next (s.laneLost f) := says_arrives h fun s => s.laneLost f
  have huse' : lctlUse f ≠ useRelease := by
    rw [huse]
    decide
  have hgo : ((((s.port p).slot k).light = .lit || ((s.port p).slot k).light = .training) && !((s.port p).slot k).base &&
      (((s.port p).slot k).lease = some (q, f.src))) = true := by simp [hlight, hbase, hlease]
  simp only [State.laneLost, if_neg huse', hport, hwave, hpart, portReaching_same hp hreach, hgo, if_true] at hx
  exact slotBecomes_of_setsSlot hx (setsSlot_modSlot s (fun t => { t with light := .draining, since := s.clock }) hp hk)

theorem noLight_eq (h : Says s f useLoss p k q) : exec (.lctlLossNotice f) s = .next
    (if ((s.port p).slot k).light = .lit ∨ ((s.port p).slot k).light = .training ∨ ((s.port p).slot k).light = .draining then
      (s.lose [(p, k)]).leaseWork else s) := by
  obtain ⟨-, hport, hwave, -⟩ := says_fields h (by decide) hp hk hq
  have hx : exec (.lctlLossNotice f) s = .next (s.noLight f) := says_arrives h fun s => s.noLight f
  rw [hx]
  simp only [State.noLight, hport, hwave, portReaching_same hp hreach, Bool.or_eq_true, decide_eq_true_eq, or_assoc]

theorem lossNotice_loses (hjobs : s.fab.jobs = []) (hlanes : s.fab.laneRequests = []) (h : Says s f useLoss p k q)
    (hlight : ((s.port p).slot k).light = .lit ∨ ((s.port p).slot k).light = .training ∨ ((s.port p).slot k).light = .draining) :
    SlotBecomes (.lctlLossNotice f) s p k { (s.port p).slot k with light := .lost, since := s.clock } := by
  have hx := noLight_eq hp hk hq hreach h
  rw [if_pos hlight] at hx
  have hholds : ((s.port p).slot k).light.holds = true := by
    rcases hlight with h | h | h <;> rw [h] <;> rfl
  exact slotBecomes_of_leaseWork hjobs hlanes hx (setsSlot_lose s hp hk hholds)

theorem lossNotice_known (h : Says s f useLoss p k q)
    (hlight : ((s.port p).slot k).light = .dark ∨ ((s.port p).slot k).light = .lost) :
    exec (.lctlLossNotice f) s = .next s := by
  have hx := noLight_eq hp hk hq hreach h
  rwa [if_neg (by rcases hlight with h | h <;> simp [h])] at hx

end

/-! ### Lanes (R374, R391) -/

/-- The lanes of the package after a change of those of port `p`. -/
def LanesBecome (s t : State) (p : Nat) (g : Nat → RxLane) : Prop := t.threads = s.threads ∧ t.mem = s.mem ∧
  (∀ a b, a < 32 → b < 16 → (t.port a).lane b = if a = p then g b else (s.port a).lane b) ∧
  t.fab.laneRequests = s.fab.laneRequests

theorem lane_modLane_other (x : Port) {k j : Nat} (f : RxLane → RxLane) (h : j ≠ k) : (x.modLane k f).lane j = x.lane j := by
  unfold Port.modLane Port.lane
  by_cases hk : k < 16 <;> by_cases hj : j < 16 <;> simp [hk, hj, Vector.getElem_set_ne, h.symm]

/-- The lanes of a port, one of which changes. -/
def laneSet (x : Port) (k : Nat) (y : RxLane) (b : Nat) : RxLane := if b = k then y else x.lane b

theorem port_modLane_lane (s : State) {p a b : Nat} (k : Nat) (f : RxLane → RxLane) (hp : p < 32) (hb : b < 16) :
    ((s.modLane p k f).port a).lane b = if a = p then laneSet (s.port p) k (f ((s.port p).lane k)) b else (s.port a).lane b := by
  rw [State.modLane]
  by_cases ha : a = p
  · subst ha
    rw [if_pos rfl, port_modPort _ _ hp, laneSet]
    by_cases hbk : b = k
    · subst hbk
      rw [if_pos rfl, lane_modLane _ _ hb]
    · rw [if_neg hbk, lane_modLane_other _ _ hbk]
  · rw [if_neg ha, port_modPort_other _ _ ha]

theorem lanesBecome_modLane {s : State} {p : Nat} (k : Nat) (f : RxLane → RxLane) (hp : p < 32) :
    LanesBecome s (s.modLane p k f) p (laneSet (s.port p) k (f ((s.port p).lane k))) :=
  ⟨threads_modPort _ _ _, mem_modPort _ _ _, fun _ _ _ hb => port_modLane_lane s k f hp hb, laneRequests_modPort _ _ _⟩

theorem LanesBecome.refl (s : State) (p : Nat) : LanesBecome s s p (s.port p).lane :=
  ⟨rfl, rfl, fun a _ _ _ => by
    split
    · rename_i h
      rw [h]
    · rfl, rfl⟩

theorem LanesBecome.sent {s t u : State} {p : Nat} {g : Nat → RxLane} (h : LanesBecome s t p g) (hs : Sent t u) :
    LanesBecome s u p g := by
  obtain ⟨hthreads, hmem, hlane, hreq⟩ := h
  exact ⟨hs.threads.trans hthreads, hs.mem.trans hmem, fun a b ha hb => by rw [hs.port, hlane a b ha hb],
    hs.laneRequests.trans hreq⟩

section
variable {s : State} {p k : Nat}

theorem lossOfLight_stays (h : ((s.port p).lane k).assigned = false ∨ ((s.port p).lane k).los = true) :
    exec (.lossOfLight p k) s = .next s := by
  show execLossOfLight p k s = _
  exact if_pos (by rcases h with h | h <;> simp [h])

theorem lossOfLight_marks (hp : p < 32) (hk : k < 16) (hassigned : ((s.port p).lane k).assigned = true)
    (hlos : ((s.port p).lane k).los = false) : ∃ t, exec (.lossOfLight p k) s = .next t ∧
      (t.port p).lane k = { (s.port p).lane k with los := true, losAt := s.clock } ∧ t.threads = s.threads ∧
      ∀ a b, (a, b) ≠ (p, k) → (t.port a).lane b = (s.port a).lane b := by
  have hx : exec (.lossOfLight p k) s = .next (s.modLane p k (fun r => { r with los := true, losAt := s.clock })) := by
    show execLossOfLight p k s = _
    exact if_neg (by simp [hassigned, hlos])
  refine ⟨_, hx, ?_, threads_modPort _ _ _, fun a b hab => ?_⟩
  · rw [State.modLane, port_modPort _ _ hp, lane_modLane _ _ hk]
  · rw [State.modLane]
    by_cases ha : a = p
    · subst ha
      rw [port_modPort _ _ hp, lane_modLane_other _ _ fun hb => hab (by rw [hb])]
    · rw [port_modPort_other _ _ ha]

/-- R379, R407: the lanes of the package have numbers from 16 on. -/
theorem lightRestored_lane (hk : k < 16) : exec (.lightRestored (16 + 16 * p + k)) s = .next
    (if ((s.port p).lane k).los = true then
      (s.modLane p k (fun r => { r with los := false })).postEvent none 0x0D (lanesWord [(p, k)]) 1 else s) := by
  show execLightRestored (16 + 16 * p + k) s = _
  have hport : (16 + 16 * p + k - 16) / 16 = p := by omega
  have hwave : (16 + 16 * p + k) % 16 = k := by omega
  simp only [execLightRestored, if_neg (show ¬ 16 + 16 * p + k < 16 by omega), hport, hwave]
  split <;> rfl

theorem lightRestored_clears (hp : p < 32) (hk : k < 16) (hlos : ((s.port p).lane k).los = true) :
    ∃ t, exec (.lightRestored (16 + 16 * p + k)) s = .next t ∧ (t.port p).lane k = { (s.port p).lane k with los := false } ∧
      t.threads = s.threads := by
  have hx := lightRestored_lane (s := s) (p := p) hk
  rw [if_pos hlos, State.postEvent_frame] at hx
  refine ⟨_, hx, ?_, threads_modPort s p fun x => x.modLane k fun r => { r with los := false }⟩
  show ((s.modLane p k fun r => { r with los := false }).port p).lane k = _
  rw [State.modLane, port_modPort _ _ hp, lane_modLane _ _ hk]

end

end Sys2Proof.Proofs
end

section
/-! Proofs, family 14 (chairli): lane requests and releases (R374, R380, R381). -/

namespace Sys2Proof.Proofs

open Sys2Proof Sys2Proof.Machine Sys2Proof.Claim

/-! ### Lanes that are given and revoked -/

/-- A lane that is a lease's (R374). -/
def givenLane (l : Nat × Nat) (r : RxLane) : RxLane :=
  { r with assigned := true, lease := some l, los := false, revoked := false, heir := none }

theorem lanesBecome_giveLane {s : State} {p : Nat} (k : Nat) (l : Nat × Nat) (hp : p < 32) :
    LanesBecome s (s.giveLane p k l) p (laneSet (s.port p) k (givenLane l ((s.port p).lane k))) := lanesBecome_modLane k _ hp

theorem lanesBecome_revokeLane {s : State} {p : Nat} (k : Nat) (heir : Option (Nat × Nat)) (hp : p < 32) :
    LanesBecome s (s.revokeLane p k heir) p
      (laneSet (s.port p) k { (s.port p).lane k with revoked := true, heir := heir }) := by
  have hset := lanesBecome_modLane (s := s) k (fun r => { r with revoked := true, heir := heir }) hp
  unfold State.revokeLane
  dsimp only
  split
  · exact hset.sent (sent_tell _ _ _)
  · exact hset

theorem portHearing_same {s : State} {x p k : Nat} (hen : (s.port p).en = true) (h : (s.port p).hears k = some x) :
    s.portHearing x p k = some p := by simp [State.portHearing, hen, h]

/-! ### How a lane request is served (R380, R381) -/

section
variable {s : State} {f : Flit} {p k q : Nat} (hport : lctlPort f = p) (hwave : lctlWave f = k) (hpart : lctlPart f = q)
  (hen : (s.port p).en = true) (hhears : (s.port p).hears k = some f.src)
include hport hwave hpart hen hhears

theorem serveLane_gives (hp : p < 32) (hfree : ((s.port p).lane k).assigned = false) (hroom : (s.port p).rxHeld < 8) :
    LanesBecome s (s.serveLane f) p (laneSet (s.port p) k (givenLane (q, f.src) ((s.port p).lane k))) := by
  have hx : s.serveLane f = (s.giveLane p k (q, f.src)).tell f.src (lctl useGrant q p k) := by
    simp only [State.serveLane, hport, hwave, hpart, portHearing_same hen hhears, hfree, hroom, Bool.false_eq_true, if_false, if_true]
  rw [hx]
  exact (lanesBecome_giveLane k _ hp).sent (sent_tell _ _ _)

theorem serveLane_refuses_full (hfree : ((s.port p).lane k).assigned = false) (hfull : 8 ≤ (s.port p).rxHeld)
    (hnone : s.rxVictim p q f.src = none) : LanesBecome s (s.serveLane f) p (s.port p).lane := by
  have hx : s.serveLane f = s.tell f.src (lctl useRefusal q p k) := by
    simp only [State.serveLane, hport, hwave, hpart, portHearing_same hen hhears, hfree, Nat.not_lt.2 hfull, hnone, Bool.false_eq_true,
      if_false]
  rw [hx]
  exact (LanesBecome.refl s p).sent (sent_tell _ _ _)

theorem serveLane_revokes_other {v : Nat} (hp : p < 32) (hfree : ((s.port p).lane k).assigned = false) (hfull : 8 ≤ (s.port p).rxHeld)
    (hv : s.rxVictim p q f.src = some v) : LanesBecome s (s.serveLane f) p
      (laneSet (s.port p) v { (s.port p).lane v with revoked := true, heir := none }) := by
  have hx : s.serveLane f = (s.revokeLane p v none).modFab (fun b => { b with laneWaits := b.laneWaits ++ [(f, p, v)] }) := by
    simp only [State.serveLane, hport, hwave, hpart, portHearing_same hen hhears, hfree, Nat.not_lt.2 hfull, hv, Bool.false_eq_true,
      if_false]
  rw [hx]
  exact lanesBecome_revokeLane v none hp

section
variable {z y : Nat} (hassigned : ((s.port p).lane k).assigned = true) (hlease : ((s.port p).lane k).lease = some (z, y))
  (hrevoked : ((s.port p).lane k).revoked = false) (hother : (z, y) ≠ (q, f.src))
include hassigned hlease hrevoked hother

theorem serveLane_revokes (hp : p < 32) (h : s.revocable z (s.rxHeldBy z y) q (s.rxHeldBy q f.src) = true) : LanesBecome s (s.serveLane f) p
    (laneSet (s.port p) k { (s.port p).lane k with revoked := true, heir := some (q, f.src) }) := by
  have hne : (decide (z = q) && decide (y = f.src)) = false := by simpa using hother
  have hx : s.serveLane f = (s.revokeLane p k (some (q, f.src))).tell f.src (lctl useGrant q p k) := by
    simp only [State.serveLane, hport, hwave, hpart, portHearing_same hen hhears, hassigned, hlease, hrevoked, hne, h, Bool.false_eq_true,
      if_false, if_true]
  rw [hx]
  exact (lanesBecome_revokeLane k _ hp).sent (sent_tell _ _ _)

theorem serveLane_refuses_leased (h : s.revocable z (s.rxHeldBy z y) q (s.rxHeldBy q f.src) = false) :
    LanesBecome s (s.serveLane f) p (s.port p).lane := by
  have hne : (decide (z = q) && decide (y = f.src)) = false := by simpa using hother
  have hx : s.serveLane f = s.tell f.src (lctl useRefusal q p k) := by
    simp only [State.serveLane, hport, hwave, hpart, portHearing_same hen hhears, hassigned, hlease, hrevoked, hne, h, Bool.false_eq_true,
      if_false, if_true]
  rw [hx]
  exact (LanesBecome.refl s p).sent (sent_tell _ _ _)

end

theorem serveLane_refuses_base (hassigned : ((s.port p).lane k).assigned = true) (hlease : ((s.port p).lane k).lease = none) :
    LanesBecome s (s.serveLane f) p (s.port p).lane := by
  have hx : s.serveLane f = s.tell f.src (lctl useRefusal q p k) := by
    simp only [State.serveLane, hport, hwave, hpart, portHearing_same hen hhears, hassigned, hlease, if_true]
  rw [hx]
  exact (LanesBecome.refl s p).sent (sent_tell _ _ _)

end

/-! ### Lane requests -/

section
variable {s : State} {f : Flit} {p k q : Nat} (h : Says s f useRequest p k q)
include h

/-- Behind a job that waits for its answer a lane request waits. -/
theorem laneRequest_waits {j : LeaseJob} {l : List LeaseJob} (hjobs : s.fab.jobs = j :: l) (hbegun : j.begun = true)
    (hphase : j.phase = 1) :
    exec (.lctlLaneRequest f) s = .next { s with fab := { s.fab with laneRequests := s.fab.laneRequests ++ [f] } } := by
  have hx : exec (.lctlLaneRequest f) s =
      .next (s.modFab (fun b => { b with laneRequests := b.laneRequests ++ [f] })).leaseWork :=
    says_arrives h fun s => (s.modFab (fun b => { b with laneRequests := b.laneRequests ++ [f] })).leaseWork
  rw [leaseWork_waiting (s := s.modFab (fun b => { b with laneRequests := b.laneRequests ++ [f] })) hjobs hbegun hphase] at hx
  exact hx

/-- The state whose one lane request is `f`. -/
def soleRequest (s : State) (f : Flit) : State := s.modFab (fun b => { b with laneRequests := [f] })

/-- The controller that has no job serves a lane request at once. -/
theorem laneRequest_served (hjobs : s.fab.jobs = []) (hlanes : s.fab.laneRequests = []) : exec (.lctlLaneRequest f) s =
    .next (((soleRequest s f).serveLane f).modFab (fun b => { b with laneRequests := [] })) := by
  have hx : exec (.lctlLaneRequest f) s =
      .next (s.modFab (fun b => { b with laneRequests := b.laneRequests ++ [f] })).leaseWork :=
    says_arrives h fun s => (s.modFab (fun b => { b with laneRequests := b.laneRequests ++ [f] })).leaseWork
  have hone : s.modFab (fun b => { b with laneRequests := b.laneRequests ++ [f] }) = soleRequest s f := by
    simp only [soleRequest, State.modFab, hlanes, List.nil_append]
  rw [hx, hone, State.leaseWork, State.leaseRun]
  simp only [show (soleRequest s f).fab.jobs = [] from hjobs]
  rfl

end

/-- The event changes lanes of port `p` alone of the lanes, and no thread and no memory, and leaves no lane request. -/
def LanesEnd (i : Instr) (s : State) (p : Nat) (g : Nat → RxLane) : Prop := ∃ t, exec i s = .next t ∧ t.threads = s.threads ∧
  t.mem = s.mem ∧ (∀ a b, a < 32 → b < 16 → (t.port a).lane b = if a = p then g b else (s.port a).lane b) ∧ t.fab.laneRequests = []

theorem lanesEnd_of_lanesBecome {i : Instr} {s t : State} {p : Nat} {g : Nat → RxLane} (hx : exec i s = .next t)
    (h : LanesBecome s t p g) (hlanes : s.fab.laneRequests = []) : LanesEnd i s p g := by
  obtain ⟨hthreads, hmem, hlane, hreq⟩ := h
  exact ⟨t, hx, hthreads, hmem, hlane, hreq.trans hlanes⟩

theorem lanesEnd_of_served {s : State} {f : Flit} {p k q : Nat} {g : Nat → RxLane} (h : Says s f useRequest p k q)
    (hjobs : s.fab.jobs = []) (hlanes : s.fab.laneRequests = [])
    (hserve : LanesBecome (soleRequest s f) ((soleRequest s f).serveLane f) p g) : LanesEnd (.lctlLaneRequest f) s p g := by
  obtain ⟨hthreads, hmem, hlane, -⟩ := hserve
  exact ⟨_, laneRequest_served h hjobs hlanes, hthreads, hmem, hlane, rfl⟩

/-! ### Releases and answers -/

section
variable {s : State} {f : Flit} {p k q : Nat} (hp : p < 32) (hk : k < 16) (hq : q < 4)
include hp hk hq

section
variable (h : Says s f useRelease p k q) (hen : (s.port p).en = true)
  (hhears : (s.port p).hears k = some f.src) (hlease : ((s.port p).lane k).lease = some (q, f.src))
include h hen hhears hlease

theorem release_eq : exec (.lctlRevocation f) s = .next (s.laneReleased p k) := by
  obtain ⟨huse, hport, hwave, hpart⟩ := says_fields h (by decide) hp hk hq
  have hx : exec (.lctlRevocation f) s = .next (s.laneLost f) := says_arrives h fun s => s.laneLost f
  rw [hx]
  simp only [State.laneLost, huse, hport, hwave, hpart, portHearing_same hen hhears, hlease, if_true]

variable (hlanes : s.fab.laneRequests = [])
include hlanes

/-- R381: a lane that its sender gives back goes to its heir. -/
theorem release_gives {z y : Nat} (hheir : ((s.port p).lane k).heir = some (z, y)) :
    LanesEnd (.lctlRevocation f) s p (laneSet (s.port p) k (givenLane (z, y) ((s.port p).lane k))) := by
  refine lanesEnd_of_lanesBecome (release_eq hp hk hq h hen hhears hlease) ?_ hlanes
  have hx : s.laneReleased p k = s.giveLane p k (z, y) := by rw [State.laneReleased, hheir]
  rw [hx]
  exact lanesBecome_giveLane k _ hp

theorem release_frees (hwaits : s.fab.laneWaits = []) (hheir : ((s.port p).lane k).heir = none) :
    LanesEnd (.lctlRevocation f) s p (laneSet (s.port p) k
      { (s.port p).lane k with assigned := false, lease := none, los := false, revoked := false }) := by
  refine lanesEnd_of_lanesBecome (release_eq hp hk hq h hen hhears hlease) ?_ hlanes
  have hset := lanesBecome_modLane (s := s) k (fun r => { r with assigned := false, lease := none, los := false, revoked := false }) hp
  have hnone : (s.modLane p k fun r => { r with assigned := false, lease := none, los := false, revoked := false }).fab.laneWaits = [] := by
    rw [State.modLane, modPort_frame]
    exact hwaits
  have hx : s.laneReleased p k = (s.modLane p k fun r =>
      { r with assigned := false, lease := none, los := false, revoked := false }).modFab (fun b => { b with laneWaits := [] }) := by
    simp only [State.laneReleased, hheir, hnone, List.filter_nil, List.foldl_nil]
  rw [hx]
  exact hset

end

section
variable (hjobs : s.fab.jobs = [])
include hjobs

theorem refusal_ignored (h : Says s f useRefusal p k q) : exec (.lctlGrant f) s = .next s := by
  obtain ⟨huse, -⟩ := says_fields h (by decide) hp hk hq
  have hx : exec (.lctlGrant f) s = .next (s.laneAnswer f) := says_arrives h fun s => s.laneAnswer f
  have huse' : lctlUse f ≠ useGrant := by
    rw [huse]
    decide
  simpa only [State.laneAnswer, State.unaskedGrant, hjobs, if_neg huse'] using hx

/-- R374, R380: a grant that no job waits for is given back. -/
theorem grant_given_back (hlanes : s.fab.laneRequests = []) (h : Says s f useGrant p k q) :
    LanesEnd (.lctlGrant f) s p (s.port p).lane := by
  obtain ⟨huse, hport, hwave, hpart⟩ := says_fields h (by decide) hp hk hq
  have hx : exec (.lctlGrant f) s = .next (s.laneAnswer f) := says_arrives h fun s => s.laneAnswer f
  simp only [State.laneAnswer, State.unaskedGrant, hjobs, huse, if_true] at hx
  exact lanesEnd_of_lanesBecome hx ((LanesBecome.refl s p).sent (sent_tell _ _ _)) hlanes

end

end

end Sys2Proof.Proofs
end

section
/-! Proofs, family 14 (chairli): laser modules fail and shine again (R375, R379, R391, R407). -/

namespace Sys2Proof.Proofs

open Sys2Proof Sys2Proof.Machine Sys2Proof.Claim

/-! ### What changes of light leave alone -/

/-- No thread, job or lane request differs. -/
structure Quiet (s t : State) : Prop where
  threads : t.threads = s.threads
  jobs : t.fab.jobs = s.fab.jobs
  laneRequests : t.fab.laneRequests = s.fab.laneRequests

theorem Quiet.refl (s : State) : Quiet s s := ⟨rfl, rfl, rfl⟩

theorem Quiet.trans {s t u : State} (h : Quiet s t) (k : Quiet t u) : Quiet s u :=
  ⟨k.threads.trans h.threads, k.jobs.trans h.jobs, k.laneRequests.trans h.laneRequests⟩

theorem Quiet.foldl {β : Type} {step : State → β → State} (h : ∀ s d, Quiet s (step s d)) (l : List β) :
    ∀ s, Quiet s (l.foldl step s) := by
  induction l with
  | nil => exact Quiet.refl
  | cons d l ih => exact fun s => (h s d).trans (ih _)

theorem quiet_modPort (s : State) (p : Nat) (f : Port → Port) : Quiet s (s.modPort p f) :=
  ⟨threads_modPort _ _ _, jobs_modPort _ _ _, laneRequests_modPort _ _ _⟩

theorem Sent.quiet {s t : State} (h : Sent s t) : Quiet s t := ⟨h.threads, h.jobs, h.laneRequests⟩

theorem quiet_postEvent (s : State) (k : Nat) (a b : Word) : Quiet s (s.postEvent none k a b) := by
  rw [State.postEvent_frame]
  exact ⟨rfl, rfl, rfl⟩

theorem quiet_darken (s : State) (p k : Nat) : Quiet s (s.darken p k) :=
  (quiet_modPort _ _ _).trans (sent_freeLane _ _ _ _).quiet

theorem Quiet.idle {s t : State} (h : Quiet s t) (hjobs : s.fab.jobs = []) (hlanes : s.fab.laneRequests = []) : t.leaseWork = t :=
  leaseWork_idle (h.jobs.trans hjobs) (h.laneRequests.trans hlanes)

/-! ### A wavelength as its light concerns it -/

/-- What losing and getting back its light reads and writes of a wavelength. -/
structure WaveView where
  clock : Nat
  en : Bool
  base : Bool
  txf : Bool
  slot : TxSlot

def viewAt (s : State) (w : Nat × Nat) : WaveView :=
  { clock := s.clock, en := (s.port w.1).en, base := (s.port w.1).base.getLsbD w.2, txf := (s.port w.1).txf.getLsbD w.2
    slot := (s.port w.1).slot w.2 }

/-- The wavelength is one of the package. -/
def IsWave (w : Nat × Nat) : Prop := w.1 < 32 ∧ w.2 < 16

theorem viewAt_congr {s t : State} (hport : ∀ p, t.port p = s.port p) (hclock : t.clock = s.clock) (w : Nat × Nat) :
    viewAt t w = viewAt s w := by simp only [viewAt, hport, hclock]

theorem Sent.viewAt {s t : State} (h : Sent s t) (w : Nat × Nat) : viewAt t w = viewAt s w := viewAt_congr h.port h.clock w

theorem viewAt_postEvent (s : State) (k : Nat) (a b : Word) (w : Nat × Nat) : viewAt (s.postEvent none k a b) w = viewAt s w :=
  viewAt_congr (fun _ => by rw [State.postEvent_frame]; rfl) (clock_postEvent _ _ _ _ _) w

theorem viewAt_modPort (s : State) {p : Nat} {f : Port → Port} {g : WaveView → WaveView} {w : Nat × Nat} {c : Prop} [Decidable c]
    (hw : IsWave w) (hc : c → w.1 = p)
    (h : ∀ x : Port, w.1 = p → ({ clock := s.clock, en := (f x).en, base := (f x).base.getLsbD w.2, txf := (f x).txf.getLsbD w.2
                                  slot := (f x).slot w.2 } : WaveView) =
      if c then g { clock := s.clock, en := x.en, base := x.base.getLsbD w.2, txf := x.txf.getLsbD w.2, slot := x.slot w.2 }
      else { clock := s.clock, en := x.en, base := x.base.getLsbD w.2, txf := x.txf.getLsbD w.2, slot := x.slot w.2 }) :
    viewAt (s.modPort p f) w = if c then g (viewAt s w) else viewAt s w := by
  by_cases hp : w.1 = p
  · rw [viewAt, clock_modPort, hp, port_modPort _ _ (hp ▸ hw.1)]
    refine (h _ hp).trans ?_
    rw [viewAt, hp]
  · rw [if_neg (fun h => hp (hc h)), viewAt, clock_modPort, port_modPort_other _ _ hp, viewAt]

theorem viewAt_modSlot (s : State) (d : Nat × Nat) (f : TxSlot → TxSlot) {w : Nat × Nat} (hw : IsWave w) :
    viewAt (s.modSlot d.1 d.2 f) w = if w = d then { viewAt s w with slot := f (viewAt s w).slot } else viewAt s w := by
  refine viewAt_modPort (g := fun v => { v with slot := f v.slot }) s hw (fun h => by rw [h]) fun x hp => ?_
  rw [slot_modSlot_eq _ _ hw.2, modSlot_frame]
  by_cases hk : w.2 = d.2
  · rw [if_pos hk, if_pos (Prod.ext hp hk)]
  · rw [if_neg hk, if_neg fun h => hk (by rw [h])]

/-! ### The feeds of a module (R375) -/

theorem mem_moduleSlots {m : Nat} {w : Nat × Nat} : w ∈ moduleSlots m ↔ w.1 / 8 = m / 4 ∧ w.2 / 4 = m % 4 := by
  obtain ⟨p, k⟩ := w
  simp only [moduleSlots, List.mem_flatMap, List.mem_map, List.mem_range, Prod.mk.injEq]
  constructor
  · rintro ⟨i, hi, j, hj, rfl, rfl⟩
    omega
  · rintro ⟨hp, hk⟩
    exact ⟨p % 8, by omega, k % 4, by omega, by omega, by omega⟩

theorem getLsbD_feed {i k : Nat} (hi : i < 16) : (BitVec.ofNat 16 (2 ^ k)).getLsbD i = decide (i = k) := by
  rw [BitVec.getLsbD_ofNat, Nat.testBit_two_pow]
  simp [hi, eq_comm]

/-- A wavelength loses its feed (R375). -/
def unfeed (s : State) (w : Nat × Nat) : State := s.modPort w.1 (fun x => { x with txf := x.txf ||| BitVec.ofNat 16 (2 ^ w.2) })

/-- A wavelength gets its feed back. -/
def feed (s : State) (w : Nat × Nat) : State := s.modPort w.1 (fun x => { x with txf := x.txf &&& ~~~(BitVec.ofNat 16 (2 ^ w.2)) })

theorem viewAt_unfeed (s : State) (d : Nat × Nat) {w : Nat × Nat} (hw : IsWave w) :
    viewAt (unfeed s d) w = if w = d then { viewAt s w with txf := true } else viewAt s w := by
  refine viewAt_modPort (g := fun v => { v with txf := true }) s hw (fun h => by rw [h]) fun x hp => ?_
  rw [BitVec.getLsbD_or, getLsbD_feed hw.2]
  by_cases hk : w.2 = d.2
  · rw [if_pos (Prod.ext hp hk), hk, decide_eq_true rfl, Bool.or_true]
    rfl
  · rw [if_neg fun h => hk (by rw [h]), decide_eq_false hk, Bool.or_false]
    rfl

theorem viewAt_feed (s : State) (d : Nat × Nat) {w : Nat × Nat} (hw : IsWave w) :
    viewAt (feed s d) w = if w = d then { viewAt s w with txf := false } else viewAt s w := by
  refine viewAt_modPort (g := fun v => { v with txf := false }) s hw (fun h => by rw [h]) fun x hp => ?_
  rw [BitVec.getLsbD_and, BitVec.getLsbD_not, getLsbD_feed hw.2, decide_eq_true hw.2, Bool.true_and]
  by_cases hk : w.2 = d.2
  · rw [if_pos (Prod.ext hp hk), hk, decide_eq_true rfl, Bool.not_true, Bool.and_false]
    rfl
  · rw [if_neg fun h => hk (by rw [h]), decide_eq_false hk, Bool.not_false, Bool.and_true]
    rfl

/-! ### Light that is lost (R391) -/

theorem holds_iff (l : Light) : l.holds = true ↔ l ≠ .dark := by cases l <;> simp [Light.holds]

/-- What losing its light does to a wavelength. -/
def darkened (v : WaveView) : WaveView :=
  { v with slot := if v.slot.light.holds = true then { v.slot with light := .lost, since := v.clock } else v.slot }

theorem light_darkened (v : WaveView) : (darkened v).slot.light = if v.slot.light = .dark then .dark else .lost := by
  rw [darkened]
  by_cases h : v.slot.light = .dark
  · rw [if_pos h, if_neg (by rw [holds_iff]; exact not_not.2 h), h]
  · rw [if_neg h, if_pos ((holds_iff _).2 h)]

theorem darkened_darkened (v : WaveView) : darkened (darkened v) = darkened v := by
  unfold darkened
  by_cases h : v.slot.light.holds = true <;> simp [h]

/-- A wavelength loses its light (R391). -/
def unlight (s : State) (w : Nat × Nat) : State := s.modSlot w.1 w.2 (fun t =>
  if t.light.holds = true then { t with light := .lost, since := s.clock } else t)

theorem quiet_unlight (s : State) (w : Nat × Nat) : Quiet s (unlight s w) := by
  unfold unlight
  exact quiet_modPort _ _ _

theorem viewAt_lose (s : State) (l : List (Nat × Nat)) {w : Nat × Nat} (hw : IsWave w) :
    viewAt (s.lose l) w = if w ∈ l then darkened (viewAt s w) else viewAt s w :=
  foldl_places viewAt IsWave unlight (fun _ => darkened) (fun _ => darkened_darkened)
    (fun s d _ hc => viewAt_modSlot s d _ hc) hw l s

theorem quiet_lose (s : State) (l : List (Nat × Nat)) : Quiet s (s.lose l) := by
  obtain ⟨hthreads, hjobs, hlanes⟩ := Quiet.foldl quiet_unlight l s
  exact ⟨hthreads, hjobs, hlanes⟩

/-! ### Light that is back (R379) -/

/-- What getting its light back does to a wavelength. -/
def relit (v : WaveView) : WaveView :=
  if v.slot.light = .lost then
    { v with slot := if v.en = true ∧ v.base = true ∧ v.slot.base = true then { light := .lit, base := true, since := v.clock }
                     else { since := v.clock } }
  else v

theorem relit_of_lost {v : WaveView} (h : v.slot.light = .lost) : relit v = { v with
    slot := if v.en = true ∧ v.base = true ∧ v.slot.base = true then { light := .lit, base := true, since := v.clock }
            else { since := v.clock } } := if_pos h

theorem relit_of_not_lost {v : WaveView} (h : v.slot.light ≠ .lost) : relit v = v := if_neg h

theorem relit_relit (v : WaveView) : relit (relit v) = relit v := by
  unfold relit
  by_cases hlost : v.slot.light = .lost
  · by_cases hbase : v.en = true ∧ v.base = true ∧ v.slot.base = true <;> simp [hlost, hbase]
  · simp [hlost]

theorem viewAt_darken (s : State) (d : Nat × Nat) {w : Nat × Nat} (hw : IsWave w) :
    viewAt (s.darken d.1 d.2) w = if w = d then { viewAt s w with slot := { since := s.clock } } else viewAt s w := by
  rw [State.darken]
  exact ((sent_freeLane _ _ _ _).viewAt w).trans (viewAt_modSlot s d (fun _ => { since := s.clock }) hw)

/-- A wavelength that is LOST has its light again. -/
def relightLost (s : State) (d : Nat × Nat) : State := if ((s.port d.1).slot d.2).light = .lost then s.relight d.1 d.2 else s

theorem viewAt_relight (s : State) (d : Nat × Nat) {w : Nat × Nat} (hw : IsWave w) :
    viewAt (relightLost s d) w = if w = d then relit (viewAt s w) else viewAt s w := by
  unfold relightLost
  split
  · rename_i hlost
    rw [State.relight]
    split
    · rename_i hbase
      rw [viewAt_modSlot _ _ _ hw]
      refine ite_congr rfl (fun hd => ?_) fun _ => rfl
      subst hd
      rw [relit, if_pos (show (viewAt s w).slot.light = .lost from hlost), if_pos (by simpa [viewAt, and_assoc] using hbase)]
      rfl
    · rename_i hbase
      rw [viewAt_darken _ _ hw]
      refine ite_congr rfl (fun hd => ?_) fun _ => rfl
      subst hd
      rw [relit, if_pos (show (viewAt s w).slot.light = .lost from hlost), if_neg (by simpa [viewAt, and_assoc] using hbase)]
      rfl
  · rename_i hlost
    by_cases hd : w = d
    · subst hd
      rw [if_pos rfl, relit, if_neg (show (viewAt s w).slot.light ≠ .lost from hlost)]
    · rw [if_neg hd]

theorem quiet_relight (s : State) (d : Nat × Nat) : Quiet s (relightLost s d) := by
  unfold relightLost
  split
  · rw [State.relight]
    split
    · exact quiet_modPort _ _ _
    · exact quiet_darken _ _ _
  · exact Quiet.refl s

theorem quiet_unfeed (s : State) (w : Nat × Nat) : Quiet s (unfeed s w) := by
  unfold unfeed
  exact quiet_modPort _ _ _

theorem quiet_feed (s : State) (w : Nat × Nat) : Quiet s (feed s w) := by
  unfold feed
  exact quiet_modPort _ _ _

/-! ### Laser modules (R375, R407) -/

/-- The package once the feeds of some wavelengths have failed. -/
def failedFeeds (s : State) (m : Nat) : State :=
  (((moduleSlots m).foldl unfeed s).lose (moduleSlots m)).postEvent none 0x0D (moduleWord m) 0

/-- The package once they are back. -/
def restoredFeeds (s : State) (m : Nat) : State :=
  ((moduleSlots m).foldl relightLost ((moduleSlots m).foldl feed s)).postEvent none 0x0D (moduleWord m) 1

theorem quiet_failedFeeds (s : State) (m : Nat) : Quiet s (failedFeeds s m) :=
  ((Quiet.foldl quiet_unfeed _ s).trans (quiet_lose _ _)).trans (quiet_postEvent _ _ _ _)

theorem quiet_restoredFeeds (s : State) (m : Nat) : Quiet s (restoredFeeds s m) :=
  ((Quiet.foldl quiet_feed _ s).trans (Quiet.foldl quiet_relight _ _)).trans (quiet_postEvent _ _ _ _)

theorem viewAt_failedFeeds (s : State) (m : Nat) {w : Nat × Nat} (hw : IsWave w) : viewAt (failedFeeds s m) w =
    if w ∈ moduleSlots m then darkened { viewAt s w with txf := true } else viewAt s w := by
  rw [failedFeeds, viewAt_postEvent, viewAt_lose _ _ hw,
    foldl_places viewAt IsWave unfeed (fun _ v => { v with txf := true }) (fun _ _ => rfl) (fun s d _ hc => viewAt_unfeed s d hc) hw]
  by_cases h : w ∈ moduleSlots m
  · rw [if_pos h, if_pos h, if_pos h]
  · rw [if_neg h, if_neg h, if_neg h]

theorem viewAt_restoredFeeds (s : State) (m : Nat) {w : Nat × Nat} (hw : IsWave w) : viewAt (restoredFeeds s m) w =
    if w ∈ moduleSlots m then relit { viewAt s w with txf := false } else viewAt s w := by
  rw [restoredFeeds, viewAt_postEvent,
    foldl_places viewAt IsWave relightLost (fun _ => relit) (fun _ => relit_relit) (fun s d _ hc => viewAt_relight s d hc) hw,
    foldl_places viewAt IsWave feed (fun _ v => { v with txf := false }) (fun _ _ => rfl) (fun s d _ hc => viewAt_feed s d hc) hw]
  by_cases h : w ∈ moduleSlots m
  · rw [if_pos h, if_pos h, if_pos h]
  · rw [if_neg h, if_neg h, if_neg h]

theorem laserFeedFailure_eq (m : Nat) (s : State) : exec (.laserFeedFailure m) s =
    if (decide (m ≥ 16) || (moduleSlots m).all (fun w => (s.port w.1).txf.getLsbD w.2)) = true then .next s
    else .next (failedFeeds s m).leaseWork := rfl

theorem lightRestored_eq {m : Nat} (s : State) (hm : m < 16) : exec (.lightRestored m) s =
    if (moduleSlots m).all (fun w => !(s.port w.1).txf.getLsbD w.2 && ((s.port w.1).slot w.2).light ≠ .lost) = true then .next s
    else .next (restoredFeeds s m).leaseWork := if_pos hm

theorem laserFeedFailure_known {s : State} {m : Nat} (h : ∀ w ∈ moduleSlots m, (s.port w.1).txf.getLsbD w.2 = true) :
    exec (.laserFeedFailure m) s = .next s := by
  rw [laserFeedFailure_eq, if_pos]
  rw [Bool.or_eq_true, List.all_eq_true]
  exact .inr h

section
variable {s : State} {m : Nat} (hm : m < 16)
include hm

theorem lightRestored_known (h : ∀ w ∈ moduleSlots m, (s.port w.1).txf.getLsbD w.2 = false ∧ ((s.port w.1).slot w.2).light ≠ .lost) :
    exec (.lightRestored m) s = .next s := by
  rw [lightRestored_eq s hm, if_pos]
  rw [List.all_eq_true]
  intro w hw
  simp [h w hw]

variable (hjobs : s.fab.jobs = []) (hlanes : s.fab.laneRequests = [])
include hjobs hlanes

theorem laserFeedFailure_fails (h : ∃ w ∈ moduleSlots m, (s.port w.1).txf.getLsbD w.2 = false) :
    exec (.laserFeedFailure m) s = .next (failedFeeds s m) := by
  obtain ⟨w, hw, hfed⟩ := h
  rw [laserFeedFailure_eq, if_neg, (quiet_failedFeeds s m).idle hjobs hlanes]
  rw [Bool.not_eq_true, Bool.or_eq_false_iff, List.all_eq_false]
  exact ⟨decide_eq_false (by omega), w, hw, by simp [hfed]⟩

theorem lightRestored_restores (h : ∃ w ∈ moduleSlots m, (s.port w.1).txf.getLsbD w.2 = true) :
    exec (.lightRestored m) s = .next (restoredFeeds s m) := by
  obtain ⟨w, hw, hfed⟩ := h
  rw [lightRestored_eq s hm, if_neg, (quiet_restoredFeeds s m).idle hjobs hlanes]
  rw [Bool.not_eq_true, List.all_eq_false]
  exact ⟨w, hw, by simp [hfed]⟩

end

end Sys2Proof.Proofs
end

section
/-! Proofs, family 14 (chairli): the lease controller asks, is answered and ends (R380, R382). -/

namespace Sys2Proof.Proofs

open Sys2Proof Sys2Proof.Machine Sys2Proof.Claim

/-! ### The ports of a job (R380) -/

section
variable {s : State}

theorem leasePort_end {j : LeaseJob} (h : 32 ≤ j.port) : s.leasePort j = (s, j, .stop) := by
  rw [State.leasePort, if_pos h]

theorem leasePort_disabled {j : LeaseJob} (hlt : j.port < 32) (hen : (s.port j.port).en = false) :
    s.leasePort j = (s, { j with port := j.port + 1 }, .next) := by
  simp only [State.leasePort, if_neg (Nat.not_le.2 hlt), hen, Bool.not_false, if_true]
  split <;> rfl

/-- A job that finds no enabled port any more has seen all its ports. -/
theorem leaseLoop_disabled (fuel : Nat) : ∀ j : LeaseJob, (∀ a, j.port ≤ a → a < 32 → (s.port a).en = false) →
    32 < j.port + fuel → s.leaseLoop j fuel = (s, { j with port := max j.port 32, phase := 3 }) := by
  induction fuel with
  | zero =>
    intro j _ hfuel
    rw [Nat.max_eq_left (by omega)]
    rfl
  | succ fuel ih =>
    intro j hoff hfuel
    rw [State.leaseLoop]
    by_cases hlt : j.port < 32
    · rw [leasePort_disabled hlt (hoff _ le_rfl hlt)]
      dsimp only
      rw [ih { j with port := j.port + 1 } (fun a ha => hoff a (Nat.le_of_succ_le ha)) (by dsimp only; omega)]
      simp only [Nat.max_eq_right hlt.le, Nat.max_eq_right (Nat.succ_le_of_lt hlt)]
    · rw [leasePort_end (Nat.not_lt.1 hlt), Nat.max_eq_left (Nat.not_lt.1 hlt)]

/-! ### The turns of a job that has begun -/

/-- The state with another head job. -/
def withHead (s : State) (j : LeaseJob) : State := s.modFab (fun f => { f with jobs := j :: f.jobs.drop 1 })

section
variable {j : LeaseJob} (hbegun : j.begun = true)
include hbegun

theorem leaseStep_seeks {u : State} {i : LeaseJob} (hphase : j.phase = 0) (h : s.leaseLoop j 34 = (u, i)) :
    s.leaseStep j = (withHead u i, decide (i.phase = 3)) := by
  simp only [State.leaseStep, hbegun, hphase, h, Bool.not_true, Bool.false_eq_true, if_false, if_true]
  rfl

theorem leaseStep_trains {p k : Nat} (hphase : j.phase = 3) (hlit : (p, k) ∈ j.lit)
    (hlight : ((s.port p).slot k).light = .training) (hlease : ((s.port p).slot k).lease = some (j.part, j.peer)) :
    s.leaseStep j = (s, false) := by
  have hany : j.lit.any (fun w => ((s.port w.1).slot w.2).light = .training &&
      ((s.port w.1).slot w.2).lease = some (j.part, j.peer)) = true :=
    List.any_eq_true.2 ⟨(p, k), hlit, by simp [hlight, hlease]⟩
  simp [State.leaseStep, hbegun, hphase, hany]

theorem leaseStep_over (hphase : j.phase = 3) (hlit : j.lit = []) : s.leaseStep j = (s.endLease j, true) := by
  simp [State.leaseStep, hbegun, hphase, hlit]

end

end

/-! ### A grant for the job in hand (R380) -/

/-- A job that has its last wavelength asked for. -/
def lastPort (j : LeaseJob) : LeaseJob := { j with port := 32, phase := 3 }

/-- The controller waits while a wavelength of its last job trains. -/
theorem leaseWork_trains {u : State} {j : LeaseJob} {p k : Nat} (hjobs : u.fab.jobs = [j]) (hbegun : j.begun = true) (hphase : j.phase = 0)
    (hoff : ∀ a, j.port ≤ a → a < 32 → (u.port a).en = false) (hport : j.port ≤ 32) (hlit : (p, k) ∈ j.lit)
    (hlight : ((u.port p).slot k).light = .training) (hlease : ((u.port p).slot k).lease = some (j.part, j.peer)) :
    u.leaseWork = withHead u (lastPort j) := by
  have hloop := leaseLoop_disabled (s := u) 34 j hoff (by omega)
  rw [Nat.max_eq_right hport] at hloop
  have hwait : (withHead u (lastPort j)).leaseStep (lastPort j) = (withHead u (lastPort j), false) :=
    leaseStep_trains (s := withHead u (lastPort j)) (j := lastPort j) hbegun rfl hlit hlight hlease
  rw [State.leaseWork, leaseRun_step hjobs (.inl hbegun), leaseStep_seeks hbegun hphase hloop]
  show (withHead u (lastPort j)).leaseRun _ = _
  rw [leaseRun_step (s := withHead u (lastPort j)) (j := lastPort j) (r := u.fab.jobs.drop 1) rfl (.inl hbegun), hwait]
  rfl

/-- R380: λk starts training for the job's lease. -/
theorem train_starts {s : State} {j : LeaseJob} {p k : Nat} (hdark : ((s.port p).slot k).light = .dark)
    (hfeed : (s.port p).txf.getLsbD k = false) : s.train j p k =
      (s.modSlot p k (fun _ => { light := .training, lease := some (j.part, j.peer), since := s.clock }),
        { j with port := p + 1, phase := 0, lit := j.lit ++ [(p, k)] }) := by
  simp [State.train, hdark, hfeed]

section
variable {s : State} {f : Flit} {p k q : Nat} {j : LeaseJob} (hp : p < 32) (hk : k < 16) (hq : q < 4)
  (h : Says s f useGrant p k q) (hjobs : s.fab.jobs = [j]) (hbegun : j.begun = true) (hphase : j.phase = 1)
  (hvictim : j.victim = none) (hport : j.port = p) (hwave : j.wave = k) (hpart : j.part = q) (hsrc : f.src = j.peer)
  (hdark : ((s.port p).slot k).light = .dark) (hfeed : (s.port p).txf.getLsbD k = false)
include hp hk hq h hjobs hbegun hphase hvictim hport hwave hpart hsrc hdark hfeed

/-- The job once its request for λk of port p has been granted. -/
def grantedJob (j : LeaseJob) (p k : Nat) : LeaseJob :=
  { j with answered := j.answered + 1, port := p + 1, phase := 0, lit := j.lit ++ [(p, k)] }

theorem grant_trains_eq : exec (.lctlGrant f) s = .next
    (withJobs (s.modSlot p k (fun _ => { light := .training, lease := some (j.part, j.peer), since := s.clock }))
      [grantedJob j p k]).leaseWork := by
  obtain ⟨huse, hfport, hfwave, hfpart⟩ := says_fields h (by decide) hp hk hq
  have hx : exec (.lctlGrant f) s = .next (s.laneAnswer f) := says_arrives h fun s => s.laneAnswer f
  have hgo : (j.begun && decide (j.phase = 1) && decide (f.src = j.peer) && decide (lctlPort f = j.port) &&
      decide (lctlWave f = j.wave) && decide (lctlPart f = j.part)) = true := by
    simp [hbegun, hphase, hsrc, hport, hwave, hpart, hfport, hfwave, hfpart]
  rw [hx]
  cases j
  dsimp only at hvictim hport hwave
  subst hvictim hport hwave
  simp only [State.laneAnswer, hjobs, hgo, huse, if_true]
  rw [train_starts hdark hfeed]
  rfl

theorem grant_trains (hoff : ∀ a, p < a → a < 32 → (s.port a).en = false) : ∃ t, exec (.lctlGrant f) s = .next t ∧
    t.threads = s.threads ∧
    (t.port p).slot k = { light := .training, lease := some (j.part, j.peer), since := s.clock } ∧
    t.fab.jobs = [{ j with answered := j.answered + 1, port := 32, phase := 3, lit := j.lit ++ [(p, k)] }] := by
  have hx := grant_trains_eq hp hk hq h hjobs hbegun hphase hvictim hport hwave hpart hsrc hdark hfeed
  generalize hu : s.modSlot p k (fun _ => { light := .training, lease := some (j.part, j.peer), since := s.clock }) = u at hx
  have hslot : (u.port p).slot k = { light := .training, lease := some (j.part, j.peer), since := s.clock } := by
    rw [← hu]
    exact port_modSlot_slot s _ hp hk
  have hthreads : u.threads = s.threads := by
    rw [← hu]
    exact threads_modPort _ _ _
  have hother : ∀ a, p < a → a < 32 → (u.port a).en = false := by
    intro a ha ha32
    rw [← hu, State.modSlot, port_modPort_other _ _ (by omega)]
    exact hoff a ha ha32
  rw [leaseWork_trains (u := withJobs u [grantedJob j p k]) (j := grantedJob j p k) (p := p) (k := k) rfl hbegun rfl
    (fun a ha => hother a ha) hp (List.mem_append_right _ (List.mem_singleton.2 rfl)) (congrArg TxSlot.light hslot)
    (congrArg TxSlot.lease hslot)] at hx
  exact ⟨_, hx, hthreads, hslot, rfl⟩

end

/-! ### Answers that do not come (R380) -/

theorem relayPaths_withJobs (s : State) (l : List LeaseJob) (x : Nat) : (withJobs s l).relayPaths x = s.relayPaths x := by
  have hnat : ∀ a n, (withJobs s l).homeNat a n = s.homeNat a n := withHome_homeNat (withJobs s l) s
  have hrelay : (withJobs s l).relayOf x = s.relayOf x := by
    unfold State.relayOf
    simp only [hnat]
    rfl
  unfold State.relayPaths
  rw [hrelay]
  rfl

/-- What the controller sends does not depend on its jobs. -/
theorem sendPair_withJobs {s u : State} {x : Nat} {f : Flit} (l : List LeaseJob) (h : s.sendPair x f = some u) :
    (withJobs s l).sendPair x f = some (withJobs u l) := by
  unfold State.sendPair at h ⊢
  rw [relayPaths_withJobs, show (withJobs s l).waves _ = s.waves _ from rfl]
  generalize s.waves _ ++ s.relayPaths x = w at h ⊢
  cases w with
  | nil => cases h
  | cons a w =>
    cases h
    rfl

/-- R380: a port that has what the job wants and needs no victim is asked for. -/
theorem leasePort_asks {s u : State} {j : LeaseJob} {i k : Nat} (hp : j.port < 32) (hen : (s.port j.port).en = true)
    (hi : i < 16) (hne : i ≠ (s.port j.port).pos) (hpeer : (s.port j.port).peerAt i = some j.peer)
    (hfirst : ∀ a, a < i → a = (s.port j.port).pos ∨ (s.port j.port).peerAt a ≠ some j.peer)
    (hk : k = (i + 16 - (s.port j.port).pos) % 16)
    (hslot : (s.port j.port).slot k = { since := ((s.port j.port).slot k).since }) (hbase : (s.port j.port).base.getLsbD k = false)
    (hfeed : (s.port j.port).txf.getLsbD k = false) (hheld : s.heldBy j.part j.peer < j.n)
    (hall : s.heldAll j.part < s.qmaxOf j.part) (hroom : (s.port j.port).txHeld < 8)
    (hsend : s.sendPair j.peer (lctl useRequest j.part j.port k) = some u) : s.leasePort j =
      (u, { j with plane := true, asked := j.asked + 1, phase := 1, wave := k, victim := none, since := u.clock }, .wait) := by
  have hfind : (List.range 16).find? (fun i => decide (i ≠ (s.port j.port).pos) && (s.port j.port).peerAt i = some j.peer) = some i := by
    rw [List.find?_range_eq_some]
    refine ⟨by simp [hne, hpeer], List.mem_range.2 hi, fun a ha => ?_⟩
    rcases hfirst a ha with h | h <;> simp [h]
  have hlight : ((s.port j.port).slot k).light = .dark := by rw [hslot]
  have hlease : ((s.port j.port).slot k).lease = none := by rw [hslot]
  have hsb : ((s.port j.port).slot k).base = false := by rw [hslot]
  have hheld' : ¬ s.heldBy j.part j.peer ≥ j.n := by omega
  have hall' : ¬ s.heldAll j.part ≥ s.qmaxOf j.part := by omega
  have hroom' : ¬ (s.port j.port).txHeld ≥ 8 := by omega
  have hdark : Light.dark.holds = false := rfl
  simp only [State.leasePort, hfind, hen, ← hk, hlight, hlease, hsb, hbase, hfeed, hdark, hsend, hheld', hall', hroom',
    if_neg (Nat.not_le.2 hp)]
  simp

theorem laneRequestTimeout_stays {s : State} {j : LeaseJob} {r : List LeaseJob} (hjobs : s.fab.jobs = j :: r)
    (h : j.begun = false ∨ j.phase ≠ 1 ∨ s.clock < j.since + s.fab.fto * 2400) : exec .laneRequestTimeout s = .next s := by
  show execLaneRequestTimeout s = _
  have hgo : (j.begun && decide (j.phase = 1) && decide (j.since + s.fab.fto * 2400 ≤ s.clock)) = false := by
    rcases h with h | h | h
    · simp [h]
    · simp [h]
    · simp [h]
  simp only [execLaneRequestTimeout, hjobs, hgo, Bool.false_eq_true, if_false]

/-- The job that goes on to its next port. -/
def nextPort (j : LeaseJob) : LeaseJob := { j with phase := 0, port := j.port + 1 }

section
variable {s : State} {j : LeaseJob} {r : List LeaseJob} (hjobs : s.fab.jobs = j :: r) (hbegun : j.begun = true) (hphase : j.phase = 1)
  (hdue : j.since + s.fab.fto * 2400 ≤ s.clock)
include hjobs hbegun hphase hdue

theorem laneRequestTimeout_goes_on : exec .laneRequestTimeout s = .next (withJobs s (nextPort j :: r)).leaseWork := by
  show execLaneRequestTimeout s = _
  have hgo : (j.begun && decide (j.phase = 1) && decide (j.since + s.fab.fto * 2400 ≤ s.clock)) = true := by
    simp [hbegun, hphase, hdue]
  simp only [execLaneRequestTimeout, hjobs, hgo, if_true]
  rfl

/-- The next port is asked. -/
theorem laneRequestTimeout_asks {u : State} {i : LeaseJob} (hi : i.phase = 1)
    (hport : (withJobs s (nextPort j :: r)).leasePort (nextPort j) = (u, i, .wait)) :
    exec .laneRequestTimeout s = .next (withHead u i) := by
  have hloop : (withJobs s (nextPort j :: r)).leaseLoop (nextPort j) 34 = (u, i) := by
    simp only [State.leaseLoop, hport]
  rw [laneRequestTimeout_goes_on hjobs hbegun hphase hdue, State.leaseWork,
    leaseRun_step (s := withJobs s (nextPort j :: r)) (j := nextPort j) (r := r) rfl (.inl hbegun),
    leaseStep_seeks (j := nextPort j) hbegun rfl hloop, hi]
  rfl

end

/-- R380, R382: the last job ends once it has seen its ports. -/
theorem leaseWork_ends {u v : State} {j : LeaseJob} (hjobs : u.fab.jobs = [j]) (hbegun : j.begun = true) (hphase : j.phase = 0)
    (hoff : ∀ a, j.port ≤ a → a < 32 → (u.port a).en = false) (hport : 0 < j.port) (hlit : j.lit = [])
    (hend : (withHead u { j with port := max j.port 32, phase := 3 }).endLease { j with port := max j.port 32, phase := 3 } = v)
    (hover : v.fab.jobs = []) (hlanes : v.fab.laneRequests = []) : u.leaseWork = v := by
  have hloop := leaseLoop_disabled (s := u) 34 j hoff (by omega)
  generalize hi : ({ j with port := max j.port 32, phase := 3 } : LeaseJob) = i at hloop hend
  have hibegun : i.begun = true := by rw [← hi]; exact hbegun
  have hiphase : i.phase = 3 := by rw [← hi]
  have hilit : i.lit = [] := by rw [← hi]; exact hlit
  rw [State.leaseWork, leaseRun_step hjobs (.inl hbegun), leaseStep_seeks hbegun hphase hloop, hiphase]
  show (withHead u i).leaseRun _ = _
  rw [leaseRun_step (s := withHead u i) (j := i) (r := u.fab.jobs.drop 1) rfl (.inl hibegun), leaseStep_over hibegun hiphase hilit, hend]
  exact leaseRun_idle hover hlanes _

section
variable {s : State} {j : LeaseJob} {tid d : Nat} (hjobs : s.fab.jobs = [j]) (hbegun : j.begun = true) (hphase : j.phase = 1)
  (hdue : j.since + s.fab.fto * 2400 ≤ s.clock) (hoff : ∀ p, j.port < p → p < 32 → (s.port p).en = false) (hlit : j.lit = [])
  (hlanes : s.fab.laneRequests = []) (htid : j.tid = some tid) (hrel : j.rel = false) (hmin : j.min = 0)
  (hwait : (s.thread tid).waits = some (.lease j.peer d)) (hsaved : s.savedWait tid = none)
include hjobs hbegun hphase hdue hoff hlit hlanes htid hrel hmin hwait hsaved

theorem laneRequestTimeout_ends : exec .laneRequestTimeout s = .next ((withJobs s []).unpark tid d
    (BitVec.ofNat 64 (s.heldBy j.part j.peer % 64 + j.revoked % 64 * 2 ^ 16))) := by
  rw [laneRequestTimeout_goes_on hjobs hbegun hphase hdue]
  refine congrArg _ (leaseWork_ends (u := withJobs s [nextPort j]) (j := nextPort j) rfl hbegun rfl (fun a ha => hoff a ha)
    (Nat.succ_pos _) hlit ?_ rfl hlanes)
  exact endLease_leased (s := withHead (withJobs s [nextPort j]) { nextPort j with port := max (nextPort j).port 32, phase := 3 })
    (j := { nextPort j with port := max (nextPort j).port 32, phase := 3 }) htid hsaved hwait hrel (hmin.trans_le (Nat.zero_le _)) hlit

theorem laneRequestTimeout_answers (hrevoked : j.revoked < 64) (hheld : s.heldBy j.part j.peer < 64) :
    ∃ t, exec .laneRequestTimeout s = .next t ∧ t.fab = { s.fab with jobs := [] } ∧
      (∀ k, k ≠ tid → t.thread k = s.thread k) ∧ (t.thread tid).life = .ready ∧ (t.thread tid).wait = none ∧
      (t.thread tid).pc = (s.thread tid).pc + 4 ∧ (d < 108 → d ≠ 96 → (t.thread tid).readCode d =
        BitVec.ofNat 64 (s.heldBy j.part j.peer + j.revoked * 2 ^ 16)) := by
  have hx := laneRequestTimeout_ends hjobs hbegun hphase hdue hoff hlit hlanes htid hrel hmin hwait hsaved
  rw [Nat.mod_eq_of_lt hheld, Nat.mod_eq_of_lt hrevoked] at hx
  generalize BitVec.ofNat 64 (s.heldBy j.part j.peer + j.revoked * 2 ^ 16) = v at hx ⊢
  have hthread : ((withJobs s []).unpark tid d v).thread tid =
      { (s.thread tid).writeCode d v with life := .ready, wait := none, pc := (s.thread tid).pc + 4 } := State.thread_modThread _ _ _
  refine ⟨_, hx, rfl, fun k hk => State.thread_modThread_other _ _ _ _ hk, by rw [hthread], by rw [hthread], by rw [hthread],
    fun hd h96 => ?_⟩
  rw [hthread]
  refine ((s.thread tid).readCode_writeCode d d v hd).trans ?_
  rw [if_neg h96, if_pos rfl]

end

end Sys2Proof.Proofs
end

section
/-! Proofs, family 14 (chairli): wavelengths and leases follow the light (R374–R376, R379–R382, R391, R407). -/

namespace Sys2Proof.Proofs

open Sys2Proof Sys2Proof.Machine Sys2Proof.Claim

/-- The wavelengths that module `m` feeds (R375). -/
def Fed (m p k : Nat) : Prop := p < 32 ∧ k < 16 ∧ p / 8 = m / 4 ∧ k / 4 = m % 4

theorem fed_iff {m p k : Nat} (hm : m < 16) : Fed m p k ↔ (p, k) ∈ moduleSlots m := by
  rw [mem_moduleSlots]
  dsimp only [Fed]
  omega

section
variable {s : State} {m : Nat} (hm : m < 16)
include hm

theorem moduleFails_wave {p k : Nat} (hp : p < 32) (hk : k < 16) :
    (Fed m p k → ((failedFeeds s m).port p).txf.getLsbD k = true ∧ (((failedFeeds s m).port p).slot k).light =
      (if ((s.port p).slot k).light = .dark then .dark else .lost)) ∧
    (¬ Fed m p k → ((failedFeeds s m).port p).txf.getLsbD k = (s.port p).txf.getLsbD k ∧
      ((failedFeeds s m).port p).slot k = (s.port p).slot k) := by
  have hview := viewAt_failedFeeds s m (w := (p, k)) ⟨hp, hk⟩
  rw [fed_iff hm]
  refine ⟨fun h => ?_, fun h => ?_⟩
  · rw [if_pos h] at hview
    exact ⟨congrArg WaveView.txf hview, (congrArg (fun v => v.slot.light) hview).trans (light_darkened _)⟩
  · rw [if_neg h] at hview
    exact ⟨congrArg WaveView.txf hview, congrArg WaveView.slot hview⟩

theorem moduleShines_wave {p k : Nat} (hp : p < 32) (hk : k < 16) :
    (Fed m p k → ((restoredFeeds s m).port p).txf.getLsbD k = false ∧ ((restoredFeeds s m).port p).slot k =
      (if ((s.port p).slot k).light ≠ .lost then (s.port p).slot k
       else if (s.port p).en = true ∧ (s.port p).base.getLsbD k = true ∧ ((s.port p).slot k).base = true then
         { light := .lit, base := true, since := s.clock }
       else { since := s.clock })) ∧
    (¬ Fed m p k → ((restoredFeeds s m).port p).txf.getLsbD k = (s.port p).txf.getLsbD k ∧
      ((restoredFeeds s m).port p).slot k = (s.port p).slot k) := by
  have hview := viewAt_restoredFeeds s m (w := (p, k)) ⟨hp, hk⟩
  rw [fed_iff hm]
  refine ⟨fun h => ?_, fun h => ?_⟩
  · rw [if_pos h] at hview
    by_cases hlost : ((s.port p).slot k).light = .lost
    · rw [relit_of_lost (v := { viewAt s (p, k) with txf := false }) hlost] at hview
      rw [if_neg (not_not.2 hlost)]
      exact ⟨congrArg WaveView.txf hview, congrArg WaveView.slot hview⟩
    · rw [relit_of_not_lost (v := { viewAt s (p, k) with txf := false }) hlost] at hview
      rw [if_pos hlost]
      exact ⟨congrArg WaveView.txf hview, congrArg WaveView.slot hview⟩
  · rw [if_neg h] at hview
    exact ⟨congrArg WaveView.txf hview, congrArg WaveView.slot hview⟩

end

/-- Settles O55: ports by the writes of PLIT, wavelengths and modules by their events, lanes and the job in hand by the flits that
concern them. -/
theorem wavelengthsFollowTheLight : Obligations.WavelengthsFollowTheLight := by
  unfold Obligations.WavelengthsFollowTheLight
  refine ⟨?_, ?_, ?_, ?_, ?_, ?_⟩
  · intro s who p v x hp hx hmay hjobs hlanes
    subst hx
    refine ⟨fun fn hwho hen hbase hcount hpeer => ?_, fun fn hwho hen => ?_, fun core slot hwho i hi => ?_⟩
    · subst hwho
      exact portEnable_lights hp hmay hen hbase hcount hpeer
    · subst hwho
      exact portDisable_drains hp hmay hen hjobs hlanes
    · subst hwho
      exact port_refused hmay hi
  · intro s p k x hp hk hx hjobs hlanes
    subst hx
    refine ⟨wavelengthLock_stays, wavelengthLock_lights hp hk hjobs hlanes, trainingTimeout_stays,
      trainingTimeout_darkens hp hk hjobs hlanes, fun h => wavelengthDrained_stays ?_,
      fun hlight h => wavelengthDrained_darkens hp hk hjobs hlanes hlight ?_, fun f q hq hreach =>
        ⟨revocation_drains hp hk hq hreach, lossNotice_loses hp hk hq hreach hjobs hlanes, lossNotice_known hp hk hq hreach⟩⟩
    · rw [waveBusy_iff]
      exact h
    · rw [ne_eq, waveBusy_iff]
      exact h
  · intro s m hjobs hlanes hm
    refine ⟨fun h => laserFeedFailure_known fun w hw => h w.1 w.2 ((fed_iff hm).2 hw), fun ⟨p, k, hfed, h⟩ => ?_,
      fun h => lightRestored_known hm fun w hw => h w.1 w.2 ((fed_iff hm).2 hw), fun ⟨p, k, hfed, h⟩ => ?_⟩
    · exact ⟨_, laserFeedFailure_fails hm hjobs hlanes ⟨(p, k), (fed_iff hm).1 hfed, h⟩, (quiet_failedFeeds s m).threads,
        fun a b ha hb => moduleFails_wave hm ha hb⟩
    · exact ⟨_, lightRestored_restores hm hjobs hlanes ⟨(p, k), (fed_iff hm).1 hfed, h⟩, (quiet_restoredFeeds s m).threads,
        fun a b ha hb => moduleShines_wave hm ha hb⟩
  · intro s p k r hp hk hr
    subst hr
    refine ⟨lossOfLight_stays, lossOfLight_marks hp hk, fun hlos => ?_, lightRestored_clears hp hk⟩
    rw [lightRestored_lane hk, if_neg (by rw [hlos]; decide)]
  · intro s f p k q r hp hk hq hr
    subst hr
    refine ⟨fun j l hjobs hbegun hphase h => laneRequest_waits h hjobs hbegun hphase, fun hjobs hlanes h hmine => ?_,
      fun hlanes hwaits h hmine hlease => ?_, fun hjobs h => refusal_ignored hp hk hq hjobs h,
      fun hjobs hlanes h => grant_given_back hp hk hq hjobs hlanes h, ?_⟩
    · obtain ⟨hen, hhears⟩ := hmine
      obtain ⟨-, hport, hwave, hpart⟩ := says_fields h (by decide) hp hk hq
      have hserved := fun g => lanesEnd_of_served (g := g) h hjobs hlanes
      exact ⟨fun hfree hroom => hserved _
            (serveLane_gives (s := soleRequest s f) hport hwave hpart hen hhears hp hfree hroom),
        fun hfree hfull => ⟨fun v hv => hserved _
            (serveLane_revokes_other (s := soleRequest s f) hport hwave hpart hen hhears hp hfree hfull hv),
          fun hnone => hserved _
            (serveLane_refuses_full (s := soleRequest s f) hport hwave hpart hen hhears hfree hfull hnone)⟩,
        fun z y hassigned hlease hrevoked hother =>
          ⟨fun hr => hserved _
            (serveLane_revokes (s := soleRequest s f) hport hwave hpart hen hhears hassigned hlease hrevoked hother hp hr),
            fun hr => hserved _
            (serveLane_refuses_leased (s := soleRequest s f) hport hwave hpart hen hhears hassigned hlease hrevoked hother hr)⟩,
        fun hassigned hlease => hserved _
            (serveLane_refuses_base (s := soleRequest s f) hport hwave hpart hen hhears hassigned hlease)⟩
    · obtain ⟨hen, hhears⟩ := hmine
      exact ⟨fun z y hheir => release_gives hp hk hq h hen hhears hlease hlanes hheir,
        fun hheir => release_frees hp hk hq h hen hhears hlease hlanes hwaits hheir⟩
    · intro j hjobs hbegun hphase hvictim hport hwave hpart hsrc hoff hdark hfeed h
      exact grant_trains hp hk hq h hjobs hbegun hphase hvictim hport hwave hpart hsrc hdark hfeed hoff
  · intro s j r hjobs
    refine ⟨laneRequestTimeout_stays hjobs, ?_, ?_⟩
    · intro p i k u hbegun hphase hdue hport hp hen hi hne hpeer hfirst hk hslot hbase hfeed hheld hall hroom hsend
      subst hport
      have hasks := leasePort_asks (s := withJobs s (nextPort j :: r)) (j := nextPort j) hp hen hi hne hpeer hfirst hk hslot hbase hfeed
        hheld hall hroom (sendPair_withJobs _ hsend)
      have hx := laneRequestTimeout_asks hjobs hbegun hphase hdue rfl hasks
      obtain ⟨n, w, rfl⟩ := sent_sendOn hsend
      refine ⟨_, hx, rfl, rfl, rfl, ?_⟩
      cases j
      dsimp only at hphase
      subst hphase
      rfl
    · intro tid d hr hbegun hphase hdue hoff hlit hlanes htid hrel hmin hrevoked hwait hsaved hheld
      subst hr
      exact laneRequestTimeout_answers hjobs hbegun hphase hdue hoff hlit hlanes htid hrel hmin hwait hsaved hrevoked hheld

end Sys2Proof.Proofs
end
